-- ==== Sys2Proof/Word.lean ====
section
/-! DEFINITION. The plain types of the model: bytes, register words, sparse tables. -/

namespace Sys2Proof

/-- A byte of a ring entry, frame or memory. -/
abbrev Byte := BitVec 8

/-- A 32-bit register word (R16). -/
abbrev Word := BitVec 32

/-- A string of bytes, first byte first (lowest address first). -/
abbrev Bytes := List Byte

/-- A sparse table: what stands at the listed keys; an unlisted key holds its table's reset value.
Kept with keys strictly rising and no entry equal to its reset value. -/
abbrev Tbl (α : Type) := List (Nat × α)

/-- Byte-addressed memory: `Host.Cell` pairs in the same canonical form. -/
abbrev Memory := List (Nat × BitVec 8)

end Sys2Proof
end

