-- ==== Sys2Proof/Syntax.lean ====
section
/-! DEFINITION. The commands of the block: one constructor per row of the opcode table. -/

namespace Sys2Proof

/-- An admin or table command as it was taken from its ring (R306): the issuing function, the table command queue
it came on (none: the function's admin queue), its ring index and its 64 bytes. -/
structure Cmd where
  fn : Nat
  tcq : Option Nat := none
  idx : Nat := 0
  bytes : Bytes := []
  deriving DecidableEq, Repr

/-- How a DMA read ended (R283, R289, R374). -/
inductive ReadRes where
  | ok | timeout | unsupported | abort | poisoned
  deriving DecidableEq, Repr

/-- Which read of the device a completion timeout hit (R374, R406). -/
inductive ReadKind where
  /-- The doorbell record of a queue: QTYPE 0 to 3, 4 the AQ, 5 the EQ. -/
  | record (qtype lq : Nat)
  /-- A descriptor or list of a TX (0) or RX (1) queue. -/
  | descriptor (qtype lq : Nat)
  /-- The data of the oldest packet of a TX queue still to be read. -/
  | data (lq : Nat)
  /-- A byte of the dirty bitmap of the function (R406). -/
  | bitmap
  /-- An admin command's ring entry or buffer. -/
  | admin
  deriving DecidableEq, Repr

/-- What a completion arriving at a host port answers: a read the device no longer waits for, or one it waits for (R373, R374). -/
inductive CplKind where
  | late
  | read (k : ReadKind)
  deriving DecidableEq, Repr

/-- A TLP arriving at a host port (R373, R374, R381, R383). -/
structure Tlp where
  /-- Memory write (true) or memory read. -/
  write : Bool
  fn : Nat
  /-- BAR 0, 2 or 4; 3 for a configuration request. -/
  bar : Nat
  off : Nat
  /-- Data of a write; a read asks for `len` bytes. -/
  data : Bytes := []
  len : Nat := 0
  poisoned : Bool := false
  malformed : Bool := false
  /-- It is a completion. One that answers a read in wait and is not poisoned does nothing here: the row of that read takes it. -/
  cpl : Option CplKind := none
  /-- The first four dwords of the header. -/
  hdr : List Word := []
  deriving DecidableEq, Repr

/-- Who carries an SPDM message: the DOE mailbox of a host port, or the management bus (R385). -/
inductive Carrier where
  | doe (h : Nat)
  | mctp
  deriving DecidableEq, Repr

/-- Why a source counts as lost (R62, R81). -/
inductive LossCause where
  | ptp | pps | hostTimeout | cluster0 | eec
  deriving DecidableEq, Repr

/-- How a PTP message came in (R79, R120): its transport, its stamp (R17), and the place of the launch of an answer. -/
structure PtpRx where
  transport : Nat
  stamp : Nat
  sub : Nat := 0
  a : Nat := 0
  deriving DecidableEq, Repr

/-- Which message the time service sends (R77), and the place of its launch (R120). -/
structure PtpSend where
  kind : Nat
  sub : Nat := 0
  a : Nat := 0
  deriving DecidableEq, Repr

/-- How the DRAM's code found a line (R457, R458). -/
inductive LineRes where
  | good | corrected | uncorrectable
  deriving DecidableEq, Repr

/-- What the boot finds of a memory channel (R446–R448): `cause` 0 usable, 1 empty, 2 unsupported DIMM, 3 training
failed; its DIMMs, ranks, size of a rank in GiB, device density in Gb, the serial number of each DIMM, whether the pass that checks
stored results over each rank's first row succeeds, and the hottest reading. -/
structure ChTrain where
  cause : Nat
  dimms : Nat
  ranks : Nat
  rankGib : Nat
  density : Nat
  serials : List Nat
  check : Bool
  temp : Int
  deriving DecidableEq, Repr

/-- The commands, in the order of the opcode table. -/
inductive Instr where
  /-- REGISTER_WRITE (R35): A host register write with no behaviour of its own reaches its warden over the control ring and takes effect in issue order. -/
  | registerWrite (fn bar off : Nat) (v : Word)
  /-- COUNTER_LOW_READ (R114): A read of a 64-bit counter's low word latches its high word for the next read. -/
  | counterLowRead (fn off : Nat)
  /-- COMMIT (R38): A write of 1 to a commit group's COMMIT captures every shadow field of the group, or is ignored with COMMIT_REJ while a commit is pending. -/
  | commit (base : Nat)
  /-- LOCK (R37): A write of 1 to a group's LOCK makes its RWL fields read-only until a unit, warm or cold reset. -/
  | lock (base : Nat)
  /-- COMMIT_POINT (R41): At the group's commit point, at a frame or command boundary, the warden validates the captured set and applies it whole, or refuses it. -/
  | commitPoint (base : Nat) (dir : Nat)
  /-- XING_DELIVER (R21): An entry written into an inter-island handshake FIFO becomes readable on the destination side 2 to 6 destination cycles later. -/
  | xingDeliver (src dst : Nat)
  /-- TIME_TICK (R55): On each time-clock tick every string, fret and time tap adds its effective increment to its time. -/
  | timeTick
  /-- CODE_CYCLE (R26): Every 1,024 ticks the code lane carries each present string's tick number, time, increment, state and u_string to every fret and time tap. -/
  | codeCycle (badCrc : List Nat) (drifts : List (Nat × Int))
  /-- SCHEDULED_APPLY (R27): At its stated tick a pending increment change, step, LOAD or UTC data change is applied on every fret and time tap together. -/
  | scheduledApply (str : Nat)
  /-- TIME_BUS_DELAY_MEASURE (R28): Every 2^20 code cycles, and when an island turns ON, the time island measures and compensates each receiving island's time-bus delay. -/
  | timeBusDelayMeasure (island delay : Nat)
  /-- FRET_VALID (R30): Within 10 µs of reset end or power-up a port island's fret or a time tap becomes valid and its lanes may be enabled. -/
  | fretValid (island : Nat)
  /-- TREF_LOST (R53): Loss of TREF_IN or departure from the lock range makes the time PLL hold, sets TPLL_HOLD, posts TREF_LOST and counts as loss of source. -/
  | trefLost
  /-- TPLL_RELOCK (R53): When TREF_IN returns and the time PLL relocks, TPLL_HOLD clears and strings return to their sources. -/
  | tpllRelock
  /-- TREF_SEL_WRITE (R52): A write that changes TREF_SEL takes effect at once if every string is in DRONE and is otherwise ignored with TREF_SEL_REJ. -/
  | trefSelWrite (v : Word)
  /-- SLEW_END (R56): When a slew's duration |δ|/SLEW_LIMIT has elapsed, SLEW returns to 0. -/
  | slewEnd (str : Nat)
  /-- ACCEPTED_OFFSET (R61): An accepted offset enters the string state rules and is stepped, corrected by rate, counted or refused. -/
  | acceptedOffset (str port : Nat) (o : Int) (rxTick txTick : Nat)
  /-- SOURCE_LOST (R62): A PTP announce timeout, 2.5 s without a qualified pulse, HOST_TIMEOUT without a host offset, or cluster 0 unavailable declares the source lost. -/
  | sourceLost (str : Nat) (why : LossCause)
  /-- DISPUTE_TIMER_EXPIRY (R61): When the dispute timer reaches DISPUTE_TIMEOUT the string stays DISPUTED with no automatic return. -/
  | disputeTimerExpiry (str : Nat)
  /-- LEAP_APPLY (R51): A UTC_OFFSET change carried with LEAP61 or LEAP59 applies at the end of the UTC day and the indicator clears. -/
  | leapApply (str : Nat)
  /-- PPS_IN_PULSE (R83): An edge on PPS_IN0 or PPS_IN1 is stamped, corrected by DELAY and, if qualified, yields an offset. -/
  | ppsInPulse (i : Nat) (rising : Bool) (sub : Nat)
  /-- PPS_OUT_EDGE (R84): At every whole second of its string less ADVANCE, a PPS output drives its active edge for WIDTH µs. -/
  | ppsOutEdge (i : Nat) (active : Bool)
  /-- PTP_MESSAGE (R79): A PTP message classified to a string's instance is handled by the time service. -/
  | ptpMessage (port cls : Nat) (rx : PtpRx) (msg : Bytes)
  /-- PTP_MESSAGE_TX (R77): At its configured message rate the time service sends Sync, Delay_Req or Announce on a PTP port. -/
  | ptpMessageTx (str port : Nat) (m : PtpSend)
  /-- ESMC_PDU_RX (R82): A received ESMC PDU updates the port's QL and, with QL_MODE, the EEC input selection. -/
  | esmcPduRx (port : Nat) (pdu : Bytes)
  /-- ESMC_PDU_TX (R82): Once per second the time service sends an ESMC information PDU. -/
  | esmcPduTx (port : Nat) (event : Bool)
  /-- ESMC_QL_FAILED (R82): Five seconds without an ESMC PDU declares QL-FAILED on the port. -/
  | esmcQlFailed (port : Nat)
  /-- TIME_SET_SOURCE (R76): Selects a string's source and, from DRONE, moves it to ACQUIRE with the step armed. -/
  | timeSetSource (c : Cmd)
  /-- TIME_LOAD (R91): In DRONE, schedules a new time value at the chosen application tick and completes after it. -/
  | timeLoad (c : Cmd)
  /-- TIME_SET_INCR (R91): In DRONE, schedules a new drone increment at the chosen application tick. -/
  | timeSetIncr (c : Cmd)
  /-- TIME_SET_DRONE (R61): Returns a string to DRONE, keeping its time and clearing its source and flags. -/
  | timeSetDrone (c : Cmd)
  /-- TIME_REANCHOR (R61): Returns a string to ACQUIRE with the step armed and writes a RE-ANCHOR record while the journal is open. -/
  | timeReanchor (c : Cmd)
  /-- TIME_HOST_OFFSET (R92): In host ownership presents one offset to the state rules and returns its RESULT. -/
  | timeHostOffset (c : Cmd)
  /-- TIME_HOST_FREQ (R93): In host ownership sets a string's FREQ. -/
  | timeHostFreq (c : Cmd)
  /-- TIME_SET_UTC (R93): In host ownership sets the UTC offset, leap indicators and traceability flags. -/
  | timeSetUtc (c : Cmd)
  /-- TIME_READ (R94): Writes a 32-byte snapshot of a string taken at one tick to host memory. -/
  | timeRead (c : Cmd)
  /-- TIME_PTP_CLOCK (R95): Sets a PTP instance's clock data set. -/
  | timePtpClock (c : Cmd)
  /-- TIME_PTP_PORT (R96): Sets one PTP port data set. -/
  | timePtpPort (c : Cmd)
  /-- TIME_NOW_READ (R98): A read of TIME_NOW's fraction word snapshots the whole string time into the other words. -/
  | timeNowRead (str : Nat)
  /-- FRAME_RX (R108): A frame received whole at a port island is stamped, checked and dropped, consumed or passed to its ingress pipe. -/
  | frameRx (port_ : Nat) (bytes : Bytes) (badFcs : Bool) (sub q corr uncorr syms : Nat)
  /-- PAUSE_EXPIRY (R109): A received pause or PFC hold runs out and the port or queues may start frames again. -/
  | pauseExpiry (port_ : Nat)
  /-- PAUSE_REPEAT (R109): Each time half of QUANTA has elapsed while above XOFF the port repeats its flow-control frame. -/
  | pauseRepeat (port_ : Nat)
  /-- NEGOTIATION_RESOLVED (R104): Clause 73 negotiation ends with or without a common mode and posts PARTNER_ABILITY. -/
  | negotiationResolved (port_ tech fec : Nat) (c0 c1 : Bool) (ext : Nat)
  /-- LINK_TRAINING_DONE (R105): Link training ends with all lanes trained or a lane failed, and TRAINING_RESULT is posted. -/
  | linkTrainingDone (port_ ok : Nat)
  /-- LINK_UP (R105): Block lock, alignment and FEC lock bring the port UP, the link-up terms are measured and LINK_UP is posted. -/
  | linkUp (port_ : Nat) (lrx ltx : Int)
  /-- LINK_SIGNAL_LOSS (R105): Loss of signal, lock or alignment or a local fault moves an UP port to HOLD_DOWN or down. -/
  | linkSignalLoss (port_ cause : Nat) (midRx : Bool)
  /-- HOLD_DOWN_EXPIRY (R105): HOLD_DOWN ms expire without recovery and the port restarts bring-up with LINK_DOWN. -/
  | holdDownExpiry (port_ : Nat)
  /-- HOLD_RECOVERED (R105): The loss condition clears within HOLD_DOWN and the port returns to UP. -/
  | holdRecovered (port_ : Nat) (lrx ltx : Int)
  /-- REMOTE_FAULT (R105): A received remote fault or its clearing sets or clears REMOTE_FAULT, holds transmit and posts PORT_FAULT. -/
  | remoteFault (port_ : Nat) (on : Bool)
  /-- PORT_LINK_RESTART (R115): Takes a port to DISABLED and restarts its bring-up. -/
  | portLinkRestart (c : Cmd)
  /-- PORT_ISLAND_RESET (R113): Resets one port island, disabling its ports and reapplying its configuration. -/
  | portIslandReset (c : Cmd)
  /-- ISLAND_READY (R113): When FRET_VALID is set and every configured port has left DISABLED the island reset completes and ISLAND_READY is posted. -/
  | islandReady (island : Nat)
  /-- PORT_STATS (R115): Writes a port's counters taken at one instant, optionally clearing them. -/
  | portStats (c : Cmd)
  /-- TX_LAUNCH (R120): At its planned block boundary the transmit hold launches a frame, fixing its transmit stamp and applying any one-step rewrite. -/
  | txLaunch (port_ : Nat)
  /-- CAL_UPDATE (R144): Validates and writes up to 16 calibration entries to flash, applies them and posts CAL_CHANGED. -/
  | calUpdate (c : Cmd) (flash : Nat)
  /-- CAL_ENTRY_APPLY (R144): Each port applies a new calibration entry at its next inter-frame gap in each direction. -/
  | calEntryApply (port_ : Nat) (tx : Bool)
  /-- CAL_MEASURE (R147): Runs COUNT calibration frames on a port and reports round-trip statistics. -/
  | calMeasure (c : Cmd)
  /-- CAL_FRAME_TX (R147): A calibration frame of a running measurement is launched at an inter-frame gap, at most one per microsecond. -/
  | calFrameTx (port_ sub a : Nat)
  /-- CAL_FRAME_LOST (R147): A calibration frame not returned within 100 µs of launch is counted lost. -/
  | calFrameLost (port_ : Nat)
  /-- CAL_READ (R149): Writes the calibration table in effect to host memory. -/
  | calRead (c : Cmd)
  /-- INGRESS_FRAME (R152): A frame reaching its ingress pipe is parsed, keyed, looked up, policed, witnessed at the tap and sent on by its queue kind. -/
  | ingressFrame (pipe : Nat)
  /-- DEEP_PARSE (R163): A queued frame is deep-parsed by walking the parse graph from node 0. -/
  | deepParse (j : Nat)
  /-- DRAM_LOOKUP_DONE (R169): A DRAM-tier table lookup returns its hit or miss for a waiting frame. -/
  | dramLookupDone (pipe : Nat) (poisoned : Bool) (chan : Nat)
  /-- DRAM_SHED (R189): In each second in which DRAM-tier lookups were shed, DRAM_SHED is posted with the count. -/
  | dramShed
  /-- TBL_INSERT (R172): Inserts entries into a logical table with cuckoo displacement and stash. -/
  | tblInsert (c : Cmd)
  /-- TBL_MODIFY (R173): Replaces QUEUE, ACTION, FLAGS and SESSION of existing entries in one write each. -/
  | tblModify (c : Cmd)
  /-- TBL_DELETE (R186): Deletes entries by key. -/
  | tblDelete (c : Cmd)
  /-- TBL_READ (R186): Returns stored entries for the given keys. -/
  | tblRead (c : Cmd)
  /-- TBL_CLEAR (R186): Deletes every entry of a table that the caller may delete. -/
  | tblClear (c : Cmd)
  /-- SESSION_SET (R188): Writes session contexts. -/
  | sessionSet (c : Cmd)
  /-- SESSION_READ (R186): Returns session contexts. -/
  | sessionRead (c : Cmd)
  /-- POLICER_SET (R182): Sets policers, filling both buckets and keeping their counts. -/
  | policerSet (c : Cmd)
  /-- POLICER_READ (R188): Returns a policer, its bucket levels and colour counts. -/
  | policerRead (c : Cmd)
  /-- RSS_SET (R184): Sets a function's hash and indirection table entries. -/
  | rssSet (c : Cmd)
  /-- COURSE_INTAKE (R195): A frame entering a course is held in its reorder store, or released at once as LATE, string-mismatched, old-epoch or overflow. -/
  | courseIntake (course_ : Nat)
  /-- COURSE_RELEASE (R200): When the course's time tap reaches a held frame's t + W the frame is released in order with its sequence number and flags. -/
  | courseRelease (course_ : Nat)
  /-- EPOCH_WINDOW_END (R214): W after a drain, old-epoch stragglers stop being released without LATE. -/
  | epochWindowEnd (course_ : Nat)
  /-- W_SHRINK (R204): A smaller hold window takes effect once the old W has elapsed after its trigger, and COURSE_W_CHANGED is posted. -/
  | wShrink (course_ : Nat)
  /-- COURSE_LATE (R209): COURSE_LATE is posted at the first LATE frame and then at most once per second with the count. -/
  | courseLate (course_ : Nat)
  /-- COURSE_EARLY (R211): COURSE_EARLY is posted at the first EARLY frame and then at most once per second with the count. -/
  | courseEarly (course_ : Nat)
  /-- COURSE_SEQ_SET (R224): Sets a disabled course's next sequence value. -/
  | courseSeqSet (c : Cmd)
  /-- COURSE_DRAIN (R221): Releases the frames held at the command's start with EARLY and completes when the last is released. -/
  | courseDrain (c : Cmd)
  /-- COURSE_STATS (R224): Writes a course's counters taken at one instant, optionally clearing them. -/
  | courseStats (c : Cmd)
  /-- ORPHAN_TIMEOUT (R236): An INGRESS record not complete HOLD_US after its tap is completed without a sequence and counted in ORPHANS. -/
  | orphanTimeout (id : Nat)
  /-- EPOCH_BOUNDARY (R238): At an epoch boundary of the journal string the open ashlar closes and the next opens, ending any gap with a GAP record. -/
  | epochBoundary
  /-- LONG_CLOSE (R239): With no boundary within 2 × EPOCH_US ticks the open ashlar closes with LONG_CLOSE. -/
  | longClose
  /-- ASHLAR_SEALED (R244): An ashlar whose records are all leaf-hashed and whose tree is complete is sealed and queued for the drives. -/
  | ashlarSealed (lost : List Nat)
  /-- CAPSTONE_BOUNDARY (R251): At a capstone boundary or cut the device makes a capstone covering every ashlar closed and not yet covered. -/
  | capstoneBoundary
  /-- CAPSTONE_SIGNED (R258): Once its last ashlar is sealed a capstone is signed, written to the ring, posted as CAPSTONE and stored in the journal. -/
  | capstoneSigned
  /-- EXTENT_DURABLE (R264): Drive acknowledgements make an extent durable and advance the durable watermark. -/
  | extentDurable (poisoned : Bool)
  /-- SUPERBLOCK_WRITE (R264): Within 100 ms of a watermark change the superblock is rewritten with FUA, alternating copies. -/
  | superblockWrite
  /-- JOURNAL_OPENING_DONE (R267): The restart or genesis ashlar becomes durable, record admission starts and WIT_RESTART is posted. -/
  | journalOpeningDone
  /-- JOURNAL_CLOSED (R272): After EN 0 the closing capstone becomes durable or posted and EN_ACT clears. -/
  | journalClosed
  /-- WIT_MARK (R274): Writes a MARK record and returns its final place in its ashlar. -/
  | witMark (c : Cmd)
  /-- EVIDENCE_READ (R268): Returns a held ashlar header, records, capstone, proof or extent location. -/
  | evidenceRead (c : Cmd)
  /-- WIT_RELEASE (R265): Sets RELEASED_INDEX, allowing older evidence to be overwritten. -/
  | witRelease (c : Cmd)
  /-- WIT_CERTS (R274): Writes the requested DeviceID and Alias certificates. -/
  | witCerts (c : Cmd)
  /-- WIT_CAP_RING (R258): Sets the host capstone ring base and slot count. -/
  | witCapRing (c : Cmd)
  /-- WIT_HALF (R269): Releases or returns a witness half at the next epoch boundary. -/
  | witHalf (c : Cmd)
  /-- WIT_HALF_DONE (R269): A released half becomes idle, the release completes and WIT_HALF_DONE is posted. -/
  | witHalfDone (h : Nat)
  /-- WIT_STATS (R274): Writes the witness counters taken at one instant. -/
  | witStats (c : Cmd)
  /-- TX_DB (R282): A write to a TX queue doorbell makes the device read the queue's doorbell record. -/
  | txDb (fn lq : Nat)
  /-- RX_DB (R282): A write to an RX queue doorbell makes the device read the queue's doorbell record. -/
  | rxDb (fn lq : Nat)
  /-- CQ_DB (R302): A write to a CQ doorbell reads its consumer index, frees slots for parked completions and with ARM arms the CQ. -/
  | cqDb (fn lq : Nat) (v : Word)
  /-- AQ_DB (R282): A write to the admin queue doorbell makes the device read the AQ's doorbell record. -/
  | aqDb (fn : Nat)
  /-- EQ_DB (R282): A write to the event queue doorbell reads its consumer index and with ARM arms it. -/
  | eqDb (fn : Nat) (v : Word)
  /-- TCQ_DB (R313): A write to a table command queue doorbell makes the device read its doorbell record. -/
  | tcqDb (fn j : Nat)
  /-- PUSH_CTL (R286): A PUSH_CTL write accepts the pushed TX descriptors as fetched, or acts as a TX_DB write. -/
  | pushCtl (fn lq : Nat) (v : Word)
  /-- DOORBELL_RECORD_READ (R283): A doorbell record read completes and its HOST_IDX is checked and taken, or the queue enters ERROR. -/
  | doorbellRecordRead (fn qtype lq : Nat) (res : ReadRes)
  /-- FETCH_TURN (R295): The host port's arbiter gives a TX queue a turn and fetches descriptors up to BURST and a packet boundary. -/
  | fetchTurn (h : Nat)
  /-- TX_DESC_FETCH (R288): A TX descriptor or list read returns and is assembled into packets or completed with a defect status. -/
  | txDescFetch (fn lq : Nat) (res : ReadRes)
  /-- TX_DATA_FETCH (R289): A packet's data read returns, is spoof-checked for VFs and enters the packet buffer or completes with its status. -/
  | txDataFetch (fn lq : Nat) (res : ReadRes)
  /-- SPOOF_DETECTED (R401): SPOOF_DETECTED is posted to the parent PF at most once per second per VF. -/
  | spoofDetected (vf : Nat)
  /-- RX_DELIVERY (R290): A frame for a host RX queue is written over its descriptors and its completion is written or parked. -/
  | rxDelivery (h : Nat)
  /-- MOD_TIME_EXPIRY (R302): MOD_TIME after the first pending completion an armed CQ signals its interrupt. -/
  | modTimeExpiry (fn lq : Nat)
  /-- IDENTIFY (R312): Writes the function's 4 KiB Identify data. -/
  | identify (c : Cmd)
  /-- CQ_CREATE (R310): Creates a completion queue. -/
  | cqCreate (c : Cmd)
  /-- TXQ_CREATE (R310): Creates a TX queue bound to a CQ, in STOPPED. -/
  | txqCreate (c : Cmd)
  /-- RXQ_CREATE (R310): Creates an RX queue bound to a CQ, in STOPPED. -/
  | rxqCreate (c : Cmd)
  /-- TCQ_CREATE (R313): Creates a table command queue, in STOPPED. -/
  | tcqCreate (c : Cmd)
  /-- QSTART (R297): Moves a STOPPED queue to RUNNING and reads its record. -/
  | qstart (c : Cmd)
  /-- QSTOP (R299): Stops a queue, giving each fetched packet or descriptor exactly one completion before completing. -/
  | qstop (c : Cmd)
  /-- QDESTROY (R297): Destroys a STOPPED or ERROR queue, or an unbound CQ. -/
  | qdestroy (c : Cmd)
  /-- QSET (R309): Changes a queue's weight, burst, moderation or vector. -/
  | qset (c : Cmd)
  /-- QQUERY (R311): Writes a diagnostic snapshot of a queue. -/
  | qquery (c : Cmd)
  /-- AQ_CFG_WRITE (R315): A write of AQ_CFG enables or disables the admin queue, setting CFG_BAD on invalid size. -/
  | aqCfgWrite (fn : Nat) (v : Word)
  /-- EQ_CFG_WRITE (R315): A write of EQ_CFG enables or disables the event queue. -/
  | eqCfgWrite (fn : Nat) (v : Word)
  /-- EGRESS_ENQUEUE (R336): A frame enters a port's egress queue if buffer admission accepts it, and is otherwise refused by its source's rule. -/
  | egressEnqueue (pipe : Nat)
  /-- ADMISSION_DROP (R338): ADMISSION_DROP is posted at most once per second while refusals continue. -/
  | admissionDrop
  /-- SCHEDULER_SELECT (R323): At each point a port can start a frame the scheduler picks the lowest eligible strict queue or the DRR group. -/
  | schedulerSelect (port_ lead a : Nat)
  /-- GATE_ENTRY_CHANGE (R328): At the end of a gate list entry's interval, or a cycle's end, the next entry's gate states apply. -/
  | gateEntryChange (port_ : Nat)
  /-- CONFIG_CHANGE_TIME (R330): At ConfigChangeTime the pending gate list starts its first cycle and GATE_CHANGED is posted. -/
  | configChangeTime (port_ : Nat)
  /-- GATE_OVERRUN (R334): GATE_OVERRUN is posted at most once per second per port with the overruns since the last posting. -/
  | gateOverrun (port_ : Nat)
  /-- SCHED_STATS (R341): Writes a port's scheduling counters taken at one instant. -/
  | schedStats (c : Cmd)
  /-- PLUMB_ENQUEUE (R347): The home pipe takes a plumb packet, reads T_enq, plans each member's launch and hands out one copy per member. -/
  | plumbEnqueue (g : Nat) (phase : Int) (am : List (Nat × Nat))
  /-- PLUMB_LAUNCH (R349): At its planned t_L a plumb copy is launched, or completes RELEASE_MISSED or LINK_DOWN. -/
  | plumbLaunch (port_ : Nat)
  /-- PLUMB_COPY_TIMEOUT (R353): A copy not launched within 1.5 × 10^9 ticks of T_enq completes RELEASE_MISSED. -/
  | plumbCopyTimeout (g : Nat)
  /-- PLUMB_MISSED (R359): PLUMB_MISSED is posted at most once per second with the copies missed. -/
  | plumbMissed (g : Nat)
  /-- PLUMB_STATS (R359): Writes a plumb group's counters taken at one instant. -/
  | plumbStats (c : Cmd)
  /-- PERST_N (R363): Assertion of PERST_N resets a host port's link, functions and configuration space. -/
  | perstN (h : Nat) (asserted : Bool)
  /-- HOT_RESET (R363): A hot reset or Link Disable from the host resets the port's functions as PERST_N does. -/
  | hotReset (h : Nat)
  /-- HOST_LINK (R388): A host link comes up or goes down and HOST_LINK is posted. -/
  | hostLink (h : Nat) (up surprise flit reversed : Bool) (speed width : Nat)
  /-- BUS_MASTER_ENABLE (R372): Clearing or setting Bus Master Enable holds or resumes a function's DMA and queues. -/
  | busMasterEnable (fn : Nat) (on : Bool)
  /-- D3HOT (R368): A function entering or leaving D3hot is held or resumed as under Bus Master Enable. -/
  | d3hot (fn : Nat) (enter : Bool)
  /-- FLR (R373): A Function Level Reset stops a function's requests and begins its reset. -/
  | flr (fn : Nat)
  /-- FN_RESET (R373): A write of RESET to FN_RESET resets the function as by FLR. -/
  | fnReset (fn : Nat) (v : Word)
  /-- FLR_DONE (R373): Outstanding completions drained or 50 ms passed, the function's queues are disabled, its generation advances and FLR_DONE is posted. -/
  | flrDone (fn : Nat)
  /-- INBOUND_TLP (R374): A TLP received on a host port is served, discarded or causes a containment freeze. -/
  | inboundTlp (h : Nat) (t : Tlp)
  /-- PEER_CLOSED (R383): PEER_CLOSED is posted at most once per second for writes to closed peer windows. -/
  | peerClosed (pf : Nat)
  /-- COMPLETION_TIMEOUT (R374): A device read times out, failing its queue or freezing the port with CTO_PROMOTE. -/
  | completionTimeout (fn : Nat) (k : ReadKind)
  /-- FRZ_RELEASE (R377): A RELEASE write to a frozen port starts draining waiting completions and held frames, or sets RELEASE_REJ. -/
  | frzRelease (h : Nat) (v : Word)
  /-- HOST_RELEASED (R377): The release drain ends, queues leave HELD and HOST_RELEASED is posted. -/
  | hostReleased (h : Nat)
  /-- VF_ENABLE (R390): Setting or clearing VF Enable makes VFs present or resets them all. -/
  | vfEnable (pf : Nat) (on : Bool) (numVfs : Nat)
  /-- VF_READY (R390): A newly enabled VF sets READY within 100 ms. -/
  | vfReady (vf : Nat)
  /-- SPDM_REQUEST (R385): An SPDM request over DOE or MCTP is answered by the bridge's responder. -/
  | spdmRequest (c : Carrier) (req : Bytes)
  /-- GET_VERSION (R385): SPDM request returning the supported SPDM versions. -/
  | getVersion (c : Carrier) (req : Bytes)
  /-- GET_CAPABILITIES (R385): SPDM request returning the responder's capabilities. -/
  | getCapabilities (c : Carrier) (req : Bytes)
  /-- NEGOTIATE_ALGORITHMS (R385): SPDM request that negotiates ECDSA P-384 and SHA3-256. -/
  | negotiateAlgorithms (c : Carrier) (req : Bytes)
  /-- GET_DIGESTS (R385): SPDM request returning certificate chain digests. -/
  | getDigests (c : Carrier) (req : Bytes)
  /-- GET_CERTIFICATE (R385): SPDM request returning the slot 0 certificate chain. -/
  | getCertificate (c : Carrier) (req : Bytes)
  /-- CHALLENGE (R385): SPDM challenge signed with the Alias ECDSA key. -/
  | challenge (c : Carrier) (req : Bytes)
  /-- GET_MEASUREMENTS (R385): SPDM request returning one measurement block per measurement entry. -/
  | getMeasurements (c : Carrier) (req : Bytes)
  /-- GRANT_SET (R397): Grows or shrinks a function's resource grants or PF2's VF ceilings. -/
  | grantSet (c : Cmd)
  /-- GRANT_SHRINK_DONE (R395): The last reclaimed unit of a shrink returns to the pool and the item is applied. -/
  | grantShrinkDone (fn : Nat)
  /-- SHRINK_TIMEOUT (R396): SHRINK_MS elapses before a shrink is done and the item ends with SHRINK_TIMEOUT. -/
  | shrinkTimeout (fn : Nat)
  /-- GRANT_QUERY (R398): Writes a function's grants and units in use. -/
  | grantQuery (c : Cmd)
  /-- VF_CONFIG (R402): Sets a VF's spoof-check and default target block. -/
  | vfConfig (c : Cmd)
  /-- LOG_START (R405): Starts dirty-page logging of a VF into a bitmap. -/
  | logStart (c : Cmd)
  /-- LOG_DRAIN (R407): Completes when earlier logged writes have updated the bitmap, optionally switching to a new bitmap. -/
  | logDrain (c : Cmd)
  /-- LOG_STOP (R408): Drains then stops a VF's dirty log. -/
  | logStop (c : Cmd)
  /-- VF_SAVE (R409): Freezes a stopped VF and writes its state block. -/
  | vfSave (c : Cmd)
  /-- VF_RESTORE (R411): Puts a saved state block onto a VF, recreating its queues and advancing its generation. -/
  | vfRestore (c : Cmd)
  /-- VF_RESUME (R409): Ends a VF's FROZEN state and restarts its AQ intake. -/
  | vfResume (c : Cmd)
  /-- CC_EN (R418): A change of a ledger controller's CC.EN enables it or resets it. -/
  | ccEn (pf : Nat) (v : Word)
  /-- SQ_TAIL_DOORBELL (R417): A write of an NVMe SQ tail doorbell makes the ledger controller fetch commands. -/
  | sqTailDoorbell (pf y : Nat) (v : Word)
  /-- CQ_HEAD_DOORBELL (R417): A write of an NVMe CQ head doorbell frees completion entries. -/
  | cqHeadDoorbell (pf y : Nat) (v : Word)
  /-- CREATE_IO_SQ (R416): NVMe admin command creating an I/O submission queue. -/
  | createIoSq (pf n : Nat)
  /-- DELETE_IO_SQ (R430): NVMe admin command that stops fetching from an SQ and aborts its unfinished commands. -/
  | deleteIoSq (pf n : Nat)
  /-- CREATE_IO_CQ (R416): NVMe admin command creating an I/O completion queue. -/
  | createIoCq (pf n : Nat)
  /-- DELETE_IO_CQ (R430): NVMe admin command deleting an unbound I/O completion queue. -/
  | deleteIoCq (pf n : Nat)
  /-- GET_LOG_PAGE (R416): NVMe admin command returning a supported log page. -/
  | getLogPage (pf n : Nat)
  /-- NVME_IDENTIFY (R416): NVMe admin Identify command of a ledger controller. -/
  | nvmeIdentify (pf n : Nat)
  /-- ABORT (R429): NVMe Abort, which always completes reporting the command not aborted. -/
  | abort (pf n : Nat)
  /-- SET_FEATURES (R416): NVMe admin command setting a supported feature, including power state. -/
  | setFeatures (pf n : Nat)
  /-- GET_FEATURES (R416): NVMe admin command returning a supported feature. -/
  | getFeatures (pf n : Nat)
  /-- ASYNCHRONOUS_EVENT_REQUEST (R416): NVMe admin command held to report an asynchronous event. -/
  | asynchronousEventRequest (pf n : Nat)
  /-- NAMESPACE_MANAGEMENT (R420): Creates or deletes a host namespace, allocating or freeing its slabs. -/
  | namespaceManagement (pf n : Nat)
  /-- NAMESPACE_ATTACHMENT (R420): Attaches or detaches a host namespace to a controller. -/
  | namespaceAttachment (pf n : Nat)
  /-- FORMAT_NVM (R420): Deallocates all LBAs of a host namespace. -/
  | formatNvm (pf n : Nat)
  /-- FIRMWARE_IMAGE_DOWNLOAD (R435): On PF1 acts as FW_DOWNLOAD into the download buffer. -/
  | firmwareImageDownload (pf n : Nat)
  /-- FIRMWARE_COMMIT (R435): On PF1 acts as FW_BIND followed by FW_ACTIVATE. -/
  | firmwareCommit (pf n : Nat) (copyBad : Bool) (fail : Option Nat)
  /-- DEVICE_SELF_TEST (R431): Starts a short or extended self-test, or aborts one. -/
  | deviceSelfTest (pf n : Nat)
  /-- SELF_TEST_RESUME (R432): After 10 ms with no I/O outstanding a paused self-test resumes. -/
  | selfTestResume
  /-- SELF_TEST_DONE (R431): A self-test finishes its segments and records its result in the log. -/
  | selfTestDone (health dram : Bool)
  /-- NVME_FLUSH (R427): Completes when every earlier completed write to its namespaces is durable. -/
  | nvmeFlush (pf n : Nat)
  /-- NVME_WRITE (R426): Writes LBAs into the write buffer and completes, or waits for durability under FUA. -/
  | nvmeWrite (pf n : Nat)
  /-- NVME_READ (R426): Returns the latest completed data of LBAs, repairing from the partner on a drive failure. -/
  | nvmeRead (pf n : Nat) (fails : List (Nat × Nat))
  /-- WRITE_ZEROES (R416): Writes zeros to a range of LBAs. -/
  | writeZeroes (pf n : Nat)
  /-- DATASET_MANAGEMENT (R420): Deallocates LBAs so they read as zeros. -/
  | datasetManagement (pf n : Nat)
  /-- WRITEBACK_DURABLE (R426): Both present drives acknowledge a FUA writeback and the write becomes durable. -/
  | writebackDurable (n : Nat) (poisoned : Bool)
  /-- APST_TRANSITION (R434): After the host's idle time a controller autonomously changes power state. -/
  | apstTransition (pf : Nat)
  /-- CLUSTER0_TIMEOUT (R436): After 10 s without cluster 0 resuming both controllers set CSTS.CFS. -/
  | cluster0Timeout
  /-- DRIVE_PRESENCE (R438): A change of DPRSNT_N moves a drive port to LINK or EMPTY and posts DRIVE_STATE. -/
  | drivePresence (n : Nat) (on : Bool) (other : Option (List (Nat × Bytes)))
  /-- DPERST_RELEASE (R438): 100 ms after presence DPERST_N is released. -/
  | dperstRelease (n : Nat)
  /-- DRIVE_LINK_UP (R438): The drive link comes up with the drive ready and its labels are read. -/
  | driveLinkUp (n speed width : Nat)
  /-- DRIVE_LINK_TIMEOUT (R438): No link and ready drive within 10 s moves the port to FAILED. -/
  | driveLinkTimeout (n : Nat)
  /-- DRIVE_IDENTIFY (R438): The labels are read and the drive becomes MEMBER, REBUILDING, STALE, FOREIGN or UNUSABLE. -/
  | driveIdentify (n : Nat) (usable : Bool) (slabs : Nat)
  /-- DRIVE_WRITE_ERROR (R438): A failed drive write, link loss or an unanswered command moves the drive to FAILED and advances the pair epoch. -/
  | driveWriteError (n : Nat) (link : Bool)
  /-- DRIVE_COMMAND_TIMEOUT (R438): A drive command unanswered for 2 s fails the drive. -/
  | driveCommandTimeout (n : Nat)
  /-- REBUILD_CHUNK (R439): One chunk of the pair's allocated slabs is copied from the partner to the rebuilding drive. -/
  | rebuildChunk (n : Nat) (bad : List Nat)
  /-- LEDGER_FORMAT (R441): Formats the volume with new labels, maps and VOLUME_ID and a journal of JOURNAL_GIB. -/
  | ledgerFormat (c : Cmd)
  /-- DRIVE_ADOPT (R438): Adopts a FOREIGN or STALE drive into its pair. -/
  | driveAdopt (c : Cmd)
  /-- DRIVE_RELEASE (R438): Releases a MEMBER drive from its pair. -/
  | driveRelease (c : Cmd)
  /-- LEDGER_STATS (R441): Writes the drive counters taken at one instant. -/
  | ledgerStats (c : Cmd)
  /-- DRAM_REFRESH (R456): At each tREFI the channel issues same-bank refresh. -/
  | dramRefresh (ch : Nat)
  /-- DRAM_TEMP_POLL (R456): Every 16 ms a channel reads its DIMM sensors and sets tREFI and HOT. -/
  | dramTempPoll (ch : Nat) (readings : List (Option Int))
  /-- SCRUB_STEP (R459): The patrol scrub reads a line, writes back a corrected one or handles an uncorrectable one. -/
  | scrubStep (ch rank line : Nat) (res : LineRes) (victim : Nat)
  /-- CA_PARITY_ERROR (R460): A command/address parity error is retried up to three times and then treated as uncorrectable on the DIMM. -/
  | caParityError (ch rank line retries : Nat)
  /-- SPARE_COPY_STEP (R462): A line of a SOURCE rank is copied to its TARGET. -/
  | spareCopyStep (src : LineRes) (targetBad : Bool)
  /-- DRAM_RANK_RETIRE (R467): Retires an ACTIVE rank by command. -/
  | dramRankRetire (c : Cmd)
  /-- DRAM_STATS (R467): Writes a channel's rank counters taken at one instant. -/
  | dramStats (c : Cmd)
  /-- GATE_INTAKE (R477): A frame arriving for a gate is assigned to the next parked thread or refused BUSY or UNAVAILABLE. -/
  | gateIntake (c : Nat)
  /-- BUDGET_EXPIRY (R481): A work item reaching its budget completes TIMEOUT and its thread restarts, or faults BUDGET_HELD. -/
  | budgetExpiry (c t : Nat)
  /-- GATE_BUSY (R497): GATE_BUSY is posted at most once per second with the frames refused BUSY. -/
  | gateBusy (g : Nat)
  /-- KEYSTONE_WAKE (R482): A release, signal or message ends a thread's keystone or channel wait and its operation retires. -/
  | keystoneWake (c t : Nat)
  /-- KEYSTONE_TIMER (R484): A timer reaching its string or cycle deadline signals its event once and disarms. -/
  | keystoneTimer (c n : Nat)
  /-- QUIESCENT_DEADLOCK (R486): The quiescence conditions held for QUIESCE_TIME stop every core with a waiting thread. -/
  | quiescentDeadlock (c : Nat)
  /-- CHANNEL_ABANDON (R487): An owner holding a channel for CHANNEL_HOLD while another writer waits has its partial message discarded. -/
  | channelAbandon (c n : Nat)
  /-- BREAKPOINT_HIT (R492): A matching breakpoint halts the thread before the instruction issues. -/
  | breakpointHit (c t : Nat)
  /-- DBG_HALT (R492): A HALT bit write halts the named threads at their next issue slot. -/
  | dbgHalt (c k mask : Nat)
  /-- DBG_STEP (R492): A STEP write issues one instruction of a halted thread. -/
  | dbgStep (c k i : Nat)
  /-- DBG_RESUME (R492): A RESUME bit write releases halted threads. -/
  | dbgResume (c k mask : Nat)
  /-- DBG_DATA_WRITE (R492): A DBG_DATA write sets the selected register of a halted thread. -/
  | dbgDataWrite (c k : Nat) (hi : Bool) (v : Word)
  /-- DBG_CTL_DEBUG_EN (R492): A write of DEBUG_EN enables debug on a core, ignored on a reserved core unless footing opened debug. -/
  | dbgCtlDebugEn (c k : Nat) (on : Bool)
  /-- GIVIK_CORE_RESTART (R491): Restarts a stopped core. -/
  | givikCoreRestart (c : Cmd)
  /-- GIVIK_SIGNAL (R483): Signals an EXTERNAL event COUNT times. -/
  | givikSignal (c : Cmd)
  /-- GIVIK_CLUSTER_RELEASE (R493): Releases a cluster to its gates' alternates, or returns it. -/
  | givikClusterRelease (c : Cmd)
  /-- GIVIK_RELEASED (R493): The released cluster holds no work item, the release completes and GIVIK_RELEASED is posted. -/
  | givikReleased (c : Nat)
  /-- GIVIK_STATS (R496): Writes a gate's counters taken at one instant. -/
  | givikStats (c : Cmd)
  /-- GIVIK_FAULT_READ (R496): Writes a core's latest fault record. -/
  | givikFaultRead (c : Cmd)
  /-- ADD (R502): gD := gA + gB. -/
  | add (c t : Nat) (D A B : BitVec 5)
  /-- SUB (R502): gD := gA − gB. -/
  | sub (c t : Nat) (D A B : BitVec 5)
  /-- AND (R502): gD := gA AND gB. -/
  | and (c t : Nat) (D A B : BitVec 5)
  /-- OR (R502): gD := gA OR gB. -/
  | or (c t : Nat) (D A B : BitVec 5)
  /-- XOR (R502): gD := gA XOR gB. -/
  | xor (c t : Nat) (D A B : BitVec 5)
  /-- SLL (R502): Shift left logical by gB[5:0]. -/
  | sll (c t : Nat) (D A B : BitVec 5)
  /-- SRL (R502): Shift right logical by gB[5:0]. -/
  | srl (c t : Nat) (D A B : BitVec 5)
  /-- SRA (R502): Shift right arithmetic by gB[5:0]. -/
  | sra (c t : Nat) (D A B : BitVec 5)
  /-- SLT (R502): Set if less than, signed. -/
  | slt (c t : Nat) (D A B : BitVec 5)
  /-- SLTU (R502): Set if less than, unsigned. -/
  | sltu (c t : Nat) (D A B : BitVec 5)
  /-- SEQ (R502): Set if equal. -/
  | seq (c t : Nat) (D A B : BitVec 5)
  /-- SNE (R502): Set if not equal. -/
  | sne (c t : Nat) (D A B : BitVec 5)
  /-- MIN (R502): Signed minimum. -/
  | min (c t : Nat) (D A B : BitVec 5)
  /-- MAX (R502): Signed maximum. -/
  | max (c t : Nat) (D A B : BitVec 5)
  /-- MINU (R502): Unsigned minimum. -/
  | minu (c t : Nat) (D A B : BitVec 5)
  /-- MAXU (R502): Unsigned maximum. -/
  | maxu (c t : Nat) (D A B : BitVec 5)
  /-- CLZ (R502): Count leading zeros of gA. -/
  | clz (c t : Nat) (D A : BitVec 5)
  /-- POPC (R502): Count set bits of gA. -/
  | popc (c t : Nat) (D A : BitVec 5)
  /-- SEL (R502): gD := gA if gC ≠ 0, else gB. -/
  | sel (c t : Nat) (D A B C : BitVec 5)
  /-- MUL (R502): Low 64 bits of the product. -/
  | mul (c t : Nat) (D A B : BitVec 5)
  /-- MULHS (R502): High 64 bits of the signed product. -/
  | mulhs (c t : Nat) (D A B : BitVec 5)
  /-- MULHU (R502): High 64 bits of the unsigned product. -/
  | mulhu (c t : Nat) (D A B : BitVec 5)
  /-- ADDI (R503): gD := gA + sext(IMM). -/
  | addi (c t : Nat) (D A : BitVec 5) (imm : BitVec 16)
  /-- ANDI (R503): gD := gA AND zext(IMM). -/
  | andi (c t : Nat) (D A : BitVec 5) (imm : BitVec 16)
  /-- ORI (R503): gD := gA OR zext(IMM). -/
  | ori (c t : Nat) (D A : BitVec 5) (imm : BitVec 16)
  /-- XORI (R503): gD := gA XOR zext(IMM). -/
  | xori (c t : Nat) (D A : BitVec 5) (imm : BitVec 16)
  /-- SLTI (R503): Set if less than immediate, signed. -/
  | slti (c t : Nat) (D A : BitVec 5) (imm : BitVec 16)
  /-- SLTUI (R503): Set if less than immediate, unsigned. -/
  | sltui (c t : Nat) (D A : BitVec 5) (imm : BitVec 16)
  /-- LUI (R503): gD := sext(IMM × 2^16). -/
  | lui (c t : Nat) (D : BitVec 5) (imm : BitVec 16)
  /-- SLLI (R503): Shift left logical by immediate. -/
  | slli (c t : Nat) (D A : BitVec 5) (sh : BitVec 6)
  /-- SRLI (R503): Shift right logical by immediate. -/
  | srli (c t : Nat) (D A : BitVec 5) (sh : BitVec 6)
  /-- SRAI (R503): Shift right arithmetic by immediate. -/
  | srai (c t : Nat) (D A : BitVec 5) (sh : BitVec 6)
  /-- LB (R504): Load signed byte. -/
  | lb (c t : Nat) (D A : BitVec 5) (imm : BitVec 16)
  /-- LBU (R504): Load unsigned byte. -/
  | lbu (c t : Nat) (D A : BitVec 5) (imm : BitVec 16)
  /-- LH (R504): Load signed halfword. -/
  | lh (c t : Nat) (D A : BitVec 5) (imm : BitVec 16)
  /-- LHU (R504): Load unsigned halfword. -/
  | lhu (c t : Nat) (D A : BitVec 5) (imm : BitVec 16)
  /-- LW (R504): Load signed word. -/
  | lw (c t : Nat) (D A : BitVec 5) (imm : BitVec 16)
  /-- LWU (R504): Load unsigned word. -/
  | lwu (c t : Nat) (D A : BitVec 5) (imm : BitVec 16)
  /-- LD (R504): Load doubleword. -/
  | ld (c t : Nat) (D A : BitVec 5) (imm : BitVec 16)
  /-- SB (R504): Store byte. -/
  | sb (c t : Nat) (S A : BitVec 5) (imm : BitVec 16)
  /-- SH (R504): Store halfword. -/
  | sh (c t : Nat) (S A : BitVec 5) (imm : BitVec 16)
  /-- SW (R504): Store word. -/
  | sw (c t : Nat) (S A : BitVec 5) (imm : BitVec 16)
  /-- SD (R504): Store doubleword. -/
  | sd (c t : Nat) (S A : BitVec 5) (imm : BitVec 16)
  /-- PLB (R505): Packet-window load of 1 byte in network order. -/
  | plb (c t : Nat) (D A : BitVec 5) (imm : BitVec 16)
  /-- PLH (R505): Packet-window load of 2 bytes in network order. -/
  | plh (c t : Nat) (D A : BitVec 5) (imm : BitVec 16)
  /-- PLW (R505): Packet-window load of 4 bytes in network order. -/
  | plw (c t : Nat) (D A : BitVec 5) (imm : BitVec 16)
  /-- PLD (R505): Packet-window load of 8 bytes in network order. -/
  | pld (c t : Nat) (D A : BitVec 5) (imm : BitVec 16)
  /-- BEQ (R506): Branch if equal. -/
  | beq (c t : Nat) (A B : BitVec 5) (off : BitVec 16)
  /-- BNE (R506): Branch if not equal. -/
  | bne (c t : Nat) (A B : BitVec 5) (off : BitVec 16)
  /-- BLT (R506): Branch if less than, signed. -/
  | blt (c t : Nat) (A B : BitVec 5) (off : BitVec 16)
  /-- BGE (R506): Branch if greater or equal, signed. -/
  | bge (c t : Nat) (A B : BitVec 5) (off : BitVec 16)
  /-- BLTU (R506): Branch if less than, unsigned. -/
  | bltu (c t : Nat) (A B : BitVec 5) (off : BitVec 16)
  /-- BGEU (R506): Branch if greater or equal, unsigned. -/
  | bgeu (c t : Nat) (A B : BitVec 5) (off : BitVec 16)
  /-- J (R506): PC-relative jump. -/
  | j (c t : Nat) (off : BitVec 26)
  /-- JAL (R506): Jump and link into g31. -/
  | jal (c t : Nat) (off : BitVec 26)
  /-- JALR (R506): Jump to register plus offset and link. -/
  | jalr (c t : Nat) (D A : BitVec 5) (imm : BitVec 16)
  /-- LKUP (R507): Looks up a 48-byte key in a logical table and returns the entry's action words. -/
  | lkup (c t : Nat) (D A : BitVec 5) (tbl : BitVec 3) (poisoned : Bool) (chan : Nat)
  /-- ACQ (R508): Acquires a keystone lock, waiting if owned. -/
  | acq (c t : Nat) (A : BitVec 5) (k : BitVec 12)
  /-- TACQ (R508): Tries to acquire a keystone lock without waiting. -/
  | tacq (c t : Nat) (D A : BitVec 5) (k : BitVec 12)
  /-- REL (R508): Releases an owned keystone lock. -/
  | rel (c t : Nat) (A : BitVec 5) (k : BitVec 12)
  /-- WAIT (R508): Waits on a keystone event. -/
  | wait (c t : Nat) (A : BitVec 5) (k : BitVec 12)
  /-- SIG (R508): Signals a keystone event. -/
  | sig (c t : Nat) (A : BitVec 5) (k : BitVec 12)
  /-- TMRS (R508): Arms a timer on a string deadline. -/
  | tmrs (c t : Nat) (D A : BitVec 5) (k : BitVec 12)
  /-- TMRC (R508): Arms a timer for a count of cycles. -/
  | tmrc (c t : Nat) (D A : BitVec 5) (k : BitVec 12)
  /-- CHW (R509): Appends a word to the message being written to a channel. -/
  | chw (c t : Nat) (D A : BitVec 5) (k : BitVec 8)
  /-- CHC (R509): Commits the channel message. -/
  | chc (c t : Nat) (A : BitVec 5) (k : BitVec 8)
  /-- CHR (R509): Reads a word of a committed channel message. -/
  | chr (c t : Nat) (D A : BitVec 5) (w : BitVec 4) (k : BitVec 8)
  /-- CHRL (R509): Reads a word of a committed message and frees the channel. -/
  | chrl (c t : Nat) (D A : BitVec 5) (w : BitVec 4) (k : BitVec 8)
  /-- TRD (R510): Reads a string's time, state and u_string from the cluster's time tap. -/
  | trd (c t : Nat) (D : BitVec 5) (st : BitVec 3)
  /-- WNEXT (R511): Parks the thread until a work item is assigned. -/
  | wnext (c t : Nat) (D A : BitVec 5) (k : BitVec 12)
  /-- WDONE (R480): Gives a work item's pass, drop or redirect verdict, optionally with a DECISION record. -/
  | wdone (c t : Nat) (A : BitVec 5) (verdict : BitVec 2) (record : Bool)
  /-- RECD (R511): Sets the DATA of the work item's DECISION record. -/
  | recd (c t : Nat) (A : BitVec 5) (k : BitVec 12)
  /-- MFS (R512): Reads a special register. -/
  | mfs (c t : Nat) (D : BitVec 5) (idx : BitVec 5)
  /-- TRAP (R512): Faults the core with cause TRAP and the given code. -/
  | trap (c t : Nat) (code : BitVec 16)
  /-- BRK (R512): Halts the thread with DEBUG_EN 1, or faults BREAK. -/
  | brk (c t : Nat) (bits : BitVec 26)
  /-- COLD_BOOT (R519): At the effective deassertion of RESET_N footing runs its boot steps, chooses and loads a slot and hands over, or halts. -/
  | coldBoot (src : Nat) (aonOk romOk fuseOk flashOk : Bool) (tagBad : List Nat) (recovery : Bytes) (calBad : List Nat)
  /-- PG_RISE (R584): PG rising lets footing start or restart loading step 5. -/
  | pgRise (flashOk : Bool) (tagBad : List Nat) (recovery : Bytes)
  /-- PG_FALL (R585): PG falling removes power from every switchable domain and logs MAIN_POWER, or stops footing's loading. -/
  | pgFall (cause : Nat)
  /-- BRIDGE_BRINGUP (R519): After handover the bridge brings up DRAM and the islands and drives HEALTHY high. -/
  | bridgeBringup (tr : List ChTrain)
  /-- RECOVERY_CARRIER (R537): A carrier offered in recovery is checked and bound and booted, or refused and counted. -/
  | recoveryCarrier (bytes : Bytes)
  /-- RECOVERY_TIMEOUT (R538): The 600 s recovery wait ends without an accepted carrier and footing halts. -/
  | recoveryTimeout
  /-- FW_DOWNLOAD (R549): Copies part of a carrier into the download buffer. -/
  | fwDownload (c : Cmd)
  /-- FW_BIND (R528): Checks a carrier and binds it into a slot or gate area as TRIAL or VALID. -/
  | fwBind (c : Cmd) (copyBad : Bool)
  /-- FW_ACTIVATE (R543): Checks compatibility and replaces running components or a gate image, cutting the journal. -/
  | fwActivate (c : Cmd) (fail : Option Nat)
  /-- FW_CONFIRM (R533): Makes the running TRIAL slot VALID and retires the other. -/
  | fwConfirm (c : Cmd)
  /-- FW_SVN_COMMIT (R534): Raises the fused SVN to that of the running VALID slot. -/
  | fwSvnCommit (c : Cmd)
  /-- FOOT_EPOCH_ADVANCE (R535): Retags every slot and gate area under the next key epoch and burns the epoch fuse. -/
  | footEpochAdvance (c : Cmd) (bad : List Nat)
  /-- FOOT_KEY_REVOKE (R536): Burns the revocation fuse of a vendor key slot. -/
  | footKeyRevoke (c : Cmd)
  /-- FOOT_LIFECYCLE (R544): Burns the fuses for a lifecycle change that takes effect at the next cold reset. -/
  | footLifecycle (c : Cmd)
  /-- FOOT_DEBUG_TOKEN (R546): Installs or erases the debug token in flash. -/
  | footDebugToken (c : Cmd)
  /-- FW_DRIVER_ABI (R542): A host driver declares its ABI and learns if it is untested. -/
  | fwDriverAbi (c : Cmd)
  /-- DOMAIN_SET (R555): Commands a switchable domain to ON, RETAIN or OFF. -/
  | domainSet (c : Cmd)
  /-- DOMAIN_STATE (R556): A domain transition completes and DOMAIN_STATE is posted. -/
  | domainState (pass imageOk : Bool)
  /-- UNIT_RESET (R558): Resets one switchable island's logic, keeping its configuration and SRAM. -/
  | unitReset (c : Cmd)
  /-- UNIT_RESET_DONE (R558): The reset island works again or stays failed, and UNIT_RESET_DONE is posted. -/
  | unitResetDone (n : Nat) (pass : Bool)
  /-- PIPE_REMAP (R560): Moves a port island to other ingress and egress pipes, widening course windows first. -/
  | pipeRemap (c : Cmd)
  /-- PIPE_REMAPPED (R560): The old pipe has passed the island's last frame, the remap completes and PIPE_REMAPPED is posted. -/
  | pipeRemapped (island : Nat)
  /-- DEVICE_RESET (R562): Completes and schedules a warm reset 1 ms later. -/
  | deviceReset (c : Cmd)
  /-- WARM_RESET (R520): The warm reset resets every switchable island and footing reloads the non-AON images. -/
  | warmReset (tagBad : List Nat) (recovery : Bytes)
  /-- ERRLOG_READ (R574): Writes error log entries taken at one instant. -/
  | errlogRead (c : Cmd)
  /-- SRAM_CE (R563): A corrected SRAM ECC error in an island is logged as CORRECTED. -/
  | sramCe (n addr : Nat)
  /-- SRAM_UE (R567): An uncorrectable SRAM error fails the island and the warden isolates it. -/
  | sramUe (n addr : Nat)
  /-- XING_FAULT (R563): A crossing FIFO parity error fails the island. -/
  | xingFault (n : Nat)
  /-- WARDEN_TIMEOUT (R563): An island unanswered for 10 µs fails. -/
  | wardenTimeout (n : Nat)
  /-- TEMP_SENSOR_READ (R569): Every 1 ms each island's temperature is read. -/
  | tempSensorRead (temps : List (Nat × Int))
  /-- THERMTRIP (R570): At 125 °C the hardware comparator asserts THERMTRIP_N and removes power from every switchable domain. -/
  | thermtrip
  /-- AON_POWER (R586): VIN_AON or an AON regulator out of range is DEVICE_FATAL. -/
  | aonPower
  /-- RING_FAULT (R563): A broken control ring is DEVICE_FATAL. -/
  | ringFault
  /-- BRIDGE_WDT (R563): Bridge firmware unresponsive for 1 s is DEVICE_FATAL. -/
  | bridgeWdt
  /-- KEYVAULT (R563): A failed key vault self-check is DEVICE_FATAL. -/
  | keyvault
  /-- TIME_ISLAND (R568): A time island or time PLL logic failure is DEVICE_FATAL and holds the time outputs inactive. -/
  | timeIsland
  /-- BRG_ERR_ACK (R566): A write of a SEQ to BRG_ERR_ACK acknowledges entries up to it. -/
  | brgErrAck (v : Word)
  /-- RESET_N (R586): An assertion of RESET_N of 10 µs or more is a cold reset. -/
  | resetN (ns : Nat)
  /-- POWER_ON_RESET (R586): VIN_AON falling below 3.90 V asserts the power-on reset, a cold reset. -/
  | powerOnReset
  /-- READ_STATUS (R572): Management-bus vendor message returning BOOT_ERR, HEALTHY, lifecycle, temperature and worst class. -/
  | readStatus
  /-- READ_LOG (R572): Management-bus vendor message returning error log entries. -/
  | readLog (slot count : Nat)
  /-- ACK_LOG (R572): Management-bus vendor message acknowledging log entries. -/
  | ackLog (seq : Nat)
  /-- MCTP_DOMAIN_SET (R572): Management-bus vendor message commanding a domain state, H0 included. -/
  | mctpDomainSet (island st : Nat)
  /-- MCTP_DEVICE_RESET (R572): Management-bus vendor message requesting a warm reset. -/
  | mctpDeviceReset (confirm : Nat)
  /-- SET_ENDPOINT_ID (R571): MCTP control message assigning the endpoint ID. -/
  | setEndpointId (ep op eid : Nat)
  /-- GET_ENDPOINT_ID (R571): MCTP control message returning the endpoint ID. -/
  | getEndpointId (ep : Nat)
  /-- GET_MCTP_VERSION_SUPPORT (R571): MCTP control message returning supported versions. -/
  | getMctpVersionSupport (type : Nat)
  /-- GET_MESSAGE_TYPE_SUPPORT (R571): MCTP control message returning supported message types. -/
  | getMessageTypeSupport
  /-- GET_VENDOR_DEFINED_MESSAGE_SUPPORT (R571): MCTP control message returning vendor-defined message support. -/
  | getVendorDefinedMessageSupport (selector : Nat)
  /-- GET_TID (R571): PLDM base command returning the terminus ID. -/
  | getTid
  /-- GET_PLDM_VERSION (R571): PLDM base command returning the PLDM version. -/
  | getPldmVersion (type : Nat)
  /-- GET_PLDM_TYPES (R571): PLDM base command returning supported types. -/
  | getPldmTypes
  /-- GET_PLDM_COMMANDS (R571): PLDM base command returning supported commands. -/
  | getPldmCommands (type : Nat)
  /-- GET_PDR (R571): PLDM monitoring command returning a PDR. -/
  | getPdr (handle : Nat)
  /-- GET_SENSOR_READING (R571): PLDM command returning a numeric sensor reading. -/
  | getSensorReading (sensor : Nat)
  /-- GET_STATE_SENSOR_READINGS (R571): PLDM command returning state sensor readings. -/
  | getStateSensorReadings (sensor : Nat)
  /-- GET_PDR_REPOSITORY_INFO (R571): PLDM command returning PDR repository information. -/
  | getPdrRepositoryInfo
  /-- QUERY_DEVICE_IDENTIFIERS (R539): PLDM firmware update command returning device identifiers. -/
  | queryDeviceIdentifiers
  /-- GET_FIRMWARE_PARAMETERS (R539): PLDM firmware update command returning firmware parameters. -/
  | getFirmwareParameters
  /-- REQUEST_UPDATE (R539): PLDM firmware update command entering update mode. -/
  | requestUpdate (maxXfer comps pkgData : Nat)
  /-- PASS_COMPONENT_TABLE (R539): PLDM firmware update command passing the single carrier component. -/
  | passComponentTable
  /-- UPDATE_COMPONENT (R539): PLDM firmware update command starting transfer of the carrier. -/
  | updateComponent (size : Nat)
  /-- REQUEST_FIRMWARE_DATA (R539): The device requests the next block of 64 to 1,024 bytes of the carrier. -/
  | requestFirmwareData (ask : Nat) (data : Bytes)
  /-- TRANSFER_COMPLETE (R539): PLDM message reporting the end of the carrier transfer. -/
  | transferComplete
  /-- VERIFY_COMPLETE (R539): PLDM message reporting carrier verification. -/
  | verifyComplete
  /-- APPLY_COMPLETE (R539): PLDM message reporting the carrier applied. -/
  | applyComplete
  /-- ACTIVATE_FIRMWARE (R571): PLDM command activating the transferred carrier, as FW_BIND then FW_ACTIVATE when running. -/
  | activateFirmware (selfContained copyBad : Bool) (fail : Option Nat)
  /-- GET_STATUS (R539): PLDM firmware update command returning update status. -/
  | getStatus
  /-- CANCEL_UPDATE (R539): PLDM firmware update command cancelling the update. -/
  | cancelUpdate
  /-- EEC_STATE_CHANGE (R80): The Ethernet equipment clock moves between free-run, locked and holdover as its input recovered clock is gained or lost, and a string with FREQ_SYNCE treats leaving locked as loss of source. -/
  | eecStateChange (state : Nat) (freq : Int)
  /-- ASPM_L1_ENTRY (R362): With ASPM L1 enabled by the host, a host port's idle link enters L1 (with L1.1 or L1.2 through CLKREQ_N) and returns to L0 on traffic. -/
  | aspmL1Entry (h : Nat) (enter : Bool) (sub : Nat)
  /-- MSI_X_ENABLE (R369): A configuration write changing MSI-X Enable or Interrupt Disable selects MSI-X, INTx or no signalling, delivering kept pending signals and ending INTx with Deassert_INTx. -/
  | msiXEnable (fn : Nat) (msix intxDisable : Bool)
  /-- FN_INTX_PEND_CLEAR (R371): A write of 1s to FN_INTX_PEND clears pending INTx bits and sends Deassert_INTx when the register becomes zero. -/
  | fnIntxPendClear (fn : Nat) (v : Word)
  /-- FRZ_HOLD_WRITE (R380): A configuration write of HOLD_MIB resizes the port's frozen-port hold area in DRAM to the largest size that fits, and is ignored while FROZEN. -/
  | frzHoldWrite (h : Nat) (v : Word)
  /-- ILLEGAL (R500): A thread issuing an undefined encoding, or one with a required-zero field not zero or a register field out of range, faults ILLEGAL and stops its core. -/
  | illegal (c t : Nat)
  deriving DecidableEq, Repr

end Sys2Proof
end

