-- ==== Sys2Proof/Config.lean ====
section
/-! DEFINITION. What a part's manufacture fixes, and the free values the spec leaves open (no body: nothing
can evaluate them, and a claim holds whatever they are). -/

namespace Sys2Proof

/-- The three variants of the part (R6, R8). -/
inductive Variant where
  | w | m | l
  deriving DecidableEq, Repr

/-- A fresh free value for each index: what the spec leaves open where an operation draws one
(log entry 2). `Dev.freeIdx` says which was drawn last. -/
opaque Config.freeWord : Nat → BitVec 64

/-- Free bytes: contents the spec leaves to an implementation or another standard; the first argument names
the structure, the second the byte (log entry 2). -/
opaque Config.freeByte : Nat → Nat → BitVec 8

/-- The 16 bytes of the module serial number (R10). -/
opaque Config.serial : Nat → BitVec 8

/-- Factory calibration entry of a port, direction, mode and band: its 32 bytes (R140: the spec gives no figures). -/
opaque Config.factoryCal : Nat → Nat → BitVec 8

/-- Digital signature of a message under a key held in the key vault (R257, R259, R527): key name, message,
byte. -/
opaque Config.signByte : Nat → List (BitVec 8) → Nat → BitVec 8

/-- Whether a signature verifies under a public key (R257, R527): algorithm (0 ECDSA P-384, 1 ML-DSA-65), key, message,
signature. -/
opaque Config.verifies : Nat → List (BitVec 8) → List (BitVec 8) → List (BitVec 8) → Bool

/-- The fused hash of a vendor key slot (R527): key slot, byte. -/
opaque Config.vendorKeyHash : Nat → Nat → BitVec 8

/-- Whether bytes are a vendor-signed token naming a lifecycle state (R544, which gives the token no layout). -/
opaque Config.lifecycleToken : Nat → List (BitVec 8) → Bool

/-- SHA-384 of a message, byte by byte (the responder's and carriers' hash; its text is another standard's). -/
opaque Config.sha384Byte : List (BitVec 8) → Nat → BitVec 8

/-- The two bucket hashes of a table (R169): table, hash, seed, key. -/
opaque Config.tableHash : Nat → Nat → Nat → List (BitVec 8) → Nat

/-- The device-unique secret (R259). -/
opaque Config.uds : List (BitVec 8)

/-- The DER SubjectPublicKeyInfo of a key: the key's name, byte (R259, R260; the encoding is another standard's). -/
opaque Config.spkiByte : Nat → Nat → BitVec 8

/-- A DER certificate (R256, R259, R260): the certified key's name, the signing key's, what the certificate tells of its subject, byte. -/
opaque Config.certByte : Nat → Nat → List (BitVec 8) → Nat → BitVec 8

/-- Length of a DER certificate (R256), by the same. -/
opaque Config.certLen : Nat → Nat → List (BitVec 8) → Nat

end Sys2Proof
end

