-- ==== Sys2Proof/Machine/Bits.lean ====
section
/-! DEFINITION. Bit fields, byte order, lists and small arithmetic used everywhere. -/

namespace Sys2Proof

/-- Bits `hi` down to `lo` of a register word, as a number (R16). -/
def Word.fld (w : Word) (hi lo : Nat) : Nat := (w.toNat >>> lo) % 2 ^ (hi + 1 - lo)

/-- Bit `i` of a register word. -/
def Word.bit (w : Word) (i : Nat) : Bool := w.getLsbD i

/-- The word with bits `hi` down to `lo` replaced by `v` (taken modulo the field). -/
def Word.put (w : Word) (hi lo v : Nat) : Word :=
  let m := 2 ^ (hi + 1 - lo)
  let n := w.toNat
  BitVec.ofNat 32 (n % 2 ^ lo + (v % m) * 2 ^ lo + (n / 2 ^ (hi + 1)) * 2 ^ (hi + 1))

/-- The word with bit `i` set or cleared. -/
def Word.putBit (w : Word) (i : Nat) (b : Bool) : Word := Word.put w i i (if b then 1 else 0)

/-- Bits `hi` down to `lo` of a number. -/
def bitsOf (n hi lo : Nat) : Nat := (n >>> lo) % 2 ^ (hi + 1 - lo)

/-- Bit `i` of a number. -/
def bitOf (n i : Nat) : Bool := n.testBit i

/-- 1 for true, 0 for false. -/
def b2n (b : Bool) : Nat := if b then 1 else 0

/-- `n` bytes of a number, least significant first (R15). -/
def leBytes : Nat → Nat → Bytes
  | 0, _ => []
  | n + 1, v => BitVec.ofNat 8 v :: leBytes n (v / 256)

/-- The number a byte string spells, least significant byte first (R15). -/
def leNat : Bytes → Nat
  | [] => 0
  | b :: bs => b.toNat + 256 * leNat bs

/-- `n` bytes of a number in network byte order (R15). -/
def beBytes (n v : Nat) : Bytes := (leBytes n v).reverse

/-- The number a byte string spells in network byte order. -/
def beNat (bs : Bytes) : Nat := leNat bs.reverse

/-- Byte `i` as a number; 0 past the end. -/
def u8 (bs : Bytes) (i : Nat) : Nat := (bs.getD i 0).toNat

/-- `n` bytes from offset `i`, padded with 0 past the end. -/
def slice (bs : Bytes) (i n : Nat) : Bytes :=
  let t := (bs.drop i).take n
  t ++ List.replicate (n - t.length) 0

/-- Little-endian field of `n` bytes at offset `i`. -/
def le (bs : Bytes) (i n : Nat) : Nat := leNat (slice bs i n)

/-- Big-endian field of `n` bytes at offset `i`. -/
def be (bs : Bytes) (i n : Nat) : Nat := beNat (slice bs i n)

/-- Replace the bytes at offset `i` by `v` (inside the string only). -/
def patch (bs : Bytes) (i : Nat) (v : Bytes) : Bytes :=
  bs.take i ++ v.take (bs.length - i) ++ bs.drop (i + v.length)

/-- Pad with 0 up to `n` bytes. -/
def padTo (n : Nat) (bs : Bytes) : Bytes := bs ++ List.replicate (n - bs.length) 0

/-- `n` zero bytes. -/
def zeros (n : Nat) : Bytes := List.replicate n 0

/-- Whether every byte is 0. -/
def allZero (bs : Bytes) : Bool := bs.all fun b => decide (b = 0)

/-- Whether bytes `i` to `i + n − 1` are 0. -/
def zeroAt (bs : Bytes) (i n : Nat) : Bool := allZero (slice bs i n)

/-- ⌈a / b⌉. -/
def ceilDiv (a b : Nat) : Nat := if b = 0 then 0 else (a + b - 1) / b

/-- Least multiple of `m` not below `a`. -/
def roundUp (a m : Nat) : Nat := ceilDiv a m * m

/-- A two's-complement field of `n` bits as an integer. -/
def toSigned (n v : Nat) : Int :=
  let w := v % 2 ^ n
  if n ≠ 0 ∧ 2 ^ (n - 1) ≤ w then (w : Int) - (2 : Int) ^ n else (w : Int)

/-- An integer as an `n`-bit two's-complement field, wrapped. -/
def ofSigned (n : Nat) (i : Int) : Nat := (i % (2 : Int) ^ n).toNat

/-- An integer held to `n` bits, saturated. -/
def satSigned (n : Nat) (i : Int) : Int :=
  let m : Int := (2 : Int) ^ (n - 1)
  if i < -m then -m else if m ≤ i then m - 1 else i

/-- A count held at the top of an `n`-bit field. -/
def satNat (n v : Nat) : Nat := if 2 ^ n ≤ v then 2 ^ n - 1 else v

/-- Absolute value as a count. -/
def iabs (i : Int) : Nat := i.natAbs

/-- Replace the element at an index. -/
def setAt {α : Type} : List α → Nat → α → List α
  | [], _, _ => []
  | _ :: t, 0, v => v :: t
  | h :: t, n + 1, v => h :: setAt t n v

/-- Change the element at an index. -/
def updAt {α : Type} (f : α → α) : List α → Nat → List α
  | [], _ => []
  | h :: t, 0 => f h :: t
  | h :: t, n + 1 => h :: updAt f t n

/-- Remove the first element satisfying `p`; answers it and the rest. -/
def takeFirst {α : Type} (p : α → Bool) : List α → Option (α × List α)
  | [] => none
  | h :: t => if p h then some (h, t) else
    match takeFirst p t with
    | some (x, r) => some (x, h :: r)
    | none => none

/-- Change the first element satisfying `p`. -/
def updFirst {α : Type} (p : α → Bool) (f : α → α) : List α → List α
  | [] => []
  | h :: t => if p h then f h :: t else h :: updFirst p f t

/-- Fold a list of numbers 0 to n − 1 through a state. -/
def loopN {σ : Type} (n : Nat) (f : Nat → σ → σ) (s : σ) : σ :=
  (List.range n).foldl (fun s i => f i s) s

/-- Put `x` before the first element it may stand before: folded from the right, a sort that keeps the order of equals. -/
def insertBy {α : Type} (le : α → α → Bool) (x : α) : List α → List α
  | [] => [x]
  | y :: t => if le x y then x :: y :: t else y :: insertBy le x t

/-- The bytes of an ASCII text padded with spaces (0x20) to `n`. -/
def asciiPad (n : Nat) (cs : List Nat) : Bytes :=
  let t := cs.map (BitVec.ofNat 8)
  t ++ List.replicate (n - t.length) 0x20

end Sys2Proof
end

