-- ==== Sys2Proof/Machine/Crypto.lean ====
section
/-! DEFINITION. SHA3-256 (FIPS 202), KMAC256 (SP 800-185), CRC32C, and the Toeplitz hash, as the spec uses them. -/

namespace Sys2Proof

/-! ### Keccak (FIPS 202), from its five step mappings. The state is a list of five planes (the y), each a list of five lanes (the x);
a lane is a number below 2^64 whose bit z is the state's bit (x, y, z). -/

/-- A lane rotated by `n` places towards higher z. -/
def laneTurn (v n : Nat) : Nat := (v * 2 ^ n + v / 2 ^ (64 - n)) % 2 ^ 64

/-- A plane seen from `k` lanes further on. -/
def planeShift (k : Nat) (l : List Nat) : List Nat := l.drop k ++ l.take k

/-- The XOR of two planes. -/
def planeXor (l m : List Nat) : List Nat := List.zipWith Nat.xor l m

/-- θ: every lane takes the parity of the column before it, and that of the column after it one bit up. -/
def stepTheta (st : List (List Nat)) : List (List Nat) :=
  let parity := st.foldl planeXor (List.replicate 5 0)
  st.map (planeXor (planeXor (planeShift 4 parity) ((planeShift 1 parity).map fun v => laneTurn v 1)))

/-- The path of ρ: from lane (1, 0) each lane (x, y) goes on to (y, 2x + 3y); step t turns by (t + 1)(t + 2)/2. Answers the turns by x + 5y. -/
def rhoTurns : Nat → Nat → Nat → List Nat → List Nat
  | 0, _, _, acc => acc
  | k + 1, x, y, acc => rhoTurns k y ((2 * x + 3 * y) % 5) (acc.set (x + 5 * y) ((24 - k) * (25 - k) / 2 % 64))

/-- ρ and π: lane (x, y) of the result is lane (x + 3y, x), turned. -/
def stepRhoPi (turns : List Nat) (st : List (List Nat)) : List (List Nat) :=
  (List.range 5).map fun y => (List.range 5).map fun x =>
    let u := (x + 3 * y) % 5
    laneTurn ((st.getD x []).getD u 0) (turns.getD (u + 5 * x) 0)

/-- χ: a bit is inverted where the next lane's is clear and the one after's is set. -/
def stepChi (st : List (List Nat)) : List (List Nat) :=
  st.map fun l => planeXor l (List.zipWith (fun v w => Nat.land (2 ^ 64 - 1 - v) w) (planeShift 1 l) (planeShift 2 l))

/-- The shift register of ι: x^8 + x^6 + x^5 + x^4 + 1. -/
def iotaNext (r : Nat) : Nat := if r < 128 then 2 * r else Nat.xor (2 * r) 0x171

/-- The constants of `n` rounds, from the register's state: bit 2^j − 1 of a constant is the register's output at its j-th step. -/
def iotaConsts : Nat → Nat → List Nat
  | 0, _ => []
  | n + 1, r =>
    let run := (List.range 7).foldl (fun (a : Nat × Nat) j => (a.1 + a.2 % 2 * 2 ^ (2 ^ j - 1), iotaNext a.2)) (0, r)
    run.1 :: iotaConsts n run.2

/-- ι: a round's constant enters lane (0, 0). -/
def stepIota (c : Nat) : List (List Nat) → List (List Nat)
  | (v :: l) :: st => (Nat.xor v c :: l) :: st
  | st => st

/-- Keccak-f[1600]: 24 rounds. -/
def keccakF (st : List (List Nat)) : List (List Nat) :=
  let turns := rhoTurns 24 1 0 (List.replicate 25 0)
  (iotaConsts 24 1).foldl (fun st c => stepIota c (stepChi (stepRhoPi turns (stepTheta st)))) st

/-- Absorb `n` blocks of 136 bytes, the rate of a capacity of 512 bits. -/
def spongeIn : Nat → List (List Nat) → Bytes → List (List Nat)
  | 0, st, _ => st
  | n + 1, st, bs =>
    spongeIn n (keccakF (st.zipIdx.map fun (p : List Nat × Nat) => p.1.zipIdx.map fun (v : Nat × Nat) =>
      if v.2 + 5 * p.2 < 17 then Nat.xor v.1 (le bs (8 * (v.2 + 5 * p.2)) 8) else v.1)) (bs.drop 136)

/-- The first `out` bytes (at most 136) of the sponge over a message, `dom` being its domain's bits with the padding's first. -/
def sponge (dom out : Nat) (m : Bytes) : Bytes :=
  let n := m.length / 136 + 1
  let bs := padTo (136 * n) (m ++ leBytes 1 dom)
  let st := spongeIn n (List.replicate 5 (List.replicate 5 0)) (patch bs (136 * n - 1) (leBytes 1 (u8 bs (136 * n - 1) + 128)))
  (st.flatten.flatMap (leBytes 8)).take out

/-- SHA3-256 of a byte string: 32 bytes. -/
def sha3_256 (m : Bytes) : Bytes := sponge 6 32 m

/-! ### KMAC256 (SP 800-185) -/

/-- A number's own bytes, most significant first; at least one. -/
def numBytes (v : Nat) : Bytes := beBytes (Nat.log2 v / 8 + 1) v

/-- left_encode and right_encode: a number's bytes with their count before or behind. -/
def leftEncode (v : Nat) : Bytes := leBytes 1 (numBytes v).length ++ numBytes v
def rightEncode (v : Nat) : Bytes := numBytes v ++ leBytes 1 (numBytes v).length

/-- encode_string: the length in bits, then the string. -/
def encodeString (b : Bytes) : Bytes := leftEncode (8 * b.length) ++ b

/-- bytepad to the rate. -/
def bytepad (b : Bytes) : Bytes := let x := leftEncode 136 ++ b; padTo (roundUp x.length 136) x

/-- KMAC256 of a message under a key with a customisation string: `out` bytes, at most 136. -/
def kmac256 (key msg custom : Bytes) (out : Nat) : Bytes :=
  sponge 4 out (bytepad (encodeString [0x4B, 0x4D, 0x41, 0x43] ++ encodeString custom) ++ bytepad (encodeString key) ++ msg ++
    rightEncode (8 * out))

/-! ### CRC32C (R183: polynomial 0x1EDC_6F41, reflected) -/

/-- One bit of the reflected CRC. -/
def crcBit (c : BitVec 32) : BitVec 32 := if c.getLsbD 0 then (c >>> 1) ^^^ 0x82F63B78 else c >>> 1

/-- One byte of the reflected CRC. -/
def crcByte (c : BitVec 32) (b : Byte) : BitVec 32 :=
  (List.range 8).foldl (fun c _ => crcBit c) (c ^^^ b.setWidth 32)

/-- CRC32C of a byte string. -/
def crc32c (bs : Bytes) : Nat := (~~~ (bs.foldl crcByte 0xFFFFFFFF)).toNat

/-! ### Toeplitz -/

/-- Toeplitz hash of a byte string under a 40-byte key: for each input bit set, most significant first, the 32 key
bits that start at that bit's place. The key of R183 is shorter than the longest input needs: the bytes past its end
are free (log entry 2). -/
def toeplitz (key bs : Bytes) : Nat :=
  let k := beNat (padTo 40 (key.take 40) ++ (List.range 8).map (Config.freeByte 2))
  ((List.range (8 * bs.length)).filter fun i => bitOf (u8 bs (i / 8)) (7 - i % 8)).foldl
    (fun h i => h ^^^ (k >>> (352 - i)) % 2 ^ 32) 0

end Sys2Proof
end

