-- ==== Sys2Proof/Machine/State.lean ====
section
/-! DEFINITION. The state of the block: plain data holding every piece of state the spec gives the machine, the
stop reasons, and the state after reset. -/

namespace Sys2Proof.Machine

/-! ### Frames, outputs -/

/-- One string's latch at a stamp instant (R118, R123): TIME (R17), U, FLAGS in the positions of R231, the epoch tag (R198),
and whether its own U alone made it OUT_OF_BOUND (R126). -/
structure Latch where
  stamp : Nat := 0
  u : Nat := 0xFFFF
  flags : Nat := 0
  ep : Nat := 0
  own : Bool := false
  deriving DecidableEq, Repr

/-- Where a frame goes after classification (R177), SPREAD already resolved (R184). -/
inductive Dest where
  | discard
  | rxGlobal (id : Nat)
  | rx (fn lq : Nat)
  | gate (g : Nat)
  /-- The queue named in COURSE_OUT of the course that sequences it (R215). -/
  | courseOut
  | egress (port q : Nat)
  deriving DecidableEq, Repr

/-- A header a deep parse recorded (R163): HDR_ID, tunnel level, offset, ROLE and length. -/
structure DHdr where
  id : Nat
  level : Nat
  off : Nat
  role : Nat
  len : Nat
  deriving DecidableEq, Repr

/-- A frame inside the device: its bytes from the destination address to the end of its payload, FCS excluded, and
what the device carries with it. -/
structure Frame where
  bytes : Bytes := []
  /-- Arrival port; for a host frame, the target port. -/
  port : Nat := 0
  /-- Receive stamp TIME (R17, 96 bits), its U (R18), flags (R231) and string. -/
  stamp : Nat := 0
  u : Nat := 0
  flags : Nat := 0
  str : Nat := 0
  cls : Nat := 0
  /-- 0 green, 1 yellow, 2 red. -/
  colour : Nat := 0
  /-- Course sequence (R206). -/
  seq : Option Nat := none
  /-- The course that sequenced it (R216), the host function it came from, and its TX packet and descriptor. -/
  course : Option Nat := none
  fromFn : Option Nat := none
  pkt : Option Nat := none
  desc : Bytes := []
  /-- Latches of the present strings, until the ingress pipe keeps one (R123). -/
  latches : List Latch := []
  ep : Nat := 0
  /-- Tick of its receive stamp (R135). -/
  tick : Nat := 0
  /-- STRING_SUBST of its stamp (R124), PARSE_FLAGS (R168) and the deep parse's headers. -/
  subst : Bool := false
  pflags : Nat := 0
  deep : List DHdr := []
  tunnels : Nat := 0
  dest : Dest := .discard
  session : Option Nat := none
  /-- Its witness record in progress (R235). -/
  rec_ : Option Nat := none
  gated : Bool := false
  gateFail : Bool := false
  /-- The function whose gate slot it holds (R399). -/
  slotOf : Option Nat := none
  /-- The owner of the rule it hit; 0xFFFF for a miss action (R478). -/
  owner : Nat := 0xFFFF
  /-- Its port's receive-order tag (R102), and STRING and DEEP of its port when it was received (R111). -/
  order : Nat := 0
  pstr : Nat := 0
  deepOn : Bool := false
  /-- The ingress pipe it passed (R46, R102). -/
  pipe : Nat := 0
  /-- PARSE_PORT it was parsed under (R193), and the window of its deep parse (R155). -/
  parsePort : BitVec 32 := 0
  deepWin : Nat := 0
  /-- Its class's CLASS_A and CLASS_B when it was classified (R180). -/
  clsA : BitVec 32 := 0
  clsB : BitVec 32 := 0
  deriving DecidableEq, Repr

/-- What the block puts out. -/
inductive Out where
  /-- A frame's symbols on a port's lanes (FCS excluded; the port appends it). -/
  | frame (port : Nat) (bytes : Bytes)
  /-- The frame being sent on a port ends with an invalid FCS (R106). -/
  | frameAbort (port : Nat)
  /-- An admin completion entry of a function (R307). -/
  | adminCpl (fn : Nat) (entry : Bytes)
  /-- A table command completion of a function's queue (R313). -/
  | tcqCpl (fn lq : Nat) (entry : Bytes)
  /-- An event entry of a function (R303). -/
  | event (fn : Nat) (entry : Bytes)
  /-- A completion entry of a CQ (R291). -/
  | cqe (fn lq : Nat) (entry : Bytes)
  /-- An MSI-X message: function, vector, message address and data. -/
  | msix (fn vec addr data : Nat)
  /-- Assert_INTx or Deassert_INTx on a function's pin (R371). -/
  | intx (fn : Nat) (assert : Bool)
  /-- Completion of an inbound read: false is Unsupported Request (R375, R383). -/
  | readCpl (h : Nat) (ok : Bool) (data : Bytes)
  /-- Configuration Request Retry Status on a host port (R363). -/
  | cfgRetry (h : Nat)
  /-- An SPDM response (R385). -/
  | spdm (c : Carrier) (resp : Bytes)
  /-- An MCTP response on the management bus (R571, R572). -/
  | mctp (resp : Bytes)
  /-- A pin driven: name (see `Pin`) and level. -/
  | pin (name : Nat) (level : Bool)
  /-- A RCLK output's clock: off, or from the EEC or a port's recovered clock, and its divider code (R85). -/
  | rclk (i : Nat) (on fromEec : Bool) (port div : Nat)
  /-- A register read's data to the host (R35). -/
  | regData (fn off : Nat) (v : Word)
  /-- An NVMe completion entry of a ledger controller (R417). -/
  | nvmeCpl (fn cqid : Nat) (entry : Bytes)
  /-- A command sent to a drive (R425, R438): drive port and a description of it. -/
  | drive (n : Nat) (what : Nat)
  deriving DecidableEq, Repr

/-! ### Rings, functions and host ports (08, 11, 12) -/

/-- The states of a TX, RX or table command queue (R297). -/
inductive QSt where
  | disabled | running | stopping | stopped | error | held
  deriving DecidableEq, Repr

/-- A command taken from a ring that completes later, with the generation it carries (R403). -/
structure Held where
  cmd : Cmd
  gen : Nat
  deriving DecidableEq, Repr

/-- The packet a TX queue is assembling from its descriptors (R288). -/
structure TxAsm where
  /-- First ring slot of the packet. -/
  first : Nat := 0
  /-- Ring slots taken so far. -/
  slots : Nat := 0
  /-- The HEAD descriptor's 32 bytes; none while no packet is open. -/
  head : Option Bytes := none
  /-- Data pieces (address, length) in order. -/
  segs : List (Nat × Nat) := []
  /-- INDIRECT descriptors followed. -/
  hops : Nat := 0
  /-- Lists still being read: next entry's address and entries left. -/
  stack : List (Nat × Nat) := []
  /-- The descriptor whose read is out is the pushed one of these, oldest first (R286). -/
  pushed : List Bytes := []
  /-- The STATUS of the first defect met in the open packet, 0 for none (R289). -/
  bad : Nat := 0
  deriving DecidableEq, Repr

/-- One TX, RX, completion or table command queue of a function (R277, R297, R310). -/
structure Queue where
  st : QSt := .disabled
  /-- The state a HELD queue returns to. -/
  back : QSt := .running
  /-- Hold causes (R311): Bus Master Enable or D3hot, freeze, CQ overflow. -/
  holdBme : Bool := false
  holdFrz : Bool := false
  holdOvf : Bool := false
  /-- The QSTOP waiting to complete. -/
  stopping : Option Held := none
  cause : Nat := 0
  globalId : Nat := 0
  gen : Nat := 0
  sizeLog2 : Nat := 0
  bufLog2 : Nat := 0
  cq : Nat := 0
  base : Nat := 0
  recAddr : Nat := 0
  cplBase : Nat := 0
  vector : Nat := 0
  weight : Nat := 0
  burst : Nat := 0
  target : Nat := 0
  modCount : Nat := 0
  modTime : Nat := 0
  devIdx : Nat := 0
  hostIdx : Nat := 0
  fetchPos : Nat := 0
  /-- RX: the next descriptor a frame takes. -/
  usedIdx : Nat := 0
  /-- A doorbell arrived and its record read has not been answered (R282). -/
  recPending : Bool := false
  /-- CQ or table command completion ring: next slot written and its PHASE (R293). -/
  cplIdx : Nat := 0
  phase : Bool := true
  /-- CQ: armed, completions pending since the last interrupt (R302). -/
  armed : Bool := false
  pend : Nat := 0
  /-- CQ: exists, and its OVERFLOW condition (R301). -/
  exists_ : Bool := false
  overflow : Bool := false
  /-- CQ: tick of the first completion pending (R302). -/
  pendFrom : Nat := 0
  /-- CQ: parked completions, oldest first (R300). -/
  parked : List Bytes := []
  /-- TX: the turn in progress has taken this many slots (none: no turn), R295. -/
  turn : Option Nat := none
  asm : TxAsm := {}
  /-- TX: pages' push window: 256 bytes and which were written since the last PUSH_CTL (R286). -/
  pushWin : Tbl Byte := []
  pushSeen : List Nat := []
  /-- TX: ring slots of packets whose completions are all written, not yet covered by DEV_IDX (R284). -/
  doneSlots : List (Nat × Nat) := []
  deriving DecidableEq, Repr

/-- A fetched TX packet (R288, R296). -/
structure TxPkt where
  id : Nat := 0
  fn : Nat := 0
  lq : Nat := 0
  gen : Nat := 0
  first : Nat := 0
  slots : Nat := 0
  head : Bytes := []
  segs : List (Nat × Nat) := []
  /-- The frame as fetched from host memory, once its data is read. -/
  data : Bytes := []
  /-- 0 data not read, 1 in the packet buffer, 2 committed to a transmit hold (R299). -/
  stage : Nat := 0
  /-- Plumb: copies still to complete; a port packet counts 1. -/
  copies : Nat := 1
  deriving DecidableEq, Repr

/-- A dirty-page log of a VF (R405–R408). -/
structure DirtyLog where
  bitmap : Nat := 0
  iovaBase : Nat := 0
  pages : Nat := 0
  pf : Nat := 0
  failed : Bool := false
  running : Bool := true
  outOfRange : Bool := false
  deriving DecidableEq, Repr

/-- One granted resource of a function (R392): value, range base or burst. -/
structure Grant where
  value : Nat := 0
  aux : Nat := 0
  deriving DecidableEq, Repr

/-- A GRANT_SET in progress: its item now shrinking and those after it (R395–R397). -/
structure GrantJob where
  held : Held
  target : Nat
  index : Nat
  items : List Bytes
  /-- Tick at which the item now shrinking was taken. -/
  since : Option Nat := none
  deriving DecidableEq, Repr

/-- A PCIe function (R364–R373, R390–R415). -/
structure Fn where
  mse : Bool := false
  /-- VF MSE of a PF: memory space enable of its VFs. -/
  vfMse : Bool := false
  bme : Bool := false
  parityResp : Bool := false
  serr : Bool := false
  intxDisable : Bool := false
  d3hot : Bool := false
  msixEnable : Bool := false
  maxPayload : Nat := 128
  maxRead : Nat := 512
  vfEnable : Bool := false
  /-- VFs that were enabled when the link of a frozen port went down: they are kept until VF Enable is restored (R379). -/
  vfKept : Nat := 0
  numVfs : Nat := 0
  gen : Nat := 0
  /-- READY and RESET_BUSY of FN_STATUS. -/
  ready : Bool := false
  resetBusy : Bool := false
  /-- Signals kept while no signalling is selected (R369). -/
  keptSigs : List Nat := []
  intxOn : Bool := false
  /-- AQ: next command slot, next completion slot and its PHASE, last HOST_IDX read, record read out. -/
  aqIdx : Nat := 0
  aqHost : Nat := 0
  aqCplIdx : Nat := 0
  aqPhase : Bool := true
  aqRec : Bool := false
  aqClosing : Bool := false
  aqOut : Nat := 0
  /-- EQ: next slot and its PHASE, last consumer index read, armed, record read out. -/
  eqIdx : Nat := 0
  eqHost : Nat := 0
  eqPhase : Bool := true
  eqArmed : Bool := false
  eqRec : Bool := false
  lostBefore : Bool := false
  /-- Events held inside the device, oldest first, at most 256 (R304). -/
  eqHeld : List Bytes := []
  /-- Admin completions waiting (R372, R375), oldest first: 16 bytes less CMD ring phase. -/
  aqHeld : List Bytes := []
  /-- VF FROZEN for migration (R409). -/
  frozen : Bool := false
  log : Option DirtyLog := none
  /-- VF_CONFIG block (R402), 320 bytes; empty: all zeros. -/
  vfConfig : Bytes := []
  /-- Spoof checks failed since SPOOF_DETECTED was last posted (R413). -/
  spoofMask : Nat := 0
  /-- Own grants by RES 1 to 10, and PF2's VF ceilings (R392, R393). -/
  grants : Tbl Grant := []
  ceilings : Tbl Grant := []
  jobs : List GrantJob := []
  /-- Gate slots in use (R399); table entries owned (R392 RES 6). -/
  gateSlots : Nat := 0
  /-- Bandwidth bucket: level in 1/256 byte and the tick it was last refilled at (R399). -/
  bwLevel : Int := 0
  bwTick : Nat := 0
  /-- Inner round: the queue whose turns are running and its turns left (R295). -/
  innerPos : Nat := 0
  innerLeft : Nat := 0
  deriving DecidableEq, Repr

/-- A frame waiting in or bound for a host port (R290, R376). -/
structure RxItem where
  fn : Nat
  lq : Nat
  frame : Frame
  deriving DecidableEq, Repr

/-- A host port (R361–R389). -/
structure HostPort where
  linkUp : Bool := false
  linkL0 : Bool := false
  /-- ASPM L1: the link is in L1, and its substate 0, 1 or 2 (R362). -/
  inL1 : Bool := false
  l1sub : Nat := 0
  aspmL1 : Bool := false
  perst : Bool := true
  /-- Outer round: the function whose turns are running and its turns left (R295). -/
  outerPos : Nat := 0
  outerLeft : Nat := 0
  /-- Frames bound for RX queues of the port's functions, in delivery order. -/
  rx : List RxItem := []
  /-- Frames in the hold area (R376), arrival order. -/
  hold : List RxItem := []
  holdBytes : Nat := 0
  delivered : Nat := 0
  /-- AER: correctable and uncorrectable error status bits (R384) and the first error's header. -/
  aerCor : Nat := 0
  aerUncor : Nat := 0
  aerHdr : List Nat := []
  /-- SPDM connection over DOE: 0 none, 1 version, 2 capabilities, 3 algorithms negotiated (R385). -/
  spdm : Nat := 0
  deriving DecidableEq, Repr

/-! ### Power domains (18) -/

/-- Domain states (R552). -/
inductive DomSt where
  | on | retain | off
  deriving DecidableEq, Repr

/-- An island's domain (R552–R560, R573). -/
structure Dom where
  st : DomSt := .on
  target : DomSt := .on
  busy : Bool := false
  resetting : Bool := false
  failed : Bool := false
  /-- Its contents were lost in OFF, and it has not been ON since (R552). -/
  lost : Bool := false
  /-- Entries bound for the island discarded in its crossings (R22). -/
  discards : Nat := 0
  deriving DecidableEq, Repr

/-- An event posted at most once per second: occurrences since it was last posted, a detail of the first of them,
and the tick of the last posting. -/
structure Rate where
  count : Nat := 0
  detail : Nat := 0
  last : Option Nat := none
  deriving DecidableEq, Repr

/-! ### Strings and time (01, 02) -/

/-- The five states of a string (R61). -/
inductive StrSt where
  | drone | acquire | locked | holdover | disputed
  deriving DecidableEq, Repr

/-- What a scheduled change does at its tick (R27). -/
inductive SchedKind where
  /-- The effective increment becomes this value (2^-48 ns). -/
  | incr (v : Nat)
  /-- A step of this many Q16 ns (R59). -/
  | step (delta : Int)
  /-- A LOAD of this time (2^-48 ns), and its report address. -/
  | load (t report : Nat)
  /-- The drone increment becomes this value (8.32), and the report address (R91). -/
  | drone (v report : Nat)
  /-- UTC data: a corrected offset (none: it stays), and the flags (R51). -/
  | utc (off : Option Int) (flags : Nat)
  /-- Nothing but that the change has been carried (R89). -/
  | carried
  deriving DecidableEq, Repr

/-- A change carried on the time bus for a stated tick (R27), with the command that completes after it. -/
structure Sched where
  at_ : Nat
  what : SchedKind
  held : Option Held := none
  deriving DecidableEq, Repr

/-- An out-of-bound interval of a string (R254), times in Q16 ns. -/
structure OobSpan where
  start : Nat
  cause : Nat
  stop : Option Nat := none
  deriving DecidableEq, Repr

/-- A master heard on a PTP port (R77): port, its portIdentity, its latest Announce, the tick it came at, and whether two came
in time for it to qualify (IEEE 1588-2019; PRESUMED, log entry 55). -/
structure Foreign where
  port : Nat
  id : Bytes
  msg : Bytes
  at_ : Nat
  ok : Bool
  deriving DecidableEq, Repr

/-- A unicast grant given (R77): port, the client's portIdentity, the message type, and the tick it ends at. -/
structure Grantee where
  port : Nat
  id : Bytes
  kind : Nat
  till : Nat
  deriving DecidableEq, Repr

/-- A peer delay measurement (R77), times in Q16 ns: sequence and transmit stamp of the latest Pdelay_Req; receive stamp,
turnaround start and corrections of its response while a follow-up is to come; and the latest meanPathDelay. -/
structure Pdelay where
  seq : Nat := 0
  t1 : Int := 0
  open_ : Bool := false
  resp : Option (Int × Int × Int) := none
  mean : Option Int := none
  deriving DecidableEq, Repr

/-- A string (R50–R98) and what the capstone of the current period reports of it (R253, R254). -/
structure Str where
  /-- Time in units of 2^-48 ns since the epoch (R50, R54). -/
  t : Nat := 0
  /-- Effective increment per tick now in effect on every tap, 2^-48 ns (R54, R55). -/
  incr : Nat := 2 ^ 48
  st : StrSt := .drone
  stepArmed : Bool := false
  latched : Bool := false
  /-- Tick at which the dispute timer started; none: not running. -/
  dispFrom : Option Nat := none
  lockCount : Nat := 0
  returnCount : Nat := 0
  /-- Drone increment, 8.32 (R54). -/
  drone : Nat := 0x100000000
  freq : Int := 0
  slew : Int := 0
  slewEnd : Nat := 0
  /-- FREQ since the string last entered LOCKED: (tick from which, FREQ), newest first (R58). -/
  hist : List (Nat × Int) := []
  histMean : Option Int := none
  /-- Accepted offsets' magnitudes for u_servo, newest first, and the latest u_meas (R68). -/
  window : List Nat := []
  uMeas : Nat := 0
  uFrozen : Option Nat := none
  /-- Holdover growth in 10^-9 Q16 ns (R69). -/
  growth : Nat := 0
  u : Nat := 0xFFFFFFFF
  /-- Count of steps and LOADs (R198). -/
  jumps : Nat := 0
  /-- Latest tick at which the string was in DRONE before leaving it (R240). -/
  lastDrone : Nat := 0
  oob : Bool := true
  ofs : Int := 0
  lastMeas : Nat := 0
  dtValid : Bool := false
  reanchors : Nat := 0
  steps : Nat := 0
  refusals : Nat := 0
  srcKind : Nat := 0
  srcPort : Nat := 0
  hostTimeout : Nat := 0
  srcOk : Bool := false
  lastHost : Nat := 0
  lastPulse : Nat := 0
  gm : Nat := 0
  sched : List Sched := []
  /-- Tick of the latest step or LOAD, scheduled or applied, and the time just after it (R59). -/
  lastStep : Option Nat := none
  stepReading : Nat := 0
  /-- The reading just before it, once it has applied. -/
  stepOld : Option Nat := none
  /-- Steps applied: (tick, Q16 ns), newest first (R135). -/
  stepLog : List (Nat × Int) := []
  utcOffset : Int := 0
  /-- Bit 0 LEAP61, 1 LEAP59, 2 UTC_VALID, 3 TIME_TRACEABLE, 4 FREQ_TRACEABLE. -/
  utcFlags : Nat := 0
  /-- A leap change waiting: new offset and the TAI second it is due (R51). -/
  leap : Option (Int × Nat) := none
  now : List Nat := [0, 0, 0]
  /-- SERVO_OWNER in effect (R72). -/
  owner : Nat := 0
  ptpClock : Bytes := []
  ptpPorts : Tbl Bytes := []
  /-- Announce messages heard, one per port and sender (R61, R97), and unicast grants given and held (R77). -/
  foreign : List Foreign := []
  clients : List Grantee := []
  grantors : List (Nat × Bytes) := []
  ptpSeq : Nat := 0
  /-- Path delay measurement by port (R77). -/
  pdelay : Tbl Pdelay := []
  /-- Capstone period data. -/
  since : Nat := 0
  stTicks : List Nat := [0, 0, 0, 0, 0]
  visited : List Nat := [0]
  pSteps : Nat := 0
  pRefusals : Nat := 0
  pMaxOfs : Int := 0
  pMaxU : Nat := 0xFFFFFFFF
  pOobSince : Nat := 0
  pOobTicks : Nat := 0
  pReanchors : Nat := 0
  pStepSum : Int := 0
  /-- TPLL_HOLD was set at some time of the period (R253). -/
  pHold : Bool := false
  spans : List OobSpan := [⟨0, 2, none⟩]
  deriving DecidableEq, Repr

/-- A replica of a string in a fret or time tap (R25, R26): its own time (2^-48 ns), the increment it advances by, and the
state and u_string of the latest good code cycle. -/
structure Rep where
  t : Nat := 0
  incr : Nat := 2 ^ 48
  st : StrSt := .drone
  u : Nat := 0xFFFFFFFF
  deriving DecidableEq, Repr

/-- The fret or time tap of an island besides BRG_ISL_STAT (R25, R29): code cycles failed and agreed in a row, whether it
waits to reload, and its replicas by string, none before the first good code cycle. -/
structure Tap where
  bad : Nat := 0
  good : Nat := 0
  reload : Bool := false
  reps : List Rep := []
  deriving DecidableEq, Repr

/-- ESMC state of a port (R82): the QL received, the body of its extended QL TLV, and the tick of the last PDU. -/
structure Esmc where
  ql : Option Nat := none
  ext : Bytes := []
  last : Nat := 0
  deriving DecidableEq, Repr

/-- Everything of the time island that is not a string's. -/
structure TimeBlk where
  tick : Nat := 0
  codeCycles : Nat := 0
  /-- Measured frequency offset of the EEC against the time clock, 2^-48 (R81). -/
  eecFreq : Int := 0
  /-- Tick of the latest code cycle (R26). -/
  lastCycle : Option Nat := none
  esmc : Tbl Esmc := []
  /-- Last pulse seen per PPS input, as tick + 1; 0: none yet (R83). -/
  ppsLast : List Nat := [0, 0]
  /-- Level of each PPS output's active state, and the tick it rose (R84). -/
  ppsOn : List Bool := [false, false, false, false]
  ppsFrom : List Nat := [0, 0, 0, 0]
  /-- The pending commits of groups 8 and 9 have passed their checks and take effect output by output, input by input and
  port by port (R88, R98). -/
  ioTaking : Bool := false
  plgTaking : Bool := false
  deriving DecidableEq, Repr


/-! ### Errors (18) and crossings (01) -/

/-- An error log entry (R564): TIME as the R17 number; `last` is the tick of its latest occurrence (R565). -/
structure ErrEnt where
  seq : Nat
  cls : Nat
  island : Nat
  code : Nat
  count : Nat
  time : Nat
  detail : Bytes
  last : Nat
  deriving DecidableEq, Repr

/-- What crosses from one island to another (R21, R23). -/
inductive Item where
  /-- A received frame bound for its ingress pipe. -/
  | ingress (f : Frame)
  /-- A frame bound for gate `g`. -/
  | gate (g : Nat) (f : Frame)
  /-- A frame bound for a course's input. -/
  | course (c : Nat) (f : Frame)
  /-- A frame bound for local RX queue `lq` of a function. -/
  | rx (fn lq : Nat) (f : Frame)
  /-- A frame bound for a port's egress queue. -/
  | egress (port q : Nat) (f : Frame)
  /-- A packet bound for a plumb group. -/
  | plumb (g : Nat) (f : Frame)
  deriving DecidableEq, Repr

/-- An entry of a crossing FIFO: source and destination island, and whether it is readable yet (R21). -/
structure Xing where
  src : Nat
  dst : Nat
  ready : Bool := false
  item : Item
  deriving DecidableEq, Repr

/-! ### Ports and calibration (03, 04) -/

/-- A frame in a port's transmit hold (R120): the egress queue it came from, and the string its stamp is taken on. -/
structure TxHold where
  frame : Frame
  q : Nat := 0
  /-- Planned t_L on the port's string, in Q16 ns, and the term `a` of R120. -/
  plan : Nat := 0
  a : Nat := 0
  deriving DecidableEq, Repr

/-- A calibration frame out (R147): SEQ, transmit stamp in Q16 ns, tick of launch, and the receive entry in effect then. -/
structure CalOut where
  seq : Nat
  t1 : Int
  tick : Nat
  entry : Bytes
  deriving DecidableEq, Repr

/-- A calibration run on a port (R147). -/
structure CalRun where
  held : Held
  kind : Nat
  run : Nat
  count : Nat
  sent : Nat := 0
  /-- Tick of the latest launch, and the frames out. -/
  last : Nat := 0
  out : List CalOut := []
  lost : Nat := 0
  rtt : List Int := []
  linkLost : Bool := false
  straddled : Bool := false
  version : Nat := 0
  deriving DecidableEq, Repr

/-- What a port holds besides its page (R99–R136). -/
structure Port where
  /-- 1.6TBASE-R: the next frame is dealt to the second pipe (R102). -/
  deal : Bool := false
  /-- Tick at which HOLD_DOWN began, and the cause of the loss. -/
  downFrom : Nat := 0
  downCause : Nat := 0
  /-- FEC and pause that Clause 73 resolved (R104). -/
  negFec : Option Nat := none
  negPause : Option Nat := none
  /-- FEC_ACT at the last LINK_UP (R204). -/
  lastFec : Option Nat := none
  /-- Ticks at which received pause (index 8) and PFC times end (R109); when PAUSED was set. -/
  pauseUntil : List Nat := [0, 0, 0, 0, 0, 0, 0, 0, 0]
  pausedFrom : Nat := 0
  /-- Flow control is being sent, since the tick the last frame of it went (R109). -/
  xoff : Option Nat := none
  hold : List TxHold := []
  /-- Tick at which the line is free again, and the egress queue of the frame on it, while no closing of its gate has overtaken it
  (R334). -/
  busyUntil : Nat := 0
  lineQ : Option Nat := none
  /-- Commands naming the port, oldest first, and whether the oldest, a PORT_LINK_RESTART, waits for the port to leave DISABLED
  (R115). -/
  cmds : List Held := []
  restarting : Bool := false
  /-- What the port advertises in Clause 73, laid out as the partner words (R104). -/
  adv : Option (Word × Word) := none
  /-- The next receive-order tag (R102). -/
  order : Nat := 0
  /-- Tick by which the port has realigned on the grid of the lock group it joined last (R88). -/
  alignAt : Nat := 0
  /-- Near-end loopback: frames sent and not yet back, oldest first (R108). -/
  looped : List Bytes := []
  /-- Calibration entries still in effect by slot, in receive and transmit, until the port's next gap (R144). -/
  oldRx : List (Nat × Bytes) := []
  oldTx : List (Nat × Bytes) := []
  cal : Option CalRun := none
  /-- The entry replaced last in each direction: slot, tick of its replacement, and the entry (R145). -/
  prevRx : Option (Nat × Nat × Bytes) := none
  prevTx : Option (Nat × Nat × Bytes) := none
  /-- Two-step Sync residences held per egress port (R135): key bytes and residence, oldest first. -/
  tc : List (Bytes × Int) := []
  deriving DecidableEq, Repr

/-- A calibration table image (R139): its entries that differ from the base, by index; the base is the factory's
table, or one of zeros. -/
structure CalImg where
  factory : Bool := true
  version : Nat := 1
  users : List Nat := []
  entries : Tbl Bytes := []
  deriving DecidableEq, Repr

/-! ### Parsing and classification (05) -/

/-- A table entry and where it stands: a bucket number, or none for the stash (R169). -/
structure TEnt where
  bytes : Bytes
  loc : Option Nat
  deriving DecidableEq, Repr

/-- A logical table (R169): its seed and entries. -/
structure LTable where
  seed : Nat := 0
  ents : List TEnt := []
  deriving DecidableEq, Repr

/-- A session context (R188). -/
structure Session where
  frames : Nat := 0
  octets : Nat := 0
  stamp : Nat := 0
  u : Nat := 0
  flags : Nat := 0
  policer : Nat := 0
  owner : Nat := 0
  tag : Nat := 0
  /-- It has been set since its slot was reserved (R186). -/
  made : Bool := false
  deriving DecidableEq, Repr

/-- A policer (R181, R182, R188). Bucket levels are in 1/256 byte. -/
structure Policer where
  mode : Nat := 0
  aware : Bool := false
  cir : Nat := 0
  pir : Nat := 0
  cbs : Nat := 0
  ebs : Nat := 0
  c : Nat := 0
  e : Nat := 0
  /-- What each rate has given short of a unit, in 1/31,250. -/
  cRest : Nat := 0
  eRest : Nat := 0
  tick : Nat := 0
  counts : List Nat := [0, 0, 0]
  deriving DecidableEq, Repr

/-- A function's load spreading (R183, R184). -/
structure Rss where
  kind : Nat := 0
  fields : Nat := 0
  log2 : Nat := 6
  key : Bytes := []
  table : Tbl Nat := []
  deriving DecidableEq, Repr

/-- What a rule or a miss action gives a frame (R171). -/
structure Act where
  cls : Nat
  colour : Nat
  queue : Nat
  session : Option Nat := none
  owner : Nat := 0xFFFF
  deriving DecidableEq, Repr

/-- A frame waiting for its DRAM-tier lookup (R174): pipe, profile, table, and the entry that the lookup issued for it
finds (R173). -/
structure DramWait where
  pipe : Nat
  frame : Frame
  table : Nat
  ent : Option Bytes
  /-- The miss action of its profile when it began (R193). -/
  miss : Act
  deriving DecidableEq, Repr

/-! ### Courses (06) -/

/-- A frame in a course's reorder store, with its arrival order (R194, R206). -/
structure CHeld where
  frame : Frame
  arr : Nat
  deriving DecidableEq, Repr

/-- A course (R194–R221). Its sequence, epoch, W and tie pointer stand in its registers. -/
structure Course where
  held : List CHeld := []
  arrSeq : Nat := 0
  /-- The release front F: TIME (R201), and the ambiguity horizon H in Q16 ns (R207). -/
  front : Option Nat := none
  horizon : Option Int := none
  /-- Epoch tag of the current epoch, tick of the latest drain and new-scale time at it in Q16 ns (R213, R214). -/
  tag : Nat := 0
  drainTick : Option Nat := none
  drainTime : Nat := 0
  /-- A smaller W and the tick at which it takes effect (R204). -/
  shrink : Option (Nat × Nat) := none
  /-- The port served first of a tie group that R211 has released in part. -/
  tieFirst : Option Nat := none
  deriving DecidableEq, Repr

/-! ### The witness engine (07) -/

/-- A component the part runs, as measured when it was loaded (R255): its code, SVN, VERSION and DIGEST. -/
structure Comp where
  id : Nat
  svn : Nat := 0
  version : Nat := 0
  digest : Bytes := []
  untested : Bool := false
  changed : Bool := false
  deriving DecidableEq, Repr

/-- A record begun and not complete: its number, 48 bytes so far, half and the tick of its tap (R235, R236). -/
structure WRec where
  id : Nat
  bytes : Bytes
  half : Nat
  tick : Nat
  deriving DecidableEq, Repr

/-- A record in an ashlar with what orders it (R237): instant in Q16 ns, then (course, sequence) or (4 + half, order). -/
structure ARec where
  bytes : Bytes
  at_ : Nat
  grp : Nat
  ord : Nat
  deriving DecidableEq, Repr

/-- An ashlar (R239–R243), open, closed, or sealed with its root and chain hash. -/
structure Ashlar where
  kind : Nat := 0
  flags : Nat := 0
  index : Nat := 0
  prev : Nat := 0
  opening : Nat := 0
  jstring : Nat := 0
  open_ : Nat := 0
  close : Nat := 0
  unwitnessed : Nat := 0
  recs : List ARec := []
  /-- Seal: Merkle root, H_PREV and H. -/
  root : Bytes := []
  hPrev : Bytes := []
  h : Bytes := []
  sealed_ : Bool := false
  /-- Tick at which it opened (R239). -/
  tick : Nat := 0
  deriving DecidableEq, Repr

/-- A capstone due (R251): what was taken at its boundary or cut. -/
structure CapReq where
  endTime : Nat
  start : Nat
  last : Nat
  cut : Bool
  flags : Nat
  gapFrames : Nat
  wodDrops : Nat
  delivery : Nat
  orphans : Nat
  calHash : Bytes
  calVersion : Nat
  strings : Bytes
  intervals : Bytes
  measures : Bytes
  /-- The journal string, and the certificate block: none unless CERT (R252, R256). -/
  jstring : Nat
  cert : Bytes
  aliasId : Bytes
  /-- The secret its keys are generated from, S_alias (R260). -/
  aliasKey : Bytes
  deriving DecidableEq, Repr

/-- A capstone made. -/
structure Cap where
  index : Nat
  last : Nat
  bytes : Bytes
  deriving DecidableEq, Repr

/-- An extent in the journal or waiting for it (R263): TYPE, INDEX, first LBA and LBAs, last ashlar it covers. -/
structure Extent where
  type : Nat
  index : Nat
  lba : Nat
  lbas : Nat
  covers : Nat
  durable : Bool
  deriving DecidableEq, Repr

/-- A WIT_MARK whose place is not final (R274): its record's ashlar, instant and order (R237), and its bytes. -/
structure MarkWait where
  held : Held
  buf : Nat
  ashlar : Nat
  at_ : Nat
  grp : Nat
  ord : Nat
  bytes : Bytes
  deriving DecidableEq, Repr

/-- A gap or WITNESS_OR_DROP episode (R248–R250). -/
structure Gap where
  start : Nat
  cause : Nat
  wod : Bool
  count : Nat
  deriving DecidableEq, Repr

/-- The witness engine (R227–R276). -/
structure Wit where
  recs : List WRec := []
  recSeq : Nat := 0
  cur : Option Ashlar := none
  order : Nat := 0
  /-- Closed and not sealed, oldest first; sealed and held in staging, oldest first. -/
  closed : List Ashlar := []
  sealed_ : List Ashlar := []
  hLast : Bytes := []
  gap : Option Gap := none
  /-- Half failures to report: start and lost records. -/
  halfGap : Option (Nat × Nat) := none
  offFrom : Nat := 0
  offCount : Nat := 0
  caps : List CapReq := []
  capDone : List Cap := []
  capIndex : Nat := 0
  capCount : Nat := 0
  capStart : Nat := 0
  capLast : Option Nat := none
  prevCap : Bytes := []
  /-- H_LAST of the capstone made last (R251), and the capstones that were not stored (R258, R274). -/
  prevHLast : Bytes := []
  unstored : List Nat := []
  capsBase : List Nat := [0, 0, 0, 0]
  restart : Bool := false
  certDue : Bool := false
  gapInPeriod : Bool := false
  halfInPeriod : Bool := false
  calAtStart : Nat := 0
  /-- Frames of witnessed classes recorded but not delivered (R252). -/
  deliveryDrops : Nat := 0
  ringBase : Nat := 0
  ringSlots : Nat := 0
  ringNext : Nat := 0
  extents : List Extent := []
  nextLba : Nat := 16
  durable : Option Nat := none
  durableCap : Option Nat := none
  durableH : Bytes := []
  released : Option Nat := none
  sbGen : Nat := 0
  /-- The opening counter held in flash (R267). -/
  opening : Nat := 0
  enPend : Bool := false
  /-- The opening that runs has read the drives (R267 steps 2 and 3). -/
  adopted : Bool := false
  marks : List MarkWait := []
  /-- WIT_HALF commands waiting for the boundary or for a half to go idle: half, OP, switched, command. -/
  halfJobs : List (Nat × Nat × Bool × Held) := []
  /-- Halves that have failed and wait for the next boundary (R270), and halves released. -/
  failed : List Nat := []
  relHalves : List Nat := []
  /-- Number of the last epoch boundary on the journal string's scale, its tick, and the last one a capstone was made
  at (R238, R239, R251). -/
  lastB : Nat := 0
  lastBTick : Nat := 0
  capB : Option Nat := none
  /-- Ashlars no capstone covers yet: INDEX, RECORDS, GAP records, H (R252). -/
  sums : List (Nat × Nat × Nat × Bytes) := []
  /-- The watermark has changed since the superblock was written (R264). -/
  sbDirty : Bool := false
  deriving DecidableEq, Repr

/-! ### Egress scheduling and plumb (09, 10) -/

/-- A token bucket, in 1/256 byte (R325). -/
structure Bucket where
  level : Int := 0
  /-- What the rate has given short of a unit, in 1/125. -/
  rest : Nat := 0
  tick : Nat := 0
  deriving DecidableEq, Repr

/-- A gate configuration (R328, R330): its list, and the string time in Q16 ns at which its first cycle starts. -/
structure GateCfg where
  list : List (Nat × Nat)
  cycle : Nat
  ext : Nat
  start : Nat
  /-- String time at its commit point. -/
  made : Nat := 0
  deriving DecidableEq, Repr

/-- A port's scheduler (R319–R335). -/
structure SchedP where
  ptr : Nat := 4
  /-- The queue at the pointer has been given its quantum in this turn. -/
  inTurn : Bool := false
  deficits : Tbl Nat := []
  buckets : Tbl Bucket := []
  gateOn : Bool := false
  /-- Gate states before the first ConfigChangeTime. -/
  init : Nat := 0xFFFF
  oper : Option GateCfg := none
  pend : Option GateCfg := none
  deferred : List Nat := []
  deriving DecidableEq, Repr

/-- A plumb copy waiting for its launch instant (R348–R355). Times are string times in Q16 ns; `d` is d_p, `window` F_p. -/
structure PCopy where
  pkt : Nat
  group : Nat
  port : Nat
  frame : Frame
  rel : Int
  d : Nat
  window : Nat
  stamp : Int
  tL : Int
  str : Nat
  tick : Nat
  /-- The group's lock group, and whether it asks for records, at T_enq (R355). -/
  lock : Nat := 0
  wit : Bool := false
  /-- Marker and parity symbols before its start symbol (R120), and its achieved error in 1/16 ns (R350). -/
  am : Nat := 0
  err : Int := 0
  deriving DecidableEq, Repr

/-! ### DDR5 memory (14) -/

/-- A memory channel (R446–R448, R456, R461). Rank states are coded as in DRAM_CH_STAT: 0 ABSENT, 1 ACTIVE, 2 SPARE,
3 SOURCE, 4 TARGET, 5 RETIRED, 6 REMOVED, 7 FAILED. -/
structure DCh where
  inService : Bool := false
  fast : Bool := false
  hot : Bool := false
  cause : Nat := 0
  dimms : Nat := 0
  nranks : Nat := 0
  temp : Int := 0
  /-- Consecutive failed reads of each DIMM's sensor. -/
  miss : List Nat := [0, 0]
  ranks : List Nat := [0, 0, 0, 0]
  /-- tREFI halved: in effect, and from the next refresh window (R456); next bank of the same-bank refresh. -/
  refFast : Bool := false
  refNext : Bool := false
  refBank : Nat := 0
  /-- Patrol scrub's lines read so far in the pass (R459). -/
  scrub : Nat := 0
  deriving DecidableEq, Repr

/-- A copy from a SOURCE to its TARGET (R462): ranks as channel × 4 + rank, and the next line. -/
structure DCopy where
  src : Nat
  dst : Nat
  pos : Nat := 0
  deriving DecidableEq, Repr

/-- The memory system: which rank stands at each place of the map (R450), the map in effect and the one stored in
flash (R452) as (home, mask) per output, the copy, ranks waiting to be retired (R464), poisoned lines by line number
of the device address (R458), and the corrected reads of each rank in the last 24 h (R457). -/
structure Dram where
  chans : Tbl DCh := []
  rankSize : Nat := 0
  slots : List (List Nat) := []
  map : List (Nat × Nat) := []
  stored : List (Nat × Nat) := []
  copy : Option DCopy := none
  waiting : List Nat := []
  poisoned : List Nat := []
  ce : Tbl (List Nat) := []
  cePosted : List Nat := []
  /-- Regions in the order of R453: base and size in bytes. -/
  regions : List (Nat × Nat) := []
  degraded : List Nat := []
  /-- The training results in flash (R448), by channel: what they belong to, the serial number of each DIMM and the hottest reading at
  training. -/
  trained : Tbl (Option (List Nat × Int)) := []
  /-- The boot under way follows a warm reset (R448). -/
  warm : Bool := false
  deriving DecidableEq, Repr

/-! ### Givik clusters (15, 16) -/

/-- What a thread waits for in the keystone (R482, R483, R487). -/
inductive GWait where
  | lock (n : Nat)
  | event (n : Nat)
  | write (ch : Nat)
  | read (ch : Nat)
  deriving DecidableEq, Repr

/-- What a thread does: idle, running, parked in WNEXT, or waiting. -/
inductive GSt where
  | idle | running | parked
  | waiting (w : GWait)
  deriving DecidableEq, Repr

/-- A work item (R477–R480): its gate and number, the frame, the core cycle at which WNEXT retired (none: not yet), its
budget, the cycles it was halted, and the DATA of RECD. -/
structure GItem where
  gate : Nat
  number : Nat
  frame : Frame
  start : Option Nat := none
  budget : Nat
  halted : Nat := 0
  recd : Option (BitVec 64) := none
  deriving DecidableEq, Repr

/-- A thread (R499): `granted` tells that its wait has ended, and for a lock whether it was broken; `regs` are g1 to
g31. -/
structure GThr where
  st : GSt := .idle
  granted : Option Bool := none
  pc : Nat := 0
  regs : Tbl (BitVec 64) := []
  lpoison : Bool := false
  shed : Bool := false
  abandoned : Bool := false
  broken : Bool := false
  item : Option GItem := none
  /-- Halted by a debugger (R492), the cycle since when, and one instruction to be stepped. -/
  halted : Bool := false
  haltAt : Nat := 0
  step : Bool := false
  /-- Its gate or entry has changed: it restarts after its work item (R494). -/
  moved : Bool := false
  deriving DecidableEq, Repr

/-- A keystone lock, event, timer and channel (R482–R484, R487). -/
structure GLock where
  owner : Option Nat := none
  broken : Bool := false
  waiters : List Nat := []
  deriving DecidableEq, Repr

structure GEvent where
  count : Nat := 0
  waiters : List Nat := []
  deriving DecidableEq, Repr

/-- A timer's deadline: a string and its time in 2^-48 ns, or a core cycle. -/
inductive GDeadline where
  | time (str t : Nat)
  | cycle (n : Nat)
  deriving DecidableEq, Repr

structure GTimer where
  event : Nat
  at_ : GDeadline
  deriving DecidableEq, Repr

structure GChan where
  owner : Option Nat := none
  since : Nat := 0
  words : List (BitVec 64) := []
  committed : Bool := false
  writers : List Nat := []
  /-- Threads whose message was abandoned and whose next commit has not come. -/
  lost : List Nat := []
  deriving DecidableEq, Repr

/-- A core: the cycle at which it last started, its latest fault record, its faults since cold reset, and PAIRED in
effect. -/
structure GCore where
  start : Nat := 0
  fault : Bytes := []
  faults : Nat := 0
  paired : Bool := false
  deriving DecidableEq, Repr

/-- A cluster: whether it holds a loaded gate image and that image's thread entries (R476, R543), its keystone, threads
and cores, the tick of its latest activity (R486), and the releases waiting for its work items (R493). -/
structure GClu where
  image : Bool := false
  entries : List Nat := []
  locks : Tbl GLock := []
  events : Tbl GEvent := []
  timers : Tbl (Option GTimer) := []
  chans : Tbl GChan := []
  thrs : Tbl GThr := []
  cores : Tbl GCore := []
  lastAct : Nat := 0
  relJobs : List Held := []
  deriving DecidableEq, Repr

/-- A gate: the thread last assigned (cluster × 64 + thread) and the next ITEM. -/
structure GGate where
  last : Option Nat := none
  item : Nat := 0
  deriving DecidableEq, Repr

/-! ### The ledger function and drive ports (13) -/

/-- An NVMe command fetched from a submission queue: its queue, its order among those fetched, its 64 bytes. -/
structure NCmd where
  sq : Nat
  seq : Nat
  bytes : Bytes
  deriving DecidableEq, Repr

/-- NVMe queues (R416): an SQ with head, tail and the CQ it completes to; a CQ with the slot written next, its phase,
the head software last gave, its interrupt, and completions that found it full or DMA stopped. -/
structure NSq where
  base : Nat
  size : Nat
  head : Nat := 0
  tail : Nat := 0
  cq : Nat
  deriving DecidableEq, Repr

structure NCq where
  base : Nat
  size : Nat
  tail : Nat := 0
  head : Nat := 0
  phase : Bool := true
  ien : Bool
  vector : Nat
  held : List Bytes := []
  deriving DecidableEq, Repr

/-- A command that waits for buffered writes to become durable (R426, R427). -/
structure NOut where
  cmd : NCmd
  waits : List Nat
  deriving DecidableEq, Repr

/-- An I/O controller (R416–R434): PF1 or PF3. -/
structure Ctrl where
  sqs : Tbl (Option NSq) := []
  cqs : Tbl (Option NCq) := []
  fetched : List NCmd := []
  seq : Nat := 0
  outs : List NOut := []
  aers : List NCmd := []
  events : List Nat := []
  feats : Tbl Nat := []
  apst : Bytes := []
  ps : Nat := 0
  opPs : Nat := 0
  lastCmd : Nat := 0
  errLog : List Bytes := []
  errCount : Nat := 0
  deriving DecidableEq, Repr

/-- A drive port (R437–R440): STATE as in LEDG_DRV_STAT; what its drive holds besides its bytes: LBAs marked Write
Uncorrectable, and ranges that read 0. -/
structure Drv where
  st : Nat := 0
  present : Bool := false
  up : Bool := false
  speed : Nat := 0
  width : Nat := 0
  /-- Whole slabs that fit on the drive. -/
  slabs : Nat := 0
  since : Nat := 0
  released : Bool := false
  unread : List Nat := []
  zero : List (Nat × Nat) := []
  /-- In a rebuild: the chunk of the drive's slabs below which every allocated chunk is copied, and LBAs marked
  unreadable. -/
  rebuilt : Nat := 0
  marked : Nat := 0
  deriving DecidableEq, Repr

/-- A pair's slab map as the device holds it (R421, R423): S, and each slab in use with its NSID and its index in the
namespace, by rising slab. -/
structure PairMap where
  slabs : Nat := 0
  used : List (Nat × Nat × Nat) := []
  deriving DecidableEq, Repr

/-- One buffered LBA (R426): its number, namespace, LBA and data (nothing: zeros), and whether its write
has completed. -/
structure WEnt where
  id : Nat
  nsid : Nat
  lba : Nat
  data : Bytes
  done : Bool
  deriving DecidableEq, Repr

/-- A self-test (R431, R432): STC, its NSID, and whether it is paused. -/
structure SelfTest where
  stc : Nat
  nsid : Nat
  paused : Bool := false
  deriving DecidableEq, Repr

/-- The ledger. -/
structure Ledger where
  ctrls : Tbl Ctrl := []
  drvs : Tbl Drv := []
  maps : Tbl PairMap := []
  wbuf : List WEnt := []
  wseq : Nat := 0
  test : Option SelfTest := none
  /-- Self-test results, newest first (28 bytes each). -/
  results : List Bytes := []
  /-- Tick at which an I/O command was last outstanding. -/
  ioSince : Nat := 0
  /-- Held in the primary flash: VOLUME_ID and the pairs' epochs (R424); attachments of host namespaces, bit 0 PF1 and
  bit 1 PF3. -/
  volume : Bytes := []
  epochs : List Nat := [0, 0]
  attach : Tbl Nat := []
  /-- Tick since which cluster 0 has not served drive I/O (R436). -/
  downFrom : Option Nat := none
  deriving DecidableEq, Repr

/-! ### Footing (17) -/

/-- A firmware component: code of R255, security version, version, payload. -/
structure FwComp where
  id : Nat
  svn : Nat
  version : Nat
  payload : Bytes
  deriving DecidableEq, Repr

/-- A slot record (R530); STATE as it codes it. -/
structure SlotRec where
  st : Nat
  seq : Nat
  writes : Nat
  tries : Nat := 0
  untested : Bool := false
  table : Bool := false
  recovered : Bool := false
  epoch : Nat
  key : Nat
  svn : Nat
  len : Nat
  digest : Bytes
  version : Nat
  deriving DecidableEq, Repr

/-- An image slot or gate area of the primary flash (R518): its record, the components bound in it, and its two tag tables, one 32-byte
tag per block (R529). -/
structure FwSlot where
  rec_ : Option SlotRec := none
  comps : List FwComp := []
  tags0 : List Bytes := []
  tags1 : List Bytes := []
  deriving DecidableEq, Repr

/-- Where footing stands (R519, R537, R548, R584). -/
inductive BootSt where
  | held | waitPg | recovery | running
  | halted (code : Nat)
  deriving DecidableEq, Repr

/-- An activation that runs (R543): its command, gate area (else slot) and number, the combination, the component whose
load fails (a cluster, 6 the bridge), the cluster being replaced, its phase (0 draining the ledger, 1 released), whether
the activation released it, and the clusters done. -/
structure ActJob where
  held : Held
  gate : Bool
  idx : Nat
  untested : Bool
  fail : Option Nat
  cl : Nat
  phase : Nat
  mine : Bool
  done : List Nat := []
  /-- The NVMe command it serves instead of `held`, on PF1 (R435, R549). -/
  nvme : Option NCmd := none
  /-- It came over the management bus (R571). -/
  mgmt : Bool := false
  deriving DecidableEq, Repr

/-- Footing's state. Slots, areas, token, device state and fuses survive every reset. -/
structure Foot where
  slots : List FwSlot := [{}, {}]
  gates : Tbl FwSlot := []
  svn : Nat := 0
  epoch : Nat := 0
  revoked : Nat := 0
  lifecycle : Nat := 0
  lcNext : Option Nat := none
  token : Bytes := []
  boots : Nat := 0
  boot : BootSt := .held
  /-- PG and BOOT_SRC as sampled. -/
  pg : Bool := false
  /-- Main power has been lost since the last reset: only a warm or cold reset brings the islands up again (R585). -/
  needReset : Bool := false
  src : Nat := 0
  runSlot : Nat := 0
  fallback : Bool := false
  fbCause : Nat := 0
  recovered : Bool := false
  /-- Recovery: refused carriers, the last refusal's code, the primary cause, whether forced, the tick it waits from, and
  whether the running carrier came from the recovery flash (R545). -/
  refused : Nat := 0
  lastRefusal : Option Nat := none
  primary : Nat := 0
  forced : Bool := false
  waitFrom : Nat := 0
  fromFlash : Bool := false
  /-- The images whose block tags fail at this boot, kept for the gate images that recovery loads (R543). -/
  gateBad : List Nat := []
  abiMin : Nat := 0
  abiMax : Nat := 0
  /-- The components that run (R255's 1 to 4) and HEALTHY. -/
  running : List FwComp := []
  healthy : Bool := false
  act : Option ActJob := none
  /-- Activations that wait for it, with the failure each meets. -/
  actQ : List (Held × Option Nat) := []
  deriving DecidableEq, Repr
/-! ### Service (18) -/

/-- A domain command: its island and state, and the admin command it completes (none: the management bus, R572). The
first of the list runs (R554). -/
structure DomJob where
  island : Nat
  st : DomSt
  held : Option Held := none
  started : Bool := false
  deriving DecidableEq, Repr

/-- A UNIT_RESET (R558). -/
structure RstJob where
  island : Nat
  held : Held
  started : Bool := false
  deriving DecidableEq, Repr

/-- A PIPE_REMAP of a port island (R560): the new pipes, whether the island holds frames, and the frames it holds. -/
structure MapJob where
  island : Nat
  ip : Nat
  ep : Nat
  held : Held
  started : Bool := false
  holds : Bool := false
  frames : List Frame := []
  bytes : Nat := 0
  deriving DecidableEq, Repr

/-! ### Management bus (17, 18) -/

/-- A firmware update over PLDM (R539): 0 idle, 1 learning components, 2 ready, 3 download, 4 verify, 5 apply; the largest transfer
the sender takes, the carrier's size and the bytes come so far, and whether it has been applied. -/
structure Pldm where
  st : Nat := 0
  prev : Nat := 0
  maxXfer : Nat := 0
  size : Nat := 0
  data : Bytes := []
  applied : Bool := false
  deriving DecidableEq, Repr


/-! ### The device -/

/-- Everything the spec gives the machine but the queue of waiting commands. -/
structure Dev where
  /-- The variant's fuse (R6, R8; DESIGN CHOICE W, log entry 1). -/
  variant : Variant := .w
  /-- Register bank: the value last written or last set by the device, keyed by register key (R14, R37). -/
  regs : Tbl Word := []
  /-- Values in effect of the shadowed registers (R38, R41). -/
  eff : Tbl Word := []
  /-- Captured sets of pending commits (R38). -/
  cap : Tbl Word := []
  /-- Port groups whose pending set is in effect in the receive direction only, or the transmit only (R111). -/
  halfRx : List Nat := []
  halfTx : List Nat := []
  /-- Pipes and deep parsers that have taken their part of a PARSE or CLASS group's pending set, by group base (R165, R193). -/
  took : List (Nat × Nat) := []
  /-- 64-bit counters (R114, R192), keyed by the register key of their low word. -/
  ctrs : Tbl Nat := []
  /-- High words latched by a read of a counter's low word, by host port and counter (R114). -/
  latch : Tbl Nat := []
  /-- Byte memories: host memories, DRAM, cluster memories, drives (see `Space`). -/
  mem : Memory := []
  /-- Writes of the command in progress, newest first; empty between commands (log entry 4). -/
  wr : List (Nat × Bytes) := []
  /-- Index of the next fresh free value (the model's own; log entry 2). -/
  freeIdx : Nat := 0
  /-- What the block has put out since reset, newest first (the model's own; log entry 5). -/
  out : List Out := []
  fns : Tbl Fn := []
  queues : Tbl Queue := []
  pkts : List TxPkt := []
  pktSeq : Nat := 0
  hports : Tbl HostPort := []
  doms : Tbl Dom := []
  /-- A device-fatal error has stopped the part (R568). -/
  fatal : Bool := false
  strs : Tbl Str := []
  time : TimeBlk := {}
  taps : Tbl Tap := []
  /-- Cores that have stopped on a fault: cluster × 8 + core (R489). -/
  stopped : List Nat := []
  /-- Clusters released (R493), and clusters whose images footing has loaded and whose threads run. -/
  released : List Nat := []
  /-- The error log in slot order, its latest SEQ and the last SEQ acknowledged (R564–R566). -/
  errs : List ErrEnt := []
  errSeq : Nat := 0
  errAck : Nat := 0
  /-- Entries in the crossing FIFOs, oldest first (R21, R22). -/
  xings : List Xing := []
  /-- Egress queues, by port × 16 + queue: frames in order (R319). -/
  egqs : Tbl (List Frame) := []
  /-- Events posted at most once per second, by kind and unit (`rateKey`). -/
  rates : Tbl Rate := []
  ports : Tbl Port := []
  /-- The calibration table in effect (R142), the image each flash sector holds, and whether CAL_UPDATE runs. -/
  cal : Option CalImg := none
  calSect : List (Option CalImg) := [some {}, none]
  calRuns : Nat := 0
  tables : Tbl LTable := []
  sessions : Tbl Session := []
  policers : Tbl Policer := []
  rss : Tbl Rss := []
  /-- Deep parsers' queues: parser, pipe and frame, oldest first (R162). -/
  deepQ : List (Nat × Nat × Frame) := []
  /-- DRAM-tier lookups waiting, their admission bucket in 1/10 lookup and the tick it was filled to (R174). -/
  dramQ : List DramWait := []
  dramLevel : Nat := 2560
  dramTick : Nat := 0
  courses : Tbl Course := []
  wit : Wit := {}
  scheds : Tbl SchedP := []
  copies : List PCopy := []
  /-- PORT_ISLAND_RESET commands, by island, oldest first; the oldest runs (R113, R115). -/
  islJobs : List (Nat × Held) := []
  /-- Components running, by rising COMPONENT code (R255), and ALLOW_UNTESTED in effect (17). -/
  comps : List Comp := []
  untested : Bool := false
  /-- Calibration commands waiting for those taken before them (R149), with how the flash write of each ends. -/
  calQ : List (Held × Nat) := []
  dram : Dram := {}
  clusters : Tbl GClu := []
  gates : Tbl GGate := []
  /-- Times a space of memory has lost its contents (R266, R552). -/
  spEpoch : Tbl Nat := []
  /-- Debug port, and debug of reserved cores, open for the power cycle (R546). -/
  dbgPort : Bool := false
  dbgCores : Bool := false
  ledger : Ledger := {}
  /-- Main power is good and the bridge has brought the islands up (R519, R554, R585). -/
  power : Bool := false
  foot : Foot := {}
  domJobs : List DomJob := []
  rstJobs : List RstJob := []
  mapJobs : List MapJob := []
  /-- Tick at which a warm reset is due (R562). -/
  resetAt : Option Nat := none
  /-- The thermal trip holds main power off (R570), and the time island has failed (R568). -/
  tripped : Bool := false
  timeDead : Bool := false
  /-- Islands above TEMP_WARN and above TEMP_CRIT (R569). -/
  hotWarn : List Nat := []
  hotCrit : List Nat := []
  /-- SPDM connection over MCTP, as a host port's `spdm` (R385). -/
  spdmMctp : Nat := 0
  /-- Endpoint IDs of the MCTP endpoints: SMBus, PF0's and PF2's VDM (R571). -/
  eids : List Nat := [0, 0, 0]
  pldm : Pldm := {}
  deriving DecidableEq, Repr

/-- The machine: the device, and the commands waiting, first in, first out. -/
structure State where
  dev : Dev := {}
  pending : List Instr := []
  deriving DecidableEq, Repr

/-- Why a command stops the machine. No meaning of this model ends in one. -/
inductive Fault where
  /-- Reserved for an access to an address the spec says does not exist; safe. Raised by no command: the spec
  answers every such access with a status (R11, R44, R383). -/
  | noSuchAddress
  deriving DecidableEq, Repr

/-- Why the model gives a command no meaning. -/
inductive Refusal where
  /-- Not modelled yet: raised only by `exec`'s arms that still reject by name; safe. -/
  | notModelled (mnemonic : String)
  deriving DecidableEq, Repr

/-- The machine right after reset: every register at the value the spec states or the assumption log names,
nothing in memory, no command waiting. -/
def State.reset : State := {}

end Sys2Proof.Machine
end

