-- ==== Sys2Proof/Machine/Tbl.lean ====
section
/-! DEFINITION. Sparse tables and byte memory in one canonical form. -/

namespace Sys2Proof

/-- The value at a key; `d` says what an unlisted key holds. -/
def Tbl.get {α : Type} (d : Nat → α) : Tbl α → Nat → α
  | [], k => d k
  | (k', v) :: t, k => if k = k' then v else Tbl.get d t k

/-- Remove a key. -/
def Tbl.erase {α : Type} (t : Tbl α) (k : Nat) : Tbl α := t.filter fun e => decide (e.1 ≠ k)

/-- Insert or overwrite a key, keeping the keys rising. -/
def Tbl.insert {α : Type} : Tbl α → Nat → α → Tbl α
  | [], k, v => [(k, v)]
  | (k', v') :: t, k, v =>
    if k = k' then (k, v) :: t else if k < k' then (k, v) :: (k', v') :: t
    else (k', v') :: Tbl.insert t k v

/-- Write a key: storing the reset value removes the entry. -/
def Tbl.set {α : Type} [DecidableEq α] (d : Nat → α) (t : Tbl α) (k : Nat) (v : α) : Tbl α :=
  if v = d k then Tbl.erase t k else Tbl.insert t k v

/-- Change the value at a key. -/
def Tbl.upd {α : Type} [DecidableEq α] (d : Nat → α) (t : Tbl α) (k : Nat) (f : α → α) : Tbl α :=
  Tbl.set d t k (f (Tbl.get d t k))

/-- Drop every entry whose key satisfies `p`: those keys return to their reset value. -/
def Tbl.drop {α : Type} (p : Nat → Bool) (t : Tbl α) : Tbl α := t.filter fun e => !p e.1

/-- The entries of `src` at keys satisfying `p`, and those of `dst` elsewhere, keys rising. -/
def Tbl.copyRange {α : Type} (p : Nat → Bool) (src dst : Tbl α) : Tbl α :=
  (src.filter fun e => p e.1).foldr (fun e t => Tbl.insert t e.1 e.2) (Tbl.drop p dst)

/-- Canonical form: keys strictly rising, no entry equal to its reset value. -/
def Tbl.wf {α : Type} [DecidableEq α] (d : Nat → α) : Tbl α → Bool
  | [] => true
  | [(k, v)] => decide (v ≠ d k)
  | (k, v) :: (k', v') :: t => decide (v ≠ d k) && decide (k < k') && Tbl.wf d ((k', v') :: t)

/-- What an unlisted address of memory reads as: 0 (DESIGN CHOICE, log entry 3). -/
def Memory.empty (_ : Nat) : BitVec 8 := 0

/-- The byte at an address. -/
def Memory.read (m : Memory) (a : Nat) : BitVec 8 := Tbl.get Memory.empty m a

/-- Write one byte. -/
def Memory.write (m : Memory) (a : Nat) (b : BitVec 8) : Memory := Tbl.set Memory.empty m a b

/-- Write consecutive bytes from an address up. -/
def Memory.writeBytes (m : Memory) (a : Nat) : Bytes → Memory
  | [] => m
  | b :: bs => Memory.writeBytes (Memory.write m a b) (a + 1) bs

/-- The canonical form of memory: addresses strictly rising, no byte of 0 listed. -/
def Memory.wf (m : Memory) : Bool := Tbl.wf Memory.empty m

end Sys2Proof
end

