-- ==== Sys2Proof/Machine/CalTable.lean ====
section
/-! DEFINITION. The calibration table: its slots, entries, images and their hash (04). -/

namespace Sys2Proof.Machine

/-- Whether a mode is allowed at a port's lowest lane (R100). -/
def modeAllowed (p m : Nat) : Bool :=
  if 16 ≤ p then decide (1 ≤ m) && decide (m ≤ 3)
  else decide (m = 4) || decide (m = 5) || (decide (m = 6) && decide (p % 2 = 0)) || (decide (m = 7) && decide (p % 4 = 0)) ||
    (decide (m = 8) && decide (p % 8 = 0))

/-- Slot of a mode and FEC (R137). -/
def calSlot (m f : Nat) : Nat :=
  if m = 1 then 0 else if m = 2 then f + 1 else if m = 3 then 4 else m - 4

/-- Whether a slot names a mode allowed at a port (R137, R100). -/
def slotAllowed (p s : Nat) : Bool :=
  if 16 ≤ p then decide (p < 48) && decide (s < 5) else decide (s < 5) && modeAllowed p (s + 4)

/-- The CRC of a 32-byte entry set from its first 28 bytes (R138). -/
def calSeal (e : Bytes) : Bytes := let b := slice e 0 28; b ++ leBytes 4 (crc32c b)

/-- The mode of a port's calibration slot (R137). -/
def slotMode (p s : Nat) : Nat := if 16 ≤ p then (if s = 0 then 1 else if s ≤ 3 then 2 else 3) else s + 4

/-- Largest U_CAL written at production, in Q16 ns (R129). -/
def factoryUMax (m : Nat) : Nat :=
  if m = 1 then 126976 else if m = 2 then 131072 else if m = 3 then 135168 else if m = 4 then 73728 else 77824

/-- A number of a factory entry, free up to `max`. -/
def factoryNat (i off max : Nat) : Nat := le ((List.range 4).map fun b => Config.factoryCal i (off + b)) 0 4 % (max + 1)

/-- An entry as Breore writes it at production: VALID, USER clear, D_P 0; its delays are the part's own, inside the ranges of R138,
and U_CAL inside the bounds of R129 (R140). -/
def factoryEntry (i : Nat) : Bytes :=
  if slotAllowed (i / 8) (i % 8) then
    calSeal (leBytes 4 (factoryNat i 0 (2000 * 65536)) ++ leBytes 4 (factoryNat i 4 (2000 * 65536)) ++
      leBytes 4 (ofSigned 32 ((factoryNat i 8 (2000 * 65536) : Int) - 1000 * 65536)) ++
      leBytes 4 (factoryNat i 12 (factoryUMax (slotMode (i / 8) (i % 8)))) ++ zeros 4 ++
      ((List.range 4).map fun b => Config.factoryCal i (20 + b)) ++
      leBytes 1 1 ++ leBytes 1 (i % 8) ++ leBytes 1 (i / 8) ++ [0])
  else zeros 32

/-- An entry of a table image. -/
def calEntry (c : CalImg) (i : Nat) : Bytes :=
  Tbl.get (fun k => if c.factory then factoryEntry k else zeros 32) c.entries i

/-- The 384 entries in index order. -/
def calBody (c : CalImg) : Bytes := (List.range 384).flatMap (calEntry c)

/-- The table header less HASH (R139). -/
def calHead (c : CalImg) : Bytes :=
  leBytes 4 0x4C414342 ++ leBytes 2 1 ++ leBytes 2 384 ++ leBytes 4 c.version ++ leBytes 4 c.users.length ++
  (List.range 16).map Config.serial

/-- HASH of a table image (R139). -/
def calHash (c : CalImg) : Bytes := sha3_256 (calHead c ++ calBody c)

/-- The 12,352-byte image (R139). -/
def calImage (c : CalImg) : Bytes := calHead c ++ calHash c ++ calBody c

end Sys2Proof.Machine
end

