-- ==== Sys2Proof/Machine/Regs.lean ====
section
/-! DEFINITION. The register map: for every register its key, which bits software writes, and its reset value. -/

namespace Sys2Proof

/-- Keys of the device map of PF0's BAR0 are its offsets (R43). Function `f`'s register set (R44, R315, R366)
lies above it. -/
def fnKey (f off : Nat) : Nat := 0x1000000 + f * 0x10000 + off

/-- Keys of the configuration-space registers the spec defines (R380). -/
def cfgKey (f off : Nat) : Nat := 0x8000000 + f * 0x1000 + off

/-- The key of a BAR0 offset of a function (R43, R44, R366, R417): PF0's map holds its function registers at
0x00DF_0000; PF1 and PF3 hold theirs at BAR0 offset 0x6000, below them the NVMe registers and doorbells. -/
def barKey (f off : Nat) : Nat :=
  if f = 0 then
    if 0xDF0000 ≤ off ∧ off < 0xE00000 then fnKey 0 (off - 0xDF0000) else off
  else if f = 1 ∨ f = 3 then
    if off < 0x2000 then fnKey f (0x2000 + off)
    else if 0x6000 ≤ off ∧ off < 0x6018 then fnKey f (off - 0x6000)
    else if 0x7000 ≤ off ∧ off < 0x10000 then fnKey f off
    else 2 ^ 40
  else fnKey f off

/-- One row of the register map: `n1` × `n2` instances at `base + i·s1 + j·s2`, the bits software writes plainly
(RW, SH, RWL), those of them that LOCK makes read-only (RWL), those it clears by writing 1 (W1C), and the reset
value. -/
structure RegRow where
  base : Nat
  n1 : Nat
  s1 : Nat
  n2 : Nat
  s2 : Nat
  w : Nat
  rwl : Nat
  w1c : Nat
  reset : Nat
  deriving DecidableEq, Repr

/-- A single register written plainly in the bits `w`. -/
def reg1 (base w reset : Nat) : RegRow := ⟨base, 1, 0, 1, 0, w, 0, 0, reset⟩

/-- `n` registers at a stride. -/
def regN (base n s w reset : Nat) : RegRow := ⟨base, n, s, 1, 0, w, 0, 0, reset⟩

/-- `n1` × `n2` registers. -/
def regNN (base n1 s1 n2 s2 w reset : Nat) : RegRow := ⟨base, n1, s1, n2, s2, w, 0, 0, reset⟩

/-- `n` status registers whose bits `c` are cleared by writing 1. -/
def regC (base n s c reset : Nat) : RegRow := ⟨base, n, s, 1, 0, 0, 0, c, reset⟩

/-- Whether key `k` is an instance of the row. -/
def RegRow.has (r : RegRow) (k : Nat) : Bool :=
  let o := k - r.base
  let i := if r.s1 = 0 then 0 else o / r.s1
  let o1 := if r.s1 = 0 then o else o % r.s1
  let j := if r.s2 = 0 then 0 else o1 / r.s2
  let o2 := if r.s2 = 0 then o1 else o1 % r.s2
  decide (r.base ≤ k) && decide (i < r.n1) && decide (j < r.n2) && decide (o2 = 0)

/-- BRG: island status (R45). -/
def regRowsBrg01 : List RegRow := [
  regC 0x400 49 4 0xC 0]
/-- TIME (02). -/
def regRowsTime : List RegRow := [
  regN 0x100010 8 0x1000 0x01FFFF03 0x00320800, regN 0x100014 8 0x1000 0xFFFFFFFF 0x00640000,
  regN 0x100018 8 0x1000 0xFFFFFFFF 0x00140000, regN 0x10001C 8 0x1000 0xFFFFFFFF 0x3E8,
  regN 0x100020 8 0x1000 0xFFFFFFFF 0x3E80, regN 0x100024 8 0x1000 0xFFFFFFFF 0x00640000,
  regN 0x100028 8 0x1000 0xFFFFFFFF 0, regN 0x10002C 8 0x1000 0xFFFFFFFF 0x04000A00,
  regN 0x100030 8 0x1000 0xFFFF 0x1000, regN 0x100034 8 0x1000 0x1FF 0,
  regC 0x100040 8 0x1000 0x600 0,
  ⟨0x108010, 1, 0, 1, 0, 0, 0, 0x200, 0⟩,
  regN 0x108020 2 4 0xFFFF0003 0, regN 0x108030 4 4 0xFFFFE01F 0, regN 0x108040 4 4 0xFFFF 0,
  reg1 0x108050 0xFFFF000F 0, regN 0x108054 2 4 0x3FF 0, reg1 0x108060 0x1FF 0, reg1 0x108064 0 0,
  reg1 0x108068 0xFFFFFFFF 0, reg1 0x10806C 0xFFFF 0,
  regN 0x109010 8 16 0xFFFFFFFF 0, regN 0x109014 8 16 0xFFFF 0, regN 0x109018 8 16 0 0]
/-- PORT pages (03). -/
def regRowsPort : List RegRow := [
  regN 0x200010 48 0x1000 0xFFFF3FFF 0x5F2, regN 0x200014 48 0x1000 0xFFFFFFFF 0x00FAC688,
  regN 0x200018 48 0x1000 0xFFFFFFFF 0x00FAC688, regN 0x20001C 48 0x1000 0xFFFFFF00 0xFFFF0000,
  regN 0x200020 48 0x1000 0xFFFFFFFF 0x01000080, regN 0x200024 48 0x1000 0x000383FF 0,
  regNN 0x200030 48 0x1000 8 4 0xFFFF 0, regN 0x200040 48 0x1000 0 0, regN 0x200044 48 0x1000 0 0,
  regN 0x200048 48 0x1000 0 0]
/-- CAL (04): read-only registers stand in RegRead. -/
def regRowsCal : List RegRow := [
  regC 0xF00010 1 0 0x4 0, regC 0xF00100 48 4 0x80 0, regN 0xF00200 48 4 0 0, regN 0xF00300 48 4 0 0,
  regN 0xF00400 48 4 0 0, regN 0xF00500 48 4 0 0]
/-- PARSE and CLASS (05). -/
def regRowsClass : List RegRow := [
  regN 0x300100 48 4 0xFFFF0380 0, reg1 0x301010 0x000101FF 0x100, regN 0x301800 512 4 0xFFFFFFFF 0,
  regN 0x400100 16 64 0xF0FF0000 0, regN 0x400104 16 64 0xFFFFFFFF 0xFFFFFFFF,
  regNN 0x400108 16 64 12 4 0xFFFFFFFF 0xFF,
  regN 0x401100 64 16 0xFFE0FFFF 0, regN 0x401104 64 16 0x000FFFFF 0,
  regN 0x402100 8 16 0xC000001F 0xA, regN 0x402104 8 16 0 0, regN 0x402108 8 16 0 0, regN 0x40210C 8 16 0 0,
  reg1 0x402010 0x0007FFFF 0, reg1 0x402014 0 0]
/-- COURSE (06). -/
def regRowsCourse : List RegRow := [
  regN 0x500010 4 0x1000 0xF0070000 0, regN 0x500014 4 0x1000 0x000FFFFF 0x3E8, regN 0x500018 4 0x1000 0xFFFFFFFF 0,
  regN 0x50001C 4 0x1000 0xFFFF 0, regN 0x500020 4 0x1000 0xFFFFFFFF 0xFFFFFFFF,
  regN 0x500024 4 0x1000 0xFFFFFFFF 0, regN 0x500028 4 0x1000 0xFFFFFFFF 0, regN 0x50002C 4 0x1000 0xFFFFFFFF 0,
  regN 0x500030 4 0x1000 0xFFFF 0, regN 0x500040 4 0x1000 0 0, regN 0x500044 4 0x1000 0 0xC8,
  regN 0x500048 4 0x1000 0 0xC8, regN 0x500050 4 0x1000 0 0, regN 0x500054 4 0x1000 0 0, regN 0x500058 4 0x1000 0 0]
/-- WIT (07). W0 and W1 take sources after reset; the bits stand for WIT_STAT's fields the device sets. -/
def regRowsWit : List RegRow := [
  reg1 0x600010 0xF8FF0000 0x00080000, reg1 0x600014 0x1FFFF 0x3E8, reg1 0x600018 0x3FFF 0x3E8,
  reg1 0x60001C 0x1FFFF 0xFA0, reg1 0x600040 0 0, reg1 0x600060 0 0, reg1 0x600064 0 0, regN 0x6000A0 4 4 0 0]
/-- Function registers and ring registers of every function (11 function registers, R315), and the MSI-X tables
(R370: 16-byte entries, the fourth word's bit 0 masks, set at reset: PRESUMED, log entry 12). -/
def regRowsFn : List RegRow := [
  regC (fnKey 0 0x014) 1024 0x10000 0xFFFFFFFF 0,
  regN (fnKey 0 0x100) 1024 0x10000 0xFFFFFFFF 0, regN (fnKey 0 0x104) 1024 0x10000 0xFFFFFFFF 0,
  regN (fnKey 0 0x108) 1024 0x10000 0xFFFFFFFF 0, regN (fnKey 0 0x10C) 1024 0x10000 0xFFFFFFFF 0,
  regN (fnKey 0 0x110) 1024 0x10000 0xFFFFFFFF 0, regN (fnKey 0 0x114) 1024 0x10000 0xFFFFFFFF 0,
  regC (fnKey 0 0x11C) 1024 0x10000 3 0,
  regN (fnKey 0 0x120) 1024 0x10000 0xFFFFFFFF 0, regN (fnKey 0 0x124) 1024 0x10000 0xFFFFFFFF 0,
  regN (fnKey 0 0x128) 1024 0x10000 0xFFFFFFFF 0, regN (fnKey 0 0x12C) 1024 0x10000 0xFFFFFFFF 0,
  regC (fnKey 0 0x134) 1024 0x10000 3 0,
  regNN (fnKey 0 0x8000) 1024 0x10000 2048 16 0xFFFFFFFF 0,
  regNN (fnKey 0 0x8004) 1024 0x10000 2048 16 0xFFFFFFFF 0,
  regNN (fnKey 0 0x8008) 1024 0x10000 2048 16 0xFFFFFFFF 0,
  regNN (fnKey 0 0x800C) 1024 0x10000 2048 16 1 1]

/-- QMGR (R316), HOST (R386), the freeze capability of PF0 and PF2 (R380), and the base address registers (R366; places of PCI Express). -/
def regRowsHost : List RegRow := [
  reg1 0x900010 0xFFFFF 0x400, reg1 0x900014 0 0x100000,
  regN 0x901000 1024 4 0xFF 1,
  reg1 0xD00018 0x3F 0, regC 0xD00020 1 0 0x80000000 0,
  regNN 0xD01100 4 0x1000 8 16 0x3FFFF01F 0x0C, regNN 0xD01104 4 0x1000 8 16 0xC7000000 0,
  regNN 0xD01108 4 0x1000 8 16 0x01FFF000 0,
  regN (cfgKey 0 0x2D8) 2 0x2000 3 0, regC (cfgKey 0 0x2DC) 2 0x2000 0x2000000F 0,
  regN (cfgKey 0 0x2F8) 2 0x2000 0xFFFF 0x100,
  reg1 (cfgKey 0 0x10) 0xFF000000 4, regN (cfgKey 1 0x10) 3 0x1000 0xFFFF0000 4, regN (cfgKey 0 0x14) 4 0x1000 0xFFFFFFFF 0,
  regN (cfgKey 0 0x18) 2 0x2000 0xF8000000 0xC, regN (cfgKey 0 0x1C) 2 0x2000 0xFFFFFFFF 0,
  regN (cfgKey 0 0x20) 4 0x1000 0xC0000000 0xC, regN (cfgKey 0 0x24) 4 0x1000 0xFFFFFFFF 0, regN (cfgKey 0 0x3C) 1024 0x1000 0xFF 0,
  regN (cfgKey 0 0x174) 2 0x2000 0xFFFF0000 4, regN (cfgKey 0 0x178) 2 0x2000 0xFFFFFFFF 0,
  regN (cfgKey 0 0x17C) 2 0x2000 0xFFF00000 0xC, regN (cfgKey 0 0x180) 2 0x2000 0xFFFFFFFF 0, regN (cfgKey 0 0x194) 4 0x1000 0x004C0000 0]
/-- SCHED and buffer admission (09). -/
def regRowsSched : List RegRow := [
  regN 0x700010 48 0x4000 0xC000FF00 0x1400, regN 0x700014 48 0x4000 0xFFFFF 0,
  regN 0x700018 48 0x4000 0x3FFFFFFF 0xF4240, regN 0x70001C 48 0x4000 0x3FFFFFFF 0,
  regN 0x700020 48 0x4000 0xFFFF01FF 0xFFFF0001, regN 0x700024 48 0x4000 0xFFFF 0,
  regN 0x700028 48 0x4000 0xFFFFFFFF 0, regN 0x70002C 48 0x4000 0xFFFFFFFF 0, regN 0x700030 48 0x4000 0xFFFF 0,
  regN 0x700034 48 0x4000 0x1FFFFF 0, regN 0x700038 48 0x4000 0xFFFFFF 0,
  regN 0x700044 48 0x4000 0 0, regNN 0x700048 48 0x4000 4 4 0 0,
  regNN 0x700100 48 0x4000 16 16 0x9FFFFFFF 1, regNN 0x700104 48 0x4000 16 16 0xFFFFFF 0,
  regNN 0x700108 48 0x4000 16 16 0x1FFFF 0x2000,
  regNN 0x701000 48 0x4000 256 8 0xFFFF 0, regNN 0x701004 48 0x4000 256 8 0xFFFFFFFF 0,
  regN 0x7C0100 64 8 0x1FFFF 0x12000, regN 0x7C0104 64 8 0x1FFFF 0xC000]
/-- PLUMB (10). -/
def regRowsPlumb : List RegRow := [
  regN 0x800010 64 0x1000 0xC7070000 0, regN 0x800014 64 0x1000 0xFFFFF 0x7D0, regN 0x800018 64 0x1000 0xFFFFFFFF 0,
  regN 0x80001C 64 0x1000 0xFFFF 0, regN 0x800040 64 0x1000 0 0, regN 0x800044 64 0x1000 0 0,
  regN 0x800048 64 0x1000 0 0]
/-- The LEDG group (13), and the NVMe registers of PF1 and PF3 (R417): their keys lie at 0x2000 in the functions' sets. -/
def regRowsLedg : List RegRow := [
  reg1 0xC00010 0x7FFF 0x1404, 
  regN (fnKey 1 0x200C) 2 0x20000 0xFFFFFFFF 0, regN (fnKey 1 0x2014) 2 0x20000 0x00FFFFF1 0, regN (fnKey 1 0x201C) 2 0x20000 0 0,
  regN (fnKey 1 0x2024) 2 0x20000 0x0FFF0FFF 0, regN (fnKey 1 0x2028) 2 0x20000 0xFFFFF000 0, regN (fnKey 1 0x202C) 2 0x20000 0xFFFFFFFF 0,
  regN (fnKey 1 0x2030) 2 0x20000 0xFFFFF000 0, regN (fnKey 1 0x2034) 2 0x20000 0xFFFFFFFF 0]
/-- DRAM (14): the map resets as R451 says. -/
def regRowsDram : List RegRow := [
  reg1 0xB00010 0xFFFFFFFF 0x14180400, reg1 0xB00040 0 0, regN 0xB00200 7 4 0 0,
  regN 0xB01010 8 0x1000 7 0, regN 0xB01040 8 0x1000 0 0, reg1 0xB00100 0xFFFFFFFF 0x1010001,
  reg1 0xB00104 0x003F000F 0x60000, reg1 0xB00108 0xFFFFFFFF 0x2020002, reg1 0xB0010C 0x003F000F 0x70000,
  reg1 0xB00110 0xFFFFFFFF 0x4040004, reg1 0xB00114 0x003F000F 0x80000, reg1 0xB00118 0xFFFFFFFF 0x8080008,
  reg1 0xB0011C 0x003F000F 0x90000, reg1 0xB00120 0xFFFFFFFF 0x10100010, reg1 0xB00124 0x003F000F 0xA0000,
  reg1 0xB00128 0xFFFFFFFF 0x20200020, reg1 0xB0012C 0x003F000F 0xB0000, reg1 0xB00130 0xFFFFFFFF 0x40400040,
  reg1 0xB00134 0x003F000F 0xC0000, reg1 0xB00138 0xFFFFFFFF 0x80800080, reg1 0xB0013C 0x003F000F 0xD0000,
  reg1 0xB00140 0xFFFFFFFF 0x1000100, reg1 0xB00144 0x003F000F 0xE0001]
/-- Givik gates and clusters (15). -/
def regRowsGivik : List RegRow := [
  regNN 0xA00100 64 32 1 0 0x87FFFFFF 0, regN 0xA00104 64 32 0x1FFFC 0, regNN 0xA00108 64 32 4 4 0xFFFFFFFF 0,
  regN 0xA00118 64 32 0xFFFFFFFF 0xFFFFFFFF, regN 0xA00900 64 4 0 0,
  regN 0xA01010 6 0x1000 0xFF 0, regN 0xA01014 6 0x1000 0xFFFF 0xA, regN 0xA01018 6 0x1000 0xFFFFF 0x3E8,
  regNN 0xA01020 6 0x1000 8 4 0xFFFFFFFF 0, regN 0xA01040 6 0x1000 0 0, regNN 0xA01400 6 0x1000 128 4 0 0,
  regNN 0xA01800 6 0x1000 8 0x40 0x07000000 0,
  ⟨0xA01804, 6, 0x1000, 8, 0x40, 0, 0, 0xFF00, 0⟩,
  regNN 0xA01808 6 0x1000 8 0x40 0xFF81FFFC 0, regNN 0xA0180C 6 0x1000 8 0x40 0xFF81FFFC 0,
  regNN 0xA01810 6 0x1000 8 0x40 0xFF81FFFC 0, regNN 0xA01814 6 0x1000 8 0x40 0xFF81FFFC 0,
  regNN 0xA01818 6 0x1000 8 0x40 0x0700003F 0]
/-- BRG: domains, pipe map, errors, temperature (R573). The pipe map resets to the default of R46. -/
def regRowsBrg18 : List RegRow := [
  reg1 0x700 0 0x33221100, reg1 0x704 0 0x55554444, reg1 0x800 0xFFFF0003 0x5F690001,
  reg1 0x810 0 0, reg1 0x820 0 0, regN 0x900 49 4 0 0]

/-- The whole register map. -/
def regMap : List RegRow := regRowsBrg01 ++ regRowsTime ++ regRowsPort ++ regRowsCal ++ regRowsClass ++ regRowsCourse ++ regRowsWit ++ regRowsFn ++ regRowsHost ++ regRowsSched ++ regRowsPlumb ++ regRowsLedg ++ regRowsDram ++ regRowsGivik ++ regRowsBrg18

/-- The row of a key. -/
def regRow (k : Nat) : Option RegRow := regMap.find? fun r => r.has k

/-- The reset value of a register; an undefined offset reads 0 (R44). -/
def regReset (k : Nat) : Word :=
  match regRow k with
  | some r => BitVec.ofNat 32 r.reset
  | none => 0

end Sys2Proof
end

