-- ==== Sys2Proof/Machine/Ops.lean ====
section
/-! DEFINITION. The named operations over registers, memory, islands, functions, events, completions and
interrupts that every command shares. -/

namespace Sys2Proof

/-- OPCODE byte of a command. -/
def Cmd.opcode (c : Cmd) : Nat := u8 c.bytes 0
/-- CID. -/
def Cmd.cid (c : Cmd) : Nat := le c.bytes 2 2
/-- FN field. -/
def Cmd.fnField (c : Cmd) : Nat := le c.bytes 4 2
/-- A command-specific field. -/
def Cmd.f (c : Cmd) (off n : Nat) : Nat := le c.bytes off n

end Sys2Proof

namespace Sys2Proof.Machine

/-! ### Running an effect -/

/-- Memory after the writes a command logged, newest first, applied oldest first. -/
def applyWrites (m : Memory) (wr : List (Nat × Bytes)) : Memory :=
  wr.foldr (fun w m => Memory.writeBytes m w.1 w.2) m

/-- The machine when a command that leaves the device as `d` has ended: its logged writes land in memory; the queue is
untouched (log entry 4). -/
def landed (s : State) (d : Dev) : State :=
  { dev := { d with mem := applyWrites s.dev.mem d.wr, wr := [] }, pending := s.pending }

/-- Run an effect on the device and end the command. -/
def lift (f : Dev → Dev) (s : State) : Host.Outcome State Fault Refusal := .next (landed s (f s.dev))

/-- A fresh free value and the device with its index advanced (log entry 2). -/
def fresh (d : Dev) : Nat × Dev :=
  ((Config.freeWord d.freeIdx).toNat, { d with freeIdx := d.freeIdx + 1 })

/-- Put something out. -/
def emit (o : Out) (d : Dev) : Dev := { d with out := o :: d.out }

/-! ### Byte memories -/

/-- Address of byte `a` of space `sp`: each space holds 2^64 bytes. -/
def spaceAddr (sp a : Nat) : Nat := sp * 2 ^ 64 + a % 2 ^ 64

/-- The memory of the host behind host port `h`. -/
def hostSpace (h : Nat) : Nat := h
/-- DRAM, by the device address of R449. -/
def dramSpace : Nat := 2
/-- The packet buffer's reserve (R382). -/
def pbSpace : Nat := 3
/-- The 4 MiB memory of a Givik cluster (R471). -/
def clusterSpace (c : Nat) : Nat := 16 + c
/-- A drive's namespace contents (outside the device), by byte address. -/
def driveSpace (n : Nat) : Nat := 32 + n
/-- The data memory of core `k` of cluster `c` (R471). -/
def coreSpace (c k : Nat) : Nat := 64 + c * 8 + k
/-- The instruction memory of core `k` of cluster `c` (R471). -/
def instrSpace (c k : Nat) : Nat := 128 + c * 8 + k
/-- The packet window of a thread (R471). -/
def windowSpace (c t : Nat) : Nat := 256 + c * 64 + t

/-- The space that holds what `sp` holds now: one that has lost its contents begins anew, reading 0 (log entry 3). -/
def spc (d : Dev) (sp : Nat) : Nat := sp + 4096 * Tbl.get (fun _ => 0) d.spEpoch sp

/-- A space loses its contents (R266, R552). -/
def loseSpace (sp : Nat) (d : Dev) : Dev := { d with spEpoch := Tbl.upd (fun _ => 0) d.spEpoch sp (· + 1) }

/-- A byte as the running command sees it: its own writes first, newest first. -/
def readLogged (m : Memory) : List (Nat × Bytes) → Nat → Byte
  | [], x => Memory.read m x
  | (a, bs) :: t, x => if a ≤ x ∧ x < a + bs.length then bs.getD (x - a) 0 else readLogged m t x

/-- Read a byte of memory. -/
def rdByte (d : Dev) (x : Nat) : Byte := readLogged d.mem d.wr x

/-- Read `n` bytes of a space. -/
def rd (d : Dev) (sp a n : Nat) : Bytes := (List.range n).map fun i => rdByte d (spaceAddr sp (a + i))

/-- Write bytes of a space. -/
def wrt (sp a : Nat) (bs : Bytes) (d : Dev) : Dev := { d with wr := (spaceAddr sp a, bs) :: d.wr }

/-! ### Registers -/

/-- The value a register holds (for a shadowed field, its shadow, R14). -/
def regR (d : Dev) (k : Nat) : Word := Tbl.get regReset d.regs k

/-- The device sets a register. -/
def regW (k : Nat) (v : Word) (d : Dev) : Dev := { d with regs := Tbl.set regReset d.regs k v }

/-- A field of a register. -/
def fldR (d : Dev) (k hi lo : Nat) : Nat := Word.fld (regR d k) hi lo

/-- The device sets a field of a register. -/
def fldW (k hi lo v : Nat) (d : Dev) : Dev := regW k (Word.put (regR d k) hi lo v) d

/-- A bit of a register. -/
def bitR (d : Dev) (k i : Nat) : Bool := Word.bit (regR d k) i

/-- The device sets a bit of a register. -/
def bitW (k i : Nat) (b : Bool) (d : Dev) : Dev := fldW k i i (b2n b) d

/-- The value in effect of a shadowed register (R38). -/
def effR (d : Dev) (k : Nat) : Word := Tbl.get regReset d.eff k

/-- A field in effect. -/
def effF (d : Dev) (k hi lo : Nat) : Nat := Word.fld (effR d k) hi lo

/-- A bit in effect. -/
def effB (d : Dev) (k i : Nat) : Bool := Word.bit (effR d k) i

/-- A port page register in effect in one direction: between the two gaps of a commit that changes no line field, the
direction that has had its gap uses the captured set (R111). -/
def dirR (d : Dev) (tx : Bool) (p k : Nat) : Word :=
  if (if tx then d.halfTx else d.halfRx).contains p then Tbl.get regReset d.cap k else effR d k

/-- A field and a bit of a port page in effect in one direction. -/
def dirF (d : Dev) (tx : Bool) (p k hi lo : Nat) : Nat := Word.fld (dirR d tx p k) hi lo
def dirB (d : Dev) (tx : Bool) (p k i : Nat) : Bool := Word.bit (dirR d tx p k) i

/-- A PARSE or CLASS register in effect in one unit, an ingress pipe or a deep parser: each takes a commit of the group at `base`
between two frames of its own (R165, R193). -/
def unitR (d : Dev) (base u k : Nat) : Word :=
  if d.took.contains (base, u) then Tbl.get regReset d.cap k else effR d k

/-- A counter (R114, R192). -/
def ctrR (d : Dev) (k : Nat) : Nat := Tbl.get (fun _ => 0) d.ctrs k

/-- Add to a counter of 64 bits, which wraps. -/
def ctrAdd (k n : Nat) (d : Dev) : Dev :=
  { d with ctrs := Tbl.set (fun _ => 0) d.ctrs k ((ctrR d k + n) % 2 ^ 64) }

/-- Count one. -/
def ctrInc (k : Nat) (d : Dev) : Dev := ctrAdd k 1 d

/-- Set a counter. -/
def ctrW (k v : Nat) (d : Dev) : Dev := { d with ctrs := Tbl.set (fun _ => 0) d.ctrs k v }

/-! ### Presence and islands (R8, R20, R595) -/

/-- Which islands a variant lacks (R595). -/
def absentIslands : Variant → List Nat
  | .w => []
  | .m => [21, 22, 44, 45, 46, 47, 48]
  | .l => [3, 4, 7, 8, 11, 12, 14, 17, 18, 20, 22, 31, 32, 33, 38, 39, 40, 41, 43, 46, 47]

/-- Whether an island is present. -/
def islandPresent (v : Variant) (n : Nat) : Bool := decide (n < 49) && !(absentIslands v).contains n

/-- Strings present (R2, R9). -/
def numStrings : Variant → Nat | .l => 4 | _ => 8
/-- Courses present. -/
def numCourses : Variant → Nat | .l => 2 | _ => 4
/-- Clusters present. -/
def numClusters : Variant → Nat | .l => 3 | _ => 6
/-- Deep parsers present. -/
def numDeep : Variant → Nat | .l => 2 | _ => 4
/-- DDR5 channels present. -/
def numChannels : Variant → Nat | .l => 4 | _ => 8
/-- Drive ports present. -/
def numDrives : Variant → Nat | .w => 4 | .m => 0 | .l => 2
/-- Host ports present. -/
def numHosts : Variant → Nat | .l => 1 | _ => 2
/-- VFs of PF0 (BRG_CAP2). -/
def vfsPf0 : Variant → Nat | .l => 254 | _ => 510
/-- VFs of PF2 (BRG_CAP2). -/
def vfsPf2 : Variant → Nat | .l => 0 | _ => 510
/-- Whether the witness engine is present. -/
def hasWitness : Variant → Bool | .m => false | _ => true
/-- Whether the ledger function is present. -/
def hasLedger : Variant → Bool | .m => false | _ => true

/-- Whether a port is present: its lanes exist on the variant (R2). -/
def portPresent (v : Variant) (p : Nat) : Bool :=
  match v with
  | .l => decide (p < 8) || (decide (16 ≤ p) && decide (p < 32))
  | _ => decide (p < 48)

/-- The capability registers (R9). -/
def capWord (v : Variant) (i : Nat) : Word :=
  match v, i with
  | .w, 0 => 0x57101020 | .w, 1 => 0x6448824C | .w, 2 => 0x4007F9FE | .w, 3 => 0xFFFFFFFF | .w, 4 => 0x3FFF
  | .m, 0 => 0x4D101020 | .m, 1 => 0x64488202 | .m, 2 => 0x4007F9FE | .m, 3 => 0xFFFC3FFF | .m, 4 => 0x0FFF
  | .l, 0 => 0x4C100810 | .l, 1 => 0x3224412C | .l, 2 => 0x1003F800 | .l, 3 => 0x1C3CD30F | .l, 4 => 0x14D3
  | _, _ => 0

/-- The port island of a port (R20): trunk quads 1 to 4, access octets 5 to 8. -/
def portIsland (p : Nat) : Nat := if p < 16 then 1 + p / 4 else 5 + (p - 16) / 8

/-- The ports of a port island. -/
def islandPorts (n : Nat) : List Nat :=
  if n < 5 then (List.range 4).map (· + 4 * (n - 1)) else (List.range 8).map (· + 16 + 8 * (n - 5))

/-- Whether an island holds a fret or a time tap (R25). -/
def hasTap (n : Nat) : Bool :=
  (decide (1 ≤ n) && decide (n ≤ 8)) || (decide (15 ≤ n) && decide (n ≤ 25)) || (decide (28 ≤ n) && decide (n ≤ 33))

/-- The domain of an island (R552, R573). -/
def dom (d : Dev) (n : Nat) : Dom := Tbl.get (fun _ => {}) d.doms n

/-- Change the domain of an island. -/
def domU (n : Nat) (f : Dom → Dom) (d : Dev) : Dev := { d with doms := Tbl.upd (fun _ => {}) d.doms n f }

/-- Whether an island is present and ON, and neither in reset nor isolated: its logic works. AON is always; the others
want main power and the bring-up (R519, R554, R585). -/
def islandOn (d : Dev) (n : Nat) : Bool :=
  decide (n = 0) ||
  (d.power && islandPresent d.variant n && decide ((dom d n).st = .on) && decide ((dom d n).target = .on) && !(dom d n).resetting && !(dom d n).failed)

/-- Whether the storage service runs: the ledger island and cluster 0 work, the cluster is not released, and its storage
core has not stopped (R436, R475). -/
def storageUp (d : Dev) : Bool :=
  islandOn d 48 && islandOn d 28 && !(d.released.contains 0) && !(d.stopped.contains 1)

/-- The status of a unit in island `n`: ABSENT, UNIT_OFF or 0 (R11, R12). A unit in reset or isolated answers as
one that is off. -/
def unitStatus (d : Dev) (n : Nat) : Nat :=
  if !(islandPresent d.variant n) && decide (n ≠ 0) then 0x23 else if islandOn d n then 0 else 0x24

/-! ### Functions -/

/-- A function's record. -/
def fn (d : Dev) (f : Nat) : Fn := Tbl.get (fun _ => {}) d.fns f

/-- Change a function's record. -/
def fnU (f : Nat) (g : Fn → Fn) (d : Dev) : Dev := { d with fns := Tbl.upd (fun _ => {}) d.fns f g }

/-- A host port's record. -/
def hp (d : Dev) (h : Nat) : HostPort := Tbl.get (fun _ => {}) d.hports h

/-- Change a host port's record. -/
def hpU (h : Nat) (g : HostPort → HostPort) (d : Dev) : Dev :=
  { d with hports := Tbl.upd (fun _ => {}) d.hports h g }

/-- The host port of a function (R364): PF2, PF3 and PF2's VFs are on port 1. -/
def fnPort (f : Nat) : Nat := if f = 2 ∨ f = 3 ∨ 514 ≤ f then 1 else 0

/-- Whether `f` is a VF. -/
def isVf (f : Nat) : Bool := decide (4 ≤ f)

/-- The parent PF of a VF (R364). -/
def parentPf (f : Nat) : Nat := if f < 4 then f else if f < 514 then 0 else 2

/-- FN_KIND (R312): 0 network PF, 1 ledger PF, 2 VF. -/
def fnKind (f : Nat) : Nat := if f = 0 ∨ f = 2 then 0 else if f = 1 ∨ f = 3 then 1 else 2

/-- Whether function number `f` exists on the variant (R364), enabled or not. -/
def fnExists (v : Variant) (f : Nat) : Bool :=
  if f < 2 then true else if f < 4 then decide (numHosts v = 2)
  else if f < 514 then decide (f ≤ 3 + vfsPf0 v) else decide (f ≤ 513 + vfsPf2 v)

/-- The ordinal k of a VF (R364). -/
def vfIndex (f : Nat) : Nat := if f < 514 then f - 3 else f - 513

/-- Whether a function is present: PFs always, VF k while VF Enable is set with k at most NumVFs (R390). -/
def fnPresent (d : Dev) (f : Nat) : Bool :=
  fnExists d.variant f &&
  (decide (f < 4) ||
    ((fn d (parentPf f)).vfEnable && decide (vfIndex f ≤ (fn d (parentPf f)).numVfs) &&
     decide ((fn d (parentPf f)).numVfs ≤ (if parentPf f = 0 then vfsPf0 d.variant else vfsPf2 d.variant))))

/-- The freeze status word of a host port (R380). -/
def frzStatKey (h : Nat) : Nat := cfgKey (2 * h) 0x2DC

/-- Whether a host port is frozen (R375). -/
def isFrozen (d : Dev) (h : Nat) : Bool := bitR d (frzStatKey h) 31

/-- Whether a host port is draining after a release (R377). -/
def isDraining (d : Dev) (h : Nat) : Bool := bitR d (frzStatKey h) 30

/-- Whether a function may issue DMA now: Bus Master Enable set, in D0, its port neither frozen nor reset, and not
FROZEN for migration (R368, R372, R375, R409). -/
def mayDma (d : Dev) (f : Nat) : Bool :=
  (fn d f).bme && !(fn d f).d3hot && !(fn d f).resetBusy && !(isFrozen d (fnPort f)) && !(fn d f).frozen && !d.fatal && islandOn d (42 + fnPort f)

/-! ### Resource grants (R392) -/

/-- The grant a resource has after a warm or cold reset (R392). -/
def grantReset (v : Variant) (f res : Nat) : Grant :=
  let pf : Bool := decide (f = 0) || (decide (f = 2) && decide (numHosts v = 2))
  if res = 7 ∧ f = 0 then ⟨262144, 0⟩
  else if res = 8 ∧ f = 0 then ⟨65536, 0⟩
  else if !pf then ⟨0, 0⟩
  else if res = 1 ∨ res = 2 then ⟨1024, 0⟩
  else if res = 3 ∨ res = 4 then ⟨2048, 0⟩
  else if res = 5 then ⟨16, 0⟩
  else if res = 6 then ⟨0xFFFFFFFF, 0⟩
  else if res = 9 then ⟨0xFFFFFF, 0⟩
  else if res = 10 then ⟨0xFFFF, 0⟩
  else ⟨0, 0⟩

/-- A function's grant of a resource. -/
def grant (d : Dev) (f res : Nat) : Grant := Tbl.get (grantReset d.variant f) (fn d f).grants res

/-- Set a function's grant. -/
def grantW (f res : Nat) (g : Grant) (d : Dev) : Dev :=
  fnU f (fun x => { x with grants := Tbl.set (grantReset d.variant f) x.grants res g }) d

/-- What new use of a resource is held to while a shrink is in progress (R395): the new value, else the grant. -/
def grantLimit (d : Dev) (f res : Nat) : Nat :=
  let g := (grant d f res).value
  match (fn d f).jobs.head? with
  | some j =>
    match j.since, j.items[j.index]? with
    | some _, some it => if u8 it 0 = res ∧ u8 it 1 = 0 then min g (le it 4 4) else g
    | _, _ => g
  | none => g

/-! ### DMA writes with dirty-page logging (R405, R406) -/

/-- Record that a function's DMA write touched the page holding address `a` (R405, R406). -/
def logPage (f a : Nat) (d : Dev) : Dev :=
  match (fn d f).log with
  | none => d
  | some l =>
    if !l.running then d
    else if l.iovaBase ≤ a ∧ (a - l.iovaBase) / 4096 < l.pages then
      let p := (a - l.iovaBase) / 4096
      let x := l.bitmap + p / 8
      let b := rdByte d (spaceAddr (hostSpace (fnPort f)) x)
      ctrInc (0xD80000 + 0x40 * f + 0x28)
        (wrt (hostSpace (fnPort f)) x [b ||| BitVec.ofNat 8 (2 ^ (p % 8))] d)
    else
      ctrInc (0xD80000 + 0x40 * f + 0x30)
        (fnU f (fun x => { x with log := some { l with outOfRange := true } }) d)

/-- Whether a write at `a` of a function falls outside its running dirty log's pages (R406). -/
def logMisses (d : Dev) (f a : Nat) : Bool :=
  match (fn d f).log with
  | none => false
  | some l => l.running && !(decide (l.iovaBase ≤ a) && decide ((a - l.iovaBase) / 4096 < l.pages))

/-- The distinct pages a write touches, by the address of their first touched byte. -/
def touchedPages (a n : Nat) : List Nat :=
  if n = 0 then [] else
  (List.range ((a + n - 1) / 4096 - a / 4096 + 1)).map fun i => if i = 0 then a else (a / 4096 + i) * 4096

/-- A DMA write of a function into its host's memory; each page it touches is logged (R405). -/
def dmaRaw (f a : Nat) (bs : Bytes) (d : Dev) : Dev :=
  (touchedPages a bs.length).foldl (fun d p => logPage f p d) (wrt (hostSpace (fnPort f)) a bs d)

/-- A DMA read of a function. -/
def dmaRead (d : Dev) (f a n : Nat) : Bytes := rd d (hostSpace (fnPort f)) a n

/-! ### Interrupts (R369–R371) -/

/-- The MSI-X table entry's word `i` of vector `v`. -/
def msixWord (d : Dev) (f v i : Nat) : Word := regR d (fnKey f (0x8000 + 16 * v + 4 * i))

/-- The word of the Pending Bit Array holding vector `v`. -/
def pbaKey (f v : Nat) : Nat := fnKey f (0x7000 + 4 * (v / 32))

/-- Whether INTx is the function's signalling (R369). -/
def usesIntx (d : Dev) (f : Nat) : Bool := !(fn d f).msixEnable && !(fn d f).intxDisable && decide (f < 4)

/-- A function signals vector `v` (R369, R371, R375): by MSI-X, by INTx, or kept. A masked or held vector sets its
Pending Bit (PRESUMED, log entry 12). -/
def signalVec (f v : Nat) (d : Dev) : Dev :=
  if (fn d f).msixEnable then
    if mayDma d f && !(Word.bit (msixWord d f v 3) 0) then
      emit (.msix f v ((msixWord d f v 0).toNat + 2 ^ 32 * (msixWord d f v 1).toNat) (msixWord d f v 2).toNat) d
    else bitW (pbaKey f v) (v % 32) true d
  else if usesIntx d f then
    let k := fnKey f 0x14
    let d' := bitW k (v % 32) true d
    if decide ((regR d k).toNat = 0) && !(isFrozen d (fnPort f)) then
      emit (.intx f true) (fnU f (fun x => { x with intxOn := true }) d')
    else d'
  else if (fn d f).keptSigs.contains v then d
  else fnU f (fun x => { x with keptSigs := x.keptSigs ++ [v] }) d

/-! ### Events (R303, R304) -/

/-- The EQ's size in entries. -/
def eqSize (d : Dev) (f : Nat) : Nat := 2 ^ fldR d (fnKey f 0x130) 4 0

/-- A 64-bit base held in two registers. -/
def reg64 (d : Dev) (k : Nat) : Nat := (regR d k).toNat + 2 ^ 32 * (regR d (k + 4)).toNat

/-- An event that cannot be kept is counted (R304). -/
def eventLost (f : Nat) (d : Dev) : Dev :=
  let d := ctrInc 0x900138 d
  let k := fnKey f 0x138
  fnU f (fun x => { x with lostBefore := true }) (regW k (regR d k + 1) d)

/-- Whether the EQ has a free entry (R279). -/
def eqRoom (d : Dev) (f : Nat) : Bool :=
  decide (((fn d f).eqIdx + 65536 - (fn d f).eqHost) % 65536 + 1 < eqSize d f)

/-- Write an event into the EQ, with LOST_BEFORE and PHASE, then DEV_IDX, and signal if armed (R303, R284). -/
def eqWrite (f : Nat) (e : Bytes) (d : Dev) : Dev :=
  let x := fn d f
  let sz := eqSize d f
  let fl := b2n x.lostBefore + (if x.eqPhase then 128 else 0)
  let ent := patch e 1 (leBytes 1 fl)
  let idx := (x.eqIdx + 1) % 65536
  let d := dmaRaw f (reg64 d (fnKey f 0x120) + 16 * (x.eqIdx % sz)) ent d
  let d := dmaRaw f (reg64 d (fnKey f 0x128) + 4) (leBytes 4 idx) d
  let d := fnU f (fun y => { y with eqIdx := idx, lostBefore := false, eqArmed := false,
                                    eqPhase := if idx % sz = 0 then !y.eqPhase else y.eqPhase }) d
  let d := emit (.event f ent) d
  if x.eqArmed then signalVec f (fldR d (fnKey f 0x130) 26 16) d else d

/-- Post an event to a function's EQ: written, held up to 256, or counted lost (R304, R372, R409). -/
def postEvent (f code about : Nat) (payload : Bytes) (d : Dev) : Dev :=
  let e := leBytes 1 code ++ [0] ++ leBytes 2 about ++ padTo 12 (payload.take 12)
  if !(bitR d (fnKey f 0x134) 31) || (fn d f).frozen then eventLost f d
  else if mayDma d f && eqRoom d f && (fn d f).eqHeld.isEmpty then eqWrite f e d
  else if (fn d f).eqHeld.length < 256 then fnU f (fun x => { x with eqHeld := x.eqHeld ++ [e] }) d
  else eventLost f d

/-- A device-wide event to PF0's EQ (R303: FN 0xFFFF). -/
def postDev (code : Nat) (payload : Bytes) (d : Dev) : Dev := postEvent 0 code 0xFFFF payload d

/-- Write held events while the EQ has room (R304). -/
def flushEvents (f : Nat) (d : Dev) : Dev :=
  (fn d f).eqHeld.foldl (fun d e =>
    if mayDma d f && eqRoom d f && decide ((fn d f).eqHeld.head? = some e) then
      eqWrite f e (fnU f (fun x => { x with eqHeld := x.eqHeld.drop 1 }) d)
    else d) d

/-- A DMA write of a function, with the LOG_OVERFLOW events of writes outside a dirty log (R405, R406). -/
def dma (f a : Nat) (bs : Bytes) (d : Dev) : Dev :=
  let miss := (touchedPages a bs.length).filter fun p => logMisses d f p
  let d := dmaRaw f a bs d
  match miss, (fn d f).log with
  | [], _ => d
  | _ :: _, some l =>
    postEvent l.pf 0xD7 f (leBytes 2 f ++ leBytes 1 0 ++ leBytes 4 (ctrR d (0xD80000 + 0x40 * f + 0x30))) d
  | _ :: _, none => d

/-! ### Admin and table commands (R306–R308) -/

/-- The function a command acts on when only the issuing function may be named (R306). -/
def cmdSelf (c : Cmd) : Option Nat := if c.fnField = 0xFFFF ∨ c.fnField = c.fn then some c.fn else none

/-- The function a command acts on when a PF may also name one of its own VFs (R306, R391). -/
def cmdVf (d : Dev) (c : Cmd) : Option Nat :=
  if c.fnField = 0xFFFF ∨ c.fnField = c.fn then some c.fn
  else if (c.fn = 0 ∨ c.fn = 2) ∧ 4 ≤ c.fnField ∧ parentPf c.fnField = c.fn ∧ fnExists d.variant c.fnField = true
    then some c.fnField
  else none

/-- Whether the common reserved bytes 1 and 6 to 15 are 0, and those of the command-specific area outside the
listed (offset, size) fields (R306). -/
def reservedOk (c : Cmd) (used : List (Nat × Nat)) : Bool :=
  zeroAt c.bytes 1 1 && zeroAt c.bytes 6 10 &&
  (List.range 48).all fun i =>
    (used.any fun u => decide (u.1 ≤ i + 16) && decide (i + 16 < u.1 + u.2)) || decide (u8 c.bytes (i + 16) = 0)

/-- The first status of a list of (condition that fails, status); 0 when none applies (R308). -/
def firstStatus : List (Bool × Nat) → Nat
  | [] => 0
  | (b, st) :: t => if b then st else firstStatus t

/-- BAD_PARAM and the other statuses of R294. -/
def stBadParam : Nat := 0x20
def stBadState : Nat := 0x21
def stNotPermitted : Nat := 0x22
def stAbsent : Nat := 0x23
def stUnitOff : Nat := 0x24
def stNotOwner : Nat := 0x25
def stBadOpcode : Nat := 0x26
def stNotGranted : Nat := 0x27

/-- The queue table's key of QTYPE `qt` (0 TX, 1 RX, 2 CQ, 3 table command), local number `lq`. -/
def qKey (f qt lq : Nat) : Nat := (f * 4 + qt) * 65536 + lq

/-- A queue. -/
def queue (d : Dev) (f qt lq : Nat) : Queue := Tbl.get (fun _ => {}) d.queues (qKey f qt lq)

/-- Change a queue. -/
def queueU (f qt lq : Nat) (g : Queue → Queue) (d : Dev) : Dev :=
  { d with queues := Tbl.upd (fun _ => {}) d.queues (qKey f qt lq) g }

/-- Write an admin completion into the AQ's completion ring and signal (R307). -/
def aqWrite (f : Nat) (e : Bytes) (d : Dev) : Dev :=
  let x := fn d f
  let sz := 2 ^ fldR d (fnKey f 0x118) 4 0
  let ent := patch e 15 (leBytes 1 (b2n x.aqPhase))
  let idx := (x.aqCplIdx + 1) % 65536
  let d := if bitR d (fnKey f 0x11C) 31 then dma f (reg64 d (fnKey f 0x108) + 16 * (x.aqCplIdx % sz)) ent d else d
  let d := fnU f (fun y => { y with aqCplIdx := idx,
                                    aqPhase := if idx % sz = 0 then !y.aqPhase else y.aqPhase }) d
  let d := emit (.adminCpl f ent) d
  if bitR d (fnKey f 0x118) 30 then signalVec f (fldR d (fnKey f 0x130) 26 16) d else d

/-- Complete a command with a status and a dword (R307). A completion that may not be written now waits (R372). -/
def complete (c : Cmd) (status dw : Nat) (d : Dev) : Dev :=
  let e := leBytes 2 c.cid ++ leBytes 1 status ++ leBytes 1 c.opcode ++ leBytes 4 dw ++ leBytes 2 c.idx ++
    leBytes 1 (fn d c.fn).gen ++ zeros 5
  match c.tcq with
  | none =>
    if mayDma d c.fn && (fn d c.fn).aqHeld.isEmpty then aqWrite c.fn e d
    else fnU c.fn (fun x => { x with aqHeld := x.aqHeld ++ [e] }) d
  | some lq =>
    let q := queue d c.fn 3 lq
    let sz := 2 ^ q.sizeLog2
    let ent := patch e 15 (leBytes 1 (b2n q.phase))
    let idx := (q.cplIdx + 1) % 65536
    let d := dma c.fn (q.cplBase + 16 * (q.cplIdx % sz)) ent d
    let d := queueU c.fn 3 lq (fun y => { y with cplIdx := idx,
                                                 phase := if idx % sz = 0 then !y.phase else y.phase }) d
    signalVec c.fn q.vector (emit (.tcqCpl c.fn lq ent) d)

/-- Complete with a status and no dword. -/
def completeSt (c : Cmd) (status : Nat) (d : Dev) : Dev := complete c status 0 d

/-- Keep a command to be completed later, with the generation it carries (R403). -/
def hold (d : Dev) (c : Cmd) : Held := ⟨c, (fn d c.fn).gen⟩

/-- Note that a command is outstanding on its AQ. -/
def noteHeld (c : Cmd) (d : Dev) : Dev := fnU c.fn (fun x => { x with aqOut := x.aqOut + 1 }) d

/-- Complete a held command, unless the function's generation has advanced (R403). -/
def completeHeld (h : Held) (status dw : Nat) (d : Dev) : Dev :=
  if (fn d h.cmd.fn).gen = h.gen then
    let d := fnU h.cmd.fn (fun x => { x with aqOut := x.aqOut - 1 }) d
    let d := complete h.cmd status dw d
    if (fn d h.cmd.fn).aqClosing && decide ((fn d h.cmd.fn).aqOut = 0) then
      bitW (fnKey h.cmd.fn 0x11C) 31 false (fnU h.cmd.fn (fun x => { x with aqClosing := false }) d)
    else d
  else ctrInc 0x900130 d

/-- Write what a command returns into its buffer, then complete it with SUCCESS. -/
def reply (c : Cmd) (buf : Nat) (bs : Bytes) (d : Dev) : Dev := completeSt c 0 (dma c.fn buf bs d)

/-- Complete with the first failing status, or run the effect. -/
def checked (c : Cmd) (st : Nat) (f : Dev → Dev) (d : Dev) : Dev := if st = 0 then f d else completeSt c st d

end Sys2Proof.Machine
end

