-- ==== Sys2Proof/Machine/Time.lean ====
section
/-! DEFINITION. Strings: how they advance, their states, offsets, uncertainty, references and outputs (02), and the
time bus (01). -/

namespace Sys2Proof.Machine

/-! ### Access -/

/-- A string. -/
def str (d : Dev) (s : Nat) : Str := Tbl.get (fun _ => {}) d.strs s

/-- Change a string. -/
def strU (s : Nat) (f : Str → Str) (d : Dev) : Dev := { d with strs := Tbl.upd (fun _ => {}) d.strs s f }

/-- Change the time block. -/
def timeU (f : TimeBlk → TimeBlk) (d : Dev) : Dev := { d with time := f d.time }

/-- The time clock's tick count. -/
def now (d : Dev) : Nat := d.time.tick

/-- Key of a register of string group `s` (R98). -/
def tKey (s off : Nat) : Nat := 0x100000 + s * 0x1000 + off

/-- The fret or time tap of an island (R25). -/
def tap (d : Dev) (n : Nat) : Tap := Tbl.get (fun _ => {}) d.taps n

/-- Set an island's fret or time tap. -/
def tapW (n : Nat) (x : Tap) (d : Dev) : Dev := { d with taps := Tbl.set (fun _ => {}) d.taps n x }

/-- Island `n`'s own replica of string `s` (R26, R31). -/
def rep (d : Dev) (n s : Nat) : Rep := (tap d n).reps.getD s {}

/-- A tap whose replica of string `s` changes; one that has not loaded holds none. -/
def Tap.repU (s : Nat) (f : Rep → Rep) (x : Tap) : Tap := { x with reps := updAt f x.reps s }

/-- Every fret and time tap changes its replica of string `s` at the same tick (R27). -/
def repsU (s : Nat) (f : Rep → Rep) (d : Dev) : Dev :=
  (List.range 49).foldl (fun d n => if hasTap n then tapW n ((tap d n).repU s f) d else d) d

/-- Whether a string is present (R2). -/
def strPresent (d : Dev) (s : Nat) : Bool := decide (s < numStrings d.variant)

/-- One second in units of 2^-48 ns. -/
def secUnit : Nat := 1000000000 * 2 ^ 48

/-- The 96-bit time of R17 of a count of 2^-48 ns. -/
def toR17 (t : Nat) : Nat :=
  (t / secUnit) % 2 ^ 48 * 2 ^ 48 + (t / 2 ^ 48) % 1000000000 * 2 ^ 16 + (t / 2 ^ 32) % 2 ^ 16

/-- The count of 2^-48 ns of a 96-bit time. -/
def ofR17 (v : Nat) : Nat :=
  (v / 2 ^ 48 % 2 ^ 48) * secUnit + (v / 2 ^ 16 % 2 ^ 32) * 2 ^ 48 + (v % 2 ^ 16) * 2 ^ 32

/-- A time in whole Q16 ns. -/
def toQ (t : Nat) : Nat := t / 2 ^ 32

/-- The R17 time of a count of Q16 ns. -/
def qR17 (q : Nat) : Nat := toR17 (q * 2 ^ 32)

/-- A quotient whose rounding the spec leaves open: one of its two neighbours, freely (log entry 2). -/
def roundFree (num : Int) (den : Nat) (d : Dev) : Int × Dev :=
  if den = 0 then let (x, d) := fresh d; ((x : Int), d)
  else if num % (den : Int) = 0 then (num / (den : Int), d)
  else let (x, d) := fresh d; (num / (den : Int) + (if x % 2 = 1 then 1 else 0), d)

/-- STATE code of TIME_STAT. -/
def stCode : StrSt → Nat
  | .drone => 0 | .acquire => 1 | .locked => 2 | .holdover => 3 | .disputed => 4

/-! ### Configuration in effect -/

def lockCountCfg (d : Dev) (s : Nat) : Nat := effF d (tKey s 0x10) 15 8
def slewLimit (d : Dev) (s : Nat) : Nat := effF d (tKey s 0x10) 24 16
def freqSynce (d : Dev) (s : Nat) : Bool := effB d (tKey s 0x10) 1
def stepMin (d : Dev) (s : Nat) : Nat := (effR d (tKey s 0x14)).toNat
def lockThr (d : Dev) (s : Nat) : Nat := (effR d (tKey s 0x18)).toNat
/-- JUMP_LIMIT in Q16 ns. -/
def jumpLimit (d : Dev) (s : Nat) : Nat := (effR d (tKey s 0x1C)).toNat * 65536
/-- DISPUTE_TIMEOUT in ms. -/
def disputeTo (d : Dev) (s : Nat) : Nat := (effR d (tKey s 0x20)).toNat
def compliance (d : Dev) (s : Nat) : Nat := (effR d (tKey s 0x24)).toNat
def asymBound (d : Dev) (s : Nat) : Nat := (effR d (tKey s 0x28)).toNat
def holdWin (d : Dev) (s : Nat) : Nat := effF d (tKey s 0x2C) 31 20
def holdDrift (d : Dev) (s : Nat) : Nat := effF d (tKey s 0x2C) 19 0
def gainKi (d : Dev) (s : Nat) : Nat := effF d (tKey s 0x30) 15 0
def ptpEn (d : Dev) (s : Nat) : Bool := effB d (tKey s 0x34) 8

/-- Whether the time PLL holds (R53). -/
def tpllHold (d : Dev) : Bool := bitR d 0x108010 10

/-- Whether cluster 0 runs the time service: ON, not released, its core 0 not stopped (R596, R62, R475). -/
def timeServiceUp (d : Dev) : Bool := islandOn d 28 && !d.released.contains 0 && !d.stopped.contains 0

/-! ### Uncertainty (R68–R71) -/

/-- ±500 ppm in 2^-48. -/
def freqClamp : Int := 0x20C49BA5E3

/-- Clamp of R55. -/
def clampFreq (x : Int) : Int := if x < -freqClamp then -freqClamp else if freqClamp < x then freqClamp else x

/-- u_servo: the largest of the window plus the latest u_meas; none while no offset stands (R68). -/
def uServo (x : Str) : Option Nat :=
  match x.window with
  | [] => none
  | w => some (w.foldl max 0 + x.uMeas)

/-- Saturation of u_string. -/
def uSat (n : Nat) : Nat := if 0xFFFFFFFE < n then 0xFFFFFFFE else n

/-- u_string by state (R68–R70), the growth term rounded freely. -/
def uNow (d : Dev) (s : Nat) : Nat × Dev :=
  let x := str d s
  match x.st with
  | .drone => (0xFFFFFFFF, d)
  | .acquire | .locked =>
    match uServo x with
    | none => (0xFFFFFFFF, d)
    | some v => (uSat (v + asymBound d s), d)
  | .holdover | .disputed =>
    match x.uFrozen with
    | none => (0xFFFFFFFF, d)
    | some v =>
      let (g, d) := roundFree (x.growth : Int) 1000000000 d
      (uSat (v + asymBound d s + g.toNat), d)

/-- Whether a value of u_string is out of bound (R71). -/
def outOfBound (d : Dev) (s u : Nat) : Bool :=
  decide (u = 0xFFFFFFFF) || (decide (compliance d s ≠ 0) && decide (compliance d s < u))

/-- Causes of an out-of-bound interval (R254). -/
def oobCause (d : Dev) (s u : Nat) : Nat :=
  if u = 0xFFFFFFFF then 2 else b2n (decide (compliance d s ≠ 0) && decide (compliance d s < u))

/-- Recompute u_string and OUT_OF_BOUND; each change of the latter posts TIME_BOUND and opens or closes an interval
(R71, R254). -/
def uUpdate (s : Nat) (d : Dev) : Dev :=
  let (u, d) := uNow d s
  let x := str d s
  let o := outOfBound d s u
  let q := toQ x.t
  let x' := { x with u := u, pMaxU := if x.pMaxU < u then u else x.pMaxU }
  if o = x.oob then
    strU s (fun _ => if o then
      { x' with spans := match x'.spans with
                         | h :: t => { h with cause := h.cause ||| oobCause d s u } :: t
                         | [] => [] } else x') d
  else if o then
    postDev 0x24 (leBytes 1 s ++ leBytes 1 1)
      (strU s (fun _ => { x' with oob := true, pOobSince := now d, spans := ⟨q, oobCause d s u, none⟩ :: x'.spans }) d)
  else
    postDev 0x24 (leBytes 1 s ++ leBytes 1 0)
      (strU s (fun _ => { x' with oob := false, pOobTicks := x.pOobTicks + (now d - x.pOobSince),
                                  spans := match x'.spans with
                                           | h :: t => { h with stop := some q } :: t
                                           | [] => [] }) d)

/-! ### The effective increment and changes carried on the bus (R27, R55) -/

/-- The increment a string's state calls for, in 2^-48 ns (R54, R55). -/
def wantIncr (x : Str) : Nat :=
  match x.st with
  | .drone => x.drone * 65536
  | _ => ((2 : Int) ^ 48 + clampFreq (x.freq + x.slew)).toNat

/-- The first code-cycle start at least two code cycles ahead (R27). -/
def applyTick (d : Dev) : Nat := roundUp (now d + 2048) 1024

/-- Schedule a change. -/
def schedule (s : Nat) (e : Sched) (d : Dev) : Dev := strU s (fun x => { x with sched := x.sched ++ [e] }) d

/-- The last increment carried for a string: the newest scheduled one, or the one in effect. -/
def lastIncr (x : Str) : Nat :=
  x.sched.foldl (fun a e => match e.what with | .incr v => v | _ => a) x.incr

/-- Set FREQ, noting it in the history while LOCKED (R57, R58). -/
def setFreq (s : Nat) (f : Int) (d : Dev) : Dev :=
  strU s (fun x => { x with freq := clampFreq f,
                            hist := if x.st = .locked then (now d, clampFreq f) :: x.hist else x.hist }) d

/-- A string with FREQ_SYNCE in ACQUIRE or LOCKED takes its FREQ from a locked EEC (R81); in HOLDOVER and DISPUTED FREQ is the
model's mean (R58, R64). -/
def eecFollow (s : Nat) (d : Dev) : Dev :=
  let x := str d s
  if freqSynce d s && effB d 0x108060 0 && decide (fldR d 0x108064 1 0 = 1) && decide (x.st = .acquire ∨ x.st = .locked) &&
      decide (x.freq ≠ clampFreq d.time.eecFreq) then setFreq s d.time.eecFreq d
  else d

/-- Carry a changed increment, if it changed. -/
def carryIncr (s : Nat) (d : Dev) : Dev :=
  let d := eecFollow s d
  let x := str d s
  if wantIncr x = lastIncr x then d else schedule s ⟨applyTick d, .incr (wantIncr x), none⟩ d

/-- Whether a step or LOAD is scheduled and not yet applied (R72). -/
def stepPending (x : Str) : Bool :=
  x.sched.any fun e => match e.what with | .step _ => true | .load _ _ => true | _ => false

/-! ### State changes (R61, R65) -/

/-- Mean of FREQ over the window spent in LOCKED (R58); rounding free. -/
def lockedMean (d : Dev) (s : Nat) : Int × Dev :=
  let x := str d s
  let from_ := now d - holdWin d s * 1000000000
  let (sum, _) := x.hist.foldl (fun (acc : Int × Nat) e =>
    let lo := max e.1 from_
    (acc.1 + (if lo < acc.2 then e.2 * ((acc.2 - lo : Nat) : Int) else 0), min acc.2 (max lo e.1))) ((0 : Int), now d)
  let start := match x.hist.getLast? with | some e => max e.1 from_ | none => now d
  if now d = start then (x.freq, d) else roundFree sum (now d - start) d

/-- Move a string to a state, posting TIME_STATE and keeping the period's account (R65, R253). -/
def setStrSt (s : Nat) (st : StrSt) (d : Dev) : Dev :=
  let x := str d s
  if x.st = st then d else
  let (m, d) := if x.st = .locked then (let (m, d) := lockedMean d s; (some m, d)) else (x.histMean, d)
  let d := strU s (fun y => { y with
    st := st, histMean := m,
    hist := if st = .locked then [(now d, y.freq)] else if x.st = .locked then [] else y.hist,
    stTicks := updAt (· + (now d - y.since)) y.stTicks (stCode x.st),
    lastDrone := if x.st = .drone then now d else y.lastDrone,
    since := now d, visited := if y.visited.contains (stCode st) then y.visited else y.visited ++ [stCode st] }) d
  postDev 0x20 (leBytes 1 s ++ leBytes 1 (stCode x.st) ++ leBytes 1 (stCode st)) d

/-- Stop any slew (R58). -/
def stopSlew (s : Nat) (d : Dev) : Dev := strU s (fun x => { x with slew := 0 }) d

/-- A string's effective increment changes, on every fret and time tap at once (R27). -/
def setIncr (s v : Nat) (d : Dev) : Dev := repsU s (fun r => { r with incr := v }) (strU s (fun x => { x with incr := v }) d)

/-- A slew ends at the tick stated for it (R27, R56): the increment changes there, unless another change is on its way. -/
def endSlew (s : Nat) (d : Dev) : Dev :=
  let x := str d s
  if x.slew = 0 then d else
  let busy := x.sched.any fun e => match e.what with | .incr _ => true | _ => false
  let d := strU s (fun y => { y with slew := 0 }) d
  carryIncr s (if busy then d else setIncr s (wantIncr (str d s)) d)

/-- Entry to HOLDOVER or DISPUTED from ACQUIRE or LOCKED: FREQ to the model's mean, no slew, the uncertainty
frozen (R58, R69). -/
def freeze (s : Nat) (st : StrSt) (d : Dev) : Dev :=
  let us := uServo (str d s)
  let d := setStrSt s st d
  let d := strU s (fun x => { x with freq := x.histMean.getD x.freq, uFrozen := us, growth := 0 }) d
  carryIncr s (uUpdate s (stopSlew s d))

/-! ### Offsets (R57, R61, R63) -/

/-- The slew engine takes a correction of `delta` Q16 ns (R56). SLEW_LIMIT in units of 2^-48 and the slew's length in ticks are
quotients whose rounding is open (log entry 2). -/
def startSlew (s : Nat) (delta : Int) (d : Dev) : Dev :=
  let lim := slewLimit d s
  if delta = 0 ∨ lim = 0 then stopSlew s d
  else
    let (mag, d) := roundFree ((lim * 2 ^ 48 : Nat) : Int) 1000000 d
    let (dur, d) := roundFree ((delta.natAbs * 1000000 : Nat) : Int) (lim * 65536) d
    strU s (fun x => { x with slew := if delta < 0 then -mag else mag, slewEnd := applyTick d + dur.toNat }) d

/-- Correct an offset by rate: the slew, and in device ownership the frequency update (R57, R74, R81). A measurement not later
than the one before gives no Δt to divide by, and the update is skipped (DESIGN CHOICE, log entry 64). -/
def rateCorrect (s : Nat) (o : Int) (meas : Nat) (d : Dev) : Dev :=
  let x := str d s
  let dt := meas - x.lastMeas
  let d := startSlew s (-o) d
  let d :=
    if x.owner = 1 ∨ freqSynce d s = true ∨ x.dtValid = false ∨ 16000000000 < dt ∨ dt = 0 then d
    else
      let (c, d) := roundFree (o * ((gainKi d s * 65536 : Nat) : Int)) dt d
      setFreq s (x.freq - c) d
  carryIncr s d

/-- Count an offset in the window of u_servo (R68). -/
def noteWindow (s : Nat) (o : Int) (um : Nat) (d : Dev) : Dev :=
  strU s (fun x => { x with window := (o.natAbs :: x.window).take (lockCountCfg d s), uMeas := um }) d

/-- A refusal (R63), entering or staying in DISPUTED. -/
def refuse (s : Nat) (o : Int) (d : Dev) : Dev :=
  let x := str d s
  let d := bitW (tKey s 0x40) 9 true d
  let d := strU s (fun y => { y with refusals := (y.refusals + 1) % 65536, pRefusals := satNat 16 (y.pRefusals + 1),
                                     ofs := o, returnCount := 0 }) d
  if x.st = .disputed then d
  else
    let d := if x.st = .holdover then carryIncr s (stopSlew s (setStrSt s .disputed d)) else freeze s .disputed d
    let d := postDev 0x21 (leBytes 1 s ++ leBytes 8 (ofSigned 64 o)) d
    let d := strU s (fun y => { y with dispFrom := some (now d) }) d
    if disputeTo d s = 0 then
      postDev 0x28 (leBytes 1 s) (strU s (fun y => { y with latched := true }) d)
    else d

/-- Whether a step of `delta` Q16 ns would leave the seconds field's range. -/
def stepOutOfRange (x : Str) (delta : Int) : Bool :=
  let t : Int := (x.t : Int) + delta * 2 ^ 32
  decide (t < 0) || decide ((2 : Int) ^ 48 * (secUnit : Int) ≤ t)

/-- Take the single step of −o (R59, R61). -/
def takeStep (s : Nat) (o : Int) (d : Dev) : Dev :=
  let at_ := applyTick d
  let d := schedule s ⟨at_, .step (-o), none⟩ d
  let d := bitW (tKey s 0x40) 10 true d
  let d := strU s (fun x => { x with stepArmed := false, lockCount := 0, window := [], dtValid := false,
                                     steps := (x.steps + 1) % 256, pSteps := satNat 16 (x.pSteps + 1),
                                     pStepSum := x.pStepSum - o, lastStep := some at_,
                                     stepReading := ((x.t : Int) - o * 2 ^ 32).toNat + x.incr * (at_ - now d) }) d
  postDev 0x22 (leBytes 1 s ++ leBytes 8 (ofSigned 64 (-o))) (uUpdate s d)

/-- An accepted offset in ACQUIRE (R61). Result codes of R92. -/
def offsetAcquire (s : Nat) (o : Int) (um meas : Nat) (d : Dev) : Nat × Dev :=
  let x := str d s
  if x.stepArmed then
    if stepMin d s ≤ o.natAbs then
      if stepOutOfRange x (-o) then (0, postDev 0x21 (leBytes 1 s ++ leBytes 8 (ofSigned 64 o)) d)
      else (1, takeStep s o d)
    else
      (2, uUpdate s (rateCorrect s o meas (noteWindow s o um (strU s (fun y => { y with stepArmed := false }) d))))
  else if o.natAbs ≤ jumpLimit d s then
    let d := rateCorrect s o meas (noteWindow s o um d)
    let n := if o.natAbs < lockThr d s then x.lockCount + 1 else 0
    let d := strU s (fun y => { y with lockCount := n }) d
    let d := if lockCountCfg d s ≤ n then setStrSt s .locked d else d
    (2, uUpdate s d)
  else (0, refuse s o d)

/-- Whether the dispute timer has reached DISPUTE_TIMEOUT in an earlier code cycle than this one (R61): in one code cycle an
offset comes before the timer. -/
def disputeOver (d : Dev) (s : Nat) : Bool :=
  match (str d s).dispFrom with
  | some t0 => decide (disputeTo d s ≠ 0) && decide ((t0 + disputeTo d s * 1000000) / 1024 < now d / 1024)
  | none => false

/-- An accepted offset in the state rules of R61. In DISPUTED an offset inside JUMP_LIMIT that comes after the dispute timer has
run out returns nothing; its RESULT is 3, and an offset returns a string from HOLDOVER whether or not TPLL_HOLD is set
(DESIGN CHOICE, log entry 64). -/
def acceptIn (s : Nat) (o : Int) (um meas : Nat) (d : Dev) : Nat × Dev :=
  let x := str d s
  let d := strU s (fun y => { y with ofs := o, srcOk := true,
                                     pMaxOfs := if y.pMaxOfs.natAbs < o.natAbs then o else y.pMaxOfs }) d
  match x.st with
  | .drone => (4, d)
  | .acquire => offsetAcquire s o um meas d
  | .locked =>
    if o.natAbs ≤ jumpLimit d s then (2, uUpdate s (rateCorrect s o meas (noteWindow s o um d)))
    else (0, refuse s o d)
  | .holdover =>
    if x.stepArmed then
      let d := strU s (fun y => { y with window := [], dtValid := false }) (setStrSt s .acquire d)
      offsetAcquire s o um meas (uUpdate s (carryIncr s d))
    else if o.natAbs ≤ jumpLimit d s then
      let d := strU s (fun y => { y with window := [], dtValid := false, lockCount := 0 }) (setStrSt s .acquire d)
      (2, uUpdate s (rateCorrect s o meas (noteWindow s o um d)))
    else (0, refuse s o d)
  | .disputed =>
    if o.natAbs ≤ jumpLimit d s ∧ x.latched = false ∧ disputeOver d s = false then
      let n := x.returnCount + 1
      let d := strU s (fun y => { y with returnCount := n }) (noteWindow s o um d)
      if lockCountCfg d s ≤ n then
        let d := strU s (fun y => { y with returnCount := 0, dispFrom := none, lockCount := n })
          (setStrSt s .locked d)
        (2, uUpdate s (rateCorrect s o meas d))
      else (3, d)
    else if o.natAbs ≤ jumpLimit d s then (3, d)
    else (0, refuse s o d)

/-- An accepted offset enters the state rules (R61); its measurement is the one the next Δt counts from (R57). -/
def acceptOffset (s : Nat) (o : Int) (um meas : Nat) (d : Dev) : Nat × Dev :=
  let (r, d) := acceptIn s o um meas d
  (r, if r = 1 then d else strU s (fun y => { y with lastMeas := meas, dtValid := true }) d)

/-- Whether an offset whose earliest stamp was taken at `meas` is discarded under R59. -/
def staleOffset (x : Str) (meas : Nat) : Bool :=
  match x.lastStep with | some t => decide (meas < t) | none => false

/-- Whether an offset whose stamp read `m` (2^-48 ns) on the string is discarded under R59. A stamp that reads less than the
string did at its latest step or LOAD, or more than it reads now, was taken before that tick; after a backward one a reading
the string has passed twice does not tell, and the choice is free (log entry 64). -/
def staleReading (s m : Nat) (d : Dev) : Bool × Dev :=
  let x := str d s
  if x.lastStep.isNone then (false, d)
  else if stepPending x ∨ m < x.stepReading ∨ x.t < m then (true, d)
  else match x.stepOld with
    | some o => if m < o then (let (v, d) := fresh d; (decide (v % 2 = 1), d)) else (false, d)
    | none => (false, d)

/-- The source counts as lost (R62): ACQUIRE and LOCKED go to HOLDOVER. -/
def loseSource (s : Nat) (d : Dev) : Dev :=
  let x := str d s
  let d := strU s (fun y => { y with srcOk := false }) d
  if x.st = .acquire ∨ x.st = .locked then
    postDev 0x23 (leBytes 1 s ++ leBytes 1 x.srcKind) (freeze s .holdover d)
  else d

/-- Return to DRONE (R61). A step already carried still applies at its tick (DESIGN CHOICE, log entry 64). -/
def toDrone (s : Nat) (d : Dev) : Dev :=
  let x := str d s
  let eff := wantIncr x
  let d := strU s (fun y => { y with srcKind := 0, srcPort := 0, srcOk := false, stepArmed := false, latched := false,
                                     dispFrom := none, lockCount := 0, returnCount := 0, slew := 0,
                                     drone := if x.st = .drone then y.drone else eff / 65536,
                                     window := [], uFrozen := none, growth := 0 }) d
  let d := setStrSt s .drone d
  carryIncr s (uUpdate s (strU s (fun y => { y with histMean := none, hist := [] }) d))

/-- Return to ACQUIRE with the step armed (R61, R66); the caller writes the record. -/
def reanchor (s : Nat) (d : Dev) : Dev :=
  let d := strU s (fun y => { y with stepArmed := true, latched := false, dispFrom := none, lockCount := 0,
                                     returnCount := 0, window := [], dtValid := false,
                                     reanchors := y.reanchors + 1, pReanchors := satNat 16 (y.pReanchors + 1) }) d
  carryIncr s (uUpdate s (setStrSt s .acquire d))

/-! ### The time clock and scheduled changes -/

/-- A replica advances by one tick (R26). -/
def Rep.tick (r : Rep) : Rep := { r with t := (r.t + r.incr) % (2 ^ 48 * secUnit) }

/-- Every fret and time tap of an island that works advances its own copies (R25, R26). -/
def tickTaps (d : Dev) : Dev :=
  (List.range 49).foldl (fun d n =>
    if hasTap n && islandOn d n then tapW n { tap d n with reps := (tap d n).reps.map Rep.tick } d else d) d

/-- Pin names of `Out.pin`: PPS outputs, and TEN_MHZ_OUT (R84, R85). -/
def pinPpsOut (i : Nat) : Nat := 0x10 + i
def pinTenMhz : Nat := 0x18

/-- TEN_MHZ_OUT rises in this tick: its string has reached a whole 100 ns, less ADVANCE, on a tick before which it had not
(R85). -/
def tenMhzRises (d : Dev) : Bool :=
  let x := str d (effF d 0x108050 3 1)
  let at_ := x.t + effF d 0x108050 31 16 * 2 ^ 44
  effB d 0x108050 0 && !d.timeDead && decide (at_ % (100 * 2 ^ 48) < x.incr)

/-- One tick of the time clock: every present string adds its effective increment (R50, R54, R55), and so does each replica of
it (R26); TEN_MHZ_OUT rises where it does (R85); the storage service's absence is timed from here (R436). -/
def timeTick (d : Dev) : Dev :=
  let d := (List.range (numStrings d.variant)).foldl (fun d s =>
    strU s (fun x => { x with t := (x.t + x.incr) % (2 ^ 48 * secUnit) }) d) d
  let d := tickTaps d
  let d := if tenMhzRises d then emit (.pin pinTenMhz true) d else d
  let d := timeU (fun t => { t with tick := t.tick + 1 }) d
  { d with ledger := { d.ledger with
      downFrom := if storageUp d then none else some (d.ledger.downFrom.getD (now d)) } }

/-- The application report of TIME_LOAD and TIME_SET_INCR (R91). -/
def writeReport (h : Option Held) (report old new incr : Nat) (d : Dev) : Dev :=
  match h with
  | some h => if report = 0 then d else
      dma h.cmd.fn report (leBytes 12 (toR17 old) ++ leBytes 12 (toR17 new) ++ leBytes 5 incr ++ zeros 3) d
  | none => d

/-- What a step or LOAD does to the string at its tick besides its time: any slew stops (R56). -/
def jumpTime (s t : Nat) (d : Dev) : Dev :=
  endSlew s (strU s (fun x => { x with t := t % (2 ^ 48 * secUnit), lastStep := some (now d), stepOld := some x.t,
                                       stepReading := t, dtValid := false, jumps := x.jumps + 1 }) d)

/-- A 2^-48 ns time moved by a step of `delta` Q16 ns. -/
def stepped (t : Nat) (delta : Int) : Nat := ((t : Int) + delta * 2 ^ 32).toNat % (2 ^ 48 * secUnit)

/-- Apply one scheduled change of a string (R27). -/
def applyOne (s : Nat) (e : Sched) (d : Dev) : Dev :=
  let x := str d s
  let d := match e.what with
    | .incr v => setIncr s v d
    | .step delta =>
      repsU s (fun r => { r with t := stepped r.t delta })
        (strU s (fun y => { y with stepLog := (now d, delta) :: y.stepLog })
          (jumpTime s ((x.t : Int) + delta * 2 ^ 32).toNat d))
    | .load t rep => writeReport e.held rep x.t t x.drone
        (repsU s (fun r => { r with t := t % (2 ^ 48 * secUnit) }) (jumpTime s t d))
    | .drone v rep => writeReport e.held rep x.t x.t v
        ((if x.st = .drone then setIncr s (v * 65536) else id) (strU s (fun y => { y with drone := v }) d))
    | .utc off fl => strU s (fun y => { y with utcOffset := off.getD y.utcOffset, utcFlags := fl }) d
    | .carried => d
  match e.held with
  | some h => completeHeld h 0 (match e.what with | .step _ => 1 | _ => 0) d
  | none => d

/-- The first change of a string that is due, and the others. -/
def takeDue (d : Dev) (s : Nat) : Option (Sched × List Sched) :=
  takeFirst (fun e => decide (e.at_ ≤ now d)) (str d s).sched

/-! ### The time bus (R26–R30) -/

/-- Set or clear FRET_ALARM of an island and post the event (R29). -/
def setAlarm (n : Nat) (b : Bool) (d : Dev) : Dev :=
  if bitR d (0x400 + 4 * n) 1 = b then d
  else postDev 0x02 (leBytes 1 n ++ leBytes 1 (b2n b)) (bitW (0x400 + 4 * n) 1 b d)

/-- How far a replica stands from the string it follows, in 2^-48 ns. -/
def repDiff (r : Rep) (x : Str) : Nat := ((r.t : Int) - (x.t : Int)).natAbs

/-- Whether every replica of a tap agrees with its string within 0.25 ns (R29). -/
def tapAgrees (d : Dev) (reps : List Rep) : Bool :=
  (List.range (numStrings d.variant)).all fun s => decide (repDiff (reps.getD s {}) (str d s) ≤ 2 ^ 46)

/-- What a code cycle carries of a string (R26). -/
def carried (x : Str) : Rep := ⟨x.t, x.incr, x.st, x.u⟩

/-- What a code cycle carries of every present string (R26). -/
def carriedAll (d : Dev) : List Rep := (List.range (numStrings d.variant)).map fun s => carried (str d s)

/-- A good code cycle brings a replica the increment, state and u_string it carries; its time runs on (R26, R29). -/
def takeCarried (d : Dev) (reps : List Rep) : List Rep :=
  (List.range (numStrings d.variant)).map fun s => { carried (str d s) with t := (reps.getD s {}).t }

/-- One code cycle reaches the fret or time tap of a working island (R29), whose replicas have drifted by `drift` Q16 ns since
the last. One not valid loads from a good cycle. A valid one compares: a difference above 0.25 ns, or a fourth failed CRC in a
row, sets FRET_ALARM and has it reload from the next good cycle; 16 good ones in a row clear FRET_ALARM. -/
def tapCycle (n : Nat) (crcBad : Bool) (drift : Int) (d : Dev) : Dev :=
  if !(hasTap n) || !(islandOn d n) then d else
  let x := tap d n
  let reps := x.reps.map fun r => { r with t := stepped r.t drift }
  if !(bitR d (0x400 + 4 * n) 0) then tapW n (if crcBad then { x with reps := reps } else { reps := carriedAll d }) d
  else if crcBad then
    let d := bitW (0x400 + 4 * n) 2 true
      (tapW n { x with bad := x.bad + 1, good := 0, reload := x.reload || decide (4 ≤ x.bad + 1), reps := reps } d)
    if 4 ≤ x.bad + 1 then setAlarm n true d else d
  else
    let ok := tapAgrees d reps
    let good := if ok then x.good + 1 else 0
    let d := tapW n { good := good, reload := !ok && !x.reload, reps := if x.reload then carriedAll d else takeCarried d reps } d
    if !ok then setAlarm n true d else if 16 ≤ good then setAlarm n false d else d

/-- One code cycle of holdover growth of a string (R69, R53). -/
def growOne (s : Nat) (d : Dev) : Dev :=
  let x := str d s
  if x.st = .holdover ∨ x.st = .disputed then
    let r := if tpllHold d then max (holdDrift d s) 512000 else holdDrift d s
    uUpdate s (strU s (fun y => { y with growth := y.growth + r * 262144 }) d)
  else uUpdate s d

/-- CODE_CYCLE (R26, R29, R69, R71): at each 1,024th tick; `badCrc` names the islands whose CRC fails, `drifts` how far each
island's replicas have drifted since the last cycle, in Q16 ns. -/
def execCodeCycle (badCrc : List Nat) (drifts : List (Nat × Int)) (s : State) :
    Host.Outcome State Fault Refusal :=
  lift (fun d =>
    if now d % 1024 ≠ 0 ∨ d.time.lastCycle = some (now d) then d else
    let d := timeU (fun t => { t with codeCycles := t.codeCycles + 1, lastCycle := some t.tick }) d
    let d := (List.range (numStrings d.variant)).foldl (fun d i => growOne i d) d
    (List.range 49).foldl (fun d n =>
      tapCycle n (badCrc.contains n) (Tbl.get (fun _ => (0 : Int)) drifts n) d) d) s

/-- TIME_BUS_DELAY_MEASURE (R28, R45). -/
def execTimeBusDelayMeasure (island delay : Nat) (s : State) : Host.Outcome State Fault Refusal :=
  lift (fun d => if hasTap island && islandOn d island then regW (0x500 + 4 * island) (BitVec.ofNat 32 delay) d else d) s

/-- FRET_VALID (R29, R30): the fret or tap of an island that is ON and out of reset becomes valid once it has loaded from a
good code cycle. -/
def setFretValid (n : Nat) (d : Dev) : Dev :=
  if hasTap n && islandOn d n && !((tap d n).reps.isEmpty) then bitW (0x400 + 4 * n) 0 true d else d

/-! ### The reference (R52, R53) -/

/-- TPLL_RELOCK (R53). -/
def execTpllRelock (s : State) : Host.Outcome State Fault Refusal :=
  lift (fun d =>
    let d' := bitW 0x108010 8 true (bitW 0x108010 10 false d)
    if tpllHold d then postDev 0x25 (leBytes 1 0) d' else d') s

/-- TREF_SEL_WRITE (R52): a write of TIME_REF. While the group's LOCK is set TREF_SEL is read-only, and the write sets nothing
whatever the strings' states (DESIGN CHOICE, log entry 64). -/
def execTrefSelWrite (v : Word) (s : State) : Host.Outcome State Fault Refusal :=
  lift (fun d =>
    let d1 := if Word.bit v 9 then bitW 0x108010 9 false d else d
    if Word.bit v 0 = bitR d 0x108010 0 then d1
    else if bitR d 0x10800C 0 then d1
    else if (List.range (numStrings d.variant)).all fun i => decide ((str d i).st = .drone) then
      bitW 0x108010 0 (Word.bit v 0) d1
    else bitW 0x108010 9 true d1) s

/-- SLEW_END (R56). -/
def execSlewEnd (str_ : Nat) (s : State) : Host.Outcome State Fault Refusal :=
  lift (fun d =>
    if (str d str_).slew ≠ 0 ∧ (str d str_).slewEnd ≤ now d then endSlew str_ d else d) s

/-- Whether a master heard on a port is still within the port's announce receipt timeout (R62, R96; IEEE 1588-2019). -/
def foreignLive (d : Dev) (s : Nat) (e : Foreign) : Bool :=
  let cfg : Bytes := Tbl.get (fun _ => []) (str d s).ptpPorts e.port
  decide (now d ≤ e.at_ + u8 cfg 6 * (10 ^ 9 * 2 ^ (toSigned 8 (u8 cfg 5) + 3).toNat / 8))

/-- Whether the source of a string counts as lost for the given reason now (R62, R81). -/
def lossHolds (d : Dev) (s : Nat) (why : LossCause) : Bool :=
  let x := str d s
  match why with
  | .ptp => decide (x.srcKind = 1) && (decide (fldR d (0x200040 + 0x1000 * x.srcPort) 2 0 ≠ 4) ||
      !(x.foreign.any fun e => decide (e.port = x.srcPort) && foreignLive d s e))
  | .pps => (decide (x.srcKind = 2) || decide (x.srcKind = 3)) && decide (x.lastPulse + 2500000000 ≤ now d)
  | .hostTimeout => decide (x.srcKind = 4) && decide (x.hostTimeout ≠ 0) &&
      decide (x.lastHost + x.hostTimeout * 1000000 ≤ now d)
  | .cluster0 => decide (x.owner = 0) && decide (x.srcKind ≠ 0) && !timeServiceUp d
  | .eec => freqSynce d s && decide (fldR d 0x108064 1 0 ≠ 1)

/-- DISPUTE_TIMER_EXPIRY (R61). -/
def execDisputeTimerExpiry (str_ : Nat) (s : State) : Host.Outcome State Fault Refusal :=
  lift (fun d =>
    let x := str d str_
    match x.dispFrom with
    | some t0 =>
      if x.st = .disputed ∧ x.latched = false ∧ disputeTo d str_ ≠ 0 ∧ t0 + disputeTo d str_ * 1000000 ≤ now d then
        postDev 0x28 (leBytes 1 str_) (strU str_ (fun y => { y with latched := true, returnCount := 0 }) d)
      else d
    | none => d) s

/-- LEAP_APPLY (R51). -/
def execLeapApply (str_ : Nat) (s : State) : Host.Outcome State Fault Refusal :=
  lift (fun d =>
    let x := str d str_
    match x.leap with
    | some (off, due) =>
      if due ≤ x.t / secUnit then
        strU str_ (fun y => { y with
          utcOffset := off, utcFlags := y.utcFlags / 4 * 4, leap := none
          sched := y.sched.map fun e => match e.what with
            | .utc none fl => { e with what := .utc none (fl / 4 * 4) }
            | _ => e }) d
      else d
    | none => d) s

/-! ### PPS (R83–R86) -/

/-- A PPS offset: the stamp's position within the second, mapped to −0.5 s to +0.5 s, in Q16 ns (R83). -/
def ppsOffset (q : Nat) : Int :=
  let s := 1000000000 * 65536
  let p := q % s
  if s / 2 < p then (p : Int) - (s : Int) else (p : Int)

/-! ### The EEC and ESMC (R80–R82) -/

/-- Rank of an enhanced SSM code among ports of one SSM code: ePRTC, PRTC, ePRC, eEEC, then none (ITU-T G.8264; PRESUMED, log
entry 20). -/
def essmRank (e : Esmc) : Nat :=
  match u8 e.ext 0 with | 0x21 => 0 | 0x20 => 1 | 0x23 => 2 | 0x22 => 3 | _ => 4

/-- Rank of a port's QL for the EEC's choice, lower is better: by SSM code in the order of the EEC's option, then by the enhanced
code (ITU-T G.781, G.8264; PRESUMED, log entry 20). -/
def qlRank (d : Dev) (e : Esmc) : Nat :=
  match e.ql with
  | none => 200
  | some q => 5 * (if effB d 0x108060 1 then [1, 0, 7, 4, 13, 10, 12, 14, 15].idxOf q else q) + essmRank e

/-- The EEC's input port now: the configured one, or by QL among the candidates (R82). -/
def eecInput (d : Dev) : Nat :=
  if effB d 0x108060 8 then
    let m := (effR d 0x108068).toNat + 2 ^ 32 * (effR d 0x10806C).toNat
    let cands := (List.range 48).filter fun p => bitOf m p
    match cands with
    | [] => fldR d 0x108064 13 8
    | c :: cs => cs.foldl (fun b p =>
        if qlRank d (Tbl.get (fun _ => {}) d.time.esmc p) < qlRank d (Tbl.get (fun _ => {}) d.time.esmc b) then p else b) c
  else effF d 0x108060 7 2

/-- Set the EEC's input and QL in EEC_STAT; a change of either posts ESMC_QL (R82). An input with no QL received, or failed, shows
15, and a disabled EEC keeps what it last showed (DESIGN CHOICE, log entry 64). -/
def eecReselect (d : Dev) : Dev :=
  if !(effB d 0x108060 0) then d else
  let p := eecInput d
  let ql := ((Tbl.get (fun _ => {}) d.time.esmc p : Esmc).ql).getD 15
  if fldR d 0x108064 13 8 = p ∧ fldR d 0x108064 7 4 = ql then d
  else postDev 0x27 (leBytes 1 p ++ leBytes 1 ql) (fldW 0x108064 13 8 p (fldW 0x108064 7 4 ql d))

/-- What a received ESMC PDU tells (ITU-T G.8264; PRESUMED, log entry 55): the SSM code of its QL TLV and the body of its extended
QL TLV. -/
def esmcOf (pdu : Bytes) (tick : Nat) : Esmc :=
  { ql := if u8 pdu 24 = 1 then some (u8 pdu 27 % 16) else none
    ext := if u8 pdu 28 = 2 ∧ be pdu 29 2 = 0x14 then slice pdu 31 17 else []
    last := tick }

/-- ESMC_PDU_RX (R82): a PDU, from its destination address, is received on a port. -/
def execEsmcPduRx (port : Nat) (pdu : Bytes) (s : State) : Host.Outcome State Fault Refusal :=
  lift (fun d =>
    if !(portPresent d.variant port) || !timeServiceUp d then d else
    eecReselect (timeU (fun t => { t with esmc := Tbl.set (fun _ => {}) t.esmc port (esmcOf pdu t.tick) }) d)) s

/-- ESMC_QL_FAILED (R82): 5 s without a PDU. -/
def execEsmcQlFailed (port : Nat) (s : State) : Host.Outcome State Fault Refusal :=
  lift (fun d =>
    let e : Esmc := Tbl.get (fun _ => {}) d.time.esmc port
    if e.ql.isSome ∧ e.last + 5000000000 ≤ now d then
      eecReselect (timeU (fun t => { t with
        esmc := Tbl.set (fun _ => {}) t.esmc port { e with ql := none } }) d)
    else d) s

/-- EEC_STATE_CHANGE (R80, R81): 0 free-run, 1 locked, 2 holdover; `freq` is its offset against the time clock. -/
def execEecStateChange (state : Nat) (freq : Int) (s : State) : Host.Outcome State Fault Refusal :=
  lift (fun d =>
    if !(effB d 0x108060 0) || decide (3 ≤ state) then d else
    let d := fldW 0x108064 1 0 state (timeU (fun t => { t with eecFreq := freq }) d)
    (List.range (numStrings d.variant)).foldl (fun d i =>
      if freqSynce d i && decide ((str d i).st ≠ .drone) then
        if state = 1 then carryIncr i d else loseSource i d
      else d) d) s

/-! ### Admin commands (R89–R96) -/

/-- The string a time command names. -/
def cmdStr (c : Cmd) : Nat := c.f 16 1

/-- The status of the checks common to time commands (R89, R308), with the command's own range check. -/
def timeStatus (d : Dev) (c : Cmd) (used : List (Nat × Nat)) (badParam : Bool) (notOwner badState : Bool) : Nat :=
  firstStatus [
    (decide (c.fn ≠ 0) || (cmdSelf c).isNone, stNotPermitted),
    (!(reservedOk c ((16, 1) :: used)) || decide (8 ≤ cmdStr c) || badParam, stBadParam),
    (!(strPresent d (cmdStr c)), stAbsent),
    (notOwner, stNotOwner),
    (badState, stBadState)]

/-- TIME_SET_SOURCE (R76, R90); a PTP source on an absent port is ABSENT (R11). -/
def execTimeSetSource (c : Cmd) (s : State) : Host.Outcome State Fault Refusal :=
  lift (fun d =>
    let i := cmdStr c
    let kind := c.f 17 1
    let st := timeStatus d c [(17, 1), (18, 1), (20, 4)]
        (decide (kind = 0) || decide (5 ≤ kind) || (decide (kind = 1) && decide (48 ≤ c.f 18 1)) ||
          (decide (kind = 4) && decide (60000 < c.f 20 4)))
        false false
    checked c (firstStatus [(decide (st ≠ 0), st), (decide (kind = 1) && !(portPresent d.variant (c.f 18 1)), stAbsent)])
      (fun d =>
        let was := (str d i).st
        let d := strU i (fun x => { x with srcKind := kind, srcPort := if kind = 1 then c.f 18 1 else 0, srcOk := false,
                                           hostTimeout := if kind = 4 then c.f 20 4 else 0,
                                           lastHost := now d, lastPulse := now d }) d
        let d := if was = .drone then
            uUpdate i (setStrSt i .acquire (strU i (fun x => { x with
              stepArmed := true, window := [], dtValid := false, lockCount := 0 }) d))
          else d
        completeSt c 0 (carryIncr i d)) d) s

/-- A string's time, increment and drone increment as the changes on their way to it will leave them one after the other, and
the first tick from `t0` on at which its seconds differ from those of the tick before (R91). -/
structure Track where
  at_ : Nat
  t : Nat
  incr : Nat
  found : Option Nat := none
  deriving DecidableEq, Repr

/-- The first tick in `[t0, stop)` at which the seconds change, the string running on from `k.at_`. -/
def Track.cross (t0 : Nat) (stop : Option Nat) (k : Track) : Option Nat :=
  let lo := max t0 (k.at_ + 1)
  let before := k.t + (lo - 1 - k.at_) * k.incr
  if k.incr = 0 then none
  else
    let n := lo - 1 + ceilDiv ((before / secUnit + 1) * secUnit - before) k.incr
    match stop with
    | some b => if n < b then some n else none
    | none => some n

/-- A change on its way applies to a track. -/
def Track.take (t0 : Nat) (k : Track) (e : Sched) : Track :=
  let found := k.found.or (k.cross t0 (some e.at_))
  let t := k.t + (e.at_ - k.at_) * k.incr
  match e.what with
  | .incr v => ⟨e.at_, t, v, found⟩
  | .drone v _ => ⟨e.at_, t, v * 65536, found⟩
  | .step delta => ⟨e.at_, stepped t delta, k.incr, found⟩
  | .load v _ => ⟨e.at_, v, k.incr, found⟩
  | _ => ⟨e.at_, t, k.incr, found⟩

/-- The changes on their way to a string, by their ticks. -/
def byTick (l : List Sched) : List Sched :=
  l.foldl (fun acc e => acc.takeWhile (fun x => decide (x.at_ ≤ e.at_)) ++ e :: acc.dropWhile fun x => decide (x.at_ ≤ e.at_)) []

/-- The application tick of TIME_LOAD and TIME_SET_INCR (R91): with ALIGN 1 the first tick, two code cycles ahead or later, at
which the string's seconds change, what is already on its way to it included. -/
def alignTick (d : Dev) (s align : Nat) : Nat :=
  if align = 0 then applyTick d else
  let x := str d s
  let t0 := now d + 2048
  let k := (byTick x.sched).foldl (Track.take t0) ⟨now d, x.t, x.incr, none⟩
  (k.found.or (k.cross t0 none)).getD (applyTick d)

/-- A LOAD or increment command held until its application tick. A later command to the string runs meanwhile (DESIGN CHOICE, log
entry 64). -/
def scheduleHeld (c : Cmd) (s : Nat) (at_ : Nat) (k : SchedKind) (d : Dev) : Dev :=
  noteHeld c (schedule s ⟨at_, k, some (hold d c)⟩ d)

/-- A command waits for the step it has caused, the newest change of its string (R59). -/
def awaitStep (s : Nat) (h : Held) (d : Dev) : Dev :=
  strU s (fun x => { x with sched := match x.sched.getLast? with
    | some e => x.sched.dropLast ++ [{ e with held := some h }]
    | none => x.sched }) d

/-- TIME_LOAD (R60, R91). -/
def execTimeLoad (c : Cmd) (s : State) : Host.Outcome State Fault Refusal :=
  lift (fun d =>
    let i := cmdStr c
    checked c (timeStatus d c [(24, 12), (36, 1), (40, 8)]
        (decide (2 ≤ c.f 36 1) || decide (c.f 40 8 % 32 ≠ 0) || decide (1000000000 ≤ c.f 24 12 / 2 ^ 16 % 2 ^ 32))
        false
        (decide ((str d i).st ≠ .drone) || (decide (c.f 36 1 = 1) && decide ((str d i).drone = 0))))
      (fun d =>
        let at_ := alignTick d i (c.f 36 1)
        let d := strU i (fun x => { x with lastStep := some at_, stepReading := ofR17 (c.f 24 12) }) d
        scheduleHeld c i at_ (.load (ofR17 (c.f 24 12)) (c.f 40 8)) d) d) s

/-- TIME_SET_INCR (R54, R91). -/
def execTimeSetIncr (c : Cmd) (s : State) : Host.Outcome State Fault Refusal :=
  lift (fun d =>
    let i := cmdStr c
    checked c (timeStatus d c [(24, 5), (36, 1), (40, 8)]
        (decide (2 ≤ c.f 36 1) || decide (c.f 40 8 % 32 ≠ 0))
        false
        (decide ((str d i).st ≠ .drone) || (decide (c.f 36 1 = 1) && decide ((str d i).drone = 0))))
      (fun d => scheduleHeld c i (alignTick d i (c.f 36 1)) (.drone (c.f 24 5) (c.f 40 8)) d) d) s

/-- TIME_SET_DRONE (R61). -/
def execTimeSetDrone (c : Cmd) (s : State) : Host.Outcome State Fault Refusal :=
  lift (fun d =>
    checked c (timeStatus d c [] false false false)
      (fun d => scheduleHeld c (cmdStr c) (applyTick d) .carried (toDrone (cmdStr c) d)) d) s

/-- TIME_HOST_OFFSET (R92, R596): one that steps the string completes once the step has been applied (R59). -/
def execTimeHostOffset (c : Cmd) (s : State) : Host.Outcome State Fault Refusal :=
  lift (fun d =>
    let i := cmdStr c
    let x := str d i
    checked c (timeStatus d c [(24, 8), (32, 4), (36, 12)] (decide (c.f 32 4 = 0xFFFFFFFF) || decide (1000000000 ≤ c.f 36 12 / 2 ^ 16 % 2 ^ 32))
        (decide (x.owner ≠ 1)) (decide (x.st = .drone)))
      (fun d =>
        let d := strU i (fun y => { y with lastHost := now d }) d
        let (stale, d) := staleReading i (ofR17 (c.f 36 12)) d
        if stale then complete c 0 4 d
        else
          let (r, d) := acceptOffset i (toSigned 64 (c.f 24 8)) (c.f 32 4) (now d) d
          if r = 1 then noteHeld c (awaitStep i (hold d c) d) else complete c 0 r d) d) s

/-- TIME_HOST_FREQ (R93). -/
def execTimeHostFreq (c : Cmd) (s : State) : Host.Outcome State Fault Refusal :=
  lift (fun d =>
    let i := cmdStr c
    let f := toSigned 40 (c.f 24 5)
    checked c (timeStatus d c [(24, 5)] (decide (freqClamp < (f.natAbs : Int)))
        (decide ((str d i).owner ≠ 1)) (decide ((str d i).st = .drone)))
      (fun d => completeSt c 0 (carryIncr i (setFreq i f d))) d) s

/-- The UTC offset a string has once the corrections on their way have applied (R51). -/
def lastUtc (x : Str) : Int := x.sched.foldl (fun a e => match e.what with | .utc (some o) _ => o | _ => a) x.utcOffset

/-- TIME_SET_UTC (R51, R93): a change with a leap indicator waits for the end of the UTC day and leaves the offset until then. -/
def execTimeSetUtc (c : Cmd) (s : State) : Host.Outcome State Fault Refusal :=
  lift (fun d =>
    let i := cmdStr c
    let x := str d i
    let off := toSigned 16 (c.f 20 2)
    let fl := c.f 22 1
    checked c (timeStatus d c [(20, 2), (22, 1)] (decide (32 ≤ fl)) (decide (x.owner ≠ 1)) false)
      (fun d =>
        if fl % 4 = 0 then
          completeSt c 0 (schedule i ⟨applyTick d, .utc (some off) fl, none⟩ (strU i (fun y => { y with leap := none }) d))
        else
          let old := lastUtc x
          let utc : Int := (x.t / secUnit : Nat) - old
          let due := ((utc / 86400 + 1) * 86400 + old).toNat
          completeSt c 0 (schedule i ⟨applyTick d, .utc none fl, none⟩
            (strU i (fun y => { y with leap := some (off, due) }) d))) d) s

/-- The 32-byte snapshot of TIME_READ (R94). -/
def timeSnapshot (d : Dev) (i : Nat) : Bytes :=
  let x := str d i
  leBytes 12 (toR17 x.t) ++ leBytes 4 x.u ++ leBytes 1 (stCode x.st) ++
  leBytes 1 (b2n x.stepArmed + 2 * b2n x.oob + 4 * b2n x.latched + 8 * b2n (decide (x.slew ≠ 0))) ++
  leBytes 2 (ofSigned 16 x.utcOffset) ++
  leBytes 5 (if x.st = .drone then x.drone else ofSigned 40 x.freq) ++ zeros 7

/-- TIME_READ (R94). -/
def execTimeRead (c : Cmd) (s : State) : Host.Outcome State Fault Refusal :=
  lift (fun d =>
    checked c (timeStatus d c [(24, 8)] (decide (c.f 24 8 % 32 ≠ 0)) false false)
      (fun d => reply c (c.f 24 8) (timeSnapshot d (cmdStr c)) d) d) s

/-- TIME_PTP_CLOCK (R95). -/
def execTimePtpClock (c : Cmd) (s : State) : Host.Outcome State Fault Refusal :=
  lift (fun d =>
    let i := cmdStr c
    checked c (timeStatus d c [(17, 9), (26, 8)]
        (decide (4 ≤ c.f 17 1) || decide (5 ≤ c.f 18 1) || decide (4 ≤ c.f 23 1)) false (!(ptpEn d i)))
      (fun d => completeSt c 0 (strU i (fun x => { x with ptpClock := slice c.bytes 17 17 }) d)) d) s

/-- Whether a byte read as signed lies between −n and n. -/
def within (v n : Nat) : Bool := decide ((toSigned 8 v).natAbs ≤ n)

/-- TIME_PTP_PORT (R96). -/
def execTimePtpPort (c : Cmd) (s : State) : Host.Outcome State Fault Refusal :=
  lift (fun d =>
    let i := cmdStr c
    checked c
      (firstStatus [
        (decide (c.fn ≠ 0) || (cmdSelf c).isNone, stNotPermitted),
        (!(reservedOk c [(16, 11), (28, 4)]) || decide (8 ≤ i) || decide (48 ≤ c.f 17 1) ||
          decide (4 ≤ c.f 18 1) || decide (3 ≤ c.f 19 1) || !(within (c.f 20 1) 7) || !(within (c.f 21 1) 7) ||
          !(within (c.f 22 1) 3) || decide (c.f 23 1 < 2) || decide (3 ≤ c.f 24 1) || decide (8 ≤ c.f 25 1) ||
          decide (c.f 26 1 = 0), stBadParam),
        (!(strPresent d i) || !(portPresent d.variant (c.f 17 1)), stAbsent),
        (!(ptpEn d i), stBadState)])
      (fun d => completeSt c 0 (strU i (fun x => { x with
        ptpPorts := Tbl.set (fun _ => []) x.ptpPorts (c.f 17 1) (slice c.bytes 17 15) }) d)) d) s

/-- TIME_NOW_READ (R98): a read of TIME_NOW's fraction word snapshots the whole time. -/
def execTimeNowRead (str_ : Nat) (s : State) : Host.Outcome State Fault Refusal :=
  lift (fun d =>
    if !(strPresent d str_) then emit (.regData 0 (tKey str_ 0x60) 0) d else
    let v := toR17 (str d str_).t
    emit (.regData 0 (tKey str_ 0x60) (BitVec.ofNat 32 (v % 2 ^ 16)))
      (strU str_ (fun x => { x with now := [v / 2 ^ 16 % 2 ^ 32, v / 2 ^ 48 % 2 ^ 32, v / 2 ^ 80] }) d)) s

end Sys2Proof.Machine
end

