-- ==== Sys2Proof/Machine/ErrLog.lean ====
section
/-! DEFINITION. The error log, ALERT_N, and the crossing FIFOs between islands (R21, R22, R564–R566). -/

namespace Sys2Proof.Machine

/-! ### Pins -/

def pinAlertN : Nat := 1
def pinHealthy : Nat := 2
def pinThermtripN : Nat := 3
def pinBootHalt : Nat := 4
/-- BOOT_ERR[i]. -/
def pinBootErr (i : Nat) : Nat := 0x30 + i
def pinPwrEn : Nat := 6
/-- DPERST_N of drive port `n`. -/
def pinDperst (n : Nat) : Nat := 0x20 + n

/-! ### The error log -/

/-- Whether an entry stands unacknowledged at or above ALERT_MIN: ALERT_N is asserted (R566, R568). -/
def alertOn (d : Dev) : Bool :=
  d.fatal || d.errs.any fun e => decide (effF d 0x800 1 0 ≤ e.cls) && decide (d.errAck < e.seq)

/-- Drive ALERT_N if it has changed. -/
def driveAlert (was : Bool) (d : Dev) : Dev := if alertOn d = was then d else emit (.pin pinAlertN was) d

/-- The oldest entry of the lowest class present. -/
def victim : List ErrEnt → Option ErrEnt
  | [] => none
  | e :: t =>
    match victim t with
    | none => some e
    | some v => if e.cls < v.cls ∨ (e.cls = v.cls ∧ e.seq < v.seq) then some e else some v

/-- Report an error (R564–R566): class, island, CODE, and detail bytes. -/
def logErr (cls island code : Nat) (detail : Bytes) (d : Dev) : Dev :=
  match d.errs.find? fun e => decide (e.island = island) && decide (e.code = code) && decide (now d < e.last + 1000000000) with
  | some _ =>
    { d with errs := updFirst (fun e => decide (e.island = island) && decide (e.code = code) &&
                                decide (now d < e.last + 1000000000))
              (fun e => { e with count := (e.count + 1) % 2 ^ 32, last := now d }) d.errs }
  | none =>
    let was := alertOn d
    let ent : ErrEnt := ⟨d.errSeq + 1, cls, island, code, 1, toR17 (str d 0).t, padTo 8 (detail.take 8), now d⟩
    let note (d : Dev) : Dev :=
      driveAlert was (postDev 0xF0 (leBytes 1 cls ++ leBytes 1 island ++ leBytes 2 code ++ leBytes 4 (d.errSeq)) d)
    let ovw (d : Dev) : Dev := regW 0x810 (regR d 0x810 + 1) d
    if d.errs.length < 256 then note { d with errs := d.errs ++ [ent], errSeq := d.errSeq + 1 }
    else
      match victim d.errs with
      | some v =>
        if v.cls ≤ cls then
          note (ovw { d with errs := updFirst (fun e => decide (e.seq = v.seq)) (fun _ => ent) d.errs,
                             errSeq := d.errSeq + 1 })
        else ovw d
      | none => d

/-- Acknowledge every entry up to a SEQ (R566). -/
def ackErr (seq : Nat) (d : Dev) : Dev :=
  let was := alertOn d
  driveAlert was { d with errAck := max d.errAck seq }

/-- The 32 bytes of an error log entry (R564). -/
def errBytes (e : ErrEnt) : Bytes :=
  leBytes 4 e.seq ++ leBytes 1 e.cls ++ leBytes 1 e.island ++ leBytes 2 e.code ++ leBytes 4 e.count ++
  leBytes 12 e.time ++ padTo 8 e.detail

/-! ### Crossings -/

/-- Whether a crossing into an island keeps its entries: the island neither is nor goes OFF, and is not isolated (R22). An
island in RETAIN or in reset keeps them waiting. -/
def xingTakes (d : Dev) (n : Nat) : Bool :=
  d.power && islandPresent d.variant n && decide ((dom d n).st ≠ .off) && decide ((dom d n).target ≠ .off) && !(dom d n).failed

/-- `k` entries bound for an island are discarded: each is counted, and they are flagged in XING_DISCARD (R22, R45). -/
def discardN (dst k : Nat) (d : Dev) : Dev :=
  bitW (0x400 + 4 * dst) 3 true
    { d with doms := Tbl.upd (fun _ => {}) d.doms dst fun x => { x with discards := x.discards + k } }

/-- Write an entry into the crossing from island `src` to `dst` (R21); an entry bound for an island that is OFF or isolated is
discarded (R22, R45). DESIGN CHOICE (log entry 66): R22 gives no depth of a FIFO; the model's have no bound, so that none is ever
full and no source waits. -/
def send (src dst : Nat) (item : Item) (d : Dev) : Dev :=
  if xingTakes d dst then { d with xings := d.xings ++ [⟨src, dst, false, item⟩] } else discardN dst 1 d

/-- XING_DELIVER (R21): the oldest entry of a crossing not yet readable becomes readable. -/
def execXingDeliver (src dst : Nat) (s : State) : Host.Outcome State Fault Refusal :=
  lift (fun d =>
    let xs := updFirst (fun x => decide (x.src = src) && decide (x.dst = dst) && !x.ready)
      (fun x => { x with ready := true }) d.xings
    { d with xings := xs }) s

/-- A working island takes the oldest readable entry bound for it that satisfies `p`. -/
def receive (dst : Nat) (p : Item → Bool) (d : Dev) : Option (Item × Dev) :=
  if !(islandOn d dst) then none else
  match takeFirst (fun x => decide (x.dst = dst) && x.ready && p x.item) d.xings with
  | some (x, rest) => some (x.item, { d with xings := rest })
  | none => none

/-- The ingress pipe of a port (R46, R573). -/
def ingressPipe (d : Dev) (p : Nat) : Nat :=
  let n := portIsland p - 1
  fldR d (0x700 + 4 * (n / 4)) (8 * (n % 4) + 2) (8 * (n % 4))

/-- The egress pipe of a port (R46, R573). -/
def egressPipe (d : Dev) (p : Nat) : Nat :=
  let n := portIsland p - 1
  fldR d (0x700 + 4 * (n / 4)) (8 * (n % 4) + 6) (8 * (n % 4) + 4)

/-- Island of ingress pipe `i`, egress pipe `i`, cluster `c`, channel `m`, host port `h`, drive port `n` (R20). -/
def ipIsland (i : Nat) : Nat := 9 + i
def epIsland (i : Nat) : Nat := 15 + i
def csIsland : Nat := 23
def tableIsland (i : Nat) : Nat := 24 + i
def gIsland (c : Nat) : Nat := 28 + c
def mIsland (m : Nat) : Nat := 34 + m
def hIsland (h : Nat) : Nat := 42 + h
def dIsland (n : Nat) : Nat := 44 + n

end Sys2Proof.Machine
end

