-- ==== Sys2Proof/Machine/WitCore.lean ====
section
/-! DEFINITION. The witness engine's state, the open ashlar and its closing, and the capstones a boundary or cut calls for (07). -/

namespace Sys2Proof.Machine

/-- Change the witness engine. -/
def witU (f : Wit → Wit) (d : Dev) : Dev := { d with wit := f d.wit }

/-- Key of a WIT register. -/
def wKey (off : Nat) : Nat := 0x600000 + off

/-- Whether the variant has a witness engine (R4). -/
def witPresent (d : Dev) : Bool := decide (d.variant ≠ .m)

/-- EN_ACT, and whether the journal is open (R228). -/
def witEnAct (d : Dev) : Bool := bitR d (wKey 0x40) 31
def witOpen (d : Dev) : Bool := witEnAct d && !(bitR d (wKey 0x40) 20) && !(bitR d (wKey 0x40) 19)

/-- The journal string in effect. -/
def jString (d : Dev) : Nat := fldR d (wKey 0x40) 23 21

/-- Whether a half takes sources (R229, R269, R270). -/
def halfInUse (d : Dev) (h : Nat) : Bool :=
  decide (h < 2) && islandOn d (21 + h) && !(d.wit.relHalves.contains h) && !(d.wit.failed.contains h)

/-- Whether one half does all the work where there are two (R8, R269): never on the P3224-L, which has one. -/
def oneHalf (d : Dev) : Bool := islandPresent d.variant 22 && !(halfInUse d 0 && halfInUse d 1)

/-- The half a source's records go to until the next boundary, whether or not it has failed (R229, R269, R270). -/
def feeds (d : Dev) (src : Nat) : Nat :=
  let h := src % 2
  if islandPresent d.variant (21 + h) && !(d.wit.relHalves.contains h) then h else 1 - h

/-- The half a source of the given parity feeds (R229). -/
def halfOf (d : Dev) (src : Nat) : Nat := if halfInUse d (src % 2) then src % 2 else 1 - src % 2

/-- The sealer half (R229). -/
def sealer (d : Dev) : Nat := fldR d (wKey 0x40) 26 26

/-- The journal string as the sealer's island reads it on its own time tap (R31, R237), and its time as R17 and in Q16 ns. -/
def jRep (d : Dev) : Rep := rep d (21 + sealer d) (jString d)
def jTime (d : Dev) : Nat := toR17 (jRep d).t
def jQ (d : Dev) : Nat := toQ (jRep d).t

/-- STAGING in effect, in bytes (R245). -/
def stagingBytes (d : Dev) : Nat := effF d (wKey 0x10) 23 16 * 2 ^ 30

/-- Whether an ashlar is durable (R264). -/
def isDurable (d : Dev) (n : Nat) : Bool := match d.wit.durable with | some x => decide (n ≤ x) | none => false

/-- GAP records among an ashlar's, and the others: the reserve holds the former (R245). -/
def isGapRec (r : ARec) : Bool := decide (u8 r.bytes 14 % 32 = 6)
def gapRecs (a : Ashlar) : Nat := (a.recs.filter isGapRec).length
def plainRecs (a : Ashlar) : Nat := a.recs.length - gapRecs a

/-- Records staging holds outside the reserve and may not reclaim, and all it holds there (R245). -/
def stagedFirm (d : Dev) : Nat :=
  d.wit.recs.length + ((d.wit.cur.toList ++ d.wit.closed).map plainRecs).sum +
  ((d.wit.sealed_.filter fun a => !(isDurable d a.index)).map plainRecs).sum
def stagedAll (d : Dev) : Nat := stagedFirm d + ((d.wit.sealed_.filter fun a => isDurable d a.index).map plainRecs).sum

/-- Records staging can hold, the reserve excluded (R246). -/
def stagingCap (d : Dev) : Nat := (stagingBytes d - 2 ^ 24) / 48

/-- Whether a capstone made is durable (R264). -/
def capDurable (d : Dev) (n : Nat) : Bool := match d.wit.durableCap with | some x => decide (n ≤ x) | none => false

/-- Bytes the reserve holds: headers, GAP records, and capstones (R245). -/
def reserveUsed (d : Dev) : Nat :=
  ((d.wit.cur.toList ++ d.wit.closed ++ d.wit.sealed_).map fun a => 128 + 48 * gapRecs a).sum +
  (d.wit.capDone.map fun c => c.bytes.length).sum

/-- Reclaim the oldest durable evidence (R245): an ashlar goes before a capstone that covers it. -/
def dropOldest (d : Dev) : Dev :=
  let a := d.wit.sealed_.find? fun a => isDurable d a.index
  let c := d.wit.capDone.find? fun c => capDurable d c.index
  let dropCap := match a, c with
    | some a, some c => decide (c.last < a.index)
    | none, some _ => true
    | _, none => false
  witU (fun w => { w with
    sealed_ := if dropCap then w.sealed_ else w.sealed_.filter fun x => !(a == some x)
    capDone := if dropCap then w.capDone.filter fun x => !(c == some x) else w.capDone }) d

/-- Reclaim durable evidence until `fits`, or none is left (R245). -/
def reclaimUntil (fits : Dev → Bool) (d : Dev) : Dev :=
  loopN (d.wit.sealed_.length + d.wit.capDone.length) (fun _ d => if fits d then d else dropOldest d) d

/-- Make room for one more record, and for `n` bytes in the reserve. -/
def reclaim (d : Dev) : Dev := reclaimUntil (fun d => decide (stagedAll d < stagingCap d)) d
def reclaimReserve (n : Nat) (d : Dev) : Dev := reclaimUntil (fun d => decide (reserveUsed d + n ≤ 2 ^ 24)) d

/-- 1 while the part runs with ALLOW_UNTESTED in effect (R234). -/
def untestedFlag (d : Dev) : Nat := if d.untested then 0x100 else 0

/-- The 48 bytes of a record (R231). -/
def recBytes (stamp u str kind port : Nat) (seqValid bound : Bool) (clsWord seq len flags : Nat) (digest : Bytes) : Bytes :=
  leBytes 12 stamp ++ leBytes 2 u ++ leBytes 1 (kind + str * 32) ++
  leBytes 1 (port % 64 + (if seqValid then 64 else 0) + (if bound then 128 else 0)) ++ leBytes 4 clsWord ++
  leBytes 8 seq ++ leBytes 2 len ++ leBytes 2 flags ++ padTo 16 (digest.take 16)

/-- The closing places records in order: by instant, then group, then order within it (R237; log entry 30). -/
def sortRecs (rs : List ARec) : List ARec :=
  rs.foldr (insertBy fun a b =>
    decide (a.at_ < b.at_) || (decide (a.at_ = b.at_) && (decide (a.grp < b.grp) || (decide (a.grp = b.grp) && decide (a.ord ≤ b.ord))))) []

/-- Header flags that depend on the moment (R240): UNTESTED_FW, DRONE, HALF. -/
def ashlarNow (d : Dev) (a : Ashlar) : Nat :=
  let x := str d (jString d)
  (if d.untested then 16 else 0) ||| (if (jRep d).st = .drone ∨ (a.tick ≤ x.lastDrone ∧ x.lastDrone ≠ 0) then 32 else 0) |||
  (if oneHalf d then 64 else 0)

/-- Close the open ashlar and open the next at the same tick (R239). -/
def closeAshlar (flag close open_ : Nat) (reopen : Bool) (d : Dev) : Dev :=
  match d.wit.cur with
  | none => d
  | some a =>
    let a' := { a with flags := a.flags ||| flag ||| ashlarNow d a, close := close, recs := sortRecs a.recs }
    let nx : Ashlar := { index := a.index + 1, prev := a.index, opening := a.opening, jstring := jString d, open_ := open_,
                         tick := now d }
    witU (fun w => { w with closed := w.closed ++ [a'], cur := if reopen then some nx else none }) d

/-! ### Capstones due (R251–R255) -/

/-- Ticks as µs in four bytes. -/
def usBytes (t : Nat) : Bytes := leBytes 4 (t / 1000)

/-- A string block over the period (R253). -/
def stringBlock (d : Dev) (s : Nat) : Bytes :=
  let x := str d s
  let ticks := updAt (· + (now d - x.since)) x.stTicks (stCode x.st)
  leBytes 1 s ++ leBytes 1 (stCode x.st) ++ leBytes 1 (x.visited.foldl (fun m v => m ||| 2 ^ v) 0) ++
  leBytes 1 (b2n x.oob + 2 * b2n x.latched + 4 * x.owner + 8 * b2n (freqSynce d s) + 16 * b2n x.pHold) ++
  leBytes 2 x.pSteps ++ leBytes 2 x.pRefusals ++ leBytes 8 (ofSigned 64 x.pMaxOfs) ++ leBytes 4 x.pMaxU ++
  usBytes (x.pOobTicks + (if x.oob then now d - x.pOobSince else 0)) ++
  (if x.srcKind = 1 then beBytes 8 x.gm else zeros 8) ++ (ticks.flatMap usBytes) ++ leBytes 2 x.pReanchors ++
  leBytes 2 (ofSigned 16 x.utcOffset) ++ leBytes 8 (ofSigned 64 x.pStepSum)

/-- Start a string's next period (R253, R254). -/
def newPeriod (s : Nat) (d : Dev) : Dev :=
  strU s (fun x => { x with since := now d, stTicks := [0, 0, 0, 0, 0], visited := [stCode x.st], pSteps := 0, pRefusals := 0,
                            pMaxOfs := 0, pMaxU := x.u, pOobSince := now d, pOobTicks := 0, pReanchors := 0, pStepSum := 0,
                            pHold := tpllHold d,
                            spans := x.spans.filter fun y => y.stop.isNone }) d

/-- The interval entries of a string, oldest first, at most 16 (R254). -/
def intervalsOf (d : Dev) (s : Nat) : List Bytes :=
  let all := (str d s).spans.reverse
  let ent (c a : Nat) (b : Option Nat) : Bytes :=
    leBytes 1 s ++ leBytes 1 c ++ [0, 0] ++ leBytes 12 (qR17 a) ++
    (match b with | some e => leBytes 12 (qR17 e) | none => List.replicate 12 0xFF)
  if all.length ≤ 16 then all.map fun y => ent y.cause y.start y.stop
  else
    let lastStop := match all.getLast? with | some y => y.stop | none => none
    (all.take 15).map (fun y => ent y.cause y.start y.stop) ++
    (match all[15]? with | some y => [ent (y.cause ||| 4) y.start lastStop] | none => [])

/-- Whether a component's measurement is in the Alias keys (R255). -/
def inAlias (c : Comp) : Bool := decide (c.id ≤ 4) || decide (c.id = 0x100)

/-- A measurement entry (R255). -/
def measureBytes (c : Comp) : Bytes :=
  leBytes 2 c.id ++ leBytes 2 (b2n (inAlias c) + 2 * b2n c.untested + 4 * b2n c.changed) ++ leBytes 4 c.svn ++
  leBytes 8 c.version ++ padTo 32 (c.digest.take 32)

/-- M (R260). CHANGED tells the capstone's reader what the period saw and is taken as 0 here, so that identical firmware gives
identical keys (log entry 31). -/
def aliasM (d : Dev) : Bytes :=
  sha3_256 (((d.comps.filter inAlias).flatMap fun c => measureBytes { c with changed := false }) ++ leBytes 1 (b2n d.untested))

/-- The secret of the DeviceID keys: of the UDS and the footing ROM's measurement only (R259). -/
def sDev (d : Dev) : Bytes :=
  kmac256 Config.uds (match d.comps.find? fun c => decide (c.id = 0x100) with | some c => padTo 32 (c.digest.take 32) | none => zeros 32)
    ("DeviceID".toList.map fun c => BitVec.ofNat 8 c.toNat) 64

/-- The secret of the Alias keys (R260). -/
def sAlias (d : Dev) : Bytes := kmac256 (sDev d) (aliasM d) ("Alias".toList.map fun c => BitVec.ofNat 8 c.toNat) 64

/-- Whether the device has Alias keys: the bridge runs, and the UDS has not been erased (R259, R261, R544). -/
def hasKeys (d : Dev) : Bool := decide (d.foot.boot = .running) && decide (d.foot.lifecycle ≠ 2)

/-- The name `Config` knows a generated key by: its algorithm (0 ECDSA P-384, 1 ML-DSA-65) and the random input of its generation, the
first 48 or the last 32 bytes of the secret (R259). -/
def keyOf (alg : Nat) (secret : Bytes) : Nat := alg + 2 * beNat (if alg = 0 then secret.take 48 else secret.drop 32)

/-- The names of the Breore manufacturing CA's keys (R259). -/
def caKey (alg : Nat) : Nat := 2 ^ 400 + alg

/-- A DER SubjectPublicKeyInfo. -/
def spkiOf (key : Nat) : Bytes := (List.range (if key % 2 = 0 then 120 else 1974)).map (Config.spkiByte key)

/-- A DER certificate of a key under another, with what it tells of its subject (R256, R259, R260). -/
def certBytes (key issuer : Nat) (tells : Bytes) : Bytes :=
  (List.range (min (Config.certLen key issuer tells) 6136)).map (Config.certByte key issuer tells)

/-- A certificate entry of R256. -/
def certEntry (c : Bytes) : Bytes := leBytes 4 c.length ++ padTo (roundUp c.length 4) c

/-- The DeviceID certificate of an algorithm: issued by the manufacturing CA, the module serial in its subject (R259). -/
def deviceCert (d : Dev) (alg : Nat) : Bytes := certBytes (keyOf alg (sDev d)) (caKey alg) ((List.range 16).map Config.serial)

/-- What the TcbInfo extension lists: DIGEST and SVN of each component with IN_ALIAS (R260). -/
def tcbInfo (d : Dev) : Bytes := (d.comps.filter inAlias).flatMap fun c => padTo 32 (c.digest.take 32) ++ leBytes 4 c.svn

/-- The Alias certificate of an algorithm: signed by the DeviceID key of the same, with the TcbInfo extension (R260). -/
def aliasCert (d : Dev) (alg : Nat) : Bytes := certBytes (keyOf alg (sAlias d)) (keyOf alg (sDev d)) (tcbInfo d)

/-- ALIAS_ID of the Alias keys of a secret (R260). -/
def aliasId (secret : Bytes) : Bytes := (sha3_256 (spkiOf (keyOf 0 secret) ++ spkiOf (keyOf 1 secret))).take 16

/-! ### The drives of a pair (R264, R419) -/

/-- A drive port. -/
def drv (d : Dev) (n : Nat) : Drv := Tbl.get (fun _ => {}) d.ledger.drvs n

/-- P, the number of mirrored pairs (R264, R419). -/
def numPairs : Variant → Nat
  | .w => 2
  | .l => 1
  | .m => 0

def drvMember (d : Dev) (n : Nat) : Bool := decide ((drv d n).st = 7)

/-- The members of a pair (R438, R439), and whether it has none (R427). -/
def members (d : Dev) (p : Nat) : List Nat := [2 * p, 2 * p + 1].filter (drvMember d)
def pairDown (d : Dev) (p : Nat) : Bool := decide (members d p = [])

/-- DEGRADED and NO_DRIVES (R264). -/
def degraded (d : Dev) : Bool := (List.range (numPairs d.variant)).any fun p => decide ((members d p).length = 1)
def noDrives (d : Dev) : Bool := (List.range (numPairs d.variant)).any fun p => pairDown d p

/-- Call for a capstone at a boundary or cut (R251): everything of its period is taken now. -/
def callCapstone (cut : Bool) (endTime last : Nat) (d : Dev) : Dev :=
  let w := d.wit
  let ss := List.range (numStrings d.variant)
  let iv := ss.flatMap (intervalsOf d)
  let merged := ss.any fun s => decide (16 < (str d s).spans.length)
  let ctrs := [wKey 0x108, wKey 0x110, wKey 0x118]
  let diff (i : Nat) : Nat := (ctrR d (ctrs.getD i 0) + 2 ^ 64 - w.capsBase.getD i 0) % 2 ^ 64
  let key := sAlias d
  let req : CapReq := {
    endTime := endTime, start := w.capStart, last := last, cut := cut,
    flags := b2n d.untested + (if w.certDue then 2 else 0) + (if w.restart then 4 else 0) + (if cut then 8 else 0) +
      (if w.gapInPeriod then 16 else 0) + (if w.halfInPeriod || oneHalf d then 32 else 0) +
      (if (match d.cal with | some c => c.version | none => 0) ≠ w.calAtStart then 64 else 0) +
      (if degraded d then 128 else 0) + (if merged then 256 else 0),
    gapFrames := diff 0, wodDrops := diff 1, orphans := diff 2, delivery := w.deliveryDrops - w.capsBase.getD 3 0,
    calHash := match d.cal with | some c => calHash c | none => zeros 32,
    calVersion := match d.cal with | some c => c.version | none => 0,
    strings := ss.flatMap (stringBlock d), intervals := iv.flatten, measures := d.comps.flatMap measureBytes,
    jstring := jString d, cert := if w.certDue then certEntry (aliasCert d 0) ++ certEntry (aliasCert d 1) else [],
    aliasId := aliasId key, aliasKey := key }
  let d := ss.foldl (fun d s => newPeriod s d) d
  let d := { d with comps := d.comps.map fun c => { c with changed := false } }
  witU (fun w => { w with
    caps := w.caps ++ [req], capStart := endTime, certDue := false, restart := false, gapInPeriod := w.gap.isSome,
    halfInPeriod := oneHalf d, calAtStart := req.calVersion,
    capsBase := [ctrR d (wKey 0x108), ctrR d (wKey 0x110), ctrR d (wKey 0x118), w.deliveryDrops] }) d

/-- A cut (R239, R251): the open ashlar closes with CUT_CLOSE and a capstone covers through it. -/
def cutAshlar (reopen : Bool) (d : Dev) : Dev :=
  match d.wit.cur with
  | none => d
  | some a => callCapstone true (jTime d) a.index (closeAshlar 4 (jTime d) (jTime d) reopen d)

/-- A full ashlar is cut (R239). -/
def cutFull (d : Dev) : Dev :=
  match d.wit.cur with
  | some a => if 2 ^ 28 - 1 ≤ a.recs.length then cutAshlar true d else d
  | none => d

end Sys2Proof.Machine
end

