-- ==== Sys2Proof/Machine/WitRec.lean ====
section
/-! DEFINITION. The witness engine's records: begun and completed, and gaps (07). -/

namespace Sys2Proof.Machine

/-- Add a complete record to the open ashlar (R235, R237), which it may fill (R239); with the journal closed meanwhile it counts as OFF (R228). `grp` 0 to 3 is a course's release and `ord` its sequence;
4 + half otherwise, in completion order. -/
def addRec (bytes : Bytes) (course : Option (Nat × Nat)) (half : Nat) (d : Dev) : Dev :=
  match d.wit.cur with
  | none => ctrInc (wKey 0x120) (witU (fun w => { w with offCount := w.offCount + 1 }) d)
  | some a =>
    let (g, o) := match course with | some (c, s) => (c, s) | none => (4 + half, d.wit.order)
    cutFull (ctrInc (wKey 0x100) (witU (fun w => { w with
      cur := some { a with recs := a.recs ++ [⟨bytes, jQ d, g, o⟩] }, order := w.order + 1 }) d))

/-- Begin a gap or episode (R248, R249). -/
def startGap (cause : Nat) (d : Dev) : Dev :=
  match d.wit.gap with
  | some _ => d
  | none =>
    let d := bitW (wKey 0x40) 30 true (witU (fun w => { w with
      gap := some ⟨jTime d, cause, effB d (wKey 0x10) 30, 0⟩, gapInPeriod := true }) d)
    postDev 0x61 (leBytes 1 1 ++ leBytes 1 cause ++ leBytes 4 0) d

/-- A record due is not written: counted in the gap and in UNWITNESSED (R248, R249). -/
def countGap (wod : Bool) (d : Dev) : Dev :=
  ctrInc (wKey (if wod then 0x110 else 0x108)) (witU (fun w => { w with
    gap := w.gap.map fun g => { g with count := g.count + 1 },
    cur := w.cur.map fun a => { a with unwitnessed := min (a.unwitnessed + 1) 0xFFFFFFFF } }) d)

/-- How a record's beginning ended. -/
inductive Begun where
  /-- Begun, with its number. -/
  | made (id : Nat)
  /-- Not written; the frame goes on. -/
  | none_
  /-- Not written under WITNESS_OR_DROP: the frame is dropped (R249). -/
  | drop
  deriving DecidableEq, Repr

/-- Begin a record in a half (R228, R247–R249); a half that has failed loses its sources' records until the boundary (R270). `ingress` frames can be dropped under WITNESS_OR_DROP. -/
def beginRec (bytes : Bytes) (src : Nat) (ingress : Bool) (d : Dev) : Begun × Dev :=
  if !(witPresent d) then (.none_, d)
  else if !(witOpen d) then (.none_, ctrInc (wKey 0x120) (witU (fun w => { w with offCount := w.offCount + 1 }) d))
  else if d.wit.failed.contains (feeds d src) then
    (.none_, ctrInc (wKey 0x128) (witU (fun w => { w with halfGap := w.halfGap.map fun g => (g.1, g.2 + 1) }) d))
  else
    let d := reclaim d
    if d.wit.gap.isNone && decide (stagedAll d < stagingCap d) then
      let id := d.wit.recSeq
      (.made id, witU (fun w => { w with recSeq := id + 1, recs := w.recs ++ [⟨id, bytes, halfOf d src, now d⟩] }) d)
    else
      let d := startGap 1 d
      let wod := ingress && (match d.wit.gap with | some g => g.wod | none => false)
      (if wod then .drop else .none_, countGap wod d)

/-- Complete a record with its final bytes (R235). -/
def completeRec (id : Nat) (f : Bytes → Bytes) (course : Option (Nat × Nat)) (d : Dev) : Dev :=
  match takeFirst (fun r => decide (r.id = id)) d.wit.recs with
  | some (r, rest) => addRec (f r.bytes) course r.half (witU (fun w => { w with recs := rest }) d)
  | none => d

/-- Complete a frame's record, if it has one. -/
def completeOpt (id : Option Nat) (f : Bytes → Bytes) (course : Option (Nat × Nat)) (d : Dev) : Dev :=
  match id with | some i => completeRec i f course d | none => d

/-- Set kind flags of an INGRESS record (R233). -/
def recKind (mask : Nat) (b : Bytes) : Bytes := patch b 16 (leBytes 4 (le b 16 4 ||| mask))

/-- Set a record's course sequence and flags (R215, R233). -/
def recSeqFlags (seq flags : Nat) (b : Bytes) : Bytes :=
  patch (patch (patch b 15 (leBytes 1 (u8 b 15 ||| 64))) 20 (leBytes 8 seq)) 30 (leBytes 2 (le b 30 2 ||| flags))

/-- Write a record that is complete when it is begun. -/
def writeRec (bytes : Bytes) (src : Nat) (d : Dev) : Bool × Dev :=
  match beginRec bytes src false d with
  | (.made id, d) => (true, completeRec id id' none d)
  | (_, d) => (false, d)
where id' (b : Bytes) : Bytes := b

/-- The frame digest (R230). -/
def digest (bs : Bytes) : Bytes := (sha3_256 bs).take 16

/-- Kind flags an INGRESS record takes from the frame (R233). -/
def frameKind (f : Frame) : Nat :=
  (if bitOf f.pflags 0 then 2 ^ 26 else 0) + (if bitOf f.pflags 5 then 2 ^ 27 else 0) + (if f.gated then 2 ^ 29 else 0) +
  (if f.gateFail then 2 ^ 30 else 0) + (if f.subst then 2 ^ 31 else 0)

/-- CLASS_WORD of a frame less its kind flags (R231). -/
def clsWord (f : Frame) : Nat := (f.session.getD 0) % 2 ^ 18 + f.cls % 64 * 2 ^ 18 + f.colour % 4 * 2 ^ 24

/-- PARSE_TRUNCATED and LEN_MISMATCH as a frame's record and its completion carry them (R158, R231, R291). -/
def parseBits (f : Frame) : Nat := (if bitOf f.pflags 2 then 32 else 0) ||| (if bitOf f.pflags 3 then 64 else 0)

/-- FLAGS of a frame's record (R231): its stamp's and course's flags, its parse flags, UNTESTED_FW. -/
def frameFlags (d : Dev) (f : Frame) : Nat :=
  f.flags % 1024 ||| parseBits f ||| untestedFlag d

/-- An INGRESS record at the tap (R232). -/
def ingressRec (d : Dev) (f : Frame) : Bytes :=
  recBytes f.stamp f.u f.str 1 f.port false f.session.isSome (clsWord f + frameKind f) 0 f.bytes.length (frameFlags d f) (digest f.bytes)

/-- An EGRESS record (R232): sent with a stamp, or DROPPED; its digest is over the frame as fetched (R230). -/
def egressRec (d : Dev) (p : TxPkt) (stamp : Option (Nat × Nat × Nat × Nat)) (portId : Nat) : Bytes :=
  let q := queue d p.fn 0 p.lq
  let data := p.data
  let w := q.globalId % 2 ^ 15 + (if stamp.isSome then 0 else 2 ^ 28)
  match stamp with
  | some (t, u, s, fl) => recBytes t u s 2 portId false false w (le p.head 16 8) data.length (fl % 1024 ||| untestedFlag d) (digest data)
  | none => recBytes 0 0xFFFF 0 2 portId false false w (le p.head 16 8) data.length (untestedFlag d) (digest data)

end Sys2Proof.Machine
end

