-- ==== Sys2Proof/Machine/Rings.lean ====
section
/-! DEFINITION. Queues, rings, doorbells, descriptors and completions (08). -/

namespace Sys2Proof.Machine

/-! ### Queue states (R297) -/

/-- Ring size of a queue. -/
def qSize (q : Queue) : Nat := 2 ^ q.sizeLog2

/-- Whether any hold cause stands. -/
def qHolds (q : Queue) : Bool := q.holdBme || q.holdFrz || q.holdOvf

/-- The ring slot after the last packet fetched whole: where the open one begins, or what has been pushed and not taken. -/
def openFirst (q : Queue) : Nat :=
  if q.asm.slots ≠ 0 then q.asm.first else (q.fetchPos + 65536 - q.asm.pushed.length) % 65536

/-- Enter HELD when a hold cause stands and the queue runs or stops (R297). A packet fetched in part is given up. -/
def qReHold (q : Queue) : Queue :=
  if qHolds q ∧ (q.st = .running ∨ q.st = .stopping) then
    { q with back := q.st, st := .held, turn := none, fetchPos := openFirst q, asm := {} } else q

/-- TX packets of a queue fetched and not completed. -/
def inflight (d : Dev) (f lq : Nat) : Nat :=
  (d.pkts.filter fun p => decide (p.fn = f) && decide (p.lq = lq) && decide (p.gen = (queue d f 0 lq).gen)).length

/-- Write DEV_IDX into a queue's record (R281, R284). -/
def writeDevIdx (f qt lq : Nat) (d : Dev) : Dev :=
  let q := queue d f qt lq
  dma f (q.recAddr + 4) (leBytes 4 q.devIdx) d

/-! ### Descriptor fields (R287) -/

/-- CTRL fields of a descriptor (R287). -/
def dKind (b : Bytes) : Nat := u8 b 10 % 4
def dEop (b : Bytes) : Bool := bitOf (u8 b 10) 2
def dTsReq (b : Bytes) : Bool := bitOf (u8 b 10) 3
def dWitness (b : Bytes) : Bool := bitOf (u8 b 10) 4
def dPtp (b : Bytes) : Nat := u8 b 10 / 32 % 4
def dTimed (b : Bytes) : Bool := bitOf (u8 b 10) 7
/-- The TARGET a packet goes to: its own, or the queue's default for 0xFFFF (R287). -/
def dTarget (q : Queue) (b : Bytes) : Nat := if le b 12 2 = 0xFFFF then q.target else le b 12 2

/-- Members in effect of a plumb group (R344). -/
def plumbMembers (d : Dev) (g : Nat) : List Nat :=
  let m := (effR d (0x800018 + 0x1000 * g)).toNat + 2 ^ 32 * (effR d (0x80001C + 0x1000 * g)).toNat
  (List.range 48).filter fun p => bitOf m p

/-- The plumb group a packet goes to; none for a port queue. -/
def plumbOf (q : Queue) (head : Bytes) : Option Nat :=
  if dTarget q head / 2 ^ 14 = 1 then some (dTarget q head % 2 ^ 6) else none

/-! ### DEV_IDX and the end of a stop (R284, R297) -/

/-- The queues of a kind of a function bound to a CQ: at most one (R280). -/
def boundTo (d : Dev) (f qt cq : Nat) : List Nat :=
  d.queues.filterMap fun e =>
    if e.1 / 65536 = f * 4 + qt ∧ e.2.st ≠ .disabled ∧ e.2.cq = cq then some (e.1 % 65536) else none

/-- Whether every completion of a queue's fetched work has been written (R299): of a TX queue no packet is in flight and no entry of its
is parked; of an RX queue DEV_IDX has reached the last descriptor used. -/
def allWritten (d : Dev) (f qt lq : Nat) : Bool :=
  let q := queue d f qt lq
  if qt = 0 then decide (inflight d f lq = 0) && !((queue d f 2 q.cq).parked.any fun e => decide (le e 14 2 / 2 ^ 14 ≠ 0))
  else decide (qt ≠ 1) || decide (q.devIdx = q.usedIdx)

/-- When the last completion of a stopping queue's work is written, it is STOPPED and QSTOP completes (R297, R299). -/
def finishStop (f qt lq : Nat) (d : Dev) : Dev :=
  let q := queue d f qt lq
  if q.st = .stopping ∧ allWritten d f qt lq = true then
    let d := queueU f qt lq (fun x => { x with st := .stopped, stopping := none, turn := none,
                                               asm := {}, fetchPos := x.devIdx, usedIdx := x.devIdx }) d
    match q.stopping with
    | some h => completeHeld h 0 0 d
    | none => d
  else d

/-- Move DEV_IDX over the packets at the front whose completions are written (R284). -/
def advanceTx : Nat → Queue → Queue
  | 0, q => q
  | n + 1, q =>
    match takeFirst (fun s => decide (s.1 = q.devIdx)) q.doneSlots with
    | some (s, rest) => advanceTx n { q with devIdx := (q.devIdx + s.2) % 65536, doneSlots := rest }
    | none => q

/-- An entry has been written to a CQ: DEV_IDX of the ring it is about follows (R284). An RX entry covers its BUFS descriptors, a
packet's last entry its slots. -/
def ringAdvance (f cq : Nat) (e : Bytes) (d : Dev) : Dev :=
  let qt := if le e 14 2 / 2 ^ 14 = 0 then 1 else 0
  match boundTo d f qt cq with
  | [] => d
  | lq :: _ =>
    let q := queue d f qt lq
    let q' := if qt = 1 then { q with devIdx := (q.devIdx + u8 e 27) % 65536 }
      else if bitOf (le e 28 2) 13 then q
      else advanceTx (q.doneSlots.length + 1) { q with doneSlots := q.doneSlots ++ [(le e 24 2, u8 e 27)] }
    let d := queueU f qt lq (fun _ => q') d
    finishStop f qt lq (if q'.devIdx = q.devIdx then d else writeDevIdx f qt lq d)

/-! ### Completion queues (R291–R293, R300–R302) -/

/-- Whether the CQ has a free slot (R279). -/
def cqRoom (q : Queue) : Bool := decide ((q.devIdx + 65536 - q.hostIdx) % 65536 + 1 < qSize q)

/-- Whether a CQ's interrupt condition holds (R302). -/
def cqCond (d : Dev) (q : Queue) : Bool :=
  decide (0 < q.pend) &&
  ((decide (q.modCount = 0) && decide (q.modTime = 0)) ||
   (decide (q.modCount ≠ 0) && decide (q.modCount ≤ q.pend)) ||
   (decide (q.modTime ≠ 0) && decide (q.pendFrom + q.modTime * 1000 ≤ now d)))

/-- Signal a CQ whose condition holds while it is armed; signalling disarms it (R302). -/
def cqSignal (f lq : Nat) (d : Dev) : Dev :=
  let q := queue d f 2 lq
  if q.armed && cqCond d q then
    signalVec f q.vector (queueU f 2 lq (fun x => { x with armed := false, pend := 0 }) d)
  else d

/-- Write one completion entry with its PHASE, then the record (R293, R284). -/
def cqWrite (f lq : Nat) (e : Bytes) (d : Dev) : Dev :=
  let q := queue d f 2 lq
  let fl := le e 28 2 % 2 ^ 15 + (if q.phase then 2 ^ 15 else 0)
  let ent := patch e 28 (leBytes 2 fl)
  let idx := (q.devIdx + 1) % 65536
  let d := dma f (q.base + 32 * (q.devIdx % qSize q)) ent d
  let d := queueU f 2 lq (fun x => { x with devIdx := idx, phase := if idx % qSize q = 0 then !x.phase else x.phase,
                                            pendFrom := if x.pend = 0 then now d else x.pendFrom, pend := x.pend + 1 }) d
  ringAdvance f lq ent (cqSignal f lq (emit (.cqe f lq ent) (writeDevIdx f 2 lq d)))

/-- CQ_OVF_LIMIT and FN_WEIGHT in effect for a function: its host port's arbiter takes a commit between two turns of its own (R316). -/
def ovfLimit (d : Dev) (f : Nat) : Nat := Word.fld (unitR d 0x900000 (fnPort f) 0x900010) 19 0
def fnWeight (d : Dev) (f : Nat) : Nat := Word.fld (unitR d 0x900000 (fnPort f) (0x901000 + 4 * f)) 7 0

/-- Free entries of the parking pool (R300). -/
def poolFree (d : Dev) : Nat := (regR d 0x900014).toNat

/-- A CQ enters OVERFLOW when its parked count or the pool's unreserved part says so (R301). -/
def cqOverflowCheck (f lq : Nat) (d : Dev) : Dev :=
  let q := queue d f 2 lq
  if q.overflow then d
  else if (ovfLimit d f ≠ 0 ∧ ovfLimit d f ≤ q.parked.length) ∨ poolFree d ≤ 262144 then
    let d := queueU f 2 lq (fun x => { x with overflow := true }) d
    let d := (boundTo d f 0 lq).foldl (fun d t => queueU f 0 t (fun x => qReHold { x with holdOvf := true }) d) d
    postEvent f 0x91 f (leBytes 2 lq ++ leBytes 1 1 ++ leBytes 4 q.parked.length) d
  else d

/-- Deliver a completion to a CQ: written, or parked behind the others (R300). -/
def cqDeliver (f lq gen : Nat) (e : Bytes) (d : Dev) : Dev :=
  let q := queue d f 2 lq
  if gen ≠ (fn d f).gen then ctrInc 0x900130 d
  else if !q.exists_ then d
  else if mayDma d f && q.parked.isEmpty && cqRoom q then cqWrite f lq e d
  else
    let d := queueU f 2 lq (fun x => { x with parked := x.parked ++ [e] }) d
    cqOverflowCheck f lq (regW 0x900014 (regR d 0x900014 - 1) (ctrInc 0x900118 d))

/-! ### Stopping (R299) -/

/-- Remove a packet's frames from the crossings and the egress queues. -/
def purgePkt (id : Nat) (d : Dev) : Dev :=
  let is (f : Frame) : Bool := decide (f.pkt = some id)
  { d with
    xings := d.xings.filter fun x =>
      match x.item with
      | .egress _ _ f => !(is f)
      | .plumb _ f => !(is f)
      | _ => true
    egqs := d.egqs.filterMap fun e =>
      let l := e.2.filter fun f => !(is f)
      if l.isEmpty then none else some (e.1, l) }

/-- Data bytes of a packet. -/
def segBytes (segs : List (Nat × Nat)) : Nat := segs.foldl (fun a s => a + s.2) 0

/-- How a TX packet or copy ended: its status, its stamp when it has one, and for a copy its error and member. -/
structure TxEnd where
  status : Nat := 0
  /-- Stamp (R17), U and string; none: not taken or not asked for. -/
  stamp : Option (Nat × Nat) := none
  str : Nat := 0
  flags : Nat := 0
  len : Nat := 0
  /-- Copy of a plumb packet: error field (R291) and member port. -/
  copy : Option (Nat × Nat) := none
  deriving DecidableEq, Repr

/-- The completion entry of a TX packet or copy (R291, R292), PHASE aside. -/
def txEntry (p : TxPkt) (e : TxEnd) (more : Bool) : Bytes :=
  let rid := le p.head 16 8
  leBytes 12 (match e.stamp with | some (t, _) => t | none => 0) ++
  leBytes 2 (match e.stamp with | some (_, u) => u | none => 0xFFFF) ++
  leBytes 2 (e.len % 2 ^ 14 + (match e.copy with | some _ => 2 | none => 1) * 2 ^ 14) ++
  (match e.copy with
   | some (err, m) => leBytes 2 err ++ leBytes 1 m ++ leBytes 1 0 ++ leBytes 4 (rid % 2 ^ 32)
   | none => leBytes 8 rid) ++
  leBytes 2 p.first ++ leBytes 1 0 ++ leBytes 1 p.slots ++
  leBytes 2 (e.flags % 2 ^ 10 + (if e.stamp.isSome then 2 ^ 11 else 0) + e.flags / 2 ^ 12 % 2 * 2 ^ 12 +
             (if more then 2 ^ 13 else 0)) ++
  leBytes 1 (e.status + e.str * 32) ++ leBytes 1 p.gen

/-- Complete a TX packet, or one copy of a plumb packet (R289, R292): exactly one completion each. With the last it is no longer in
flight (R296). -/
def txComplete (id : Nat) (e : TxEnd) (d : Dev) : Dev :=
  match d.pkts.find? fun p => decide (p.id = id) with
  | none => d
  | some p =>
    let last := decide (p.copies ≤ 1)
    let d := if last then regW 0x900018 (regR d 0x900018 - 1) { d with pkts := d.pkts.filter fun x => decide (x.id ≠ id) }
      else { d with pkts := updFirst (fun x => decide (x.id = id)) (fun x => { x with copies := x.copies - 1 }) d.pkts }
    cqDeliver p.fn (queue d p.fn 0 p.lq).cq p.gen (txEntry p e (e.copy.isSome && !last)) d

/-- The PLUMB record of a copy (R232, R356): sent with a stamp, or DROPPED. -/
def plumbRec (d : Dev) (g p err : Nat) (k : TxPkt) (stamp : Option (Nat × Nat × Nat × Nat)) : Bytes :=
  let w := g + err * 2 ^ 12 + (if stamp.isSome then 0 else 2 ^ 28)
  match stamp with
  | some (t, u, s, fl) => recBytes t u s 3 p false false w (le k.head 16 8) k.data.length (fl % 1024 ||| untestedFlag d) (digest k.data)
  | none => recBytes 0 0xFFFF 0 3 p false false w (le k.head 16 8) k.data.length (untestedFlag d) (digest k.data)

/-- WIT_EN of a plumb group in effect. -/
def plumbWit (d : Dev) (g : Nat) : Bool := effB d (0x800010 + 0x1000 * g) 30

/-- End one copy that is not sent (R353), with its PLUMB record where the packet's data was fetched. Its ERROR is free: it has none (log
entry 2). -/
def copyUnsent (pkt g p status : Nat) (wit : Bool) (d : Dev) : Dev :=
  match d.pkts.find? fun k => decide (k.id = pkt) with
  | none => d
  | some k =>
    let (n, d) := fresh d
    let d := if wit && decide (k.stage ≠ 0) then
        (writeRec (plumbRec d g p (n % 65536) k none) (egressPipe d p) d).2 else d
    txComplete pkt { status := status, copy := some (n % 65536, p), len := segBytes k.segs } d

/-- End a packet that is not sent: once, or for a plumb group once per member copy (R289, R292). A target that is not allowed is no
group. -/
def packetEnds (id status len : Nat) (d : Dev) : Dev :=
  match d.pkts.find? fun k => decide (k.id = id) with
  | none => d
  | some k =>
    match plumbOf (queue d k.fn 0 k.lq) k.head with
    | some g =>
      let ms := plumbMembers d g
      if status = 0x0B ∨ ms = [] then txComplete id { status := status, len := len } d
      else ms.foldl (fun d p => copyUnsent id g p status (plumbWit d g) d)
        { d with pkts := updFirst (fun x => decide (x.id = id)) (fun x => { x with copies := ms.length }) d.pkts }
    | none => txComplete id { status := status, len := len } d

/-- The RX completion entry (R291, R292), PHASE aside. -/
def rxEntry (f : Frame) (index bufs gen status len : Nat) : Bytes :=
  leBytes 12 f.stamp ++ leBytes 2 f.u ++ leBytes 2 (len % 2 ^ 14) ++ leBytes 8 (f.seq.getD 0) ++
  leBytes 2 index ++ leBytes 1 (f.cls % 64 + f.colour * 64) ++ leBytes 1 bufs ++
  leBytes 2 ((f.flags % 2 ^ 10 ||| parseBits f) + (if f.seq.isSome then 2 ^ 10 else 0) + 2 ^ 11) ++
  leBytes 1 (status + f.str * 32) ++ leBytes 1 gen

/-- Start stopping a queue: uncommitted TX packets, and RX descriptors fetched and unused, complete FLUSHED (R299). -/
def startStop (f qt lq : Nat) (d : Dev) : Dev :=
  let d := queueU f qt lq (fun x => { x with st := .stopping, turn := none, asm := {} }) d
  let d :=
    if qt = 0 then
      let mine := d.pkts.filter fun p => decide (p.fn = f) && decide (p.lq = lq) && decide (p.stage < 2) &&
        decide (p.gen = (queue d f 0 lq).gen)
      mine.foldl (fun d p =>
        let q := queue d f 0 lq
        let t := dTarget q p.head / 2 ^ 8 % 64
        let d := if decide (p.stage = 1) && dWitness p.head && (plumbOf q p.head).isNone then
            (writeRec (egressRec d p none t) (egressPipe d t) d).2 else d
        packetEnds p.id 1 0 (purgePkt p.id d)) d
    else if qt = 1 then
      let q := queue d f 1 lq
      let n := (q.fetchPos + 65536 - q.usedIdx) % 65536
      loopN n (fun i d => cqDeliver f q.cq q.gen (rxEntry {} ((q.usedIdx + i) % 65536) 1 q.gen 1 0) d)
        (queueU f 1 lq (fun x => { x with usedIdx := x.fetchPos }) d)
    else d
  finishStop f qt lq d

/-- Drop hold causes; a queue with none left returns to its remembered state, a pending stop then taking effect
(R297). Fetching goes on behind the packets that are in flight or complete, which DEV_IDX passes as their entries are written
(DEDUCED, log entry 71). -/
def qUnhold (f qt lq : Nat) (g : Queue → Queue) (d : Dev) : Dev :=
  let d := queueU f qt lq g d
  let q := queue d f qt lq
  if q.st = .held ∧ qHolds q = false then
    let d := queueU f qt lq (fun x => { x with st := x.back }) d
    if q.back = .running ∧ q.stopping.isSome then startStop f qt lq d
    else if q.back = .stopping then finishStop f qt lq d
    else d
  else d

/-- A completion entry with STATUS POISONED (R294, R454). -/
def asPoisoned (e : Bytes) : Bytes := patch e 30 [BitVec.ofNat 8 (u8 e 30 / 32 * 32 + 9)]

/-- Whether what is read from a DRAM region stands on a rank that was REMOVED (R454, R463): free in a DEGRADED one, since the spec
leaves the layout inside a region open (log entry 2). -/
def poisonMet (ask : Bool) (rg : Nat) (d : Dev) : Bool × Dev :=
  if ask && d.dram.degraded.contains rg then (let (n, d) := fresh d; (decide (n % 2 = 1), d)) else (false, d)

/-- The CQ's function receives UNIT_DEGRADED for a poisoned parked entry (R454): an ERROR event of that class (R566), the rest of
which no rule gives: free. -/
def poisonEvent (f : Nat) (d : Dev) : Dev :=
  let (n, d) := fresh d
  postEvent f 0xF0 f (leBytes 1 1 ++ leBytes 7 n) d

/-- Write parked completions while the CQ has room; leave OVERFLOW when none is left (R300, R301). -/
def drainCq (f lq : Nat) (d : Dev) : Dev :=
  let n := (queue d f 2 lq).parked.length
  let d := loopN n (fun _ d =>
    let q := queue d f 2 lq
    match q.parked with
    | e :: rest =>
      if mayDma d f && cqRoom q then
        let (hit, d) := poisonMet (decide (d.dram.slots.length = 1)) 2 d
        let d := if hit then poisonEvent f d else d
        cqWrite f lq (if hit then asPoisoned e else e)
          (regW 0x900014 (regR d 0x900014 + 1) (queueU f 2 lq (fun x => { x with parked := rest }) d))
      else d
    | [] => d) d
  let q := queue d f 2 lq
  if q.overflow && q.parked.isEmpty then
    let d := queueU f 2 lq (fun x => { x with overflow := false }) d
    let d := (boundTo d f 0 lq).foldl (fun d t => qUnhold f 0 t (fun x => { x with holdOvf := false }) d) d
    postEvent f 0x91 f (leBytes 2 lq ++ leBytes 1 0 ++ leBytes 4 0) d
  else d

/-! ### Errors of a queue (R297, R298) -/

/-- A TX, RX or table command queue enters ERROR, posting QUEUE_ERROR (R297, R298, R314). -/
def queueError (f qt lq cause idx : Nat) (d : Dev) : Dev :=
  let q := queue d f qt lq
  let act : QSt := if q.st = .held then q.back else q.st
  if act = .running ∨ act = .stopping then
    let d := queueU f qt lq (fun x => { x with st := .error, cause := cause, turn := none, asm := {}, stopping := none }) d
    let d := postEvent f 0x90 f (leBytes 1 qt ++ leBytes 2 lq ++ leBytes 1 cause ++ leBytes 2 idx) d
    match q.stopping with
    | some h => completeHeld h stBadState 0 d
    | none => d
  else d

/-! ### Doorbells (R282, R285, R302) -/

/-- Whether a doorbell of a function acts: the function is present and not FROZEN (R409). -/
def dbOk (d : Dev) (f : Nat) : Bool := fnPresent d f && !(fn d f).frozen && !(isFrozen d (fnPort f)) && !d.fatal

/-- A doorbell asks for the record of an existing queue to be read (R282). -/
def askRecord (f qt lq : Nat) (d : Dev) : Dev :=
  let q := queue d f qt lq
  if dbOk d f && (decide (q.st ≠ .disabled) || q.exists_) then queueU f qt lq (fun x => { x with recPending := true }) d
  else d

/-- TX_DB (R282). -/
def execTxDb (fn lq : Nat) (s : State) : Host.Outcome State Fault Refusal := lift (askRecord fn 0 lq) s

/-- RX_DB (R282). -/
def execRxDb (fn lq : Nat) (s : State) : Host.Outcome State Fault Refusal := lift (askRecord fn 1 lq) s

/-- CQ_DB (R282, R302). -/
def execCqDb (fn lq : Nat) (v : Word) (s : State) : Host.Outcome State Fault Refusal :=
  lift (fun d =>
    let d' := askRecord fn 2 lq d
    if Word.bit v 0 && dbOk d fn && (queue d fn 2 lq).exists_ then
      cqSignal fn lq (queueU fn 2 lq (fun x => { x with armed := true }) d')
    else d') s

/-- AQ_DB (R282). -/
def execAqDb (fn : Nat) (s : State) : Host.Outcome State Fault Refusal :=
  lift (fun d => if dbOk d fn && bitR d (fnKey fn 0x11C) 31 then fnU fn (fun x => { x with aqRec := true }) d else d) s

/-- EQ_DB (R282). -/
def execEqDb (fn : Nat) (v : Word) (s : State) : Host.Outcome State Fault Refusal :=
  lift (fun d =>
    if dbOk d fn && bitR d (fnKey fn 0x134) 31 then
      fnU fn (fun x => { x with eqRec := true, eqArmed := x.eqArmed || Word.bit v 0 }) d
    else d) s

/-- TCQ_DB (R313). -/
def execTcqDb (fn j : Nat) (s : State) : Host.Outcome State Fault Refusal := lift (askRecord fn 3 j) s

/-- Whether every byte of push slots 0 to COUNT − 1 has been written (R286). -/
def pushWhole (q : Queue) (n : Nat) : Bool := (List.range (32 * n)).all fun i => q.pushSeen.contains i

/-- PUSH_CTL (R286): the slots of an accepted push are descriptors fetched. -/
def execPushCtl (fn lq : Nat) (v : Word) (s : State) : Host.Outcome State Fault Refusal :=
  lift (fun d =>
    let q := queue d fn 0 lq
    if !(dbOk d fn) then d else
    let n := Word.fld v 19 16
    let idx := Word.fld v 15 0
    let ok := decide (1 ≤ n) && decide (n ≤ 8) && pushWhole q n &&
      decide ((idx + 65536 - n) % 65536 = q.fetchPos) && decide (q.st = .running) &&
      decide ((idx + 65536 - q.devIdx) % 65536 < qSize q)
    if ok then
      let slots := (List.range n).map fun j => (List.range 32).map fun b => Tbl.get (fun _ => (0 : Byte)) q.pushWin (32 * j + b)
      ctrInc 0x900108 (queueU fn 0 lq (fun x => { x with
        hostIdx := idx, fetchPos := idx, pushSeen := [], pushWin := []
        asm := { x.asm with pushed := x.asm.pushed ++ slots } }) d)
    else
      ctrInc 0x900110 (askRecord fn 0 lq (queueU fn 0 lq (fun x => { x with pushSeen := [], pushWin := [] }) d))) s

/-- A host write into a page's push window (R285, R286): one register word at byte `off` of the window. -/
def pushWrite (f lq off : Nat) (v : Word) (d : Dev) : Dev :=
  if !(dbOk d f) then d else
  queueU f 0 lq (fun x => { x with
    pushWin := (List.range 4).foldl (fun t i => Tbl.set (fun _ => (0 : Byte)) t (off + i) (BitVec.ofNat 8 (v.toNat / 256 ^ i))) x.pushWin
    pushSeen := (List.range 4).foldl (fun l i => if l.contains (off + i) then l else (off + i) :: l) x.pushSeen }) d

/-! ### Record reads (R283, R308) -/

/-- Opcodes the device knows, by the function that issues them (R305, R308). -/
def knownOpcode (op : Nat) : Bool :=
  decide (op = 1) || (decide (8 ≤ op) && decide (op ≤ 12)) || (decide (0x20 ≤ op) && decide (op ≤ 0x2A)) ||
  (decide (0x30 ≤ op) && decide (op ≤ 0x32)) || (decide (0x38 ≤ op) && decide (op ≤ 0x3A)) ||
  (decide (0x40 ≤ op) && decide (op ≤ 0x49)) || (decide (0x50 ≤ op) && decide (op ≤ 0x52)) ||
  (decide (0x60 ≤ op) && decide (op ≤ 0x66)) || decide (op = 0x70) || decide (op = 0x80) ||
  (decide (0x90 ≤ op) && decide (op ≤ 0x98)) || (decide (0xA0 ≤ op) && decide (op ≤ 0xA4)) ||
  (decide (0xB0 ≤ op) && decide (op ≤ 0xB1)) || (decide (0xC0 ≤ op) && decide (op ≤ 0xC3)) ||
  (decide (0xD0 ≤ op) && decide (op ≤ 0xD8)) || (decide (0xE0 ≤ op) && decide (op ≤ 0xE9))

/-- Take the commands from ring slot `i` up to `v`: one of an unknown opcode completes BAD_OPCODE (R308, R313); the
others are the commands that follow on the block's queue. -/
def takeCmds (f : Nat) (tcq : Option Nat) (base size from_ upto : Nat) (d : Dev) : Dev :=
  loopN ((upto + 65536 - from_) % 65536) (fun i d =>
    let idx := (from_ + i) % 65536
    let bs := dmaRead d f (base + 64 * (idx % size)) 64
    let known := match tcq with
      | none => knownOpcode (u8 bs 0)
      | some _ => decide (0x40 ≤ u8 bs 0) && decide (u8 bs 0 ≤ 0x49)
    if known then d else completeSt ⟨f, tcq, idx, bs⟩ stBadOpcode d) d

/-- A record value read for a TX, RX or table command ring (R283). -/
def takeRecord (f qt lq v : Nat) (d : Dev) : Dev :=
  let q := queue d f qt lq
  if qSize q ≤ (v + 65536 - q.devIdx) % 65536 then queueError f qt lq 4 q.devIdx d
  else if 32768 ≤ (v + 65536 - q.hostIdx) % 65536 then ctrInc 0x900100 d
  else
    let d := queueU f qt lq (fun x => { x with hostIdx := v }) d
    if qt = 1 ∧ (q.st = .running ∨ q.st = .held) then queueU f 1 lq (fun x => { x with fetchPos := v }) d
    else if qt = 3 ∧ q.st = .running then
      let d := takeCmds f (some lq) q.base (qSize q) q.devIdx v d
      writeDevIdx f 3 lq (queueU f 3 lq (fun x => { x with devIdx := v, fetchPos := v }) d)
    else d

/-- Stop the AQ or EQ on a failed record or ring access (R315). -/
def recErr (f k : Nat) (d : Dev) : Dev := bitW (fnKey f k) 31 false (bitW (fnKey f k) 1 true d)

/-- A record value read for the AQ: overrun stops it; otherwise the commands are taken (R283, R308). -/
def takeAq (f v : Nat) (d : Dev) : Dev :=
  let x := fn d f
  let size := 2 ^ fldR d (fnKey f 0x118) 4 0
  if size ≤ (v + 65536 - x.aqIdx) % 65536 then recErr f 0x11C d
  else if 32768 ≤ (v + 65536 - x.aqHost) % 65536 then ctrInc 0x900100 d
  else
    let d := takeCmds f none (reg64 d (fnKey f 0x100)) size x.aqIdx v d
    let d := fnU f (fun y => { y with aqIdx := v, aqHost := v }) d
    dma f (reg64 d (fnKey f 0x110) + 4) (leBytes 4 v) d

/-- A record value read for the EQ (R283, R304). -/
def takeEq (f v : Nat) (d : Dev) : Dev :=
  if 32768 ≤ (v + 65536 - (fn d f).eqHost) % 65536 then ctrInc 0x900100 d
  else flushEvents f (fnU f (fun y => { y with eqHost := v }) d)

/-- A record value read for a CQ (R283, R300). -/
def takeCq (f lq v : Nat) (d : Dev) : Dev :=
  if 32768 ≤ (v + 65536 - (queue d f 2 lq).hostIdx) % 65536 then ctrInc 0x900100 d
  else drainCq f lq (queueU f 2 lq (fun x => { x with hostIdx := v }) d)

/-! ### Arbitration (R295, R296, R399) -/

/-- Bandwidth of a function in Mb/s; 0xFF_FFFF is no limit (R392, R399). -/
def bwRate (d : Dev) (f : Nat) : Nat := (grant d f 9).value

/-- Refill a function's bandwidth bucket, in 1/1000 bit (R399). -/
def bwRefill (f : Nat) (d : Dev) : Dev :=
  fnU f (fun x => { x with
    bwTick := now d,
    bwLevel := min (x.bwLevel + (bwRate d f * (now d - x.bwTick) : Nat)) ((grant d f 9).aux * 8000 : Nat) }) d

/-- Whether bandwidth lets a function fetch (R399). -/
def bwOpen (d : Dev) (f : Nat) : Bool :=
  decide (bwRate d f = 0xFFFFFF) ||
  (decide (bwRate d f ≠ 0) &&
   decide (0 ≤ min ((fn d f).bwLevel + (bwRate d f * (now d - (fn d f).bwTick) : Nat)) ((grant d f 9).aux * 8000 : Nat)))

/-- Whether a TX queue has descriptors to take: posted, or pushed. -/
def hasDesc (q : Queue) : Bool := decide (q.fetchPos ≠ q.hostIdx) || !q.asm.pushed.isEmpty

/-- Whether a TX queue, or the device, is at its limit of packets in flight (R296). -/
def atLimit (d : Dev) (f lq : Nat) : Bool := decide (64 ≤ inflight d f lq) || decide (262144 ≤ (regR d 0x900018).toNat)

/-- Whether a TX queue can be given a turn (R295, R296). -/
def txEligible (d : Dev) (f lq : Nat) (q : Queue) : Bool :=
  decide (q.st = .running) && decide (q.burst ≠ 0) && decide (q.weight ≠ 0) && q.turn.isNone &&
  hasDesc q && !(atLimit d f lq)

/-- The eligible queues of a host port as (function, local number), rising. -/
def eligibles (d : Dev) (h : Nat) : List (Nat × Nat) :=
  d.queues.filterMap fun e =>
    let f := e.1 / 262144
    if e.1 / 65536 % 4 = 0 ∧ fnPort f = h ∧ mayDma d f = true ∧ fnWeight d f ≠ 0 ∧
       bwOpen d f = true ∧ txEligible d f (e.1 % 65536) e.2 = true
    then some (f, e.1 % 65536) else none

/-- The next of a rising list from `pos` on, going round. -/
def nextFrom (l : List Nat) (pos : Nat) : Nat :=
  match l.find? fun x => decide (pos ≤ x) with
  | some x => x
  | none => l.headD 0

/-- Whether a turn runs on a host port. -/
def turnOn (d : Dev) (h : Nat) : Bool :=
  d.queues.any fun e => decide (e.1 / 65536 % 4 = 0) && decide (fnPort (e.1 / 262144) = h) && e.2.turn.isSome

/-- FETCH_TURN (R295): the arbiter of host port `h` gives a turn. -/
def execFetchTurn (h : Nat) (s : State) : Host.Outcome State Fault Refusal :=
  lift (fun d =>
    let el := eligibles d h
    if turnOn d h || el.isEmpty then d else
    let fs := el.map Prod.fst
    let p := hp d h
    let (f, left) := if decide (p.outerLeft ≠ 0) && fs.contains (p.outerPos - 1) then (p.outerPos - 1, p.outerLeft)
      else (let g := nextFrom fs p.outerPos; (g, fnWeight d g))
    let qs := (el.filter fun e => decide (e.1 = f)).map Prod.snd
    let x := fn d f
    let (lq, ql) := if decide (x.innerLeft ≠ 0) && qs.contains (x.innerPos - 1) then (x.innerPos - 1, x.innerLeft)
      else (let g := nextFrom qs x.innerPos; (g, (queue d f 0 g).weight))
    let d := hpU h (fun y => { y with outerPos := f + 1, outerLeft := left - 1 }) d
    let d := fnU f (fun y => { y with innerPos := lq + 1, innerLeft := ql - 1 }) d
    queueU f 0 lq (fun y => { y with turn := some 0 }) d) s

/-! ### TX descriptors (R287–R289) -/

/-- MAX_FRAME in effect of a port's transmit direction: 0 means 16,383 (R103, R111). -/
def maxFrame (d : Dev) (p : Nat) : Nat :=
  let v := Word.fld (dirR d true p (0x200010 + 0x1000 * p)) 13 0
  if v = 0 then 16383 else v

/-- Whether a packet's target is absent or not permitted to the function (R289). -/
def badTarget (d : Dev) (f : Nat) (q : Queue) (b : Bytes) : Bool :=
  let t := dTarget q b
  (isVf f && decide (le b 12 2 ≠ 0xFFFF) && decide (le b 12 2 ≠ q.target)) ||
  (if t / 2 ^ 14 = 0 then !(portPresent d.variant (t / 2 ^ 8 % 64))
   else if t / 2 ^ 14 = 1 then isVf f || decide (64 ≤ t % 2 ^ 6) || !(bitR d (0x800040 + 0x1000 * (t % 2 ^ 6)) 31)
   else true)

/-- Defects that make a packet BAD_DESC by its HEAD (R289). -/
def badHead (q : Queue) (b : Bytes) : Bool :=
  decide (dPtp b = 3) || decide (3 ≤ u8 b 15) || (dTimed b && decide (dTarget q b / 2 ^ 14 = 0))

/-- Length as sent of a frame of `n` bytes, FCS included (R108). -/
def lenAsSent (n : Nat) : Nat := max n 60 + 4

/-- Whether a length as sent exceeds MAX_FRAME of the target port or of any member (R289). -/
def oversize (d : Dev) (t len : Nat) : Bool :=
  if t / 2 ^ 14 = 1 then (plumbMembers d (t % 2 ^ 6)).any fun p => decide (maxFrame d p < len)
  else decide (maxFrame d (t / 2 ^ 8 % 64) < len)

/-- A packet leaves assembly, its target fixed: it is counted in flight, charged to the function's bandwidth, and, if it has a defect,
completes at once (R288, R289, R296, R399). -/
def closePacket (f lq : Nat) (status : Nat) (d : Dev) : Dev :=
  let q := queue d f 0 lq
  let a := q.asm
  let head := a.head.getD (zeros 32)
  let id := d.pktSeq
  let p : TxPkt := {
    id := id, fn := f, lq := lq, gen := q.gen, first := a.first, slots := a.slots, segs := a.segs
    head := patch head 12 (leBytes 2 (dTarget q head)) }
  let d := { d with pkts := d.pkts ++ [p], pktSeq := id + 1 }
  let d := regW 0x900018 (regR d 0x900018 + 1) d
  let d := queueU f 0 lq (fun x => { x with asm := { pushed := x.asm.pushed } }) d
  let d := fnU f (fun x => { x with bwLevel := x.bwLevel - ((lenAsSent (segBytes a.segs) + 20) * 8000 : Nat) }) (bwRefill f d)
  let st := if status ≠ 0 then status
    else if a.bad ≠ 0 then a.bad
    else if badHead q head then 0x0A
    else if badTarget d f q head then 0x0B
    else if oversize d (dTarget q head) (lenAsSent (segBytes a.segs)) then 0x05
    else 0
  if st = 0 then d else packetEnds id st (segBytes a.segs) d

/-- End the turn when BURST slots are taken, no descriptor is left, or a limit is met (R295, R296). -/
def endTurn (f lq : Nat) (d : Dev) : Dev :=
  let q := queue d f 0 lq
  match q.turn with
  | none => d
  | some n =>
    let atBoundary := q.asm.head.isNone && q.asm.stack.isEmpty
    let empty := !(hasDesc q) && q.asm.stack.isEmpty
    if (atBoundary && (decide (q.burst ≤ n) || atLimit d f lq)) || empty then
      queueU f 0 lq (fun x => { x with turn := none }) d
    else d

/-- A defect found in assembly (R289): the open packet ends at its EOP and completes with the first one met. -/
def markBad (f lq st : Nat) (d : Dev) : Dev :=
  queueU f 0 lq (fun x => { x with asm := { x.asm with bad := if x.asm.bad = 0 then st else x.asm.bad } }) d

/-- A descriptor that can begin no packet completes by itself; in a list it takes what follows up to an EOP with it (R289; log entry 71). -/
def strayDesc (f lq st : Nat) (eop : Bool) (d : Dev) : Dev :=
  if eop || (queue d f 0 lq).asm.stack.isEmpty then closePacket f lq st d
  else markBad f lq st (queueU f 0 lq (fun x => { x with asm := { x.asm with head := some (zeros 32) } }) d)

/-- A HEAD before the open packet's EOP completes that one BAD_DESC and starts a new one in the slot just taken (R289). -/
def splitPacket (f lq : Nat) (d : Dev) : Dev :=
  let a := (queue d f 0 lq).asm
  let d := queueU f 0 lq (fun x => { x with asm := { x.asm with slots := x.asm.slots - 1 } }) (markBad f lq 0x0A d)
  queueU f 0 lq (fun x => { x with asm := { x.asm with first := (a.first + a.slots - 1) % 65536, slots := 1, stack := a.stack } })
    (closePacket f lq 0 d)

/-- One descriptor, from the ring or a list, in assembly (R288, R289). `b` is its 32 bytes. -/
def takeDesc (f lq : Nat) (b : Bytes) (d : Dev) : Dev :=
  let a := (queue d f 0 lq).asm
  let setA (g : TxAsm → TxAsm) (d : Dev) : Dev := queueU f 0 lq (fun x => { x with asm := g x.asm }) d
  let len := le b 8 2
  let bad (st : Nat) (d : Dev) : Dev := if a.head.isSome then markBad f lq st d else strayDesc f lq st false d
  if dKind b = 3 then bad 0x0A d
  else if dKind b = 2 then
    if len = 0 then bad 0x02 d
    else if 256 < len ∨ le b 0 8 % 32 ≠ 0 then bad 0x0A d
    else if 64 ≤ a.hops then queueError f 0 lq 1 a.first (closePacket f lq 0x03 d)
    else setA (fun x => { x with hops := x.hops + 1, stack := (le b 0 8, len) :: x.stack }) d
  else if dKind b = 1 ∧ a.head.isNone then strayDesc f lq 0x0A (dEop b) d
  else if dKind b = 1 ∧ 32 ≤ a.segs.length then queueError f 0 lq 1 a.first (closePacket f lq 0x03 d)
  else
    let d := if dKind b = 0 ∧ a.head.isSome then splitPacket f lq d else d
    let d := setA (fun x => { x with head := if x.head.isSome then x.head else some b, segs := x.segs ++ [(le b 0 8, len)] }) d
    let d := if len = 0 then markBad f lq 0x02 d else d
    if dEop b then closePacket f lq 0 d else d

/-- The descriptor whose read returns next: a list entry, a pushed slot, or a ring slot; and the queue moved past
it (R286, R288). -/
def nextDesc (d : Dev) (f : Nat) (q : Queue) : Bytes × Queue :=
  match q.asm.stack with
  | (a, n) :: rest =>
    (dmaRead d f a 32, { q with asm := { q.asm with stack := if n ≤ 1 then rest else (a + 32, n - 1) :: rest } })
  | [] =>
    let q' := { q with turn := q.turn.map (· + 1), asm := { q.asm with first := openFirst q, slots := q.asm.slots + 1 } }
    match q.asm.pushed with
    | b :: rest => (b, { q' with asm := { q'.asm with pushed := rest } })
    | [] => (dmaRead d f (q.base + 32 * (q.fetchPos % qSize q)) 32, { q' with fetchPos := (q.fetchPos + 1) % 65536 })

/-- Packets of a queue whose data has not been read are given up: they are fetched again from their slots (R372). -/
def giveUp (f lq : Nat) (d : Dev) : Dev :=
  let q := queue d f 0 lq
  let (gone, kept) := d.pkts.partition fun p => decide (p.fn = f ∧ p.lq = lq ∧ p.stage = 0 ∧ p.gen = q.gen)
  match gone.head? with
  | none => d
  | some p =>
    if q.st = .running ∨ (q.st = .held ∧ q.back = .running) then
      queueU f 0 lq (fun x => { x with fetchPos := p.first, asm := {}, turn := none })
        (regW 0x900018 (regR d 0x900018 - BitVec.ofNat 32 gone.length) { d with pkts := kept })
    else d

/-- A function may not issue DMA: a queue gives up what it has not read and is held (R372, R375). -/
def holdQueue (g : Queue → Queue) (f qt lq : Nat) (d : Dev) : Dev :=
  if qt = 2 then d else queueU f qt lq (fun q => qReHold (g q)) (if qt = 0 then giveUp f lq d else d)

/-! ### RX (R290) -/

/-- The buffers of an RX queue a frame of `n` bytes needs. -/
def rxBufs (q : Queue) (n : Nat) : Nat := ceilDiv n (2 ^ q.bufLog2)

/-- Write a frame over consecutive descriptors (R290). -/
def rxWrite (f : Nat) (q : Queue) (bs : Bytes) (d : Dev) : Dev :=
  loopN (rxBufs q bs.length) (fun i d =>
    let a := le (dmaRead d f (q.base + 16 * ((q.usedIdx + i) % 65536 % qSize q)) 16) 0 8
    dma f (a / 64 * 64) ((bs.drop (i * 2 ^ q.bufLog2)).take (2 ^ q.bufLog2)) d) d

/-- A recorded frame of a witnessed class is not delivered for a reason other than its action (R252). -/
def noteUndelivered (f : Frame) (d : Dev) : Dev :=
  if bitR d 0x600040 31 && Word.bit f.clsA 31 && f.fromFn.isNone then
    { d with wit := { d.wit with deliveryDrops := d.wit.deliveryDrops + 1 } } else d

/-- A frame that cannot be delivered after release is counted (R216). -/
def deliveryDrop (f : Frame) (d : Dev) : Dev :=
  match f.course, f.seq with
  | some c, some _ => noteUndelivered f (ctrInc (0x500000 + 0x1000 * c + 0x148) d)
  | _, _ => d

/-- An unsequenced frame lost to completion overflow or a frozen port counts as undelivered too (R252). -/
def dropUnseq (f : Frame) (d : Dev) : Dev := if f.seq.isSome then deliveryDrop f d else noteUndelivered f d

/-- Whether an RX queue takes frames: RUNNING, or HELD by a freeze that is draining (R377). -/
def rxRunning (d : Dev) (f : Nat) (q : Queue) : Bool :=
  decide (q.st = .running) ||
  (decide (q.st = .held) && decide (q.back = .running) && !q.holdBme && isDraining d (fnPort f))

/-- Deliver a frame to an RX queue (R290, R301, R372): written with its completion, or dropped and counted. -/
def rxDeliver (f lq : Nat) (fr : Frame) (d : Dev) : Dev :=
  let q := queue d f 1 lq
  let cq := queue d f 2 q.cq
  let h := fnPort f
  if !(fn d f).bme || (fn d f).d3hot then deliveryDrop fr (ctrInc (0xD00120 + 0x40 * h) d)
  else if cq.overflow then dropUnseq fr (ctrInc 0x900128 d)
  else if !(rxRunning d f q) ∨ (q.fetchPos + 65536 - q.usedIdx) % 65536 < rxBufs q fr.bytes.length ∨
      32 < rxBufs q fr.bytes.length then deliveryDrop fr (ctrInc 0x900120 d)
  else
    let n := rxBufs q fr.bytes.length
    let d := queueU f 1 lq (fun x => { x with usedIdx := (x.usedIdx + n) % 65536 }) (rxWrite f q fr.bytes d)
    cqDeliver f q.cq q.gen (rxEntry fr q.usedIdx n q.gen 0 fr.bytes.length) d

/-- MOD_TIME_EXPIRY (R302). -/
def execModTimeExpiry (fn lq : Nat) (s : State) : Host.Outcome State Fault Refusal := lift (cqSignal fn lq) s

/-! ### Function commands (R309–R312) -/

/-- The status of a creation (R309, R310), with the fields a command uses and its own checks. -/
def createStatus (d : Dev) (c : Cmd) (res qt : Nat) (used : List (Nat × Nat)) (badParam badState notGranted : Bool) : Nat :=
  let lq := c.f 18 2
  firstStatus [
    ((cmdSelf c).isNone || decide (fnKind c.fn = 1), stNotPermitted),
    (!(reservedOk c ([(18, 2), (20, 1), (24, 8), (32, 8)] ++ used)) || decide (c.f 20 1 < 6) || decide (16 < c.f 20 1) ||
      decide (c.f 24 8 % 4096 ≠ 0) || decide (c.f 32 8 % 8 ≠ 0) || badParam, stBadParam),
    (decide (grantLimit d c.fn res ≤ lq) || notGranted, stNotGranted),
    (decide ((queue d c.fn qt lq).st ≠ .disabled) || (queue d c.fn qt lq).exists_ || badState, stBadState)]

/-- A global ID of a kind not in use: the first free one from a freely chosen start (log entry 8). -/
def pickGlobal (d : Dev) (qt : Nat) : Nat × Dev :=
  let used := d.queues.filterMap fun e => if e.1 / 65536 % 4 = qt then some e.2.globalId else none
  let (x, d) := fresh d
  let size := if qt = 3 then 64 else 32768
  let rec go : Nat → Nat → Nat
    | 0, g => g
    | n + 1, g => if used.contains g then go n ((g + 1) % size) else g
  (go (used.length + 1) (x % size), d)

/-- Create a queue from a creation command (R297, R310): DEV_IDX 0 is written to the record. -/
def createQueue (c : Cmd) (qt : Nat) (q : Queue) (d : Dev) : Dev :=
  let (g, d) := pickGlobal d qt
  let lq := c.f 18 2
  -- the page's push window is no part of the queue: only a PUSH_CTL write restarts its tracking (R286)
  let old := queue d c.fn qt lq
  let q := { q with pushWin := old.pushWin, pushSeen := old.pushSeen, globalId := g, gen := (fn d c.fn).gen, sizeLog2 := c.f 20 1, base := c.f 24 8, recAddr := c.f 32 8 }
  let d := writeDevIdx c.fn qt lq (queueU c.fn qt lq (fun _ => q) d)
  complete c 0 (g + (fn d c.fn).gen * 65536) d

/-- CQ_CREATE (R309, R310). -/
def execCqCreate (c : Cmd) (s : State) : Host.Outcome State Fault Refusal :=
  lift (fun d => checked c
    (createStatus d c 3 2 [(40, 2), (44, 1), (46, 2)] (decide (4095 < c.f 46 2)) false
      (decide (grantLimit d c.fn 4 ≤ c.f 40 2)))
    (createQueue c 2 { exists_ := true, armed := true, vector := c.f 40 2, modCount := c.f 44 1, modTime := c.f 46 2 }) d) s

/-- Whether a local CQ exists and serves no queue of the kind yet (R280, R309). -/
def cqTaken (d : Dev) (f qt cq : Nat) : Bool := !(queue d f 2 cq).exists_ || !(boundTo d f qt cq).isEmpty

/-- The default TX target a VF's parent has assigned (R310, R402). -/
def vfTarget (d : Dev) (f : Nat) : Nat := le (fn d f).vfConfig 4 2

/-- TXQ_CREATE (R309, R310). -/
def execTxqCreate (c : Cmd) (s : State) : Host.Outcome State Fault Refusal :=
  lift (fun d =>
    let t := c.f 48 2
    checked c
      (createStatus d c 1 0 [(22, 2), (42, 1), (43, 1), (48, 2)]
        (decide (c.f 42 1 = 0) || decide (64 < c.f 43 1) || decide (t = 0xFFFF) ||
          (isVf c.fn && decide (t ≠ vfTarget d c.fn)) || decide (32768 ≤ t))
        (cqTaken d c.fn 0 (c.f 22 2)) (decide (grantLimit d c.fn 3 ≤ c.f 22 2)))
      (createQueue c 0 { st := .stopped, cq := c.f 22 2, weight := c.f 42 1, burst := c.f 43 1, target := t }) d) s

/-- RXQ_CREATE (R309, R310). -/
def execRxqCreate (c : Cmd) (s : State) : Host.Outcome State Fault Refusal :=
  lift (fun d => checked c
    (createStatus d c 2 1 [(21, 1), (22, 2)] (decide (c.f 21 1 < 9) || decide (14 < c.f 21 1))
      (cqTaken d c.fn 1 (c.f 22 2)) (decide (grantLimit d c.fn 3 ≤ c.f 22 2)))
    (createQueue c 1 { st := .stopped, cq := c.f 22 2, bufLog2 := c.f 21 1 }) d) s

/-- TCQ_CREATE (R309, R310, R313). -/
def execTcqCreate (c : Cmd) (s : State) : Host.Outcome State Fault Refusal :=
  lift (fun d => checked c
    (createStatus d c 5 3 [(40, 2), (52, 8)] (decide (c.f 52 8 % 4096 ≠ 0)) false
      (decide (grantLimit d c.fn 4 ≤ c.f 40 2)))
    (createQueue c 3 { st := .stopped, vector := c.f 40 2, cplBase := c.f 52 8 }) d) s

/-- The resource of a QTYPE (R392). -/
def qtRes (qt : Nat) : Nat := if qt = 3 then 5 else qt + 1

/-- The status of a command on an existing queue (R309), a PF naming its own VF included (R391). -/
def qcmdStatus (d : Dev) (c : Cmd) (used : List (Nat × Nat)) (noCq badParam : Bool) (badState : Nat → Bool)
    (notGranted : Nat → Bool := fun _ => false) : Nat :=
  let f := (cmdVf d c).getD c.fn
  let qt := c.f 16 1
  firstStatus [
    ((cmdVf d c).isNone || decide (fnKind c.fn = 1), stNotPermitted),
    (!(reservedOk c ([(16, 1), (18, 2)] ++ used)) || decide (4 ≤ qt) || (noCq && decide (qt = 2)) || badParam, stBadParam),
    (decide ((grant d f (qtRes qt)).value ≤ c.f 18 2) || notGranted f, stNotGranted),
    (badState f, stBadState)]

/-- The function a queue command acts on. -/
def qcmdFn (d : Dev) (c : Cmd) : Nat := (cmdVf d c).getD c.fn

/-- QSTART (R297, R309). -/
def execQstart (c : Cmd) (s : State) : Host.Outcome State Fault Refusal :=
  lift (fun d =>
    let qt := c.f 16 1
    let lq := c.f 18 2
    checked c (qcmdStatus d c [] true false (fun f => decide ((queue d f qt lq).st ≠ .stopped)))
      (fun d =>
        let f := qcmdFn d c
        let d := queueU f qt lq (fun x => { x with
          st := .running, fetchPos := x.devIdx, usedIdx := x.devIdx, recPending := true, turn := none, asm := {}, doneSlots := [],
          holdBme := !(fn d f).bme || (fn d f).d3hot, holdFrz := isFrozen d (fnPort f) || isDraining d (fnPort f),
          holdOvf := decide (qt = 0) && (queue d f 2 x.cq).overflow }) d
        completeSt c 0 (queueU f qt lq qReHold d)) d) s

/-- QSTOP (R297, R299). -/
def execQstop (c : Cmd) (s : State) : Host.Outcome State Fault Refusal :=
  lift (fun d =>
    let qt := c.f 16 1
    let lq := c.f 18 2
    checked c (qcmdStatus d c [] true false
        (fun f => decide ((queue d f qt lq).st = .stopped) || decide ((queue d f qt lq).st = .disabled) ||
          (queue d f qt lq).stopping.isSome))
      (fun d =>
        let f := qcmdFn d c
        let d := noteHeld c (queueU f qt lq (fun x => { x with stopping := some (hold d c) }) d)
        if (queue d f qt lq).st = .held then d else startStop f qt lq d) d) s

/-- QDESTROY (R280, R297). -/
def execQdestroy (c : Cmd) (s : State) : Host.Outcome State Fault Refusal :=
  lift (fun d =>
    let qt := c.f 16 1
    let lq := c.f 18 2
    checked c (qcmdStatus d c [] false false (fun f =>
        let q := queue d f qt lq
        if qt = 2 then !q.exists_ || !(boundTo d f 0 lq).isEmpty || !(boundTo d f 1 lq).isEmpty
        else decide (q.st ≠ .stopped) && decide (q.st ≠ .error)))
      (fun d =>
        let f := qcmdFn d c
        let n := (queue d f qt lq).parked.length
        let d := regW 0x900014 (regR d 0x900014 + BitVec.ofNat 32 n) d
        completeSt c 0 (queueU f qt lq (fun x => { pushWin := x.pushWin, pushSeen := x.pushSeen }) d)) d) s

/-- QSET (R309, R310). -/
def execQset (c : Cmd) (s : State) : Host.Outcome State Fault Refusal :=
  lift (fun d =>
    let qt := c.f 16 1
    let lq := c.f 18 2
    let m := c.f 17 1
    checked c (qcmdStatus d c [(17, 1), (40, 2), (42, 1), (43, 1), (44, 1), (46, 2)] false
        (decide (16 ≤ m) || (bitOf m 0 && decide (c.f 42 1 = 0)) || (bitOf m 1 && decide (64 < c.f 43 1)) ||
          (bitOf m 2 && decide (4095 < c.f 46 2)) || ((bitOf m 0 || bitOf m 1) && decide (qt ≠ 0)) ||
          (bitOf m 2 && decide (qt ≠ 2)) || (bitOf m 3 && decide (qt < 2)))
        (fun f => (decide ((queue d f qt lq).st = .disabled) && !(queue d f qt lq).exists_))
        (fun f => bitOf m 3 && decide (grantLimit d f 4 ≤ c.f 40 2)))
      (fun d =>
        let f := qcmdFn d c
        completeSt c 0 (queueU f qt lq (fun x => { x with
          weight := if bitOf m 0 then c.f 42 1 else x.weight
          burst := if bitOf m 1 then c.f 43 1 else x.burst
          modCount := if bitOf m 2 then c.f 44 1 else x.modCount
          modTime := if bitOf m 2 then c.f 46 2 else x.modTime
          vector := if bitOf m 3 then c.f 40 2 else x.vector }) d)) d) s

/-- STATE code of QQUERY (R311). -/
def qStCode (qt : Nat) (q : Queue) : Nat :=
  if qt = 2 then (if !q.exists_ then 0 else if q.overflow then 6 else 1)
  else match q.st with
    | .disabled => 0 | .running => 1 | .stopping => 2 | .stopped => 3 | .error => 4 | .held => 5

/-- The snapshot of QQUERY (R311). -/
def qSnapshot (d : Dev) (f qt lq : Nat) : Bytes :=
  let q := queue d f qt lq
  leBytes 1 (qStCode qt q) ++
  leBytes 1 (if q.st = .error then q.cause else if q.st = .held then b2n q.holdBme + 2 * b2n q.holdFrz + 4 * b2n q.holdOvf else 0) ++
  leBytes 2 q.globalId ++ leBytes 2 q.devIdx ++ leBytes 2 q.hostIdx ++ leBytes 2 q.fetchPos ++
  leBytes 2 (if qt = 0 then inflight d f lq else 0) ++ leBytes 4 q.parked.length ++ leBytes 1 q.gen ++ zeros 15

/-- QQUERY (R311). -/
def execQquery (c : Cmd) (s : State) : Host.Outcome State Fault Refusal :=
  lift (fun d => checked c
    (qcmdStatus d c [(24, 8)] false (decide (c.f 24 8 % 32 ≠ 0)) (fun _ => false))
    (fun d => reply c (c.f 24 8) (qSnapshot d (qcmdFn d c) (c.f 16 1) (c.f 18 2)) d) d) s

/-! ### AQ and EQ configuration (R315) -/

/-- AQ_CFG_WRITE (R315). -/
def execAqCfgWrite (fn : Nat) (v : Word) (s : State) : Host.Outcome State Fault Refusal :=
  lift (fun d =>
    if !(fnPresent d fn) || isFrozen d (fnPort fn) || d.fatal then d else
    let on := bitR d (fnKey fn 0x11C) 31
    let old := regR d (fnKey fn 0x118)
    let keep := Word.put (Word.put old 31 31 (Word.fld v 31 31)) 30 30 (Word.fld v 30 30)
    let w := if on then keep else Word.put keep 4 0 (Word.fld v 4 0)
    let d := regW (fnKey fn 0x118) w d
    if Word.bit v 31 then
      if on then fnU fn (fun x => { x with aqClosing := false }) d
      else if Word.fld v 4 0 < 6 ∨ 16 < Word.fld v 4 0 ∨ reg64 d (fnKey fn 0x100) % 4096 ≠ 0 ∨
          reg64 d (fnKey fn 0x108) % 4096 ≠ 0 ∨ reg64 d (fnKey fn 0x110) % 8 ≠ 0 then
        bitW (fnKey fn 0x118) 31 false (bitW (fnKey fn 0x11C) 0 true d)
      else
        bitW (fnKey fn 0x11C) 31 true (fnU fn (fun x => { x with
          aqIdx := 0, aqHost := 0, aqCplIdx := 0, aqPhase := true, aqRec := false, aqClosing := false }) d)
    else if on then
      if (Sys2Proof.Machine.fn d fn).aqOut = 0 then bitW (fnKey fn 0x11C) 31 false d
      else fnU fn (fun x => { x with aqClosing := true }) d
    else d) s

/-- EQ_CFG_WRITE (R315, R304). -/
def execEqCfgWrite (fn : Nat) (v : Word) (s : State) : Host.Outcome State Fault Refusal :=
  lift (fun d =>
    if !(fnPresent d fn) || isFrozen d (fnPort fn) || d.fatal then d else
    let on := bitR d (fnKey fn 0x134) 31
    let keep := Word.put (Word.put (regR d (fnKey fn 0x130)) 31 31 (Word.fld v 31 31)) 26 16 (Word.fld v 26 16)
    let w := if on then keep else Word.put keep 4 0 (Word.fld v 4 0)
    let d := regW (fnKey fn 0x130) w d
    if Word.bit v 31 then
      if on then d
      else if Word.fld v 4 0 < 6 ∨ 16 < Word.fld v 4 0 ∨ reg64 d (fnKey fn 0x120) % 4096 ≠ 0 ∨
          reg64 d (fnKey fn 0x128) % 8 ≠ 0 then
        bitW (fnKey fn 0x130) 31 false (bitW (fnKey fn 0x134) 0 true d)
      else
        bitW (fnKey fn 0x134) 31 true (fnU fn (fun x => { x with
          eqIdx := 0, eqHost := 0, eqPhase := true, eqRec := false, eqArmed := false }) d)
    else bitW (fnKey fn 0x134) 31 false d) s

end Sys2Proof.Machine
end

