-- ==== Sys2Proof/Machine/HostPort.lean ====
section
/-! DEFINITION. Host ports: holding and releasing functions, interrupts, containment freezes, links (11), and the DMA
reads of the rings that a freeze can follow. -/

namespace Sys2Proof.Machine

/-! ### Events posted at most once per second -/

/-- Key of a rate-limited event: its code and the unit it is about. -/
def rateKey (code unit : Nat) : Nat := code * 65536 + unit

/-- A rate-limited event's account. -/
def rateOf (d : Dev) (k : Nat) : Rate := Tbl.get (fun _ => {}) d.rates k

/-- Note an occurrence of a rate-limited event. -/
def rateNote (k detail : Nat) (d : Dev) : Dev :=
  { d with rates := Tbl.upd (fun _ => {}) d.rates k fun r =>
      { r with count := r.count + 1, detail := if r.count = 0 then detail else r.detail } }

/-- Whether the event may be posted now: something has occurred, and the last posting is a second past. -/
def rateDue (d : Dev) (k : Nat) : Bool :=
  decide (0 < (rateOf d k).count) &&
  (match (rateOf d k).last with | some t => decide (t + 1000000000 ≤ now d) | none => true)

/-- Start a new second of a rate-limited event. -/
def rateClear (k : Nat) (d : Dev) : Dev :=
  { d with rates := Tbl.set (fun _ => {}) d.rates k { count := 0, detail := 0, last := some (now d) } }

/-! ### Holding a function (R368, R372) -/

/-- Change every queue of the functions satisfying `p` (TX, RX and table command queues). -/
def eachQueue (p : Nat → Bool) (g : Nat → Nat → Nat → Dev → Dev) (d : Dev) : Dev :=
  d.queues.foldl (fun d e =>
    if p (e.1 / 262144) then g (e.1 / 262144) (e.1 / 65536 % 4) (e.1 % 65536) d else d) d

/-- Hold the queues of a function that may not issue DMA (R372). -/
def holdFn (f : Nat) (d : Dev) : Dev :=
  eachQueue (fun x => decide (x = f)) (fun f qt lq d =>
    holdQueue (fun q => { q with holdBme := true }) f qt lq d) d

/-- Write what waits for a function: admin completions, events and parked completions, in the order due (R372,
R377). -/
def writeWaiting (f : Nat) (d : Dev) : Dev :=
  let es := (fn d f).aqHeld
  let d := es.foldl (fun d e =>
    if mayDma d f then aqWrite f e (fnU f (fun x => { x with aqHeld := x.aqHeld.drop 1 }) d) else d) d
  let d := flushEvents f d
  eachQueue (fun x => decide (x = f)) (fun f qt lq d => if qt = 2 then drainCq f lq d else d) d

/-- Signals kept in the Pending Bit Array go out once their vector may send, and INTx is asserted if causes stand (R370, R371,
R372; PRESUMED, log entry 12). -/
def firePending (f : Nat) (d : Dev) : Dev :=
  if !(mayDma d f) then d
  else if (fn d f).msixEnable then
    let vs := (List.range (if isVf f then 64 else 2048)).filter fun v => bitR d (pbaKey f v) (v % 32) && !(Word.bit (msixWord d f v 3) 0)
    vs.foldl (fun d v => signalVec f v (bitW (pbaKey f v) (v % 32) false d)) d
  else if usesIntx d f && !(fn d f).intxOn && decide ((regR d (fnKey f 0x14)).toNat ≠ 0) then
    emit (.intx f true) (fnU f (fun x => { x with intxOn := true }) d)
  else d

/-- A function may issue DMA again: what waits is written, then its queues leave HELD (R372). -/
def resumeFn (f : Nat) (d : Dev) : Dev :=
  if !(mayDma d f) then d else
  eachQueue (fun x => decide (x = f)) (fun f qt lq d =>
    if qt = 2 then d else qUnhold f qt lq (fun q => { q with holdBme := false }) d) (firePending f (writeWaiting f d))

/-! ### Interrupt signalling (R369–R371) -/

/-- MSI_X_ENABLE (R369, R371): a configuration write changing MSI-X Enable or Interrupt Disable. -/
def execMsiXEnable (fn : Nat) (msix intxDisable : Bool) (s : State) : Host.Outcome State Fault Refusal :=
  lift (fun d =>
    if !(fnPresent d fn) then d else
    let d := fnU fn (fun x => { x with msixEnable := msix, intxDisable := intxDisable && decide (fn < 4) }) d
    let x := Sys2Proof.Machine.fn d fn
    let d :=
      if usesIntx d fn then
        if !x.intxOn && decide ((regR d (fnKey fn 0x14)).toNat ≠ 0) && !(isFrozen d (fnPort fn)) then
          emit (.intx fn true) (fnU fn (fun y => { y with intxOn := true }) d)
        else d
      else if x.intxOn then emit (.intx fn false) (fnU fn (fun y => { y with intxOn := false }) d)
      else d
    if msix || usesIntx d fn then
      x.keptSigs.foldl (fun d v => signalVec fn v d) (fnU fn (fun y => { y with keptSigs := [] }) d)
    else d) s

/-- FN_INTX_PEND_CLEAR (R371). -/
def execFnIntxPendClear (fn : Nat) (v : Word) (s : State) : Host.Outcome State Fault Refusal :=
  lift (fun d =>
    if !(fnPresent d fn) || isFrozen d (fnPort fn) || isVf fn then d else
    let w := regR d (fnKey fn 0x14) &&& ~~~ v
    let d := regW (fnKey fn 0x14) w d
    if w = 0 && (Sys2Proof.Machine.fn d fn).intxOn then
      emit (.intx fn false) (fnU fn (fun x => { x with intxOn := false }) d)
    else d) s

/-! ### Containment (R374–R379) -/

/-- A containment-class event (R374, R375): the cause bit is set; the first one freezes the port. -/
def freezePort (h cause : Nat) (hdr : List Word) (d : Dev) : Dev :=
  let k := frzStatKey h
  let was := isFrozen d h
  let d := bitW k (cause - 1) true d
  if was then d else
  let d := fldW k 7 4 cause (bitW k 30 false (bitW k 31 true d))
  let d := (List.range 4).foldl (fun d i =>
    regW (cfgKey (2 * h) (0x2E0 + 4 * i)) (if cause = 1 ∨ cause = 4 then 0 else hdr.getD i 0) d) d
  let d := regW (cfgKey (2 * h) 0x2F4) 0 d
  let d := eachQueue (fun f => decide (fnPort f = h)) (fun f qt lq d =>
    holdQueue (fun q => { q with holdFrz := true }) f qt lq d) d
  let d := postDev 0xD0 (leBytes 1 h ++ leBytes 1 cause) d
  logErr 1 (hIsland h) (0xD0 * 256 + cause) (leBytes 1 h ++ leBytes 1 cause) d

/-- CTO_PROMOTE of a host port (R380). -/
def ctoPromote (d : Dev) (h : Nat) : Bool := bitR d (cfgKey (2 * h) 0x2D8) 0

/-- AER status of a host port (R384): set an uncorrectable bit and keep the first error's header. -/
def aerUncor (h bit : Nat) (hdr : List Nat) (d : Dev) : Dev :=
  hpU h (fun p => { p with aerUncor := p.aerUncor ||| 2 ^ bit, aerHdr := if p.aerUncor = 0 then hdr else p.aerHdr }) d

/-- AER uncorrectable status bits (PRESUMED from PCI Express, log entry 13). -/
def aerSurprise : Nat := 5
def aerPoison : Nat := 12
def aerTimeout : Nat := 14
def aerUnexpCpl : Nat := 16
def aerMalformed : Nat := 18
def aerUnsupported : Nat := 20

/-- What a failed DMA read of a function's ring does before the queue's own rule: a poisoned one freezes, and a
timeout freezes with CTO_PROMOTE (R374); AER notes either (R384). Answers whether the port froze. -/
def readFailed (f : Nat) (res : ReadRes) (d : Dev) : Bool × Dev :=
  let h := fnPort f
  match res with
  | .poisoned => (true, freezePort h 3 [] (aerUncor h aerPoison [] d))
  | .timeout =>
    let d := aerUncor h aerTimeout [] d
    if ctoPromote d h then (true, freezePort h 4 [] d) else (false, d)
  | _ => (false, d)

/-- DOORBELL_RECORD_READ (R283, R308): the read of a record returns. QTYPE 0 to 3 a queue, 4 the AQ, 5 the EQ. -/
def execDoorbellRecordRead (fn qtype lq : Nat) (res : ReadRes) (s : State) : Host.Outcome State Fault Refusal :=
  lift (fun d =>
    let x := Sys2Proof.Machine.fn d fn
    let asked := if qtype = 4 then x.aqRec else if qtype = 5 then x.eqRec else (queue d fn qtype lq).recPending
    if !asked || !(mayDma d fn) || decide (6 ≤ qtype) then d else
    let d := if qtype = 4 then fnU fn (fun y => { y with aqRec := false }) d
      else if qtype = 5 then fnU fn (fun y => { y with eqRec := false }) d
      else queueU fn qtype lq (fun q => { q with recPending := false }) d
    if res = .ok then
      if qtype = 4 then takeAq fn (le (dmaRead d fn (reg64 d (fnKey fn 0x110)) 2) 0 2) d
      else if qtype = 5 then takeEq fn (le (dmaRead d fn (reg64 d (fnKey fn 0x128)) 2) 0 2) d
      else
        let v := le (dmaRead d fn (queue d fn qtype lq).recAddr 2) 0 2
        if qtype = 2 then takeCq fn lq v d else takeRecord fn qtype lq v d
    else
      let (froze, d) := readFailed fn res d
      if froze then d
      else if qtype = 4 then recErr fn 0x11C d
      else if qtype = 5 then recErr fn 0x134 d
      else if qtype = 2 then d
      else queueError fn qtype lq 5 (queue d fn qtype lq).devIdx d) s

/-- TX_DESC_FETCH (R287–R289): a descriptor or list read of a queue in its turn returns. -/
def execTxDescFetch (fn lq : Nat) (res : ReadRes) (s : State) : Host.Outcome State Fault Refusal :=
  lift (fun d =>
    let q := queue d fn 0 lq
    if q.turn.isNone || decide (q.st ≠ .running) || !(mayDma d fn) || (q.asm.stack.isEmpty && !(hasDesc q)) then d else
    let (b, q') := nextDesc d fn q
    if res = .ok then endTurn fn lq (takeDesc fn lq b (queueU fn 0 lq (fun _ => q') d))
    else
      let (froze, d) := readFailed fn res d
      if froze then d
      else
        let first := q'.asm.first
        queueError fn 0 lq 2 first (closePacket fn lq 0x08 (queueU fn 0 lq (fun _ => q') d))) s

/-- Bytes a held frame is charged (R376). -/
def holdCharge (n : Nat) : Nat := roundUp n 64 + 64

/-- HOLD_MIB of a host port (R380). -/
def holdMib (d : Dev) (h : Nat) : Nat := fldR d (cfgKey (2 * h) 0x2F8) 15 0

/-- A frame for a frozen port enters its hold area, or is dropped and counted (R376). -/
def holdFrame (h : Nat) (it : RxItem) (d : Dev) : Dev :=
  let ch := holdCharge it.frame.bytes.length
  if (hp d h).holdBytes + ch ≤ holdMib d h * 1048576 then
    hpU h (fun p => { p with hold := p.hold ++ [it], holdBytes := p.holdBytes + ch }) d
  else
    let k := cfgKey (2 * h) 0x2F4
    dropUnseq it.frame (ctrInc (0xD00118 + 0x40 * h) (regW k (regR d k + 1) d))

/-- The frames readable in the crossings to host port `h` join those bound for its RX queues, in order (R21). -/
def arriveRx (h : Nat) (d : Dev) : Dev :=
  let is (x : Xing) : Bool := decide (x.dst = hIsland h) && x.ready && (match x.item with | .rx _ _ _ => true | _ => false)
  let its := d.xings.filterMap fun x =>
    if is x then (match x.item with | .rx f lq fr => some (RxItem.mk f lq fr) | _ => none) else none
  if its.isEmpty then d else
  hpU h (fun p => { p with rx := p.rx ++ its }) { d with xings := d.xings.filter fun x => !(is x) }

/-- RX_DELIVERY (R290, R376, R377): the next frame bound for host port `h` is delivered; frozen, it is held; while
draining, the oldest held frame is delivered and the frame is held behind the others. -/
def execRxDelivery (h : Nat) (s : State) : Host.Outcome State Fault Refusal :=
  lift (fun d =>
    let d := arriveRx h d
    let p := hp d h
    if d.fatal || !(islandOn d (hIsland h)) then d
    else if isFrozen d h then
      match p.rx with
      | it :: rest => holdFrame h it (hpU h (fun y => { y with rx := rest }) d)
      | [] => d
    else if isDraining d h then
      match p.hold with
      | it :: _ =>
        let d := p.rx.foldl (fun d x => holdFrame h x d) (hpU h (fun y => { y with rx := [] }) d)
        let d := hpU h (fun y => { y with
          hold := y.hold.drop 1, holdBytes := y.holdBytes - holdCharge it.frame.bytes.length }) d
        let (hit, d) := poisonMet true 3 d
        if hit then dropUnseq it.frame (ctrInc (0xD00118 + 0x40 * h) d)
        else rxDeliver it.fn it.lq it.frame (hpU h (fun y => { y with delivered := y.delivered + 1 }) d)
      | [] =>
        match p.rx with
        | it :: rest => rxDeliver it.fn it.lq it.frame (hpU h (fun y => { y with rx := rest }) d)
        | [] => d
    else
      match p.rx with
      | it :: rest => rxDeliver it.fn it.lq it.frame (hpU h (fun y => { y with rx := rest }) d)
      | [] => d) s

/-- HOST_RELEASED (R377): the drain ends once no frame is held. -/
def execHostReleased (h : Nat) (s : State) : Host.Outcome State Fault Refusal :=
  lift (fun d =>
    let k := frzStatKey h
    if !(isDraining d h) || !(hp d h).hold.isEmpty then d else
    let d := bitW k 30 false d
    let d := eachQueue (fun f => decide (fnPort f = h)) (fun f qt lq d =>
      if qt = 2 then d else qUnhold f qt lq (fun q => { q with holdFrz := false }) d) d
    postDev 0xD1 (leBytes 1 h ++ leBytes 4 (hp d h).delivered ++ leBytes 4 (regR d (cfgKey (2 * h) 0x2F4)).toNat) d) s

/-- The configuration space of a port's functions returns to its defaults (R363, R379). -/
def cfgDefaults (f : Nat) (d : Dev) : Dev :=
  let d := { d with regs := d.regs.filter fun e => !(decide (cfgKey f 0 ≤ e.1) && decide (e.1 < cfgKey f 0x2D0)) }
  fnU f (fun x => { x with mse := false, vfMse := false, bme := false, parityResp := false, serr := false, intxDisable := false,
                           d3hot := false, msixEnable := false, maxPayload := 128, maxRead := 512, vfEnable := false,
                           numVfs := 0, intxOn := false }) d

/-- HOST_LINK (R374, R379, R388). -/
def execHostLink (h : Nat) (up surprise flit reversed : Bool) (speed width : Nat) (s : State) :
    Host.Outcome State Fault Refusal :=
  lift (fun d =>
    if decide (numHosts d.variant ≤ h) then d else
    let k := 0xD00010 + 4 * h
    if up then
      if (hp d h).perst || !(islandOn d (hIsland h)) then d else
      let d := hpU h (fun p => { p with linkUp := true, linkL0 := true, inL1 := false, l1sub := 0 }) d
      let w := Word.put (Word.put (Word.putBit (Word.putBit (Word.putBit 0 31 true) 30 flit) 29 reversed) 23 20 speed) 12 8 width
      postDev 0xD2 (leBytes 1 h ++ leBytes 1 1 ++ leBytes 1 speed ++ leBytes 1 width) (regW k w d)
    else if !(hp d h).linkUp then d
    else
      let d := regW k 0 (hpU h (fun p => { p with linkUp := false, linkL0 := false, inL1 := false }) d)
      let d := if surprise then aerUncor h aerSurprise [] (freezePort h 1 [] d) else d
      let d := if isFrozen d h then
          (([2 * h, 2 * h + 1] ++ (d.fns.map Prod.fst).filter fun f => isVf f && decide (fnPort f = h)).filter fun f => fnExists d.variant f).foldl
            (fun d f =>
              let x := fn d f
              holdFn f (fnU f (fun y => { y with vfKept := if x.vfEnable then x.numVfs else x.vfKept }) (cfgDefaults f d)))
            (hpU h (fun p => { p with aspmL1 := false }) d)
        else d
      postDev 0xD2 (leBytes 1 h ++ leBytes 1 0 ++ leBytes 1 0 ++ leBytes 1 0) d) s

/-- ASPM_L1_ENTRY (R362): an idle link whose host has enabled ASPM L1 enters L1, or returns to L0. -/
def execAspmL1Entry (h : Nat) (enter : Bool) (sub : Nat) (s : State) : Host.Outcome State Fault Refusal :=
  lift (fun d =>
    let p := hp d h
    if enter then
      if p.linkL0 && p.aspmL1 && decide (sub ≤ 2) then
        hpU h (fun y => { y with linkL0 := false, inL1 := true, l1sub := sub }) d
      else d
    else if p.inL1 then hpU h (fun y => { y with linkL0 := true, inL1 := false, l1sub := 0 }) d
    else d) s

/-- PEER_CLOSED (R383, R388). -/
def execPeerClosed (pf : Nat) (s : State) : Host.Outcome State Fault Refusal :=
  lift (fun d =>
    let k := rateKey 0xD3 pf
    if rateDue d k then postDev 0xD3 (leBytes 1 pf ++ leBytes 4 (rateOf d k).detail) (rateClear k d) else d) s

/-- COMPLETION_TIMEOUT (R283, R289, R374, R384, R406). -/
def execCompletionTimeout (fn : Nat) (k : ReadKind) (s : State) : Host.Outcome State Fault Refusal :=
  lift (fun d =>
    let h := fnPort fn
    let d := aerUncor h aerTimeout [] d
    if ctoPromote d h then freezePort h 4 [] d else
    match k with
    | .record qt lq =>
      if qt = 4 then recErr fn 0x11C (fnU fn (fun y => { y with aqRec := false }) d)
      else if qt = 5 then recErr fn 0x134 (fnU fn (fun y => { y with eqRec := false }) d)
      else if qt = 2 then queueU fn 2 lq (fun q => { q with recPending := false }) d
      else queueError fn qt lq 5 (queue d fn qt lq).devIdx (queueU fn qt lq (fun q => { q with recPending := false }) d)
    | .descriptor qt lq =>
      if qt = 0 then
        let first := (queue d fn 0 lq).asm.first
        if (queue d fn 0 lq).turn.isSome then queueError fn 0 lq 2 first (closePacket fn lq 0x08 d) else d
      else queueError fn qt lq 2 (queue d fn qt lq).devIdx d
    | .data lq =>
      match d.pkts.find? fun p => decide (p.fn = fn) && decide (p.lq = lq) && decide (p.stage = 0) with
      | some p => queueError fn 0 lq 3 p.first (packetEnds p.id 8 (segBytes p.segs) d)
      | none => d
    | .bitmap =>
      match (Sys2Proof.Machine.fn d fn).log with
      | some l =>
        if l.running then
          postEvent l.pf 0xD7 fn (leBytes 2 fn ++ leBytes 1 1 ++ leBytes 4 (ctrR d (0xD80000 + 0x40 * fn + 0x30)))
            (fnU fn (fun x => { x with log := some { l with failed := true, running := false } }) d)
        else d
      | none => d
    | .admin => recErr fn 0x11C d) s

end Sys2Proof.Machine
end

