-- ==== Sys2Proof/Machine/Stamp.lean ====
section
/-! DEFINITION. Port modes, the calibration table, and receive and transmit stamps with their uncertainty (03, 04). -/

namespace Sys2Proof.Machine

/-! ### Ports and modes (R99–R101) -/

/-- A port's record. -/
def port (d : Dev) (p : Nat) : Port := Tbl.get (fun _ => {}) d.ports p

/-- Change a port's record. -/
def portU (p : Nat) (f : Port → Port) (d : Dev) : Dev := { d with ports := Tbl.upd (fun _ => {}) d.ports p f }

/-- Key of a register of port `p`'s page. -/
def pKey (p off : Nat) : Nat := 0x200000 + p * 0x1000 + off

/-- MODE configured in effect. -/
def modeCfg (d : Dev) (p : Nat) : Nat := effF d (pKey p 0x10) 31 28
def fecCfg (d : Dev) (p : Nat) : Nat := effF d (pKey p 0x10) 27 26
/-- MODE_ACT and FEC_ACT (PORT_STAT). -/
def modeAct (d : Dev) (p : Nat) : Nat := fldR d (pKey p 0x40) 31 28
def fecAct (d : Dev) (p : Nat) : Nat := fldR d (pKey p 0x40) 27 26
/-- LSTATE: 0 DISABLED, 1 NEGOTIATE, 2 TRAIN, 3 ALIGN, 4 UP, 5 HOLD_DOWN, 6 LOOP. -/
def lstate (d : Dev) (p : Nat) : Nat := fldR d (pKey p 0x40) 2 0

/-- Lanes of a mode (R100). -/
def modeLanes (m : Nat) : Nat := if m = 6 then 2 else if m = 7 then 4 else if m = 8 then 8 else if m = 0 then 0 else 1

/-- Whether a FEC is allowed for a mode (R100). -/
def fecAllowed (m f : Nat) : Bool :=
  if m = 1 then decide (f = 0) else if m = 2 then decide (f ≤ 2) else decide (f = 2)

/-- MAC rate of a mode in Gb/s. -/
def modeRate (m : Nat) : Nat := [0, 10, 25, 50, 100, 200, 400, 800, 1600].getD m 0

/-- Whether a port's lane lies inside a wider port's span (R101). -/
def subsumed (d : Dev) (p : Nat) : Bool :=
  decide (p < 16) && (List.range p).any fun b => decide (b + modeLanes (modeCfg d b) > p) && decide (1 < modeLanes (modeCfg d b))

/-- The port islands a port needs (R102). -/
def portIslands (d : Dev) (p : Nat) : List Nat :=
  if modeCfg d p = 8 then [portIsland p, portIsland p + 1] else [portIsland p]

/-- FRET_VALID of a port island (R30). -/
def fretValid (d : Dev) (n : Nat) : Bool := islandOn d n && bitR d (0x400 + 4 * n) 0

/-- FRET_ALARM of an island (R29). -/
def fretAlarm (d : Dev) (n : Nat) : Bool := bitR d (0x400 + 4 * n) 1

/-! ### Entries in effect (R137–R144) -/

/-- The entry in effect for a port's mode and FEC in a direction (R137, R144): zeros while no table is in effect. -/
def entryOf (d : Dev) (p : Nat) (tx : Bool) : Bytes :=
  let s := calSlot (modeAct d p) (fecAct d p)
  match ((if tx then (port d p).oldTx else (port d p).oldRx).find? fun e => decide (e.1 = s)) with
  | some e => e.2
  | none => match d.cal with
    | some c => if modeAct d p = 0 then zeros 32 else calEntry c (8 * p + s)
    | none => zeros 32

def entValid (e : Bytes) : Bool := bitOf (u8 e 24) 0
def entRx (e : Bytes) : Nat := le e 0 4
def entTx (e : Bytes) : Nat := le e 4 4
def entAsym (e : Bytes) : Int := toSigned 32 (le e 8 4)
def entU (e : Bytes) : Nat := le e 12 4
def entD (e : Bytes) : Nat := le e 16 4
def entNe (e : Bytes) : Int := toSigned 32 (le e 20 4)

/-- SLOT_ACT and ENTRY_MISSING of a port follow its mode and the table (R143). -/
def calPortStat (p : Nat) (d : Dev) : Dev :=
  let k := 0xF00100 + 4 * p
  let miss := decide (modeAct d p ≠ 0) && !(entValid (entryOf d p false) && entValid (entryOf d p true))
  bitW k 6 miss (fldW k 2 0 (if modeAct d p = 0 then 0 else calSlot (modeAct d p) (fecAct d p)) d)

/-! ### Position terms (R121) and local terms (R127, R129) -/

/-- t_fec of a mode and FEC as a fraction of ns. -/
def tFec (m f : Nat) : Nat × Nat :=
  if m = 2 then (if f = 1 then (32, 825) else if f = 2 then (320, 825) else (0, 1))
  else if m = 3 then (80, 425) else if m = 4 then (40, 425) else if m = 5 then (20, 425)
  else if m = 6 then (10, 425) else if m = 7 then (5, 425) else if m = 8 then (5, 850) else (0, 1)

/-- `q` FEC symbols in Q16 ns, rounded to nearest, halves up (R121). -/
def fecTerm (m f q : Nat) : Nat :=
  let (n, k) := tFec m f
  (2 * q * n * 65536 + k) / (2 * k)

/-- u_quant of a mode in Q16 ns (R129). -/
def uQuant (m : Nat) : Nat := if m = 1 then 20480 else if m = 2 then 16384 else if m = 3 then 12288 else if m = 4 then 8192 else 4096

/-- Local stamp terms of a port: u_fret + U_CAL + u_quant (R127). -/
def localTerms (d : Dev) (p : Nat) (tx : Bool) : Nat := 16384 + entU (entryOf d p tx) + uQuant (modeAct d p)

/-- U of a sum in Q16 ns (R128). -/
def encodeU (q : Nat) : Nat := let n := ceilDiv q 4096; if 4000 * 65536 ≤ q ∨ 0xFA00 ≤ n then 0xFFFF else n

/-- Whether an encoded U exceeds a string's COMPLIANCE_LIMIT (R126). -/
def uOver (d : Dev) (s u : Nat) : Bool :=
  decide (compliance d s ≠ 0) && (decide (u = 0xFFFF) || decide (compliance d s < u * 4096))

/-- The flags DRONE (bit 7) and OUT_OF_BOUND (bit 4) of a reading of a string in an island with the given U, and
whether only the last case of R126 set the latter. The string's state and u_string are those of the island's own replica
(R26, R31, R67, R71). -/
def stampFlags (d : Dev) (s island u : Nat) (calBad : Bool) : Nat × Bool :=
  let x := rep d island s
  let hard := outOfBound d s x.u || fretAlarm d island || calBad
  ((if x.st = .drone then 128 else 0) + (if hard || uOver d s u then 16 else 0), !hard && uOver d s u)

/-- Whether a port's entry makes its stamps 0xFFFF (R142, R143). -/
def calBad (d : Dev) (p : Nat) (tx : Bool) : Bool := d.cal.isNone || !(entValid (entryOf d p tx))

/-- U of a stamp on port `p` (R127, R128). -/
def stampU (d : Dev) (p s : Nat) (tx : Bool) : Nat :=
  let us := (rep d (portIsland p) s).u
  if us = 0xFFFFFFFF ∨ fretAlarm d (portIsland p) = true ∨ calBad d p tx = true then 0xFFFF
  else encodeU (us + localTerms d p tx)

/-- U of a reading without a port: u_string + 0.25 ns (R234). -/
def tapU (d : Dev) (s island : Nat) : Nat :=
  let us := (rep d island s).u
  if us = 0xFFFFFFFF ∨ fretAlarm d island = true then 0xFFFF else encodeU (us + 16384)

/-- Time of string `s` in Q16 ns on island `n`'s fret or time tap, `sub` sixteenths of a nanosecond after the tick (R31). -/
def repQ (d : Dev) (n s sub : Nat) : Nat := toQ (rep d n s).t + (rep d n s).incr * (sub % 16) / 16 / 2 ^ 32

/-- A Q16 ns time as the R17 number, of an integer. -/
def iR17 (q : Int) : Nat := qR17 (q % (secUnit * 2 ^ 16 : Nat)).toNat

/-- Q16 ns of an R17 time. -/
def r17Q (t : Nat) : Nat := toQ (ofR17 t)

/-- A link-up term register (signed Q16 ns). -/
def linkTerm (d : Dev) (tx : Bool) (p : Nat) : Int := toSigned 32 (regR d ((if tx then 0xF00300 else 0xF00200) + 4 * p)).toNat

/-- The receive stamp of port `p` on string `s` under an entry (R119): the codeword seen `sub`/16 ns after the tick, with `q` FEC
symbols after the start symbol. -/
def rxStampE (e : Bytes) (d : Dev) (p s sub q : Nat) : Int :=
  (repQ d (portIsland p) s sub : Int) - entRx e - linkTerm d false p - fecTerm (modeAct d p) (fecAct d p) q
def rxStampQ (d : Dev) (p s sub q : Nat) : Int := rxStampE (entryOf d p false) d p s sub q

/-- The latch of a string at a receive stamp (R123). -/
def rxLatch (d : Dev) (p sub q s : Nat) : Latch :=
  let u := stampU d p s false
  let fl := stampFlags d s (portIsland p) u (calBad d p false)
  ⟨iR17 (rxStampQ d p s sub q), u, fl.1, (str d s).jumps % 4, fl.2⟩

/-- Keep the latch of a frame's string (R123, R124); a stamp flagged only by its own U is counted (R126). -/
def keepLatch (s : Nat) (f : Frame) (d : Dev) : Frame × Dev :=
  let s' := if strPresent d s then s else 0
  let l := f.latches.getD s' {}
  let d := if s' = s then d else bitW (0xF00100 + 4 * f.port) 7 true d
  let d := if l.own then regW (0xF00400 + 4 * f.port) (regR d (0xF00400 + 4 * f.port) + 1) d else d
  ({ f with stamp := l.stamp, u := l.u, flags := l.flags, str := s', ep := l.ep, subst := decide (s' ≠ s), latches := [] }, d)

/-- The transmit stamp of port `p` on string `s` when the start symbol enters the PCS at `tL` (Q16 ns) with `a` marker
and parity symbols before it (R120). -/
def txStampQ (d : Dev) (p : Nat) (tL : Int) (a : Nat) : Int :=
  tL + entTx (entryOf d p true) + linkTerm d true p + fecTerm (modeAct d p) (fecAct d p) a

/-- U and flags of a transmit stamp, counting CAL_PORT_OOB (R126, R127). -/
def txStampUF (p s : Nat) (d : Dev) : Nat × Nat × Dev :=
  let u := stampU d p s true
  let (fl, only) := stampFlags d s (portIsland p) u (calBad d p true)
  (u, fl, if only then regW (0xF00400 + 4 * p) (regR d (0xF00400 + 4 * p) + 1) d else d)

/-- The string of a transmit stamp (R125, R124). -/
def txString (p s : Nat) (d : Dev) : Nat × Dev :=
  if strPresent d s then (s, d) else (0, bitW (0xF00100 + 4 * p) 7 true d)

/-- STRING of a port's page, in effect in the transmit and in the receive direction (R111). -/
def portString (d : Dev) (p : Nat) : Nat := dirF d true p (pKey p 0x10) 22 20
def rxString (d : Dev) (p : Nat) : Nat := dirF d false p (pKey p 0x10) 22 20

/-- Sum of the steps applied to a string after tick `a` and up to tick `b`, in Q16 ns (R135). -/
def stepsBetween (d : Dev) (s a b : Nat) : Int :=
  ((str d s).stepLog.filter fun e => decide (a < e.1) && decide (e.1 ≤ b)).foldl (fun n e => n + e.2) 0

end Sys2Proof.Machine
end

