-- ==== Sys2Proof/Machine/Ledger.lean ====
section
/-! DEFINITION. The ledger's volume and drive ports (13): labels, slab maps, mirroring, the write buffer and the drive
commands. -/

namespace Sys2Proof.Machine
open Sys2Proof

/-! ### Access to the ledger's state -/

/-- Change the ledger. -/
def ledU (f : Ledger → Ledger) (d : Dev) : Dev := { d with ledger := f d.ledger }

def drvU (n : Nat) (f : Drv → Drv) (d : Dev) : Dev :=
  ledU (fun l => { l with drvs := Tbl.upd (fun _ => {}) l.drvs n f }) d

/-- A pair's slab map. -/
def pairMap (d : Dev) (p : Nat) : PairMap := Tbl.get (fun _ => {}) d.ledger.maps p

def pairMapW (p : Nat) (m : PairMap) (d : Dev) : Dev :=
  ledU (fun l => { l with maps := Tbl.set (fun _ => {}) l.maps p m }) d

/-- The other drive port of a pair. -/
def partner (n : Nat) : Nat := if n % 2 = 0 then n + 1 else n - 1

/-- The drives a pair's writes go to (R438, R439). -/
def targets (d : Dev) (p : Nat) : List Nat :=
  [2 * p, 2 * p + 1].filter fun n => drvMember d n || decide ((drv d n).st = 6)

/-- Key of drive port `n`'s counter at an offset (R444). -/
def drvCtr (n off : Nat) : Nat := 0xC01000 + 0x40 * n + off

/-- LBAs of a slab. -/
def slabLbas : Nat := 262144

/-! ### What a drive holds -/

/-- Whether an LBA lies in a range that reads 0. -/
def inRanges (rs : List (Nat × Nat)) (l : Nat) : Bool := rs.any fun r => decide (r.1 ≤ l ∧ l < r.1 + r.2)

/-- Ranges less one LBA. -/
def cutRanges (l : Nat) (rs : List (Nat × Nat)) : List (Nat × Nat) :=
  rs.flatMap fun r =>
    if r.1 ≤ l ∧ l < r.1 + r.2 then [(r.1, l - r.1), (l + 1, r.1 + r.2 - (l + 1))].filter fun x => decide (0 < x.2)
    else [r]

/-- Bytes of one LBA of a drive. -/
def drvRead (d : Dev) (n lba off len : Nat) : Bytes :=
  if inRanges (drv d n).zero lba then zeros len else rd d (spc d (driveSpace n)) (4096 * lba + off) len

/-- Write one LBA of a drive. -/
def drvWrite (n lba : Nat) (bs : Bytes) (d : Dev) : Dev :=
  let d := drvU n (fun x => { x with zero := cutRanges lba x.zero, unread := x.unread.filter (· ≠ lba) }) d
  wrt (spc d (driveSpace n)) (4096 * lba) (padTo 4096 bs) d

/-- A range of a drive's LBAs reads 0 from now on. -/
def drvZero (n lba count : Nat) (d : Dev) : Dev :=
  drvU n (fun x => { x with zero := (lba, count) :: x.zero,
                            unread := x.unread.filter fun l => decide (l < lba ∨ lba + count ≤ l) }) d

/-- Mark an LBA of a drive unreadable (Write Uncorrectable). -/
def drvMark (n lba : Nat) (d : Dev) : Dev := drvU n (fun x => { x with unread := lba :: x.unread.filter (· ≠ lba) }) d

/-- A drive label (R423). -/
def labelBytes (d : Dev) (n slabs : Nat) : Bytes :=
  let b := leBytes 4 0x424C4442 ++ leBytes 2 1 ++ zeros 2 ++ (List.range 16).map Config.serial ++
    padTo 16 d.ledger.volume ++ leBytes 1 (n / 2) ++ leBytes 1 (n % 2) ++ zeros 2 ++
    leBytes 8 (d.ledger.epochs.getD (n / 2) 0) ++ leBytes 4 slabs ++ zeros 4
  b ++ leBytes 4 (crc32c b)

/-- The label of a drive: the first of its two copies that reads and verifies, whoever made it. -/
def readLabel (d : Dev) (n : Nat) : Option Bytes :=
  ([0, 1].filterMap fun l =>
    let b := drvRead d n l 0 64
    if !((drv d n).unread.contains l) && decide (le b 0 4 = 0x424C4442) && decide (le b 4 2 = 1) &&
        decide (le b 60 4 = crc32c (b.take 60)) then some b else none).head?

/-- Whether a label is of this module and its volume. -/
def ourLabel (d : Dev) (b : Bytes) : Bool :=
  decide (d.ledger.volume ≠ []) && decide (slice b 8 16 = (List.range 16).map Config.serial) &&
  decide (slice b 24 16 = padTo 16 d.ledger.volume)

/-- Write both labels of a drive. -/
def writeLabel (n : Nat) (d : Dev) : Dev :=
  let b := labelBytes d n (pairMap d (n / 2)).slabs
  drvWrite n 1 b (drvWrite n 0 b d)

/-- An entry of a slab map (R423). -/
def mapEntry (ns j : Nat) : Bytes := leBytes 1 ns ++ zeros 3 ++ leBytes 4 j

/-- Write a pair's slab map on a drive. -/
def writeMap (n : Nat) (d : Dev) : Dev :=
  let used := (pairMap d (n / 2)).used
  let d := drvZero n 2 254 d
  ((used.map fun u => u.1 / 512).dedup).foldl (fun d l =>
    drvWrite n (2 + l) ((List.range 512).flatMap fun i =>
      match used.find? fun u => decide (u.1 = 512 * l + i) with
      | some u => mapEntry u.2.1 u.2.2
      | none => zeros 8) d) d

/-- The slab map a drive holds, under the S of its label. -/
def readMap (d : Dev) (n slabs : Nat) : PairMap :=
  ⟨slabs, (List.range slabs).filterMap fun s =>
    let e := drvRead d n (2 + s / 512) (8 * (s % 512)) 8
    if u8 e 0 = 0 then none else some (s, u8 e 0, le e 4 4)⟩

/-! ### Namespaces (R419–R422) -/

/-- Slabs a namespace has in a pair. -/
def slabsOf (d : Dev) (ns p : Nat) : Nat := ((pairMap d p).used.filter fun u => decide (u.2.1 = ns)).length

/-- A namespace's slabs in each pair, as far as the pairs' maps are known. -/
def nsSlabs (d : Dev) (ns : Nat) : Nat := (List.range (numPairs d.variant)).foldl (fun (a : Nat) p => max a (slabsOf d ns p)) 0

/-- Whether a namespace exists, and its size in LBAs. -/
def nsExists (d : Dev) (ns : Nat) : Bool := decide (0 < nsSlabs d ns)
def nsSize (d : Dev) (ns : Nat) : Nat := nsSlabs d ns * numPairs d.variant * slabLbas

/-- Whether a namespace is attached to the controller of `pf`: the journal always is. -/
def nsAttached (d : Dev) (pf ns : Nat) : Bool :=
  nsExists d ns && (decide (ns = 1) || bitOf (Tbl.get (fun _ => 0) d.ledger.attach ns) (pf / 2))

/-- The pair of an LBA (R422). -/
def lbaPair (d : Dev) (a : Nat) : Nat := a / 256 % numPairs d.variant

/-- The drive LBA of an LBA of a namespace (R422). -/
def driveLba (d : Dev) (ns a : Nat) : Option Nat :=
  let k := a / 256 / numPairs d.variant
  ((pairMap d (lbaPair d a)).used.find? fun u => decide (u.2.1 = ns ∧ u.2.2 = k / 1024)).map fun u =>
    256 + slabLbas * u.1 + 256 * (k % 1024) + a % 256

/-- Read an LBA of a namespace from its pair (R439, R440): members in `fails` were tried and did not deliver; those, and
one tried first that holds the LBA marked unreadable, are rewritten from the other. Nothing: no member could be read. -/
def pairRead (fails : List (Nat × Nat)) (ns a : Nat) (d : Dev) : Option Bytes × Dev :=
  match driveLba d ns a with
  | none => (some (zeros 4096), d)
  | some l =>
    let ms := members d (lbaPair d a)
    let bad := fun n => fails.contains (n, l) || (drv d n).unread.contains l
    match ms.find? fun n => !(bad n) with
    | none => (none, d)
    | some good =>
      let data := drvRead d good l 0 4096
      let tried := ms.filter fun n => bad n && (fails.contains (n, l) || decide (n < good))
      let d := ctrInc (drvCtr good 8) d
      (some data, tried.foldl (fun d n => ctrInc (drvCtr n 0x10) (ctrInc (drvCtr n 0) (drvWrite n l data d))) d)

/-- Write an LBA of a namespace to every drive its pair is written on (R264, R439). -/
def pairWrite (ns a : Nat) (bs : Bytes) (d : Dev) : Dev :=
  match driveLba d ns a with
  | none => d
  | some l => (targets d (lbaPair d a)).foldl (fun d n => ctrInc (drvCtr n 0) (drvWrite n l bs d)) d

/-- Make a range of LBAs of a namespace read 0: LBAs `a` to `a + n − 1`, by runs within a chunk. -/
def pairZero (ns : Nat) : Nat → Nat → Nat → Dev → Dev
  | 0, _, _, d => d
  | fuel + 1, a, n, d =>
    if n = 0 then d
    else
      let k := min n (256 - a % 256)
      let d := match driveLba d ns a with
        | none => d
        | some l => (targets d (lbaPair d a)).foldl (fun d t => drvZero t l k d) d
      pairZero ns fuel (a + k) (n - k) d

/-- Slabs `n` free slabs of a pair, from a place the device chooses (log entry 2). -/
def pickSlabs (m : PairMap) (start n : Nat) : List Nat :=
  let free := (List.range m.slabs).filter fun s => !(m.used.any fun u => decide (u.1 = s))
  (free.rotateLeft (start % (free.length + 1))).take n

/-- Give a namespace slabs 0 to `n` − 1 in a pair, which then read 0, and write the map (R420). -/
def allocSlabs (ns n p : Nat) (d : Dev) : Dev :=
  let (v, d) := fresh d
  let m := pairMap d p
  let got := pickSlabs m v n
  let used := (m.used ++ got.zipIdx.map fun (x : Nat × Nat) => (x.1, ns, x.2)).foldr (insertBy fun a b => decide (a.1 ≤ b.1)) []
  let d := pairMapW p { m with used := used } d
  (targets d p).foldl (fun d t => writeMap t (got.foldl (fun d s => drvZero t (256 + slabLbas * s) slabLbas d) d)) d

/-- Free a namespace's slabs in a pair. -/
def freeSlabs (ns p : Nat) (d : Dev) : Dev :=
  let m := pairMap d p
  let d := pairMapW p { m with used := m.used.filter fun u => decide (u.2.1 ≠ ns) } d
  (targets d p).foldl (fun d t => writeMap t d) d

/-- Free slabs of a pair. -/
def freeCount (d : Dev) (p : Nat) : Nat := (pairMap d p).slabs - (pairMap d p).used.length

/-! ### The drive port states (R438, R442) -/

/-- Move a drive port to a state: DRIVE_STATE is posted, and JOURNAL_DEGRADED when its pair's members grew fewer or
became two. DPERST_N is asserted in EMPTY and RELEASED. -/
def drvState (n new cause : Nat) (d : Dev) : Dev :=
  let p := n / 2
  let old := (drv d n).st
  let had := (members d p).length
  let d := drvU n (fun x => { x with st := new, since := now d, released := x.released && !([0, 9].contains new),
                                     up := x.up && !([0, 1, 9].contains new) }) d
  let d := if [0, 9].contains new && !([0, 9].contains old) then emit (.pin (pinDperst n) false) d else d
  let d := postDev 0xC8 [BitVec.ofNat 8 n, BitVec.ofNat 8 old, BitVec.ofNat 8 new, BitVec.ofNat 8 cause] d
  let has := (members d p).length
  if has < had then postDev 0x65 [BitVec.ofNat 8 p, 1] d
  else if has = 2 ∧ had < 2 then postDev 0x65 [BitVec.ofNat 8 p, 0] d
  else d

/-- The pair's epoch advances: in the flash, and in the labels of its members (R424). -/
def nextEpoch (p : Nat) (d : Dev) : Dev :=
  let d := ledU (fun l => { l with epochs := updAt (· + 1) l.epochs p }) d
  (members d p).foldl (fun d n => writeLabel n d) d

/-- A member or rebuilding drive leaves its pair for a state (R424, R438): a drive being rebuilt from it has no source
left and fails too. `lost` ends the commands that need a pair left with no member. -/
def leavePair (lost : Nat → Dev → Dev) (n new cause : Nat) (d : Dev) : Dev :=
  let p := n / 2
  let was := drvMember d n
  let d := nextEpoch p (drvState n new cause d)
  let d := if was && decide ((drv d (partner n)).st = 6) then drvState (partner n) 8 2 d else d
  if was && pairDown d p then lost p (postDev 0xCA [BitVec.ofNat 8 p, 0] d) else d

/-- Leave whatever state for another: a member or rebuilding drive leaves its pair. -/
def drvLeave (lost : Nat → Dev → Dev) (n new cause : Nat) (d : Dev) : Dev :=
  if drvMember d n || decide ((drv d n).st = 6) then leavePair lost n new cause d else drvState n new cause d

/-- A cause the spec does not give (R442). -/
def freeCause (d : Dev) : Nat × Dev :=
  let (v, d) := fresh d
  (v % 6, d)

/-- A drive becomes a member with no partner: what it holds is the pair's (R438). -/
def adoptMap (n : Nat) (d : Dev) : Dev :=
  match readLabel d n with
  | some b => pairMapW (n / 2) (readMap d n (le b 52 4)) d
  | none => d

/-- A drive starts to be rebuilt: it gets the label and the map (R439). -/
def startRebuild (n cause : Nat) (d : Dev) : Dev :=
  let d := drvState n 6 cause (drvU n (fun x => { x with rebuilt := 0, marked := 0 }) d)
  writeMap n (writeLabel n d)

/-! ### The write buffer (R426, R428) -/

/-- LBAs the write buffer holds in all. -/
def wbufCap (d : Dev) : Nat := effF d 0xC00010 7 0 * slabLbas

/-- The latest completed buffered data of an LBA. -/
def wbufFind (d : Dev) (ns a : Nat) : Option WEnt :=
  d.ledger.wbuf.reverse.find? fun e => decide (e.nsid = ns ∧ e.lba = a) && e.done

/-- Drop buffered LBAs; the ids of the others stay waited for. -/
def wbufDrop (p : WEnt → Bool) (d : Dev) : Dev := ledU (fun l => { l with wbuf := l.wbuf.filter fun e => !(p e) }) d

/-- The journal's LBAs, for the journal writer (R262, R264). -/
def jRead (fails : List (Nat × Nat)) (a : Nat) (d : Dev) : Option Bytes × Dev := pairRead fails 1 a d
def jWrite (a : Nat) (bs : Bytes) (d : Dev) : Dev := pairWrite 1 a bs d

end Sys2Proof.Machine
end

