-- ==== Sys2Proof/Machine/Nvme.lean ====
section
/-! DEFINITION. The ledger controllers (13): NVMe queues and commands. Layouts and status codes the spec takes from the
NVM Express specifications are PRESUMED (log entry 50). -/

namespace Sys2Proof.Machine
open Sys2Proof

/-! ### Controllers and their queues -/

/-- The controller of PF1 or PF3. -/
def ctrl (d : Dev) (pf : Nat) : Ctrl := Tbl.get (fun _ => {}) d.ledger.ctrls pf

def ctrlU (pf : Nat) (f : Ctrl → Ctrl) (d : Dev) : Dev :=
  ledU (fun l => { l with ctrls := Tbl.upd (fun _ => {}) l.ctrls pf f }) d

/-- Keys of CC and CSTS. -/
def ccKey (pf : Nat) : Nat := fnKey pf 0x2014
def cstsKey (pf : Nat) : Nat := fnKey pf 0x201C

/-- The two ledger PFs. -/
def isLedgerPf (pf : Nat) : Bool := decide (pf = 1) || decide (pf = 3)

/-- Whether a controller works commands: enabled and ready, no fatal status, its island on. -/
def ctrlReady (d : Dev) (pf : Nat) : Bool :=
  isLedgerPf pf && bitR d (cstsKey pf) 0 && !(bitR d (cstsKey pf) 1) && islandOn d 48

def nsq (d : Dev) (pf y : Nat) : Option NSq := Tbl.get (fun _ => none) (ctrl d pf).sqs y
def ncq (d : Dev) (pf y : Nat) : Option NCq := Tbl.get (fun _ => none) (ctrl d pf).cqs y

def nsqW (pf y : Nat) (v : Option NSq) (d : Dev) : Dev :=
  ctrlU pf (fun c => { c with sqs := Tbl.set (fun _ => none) c.sqs y v }) d

def ncqW (pf y : Nat) (v : Option NCq) (d : Dev) : Dev :=
  ctrlU pf (fun c => { c with cqs := Tbl.set (fun _ => none) c.cqs y v }) d

/-- A dword of a command, and its other fields. -/
def cdw (q : NCmd) (i : Nat) : Nat := le q.bytes (4 * i) 4
def nOp (q : NCmd) : Nat := u8 q.bytes 0
def nCid (q : NCmd) : Nat := le q.bytes 2 2
def nNs (q : NCmd) : Nat := cdw q 1

/-- Status values: generic ones below 0x100, command specific ones 0x100 on, media errors 0x200 on. -/
def nsInvalidField : Nat := 0x02
def nsNotReady : Nat := 0x82
def nsInvalidNs : Nat := 0x0B
def nsProtected : Nat := 0x20

/-- Do Not Retry is set on every error but Namespace Not Ready (R427) and aborts (PRESUMED, log entry 50). -/
def withDnr (st : Nat) : Nat := if [0, nsNotReady, 0x08].contains st then st else st + 2 ^ 14

/-- Signal a completion queue's vector: INTMS masks it under INTx. -/
def nvmeSignal (pf v : Nat) (d : Dev) : Dev :=
  if usesIntx d pf && Word.bit (regR d (fnKey pf 0x200C)) (v % 32) then d else signalVec pf v d

/-- Write a completion into its queue while it has room and the function may write, else keep it. -/
def cqPut (pf y : Nat) (e : Bytes) (d : Dev) : Dev :=
  match ncq d pf y with
  | none => d
  | some q =>
    if mayDma d pf && decide ((q.tail + 1) % q.size ≠ q.head) then
      let e' := patch e 14 (leBytes 2 (le e 14 2 + b2n q.phase))
      let d := emit (.nvmeCpl pf y e') (dma pf (q.base + 16 * q.tail) e' d)
      let t := (q.tail + 1) % q.size
      let d := ncqW pf y (some { q with tail := t, phase := if t = 0 then !q.phase else q.phase }) d
      if q.ien then nvmeSignal pf q.vector d else d
    else ncqW pf y (some { q with held := q.held ++ [e] }) d

/-- Write completions that waited, in order. -/
def cqFlush (pf y : Nat) (d : Dev) : Dev :=
  match ncq d pf y with
  | none => d
  | some q => q.held.foldl (fun d e => cqPut pf y e d) (ncqW pf y (some { q with held := [] }) d)

/-- Every queue a controller has. -/
def cqIds (d : Dev) (pf : Nat) : List Nat := (ctrl d pf).cqs.map (·.1)
def sqIds (d : Dev) (pf : Nat) : List Nat := (ctrl d pf).sqs.map (·.1)

/-- Whether any I/O SQ exists on PF1 or PF3 (R441, R443). -/
def anyIoSq (d : Dev) : Bool := [1, 3].any fun pf => (sqIds d pf).any fun y => decide (y ≠ 0)

/-- Complete a command: its entry goes to its SQ's CQ, and an error to the log. -/
def nvmeEnd (pf : Nat) (q : NCmd) (dw st : Nat) (d : Dev) : Dev :=
  let sq := nsq d pf q.sq
  let head := match sq with
    | some s => s.head
    | none => 0
  let stf := withDnr st
  let e := leBytes 4 dw ++ zeros 4 ++ leBytes 2 head ++ leBytes 2 q.sq ++ leBytes 2 (nCid q) ++ leBytes 2 (2 * stf)
  let d := match sq with
    | some s => cqPut pf s.cq e d
    | none => d
  let d := ctrlU pf (fun c => { c with lastCmd := now d }) d
  let d := if st = 0 then d else
    ctrlU pf (fun c =>
      let rec_ := leBytes 8 (c.errCount + 1) ++ leBytes 2 q.sq ++ leBytes 2 (nCid q) ++ leBytes 2 (2 * stf) ++ leBytes 2 0xFFFF ++
        leBytes 8 (le q.bytes 40 8) ++ leBytes 4 (nNs q) ++ zeros 36
      { c with errCount := c.errCount + 1, errLog := (rec_ :: c.errLog).take 64 }) d
  if q.sq = 0 then d else ledU (fun l => { l with ioSince := now d }) d

/-- Whether a command is ordered: ORD of an I/O command (R425). -/
def ordered (q : NCmd) : Bool := decide (q.sq ≠ 0) && bitOf (cdw q 3) 0

/-- Whether a command may start (R425): an ordered one when nothing earlier of its SQ is left, any other when no earlier
ordered one is. -/
def mayStart (c : Ctrl) (q : NCmd) : Bool :=
  let before := (c.fetched ++ c.outs.map fun o => o.cmd).filter fun x => decide (x.sq = q.sq ∧ x.seq < q.seq)
  decide (q.sq = 0) || ((!(ordered q) || decide (before = [])) && !(before.any ordered))

/-- Opcodes the controllers support (R416). -/
def opKnown (q : NCmd) : Bool :=
  if q.sq = 0 then [0x00, 0x01, 0x02, 0x04, 0x05, 0x06, 0x08, 0x09, 0x0A, 0x0C, 0x0D, 0x10, 0x11, 0x14, 0x15, 0x80].contains (nOp q)
  else [0x00, 0x01, 0x02, 0x08, 0x09].contains (nOp q)

/-- Commands of other opcodes complete Invalid Opcode in their turn. -/
def sweepBad (pf : Nat) (d : Dev) : Dev :=
  loopN (ctrl d pf).fetched.length (fun _ d =>
    match (ctrl d pf).fetched.find? fun q => !(opKnown q) && mayStart (ctrl d pf) q with
    | some q => nvmeEnd pf q 0 0x01 (ctrlU pf (fun c => { c with fetched := c.fetched.erase q }) d)
    | none => d) d

/-- Fetch what an SQ offers (R417): a command in PS2 wakes the controller (R433), an I/O command pauses a self-test
(R432). -/
def fetchSq (pf y : Nat) (d : Dev) : Dev :=
  match nsq d pf y with
  | none => d
  | some q =>
    if ctrlReady d pf && mayDma d pf && storageUp d && !(bitR d (cstsKey pf) 5) && decide (q.head ≠ q.tail) then
      let m := (q.tail + q.size - q.head) % q.size
      let d := loopN m (fun i d =>
        let b := dmaRead d pf (q.base + 64 * ((q.head + i) % q.size)) 64
        ctrlU pf (fun c => { c with fetched := c.fetched ++ [⟨y, c.seq, b⟩], seq := c.seq + 1 }) d) d
      let d := nsqW pf y (some { q with head := q.tail }) d
      let d := ctrlU pf (fun c => { c with lastCmd := now d, ps := if c.ps = 2 then c.opPs else c.ps }) d
      let d := if y = 0 then d else
        ledU (fun l => { l with ioSince := now d, test := l.test.map fun t => { t with paused := true } }) d
      sweepBad pf d
    else d

/-- Fetch from every SQ, and write the completions that waited: what a controller does once it may. -/
def ctrlGo (pf : Nat) (d : Dev) : Dev :=
  (sqIds d pf).foldl (fun d y => fetchSq pf y d) ((cqIds d pf).foldl (fun d y => cqFlush pf y d) d)

/-- Run one fetched command of a given opcode when it may start; `f` answers nothing when the command must wait. -/
def withCmd (pf n op : Nat) (io : Bool) (f : NCmd → Dev → Option Dev) (d : Dev) : Dev :=
  let e := ctrlGo pf d
  match (ctrl e pf).fetched[n]? with
  | none => d
  | some q =>
    if ctrlReady d pf && storageUp d && mayDma d pf && decide (nOp q = op) && decide (io = decide (q.sq ≠ 0)) &&
        mayStart (ctrl e pf) q then
      let e := ctrlU pf (fun c => { c with fetched := c.fetched.eraseIdx n }) e
      if u8 q.bytes 1 % 4 ≠ 0 then sweepBad pf (nvmeEnd pf q 0 nsInvalidField e)
      else match f q e with
        | some e => sweepBad pf e
        | none => d
    else d

/-- A command that completes with a dword and a status. -/
def simple (pf : Nat) (f : NCmd → Dev → Nat × Nat × Dev) : NCmd → Dev → Option Dev := fun q d =>
  let r := f q d
  some (nvmeEnd pf q r.1 r.2.1 r.2.2)

/-- The first of a list of (condition that fails, status), else the effect, with its dword. -/
def nchecks (l : List (Bool × Nat)) (f : Dev → Nat × Dev) (d : Dev) : Nat × Nat × Dev :=
  match l.find? fun x => x.1 with
  | some x => (0, x.2, d)
  | none => let r := f d
            (r.1, 0, r.2)

/-! ### Data pointers -/

/-- The pages of a PRP list from an entry's address: a list's last entry points on while more than one page is left. -/
def prpList (d : Dev) (pf : Nat) : Nat → Nat → Nat → List (Nat × Nat)
  | 0, _, _ => []
  | k + 1, ptr, left =>
    if left = 0 then []
    else
      let e := le (dmaRead d pf ptr 8) 0 8
      if ptr % 4096 = 4088 ∧ 4096 < left then prpList d pf k e left
      else (e, min 4096 left) :: prpList d pf k (ptr + 8) (left - 4096)

/-- The segments of a PRP pair, or the status of a bad offset. -/
def prpSegs (d : Dev) (pf : Nat) (q : NCmd) (len : Nat) : Except Nat (List (Nat × Nat)) :=
  let p1 := le q.bytes 24 8
  let p2 := le q.bytes 32 8
  let first := min len (4096 - p1 % 4096)
  let left := len - first
  let rest := if left = 0 then [] else if left ≤ 4096 then [(p2, left)] else prpList d pf (2 * left / 4096 + 4) p2 left
  if p1 % 4 ≠ 0 ∨ rest.any (fun s => decide (s.1 % 4096 ≠ 0)) then .error 0x13 else .ok ((p1, first) :: rest)

/-- The data blocks of an SGL segment of `cnt` descriptors at an address. -/
def sglSegs (d : Dev) (pf : Nat) : Nat → Nat → Nat → Except Nat (List (Nat × Nat))
  | 0, _, _ => .error 0x0D
  | k + 1, a, cnt =>
    if cnt = 0 then .ok []
    else
      let e := dmaRead d pf a 16
      let ty := u8 e 15 / 16
      if ty = 0 then
        match sglSegs d pf k (a + 16) (cnt - 1) with
        | .ok l => .ok ((le e 0 8, le e 8 4) :: l)
        | .error x => .error x
      else if (ty = 2 ∨ ty = 3) ∧ cnt = 1 then sglSegs d pf k (le e 0 8) (le e 8 4 / 16)
      else .error 0x11

/-- Cut a list of segments to a length. -/
def cutSegs : List (Nat × Nat) → Nat → List (Nat × Nat)
  | [], _ => []
  | s :: t, n => if n = 0 then [] else (s.1, min s.2 n) :: cutSegs t (n - s.2)

/-- Where a command's data lies: PRP, and for I/O commands SGL (R416). -/
def dataSegs (d : Dev) (pf : Nat) (q : NCmd) (len : Nat) : Except Nat (List (Nat × Nat)) :=
  let psdt := u8 q.bytes 1 / 64
  if psdt = 0 then prpSegs d pf q len
  else if q.sq = 0 ∨ psdt = 3 then .error nsInvalidField
  else
    let ty := u8 q.bytes 39 / 16
    let l := if ty = 0 then Except.ok [(le q.bytes 24 8, le q.bytes 32 4)]
      else if ty = 2 ∨ ty = 3 then sglSegs d pf 65536 (le q.bytes 24 8) (le q.bytes 32 4 / 16)
      else .error 0x11
    match l with
    | .error x => .error x
    | .ok l => if (l.map fun s => s.2).sum < len then .error 0x0F else .ok (cutSegs l len)

/-- Read a command's data from the host. -/
def gather (d : Dev) (pf : Nat) (segs : List (Nat × Nat)) : Bytes := segs.flatMap fun s => dmaRead d pf s.1 s.2

/-- Write data to the host. -/
def scatter (pf : Nat) : List (Nat × Nat) → Bytes → Dev → Dev
  | [], _, d => d
  | s :: t, bs, d => scatter pf t (bs.drop s.2) (dma pf s.1 (bs.take s.2) d)

/-- A command that returns data to the host. -/
def returns (pf : Nat) (q : NCmd) (bs : Bytes) (d : Dev) : Nat × Nat × Dev :=
  match dataSegs d pf q bs.length with
  | .error st => (0, st, d)
  | .ok segs => (0, 0, scatter pf segs bs d)

/-- A command that takes data from the host. -/
def takes (pf : Nat) (q : NCmd) (len : Nat) (f : Bytes → Dev → Nat × Nat × Dev) (d : Dev) : Nat × Nat × Dev :=
  match dataSegs d pf q len with
  | .error st => (0, st, d)
  | .ok segs => f (gather d pf segs) d

/-! ### Outstanding writes and flushes (R426, R427) -/

/-- Complete the commands whose buffered LBAs are all durable; a shutdown that waited for the buffer ends. -/
def settle (d : Dev) : Dev :=
  let live := d.ledger.wbuf.map fun e => e.id
  [1, 3].foldl (fun d pf =>
    let ready := (ctrl d pf).outs.filter fun o => o.waits.all fun i => !(live.contains i)
    let d := ctrlU pf (fun c => { c with outs := c.outs.filter fun o => o.waits.any fun i => live.contains i }) d
    let d := ready.foldl (fun d o => nvmeEnd pf o.cmd 0 0 d) d
    let d := sweepBad pf d
    if live = [] && decide (fldR d (cstsKey pf) 3 2 = 1) then fldW (cstsKey pf) 3 2 2 d else d) d

/-- A pair has no member left: the writes and flushes that need it end Namespace Not Ready, and such a write's data leaves
the buffer (R427). -/
def pairLost (p : Nat) (d : Dev) : Dev :=
  let hit := (d.ledger.wbuf.filter fun e => decide (lbaPair d e.lba = p)).map fun e => e.id
  [1, 3].foldl (fun d pf =>
    let gone := (ctrl d pf).outs.filter fun o => o.waits.any fun i => hit.contains i
    let d := ctrlU pf (fun c => { c with outs := c.outs.filter fun o => !(o.waits.any fun i => hit.contains i) }) d
    gone.foldl (fun d o =>
      let d := wbufDrop (fun e => !e.done && o.waits.contains e.id) d
      nvmeEnd pf o.cmd 0 nsNotReady d) d) d

/-- What is left of writes that end without their real status: each LBA keeps its old data or takes the new one, freely
(R428, R430). -/
def dropOuts (p : NOut → Bool) (pf : Nat) (d : Dev) : Dev :=
  let ids := ((ctrl d pf).outs.filter p).flatMap fun o => o.waits
  let undone := d.ledger.wbuf.filter fun e => !e.done && ids.contains e.id
  let d := undone.foldl (fun d u =>
    let (v, d) := fresh d
    if v % 2 = 0 then wbufDrop (fun e => decide (e.id = u.id)) d
    else ledU (fun l => { l with wbuf := l.wbuf.map fun e => if e.id = u.id then { e with done := true } else e }) d) d
  ctrlU pf (fun c => { c with outs := c.outs.filter fun o => !(p o) }) d

/-! ### Reset and enable (R418) -/

/-- Record a self-test's result (R431): STC, result code, segment. Fields of the entry the spec does not give are free. -/
def testResult (res seg : Nat) (d : Dev) : Dev :=
  match d.ledger.test with
  | none => d
  | some t =>
    let (v, d) := fresh d
    let e := leBytes 1 (16 * t.stc + res) ++ leBytes 1 seg ++ zeros 2 ++ leBytes 8 v ++ leBytes 4 t.nsid ++ zeros 12
    ledU (fun l => { l with test := none, results := (e :: l.results).take 20 }) d

/-- A controller reset (R418, R428, R432): its queues and commands go, the buffer stays, a self-test is aborted. The admin
queue registers stay on CC.EN alone. -/
def ctrlReset (pf : Nat) (all : Bool) (d : Dev) : Dev :=
  let d := dropOuts (fun _ => true) pf d
  let d := ctrlU pf (fun c => { ({} : Ctrl) with errLog := c.errLog, errCount := c.errCount }) d
  let d := testResult 2 0 d
  let d := regW (cstsKey pf) 0 (regW (ccKey pf) 0 (regW (fnKey pf 0x200C) 0 d))
  let d := if all then [0x2024, 0x2028, 0x202C, 0x2030, 0x2034].foldl (fun d o => regW (fnKey pf o) 0 d) d else d
  settle d

/-- The admin queues of AQA, ASQ and ACQ. -/
def adminQueues (pf : Nat) (d : Dev) : Dev :=
  let d := nsqW pf 0 (some { base := reg64 d (fnKey pf 0x2028), size := fldR d (fnKey pf 0x2024) 11 0 + 1, cq := 0 }) d
  ncqW pf 0 (some { base := reg64 d (fnKey pf 0x2030), size := fldR d (fnKey pf 0x2024) 27 16 + 1, ien := true, vector := 0 }) d

/-- CC_EN (R418): a write of CC. -/
def execCcEn (pf : Nat) (v : Word) (s : State) : Host.Outcome State Fault Refusal :=
  lift (fun d =>
    if !(isLedgerPf pf) || !(islandOn d 48) then d
    else
      let was := bitR d (ccKey pf) 0
      let on := Word.bit v 0
      if was && !on then ctrlReset pf false d
      else
        let d := regW (ccKey pf) (v &&& 0x00FFFFF1) d
        let d := if !was && on then adminQueues pf (regW (cstsKey pf) 1 d) else d
        if Word.fld v 15 14 ≠ 0 then fldW (cstsKey pf) 3 2 (if d.ledger.wbuf = [] then 2 else 1) d else d) s

/-- An asynchronous event (R416): it completes a waiting request, or waits for one. -/
def asyncEvent (pf dw : Nat) (d : Dev) : Dev :=
  match (ctrl d pf).aers with
  | q :: t => nvmeEnd pf q dw 0 (ctrlU pf (fun c => { c with aers := t }) d)
  | [] => ctrlU pf (fun c => { c with events := c.events ++ [dw] }) d

/-- SQ_TAIL_DOORBELL (R417): a tail outside the queue, or a doorbell of no queue, is reported as an error event. -/
def execSqTailDoorbell (pf y : Nat) (v : Word) (s : State) : Host.Outcome State Fault Refusal :=
  lift (fun d =>
    if !(ctrlReady d pf) then d
    else match nsq d pf y with
      | none => asyncEvent pf 0x010000 d
      | some q =>
        if q.size ≤ Word.fld v 15 0 then asyncEvent pf 0x010100 d
        else fetchSq pf y (nsqW pf y (some { q with tail := Word.fld v 15 0 }) d)) s

/-- CQ_HEAD_DOORBELL (R417). -/
def execCqHeadDoorbell (pf y : Nat) (v : Word) (s : State) : Host.Outcome State Fault Refusal :=
  lift (fun d =>
    if !(ctrlReady d pf) then d
    else match ncq d pf y with
      | none => asyncEvent pf 0x010000 d
      | some q =>
        if q.size ≤ Word.fld v 15 0 then asyncEvent pf 0x010100 d
        else cqFlush pf y (ncqW pf y (some { q with head := Word.fld v 15 0 }) d)) s

/-! ### Queue commands -/

/-- CREATE_IO_CQ (R416, R417). -/
def execCreateIoCq (pf n : Nat) (s : State) : Host.Outcome State Fault Refusal :=
  lift (withCmd pf n 0x05 false (simple pf fun q d =>
    let y := cdw q 10 % 65536
    let size := cdw q 10 / 65536
    let iv := cdw q 11 / 65536
    nchecks [(decide (y = 0 ∨ 256 < y) || (ncq d pf y).isSome, 0x101), (decide (size = 0 ∨ 4095 < size), 0x102),
      (!(bitOf (cdw q 11) 0) || decide (le q.bytes 24 8 % 4096 ≠ 0), nsInvalidField), (decide (256 < iv), 0x108)]
      (fun d => (0, ncqW pf y (some { base := le q.bytes 24 8, size := size + 1, ien := bitOf (cdw q 11) 1, vector := iv }) d)) d)) s

/-- CREATE_IO_SQ (R416). -/
def execCreateIoSq (pf n : Nat) (s : State) : Host.Outcome State Fault Refusal :=
  lift (withCmd pf n 0x01 false (simple pf fun q d =>
    let y := cdw q 10 % 65536
    let size := cdw q 10 / 65536
    let cq := cdw q 11 / 65536
    nchecks [(decide (cq = 0) || (ncq d pf cq).isNone, 0x100), (decide (y = 0 ∨ 256 < y) || (nsq d pf y).isSome, 0x101),
      (decide (size = 0 ∨ 4095 < size), 0x102), (!(bitOf (cdw q 11) 0) || decide (le q.bytes 24 8 % 4096 ≠ 0), nsInvalidField)]
      (fun d => (0, nsqW pf y (some { base := le q.bytes 24 8, size := size + 1, cq := cq }) d)) d)) s

/-- DELETE_IO_SQ (R430): every command of it not completed ends Command Aborted due to SQ Deletion first. -/
def execDeleteIoSq (pf n : Nat) (s : State) : Host.Outcome State Fault Refusal :=
  lift (withCmd pf n 0x00 false (simple pf fun q d =>
    let y := cdw q 10 % 65536
    nchecks [(decide (y = 0) || (nsq d pf y).isNone, 0x101)]
      (fun d =>
        let cmds := ((ctrl d pf).outs.map fun o => o.cmd) ++ (ctrl d pf).fetched
        let d := dropOuts (fun o => decide (o.cmd.sq = y)) pf d
        let d := ctrlU pf (fun c => { c with fetched := c.fetched.filter fun x => decide (x.sq ≠ y) }) d
        let d := (cmds.filter fun x => decide (x.sq = y)).foldl (fun d x => nvmeEnd pf x 0 0x08 d) d
        (0, settle (nsqW pf y none d))) d)) s

/-- DELETE_IO_CQ (R430). -/
def execDeleteIoCq (pf n : Nat) (s : State) : Host.Outcome State Fault Refusal :=
  lift (withCmd pf n 0x04 false (simple pf fun q d =>
    let y := cdw q 10 % 65536
    nchecks [(decide (y = 0) || (ncq d pf y).isNone, 0x101),
      ((ctrl d pf).sqs.any fun x => match x.2 with
        | some s => decide (s.cq = y)
        | none => false, 0x10C)]
      (fun d => (0, ncqW pf y none d)) d)) s

/-! ### Identify, features, events -/

/-- Bytes another standard's layout leaves to the device (log entry 50). -/
def nvmeFree (name n : Nat) : Bytes := (List.range n).map fun i => Config.freeByte name i

/-- Names of the free parts: controller and namespace data, log pages. -/
def nmCtrl : Nat := 0x1300
def nmNs : Nat := 0x1301
def nmDesc : Nat := 0x1302
def nmSmart : Nat := 0x1303
def nmFwLog : Nat := 0x1304

/-- Patch several fields. -/
def patches (b : Bytes) (l : List (Nat × Bytes)) : Bytes := l.foldl (fun b x => patch b x.1 x.2) b

/-- A power state descriptor (R433): maximum power in 0.01 W, latencies in µs; PS2 is not operational. -/
def powerDesc (mp : Nat) (op : Bool) (en ex : Nat) : List (Nat × Bytes) :=
  [(0, leBytes 2 mp), (3, leBytes 1 (if op then 0 else 2)), (4, leBytes 4 en), (8, leBytes 4 ex)]

/-- The controller data (R416, R420, R433, R435): fields the spec gives over free bytes. -/
def identCtrl (pf : Nat) : Bytes :=
  let ps := fun (i : Nat) (l : List (Nat × Bytes)) => l.map fun x => (2048 + 32 * i + x.1, x.2)
  patches (nvmeFree nmCtrl 4096) (
    [(78, leBytes 2 pf), (80, leBytes 4 0x00020000), (256, leBytes 2 0x001E), (260, leBytes 1 0x14), (262, leBytes 1 63),
     (263, leBytes 1 2), (265, leBytes 1 1), (270, leBytes 2 30), (512, leBytes 1 0x66), (513, leBytes 1 0x44),
     (516, leBytes 4 33), (520, leBytes 2 0x000C), (525, leBytes 1 1), (526, leBytes 2 0), (528, leBytes 2 0)] ++
    ps 0 [(0, leBytes 2 650), (3, leBytes 1 0)] ++ ps 1 (powerDesc 300 true 10 50) ++ ps 2 (powerDesc 90 false 1000 5000))

/-- Namespace data (R416, R420). -/
def identNs (size : Nat) : Bytes :=
  patches (nvmeFree nmNs 4096) [(0, leBytes 8 size), (8, leBytes 8 size), (25, leBytes 1 0), (26, leBytes 1 0), (29, leBytes 1 0),
    (128, leBytes 2 0), (130, leBytes 1 12)]

/-- NVME_IDENTIFY (R416, R420, R433, R435). -/
def execNvmeIdentify (pf n : Nat) (s : State) : Host.Outcome State Fault Refusal :=
  lift (withCmd pf n 0x06 false (simple pf fun q d =>
    let ns := nNs q
    let list := fun (p : Nat → Bool) => padTo 4096 (((List.range 34).filter fun i => decide (ns < i) && p i).flatMap fun i => leBytes 4 i)
    let ctrls := fun (l : List Nat) => padTo 4096 (leBytes 2 l.length ++ l.flatMap fun i => leBytes 2 i)
    let from_ := cdw q 10 / 65536
    match cdw q 10 % 256 with
    | 0x00 =>
      if nsAttached d pf ns then returns pf q (identNs (nsSize d ns)) d
      else if ns = 0xFFFFFFFF then returns pf q (identNs 0) d
      else if 1 ≤ ns ∧ ns ≤ 33 then returns pf q (zeros 4096) d
      else (0, nsInvalidNs, d)
    | 0x01 => returns pf q (identCtrl pf) d
    | 0x02 => returns pf q (list (nsAttached d pf)) d
    | 0x03 => if nsAttached d pf ns then returns pf q (nvmeFree nmDesc 4096) d else (0, nsInvalidNs, d)
    | 0x10 => returns pf q (list (nsExists d)) d
    | 0x11 =>
      if nsExists d ns then returns pf q (identNs (nsSize d ns)) d
      else if 1 ≤ ns ∧ ns ≤ 33 then returns pf q (zeros 4096) d
      else (0, nsInvalidNs, d)
    | 0x12 =>
      if nsExists d ns then returns pf q (ctrls ([1, 3].filter fun i => decide (from_ ≤ i) && nsAttached d i ns)) d
      else (0, nsInvalidNs, d)
    | 0x13 => returns pf q (ctrls ([1, 3].filter fun i => decide (from_ ≤ i))) d
    | _ => (0, nsInvalidField, d))) s

/-- ABORT (R429). -/
def execAbort (pf n : Nat) (s : State) : Host.Outcome State Fault Refusal :=
  lift (withCmd pf n 0x08 false (simple pf fun _ d => (1, 0, d))) s

/-- Features supported (R416). -/
def featKnown (fid : Nat) : Bool := [0x01, 0x02, 0x04, 0x06, 0x07, 0x08, 0x0B, 0x0C].contains fid

/-- Where a feature's value is held: temperature thresholds by sensor and kind. -/
def featKey (fid dw11 : Nat) : Nat := if fid = 4 then 0x400 + bitsOf dw11 21 16 else fid

/-- Default of a feature (R426: WCE set; 256 queues of each kind). -/
def featDefault (k : Nat) : Nat := if k = 6 then 1 else if k = 7 then 0x00FF00FF else 0

def feat (d : Dev) (pf k : Nat) : Nat := Tbl.get featDefault (ctrl d pf).feats k

def featW (pf k v : Nat) (d : Dev) : Dev := ctrlU pf (fun c => { c with feats := Tbl.set featDefault c.feats k v }) d

/-- Whether a controller has I/O queues. -/
def hasIo (d : Dev) (pf : Nat) : Bool := (sqIds d pf ++ cqIds d pf).any fun y => decide (y ≠ 0)

/-- SET_FEATURES (R416, R426, R433, R434). -/
def execSetFeatures (pf n : Nat) (s : State) : Host.Outcome State Fault Refusal :=
  lift (withCmd pf n 0x09 false (simple pf fun q d =>
    let fid := cdw q 10 % 256
    let v := cdw q 11
    if !(featKnown fid) then (0, nsInvalidField, d)
    else if bitOf (cdw q 10) 31 then (0, 0x10D, d)
    else match fid with
      | 0x02 =>
        if 2 < v % 32 then (0, nsInvalidField, d)
        else (0, 0, ctrlU pf (fun c => { c with ps := v % 32, opPs := if v % 32 < 2 then v % 32 else c.opPs }) d)
      | 0x07 =>
        if hasIo d pf then (0, 0x0C, d)
        else if v % 65536 = 65535 ∨ v / 65536 = 65535 then (0, nsInvalidField, d) else (0x00FF00FF, 0, d)
      | 0x0C => takes pf q 256 (fun bs d => (0, 0, ctrlU pf (fun c => { c with apst := bs }) (featW pf 0x0C (v % 2) d))) d
      | _ => (0, 0, featW pf (featKey fid v) v d))) s

/-- GET_FEATURES (R416). -/
def execGetFeatures (pf n : Nat) (s : State) : Host.Outcome State Fault Refusal :=
  lift (withCmd pf n 0x0A false (simple pf fun q d =>
    let fid := cdw q 10 % 256
    let sel := bitsOf (cdw q 10) 10 8
    let k := featKey fid (cdw q 11)
    if !(featKnown fid) || decide (3 < sel) then (0, nsInvalidField, d)
    else if sel = 3 then (4, 0, d)
    else if sel ≠ 0 then
      let d' := if fid = 0x0C then returns pf q (zeros 256) d else (0, 0, d)
      (featDefault k, d'.2)
    else if fid = 2 then ((ctrl d pf).ps, 0, d)
    else if fid = 0x0C then (feat d pf k, (returns pf q (padTo 256 (ctrl d pf).apst) d).2)
    else (feat d pf k, 0, d))) s

/-- ASYNCHRONOUS_EVENT_REQUEST (R416): held until an event; the limit is the identify data's. -/
def execAsynchronousEventRequest (pf n : Nat) (s : State) : Host.Outcome State Fault Refusal :=
  lift (withCmd pf n 0x0C false (fun q d =>
    match (ctrl d pf).events with
    | e :: t => some (nvmeEnd pf q e 0 (ctrlU pf (fun c => { c with events := t }) d))
    | [] =>
      if (Config.freeByte nmCtrl 259).toNat < (ctrl d pf).aers.length then some (nvmeEnd pf q 0 0x105 d)
      else some (ctrlU pf (fun c => { c with aers := c.aers ++ [q] }) d))) s

/-! ### Namespaces (R420) -/

/-- Namespace Attribute Changed to the controllers of a mask. -/
def nsChanged (mask : Nat) (d : Dev) : Dev :=
  [1, 3].foldl (fun d pf => if bitOf mask (pf / 2) then asyncEvent pf 0x040002 d else d) d

/-- The controllers a host namespace is attached to, as a mask. -/
def attachMask (d : Dev) (ns : Nat) : Nat := Tbl.get (fun _ => 0) d.ledger.attach ns

def attachW (ns m : Nat) (d : Dev) : Dev := ledU (fun l => { l with attach := Tbl.set (fun _ => 0) l.attach ns m }) d

/-- Whether every pair has a member. -/
def allPairsUp (d : Dev) : Bool := !(noDrives d)

/-- NAMESPACE_MANAGEMENT (R419, R420). -/
def execNamespaceManagement (pf n : Nat) (s : State) : Host.Outcome State Fault Refusal :=
  lift (withCmd pf n 0x0D false (simple pf fun q d =>
    let ps := List.range (numPairs d.variant)
    match cdw q 10 % 16 with
    | 0 => takes pf q 4096 (fun bs d =>
        let size := le bs 0 8
        let per := size / (numPairs d.variant * slabLbas)
        let free := (List.range 34).filter fun i => decide (2 ≤ i) && !(nsExists d i)
        nchecks [(decide (size = 0) || decide (size % (numPairs d.variant * slabLbas) ≠ 0) || decide (le bs 8 8 ≠ size) ||
            decide (u8 bs 29 ≠ 0), nsInvalidField), (decide (u8 bs 26 % 16 ≠ 0), 0x10A), (!(allPairsUp d), nsNotReady),
          (decide (free = []), 0x116), (ps.any fun p => decide (freeCount d p < per), 0x115)]
          (fun d =>
            let ns := free.headD 2
            (ns, ps.foldl (fun d p => allocSlabs ns per p d) (attachW ns 0 d))) d) d
    | 1 =>
      let ns := nNs q
      let gone := if ns = 0xFFFFFFFF then (List.range 34).filter fun i => decide (2 ≤ i) && nsExists d i else [ns]
      nchecks [(decide (ns = 1), nsInvalidField), (decide (ns ≠ 0xFFFFFFFF) && (decide (ns < 2 ∨ 33 < ns) || !(nsExists d ns)), nsInvalidNs),
        (!(allPairsUp d), nsNotReady)]
        (fun d =>
          let d := gone.foldl (fun d i =>
            let m := attachMask d i
            let d := wbufDrop (fun e => decide (e.nsid = i)) (ps.foldl (fun d p => freeSlabs i p d) d)
            nsChanged m (attachW i 0 d)) d
          (0, settle d)) d
    | _ => (0, nsInvalidField, d))) s

/-- NAMESPACE_ATTACHMENT (R419, R420). -/
def execNamespaceAttachment (pf n : Nat) (s : State) : Host.Outcome State Fault Refusal :=
  lift (withCmd pf n 0x15 false (simple pf fun q d =>
    let sel := cdw q 10 % 16
    let ns := nNs q
    takes pf q 4096 (fun bs d =>
      let ids := (List.range (min (le bs 0 2) 2047)).map fun i => le bs (2 + 2 * i) 2
      let mask := ids.foldl (fun (a : Nat) i => a ||| 2 ^ (i / 2)) 0
      let old := attachMask d ns
      nchecks [(decide (1 < sel) || decide (ns = 1), nsInvalidField), (decide (ns < 2 ∨ 33 < ns) || !(nsExists d ns), nsInvalidNs),
        (decide (ids = []) || ids.any fun i => !(isLedgerPf i), 0x11C), (decide (sel = 0) && decide (old &&& mask ≠ 0), 0x118),
        (decide (sel = 1) && decide (old &&& mask ≠ mask), 0x11A)]
        (fun d =>
          let new := if sel = 0 then old ||| mask else old - mask
          (0, nsChanged (old ||| new) (attachW ns new d))) d) d)) s

/-- FORMAT_NVM (R419, R420): every LBA reads as zeros. -/
def execFormatNvm (pf n : Nat) (s : State) : Host.Outcome State Fault Refusal :=
  lift (withCmd pf n 0x80 false (simple pf fun q d =>
    let ns := nNs q
    let which := if ns = 0xFFFFFFFF then (List.range 34).filter fun i => decide (2 ≤ i) && nsAttached d pf i else [ns]
    nchecks [(decide (ns = 1), nsProtected), (decide (ns ≠ 0xFFFFFFFF) && !(nsAttached d pf ns), nsInvalidNs),
      (decide (cdw q 10 % 16 ≠ 0) || decide (bitsOf (cdw q 10) 7 5 ≠ 0), 0x10A), (!(allPairsUp d), nsNotReady)]
      (fun d =>
        let d := which.foldl (fun d i =>
          let d := wbufDrop (fun e => decide (e.nsid = i)) d
          let d := (List.range (numPairs d.variant)).foldl (fun d p =>
            ((pairMap d p).used.filter fun u => decide (u.2.1 = i)).foldl (fun d u =>
              (targets d p).foldl (fun d t => drvZero t (256 + slabLbas * u.1) slabLbas d) d) d) d
          nsChanged (attachMask d i) d) d
        (0, settle d)) d)) s

/-! ### Self-test (R431, R432) -/

/-- DEVICE_SELF_TEST (R431). -/
def execDeviceSelfTest (pf n : Nat) (s : State) : Host.Outcome State Fault Refusal :=
  lift (withCmd pf n 0x14 false (simple pf fun q d =>
    let stc := cdw q 10 % 16
    nchecks [(!([1, 2, 15].contains stc) || !([0, 0xFFFFFFFF].contains (nNs q)), nsInvalidField),
      (decide (stc ≠ 15) && d.ledger.test.isSome, 0x11D)]
      (fun d => (0, if stc = 15 then testResult 1 0 d else ledU (fun l => { l with test := some { stc := stc, nsid := nNs q } }) d)) d)) s

/-- Whether an I/O command is outstanding on either controller. -/
def ioOut (d : Dev) : Bool :=
  [1, 3].any fun pf => (ctrl d pf).fetched.any (fun q => decide (q.sq ≠ 0)) || decide ((ctrl d pf).outs ≠ [])

/-- SELF_TEST_RESUME (R432): 10 ms have passed with no I/O command outstanding. -/
def execSelfTestResume (s : State) : Host.Outcome State Fault Refusal :=
  lift (fun d =>
    match d.ledger.test with
    | some t =>
      if t.paused && !(ioOut d) && decide (d.ledger.ioSince + 10000000 ≤ now d) then
        ledU (fun l => { l with test := some { t with paused := false } }) d
      else d
    | none => d) s

/-! ### I/O commands -/

/-- Checks of an I/O command over a range of LBAs. -/
def rangeChecks (d : Dev) (pf ns a n : Nat) (write : Bool) : List (Bool × Nat) :=
  [(!(nsAttached d pf ns), nsInvalidNs), (write && decide (ns = 1), nsProtected), (decide (nsSize d ns < a + n), 0x80),
   ((List.range n).any fun i => pairDown d (lbaPair d (a + i)), nsNotReady)]

/-- The first failing check. -/
def firstBad (l : List (Bool × Nat)) : Option Nat := (l.find? fun x => x.1).map fun x => x.2

/-- Put LBAs into the buffer (R426): the write completes at once, or when durable with FUA or WCE 0. -/
def bufferWrite (pf : Nat) (q : NCmd) (a : Nat) (datas : List Bytes) (d : Dev) : Option Dev :=
  if wbufCap d < d.ledger.wbuf.length + datas.length then none
  else
    let now_ := !(bitOf (cdw q 12) 30) && bitOf (feat d pf 6) 0
    let base := d.ledger.wseq
    let new := datas.zipIdx.map fun (x : Bytes × Nat) => (⟨base + x.2, nNs q, a + x.2, x.1, now_⟩ : WEnt)
    let d := ledU (fun l => { l with wbuf := l.wbuf ++ new, wseq := base + datas.length }) d
    some (if now_ then nvmeEnd pf q 0 0 d
      else ctrlU pf (fun c => { c with outs := c.outs ++ [⟨q, new.map fun e => e.id⟩] }) d)

/-- NVME_WRITE (R419, R426, R427). -/
def execNvmeWrite (pf n : Nat) (s : State) : Host.Outcome State Fault Refusal :=
  lift (withCmd pf n 0x01 true (fun q d =>
    let a := le q.bytes 40 8
    let cnt := cdw q 12 % 65536 + 1
    match firstBad ([(decide (bitsOf (cdw q 12) 29 26 ≠ 0), nsInvalidField)] ++ rangeChecks d pf (nNs q) a cnt true) with
    | some st => some (nvmeEnd pf q 0 st d)
    | none => match dataSegs d pf q (4096 * cnt) with
      | .error st => some (nvmeEnd pf q 0 st d)
      | .ok segs =>
        let bs := gather d pf segs
        bufferWrite pf q a ((List.range cnt).map fun i => slice bs (4096 * i) 4096) d)) s

/-- WRITE_ZEROES (R416, R426). -/
def execWriteZeroes (pf n : Nat) (s : State) : Host.Outcome State Fault Refusal :=
  lift (withCmd pf n 0x08 true (fun q d =>
    let a := le q.bytes 40 8
    let cnt := cdw q 12 % 65536 + 1
    match firstBad (rangeChecks d pf (nNs q) a cnt true) with
    | some st => some (nvmeEnd pf q 0 st d)
    | none => bufferWrite pf q a (List.replicate cnt []) d)) s

/-- Read LBAs in order: their data, or the first failure. -/
def readLbas (fails : List (Nat × Nat)) (ns : Nat) : Nat → Nat → Dev → Option Bytes × Dev
  | 0, _, d => (some [], d)
  | n + 1, a, d =>
    let r := match wbufFind d ns a with
      | some e => (some (padTo 4096 e.data), d)
      | none => pairRead fails ns a d
    match r.1 with
    | none => (none, r.2)
    | some b =>
      let t := readLbas fails ns n (a + 1) r.2
      (t.1.map fun x => b ++ x, t.2)

/-- NVME_READ (R419, R426, R439, R440): `fails` names the drives and drive LBAs that were tried and did not deliver. -/
def execNvmeRead (pf n : Nat) (fails : List (Nat × Nat)) (s : State) : Host.Outcome State Fault Refusal :=
  lift (withCmd pf n 0x02 true (fun q d =>
    let a := le q.bytes 40 8
    let cnt := cdw q 12 % 65536 + 1
    let need := fun i => (wbufFind d (nNs q) (a + i)).isNone && pairDown d (lbaPair d (a + i))
    match firstBad ((rangeChecks d pf (nNs q) a cnt false).take 3 ++ [((List.range cnt).any need, nsNotReady)]) with
    | some st => some (nvmeEnd pf q 0 st d)
    | none => match dataSegs d pf q (4096 * cnt) with
      | .error st => some (nvmeEnd pf q 0 st d)
      | .ok segs =>
        let r := readLbas fails (nNs q) cnt a d
        match r.1 with
        | none => some (nvmeEnd pf q 0 0x281 r.2)
        | some bs => some (nvmeEnd pf q 0 0 (scatter pf segs bs r.2)))) s

/-- NVME_FLUSH (R427). -/
def execNvmeFlush (pf n : Nat) (s : State) : Host.Outcome State Fault Refusal :=
  lift (withCmd pf n 0x00 true (fun q d =>
    let ns := nNs q
    let es := d.ledger.wbuf.filter fun e => e.done && (decide (ns = 0xFFFFFFFF) || decide (e.nsid = ns))
    if ns ≠ 0xFFFFFFFF ∧ !(nsAttached d pf ns) then some (nvmeEnd pf q 0 nsInvalidNs d)
    else if es.any fun e => pairDown d (lbaPair d e.lba) then some (nvmeEnd pf q 0 nsNotReady d)
    else if es = [] then some (nvmeEnd pf q 0 0 d)
    else some (ctrlU pf (fun c => { c with outs := c.outs ++ [⟨q, es.map fun e => e.id⟩] }) d))) s

/-- DATASET_MANAGEMENT (R419, R420): deallocated LBAs read as zeros. -/
def execDatasetManagement (pf n : Nat) (s : State) : Host.Outcome State Fault Refusal :=
  lift (withCmd pf n 0x09 true (simple pf fun q d =>
    let ns := nNs q
    let nr := cdw q 10 % 256 + 1
    takes pf q (16 * nr) (fun bs d =>
      let rs := (List.range nr).map fun i => (le bs (16 * i + 8) 8, le bs (16 * i + 4) 4)
      let ad := bitOf (cdw q 11) 2
      nchecks [(!(nsAttached d pf ns), nsInvalidNs), (decide (ns = 1), nsProtected),
        (rs.any fun r => decide (nsSize d ns < r.1 + r.2), 0x80), (ad && !(allPairsUp d), nsNotReady)]
        (fun d =>
          if ad then
            let d := rs.foldl (fun d r =>
              let d := wbufDrop (fun e => decide (e.nsid = ns ∧ r.1 ≤ e.lba ∧ e.lba < r.1 + r.2)) d
              pairZero ns (r.2 / 256 + 2) r.1 r.2 d) d
            (0, settle d)
          else (0, d)) d) d)) s

/-- WRITEBACK_DURABLE (R426, R439): the drives of its pair acknowledge the write of buffered LBA `n`, the oldest of its LBA; data
on a poisoned line goes as Write Uncorrectable instead (R454). -/
def execWritebackDurable (n : Nat) (poisoned : Bool) (s : State) : Host.Outcome State Fault Refusal :=
  lift (fun d =>
    match d.ledger.wbuf[n]? with
    | none => d
    | some e =>
      let older := (d.ledger.wbuf.take n).any fun x => decide (x.nsid = e.nsid ∧ x.lba = e.lba)
      if storageUp d && !older && !(pairDown d (lbaPair d e.lba)) then
        let d := ledU (fun l => { l with wbuf := l.wbuf.eraseIdx n }) d
        let d := if poisoned then
            match driveLba d e.nsid e.lba with
            | some l => (targets d (lbaPair d e.lba)).foldl (fun d t => drvMark t l d) d
            | none => d
          else pairWrite e.nsid e.lba (padTo 4096 e.data) d
        settle d
      else d) s

/-! ### Power states and cluster 0 (R434, R436) -/

/-- APST_TRANSITION (R434): the host's table names the idle time and the state that follows. -/
def execApstTransition (pf : Nat) (s : State) : Host.Outcome State Fault Refusal :=
  lift (fun d =>
    let c := ctrl d pf
    let e := le c.apst (8 * c.ps) 8
    let to_ := bitsOf e 7 3
    let ms := bitsOf e 31 8
    if ctrlReady d pf && bitOf (feat d pf 0x0C) 0 && decide (ms ≠ 0) && decide (to_ ≤ 2) && decide (c.fetched = [] ∧ c.outs = []) &&
        decide (c.lastCmd + ms * 1000000 ≤ now d) then
      ctrlU pf (fun c => { c with ps := to_, opPs := if to_ < 2 then to_ else c.opPs }) d
    else d) s

/-- CLUSTER0_TIMEOUT (R436): both controllers set CSTS.CFS. -/
def execCluster0Timeout (s : State) : Host.Outcome State Fault Refusal :=
  lift (fun d =>
    match d.ledger.downFrom with
    | some t =>
      if !(storageUp d) && islandOn d 48 && decide (t + 10000000000 ≤ now d) then
        bitW (cstsKey 3) 1 true (bitW (cstsKey 1) 1 true d)
      else d
    | none => d) s

end Sys2Proof.Machine
end

