-- ==== Sys2Proof/Machine/Drives.lean ====
section
/-! DEFINITION. The drive ports' events and the drive commands (13, R437–R444). -/

namespace Sys2Proof.Machine
open Sys2Proof

/-- Whether a drive port's domain lets it work. -/
def drvOn (d : Dev) (n : Nat) : Bool := decide (n < 4) && islandOn d (dIsland n)

/-- Presence or the domain of a drive port has changed (R438): without either the port is EMPTY, with both an empty port
goes to LINK. -/
def drvFollow (n cause : Nat) (d : Dev) : Dev :=
  let x := drv d n
  if !(x.present && drvOn d n) then (if x.st = 0 then d else drvLeave pairLost n 0 cause d)
  else if x.st = 0 then drvState n 1 cause d
  else d

/-- DRIVE_PRESENCE (R438): a drive is inserted or removed; `other` gives the contents, by drive LBA, of a drive other than the
one last in the slot. -/
def execDrivePresence (n : Nat) (on : Bool) (other : Option (List (Nat × Bytes))) (s : State) : Host.Outcome State Fault Refusal :=
  lift (fun d =>
    if !(decide (n < 4) && islandPresent d.variant (dIsland n)) || (drv d n).present == on then d
    else
      let d := drvU n (fun x => { x with present := on }) d
      let d := match other with
        | some ls =>
          if on then
            let d := drvU n (fun x => { x with zero := [], unread := [], slabs := 0 }) (loseSpace (driveSpace n) d)
            ls.foldl (fun d l => drvWrite n l.1 l.2 d) d
          else d
        | none => d
      drvFollow n 0 d) s

/-- DPERST_RELEASE (R438): 100 ms after presence. -/
def execDperstRelease (n : Nat) (s : State) : Host.Outcome State Fault Refusal :=
  lift (fun d =>
    if decide ((drv d n).st = 1) && !(drv d n).released && decide ((drv d n).since + 100000000 ≤ now d) then
      emit (.pin (pinDperst n) true) (drvU n (fun x => { x with released := true }) d)
    else d) s

/-- DRIVE_LINK_UP (R438): link up and drive ready within 10 s; SPEED and WIDTH as LEDG_DRV_STAT codes them. -/
def execDriveLinkUp (n speed width : Nat) (s : State) : Host.Outcome State Fault Refusal :=
  lift (fun d =>
    let x := drv d n
    if decide (x.st = 1) && x.released && decide (now d ≤ x.since + 10000000000) && decide (1 ≤ speed ∧ speed ≤ 5) &&
        [1, 2, 4].contains width then
      drvState n 2 1 (drvU n (fun x => { x with up := true, speed := speed, width := width }) d)
    else d) s

/-- DRIVE_LINK_TIMEOUT (R438). -/
def execDriveLinkTimeout (n : Nat) (s : State) : Host.Outcome State Fault Refusal :=
  lift (fun d =>
    if decide ((drv d n).st = 1) && decide ((drv d n).since + 10000000000 ≤ now d) then drvState n 8 3 d else d) s

/-- DRIVE_IDENTIFY (R437, R438): whether the drive follows NVMe, its format and its commands, and the whole slabs that fit on
it. A label of this volume that no row names leaves the drive FOREIGN (log entry 51). -/
def execDriveIdentify (n : Nat) (usable : Bool) (slabs : Nat) (s : State) : Host.Outcome State Fault Refusal :=
  lift (fun d =>
    if !(decide ((drv d n).st = 2) && storageUp d) then d
    else
      let p := n / 2
      let d := drvU n (fun x => { x with slabs := slabs }) d
      let lab := (readLabel d n).filter fun b => ourLabel d b && decide (u8 b 40 = p)
      let need := if drvMember d (partner n) then (pairMap d p).slabs else
        match lab with
        | some b => le b 52 4
        | none => 0
      let (c, d) := freeCause d
      if !usable || decide (slabs < need) then drvState n 5 c d
      else match lab with
        | none => drvState n 3 c d
        | some b =>
          let ep := le b 44 8
          let cur := d.ledger.epochs.getD p 0
          if ep = cur ∧ u8 b 41 = n % 2 then
            drvState n 7 c (if drvMember d (partner n) then d else adoptMap n d)
          else if ep < cur then (if drvMember d (partner n) then startRebuild n c d else drvState n 4 c d)
          else drvState n 3 c d) s

/-- DRIVE_WRITE_ERROR (R438): the drive fails a write, or its link is lost. -/
def execDriveWriteError (n : Nat) (link : Bool) (s : State) : Host.Outcome State Fault Refusal :=
  lift (fun d =>
    if !(drv d n).up then d
    else
      let d := if link then ctrInc (drvCtr n 0x28) (drvU n (fun x => { x with up := false }) d) else d
      if [6, 7].contains (drv d n).st then drvLeave pairLost n 8 (if link then 1 else 2) d else d) s

/-- DRIVE_COMMAND_TIMEOUT (R438, R444). -/
def execDriveCommandTimeout (n : Nat) (s : State) : Host.Outcome State Fault Refusal :=
  lift (fun d =>
    if !(drv d n).up then d
    else
      let d := ctrInc (drvCtr n 0x20) d
      if [6, 7].contains (drv d n).st then drvLeave pairLost n 8 3 d else d) s

/-- The next slab to copy in a rebuild, and the chunk within it: the lowest allocated one not below the mark. -/
def rebuildNext (d : Dev) (n : Nat) : Option (Nat × Nat) :=
  let r := (drv d n).rebuilt
  ((pairMap d (n / 2)).used.find? fun u => decide (r < (u.1 + 1) * 1024)).map fun u => (u.1, max r (u.1 * 1024) - u.1 * 1024)

/-- A rebuild has copied every allocated slab (R438): the drive is a member. -/
def rebuildDone (n : Nat) (d : Dev) : Dev :=
  let (c, d) := freeCause d
  let d := drvState n 7 c d
  postDev 0xC9 ([BitVec.ofNat 8 n] ++ leBytes 4 (pairMap d (n / 2)).used.length ++ leBytes 4 (drv d n).marked) d

/-- REBUILD_CHUNK (R439): the next chunk is copied; `bad` names its LBAs the partner cannot read, which are marked. -/
def execRebuildChunk (n : Nat) (bad : List Nat) (s : State) : Host.Outcome State Fault Refusal :=
  lift (fun d =>
    if !(decide ((drv d n).st = 6) && storageUp d && drvMember d (partner n)) then d
    else match rebuildNext d n with
      | none => rebuildDone n d
      | some (sl, k) =>
        let base := 256 + slabLbas * sl + 256 * k
        let d := loopN 256 (fun i d =>
          let l := base + i
          if bad.contains i || (drv d (partner n)).unread.contains l then
            ctrInc (drvCtr n 0x18) (drvU n (fun x => { x with marked := x.marked + 1 }) (drvMark n l d))
          else
            let d := ctrInc (drvCtr (partner n) 8) d
            ctrInc (drvCtr n 0) (drvWrite n l (drvRead d (partner n) l 0 4096) d)) d
        let d := drvU n (fun x => { x with rebuilt := sl * 1024 + k + 1 }) d
        match rebuildNext d n with
        | none => rebuildDone n d
        | some _ => d) s

/-- REBUILD_PM (R443's LEDG_DRV_STAT): per mille of the allocated slabs copied. -/
def rebuildPm (d : Dev) (n : Nat) : Nat :=
  let us := (pairMap d (n / 2)).used
  let r := (drv d n).rebuilt
  if (drv d n).st ≠ 6 ∨ us = [] then 0
  else (us.map fun u => min 1024 (r - u.1 * 1024)).sum * 1000 / (us.length * 1024)

/-! ### Drive commands (R441) -/

/-- The status of a ledger command: PF0's admin queue alone, its own parameters, then what stands in its way. -/
def ledgStatus (d : Dev) (c : Cmd) (used : List (Nat × Nat)) (badParam : Bool) (late : List (Bool × Nat)) : Nat :=
  firstStatus ([(decide (c.fn ≠ 0) || (cmdSelf c).isNone, stNotPermitted), (!(reservedOk c used) || badParam, stBadParam),
    (decide (numPairs d.variant = 0), stAbsent), (decide (unitStatus d 48 ≠ 0), unitStatus d 48)] ++ late)

/-- LEDGER_FORMAT (R441): present member, foreign and stale drives become the pairs' members. -/
def execLedgerFormat (c : Cmd) (s : State) : Host.Outcome State Fault Refusal :=
  lift (fun d =>
    let gib := c.f 20 4
    let np := numPairs d.variant
    let ports := List.range (2 * np)
    let there := fun n => [3, 4, 7].contains (drv d n).st
    let pairS := fun p => min 130048 (([2 * p, 2 * p + 1].filter there).foldl (fun (a : Option Nat) n =>
      some (match a with
        | none => (drv d n).slabs
        | some m => min m (drv d n).slabs)) (none : Option Nat) |>.getD 0)
    let sMin := (List.range np).foldl (fun (a : Nat) p => min a (pairS p)) 130048
    checked c (ledgStatus d c [(20, 4)] (decide (gib % np ≠ 0) || decide (gib < np) || decide (np * sMin < gib))
        [(witEnAct d || anyIoSq d || ports.any (fun n => decide ((drv d n).st = 6)), stBadState)])
      (fun d =>
        let d := ((List.range 34).filter fun i => decide (2 ≤ i) && nsExists d i).foldl (fun d i => nsChanged (attachMask d i) d) d
        let (v, d) := fresh d
        let (w, d) := fresh d
        let d := ledU (fun l => { l with volume := leBytes 8 v ++ leBytes 8 w, epochs := [1, 1], attach := [], wbuf := [], maps := [] }) d
        let ns := ports.filter there
        let d := ns.foldl (fun d n => if drvMember d n then d else drvState n 7 4 d) d
        let d := (List.range np).foldl (fun d p => allocSlabs 1 (gib / np) p (pairMapW p ⟨pairS p, []⟩ d)) d
        let d := ns.foldl (fun d n => writeMap n (writeLabel n d)) d
        let d := jWrite 1 (zeros 4096) (jWrite 0 (zeros 4096) d)
        completeSt c 0 (settle d)) d) s

/-- The slab map a pair whose own is not known takes from another pair: the same slabs of each namespace (R420, R422). -/
def otherMap (d : Dev) (p slabs : Nat) : PairMap :=
  if (pairMap d p).used ≠ [] then pairMap d p
  else match (List.range (numPairs d.variant)).find? fun q => decide ((pairMap d q).used ≠ []) with
    | some q => ⟨min slabs 130048, (pairMap d q).used.zipIdx.map fun (u : (Nat × Nat × Nat) × Nat) => (u.2, u.1.2.1, u.1.2.2)⟩
    | none => ⟨min slabs 130048, []⟩

/-- DRIVE_ADOPT (R438, R441). -/
def execDriveAdopt (c : Cmd) (s : State) : Host.Outcome State Fault Refusal :=
  lift (fun d =>
    let n := c.f 16 1
    let force := bitOf (c.f 17 1) 0
    let p := n / 2
    let st := (drv d n).st
    let mate := drvMember d (partner n)
    let ok := [3, 4].contains st && (mate || force) && decide (d.ledger.volume ≠ [])
    checked c (ledgStatus d c [(16, 1), (17, 1)] (decide (3 < n) || decide (1 < c.f 17 1))
        [(decide (unitStatus d (dIsland n) ≠ 0), unitStatus d (dIsland n)), (!ok, stBadState)])
      (fun d =>
        let d := if mate then startRebuild n 4 (nextEpoch p d)
          else if st = 4 then nextEpoch p (drvState n 7 4 (adoptMap n d))
          else
            let m := otherMap d p (drv d n).slabs
            let d := drvState n 7 4 (pairMapW p m d)
            let d := m.used.foldl (fun d u => drvZero n (256 + slabLbas * u.1) slabLbas d) (writeMap n (writeLabel n d))
            postDev 0xCA [BitVec.ofNat 8 p, 1] d
        completeSt c 0 d) d) s

/-- DRIVE_RELEASE (R438, R441). -/
def execDriveRelease (c : Cmd) (s : State) : Host.Outcome State Fault Refusal :=
  lift (fun d =>
    let n := c.f 16 1
    let force := bitOf (c.f 17 1) 0
    checked c (ledgStatus d c [(16, 1), (17, 1)] (decide (3 < n) || decide (1 < c.f 17 1))
        [(decide (unitStatus d (dIsland n) ≠ 0), unitStatus d (dIsland n)),
         (!(drvMember d n && (drvMember d (partner n) || force)), stBadState)])
      (fun d => completeSt c 0 (drvLeave pairLost n 9 4 d)) d) s

/-- LEDGER_STATS (R441, R444). -/
def execLedgerStats (c : Cmd) (s : State) : Host.Outcome State Fault Refusal :=
  lift (fun d =>
    let buf := c.f 24 8
    checked c (ledgStatus d c [(17, 1), (24, 8)] (decide (1 < c.f 17 1) || decide (buf % 64 ≠ 0)) [])
      (fun d =>
        let keys := (List.range 4).flatMap fun n => (List.range 6).map fun i => drvCtr n (8 * i)
        let bs := keys.flatMap fun k => leBytes 8 (ctrR d k)
        let d := if bitOf (c.f 17 1) 0 then keys.foldl (fun d k => ctrW k 0 d) d else d
        reply c buf bs d) d) s

end Sys2Proof.Machine
end

