-- ==== Sys2Proof/Machine/Parse.lean ====
section
/-! DEFINITION. The short parser, the deep parsers, and the keys built from what they find (05). -/

namespace Sys2Proof.Machine

/-! ### The short parser (R153–R159) -/

/-- What the short parser found: offsets of the headers it parsed. -/
structure Parse where
  win : Nat := 0
  vlans : List Nat := []
  l3 : Option Nat := none
  /-- 0 none, 1 IPv4, 2 IPv6. -/
  l3Kind : Nat := 0
  l3Len : Nat := 0
  /-- First EtherType that is no VLAN tag's, when it was read. -/
  etype : Option Nat := none
  l4Kind : Nat := 0
  l4 : Option Nat := none
  ptp : Option Nat := none
  /-- PTP transport: 0 Ethernet, 1 UDP/IPv4, 2 UDP/IPv6. -/
  transport : Nat := 0xFF
  course : Option Nat := none
  trunc : Bool := false
  mismatch : Bool := false
  frag : Bool := false
  fragFirst : Bool := false
  deriving DecidableEq, Repr

/-- The L4 header at `o4`, with `rem` bytes of IP payload left there (R153, R156). -/
def parseL4 (bs : Bytes) (r : Parse) (o4 rem : Nat) : Parse :=
  if r.win ≤ o4 then { r with trunc := true } else
  let r := { r with l4 := some o4 }
  if r.l4Kind = 1 then
    if o4 + 12 < r.win ∧ (u8 bs (o4 + 12) / 16 < 5 ∨ rem < u8 bs (o4 + 12) / 16 * 4) then { r with mismatch := true } else r
  else if r.l4Kind = 2 then
    if o4 + 5 < r.win ∧ (be bs (o4 + 4) 2 < 8 ∨ be bs (o4 + 4) 2 ≠ rem) then { r with mismatch := true }
    else if r.win ≤ o4 + 3 then { r with trunc := true }
    else if be bs (o4 + 2) 2 = 319 ∨ be bs (o4 + 2) 2 = 320 then
      if r.win ≤ o4 + 8 then { r with trunc := true } else { r with ptp := some (o4 + 8), transport := r.l3Kind }
    else r
  else r

/-- L4_KIND of a protocol value after an IP version (R168). -/
def l4KindOf (v proto : Nat) : Nat :=
  if proto = 6 then 1 else if proto = 17 then 2 else if v = 1 ∧ proto = 1 then 3 else if v = 2 ∧ proto = 58 then 4 else 5

/-- After an IP header: the L4 header, when it is one the parser knows. -/
def afterIp (bs : Bytes) (r : Parse) (proto o4 rem : Nat) : Parse :=
  let r := { r with l4Kind := l4KindOf r.l3Kind proto }
  if r.l4Kind = 5 then r else parseL4 bs r o4 rem

/-- IPv4 at `o` (R153, R156, R157). -/
def parseV4 (bs : Bytes) (r : Parse) (o : Nat) : Parse :=
  if r.win ≤ o then { r with trunc := true } else
  let ihl := u8 bs o % 16
  let r := { r with l3 := some o, l3Kind := 1, l3Len := ihl * 4 }
  let tot := be bs (o + 2) 2
  let fo := be bs (o + 6) 2
  let isFrag := decide (2 ≤ ihl) && decide (o + 7 < r.win) && decide (fo % 2 ^ 14 ≠ 0)
  let r := if isFrag then { r with frag := true, fragFirst := decide (fo % 2 ^ 13 = 0) } else r
  if ihl < 5 ∨ (o + 3 < r.win ∧ (tot < ihl * 4 ∨ bs.length - o < tot)) then { r with mismatch := true }
  else if r.win ≤ o + 9 then (if isFrag then r else { r with trunc := true })
  else if isFrag then { r with l4Kind := l4KindOf 1 (u8 bs (o + 9)) }
  else afterIp bs r (u8 bs (o + 9)) (o + ihl * 4) (tot - ihl * 4)

/-- IPv6 extension headers from `e`, the value naming the next header in `nh`; `n` more are within the limit. -/
def parseExt (bs : Bytes) (o pay : Nat) : Nat → Parse → Nat → Nat → Parse
  | n, r, nh, e =>
    if nh = 0 ∨ nh = 43 ∨ nh = 44 ∨ nh = 60 then
      match n with
      | 0 => { r with trunc := true }
      | n + 1 =>
        if r.win ≤ e then { r with trunc := true }
        else if nh = 44 then
          parseExt bs o pay n { r with frag := true, fragFirst := r.fragFirst || decide (e + 3 < r.win) && decide (be bs (e + 2) 2 / 8 = 0) }
            (u8 bs e) (e + 8)
        else if r.win ≤ e + 1 then { r with trunc := true }
        else parseExt bs o pay n r (u8 bs e) (e + (u8 bs (e + 1) + 1) * 8)
    else if r.frag then { r with l4Kind := l4KindOf 2 nh }
    else afterIp bs r nh e (pay + 40 - (e - o))

/-- IPv6 at `o`. -/
def parseV6 (bs : Bytes) (r : Parse) (o : Nat) : Parse :=
  if r.win ≤ o then { r with trunc := true } else
  let r := { r with l3 := some o, l3Kind := 2, l3Len := 40 }
  let pay := be bs (o + 4) 2
  if o + 5 < r.win ∧ (pay = 0 ∨ bs.length - o < pay + 40) then { r with mismatch := true }
  else if r.win ≤ o + 6 then { r with trunc := true }
  else parseExt bs o pay 2 r (u8 bs (o + 6)) (o + 40)

/-- The EtherType at `o` and what follows; `n` more VLAN tags are within the limit. -/
def parseEth (bs : Bytes) : Nat → Parse → Nat → Parse
  | n, r, o =>
    if r.win ≤ o + 1 then { r with trunc := true } else
    let t := be bs o 2
    if t = 0x8100 ∨ t = 0x88A8 then
      match n with
      | 0 => { r with trunc := true }
      | n + 1 => parseEth bs n { r with vlans := r.vlans ++ [o] } (o + 4)
    else
      let r := { r with etype := some t }
      if t = 0x0800 then parseV4 bs r (o + 2)
      else if t = 0x86DD then parseV6 bs r (o + 2)
      else if t = 0x88F7 then
        if r.win ≤ o + 2 then { r with trunc := true } else { r with ptp := some (o + 2), transport := 0 }
      else if t = 0x88B5 then
        if r.win ≤ o + 2 then { r with trunc := true } else { r with course := some (o + 2) }
      else r

/-- The short parse of a frame's bytes, FCS excluded (R153–R157). -/
def shortParse (bs : Bytes) : Parse := parseEth bs 2 { win := min 64 bs.length } 12

/-- Frame kind (R159): 0 PTP, 1 IPv4, 2 IPv6, 3 other. -/
def frameKindOf (r : Parse) : Nat := if r.ptp.isSome then 0 else if r.l3Kind = 1 then 1 else if r.l3Kind = 2 then 2 else 3

/-- PARSE_FLAGS from a short parse (R168). -/
def shortFlags (r : Parse) : Nat := b2n r.frag + 2 * b2n r.fragFirst + 4 * b2n r.trunc + 8 * b2n r.mismatch

/-! ### Deep parsers (R160–R165) -/

/-- A word of PARSE group 1 as deep parser `j` has it: each takes a commit at its own instant (R165). -/
def graphR (d : Dev) (j k : Nat) : Word := unitR d 0x301000 j k

/-- GRAPH_EN and DEPTH of a deep parser (R155, R165). -/
def graphEn (d : Dev) (j : Nat) : Bool := Word.bit (graphR d j 0x301010) 16
def graphDepth (d : Dev) (j : Nat) : Nat := Word.fld (graphR d j 0x301010) 8 0

/-- Byte `b` of parse-graph node `n` of deep parser `j` (R164). -/
def nodeByte (d : Dev) (j n b : Nat) : Nat :=
  Word.fld (graphR d j (0x301800 + 32 * n + b / 4 * 4)) (8 * (b % 4) + 7) (8 * (b % 4))

/-- A deep parse in progress: headers found, newest first, and its flags. -/
structure Deep where
  hdrs : List DHdr := []
  trunc : Bool := false
  mismatch : Bool := false
  tunnels : Nat := 0
  deriving DecidableEq, Repr

/-- Whether `n` bytes at `i` of a header at `o`, `len` bytes long, are present (R155). -/
def has (win o len i n : Nat) : Bool := decide (i + n ≤ len) && decide (o + i + n ≤ win)

/-- The IP payload remaining at an L4 header, from the innermost IP header found, when its length field is present (R156). -/
def deepRem (bs : Bytes) (win : Nat) (hs : List DHdr) (o : Nat) : Option Nat :=
  match hs.find? fun h => decide (h.role = 1) || decide (h.role = 2) with
  | some h =>
    if h.role = 1 then (if has win h.off h.len 2 2 then some (be bs (h.off + 2) 2 - (o - h.off)) else none)
    else (if has win h.off h.len 4 2 then some (be bs (h.off + 4) 2 + 40 - (o - h.off)) else none)
  | none => none

/-- The length check of a node (R156) for its role, with its computed length. -/
def deepBad (bs : Bytes) (win : Nat) (hs : List DHdr) (o len role : Nat) : Bool :=
  let av := bs.length - o
  let at_ (i n : Nat) : Bool := has win o len i n
  decide (len = 0) || decide (av < len) ||
  (if role = 1 then decide (u8 bs o % 16 < 5) || (at_ 2 2 && (decide (be bs (o + 2) 2 < u8 bs o % 16 * 4) || decide (av < be bs (o + 2) 2)))
   else if role = 2 then at_ 4 2 && (decide (be bs (o + 4) 2 = 0) || decide (av < be bs (o + 4) 2 + 40))
   else if role = 4 then at_ 4 2 && (decide (be bs (o + 4) 2 < 8) ||
     (match deepRem bs win hs o with | some r => decide (be bs (o + 4) 2 ≠ r) | none => false))
   else if role = 3 then at_ 12 1 && (decide (u8 bs (o + 12) / 16 < 5) ||
     (match deepRem bs win hs o with | some r => decide (r < u8 bs (o + 12) / 16 * 4) | none => false))
   else false)

/-- Where a walk stands in an IPv6 header chain (R157): what the chain names for the next header, none outside a chain, and
whether it has a fragment header. A header is one of the chain where the IPv6 header's or the extension header's own
next-header field says so, whatever the graph calls its node (DEDUCED, log entry 68). -/
structure Chain where
  nh : Option Nat := none
  frag : Bool := false
  deriving DecidableEq, Repr

/-- Whether a next-header value names an extension header (R153). -/
def isExt (nh : Nat) : Bool := decide (nh = 0) || decide (nh = 43) || decide (nh = 44) || decide (nh = 60)

/-- The chain after a header of `role` at `o`. -/
def chainNext (bs : Bytes) (win o len role : Nat) (c : Chain) : Chain :=
  if role = 2 then { nh := if has win o len 6 1 then some (u8 bs (o + 6)) else none }
  else
    match c.nh with
    | some v =>
      if isExt v then { nh := if has win o len 0 1 then some (u8 bs o) else none, frag := c.frag || decide (v = 44) } else {}
    | none => {}

/-- Whether a parse ends behind a header: it is an IPv4 header of a fragment, or ends an IPv6 chain with a fragment header
(R157). A fragment field that is absent (R155) shows none. -/
def fragEnds (bs : Bytes) (win o len role : Nat) (c : Chain) : Bool :=
  let fo := be bs (o + 6) 2
  (decide (role = 1) && has win o len 6 2 && (bitOf fo 13 || decide (fo % 2 ^ 13 ≠ 0))) ||
  (c.frag && (match c.nh with | some v => !(isExt v) | none => false))

/-- Walk the graph of deep parser `j` (R163) from `node` at byte `o`; `n` headers are still within the limit. -/
def deepWalk (d : Dev) (j : Nat) (bs : Bytes) (win : Nat) : Nat → Deep → Chain → Nat → Nat → Nat → Nat → Deep
  | 0, r, _, _, _, _, _ => { r with trunc := true }
  | n + 1, r, c, node, o, tags, labels =>
    let g (b : Nat) : Nat := nodeByte d j node b
    let kind := g 1
    let tag := bitOf kind 0
    let label := bitOf kind 1
    if (tag && decide (8 ≤ tags)) || (label && decide (8 ≤ labels)) || (bitOf kind 2 && decide (2 ≤ r.tunnels)) ||
       decide (win ≤ o) then { r with trunc := true } else
    let gre := decide (bitsOf (g 3) 5 4 = 1)
    let needs := !gre && decide (g 6 ≠ 0) && decide (g 7 ≠ 0)
    if needs && decide (win ≤ o + g 5) then { r with trunc := true } else
    let len := if gre then 4 + 4 * (b2n (bitOf (u8 bs o) 7) + b2n (bitOf (u8 bs o) 5) + b2n (bitOf (u8 bs o) 4))
      else g 4 + ((u8 bs (o + g 5) &&& g 6) >>> (g 3 % 16)) * g 7
    let maxLen := if g 8 = 0 then 255 else g 8
    if maxLen < len then { r with trunc := true } else
    let role := bitsOf kind 6 4
    let bad := deepBad bs win r.hdrs o len role
    let r := { r with hdrs := ⟨g 0 % 64, r.tunnels, o, role, len⟩ :: r.hdrs }
    if bad then { r with mismatch := true } else
    let r := if bitOf kind 2 then { r with tunnels := r.tunnels + 1 } else r
    let c := chainNext bs win o len role c
    if fragEnds bs win o len role c then r
    else if g 10 = 0 then r
    else if win < o + g 9 + g 10 then { r with trunc := true }
    else
      let sel := be bs (o + g 9) (g 10) &&& (g 12 + 256 * g 13)
      let next := match (List.range 6).find? fun i =>
          decide (g (14 + 3 * i + 2) ≠ 0xFE) && decide (g (14 + 3 * i) + 256 * g (14 + 3 * i + 1) = sel) with
        | some i => g (14 + 3 * i + 2)
        | none => g 11
      if 64 ≤ next then r else deepWalk d j bs win n r c next (o + len) (tags + b2n tag) (labels + b2n label)

/-- The deep parse of a frame by deep parser `j` (R155, R163). -/
def deepParse (d : Dev) (j : Nat) (bs : Bytes) : Deep :=
  let r := deepWalk d j bs (min (graphDepth d j) bs.length) 16 {} {} 0 0 0 0
  { r with hdrs := r.hdrs.reverse }

/-! ### Keys (R166–R168) -/

/-- The metadata block (R168). -/
def metaBlock (port flags : Nat) (r : Parse) (tunnels : Nat) (bs : Bytes) : Bytes :=
  leBytes 1 port ++ leBytes 1 flags ++ leBytes 1 r.l3Kind ++ leBytes 1 r.l4Kind ++
  (match r.vlans with | o :: _ => beBytes 2 (be bs (o + 2) 2 % 4096) | [] => [0xFF, 0xFF]) ++
  leBytes 1 (if r.ptp.isSome then r.transport else 0xFF) ++ leBytes 1 tunnels ++ zeros 8

/-- Length of a deep header and the same-numbered headers that follow it at once (R167). -/
def deepSpan : List DHdr → Nat → Nat → Nat → Nat
  | [], _, _, acc => acc
  | h :: t, id, off, acc => if h.id = id ∧ h.off = off then deepSpan t id (off + h.len) (acc + h.len) else acc

/-- The header a selector reads: offset and length, when it was parsed (R167). -/
def srcHeader (r : Parse) (deep : List DHdr) (sel : Word) : Option (Nat × Nat) :=
  match Word.fld sel 31 28 with
  | 1 => some (0, 14)
  | 2 => r.vlans.head?.map fun o => (o, 4)
  | 3 => (r.vlans[1]?).map fun o => (o, 4)
  | 4 => r.l3.map fun o => (o, r.l3Len)
  | 5 => r.l4.map fun o => (o, if r.l4Kind = 1 then 20 else 8)
  | 6 => r.ptp.map fun o => (o, 34)
  | 7 => r.course.map fun o => (o, 48)
  | 8 =>
    let i := deep.findIdx fun h => decide (h.id = Word.fld sel 27 22) && decide (h.level = Word.fld sel 21 20)
    (deep[i]?).map fun h => (h.off, deepSpan (deep.drop i) h.id h.off 0)
  | _ => none

/-- The bytes of one selector, and whether its field is present (R155, R167). -/
def selBytes (bs : Bytes) (r : Parse) (deep : List DHdr) (deepWin : Nat) (mb : Bytes) (sel : Word) : Bytes × Bool :=
  let src := Word.fld sel 31 28
  let off := Word.fld sel 19 12
  let n := Word.fld sel 11 8 + 1
  if src = 0 then ([], false) else
  let mask (b : Bytes) : Bytes := patch b (n - 1) (leBytes 1 (u8 b (n - 1) &&& Word.fld sel 7 0))
  if src = 9 then (if off + n ≤ 16 then (mask (slice mb off n), true) else (zeros n, false)) else
  let win := if src = 8 then deepWin else r.win
  match srcHeader r deep sel with
  | some (h, len) => if off + n ≤ len ∧ h + off + n ≤ win then (mask (slice bs (h + off) n), true) else (zeros n, false)
  | none => (zeros n, false)

/-- The key of a frame under a profile, as its pipe has it (R167, R193). -/
def frameKey (d : Dev) (f : Frame) (prof : Nat) : Bytes :=
  let r := shortParse f.bytes
  let mb := metaBlock f.port f.pflags r f.tunnels f.bytes
  let fs := (List.range 12).map fun i => selBytes f.bytes r f.deep f.deepWin mb (unitR d 0x400000 f.pipe (0x400108 + 64 * prof + 4 * i))
  let present := (fs.zipIdx).foldl (fun n e => n + (if e.1.2 then 2 ^ e.2 else 0)) 0
  (padTo 48 (leBytes 1 (prof * 16 + present / 256) ++ leBytes 1 (present % 256) ++ fs.flatMap fun e => e.1)).take 48

/-! ### Load spreading (R183, R184) -/

/-- A function's load spreading. -/
def rss (d : Dev) (f : Nat) : Rss := Tbl.get (fun _ => {}) d.rss f

/-- The innermost header of a role in a deep parse. -/
def innermost (deep : List DHdr) (role : Nat) : Option DHdr := deep.reverse.find? fun h => decide (h.role = role)

/-- The hash input of a frame (R183): of the selected fields those present under R155. -/
def rssInput (x : Rss) (f : Frame) : Bytes :=
  let r := shortParse f.bytes
  let inner := bitOf x.fields 4 && f.deep.any fun h => decide (0 < h.level)
  let win := if inner then f.deepWin else r.win
  let hdr (role : Nat) (short : Option (Nat × Nat)) : Option (Nat × Nat) :=
    if inner then (innermost f.deep role).map fun h => (h.off, h.len) else short
  let l3 (k : Nat) : Option (Nat × Nat) := if r.l3Kind = k then r.l3.map (·, r.l3Len) else none
  let l4 (k n : Nat) : Option (Nat × Nat) := if r.l4Kind = k then r.l4.map (·, n) else none
  let use (b : Nat) (h : Option (Nat × Nat)) (i n : Nat) : Bytes :=
    match h with
    | some (o, len) => if bitOf x.fields b && has win o len i n then slice f.bytes (o + i) n else []
    | none => []
  let v4 := hdr 1 (l3 1)
  let v6 := hdr 2 (l3 2)
  let tcp := hdr 3 (l4 1 20)
  let udp := hdr 4 (l4 2 8)
  use 0 v4 12 4 ++ use 0 v4 16 4 ++ use 1 v6 8 16 ++ use 1 v6 24 16 ++
  (if bitOf f.pflags 0 then [] else use 2 tcp 0 2 ++ use 2 tcp 2 2 ++ use 3 udp 0 2 ++ use 3 udp 2 2) ++
  (match r.vlans with
   | o :: _ => if bitOf x.fields 5 && has r.win o 4 2 2 then beBytes 2 (be f.bytes (o + 2) 2 % 4096) else []
   | [] => [])

/-- The hash of a frame (R183): 0 with no selected field present. -/
def rssHash (x : Rss) (f : Frame) : Nat :=
  let i := rssInput x f
  if i.isEmpty then 0 else if x.kind = 0 then toeplitz x.key i else crc32c i

/-- The local RX queue the indirection table of a function gives a frame (R184). -/
def rssQueue (d : Dev) (fn : Nat) (f : Frame) : Nat :=
  let x := rss d fn
  Tbl.get (fun _ => 0) x.table (rssHash x f % 2 ^ x.log2)

end Sys2Proof.Machine
end

