-- ==== Sys2Proof/Machine/Buffer.lean ====
section
/-! DEFINITION. Buffer admission and the egress queues (09), and the bounds the device computes from the configuration:
course hold windows (R203), guard bands (R333) and plumb budgets (R352). -/

namespace Sys2Proof.Machine

/-! ### Occupancy (R337) -/

/-- Cells of a frame. -/
def cells (n : Nat) : Nat := ceilDiv n 256

def framesCells (fs : List Frame) : Nat := fs.foldl (fun n f => n + cells f.bytes.length) 0

/-- The frame of a crossing entry that stands in the packet buffer. -/
def xingFrame (x : Xing) : Option Frame :=
  match x.item with
  | .ingress _ => none
  | .gate _ f | .course _ f | .rx _ _ f | .egress _ _ f | .plumb _ f => some f

/-- Copies of a plumb release hold one set of cells (R337). -/
def copyFrames (d : Dev) : List Frame :=
  d.copies.zipIdx.filterMap fun c =>
    if (d.copies.take c.2).any fun x => decide (x.pkt = c.1.pkt) then none else some c.1.frame

/-- A course's state. -/
def course (d : Dev) (c : Nat) : Course := Tbl.get (fun _ => {}) d.courses c

/-- Change a course. -/
def courseU (c : Nat) (f : Course → Course) (d : Dev) : Dev := { d with courses := Tbl.upd (fun _ => {}) d.courses c f }

/-- Cells held in the packet buffer (R337). -/
def bufCells (d : Dev) : Nat :=
  framesCells (d.xings.filterMap xingFrame) + (d.egqs.foldl (fun n e => n + framesCells e.2) 0) +
  (d.courses.foldl (fun n e => n + framesCells (e.2.held.map (·.frame))) 0) +
  (d.hports.foldl (fun n e => n + framesCells (e.2.rx.map (·.frame))) 0) + framesCells (copyFrames d) +
  (d.clusters.foldl (fun n e => n + framesCells (e.2.thrs.filterMap fun t => t.2.item.map (·.frame))) 0)

/-- Cells that frames may use: those of the halves that work, below the reserve at the top (R337, R382, R558). -/
def pbCells (d : Dev) : Nat :=
  let lim := 393216 - 4096 * effF d 0xD00018 5 0
  (if islandOn d 26 then min lim 196608 else 0) + (if islandOn d 27 then lim - 196608 else 0)

/-- The frames of port `p`'s egress queue `q`. -/
def egq (d : Dev) (p q : Nat) : List Frame := Tbl.get (fun _ => []) d.egqs (p * 16 + q)

/-- A port's scheduler. -/
def schedP (d : Dev) (p : Nat) : SchedP := Tbl.get (fun _ => {}) d.scheds p

/-- Change a port's scheduler. -/
def schedU (p : Nat) (f : SchedP → SchedP) (d : Dev) : Dev := { d with scheds := Tbl.upd (fun _ => {}) d.scheds p f }

/-- Replace an egress queue; one of the weighted group that empties has its deficit set to 0 (R324). -/
def egqW (p q : Nat) (fs : List Frame) (d : Dev) : Dev :=
  let d := { d with egqs := Tbl.set (fun _ => []) d.egqs (p * 16 + q) fs }
  if fs.isEmpty then schedU p (fun x => { x with deficits := Tbl.set (fun _ => 0) x.deficits q 0 }) d else d

/-! ### Discards (R106, R108, R338) -/

/-- The TX packet of a frame from a host queue. -/
def framePkt (d : Dev) (f : Frame) : Option TxPkt :=
  match f.pkt with | some id => d.pkts.find? fun p => decide (p.id = id) | none => none

/-- A host packet's frame is discarded: its EGRESS record with DROPPED, if it asked for one and `record` says so, and its completion; a
plumb packet's copies end one by one, with their own records (R134, R227, R292). -/
def endPkt (record : Bool) (f : Frame) (status : Nat) (d : Dev) : Dev :=
  match framePkt d f with
  | none => d
  | some p =>
    let d := if record && dWitness p.head && (plumbOf (queue d p.fn 0 p.lq) p.head).isNone then
        (writeRec (egressRec d p none f.port) (egressPipe d f.port) d).2 else d
    packetEnds p.id status (segBytes p.segs) d
def dropPkt : Frame → Nat → Dev → Dev := endPkt true

/-- A queued frame of a port is discarded and counted in TX_DISCARD (R106). -/
def discardTx (p : Nat) (status : Nat) (f : Frame) (d : Dev) : Dev :=
  deliveryDrop f (dropPkt f status (ctrInc (pKey p 0x1C8) d))

/-- Discard every frame queued to a port (R106, DOWN_POLICY 0). -/
def flushQueues (p : Nat) (d : Dev) : Dev :=
  (List.range 16).foldl (fun d q =>
    let fs := egq d p q
    fs.foldl (fun d f => discardTx p 4 f d) (egqW p q [] d)) d

/-- Discard the frames of a port's transmit hold (R106). -/
def flushHold (p : Nat) (d : Dev) : Dev :=
  let hs := (port d p).hold
  hs.foldl (fun d h => discardTx p 4 h.frame d) (portU p (fun x => { x with hold := [] }) d)

/-! ### Admission (R336–R338) -/

/-- Key of a SCHED page register. -/
def sKey (p off : Nat) : Nat := 0x700000 + p * 0x4000 + off

/-- Whether a frame is admitted to an egress queue (R336). -/
def admitted (d : Dev) (p q : Nat) (f : Frame) : Bool :=
  let n := cells f.bytes.length
  let occ := bufCells d
  let ql := effF d (sKey p (0x108 + 16 * q)) 16 0
  let th := effF d ((if f.colour = 1 then 0x7C0100 else 0x7C0104) + 8 * f.cls) 16 0
  decide (occ + n ≤ pbCells d) && (decide (ql = 0) || decide ((framesCells (egq d p q) + n) * 256 ≤ ql * 1024)) &&
  (f.fromFn.isSome || decide (f.colour = 0) || decide (th = 0) || decide (occ * 256 < th * 1024))

/-- DOWN_POLICY in effect. -/
def downPolicy (d : Dev) (p : Nat) : Bool := effB d (pKey p 0x24) 15
/-- LOOP in effect. -/
def loopCfg (d : Dev) (p : Nat) : Nat := effF d (pKey p 0x24) 17 16

/-- Whether the port's transmitter may start a frame of its own: UP with no remote fault (R105), and not retransmitting what it
receives (R108). -/
def mayTransmit (d : Dev) (p : Nat) : Bool :=
  decide (lstate d p = 4) && !(bitR d (pKey p 0x40) 10) && decide (loopCfg d p ≠ 2) && !d.fatal

/-- Whether frames may wait in a port's queues: its link is up or held, in loopback, or waits under DOWN_POLICY 1. -/
def mayQueue (d : Dev) (p : Nat) : Bool :=
  decide (4 ≤ lstate d p) || downPolicy d p || decide (loopCfg d p = 2)

/-- A frame reaches port `p`'s queue `q` (R108, R336, R338); one over MAX_FRAME writes no record (R227). -/
def enqueue (p q : Nat) (f : Frame) (d : Dev) : Dev :=
  if maxFrame d p < lenAsSent f.bytes.length then
    deliveryDrop f (endPkt false f 5 (ctrInc (pKey p 0x1C8) d))
  else if !(mayQueue d p) then discardTx p 4 f d
  else if admitted d p q f then egqW p q (egq d p q ++ [f]) d
  else
    let col := if f.fromFn.isSome then 0 else f.colour % 3
    let d := ctrInc (sKey p (0x3010 + 0x20 * q)) (ctrInc (0x7C0200 + 8 * col) d)
    let d := rateNote (rateKey 0x72 col) 0 d
    deliveryDrop f (dropPkt f 6 d)

/-! ### Guard bands (R333) -/

/-- The device-computed guard band of a port in ns; none while it has no MAC rate. -/
def devGuard (d : Dev) (p : Nat) : Option Nat :=
  let r := modeRate (modeAct d p)
  if r = 0 then none else some (ceilDiv ((maxFrame d p + 20) * 8) r + 16)

/-- GB in effect (R333): GUARD, or the device-computed value. -/
def guardNow (d : Dev) (p : Nat) : Nat :=
  let g := effF d (sKey p 0x14) 19 0
  if g ≠ 0 then g else match devGuard d p with | some x => x | none => fldR d (sKey p 0x44) 19 0

/-- A configuration's cycle as consecutive (GATES, ns), cut or extended to the cycle (R328). -/
def fitCycle : List (Nat × Nat) → Nat → List (Nat × Nat)
  | [], _ => []
  | [(g, _)], left => if left = 0 then [] else [(g, left)]
  | (g, n) :: t, left => if left = 0 then [] else if left ≤ n then [(g, left)] else (g, n) :: fitCycle t (left - n)

/-- Whether some gate of a list is open for less than `gb` ns without a break (R334). -/
def shortWindow (c : GateCfg) (gb : Nat) : Bool :=
  let es := fitCycle c.list c.cycle
  (List.range 16).any fun q =>
    let r := (es ++ es ++ [(0, 0)]).foldl (fun (a : Option Nat × Bool) (e : Nat × Nat) =>
      if bitOf e.1 q then (a.1.map (· + e.2), a.2)
      else (some 0, a.2 || (match a.1 with | some n => decide (0 < n) && decide (n < gb) | none => false))) ((none : Option Nat), false)
    r.2 && es.any fun e => !(bitOf e.1 q)

/-- Set SHORT_WINDOW. -/
def shortUpdate9 (p : Nat) (d : Dev) : Dev :=
  bitW (sKey p 0x40) 29 (match (schedP d p).oper with | some c => shortWindow c (guardNow d p) | none => false) d

/-- Recompute GB_ACT; a change posts GB_CHANGED, and SHORT_WINDOW follows. -/
def guardUpdate (p : Nat) (d : Dev) : Dev :=
  let d := shortUpdate9 p d
  let old := fldR d (sKey p 0x44) 19 0
  let new := guardNow d p
  if old = new then d
  else postDev 0x73 (leBytes 1 p ++ leBytes 4 old ++ leBytes 4 new) (regW (sKey p 0x44) (BitVec.ofNat 32 new) d)

/-! ### Plumb budgets (R352) -/

/-- Key of a PLUMB register. -/
def gKey (g off : Nat) : Nat := 0x800000 + g * 0x1000 + off

/-- A member's d_p + TX_DELAY_p + F_p, in Q16 ns. -/
def memberTerm (d : Dev) (p : Nat) : Nat :=
  let e := entryOf d p true
  entD e + entTx e + (devGuard d p).getD 0 * 65536

/-- The largest of a list by a measure, the first on a tie, with its value. -/
def argMax (f : Nat → Nat) : List Nat → Option (Nat × Nat)
  | [] => none
  | p :: t => match argMax f t with
    | some (q, v) => if f p < v then some (q, v) else some (p, f p)
    | none => some (p, f p)

/-- B_REQ of a group in ns, and the member that sets it. -/
def plumbReq (d : Dev) (g : Nat) : Nat × Nat :=
  match argMax (memberTerm d) (plumbMembers d g) with
  | some (p, v) => (ceilDiv (v + 64 * 65536) 65536, p)
  | none => (0, 0)

/-- Recompute a group's B_REQ, B and BUDGET_SHORT (R352). -/
def plumbUpdate (g : Nat) (d : Dev) : Dev :=
  if !(bitR d (gKey g 0x40) 31) then d else
  let (req, dom) := plumbReq d g
  let old := fldR d (gKey g 0x44) 19 0
  let d := if req = old ∧ fldR d (gKey g 0x44) 29 24 = dom then d else
    let d := regW (gKey g 0x44) (Word.put (Word.put 0 29 24 dom) 19 0 req) d
    if req = old then d else postDev 0x82 (leBytes 1 g ++ leBytes 4 old ++ leBytes 4 req ++ leBytes 1 dom) d
  let b := if effF d (gKey g 0x14) 19 0 = 0 then req else effF d (gKey g 0x14) 19 0
  let d := regW (gKey g 0x48) (BitVec.ofNat 32 b) d
  if b < req then
    postDev 0x81 (leBytes 1 g ++ leBytes 4 b ++ leBytes 4 req) (bitW (gKey g 0x40) 30 true d)
  else bitW (gKey g 0x40) 30 false d

/-- Recompute the groups that have a port as member. -/
def plumbTouch (p : Nat) (d : Dev) : Dev :=
  (List.range 64).foldl (fun d g => if (plumbMembers d g).contains p then plumbUpdate g d else d) d

/-! ### Course hold windows (R203–R205) -/

/-- Key of a COURSE register. -/
def coKey (c off : Nat) : Nat := 0x500000 + c * 0x1000 + off

/-- EN_ACT of a course. -/
def courseOn (d : Dev) (c : Nat) : Bool := bitR d (coKey c 0x40) 31

/-- Whether gate `g` is enabled in effect, and its BUDGET. -/
def gateOn (d : Dev) (g : Nat) : Bool := effB d (0xA00100 + 0x20 * g) 31
def gateBudget (d : Dev) (g : Nat) : Nat := effF d (0xA00100 + 0x20 * g) 19 0

/-- The budget B of R203 in cycles; none where the ungated row applies. -/
def gatedBudget (d : Dev) (c : Nat) : Option Nat :=
  let gates := (List.range 64).filter (gateOn d)
  let big := gates.foldl (fun n g => max n (gateBudget d g)) 0
  let cls := (List.range 64).filter fun k =>
    effB d (0x401100 + 16 * k) 30 && decide (effF d (0x401100 + 16 * k) 29 28 = c)
  if gates.isEmpty ∨ cls.isEmpty then none
  else some (cls.foldl (fun n k => max n (let b := effF d (0x401104 + 16 * k) 19 0; if b = 0 then big else b)) 0)

/-- Whether a profile looks up in an enabled DRAM-tier table. -/
def profDram (d : Dev) (k : Nat) : Bool :=
  let t := effF d (0x400100 + 64 * k) 30 28
  effB d (0x400100 + 64 * k) 31 && effB d (0x402100 + 16 * t) 31 && effB d (0x402100 + 16 * t) 30

/-- The port island row of R47 in hundredths of a ns. -/
def portRow (m f : Nat) : Nat :=
  if m = 1 then 2800 else if m = 2 then (if f = 0 then 2800 else if f = 1 then 13000 else 28000)
  else if m = 3 then 16000 else 9000

/-- Whether a port island is being remapped (R560). -/
def remapping (d : Dev) (n : Nat) : Bool := d.mapJobs.any fun j => decide (j.island = n) && j.started

/-- MAX_FRAME in effect of the receive direction (R111). -/
def maxFrameRx (d : Dev) (p : Nat) : Nat :=
  let v := dirF d false p (pKey p 0x10) 13 0
  if v = 0 then 16383 else v

/-- DEEP of a port in effect in the receive direction. -/
def deepPort (d : Dev) (p : Nat) : Bool := dirB d false p (pKey p 0x10) 23

/-- The FEC that a port's bound is taken with (R203). -/
def fecUsed (d : Dev) (p : Nat) : Nat := if lstate d p = 4 then fecAct d p else fecCfg d p

/-- The path bound of a port for a course in ns (R48, R203), with 600 ns more while its island is remapped (R560). The terms are
added as exact fractions and the sum rounded up once: R48 states them in Q16 ns and gives no rounding of 0.67, 53.33 or 8F/R to
that unit (DESIGN CHOICE, log entry 66). -/
def pathBound (d : Dev) (c p : Nat) : Nat :=
  let m := modeCfg d p
  let f := fecUsed d p
  let w := effR d (0x300100 + 4 * p)
  let dram := profDram d (Word.fld w 31 28) || profDram d (Word.fld w 27 24) || profDram d (Word.fld w 23 20) ||
    profDram d (Word.fld w 19 16)
  let sum := portRow m f + 400 + 3600 + (if remapping d (portIsland p) || (decide (m = 8) && remapping d (portIsland p + 1)) then 60000 else 0) + (if dram then 32000 else 0) +
    (if deepPort d p then 5333 else 0) + 67 +
    (match gatedBudget d c with | some b => b * 50 + 2300 | none => 400)
  ceilDiv (800 * maxFrameRx d p + sum * modeRate m) (100 * modeRate m)

/-- Member ports of a course that enter the sum (R196, R203). -/
def courseMembers (d : Dev) (c : Nat) : List Nat :=
  (List.range 48).filter fun p =>
    effB d (coKey c (if p < 32 then 0x18 else 0x1C)) (p % 32) && decide (modeCfg d p ≠ 0) && !(subsumed d p)

/-- W_REQ, whether it was clamped, and the dominant port (R203). -/
def courseReq (d : Dev) (c : Nat) : Nat × Bool × Nat :=
  match argMax (pathBound d c) (courseMembers d c) with
  | some (p, v) => (max 200 (min 1000000 (v + 64)), decide (1000000 < v + 64), p)
  | none => (200, false, 0)

/-- W in effect. -/
def courseW (d : Dev) (c : Nat) : Nat := fldR d (coKey c 0x44) 19 0

/-- Change W, posting COURSE_W_CHANGED (R204). -/
def setW (c w : Nat) (d : Dev) : Dev :=
  let old := courseW d c
  if old = w then d
  else postDev 0x50 (leBytes 1 c ++ leBytes 4 old ++ leBytes 4 w ++ leBytes 1 (fldR d (coKey c 0x48) 29 24))
    (regW (coKey c 0x44) (BitVec.ofNat 32 w) d)

/-- W_SHORT follows W and W_REQ (R205). -/
def shortUpdate (c : Nat) (d : Dev) : Dev :=
  let short := decide (courseW d c < fldR d (coKey c 0x48) 19 0) && effB d (coKey c 0x10) 30
  let was := bitR d (coKey c 0x40) 30
  let d := bitW (coKey c 0x40) 30 short d
  if short && !was then
    postDev 0x51 (leBytes 1 c ++ leBytes 4 (courseW d c) ++ leBytes 4 (fldR d (coKey c 0x48) 19 0)) d
  else d

/-- Recompute a course's W_REQ and let W follow (R203–R205). -/
def courseUpdate (c : Nat) (d : Dev) : Dev :=
  let (req, cl, dom) := courseReq d c
  let d := (courseMembers d c).foldl (fun d p => portU p (fun x => { x with lastFec := some (fecUsed d p) }) d) d
  let d := regW (coKey c 0x48) (Word.putBit (Word.put (Word.put 0 29 24 dom) 19 0 req) 31 cl) d
  let w := if effB d (coKey c 0x10) 30 then effF d (coKey c 0x14) 19 0 else req
  let cur := courseW d c
  let d :=
    if effB d (coKey c 0x10) 30 ∨ cur ≤ w then
      setW c w (bitW (coKey c 0x40) 29 false (courseU c (fun x => { x with shrink := none }) d))
    else if (course d c).shrink.map (·.1) = some w then d
    else bitW (coKey c 0x40) 29 true (courseU c (fun x => { x with shrink := some (w, now d + cur) }) d)
  shortUpdate c d

/-- Recompute every course's window (R204). -/
def coursesUpdate (d : Dev) : Dev := (List.range (numCourses d.variant)).foldl (fun d c => courseUpdate c d) d

/-- W_SHRINK (R204): a smaller W takes effect once the old W has elapsed. -/
def execWShrink (course_ : Nat) (s : State) : Host.Outcome State Fault Refusal :=
  lift (fun d =>
    match (course d course_).shrink with
    | some (w, t) =>
      if t ≤ now d then
        shortUpdate course_ (setW course_ w (bitW (coKey course_ 0x40) 29 false
          (courseU course_ (fun x => { x with shrink := none }) d)))
      else d
    | none => d) s

/-- ADMISSION_DROP (R338, R342): the refusals since the last posting, at most once per second. -/
def execAdmissionDrop (s : State) : Host.Outcome State Fault Refusal :=
  lift (fun d =>
    let k (i : Nat) : Nat := rateKey 0x72 i
    if rateDue d (k 0) || rateDue d (k 1) || rateDue d (k 2) then
      rateClear (k 0) (rateClear (k 1) (rateClear (k 2)
        (postDev 0x72 (leBytes 4 (rateOf d (k 0)).count ++ leBytes 4 (rateOf d (k 1)).count ++ leBytes 4 (rateOf d (k 2)).count) d)))
    else d) s

/-- EGRESS_ENQUEUE (R336): the oldest frame readable at an egress pipe enters its egress queue. -/
def execEgressEnqueue (pipe : Nat) (s : State) : Host.Outcome State Fault Refusal :=
  lift (fun d =>
    match receive (epIsland pipe) (fun i => match i with | .egress _ _ _ => true | _ => false) d with
    | some (.egress p q f, d) => enqueue p q f d
    | _ => d) s

end Sys2Proof.Machine
end

