-- ==== Sys2Proof/Machine/Calib.lean ====
section
/-! DEFINITION. Calibration commands and runs (04). -/

namespace Sys2Proof.Machine

/-- Set the CAL registers from the table in effect (04). -/
def calRegs (d : Dev) : Dev :=
  let d := match d.cal with
    | some c => bitW 0xF00010 3 (decide (c.users ≠ [])) (bitW 0xF00010 0 true d)
    | none => bitW 0xF00010 3 false (bitW 0xF00010 0 false d)
  (List.range 48).foldl (fun d p => calPortStat p d) d

/-! ### Runs (R145–R148) -/

/-- The mean of round trips rounded to nearest (R148). -/
def meanOf (rs : List Int) : Int :=
  let n : Int := rs.length
  if n = 0 then 0 else (2 * rs.foldl (· + ·) 0 + n) / (2 * n)

/-- The 64 bytes of a run's result (R148). Without a returned frame, MIN, MEAN and MAX are free: the spec states none
(log entry 32). -/
def calResult (p : Nat) (r : CalRun) (d : Dev) : Bytes × Dev :=
  let e := entryOf d p false
  let (mn, d) := if r.rtt.isEmpty then (let (x, d) := fresh d; ((x : Int), d)) else (r.rtt.foldl min (r.rtt.headD 0), d)
  let (me, d) := if r.rtt.isEmpty then (let (x, d) := fresh d; ((x : Int), d)) else (meanOf r.rtt, d)
  let (mx, d) := if r.rtt.isEmpty then (let (x, d) := fresh d; ((x : Int), d)) else (r.rtt.foldl max (r.rtt.headD 0), d)
  let drift := decide (r.kind = 0) && !r.rtt.isEmpty && decide (entU e < (me - entNe e).natAbs)
  let lost := r.lost + r.out.length
  (leBytes 4 r.sent ++ leBytes 4 r.rtt.length ++ leBytes 4 lost ++ leBytes 4 (b2n drift + 2 * b2n r.linkLost) ++
    leBytes 8 (ofSigned 64 mn) ++ leBytes 8 (ofSigned 64 me) ++ leBytes 8 (ofSigned 64 mx) ++ leBytes 4 r.version ++
    leBytes 4 (localTerms d p false) ++ zeros 16, d)

/-- Write a run's result and complete its command (R147, R148). -/
def calComplete (p : Nat) (r : CalRun) (d : Dev) : Dev :=
  let d := portU p (fun x => { x with cal := none }) d
  if r.straddled then completeHeld r.held stBadState 0 d else
  let (b, d) := calResult p r d
  completeHeld r.held 0 0 (dma r.held.cmd.fn (r.held.cmd.f 24 8) b d)

/-! ### CAL_UPDATE (R141, R144) -/

/-- Whether an entry as written may be stored at all (R138, R144). -/
def calEntryOk (d : Dev) (e : Bytes) : Bool :=
  portPresent d.variant (u8 e 26) && slotAllowed (u8 e 26) (u8 e 25) && decide (entRx e ≤ 2000 * 65536) &&
  decide (entTx e ≤ 2000 * 65536) && decide ((entAsym e).natAbs ≤ 1000 * 65536) && decide (entU e ≤ 4000 * 65536) &&
  decide (entD e ≤ 10000 * 65536) && decide (u8 e 24 / 4 = 0) && decide (u8 e 27 = 0)

/-- Index of an entry. -/
def calIndex (e : Bytes) : Nat := 8 * u8 e 26 + u8 e 25

/-- The entries a CAL_UPDATE carries. -/
def calItems (d : Dev) (c : Cmd) : List Bytes :=
  (List.range (c.f 16 1)).map fun i => dmaRead d c.fn (c.f 24 8 + 32 * i) 32

/-- Whether a list of numbers has no repeat. -/
def distinct : List Nat → Bool
  | [] => true
  | h :: t => !(t.contains h) && distinct t

/-- The status of CAL_UPDATE (R144, R149). -/
def calUpdateStatus (d : Dev) (c : Cmd) : Nat :=
  let es := calItems d c
  firstStatus [
    (decide (c.fn ≠ 0) || (cmdSelf c).isNone, stNotPermitted),
    (!(reservedOk c [(16, 1), (20, 4), (24, 8)]) || decide (16 < c.f 16 1) || decide (c.f 24 8 % 64 ≠ 0) ||
      !(es.all (calEntryOk d)) || !(distinct (es.map calIndex)), stBadParam),
    (decide (c.f 20 4 ≠ (match d.cal with | some i => i.version | none => 0)) && decide (c.f 16 1 ≠ 0), stBadState)]

/-- Store one entry of an update: its ports keep the old one until their next gaps (R144). -/
def calApply (e : Bytes) (d : Dev) : Dev :=
  let p := u8 e 26
  let s := u8 e 25
  let old (tx : Bool) : Bytes := match ((if tx then (port d p).oldTx else (port d p).oldRx).find? fun x => decide (x.1 = s)) with
    | some x => x.2
    | none => match d.cal with | some c => calEntry c (8 * p + s) | none => zeros 32
  let add (l : List (Nat × Bytes)) (tx : Bool) : List (Nat × Bytes) := if l.any fun x => decide (x.1 = s) then l else (s, old tx) :: l
  portU p (fun x => { x with
    oldRx := add x.oldRx false, oldTx := add x.oldTx true,
    cal := x.cal.map fun r => { r with straddled := r.straddled || decide (s = calSlot (modeAct d p) (fecAct d p)) } }) d

/-- The image an update makes. -/
def calNew (d : Dev) (es : List Bytes) : CalImg :=
  let base : CalImg := match d.cal with | some c => c | none => { factory := false, version := 0 }
  let put (c : CalImg) (e : Bytes) : CalImg :=
    let i := calIndex e
    let b := calSeal (patch (slice e 0 28) 24 (leBytes 1 3))
    { c with entries := Tbl.set (fun k => if c.factory then factoryEntry k else zeros 32) c.entries i b,
             users := if c.users.contains i then c.users else c.users ++ [i] }
  let c := es.foldl put base
  { c with version := base.version + 1 }

/-- CAL_UPDATE's effect once earlier calibration commands are done. `flash` says how the write of the other sector
ends: 0 verified, 1 write or erase failed, 2 read-back mismatch (R141, R150). -/
def calUpdate (h : Held) (flash : Nat) (d : Dev) : Dev :=
  let c := h.cmd
  let st := calUpdateStatus d c
  if st ≠ 0 then completeHeld h st 0 d
  else if c.f 16 1 = 0 then completeHeld h 0 (match d.cal with | some i => i.version | none => 0) d
  else
    let es := calItems d c
    let old := match d.cal with | some i => i.version | none => 0
    let sect := match d.calSect.head?, d.cal with
      | some (some i), some e => if i = e then 1 else 0
      | _, _ => 0
    if flash ≠ 0 then
      completeHeld h 0x2C 0 (postDev 0x39 (leBytes 1 sect ++ leBytes 1 (flash - 1)) (bitW 0xF00010 2 true d))
    else
      let img := calNew d es
      let d := es.foldl (fun d e => calApply e d) d
      let d := { d with cal := some img, calSect := setAt [none, none] sect (some img) }
      let d := calRegs d
      let d := (es.map (u8 · 26)).foldl (fun d p => plumbTouch p d) d
      postDev 0x38 (leBytes 4 old ++ leBytes 4 img.version ++ leBytes 4 img.users.length) (completeHeld h 0 img.version d)

/-! ### CAL_MEASURE and CAL_READ -/

/-- The status of CAL_MEASURE (R149). -/
def calMeasureStatus (d : Dev) (c : Cmd) : Nat :=
  let p := c.f 16 1
  firstStatus [
    (decide (c.fn ≠ 0) || (cmdSelf c).isNone, stNotPermitted),
    (!(reservedOk c [(16, 1), (17, 1), (18, 2), (24, 8)]) || decide (1 < c.f 17 1) || decide (4096 < c.f 18 2) ||
      decide (c.f 24 8 % 64 ≠ 0) || decide (48 ≤ p), stBadParam),
    (!(portPresent d.variant p), stAbsent),
    (decide (unitStatus d (portIsland p) = 0x24), stUnitOff),
    ((decide (c.f 17 1 = 0) && decide (lstate d p ≠ 6)) || (decide (c.f 17 1 = 1) && decide (lstate d p ≠ 4)), stBadState)]

/-- CAL_MEASURE starts (R147). -/
def calMeasure (h : Held) (d : Dev) : Dev :=
  let c := h.cmd
  let p := c.f 16 1
  let st := calMeasureStatus d c
  if st ≠ 0 then completeHeld h st 0 d else
  let r : CalRun := { held := h, kind := c.f 17 1, run := d.calRuns, count := c.f 18 2,
                      version := match d.cal with | some i => i.version | none => 0 }
  let d := { d with calRuns := (d.calRuns + 1) % 2 ^ 32 }
  if r.count = 0 then calComplete p r d else portU p (fun x => { x with cal := some r }) d

/-- CAL_READ (R149). -/
def calRead (h : Held) (d : Dev) : Dev :=
  let c := h.cmd
  let st := firstStatus [
    (decide (c.fn ≠ 0) || (cmdSelf c).isNone, stNotPermitted),
    (!(reservedOk c [(24, 8)]) || decide (c.f 24 8 % 64 ≠ 0), stBadParam)]
  if st ≠ 0 then completeHeld h st 0 d else
  completeHeld h 0 0 (dma c.fn (c.f 24 8)
    (match d.cal with | some i => calImage i | none => zeros 12352) d)

/-- Whether a calibration run is in progress. -/
def calBusy (d : Dev) : Bool := d.ports.any fun e => e.2.cal.isSome

/-- Run the calibration commands waiting, in order, until one takes time (R149). -/
def calNext (d : Dev) : Dev :=
  loopN d.calQ.length (fun _ d =>
    if calBusy d then d else
    match d.calQ with
    | (h, fl) :: rest =>
      let d := { d with calQ := rest }
      if h.cmd.opcode = 0x38 then calUpdate h fl d
      else if h.cmd.opcode = 0x39 then calMeasure h d
      else calRead h d
    | [] => d) d

/-- A calibration command is taken. -/
def calTake (c : Cmd) (flash : Nat) (d : Dev) : Dev :=
  calNext (noteHeld c { d with calQ := d.calQ ++ [(hold d c, flash)] })

/-- CAL_UPDATE (R144, R149). -/
def execCalUpdate (c : Cmd) (flash : Nat) (s : State) : Host.Outcome State Fault Refusal := lift (calTake c (flash % 3)) s

/-- CAL_MEASURE (R147, R149). -/
def execCalMeasure (c : Cmd) (s : State) : Host.Outcome State Fault Refusal := lift (calTake c 0) s

/-- CAL_READ (R149). -/
def execCalRead (c : Cmd) (s : State) : Host.Outcome State Fault Refusal :=
  lift (fun d => calTake c 0 d) s

/-- A finished run completes, and the next calibration command starts. -/
def calFinish (p : Nat) (d : Dev) : Dev :=
  match (port d p).cal with
  | some r => if decide (r.count ≤ r.sent) && r.out.isEmpty || r.straddled || r.linkLost then calNext (calComplete p r d) else d
  | none => d

/-- CAL_ENTRY_APPLY (R144): a port's new entries apply from an inter-frame gap of one direction. The entry a stamp was taken with
till then is kept for exchanges under way (R145), and a run that has launched frames straddles the update (R147). -/
def execCalEntryApply (port_ : Nat) (tx : Bool) (s : State) : Host.Outcome State Fault Refusal :=
  lift (fun d =>
    let olds := if tx then (port d port_).oldTx else (port d port_).oldRx
    if olds.isEmpty ∨ (tx = true ∧ now d < (port d port_).busyUntil) then d else
    let slot := calSlot (modeAct d port_) (fecAct d port_)
    let hit := olds.find? fun e => decide (e.1 = slot)
    let was := hit.map fun e => (slot, now d, e.2)
    let d := portU port_ (fun x => { x with
      oldTx := if tx then [] else x.oldTx, oldRx := if tx then x.oldRx else []
      prevTx := if tx then was.or x.prevTx else x.prevTx, prevRx := if tx then x.prevRx else was.or x.prevRx
      cal := x.cal.map fun r => { r with straddled := r.straddled || (hit.isSome && decide (0 < r.sent)) } }) d
    calFinish port_ (calPortStat port_ d)) s

/-- The bytes of a calibration frame (R146). -/
def calFrame (p run seq : Nat) : Bytes :=
  [0x02, 0x42, 0x52, 0x43, 0x41, 0x4C, 0x02, 0x42, 0x52, 0x43, 0x41, 0x4C, 0x88, 0xB6, 0x01] ++ leBytes 1 p ++
  beBytes 4 run ++ beBytes 4 seq ++ zeros 36

/-- CAL_FRAME_TX (R147): the engine launches the next frame of a run at an inter-frame gap, at least a microsecond after the last,
with `a` marker and parity symbols before its start symbol, `sub`/16 ns after the tick. In near-end loopback the frame comes back
and the lanes send idle (R108). -/
def execCalFrameTx (port_ sub a : Nat) (s : State) : Host.Outcome State Fault Refusal :=
  lift (fun d =>
    match (port d port_).cal with
    | none => d
    | some r =>
      let free := decide ((port d port_).busyUntil ≤ now d) && (port d port_).hold.isEmpty &&
        (decide (r.sent = 0) || decide (r.last + 1000 ≤ now d))
      if r.count ≤ r.sent ∨ free = false ∨ (mayTransmit d port_ = false ∧ lstate d port_ ≠ 6) then d else
      let (i, d) := txString port_ (portString d port_) d
      let t := txStampQ d port_ (repQ d (portIsland port_) i sub) a
      let f := calFrame port_ r.run r.sent
      let d := portU port_ (fun x => { x with
        busyUntil := now d + ceilDiv (84 * 8) (modeRate (modeAct d port_)),
        cal := some { r with sent := r.sent + 1, last := now d, out := r.out ++ [⟨r.sent, t, now d, entryOf d port_ false⟩] } }) d
      if lstate d port_ = 6 then portU port_ (fun x => { x with looped := x.looped ++ [f] }) d else emit (.frame port_ f) d) s

/-- A frame of a run is counted lost once 100 µs have passed since its launch (R147). -/
def calLost (d : Dev) (o : CalOut) : Bool := decide (o.tick + 100000 < now d)

/-- CAL_FRAME_LOST (R147): a frame not back within 100 µs of its launch is lost. -/
def execCalFrameLost (port_ : Nat) (s : State) : Host.Outcome State Fault Refusal :=
  lift (fun d =>
    match (port d port_).cal with
    | none => d
    | some r =>
      match takeFirst (calLost d) r.out with
      | some (_, rest) => calFinish port_ (portU port_ (fun x => { x with cal := some { r with out := rest, lost := r.lost + 1 } }) d)
      | none => d) s

/-- Whether a received frame is one of the run in progress on its port (R146). -/
def calMatch (d : Dev) (p : Nat) (bs : Bytes) : Bool :=
  match (port d p).cal with
  | some r => decide (be bs 12 2 = 0x88B6) && decide (u8 bs 14 = 1) && decide (u8 bs 15 = p) && decide (be bs 16 4 = r.run)
  | none => false

/-- A calibration frame is back (R147): its round trip, corrected with the entry in effect at its launch, or, once 100 µs have
passed, its loss. -/
def calReturn (p sub q : Nat) (bs : Bytes) (d : Dev) : Dev :=
  match (port d p).cal with
  | none => d
  | some r =>
    match takeFirst (fun (o : CalOut) => decide (o.seq = be bs 20 4)) r.out with
    | some (o, rest) =>
      let (i, d) := txString p (rxString d p) d
      let r := if calLost d o then { r with out := rest, lost := r.lost + 1 }
        else { r with out := rest, rtt := r.rtt ++ [rxStampE o.entry d p i sub q - o.t1] }
      calFinish p (portU p (fun x => { x with cal := some r }) d)
    | none => d

/-- The link left UP or LOOP during a run: it ends with what came back (R148). -/
def calLinkLost (p : Nat) (d : Dev) : Dev :=
  match (port d p).cal with
  | some r => calFinish p (portU p (fun x => { x with cal := some { r with linkLost := true } }) d)
  | none => d

end Sys2Proof.Machine
end

