-- ==== Sys2Proof/Machine/Ports.lean ====
section
/-! DEFINITION. Link states, received frames, flow control and the port commands (03). -/

namespace Sys2Proof.Machine

/-! ### Received holds (R109) -/

/-- Whether any received hold is running. -/
def pauseRunning (d : Dev) (p : Nat) : Bool := (port d p).pauseUntil.any fun t => decide (now d < t)

/-- PAUSED follows the holds; the time spent in it is counted. -/
def pausedUpdate (p : Nat) (d : Dev) : Dev :=
  let on := pauseRunning d p
  if on = bitR d (pKey p 0x40) 24 then d
  else if on then portU p (fun x => { x with pausedFrom := now d }) (bitW (pKey p 0x40) 24 true d)
  else ctrAdd (pKey p 0x1F8) ((now d - (port d p).pausedFrom) * modeRate (modeAct d p) / 512) (bitW (pKey p 0x40) 24 false d)

/-! ### Negotiation (R103, R104; IEEE 802.3 Clause 73, PRESUMED, log entry 67) -/

/-- Place of a mode's ability bit: below 24 in the base page's technology ability field, from 24 on in the extended technology
ability field. -/
def abilityBit (m : Nat) : Nat := match m with
  | 1 => 2 | 2 => 10 | 3 => 13 | 4 => 16 | 5 => 24 | 6 => 25 | 7 => 26 | _ => 27

/-- The FEC bits F2, F3, F0, F1 a port asks with, after 23 technology bits: RS-FEC and BASE-R FEC of 25GBASE-R, BASE-R ability and
request of the rest. -/
def fecBits (m f : Nat) : Nat := if m = 2 then (if f = 2 then 2 ^ 23 else if f = 1 then 2 ^ 24 else 0) else 0

/-- C0 (PAUSE) and C1 (ASM_DIR) a port advertises (IEEE 802.3 Annex 28B). -/
def pauseBits (d : Dev) (p : Nat) : Nat :=
  if effF d (pKey p 0x10) 19 18 ≠ 1 then 0
  else match effB d (pKey p 0x10) 17, effB d (pKey p 0x10) 16 with
    | true, true => 1 | true, false => 3 | false, true => 2 | false, false => 0

/-- What a port advertises (R104), laid out as the partner words: its configured mode and FEC, and its pause ability. -/
def advert (d : Dev) (p : Nat) : Word × Word :=
  let m := modeCfg d p
  let a := abilityBit m
  (BitVec.ofNat 32 (fecBits m (fecCfg d p) + (if a < 24 then 2 ^ a else 0)),
   BitVec.ofNat 32 (2 ^ 31 + 2 ^ 24 * pauseBits d p + (if a < 24 then 0 else 2 ^ (a - 24))))

/-- The partner's words, laid out as PORT_PARTNER_LO and PORT_PARTNER_HI (R110): the 23 technology bits and the FEC bits F2, F3, F0, F1
of its base page, its C0 and C1, and its extended technology bits. -/
def partnerWords (tech fec : Nat) (c0 c1 : Bool) (ext : Nat) : Word × Word :=
  (BitVec.ofNat 32 (tech % 2 ^ 23 + 2 ^ 23 * (fec % 16)), BitVec.ofNat 32 (ext % 2 ^ 24 + 2 ^ 24 * b2n c0 + 2 ^ 25 * b2n c1))

/-- Whether an advertisement holds a mode's bit. -/
def offers (w : Word × Word) (m : Nat) : Bool :=
  if abilityBit m < 24 then Word.bit w.1 (abilityBit m) else Word.bit w.2 (abilityBit m - 24)

/-- The FEC that two advertisements resolve to for a mode. -/
def resolveFec (m : Nat) (a b : Word × Word) : Nat :=
  if m = 1 then 0
  else if m = 2 then
    if Word.bit a.1 23 || Word.bit b.1 23 then 2 else if Word.bit a.1 24 || Word.bit b.1 24 then 1 else 0
  else 2

/-- The pause that two advertisements resolve to: bit 0 receive, bit 1 transmit (IEEE 802.3 Annex 28B, Table 28B-3). -/
def resolvePause (a b : Word × Word) : Nat :=
  if Word.bit a.2 24 && Word.bit b.2 24 then 3
  else if Word.bit a.2 25 && Word.bit b.2 25 then
    (if Word.bit a.2 24 then 1 else if Word.bit b.2 24 then 2 else 0)
  else 0

/-! ### Link states (R105, R106) -/

/-- Set LSTATE. -/
def setLstate (p st : Nat) (d : Dev) : Dev := fldW (pKey p 0x40) 2 0 st d

/-- Whether a port may be enabled (R101, R105). -/
def portOk (d : Dev) (p : Nat) : Bool :=
  decide (modeCfg d p ≠ 0) && !(subsumed d p) && (portIslands d p).all (fretValid d)

/-- AN_EN and LT_EN in effect. -/
def anEn (d : Dev) (p : Nat) : Bool := effB d (pKey p 0x10) 25
def ltEn (d : Dev) (p : Nat) : Bool := effB d (pKey p 0x10) 24

/-- Where bring-up starts (R105); with AN_EN the port advertises (R104). -/
def bringUp (p : Nat) (d : Dev) : Dev :=
  let d := fldW (pKey p 0x40) 23 16 0 (bitW (pKey p 0x40) 10 false (bitW (pKey p 0x40) 8 false (bitW (pKey p 0x40) 7 false d)))
  let d := bitW (0xF00100 + 4 * p) 5 false d
  let d := if anEn d p then portU p (fun x => { x with adv := some (advert d p) }) d else fldW (pKey p 0x40) 27 26 (fecCfg d p) d
  calPortStat p (setLstate p (if anEn d p then 1 else if ltEn d p then 2 else 3) d)

/-- The link is declared down (R106). A frame being sent ends with an invalid FCS; it was counted as sent when it began. -/
def linkDown (p cause : Nat) (d : Dev) : Dev :=
  let d := postDev 0x31 (leBytes 1 p ++ leBytes 1 cause) (ctrInc (pKey p 0x1E8) d)
  let d := if now d < (port d p).busyUntil then
      emit (.frameAbort p) (portU p (fun x => { x with busyUntil := now d }) (ctrInc (pKey p 0x1C8) d)) else d
  let d := calLinkLost p (flushHold p d)
  if downPolicy d p || decide (loopCfg d p = 2) then d else flushQueues p d

/-- A frame being received when an UP port is taken down is truncated (R106). No command says whether one was: the choice is free
(log entry 11). -/
def cutRx (p : Nat) (d : Dev) : Dev :=
  if lstate d p = 4 then (let (x, d) := fresh d; if x % 2 = 1 then ctrInc (pKey p 0x150) d else d) else d

/-- The port goes to DISABLED (R105); the time it spent with PAUSED set is counted (R114). -/
def disablePort (p cause : Nat) (d : Dev) : Dev :=
  let st := lstate d p
  let d := pausedUpdate p (portU p (fun x => { x with pauseUntil := List.replicate 9 0 }) d)
  let d := if st = 4 ∨ st = 5 then linkDown p cause d else if st = 6 then calLinkLost p d else d
  let d := regW (pKey p 0x40) (BitVec.ofNat 32 ((regR d (pKey p 0x40)).toNat &&& 0x0E000040)) d
  let d := fldW (pKey p 0x40) 31 28 (if subsumed d p then 0 else modeCfg d p) (bitW (pKey p 0x40) 25 (subsumed d p) d)
  let d := regW (pKey p 0x48) 0 (regW (pKey p 0x44) 0 (bitW (0xF00100 + 4 * p) 5 false d))
  calPortStat p (portU p (fun x => { x with negFec := none, negPause := none, adv := none, xoff := none, looped := [] }) d)

/-- A DISABLED port that may be enabled starts bring-up, or loops (R105). -/
def enable (p : Nat) (d : Dev) : Dev :=
  let d := fldW (pKey p 0x40) 31 28 (if subsumed d p then 0 else modeCfg d p) (bitW (pKey p 0x40) 25 (subsumed d p) d)
  let d := fldW (pKey p 0x40) 27 26 (if subsumed d p ∨ modeCfg d p = 0 then 0 else fecCfg d p) d
  let d := calPortStat p d
  if !(portOk d p) then d
  else if loopCfg d p = 1 then setLstate p 6 d
  else bringUp p (bitW (pKey p 0x40) 11 (decide (loopCfg d p = 2)) d)

/-- 64-bit counters at consecutive offsets, as bytes. -/
def ctrBytes (d : Dev) (k n : Nat) : Bytes := (List.range n).flatMap fun i => leBytes 8 (ctrR d (k + 8 * i))

/-- Set counters at consecutive offsets to 0. -/
def ctrClear (k n : Nat) (d : Dev) : Dev := loopN n (fun i d => ctrW (k + 8 * i) 0 d) d

/-- The status of a command that names a port (R115). -/
def portCmdStatus (d : Dev) (c : Cmd) : Nat :=
  let p := c.f 16 1
  let stats := decide (c.opcode = 0x32)
  firstStatus [
    (decide (c.fn ≠ 0) || (cmdSelf c).isNone, stNotPermitted),
    (!(reservedOk c (if stats then [(16, 1), (17, 1), (24, 8)] else [(16, 1)])) || decide (48 ≤ p) ||
      (stats && (decide (1 < c.f 17 1) || decide (c.f 24 8 % 64 ≠ 0))), stBadParam),
    (!(portPresent d.variant p), stAbsent),
    (!stats && decide (unitStatus d (portIsland p) = 0x24), stUnitOff),
    (subsumed d p || (!stats && decide (modeCfg d p = 0)), stBadState)]

/-- The oldest command naming a port moves on (R115): a PORT_LINK_RESTART takes it to DISABLED and completes once it has left it
again, PORT_STATS completes at once. -/
def portCmd (p : Nat) (h : Held) (rest : List Held) (d : Dev) : Dev :=
  let c := h.cmd
  let done (st : Nat) (d : Dev) : Dev := completeHeld h st 0 (portU p (fun x => { x with cmds := rest, restarting := false }) d)
  if (port d p).restarting then if lstate d p = 0 then d else done 0 d
  else
    let st := portCmdStatus d c
    if st ≠ 0 then done st d
    else if c.opcode = 0x32 then
      let b := ctrBytes d (pKey p 0x100) 32
      done 0 (dma c.fn (c.f 24 8) b (if c.f 17 1 = 1 then ctrClear (pKey p 0x100) 32 d else d))
    else portU p (fun x => { x with restarting := true }) (enable p (disablePort p 3 (cutRx p d)))

/-- The commands naming a port run in the order they were taken (R115), each in at most two moves. -/
def portRun (p : Nat) (d : Dev) : Dev :=
  loopN (2 * (port d p).cmds.length) (fun _ d =>
    match (port d p).cmds with
    | h :: rest => portCmd p h rest d
    | [] => d) d

/-- Follow the conditions of the first three rows of R105. -/
def evalPort (p : Nat) (d : Dev) : Dev :=
  let d := bitW (pKey p 0x40) 6 (fretValid d (portIsland p)) d
  portRun p (if lstate d p = 0 then enable p d
    else if portOk d p then d
    else disablePort p (if modeCfg d p = 0 ∨ subsumed d p = true then 3 else 4) (cutRx p d))

/-- Down, then up again as from DISABLED (R105). -/
def restartLink (p cause : Nat) (d : Dev) : Dev := bringUp p (setLstate p 0 (linkDown p cause d))

/-- NEGOTIATION_RESOLVED (R104): Clause 73 ends with the partner's pages. If the partner offers the advertised mode, the port goes
on with the FEC and pause resolved; if not, it advertises again. -/
def execNegotiationResolved (port_ tech fec : Nat) (c0 c1 : Bool) (ext : Nat) (s : State) : Host.Outcome State Fault Refusal :=
  lift (fun d =>
    let p := port_
    if lstate d p ≠ 1 then d else
    let mine := ((port d p).adv).getD (advert d p)
    let theirs := partnerWords tech fec c0 c1 ext
    let m := modeCfg d p
    let common := offers theirs m
    let d := regW (pKey p 0x48) (Word.putBit theirs.2 31 true) (regW (pKey p 0x44) theirs.1 d)
    let d := postDev 0x32 (leBytes 1 p ++ leBytes 1 (b2n common) ++ leBytes 1 (Word.fld theirs.2 25 24)) d
    if !common then bringUp p d else
    let d := fldW (pKey p 0x40) 27 26 (resolveFec m mine theirs) d
    calPortStat p (setLstate p (if ltEn d p then 2 else 3)
      (portU p (fun x => { x with negFec := some (resolveFec m mine theirs), negPause := some (resolvePause mine theirs) }) d))) s

/-- LINK_TRAINING_DONE (R105): `ok` is the mask of lanes trained. -/
def execLinkTrainingDone (port_ ok : Nat) (s : State) : Host.Outcome State Fault Refusal :=
  lift (fun d =>
    let p := port_
    if lstate d p ≠ 2 then d else
    let all := 2 ^ modeLanes (modeAct d p) - 1
    let good := ok % (all + 1)
    let d := postDev 0x33 (leBytes 1 p ++ leBytes 1 good ++ leBytes 1 (all - good)) (fldW (pKey p 0x40) 23 16 good d)
    if good = all then setLstate p 3 d else if anEn d p then setLstate p 1 d else d) s

/-- The link-up terms are measured (R122). -/
def setTerms (p : Nat) (lrx ltx : Int) (d : Dev) : Dev :=
  bitW (0xF00100 + 4 * p) 5 true (regW (0xF00300 + 4 * p) (BitVec.ofNat 32 (ofSigned 32 ltx))
    (regW (0xF00200 + 4 * p) (BitVec.ofNat 32 (ofSigned 32 lrx)) d))

/-! ### Flow control (R109) -/

/-- FLOW in effect in a direction, and FLOW_RX and FLOW_TX with the pause that Clause 73 resolved (R104, R109). PFC_MAP, PFC_EN,
QUANTA, XOFF and XON act on what the port sends and are the transmit direction's (DEDUCED from R111, log entry 67). -/
def flowKind (d : Dev) (tx : Bool) (p : Nat) : Nat := dirF d tx p (pKey p 0x10) 19 18
def flowRx (d : Dev) (p : Nat) : Bool :=
  dirB d false p (pKey p 0x10) 17 && (decide (flowKind d false p = 2) || (match (port d p).negPause with | some m => bitOf m 0 | none => true))
def flowTx (d : Dev) (p : Nat) : Bool :=
  dirB d true p (pKey p 0x10) 16 && decide (flowKind d true p ≠ 0) &&
  (decide (flowKind d true p = 2) || (match (port d p).negPause with | some m => bitOf m 1 | none => true))

/-- Quanta as ticks (512 bit times each), rounded up. -/
def quantaTicks (d : Dev) (p n : Nat) : Nat := ceilDiv (n * 512) (modeRate (modeAct d p))

/-- A MAC control frame is consumed (R109). -/
def macControl (p : Nat) (bs : Bytes) (d : Dev) : Dev :=
  let d := ctrInc (pKey p 0x148) d
  if !(flowRx d p) then d
  else if flowKind d false p = 1 ∧ be bs 14 2 = 1 then
    pausedUpdate p (portU p (fun x => { x with pauseUntil := setAt x.pauseUntil 8 (now d + quantaTicks d p (be bs 16 2)) }) d)
  else if flowKind d false p = 2 ∧ be bs 14 2 = 0x0101 then
    pausedUpdate p ((List.range 8).foldl (fun d i =>
      if bitOf (be bs 16 2) i then
        portU p (fun x => { x with pauseUntil := setAt x.pauseUntil i (now d + quantaTicks d p (be bs (18 + 2 * i) 2)) }) d
      else d) d)
  else d

/-- PAUSE_EXPIRY (R109): the time of a received pause or PFC runs out. -/
def execPauseExpiry (port_ : Nat) (s : State) : Host.Outcome State Fault Refusal := lift (pausedUpdate port_) s

/-- Whether received flow control stops queue `q` of port `p` (R109). -/
def queuePaused (d : Dev) (p q : Nat) : Bool :=
  decide (now d < (port d p).pauseUntil.getD 8 0) ||
  (List.range 8).any fun i => decide (now d < (port d p).pauseUntil.getD i 0) && dirB d true p (pKey p (0x30 + 4 * i)) q

/-- A pause or PFC frame with the given quanta. Its source address is the port's own, which the spec leaves open
(free, log entry 2). -/
def flowFrame (d : Dev) (p quanta : Nat) : Bytes :=
  let sa := (List.range 6).map fun i => Config.freeByte 1 (6 * p + i)
  let en := dirF d true p (pKey p 0x1C) 15 8
  padTo 60 ([0x01, 0x80, 0xC2, 0, 0, 0x01] ++ sa ++ [0x88, 0x08] ++
    (if flowKind d true p = 1 then [0, 1] ++ beBytes 2 quanta
     else [1, 1] ++ beBytes 2 en ++ (List.range 8).flatMap fun i => beBytes 2 (if bitOf en i then quanta else 0)))

/-- Send flow control (R109). -/
def sendFlow (p quanta : Nat) (d : Dev) : Dev := emit (.frame p (flowFrame d p quanta)) (ctrInc (pKey p 0x1C0) d)

/-- Bytes of a port's frames waiting on the ingress side. -/
def ingressBytes (d : Dev) (p : Nat) : Nat :=
  let mine (f : Frame) : Nat := if f.port = p then f.bytes.length else 0
  (d.xings.foldl (fun n x => n + (match x.item with | .ingress f => mine f | _ => 0)) 0) +
  (d.deepQ.foldl (fun n x => n + mine x.2.2) 0) + (d.dramQ.foldl (fun n x => n + mine x.frame) 0) +
  (d.mapJobs.foldl (fun n j => n + (j.frames.map mine).sum) 0)

/-- QUANTA in effect. -/
def quanta (d : Dev) (p : Nat) : Nat := dirF d true p (pKey p 0x1C) 31 16

/-- Flow control is sent as occupancy passes XOFF or falls below XON (R109); a port that no longer generates it sends none. -/
def flowUpdate (p : Nat) (d : Dev) : Dev :=
  if !(flowTx d p) then portU p (fun x => { x with xoff := none }) d
  else if !(mayTransmit d p) then d
  else match (port d p).xoff with
    | none => if dirF d true p (pKey p 0x20) 31 16 * 1024 < ingressBytes d p then
        sendFlow p (quanta d p) (portU p (fun x => { x with xoff := some (now d) }) d) else d
    | some _ => if ingressBytes d p < dirF d true p (pKey p 0x20) 15 0 * 1024 then
        sendFlow p 0 (portU p (fun x => { x with xoff := none }) d) else d

/-- PAUSE_REPEAT (R109): half of QUANTA has elapsed. -/
def execPauseRepeat (port_ : Nat) (s : State) : Host.Outcome State Fault Refusal :=
  lift (fun d =>
    match (port d port_).xoff with
    | some t => if decide (t + quantaTicks d port_ (quanta d port_) / 2 ≤ now d) && flowTx d port_ && mayTransmit d port_ then
        sendFlow port_ (quanta d port_) (portU port_ (fun x => { x with xoff := some (now d) }) d) else d
    | none => d) s

/-! ### Links come up and go down -/

/-- LINK_UP (R105): lock, alignment and FEC lock are reached; `lrx` and `ltx` are the link-up terms measured. -/
def execLinkUp (port_ : Nat) (lrx ltx : Int) (s : State) : Host.Outcome State Fault Refusal :=
  lift (fun d =>
    let p := port_
    if lstate d p ≠ 3 then d else
    let k := pKey p 0x40
    let d := fldW k 23 16 (2 ^ modeLanes (modeAct d p) - 1) (bitW k 9 false (bitW k 8 (decide (fecAct d p ≠ 0)) (bitW k 7 true d)))
    let d := setLstate p 4 (setTerms p lrx ltx d)
    let d := postDev 0x30 (leBytes 1 p ++ leBytes 1 (modeAct d p) ++ leBytes 1 (fecAct d p)) d
    let d := if (port d p).lastFec ≠ some (fecAct d p) then coursesUpdate d else d
    flowUpdate p (plumbTouch p (guardUpdate p d))) s

/-- LINK_SIGNAL_LOSS (R105, R106): cause 0 signal, 1 lock or alignment, 2 local fault; `midRx`: a frame was being
received. -/
def execLinkSignalLoss (port_ cause : Nat) (midRx : Bool) (s : State) : Host.Outcome State Fault Refusal :=
  lift (fun d =>
    let p := port_
    if lstate d p ≠ 4 then d else
    let d := if midRx then ctrInc (pKey p 0x150) d else d
    let d := bitW (pKey p 0x40) 7 false (bitW (pKey p 0x40) 9 (decide (cause % 3 = 2)) d)
    if effF d (pKey p 0x24) 9 0 = 0 then restartLink p (cause % 3) d
    else setLstate p 5 (calLinkLost p (portU p (fun x => { x with downFrom := now d, downCause := cause % 3 }) d))) s

/-- HOLD_DOWN in effect, in ticks. -/
def holdDownTicks (d : Dev) (p : Nat) : Nat := effF d (pKey p 0x24) 9 0 * 1000000

/-- HOLD_DOWN_EXPIRY (R105). -/
def execHoldDownExpiry (port_ : Nat) (s : State) : Host.Outcome State Fault Refusal :=
  lift (fun d =>
    if lstate d port_ = 5 ∧ (port d port_).downFrom + holdDownTicks d port_ ≤ now d then
      restartLink port_ (port d port_).downCause d
    else d) s

/-- HOLD_RECOVERED (R105, R122). -/
def execHoldRecovered (port_ : Nat) (lrx ltx : Int) (s : State) : Host.Outcome State Fault Refusal :=
  lift (fun d =>
    if lstate d port_ = 5 ∧ now d < (port d port_).downFrom + holdDownTicks d port_ then
      flowUpdate port_ (setLstate port_ 4 (setTerms port_ lrx ltx (bitW (pKey port_ 0x40) 7 true (bitW (pKey port_ 0x40) 9 false
        (ctrInc (pKey port_ 0x1F0) d)))))
    else d) s

/-- REMOTE_FAULT (R105). -/
def execRemoteFault (port_ : Nat) (on : Bool) (s : State) : Host.Outcome State Fault Refusal :=
  lift (fun d =>
    if lstate d port_ ≠ 4 ∨ bitR d (pKey port_ 0x40) 10 = on then d
    else flowUpdate port_ (postDev 0x34 (leBytes 1 port_ ++ leBytes 1 (b2n on)) (bitW (pKey port_ 0x40) 10 on d))) s

/-! ### Received frames (R108, R114) -/

/-- Counter of a frame's length in RX_HIST. -/
def histSlot (n : Nat) : Nat :=
  if n ≤ 64 then 0 else if n ≤ 127 then 1 else if n ≤ 255 then 2 else if n ≤ 511 then 3 else if n ≤ 1023 then 4
  else if n ≤ 1518 then 5 else 6

/-- Counter offset of a destination address: unicast, multicast or broadcast, from the first of the three. -/
def castOff (bs : Bytes) : Nat :=
  if (List.range 6).all fun i => decide (u8 bs i = 0xFF) then 0x10 else if bitOf (u8 bs 0) 0 then 8 else 0

/-- A good frame is counted (R114). -/
def countGood (p : Nat) (bs : Bytes) (d : Dev) : Dev :=
  let n := bs.length + 4
  ctrInc (pKey p (0x160 + 8 * histSlot n)) (ctrInc (pKey p (0x110 + castOff bs)) (ctrInc (pKey p 0x108) (ctrAdd (pKey p 0x100) n d)))

/-- A frame leaves a port island for its ingress pipe. During a remap the island holds up to 64 KiB of frames; one that
finds it full is dropped (R560). -/
def toPipe (p : Nat) (f : Frame) (d : Dev) : Dev :=
  let n := portIsland p
  match d.mapJobs.find? fun j => decide (j.island = n) && j.started && j.holds with
  | some j =>
    if j.bytes + f.bytes.length + 4 ≤ 65536 then
      let g (j : MapJob) : MapJob := { j with frames := j.frames ++ [f], bytes := j.bytes + f.bytes.length + 4 }
      { d with mapJobs := updFirst (fun j => decide (j.island = n) && j.started) g d.mapJobs }
    else ctrInc (pKey f.port 0x150) d
  | none => send n (ipIsland (ingressPipe d p)) (.ingress f) d

/-- A good frame is stamped, takes its receive-order tag and what the receive direction's set says of it (R111), and is sent to its
ingress pipe; a 1.6TBASE-R port deals to two pipes in turn (R102, R123). -/
def passIngress (p sub q : Nat) (bs : Bytes) (d : Dev) : Dev :=
  let second := decide (modeAct d p = 8) && (port d p).deal
  let f : Frame := { bytes := bs, port := p, tick := now d, order := (port d p).order, pstr := rxString d p, deepOn := deepPort d p,
                     latches := (List.range (numStrings d.variant)).map (rxLatch d p sub q) }
  let d := portU p (fun x => { x with order := x.order + 1, deal := if modeAct d p = 8 then !x.deal else x.deal }) d
  toPipe (if second then p + 4 else p) f d

/-- FRAME_RX (R108): a frame's bytes, FCS excluded, received whole: whether its FCS is bad, when its start symbol was
seen (`sub`/16 ns after the tick, `q` FEC symbols after it), and the FEC codewords corrected, not correctable, and
symbols corrected on the way. In near-end loopback only a frame the port has sent comes back. -/
def execFrameRx (port_ : Nat) (bytes : Bytes) (badFcs : Bool) (sub q corr uncorr syms : Nat) (s : State) :
    Host.Outcome State Fault Refusal :=
  lift (fun d =>
    let p := port_
    if !(portPresent d.variant p) || d.fatal || (decide (lstate d p ≠ 4) && decide (lstate d p ≠ 6)) then d else
    let d := ctrAdd (pKey p 0x1E0) syms (ctrAdd (pKey p 0x1D8) uncorr (ctrAdd (pKey p 0x1D0) corr d))
    let n := bytes.length + 4
    if lstate d p = 6 then
      match takeFirst (fun x => decide (x = padTo 60 bytes)) (port d p).looped with
      | none => d
      | some (_, back) =>
        let d := ctrInc (pKey p 0x158) (portU p (fun x => { x with looped := back }) d)
        if !badFcs && calMatch d p bytes then calReturn p sub q bytes d else d
    else
      let d := if loopCfg d p = 2 then emit (.frame p bytes) d else d
      if n < 64 then ctrInc (pKey p (if badFcs then 0x140 else 0x130)) d
      else if maxFrameRx d p < n then ctrInc (pKey p 0x138) d
      else if badFcs then ctrInc (pKey p 0x128) d
      else if be bytes 12 2 = 0x8808 then macControl p bytes d
      else
        let d := countGood p bytes d
        if calMatch d p bytes then calReturn p sub q bytes d
        else flowUpdate p (passIngress p sub q bytes d)) s

/-! ### Port commands (R113, R115) -/

/-- A command naming a port is taken (R115). -/
def portTake (c : Cmd) (d : Dev) : Dev :=
  checked c (portCmdStatus d c)
    (fun d => portRun (c.f 16 1) (noteHeld c (portU (c.f 16 1) (fun x => { x with cmds := x.cmds ++ [hold d c] }) d))) d

/-- PORT_LINK_RESTART (R115). -/
def execPortLinkRestart (c : Cmd) (s : State) : Host.Outcome State Fault Refusal := lift (portTake c) s

/-- The ports of a port island and any 1.6TBASE-R port spanning it (R113). -/
def islandUsers (d : Dev) (n : Nat) : List Nat :=
  islandPorts n ++ (List.range 16).filter fun p => decide (modeCfg d p = 8) && decide (portIsland p + 1 = n)

/-- Start resetting a port island (R113): a frame being received is cut off (R106), and the reset of the unit clears the LOCK of
its groups (R37). -/
def startIslandReset (n : Nat) (d : Dev) : Dev :=
  let ps := islandUsers d n
  let d := bitW (0x400 + 4 * n) 0 false { d with taps := Tbl.set (fun _ => {}) d.taps n {} }
  let d := (islandPorts n).foldl (fun d p => regW (pKey p 0xC) 0 d) d
  ps.foldl (fun d p => evalPort p (if lstate d p = 0 then d else disablePort p 4 (cutRx p d))) d

/-- PORT_ISLAND_RESET (R113, R115): it waits for an earlier one of the same island. -/
def execPortIslandReset (c : Cmd) (s : State) : Host.Outcome State Fault Refusal :=
  lift (fun d =>
    let n := c.f 16 1
    checked c (firstStatus [
      (decide (c.fn ≠ 0) || (cmdSelf c).isNone, stNotPermitted),
      (!(reservedOk c [(16, 1)]) || decide (n = 0) || decide (8 < n), stBadParam),
      (decide (unitStatus d n = 0x23), stAbsent), (decide (unitStatus d n = 0x24), stUnitOff)])
      (fun d =>
        let first := !(d.islJobs.any fun j => decide (j.1 = n))
        let d := noteHeld c { d with islJobs := d.islJobs ++ [(n, hold d c)] }
        if first then startIslandReset n d else d) d) s

/-- ISLAND_READY (R113): FRET_VALID is set and every configured port has left DISABLED. -/
def execIslandReady (island : Nat) (s : State) : Host.Outcome State Fault Refusal :=
  lift (fun d =>
    let ready := fretValid d island && (islandUsers d island).all fun p =>
      decide (modeCfg d p = 0) || subsumed d p || decide (lstate d p ≠ 0)
    match takeFirst (fun j => decide (j.1 = island)) d.islJobs with
    | some ((_, h), rest) =>
      if !ready then d else
      let d := postDev 0x35 (leBytes 1 island) (completeHeld h 0 0 { d with islJobs := rest })
      if rest.any fun j => decide (j.1 = island) then startIslandReset island d else d
    | none => d) s

/-- FRET_VALID (R30): the island's fret or time tap becomes valid, and its lanes may be enabled. -/
def execFretValid (island : Nat) (s : State) : Host.Outcome State Fault Refusal :=
  lift (fun d =>
    let d := setFretValid island d
    if 1 ≤ island ∧ island ≤ 8 then (islandUsers d island).foldl (fun d p => evalPort p d) d else d) s

/-- PORT_STATS (R115). -/
def execPortStats (c : Cmd) (s : State) : Host.Outcome State Fault Refusal := lift (portTake c) s

end Sys2Proof.Machine
end

