-- ==== Sys2Proof/Machine/Route.lean ====
section
/-! DEFINITION. Where a classified frame goes: queues, courses and gates (05, 06, 15), and its record's completion. -/

namespace Sys2Proof.Machine

/-! ### A frame's class attributes (R179, R180) -/

def fWitness (f : Frame) : Bool := Word.bit f.clsA 31
def fCourse (f : Frame) : Option Nat := if Word.bit f.clsA 30 then some (Word.fld f.clsA 29 28) else none
def fFailOpen (f : Frame) : Bool := Word.bit f.clsA 21

/-- The discard queue (R177). -/
def discardQ : Nat := 0xFFFFFFFF

/-- KIND of a QUEUE. -/
def qKind (q : Nat) : Nat := q / 2 ^ 30 % 4

/-- The destination a QUEUE of KIND 0 or 3 names for a frame, SPREAD resolved (R177, R184). -/
def destOf (d : Dev) (f : Frame) (q : Nat) : Dest :=
  if q = discardQ then .discard
  else if qKind q = 3 then .egress (q / 2 ^ 16 % 64) (q % 16)
  else if bitOf q 29 then .rx (q % 1024) (rssQueue d (q % 1024) f)
  else .rxGlobal (q % 2 ^ 15)

/-- Complete a frame's INGRESS record unsequenced, with its kind flags as they stand, DROPPED set for a frame that is not
delivered (R233, R235). -/
def finishRec (f : Frame) (dropped : Bool) (d : Dev) : Dev :=
  completeOpt f.rec_ (recKind (frameKind f + (if dropped then 2 ^ 28 else 0))) none d

/-- Set the kind flags a frame has by now in its INGRESS record, which goes on waiting for its course (R233, R236). -/
def noteKind (f : Frame) (d : Dev) : Dev :=
  match f.rec_ with
  | some i => witU (fun w => { w with recs := w.recs.map fun r => if r.id = i then { r with bytes := recKind (frameKind f) r.bytes } else r }) d
  | none => d

/-- The RX queue of a global ID, when one holds it (R277). -/
def rxOfGlobal (d : Dev) (id : Nat) : Option (Nat × Nat) :=
  (d.queues.find? fun e => decide (e.1 / 65536 % 4 = 1) && decide (e.2.st ≠ .disabled) && decide (e.2.globalId = id)).map
    fun e => (e.1 / 262144, e.1 % 65536)

/-- A frame bound for an island that is OFF or isolated is discarded there, flagged (R45), and counted (R216). -/
def sendOr (src dst : Nat) (item : Item) (f : Frame) (d : Dev) : Dev :=
  let d' := send src dst item d
  if xingTakes d dst then d' else deliveryDrop f d'

/-- Deliver a frame directly to its destination, from island `src` (R178, R215). A local RX queue number beyond the
function's grant, or a global ID of no queue, finds no descriptor (R184, R290). -/
def deliver (src : Nat) (f : Frame) (d : Dev) : Dev :=
  match f.dest with
  | .rxGlobal id =>
    match rxOfGlobal d id with
    | some (fn, lq) => sendOr src (hIsland (fnPort fn)) (.rx fn lq f) f d
    | none => deliveryDrop f (ctrInc 0x900120 d)
  | .rx fn lq =>
    if lq < (grant d fn 2).value then sendOr src (hIsland (fnPort fn)) (.rx fn lq f) f d
    else deliveryDrop f (ctrInc 0x900120 d)
  | .egress p q => sendOr src (epIsland (egressPipe d p)) (.egress p q f) f d
  | _ => d

/-- A frame goes to a course from island `src` (R195); with CS OFF, isolated or in reset it is discarded and counted by the
ingress pipe it passed (R220, R558). -/
def toCourse (src c : Nat) (f : Frame) (d : Dev) : Dev :=
  if xingTakes d csIsland && !(dom d csIsland).resetting then send src csIsland (.course c { f with course := some c }) d
  else finishRec f true (ctrInc (0x300820 + 0x40 * f.pipe) d)

/-! ### Gates (R179, R399, R477–R481) -/

/-- A Givik gate's configuration registers in effect. -/
def gateCfgKey (g off : Nat) : Nat := 0xA00100 + 0x20 * g + off

/-- A gate's counter (R495). -/
def gateCtr (g off : Nat) : Nat := 0xA08000 + 0x80 * g + off

/-- A frame gives up the gate slot it holds (R399). -/
def freeSlot (f : Frame) (d : Dev) : Dev :=
  match f.slotOf with
  | some o => fnU o (fun x => { x with gateSlots := x.gateSlots - 1 }) d
  | none => d

/-- A frame leaves a gate with a pass verdict, or under FAIL_OPEN: to PASS_Q, through its class's course (R195, R480). -/
def gatePass (src g : Nat) (f : Frame) (d : Dev) : Dev :=
  let d := freeSlot f d
  let f := { f with slotOf := none, dest := destOf d f (effR d (gateCfgKey g 0x18)).toNat }
  match fCourse f with
  | some c => toCourse src c f (noteKind f d)
  | none => deliver src f (finishRec f (decide (f.dest = .discard)) d)

/-- A frame dropped by its gate (R233, R235). -/
def gateDrop (f : Frame) (d : Dev) : Dev := finishRec f true (freeSlot f d)

/-- A work item completes TIMEOUT or CORE_FAULT, or a frame is refused by its gate: FAIL_OPEN decides (R179, R477). -/
def gateFail (src g : Nat) (f : Frame) (d : Dev) : Dev :=
  let f := { f with gateFail := true }
  if fFailOpen f then gatePass src g f d else gateDrop f d

/-- The cluster that serves a gate: its alternate while its cluster is released (R493); none with no alternate. -/
def gateServer (d : Dev) (g : Nat) : Option (Nat × Bool) :=
  let w := effR d (gateCfgKey g 0)
  let c := Word.fld w 26 24
  if !(d.released.contains c) then some (c, false)
  else if Word.bit w 23 && !(d.released.contains (Word.fld w 22 20)) then some (Word.fld w 22 20, true)
  else none

/-- A frame is refused by its gate as UNAVAILABLE (R477). -/
def gateUnavailable (src g : Nat) (f : Frame) (d : Dev) : Dev := gateFail src g f (ctrInc (gateCtr g 0x38) d)

/-- A frame is handed to its gate (R178, R399): a slot of the rule's owner is taken, or the frame is refused. -/
def toGate (src g : Nat) (f : Frame) (d : Dev) : Dev :=
  let o := f.owner
  let lim := grantLimit d o 10
  if o ≠ 0xFFFF ∧ lim < 0xFFFF ∧ lim ≤ (fn d o).gateSlots then
    gateFail src g f (ctrInc (0xD80038 + 0x40 * o) d)
  else
    let d := if o = 0xFFFF then d else fnU o (fun x => { x with gateSlots := x.gateSlots + 1 }) d
    let f := { f with slotOf := if o = 0xFFFF then none else some o }
    match gateServer d g with
    | some (c, _) =>
      if gateOn d g && islandOn d (gIsland c) then send src (gIsland c) (.gate g f) d else gateUnavailable src g f d
    | none => gateUnavailable src g f d

/-- A frame leaves its ingress pipe by the kind of its queue (R178). -/
def routeQ (src q : Nat) (f : Frame) (d : Dev) : Dev :=
  if q ≠ discardQ ∧ qKind q = 1 then toGate src (q % 64) f d
  else if q ≠ discardQ ∧ qKind q = 2 then toCourse src (q % 4) { f with dest := .courseOut } d
  else
    let f := { f with dest := destOf d f q }
    match fCourse f with
    | some c => toCourse src c f d
    | none => deliver src f (finishRec f (decide (f.dest = .discard)) d)

end Sys2Proof.Machine
end

