-- ==== Sys2Proof/Machine/Classify.lean ====
section
/-! DEFINITION. Ingress pipes: deep parse queues, lookups, policers, sessions and the witness tap (05). -/

namespace Sys2Proof.Machine

/-! ### Lookups (R169–R175) -/

/-- Whether the table banks work (R558): else lookups miss, deep parses fall back and policers pass colour. -/
def tablesOn (d : Dev) : Bool := islandOn d (tableIsland 0) && islandOn d (tableIsland 1)

/-- Key of a CLASS group 2 register of table `t`. -/
def tblKey (t off : Nat) : Nat := 0x402100 + 16 * t + off

def tblEn (d : Dev) (t : Nat) : Bool := effB d (tblKey t 0) 31
def tblDram (d : Dev) (t : Nat) : Bool := effB d (tblKey t 0) 30
def tblLog2 (d : Dev) (t : Nat) : Nat := effF d (tblKey t 0) 4 0

/-- A logical table. -/
def ltable (d : Dev) (t : Nat) : LTable := Tbl.get (fun _ => {}) d.tables t

/-- Replace a table's entries; its occupancy follows (R193). -/
def ltableU (t : Nat) (f : LTable → LTable) (d : Dev) : Dev :=
  let d := { d with tables := Tbl.upd (fun _ => {}) d.tables t f }
  regW (tblKey t 4) (BitVec.ofNat 32 (ltable d t).ents.length) d

/-- KEY, QUEUE, CLASS, COLOUR, SESSION_EN, OWNER and SESSION of an entry (R170). -/
def eKey (e : Bytes) : Bytes := e.take 48
def eQueue (e : Bytes) : Nat := le e 48 4
def eClass (e : Bytes) : Nat := u8 e 52 % 64
def eColour (e : Bytes) : Nat := u8 e 52 / 64
def eSessEn (e : Bytes) : Bool := bitOf (u8 e 53) 1
def eOwner (e : Bytes) : Nat := le e 54 2
def eSession (e : Bytes) : Nat := le e 56 4 % 2 ^ 18

/-- The entry of a key (R171). -/
def lookup (d : Dev) (t : Nat) (key : Bytes) : Option Bytes :=
  ((ltable d t).ents.find? fun e => decide (eKey e.bytes = key)).map (·.bytes)

/-- Key of a register of memory channel `n`'s group (14). -/
def chKey (n off : Nat) : Nat := 0xB01000 + n * 0x1000 + off

/-- Whether a memory channel in service is HOT (R456). -/
def anyHot (d : Dev) : Bool := (List.range 8).any fun n => bitR d (chKey n 0x40) 31 && bitR d (chKey n 0x40) 29

/-- The admission bucket of DRAM-tier lookups up to now (R174): 600 M/s with a burst of 256, or 300 M/s with a burst of 128 while
HOT. It is settled before every change of HOT. -/
def dramSettle (d : Dev) : Dev :=
  let hot := anyHot d
  { d with dramLevel := min (d.dramLevel + (if hot then 3 else 6) * (now d - d.dramTick)) (if hot then 1280 else 2560),
           dramTick := now d }

/-- Admission of one DRAM-tier lookup (R174). -/
def dramTake (d : Dev) : Bool × Dev :=
  let d := dramSettle d
  if 10 ≤ d.dramLevel then (true, { d with dramLevel := d.dramLevel - 10 }) else (false, d)

/-- Admission of a frame's DRAM-tier lookup: one not admitted is counted in DRAM_SHED (R174). -/
def dramAdmit (d : Dev) : Bool × Dev :=
  match dramTake d with
  | (true, d) => (true, d)
  | (false, d) => (false, rateNote (rateKey 0x42 0) 0 (regW 0x402014 (regR d 0x402014 + 1) d))

/-- A lookup read a poisoned line (R175). -/
def lookupPoison (t chan : Nat) (d : Dev) : Dev :=
  let k := rateKey 0x41 t
  let d := rateNote k chan (regW (tblKey t 0xC) (regR d (tblKey t 0xC) + 1) d)
  if rateDue d k then postDev 0x41 (leBytes 1 t ++ leBytes 1 chan) (rateClear k d) else d

/-- A profile's miss action, as a pipe has it (R171, R193). -/
def missAct (d : Dev) (pipe prof : Nat) : Act :=
  let w := unitR d 0x400000 pipe (0x400100 + 64 * prof)
  { cls := Word.fld w 23 18, colour := Word.fld w 17 16, queue := (unitR d 0x400000 pipe (0x400104 + 64 * prof)).toNat }

/-- The action of a lookup's result: an entry's, or the miss action. -/
def actOf (miss : Act) : Option Bytes → Act
  | some e => { cls := eClass e, colour := eColour e, queue := eQueue e,
                session := if eSessEn e then some (eSession e) else none, owner := eOwner e }
  | none => miss

/-! ### Policers (R181, R182) -/

/-- A policer. -/
def policer (d : Dev) (i : Nat) : Policer := Tbl.get (fun _ => {}) d.policers i

/-- Change a policer. -/
def policerU (i : Nat) (f : Policer → Policer) (d : Dev) : Dev :=
  { d with policers := Tbl.upd (fun _ => {}) d.policers i f }

/-- One byte in a policer's bucket, whose unit is 1/256 byte (R182). -/
def polByte : Nat := 256

/-- Ticks over which a rate of 1 kb/s gives one unit: 1/256 byte is 1/32,000 kb. -/
def polTicks : Nat := 31250

/-- A policer's buckets refilled up to tick `t` (R182; RFC 2697, RFC 2698). What a rate has given short of a whole unit is carried,
so that no part of the rate is lost. -/
def polRefill (t : Nat) (p : Policer) : Policer :=
  let n := t - p.tick
  let cc := p.cbs * polByte
  let ec := p.ebs * polByte
  let gc := p.cRest + p.cir * n
  let ge := p.eRest + p.pir * n
  let c := p.c + gc / polTicks
  if p.mode = 1 then
    { p with c := min c cc, e := if p.cir = 0 then p.e else min (p.e + (c - cc)) ec, cRest := gc % polTicks, tick := t }
  else if p.mode = 2 then
    { p with c := min c cc, e := min (p.e + ge / polTicks) ec, cRest := gc % polTicks, eRest := ge % polTicks, tick := t }
  else { p with tick := t }

/-- Meter `n` bytes of input colour `col` (RFC 2697, RFC 2698): the colour, and the policer after it. -/
def polMeter (p : Policer) (col n : Nat) : Nat × Policer :=
  let l := n * polByte
  let inC := if p.aware then col else 0
  if p.mode = 1 then
    if inC = 0 ∧ l ≤ p.c then (0, { p with c := p.c - l })
    else if inC ≤ 1 ∧ l ≤ p.e then (1, { p with e := p.e - l })
    else (2, p)
  else if p.mode = 2 then
    if inC = 2 ∨ p.e < l then (2, p)
    else if inC = 1 ∨ p.c < l then (1, { p with e := p.e - l })
    else (0, { p with c := p.c - l, e := p.e - l })
  else (col, p)

/-- Meter a frame at policer `i` (R182); a disabled one passes its colour (R188). Frames that reach it at one tick are metered in the
order in which their commands stand (log entry 69). -/
def police (i col n : Nat) (d : Dev) : Nat × Dev :=
  if !(tablesOn d) || decide ((policer d i).mode = 0) then (col, d) else
  let (c, p) := polMeter (polRefill (now d) (policer d i)) col n
  (c, policerU i (fun _ => { p with counts := updAt (fun x => (x + 1) % 2 ^ 64) p.counts c }) d)

/-! ### Sessions (R176) -/

/-- A session context. -/
def session (d : Dev) (i : Nat) : Session := Tbl.get (fun _ => {}) d.sessions i

/-- Change a session context. -/
def sessionU (i : Nat) (f : Session → Session) (d : Dev) : Dev :=
  { d with sessions := Tbl.upd (fun _ => {}) d.sessions i f }

/-- SESSION_SLOTS in effect. -/
def sessionSlots (d : Dev) : Nat := effF d 0x402010 18 0

/-- Whether a frame's session is VALID. -/
def sessValid (d : Dev) (i : Nat) : Bool := decide (i < sessionSlots d) && bitOf (session d i).flags 0

/-- A frame bound to a VALID context is counted in it, and leaves its stamp there (R176). -/
def sessNote (f : Frame) (d : Dev) : Dev :=
  match f.session with
  | some i =>
    if sessValid d i then
      sessionU i (fun x => { x with frames := (x.frames + 1) % 2 ^ 64, octets := (x.octets + f.bytes.length + 4) % 2 ^ 64,
                                    stamp := f.stamp, u := f.u }) d
    else d
  | none => d

/-- The policer a frame meets (R181). -/
def policerOf (d : Dev) (f : Frame) : Option Nat :=
  let m := Word.fld f.clsA 23 22
  let own := Word.fld f.clsA 15 0
  if m = 0 then none
  else if m = 2 then
    match f.session with
    | some i => if sessValid d i && bitOf (session d i).flags 1 then some (session d i).policer else some own
    | none => some own
  else some own

/-! ### The tap (R178, R227, R235) -/

/-- Count a frame as its pipe parses it: FRAMES and FRAG (R192). -/
def countShort (f : Frame) (d : Dev) : Dev :=
  let k := 0x300800 + 0x40 * f.pipe
  let d := ctrInc k d
  if bitOf f.pflags 0 then ctrInc (k + 0x18) d else d

/-- Count a frame's PARSE_TRUNCATED and LEN_MISMATCH, once the parse they report is done (R168, R192). -/
def countParse (f : Frame) (d : Dev) : Dev :=
  let k := 0x300800 + 0x40 * f.pipe
  let d := if bitOf f.pflags 2 then ctrInc (k + 8) d else d
  if bitOf f.pflags 3 then ctrInc (k + 0x10) d else d

/-- A frame takes its class: attributes, session, and the latch of its string (R123, R171, R180). -/
def takeClass (f : Frame) (a : Act) (d : Dev) : Frame × Dev :=
  let ca := unitR d 0x401000 f.pipe (0x401100 + 16 * a.cls)
  let f := { f with cls := a.cls, colour := a.colour, session := a.session, owner := a.owner, clsA := ca,
                    clsB := unitR d 0x401000 f.pipe (0x401104 + 16 * a.cls) }
  keepLatch (if Word.bit ca 27 then Word.fld ca 26 24 else f.pstr) f d

/-- A classified frame is metered, counted, witnessed at the tap of pipe `pipe` and sent on (R176–R182, R227, R249). -/
def classified (pipe : Nat) (f : Frame) (a : Act) (d : Dev) : Dev :=
  let (f, d) := takeClass f a d
  let (col, d) := match policerOf d f with
    | some i => police i f.colour (f.bytes.length + 4) d
    | none => (f.colour, d)
  let f := { f with colour := col }
  let d := sessNote f d
  let k := 0x403000 + 16 * f.cls
  let d := ctrAdd (k + 8) (f.bytes.length + 4) (ctrInc k d)
  if fWitness f then
    match beginRec (ingressRec d f) pipe true d with
    | (.drop, d) => d
    | (.made id, d) => routeQ (ipIsland pipe) a.queue { f with rec_ := some id } d
    | (.none_, d) => routeQ (ipIsland pipe) a.queue f d
  else routeQ (ipIsland pipe) a.queue f d

/-- The profile of a frame's kind on its port (R159, R166), by the PARSE_PORT its pipe parsed it under. -/
def profileOf (f : Frame) : Nat :=
  let w := f.parsePort
  match frameKindOf (shortParse f.bytes) with
  | 0 => Word.fld w 31 28
  | 1 => Word.fld w 27 24
  | 2 => Word.fld w 23 20
  | _ => Word.fld w 19 16

/-- A parsed frame is keyed and looked up (R167, R171, R174). A DRAM-tier lookup keeps the miss action of the profile it began
under, so that no commit falls within the frame (R41, R193). -/
def lookupFrame (pipe : Nat) (f : Frame) (d : Dev) : Dev :=
  let prof := profileOf f
  let w := unitR d 0x400000 pipe (0x400100 + 64 * prof)
  let t := Word.fld w 30 28
  let miss := missAct d pipe prof
  let d := countParse f d
  if !(Word.bit w 31) || !(tblEn d t) || !(tablesOn d) then classified pipe f miss d
  else
    let e := lookup d t (frameKey d f prof)
    if tblDram d t then
      match dramAdmit d with
      | (true, d) => { d with dramQ := d.dramQ ++ [⟨pipe, f, t, e, miss⟩] }
      | (false, d) => classified pipe f miss d
    else classified pipe f (actOf miss e) d

/-! ### The ingress pipe and its deep parsers (R152–R165) -/

/-- Key of a deep parser's counters. -/
def deepCtr (j off : Nat) : Nat := 0x300A00 + 0x20 * j + off

/-- A frame is classified on its short parse alone, PARSE_TRUNCATED and DEEP_FALLBACK set (R162). -/
def deepFallback (pipe j : Nat) (f : Frame) (d : Dev) : Dev :=
  lookupFrame pipe { f with pflags := f.pflags ||| 36 } (ctrInc (deepCtr j 8) d)

/-- A frame is dropped under DEEP_FULL 1, after its record if its profile's miss action witnesses it (R162, R235). -/
def deepDrop (pipe j : Nat) (f : Frame) (d : Dev) : Dev :=
  let (f, d) := takeClass f (missAct d pipe (profileOf f)) (countParse f (ctrInc (deepCtr j 0x10) d))
  if fWitness f then
    match beginRec (ingressRec d f) pipe true d with
    | (.made id, d) => finishRec { f with rec_ := some id } true d
    | (_, d) => d
  else d

/-- A frame is short-parsed at its ingress pipe, and waits for its deep parser or goes on (R153, R160, R162, R165). -/
def pipeFrame (pipe : Nat) (f : Frame) (d : Dev) : Dev :=
  let w := unitR d 0x300000 pipe (0x300100 + 4 * f.port)
  let f := { f with pflags := shortFlags (shortParse f.bytes), pipe := pipe, parsePort := w }
  let j := Word.fld w 9 8
  let d := countShort f d
  if f.deepOn && graphEn d j then
    if !(tablesOn d) then deepFallback pipe j f d
    else if (d.deepQ.filter fun x => decide (x.1 = j)).length < 16 then { d with deepQ := d.deepQ ++ [(j, pipe, f)] }
    else if Word.bit w 7 then deepDrop pipe j f d
    else deepFallback pipe j f d
  else lookupFrame pipe f d

/-- Whether a frame of a 1.6TBASE-R port must wait for one of its port received before it, in the other pipe or on the way to it
(R102). -/
def mustWait (d : Dev) (f : Frame) : Bool :=
  let before (g : Frame) : Bool := decide (g.port = f.port) && decide (g.order < f.order)
  decide (modeCfg d f.port = 8) &&
  ((d.deepQ.any fun x => before x.2.2) || (d.dramQ.any fun x => before x.frame) || (d.mapJobs.any fun j => j.frames.any before) ||
   d.xings.any fun x => match x.item with | .ingress g => before g | _ => false)

/-- INGRESS_FRAME (R152): the oldest frame readable at ingress pipe `pipe`. -/
def execIngressFrame (pipe : Nat) (s : State) : Host.Outcome State Fault Refusal :=
  lift (fun d =>
    match receive (ipIsland pipe) (fun i => match i with | .ingress _ => true | _ => false) d with
    | some (.ingress f, d') => if mustWait d f then d else flowUpdate f.port (pipeFrame pipe f d')
    | _ => d) s

/-- A deep parse's result in the frame (R163, R168). -/
def deepResult (d : Dev) (j : Nat) (f : Frame) : Frame :=
  let r := Sys2Proof.Machine.deepParse d j f.bytes
  { f with deep := r.hdrs, tunnels := r.tunnels, deepWin := min (graphDepth d j) f.bytes.length,
           pflags := f.pflags % 4 + 4 * b2n r.trunc + 8 * b2n r.mismatch + 16 }

/-- DEEP_PARSE (R163): the oldest frame in the queue of deep parser `j`. -/
def execDeepParse (j : Nat) (s : State) : Host.Outcome State Fault Refusal :=
  lift (fun d =>
    match takeFirst (fun x => decide (x.1 = j)) d.deepQ with
    | some ((_, pipe, f), rest) =>
      let d := { d with deepQ := rest }
      flowUpdate f.port
        (if !(graphEn d j) then lookupFrame pipe f d
         else if !(tablesOn d) then deepFallback pipe j f d
         else lookupFrame pipe (deepResult d j f) (ctrInc (deepCtr j 0) d))
    | none => d) s

/-- DRAM_LOOKUP_DONE (R169, R175): the oldest DRAM-tier lookup of a pipe returns; `poisoned`: it read a poisoned line of
memory channel `chan`. -/
def execDramLookupDone (pipe : Nat) (poisoned : Bool) (chan : Nat) (s : State) : Host.Outcome State Fault Refusal :=
  lift (fun d =>
    match takeFirst (fun x => decide (x.pipe = pipe)) d.dramQ with
    | some (w, rest) =>
      let d := { d with dramQ := rest }
      let d := if poisoned then lookupPoison w.table (chan % 8) d else d
      flowUpdate w.frame.port
        (classified pipe w.frame (actOf w.miss (if poisoned then none else w.ent)) d)
    | none => d) s

/-- DRAM_SHED (R189): frames shed in the last second. -/
def execDramShed (s : State) : Host.Outcome State Fault Refusal :=
  lift (fun d =>
    let k := rateKey 0x42 0
    if rateDue d k then postDev 0x42 (leBytes 4 (rateOf d k).count) (rateClear k d) else d) s

end Sys2Proof.Machine
end

