-- ==== Sys2Proof/Machine/Tables.lean ====
section
/-! DEFINITION. Classification commands: tables, sessions, policers and load spreading (05). -/

namespace Sys2Proof.Machine

/-! ### Who may act on what (R185, R391) -/

/-- Whether an issuer may act on an item of an owner (R185). -/
def mayAct (issuer owner : Nat) : Bool :=
  decide (issuer = 0) || decide (issuer = owner) || (decide (issuer = 2) && decide (514 ≤ owner))

/-- The function a classification command is applied for (R391). -/
def actor (d : Dev) (c : Cmd) : Nat := (cmdVf d c).getD c.fn

/-- Whether an ID lies in a function's granted range; with `new`, below what a shrink in progress leaves (R392, R395). -/
def inRange (d : Dev) (f res id : Nat) (new : Bool) : Bool :=
  let g := grant d f res
  decide (g.aux ≤ id) && decide (id < g.aux + (if new then grantLimit d f res else g.value))

/-- The VF of PF2 in whose range an ID is. -/
def rangeVf (d : Dev) (res id : Nat) (new : Bool) : Option Nat :=
  (d.fns.find? fun e => decide (514 ≤ e.1) && inRange d e.1 res id new).map (·.1)

/-- Whether a command may use an ID of a range (R185): PF0 every one, PF2 its VFs' as well, any other function its own. -/
def mayUse (d : Dev) (c : Cmd) (res id : Nat) (new : Bool) : Bool :=
  (decide (c.fn = 0) && decide (actor d c = 0)) || inRange d (actor d c) res id new ||
  (decide (c.fn = 2) && decide (actor d c = 2) && (rangeVf d res id new).isSome)

/-- The status of a classification command (R185, R186, R308). What it acts on stands in both table islands: with one of
them off or in reset it is UNIT_OFF (R12; log entry 19). -/
def classStatus (d : Dev) (c : Cmd) (used : List (Nat × Nat)) (badParam : Bool) (notGranted : Bool) : Nat :=
  firstStatus [
    ((cmdVf d c).isNone || decide (fnKind c.fn = 1), stNotPermitted),
    (!(reservedOk c used) || badParam, stBadParam),
    (!(tablesOn d), stUnitOff), (notGranted, stNotGranted)]

/-- Fields of the commands with COUNT and BUF. -/
def cCount (c : Cmd) : Nat := c.f 18 2
def cBuf (c : Cmd) : Nat := c.f 24 8

/-- Apply items until the first that fails (R187): items are `size` bytes; `f` answers a RESULT, 0 applied. -/
def applyItems (c : Cmd) (size : Nat) (f : Bytes → Dev → Nat × Dev) (d : Dev) : Dev :=
  let (done, res, d) := (List.range (cCount c)).foldl (fun (a : Nat × Nat × Dev) i =>
    if a.2.1 ≠ 0 then a else
    let (r, d) := f (dmaRead a.2.2 c.fn (cBuf c + size * i) size) a.2.2
    if r = 0 then (a.1 + 1, 0, d) else (a.1, r, d)) (0, 0, d)
  complete c 0 (done + res * 65536) d

/-! ### Table entries (R170, R172, R173) -/

/-- Whether a QUEUE has a non-zero bit that R177 does not name, or names an absent unit. -/
def badQueue (d : Dev) (q : Nat) : Bool :=
  if q = discardQ then false
  else match qKind q with
    | 0 => if bitOf q 29 then decide (bitsOf q 28 10 ≠ 0) || !(fnPresent d (q % 1024)) else decide (bitsOf q 28 15 ≠ 0)
    | 1 => decide (bitsOf q 29 6 ≠ 0)
    | 2 => decide (bitsOf q 29 2 ≠ 0) || decide (numCourses d.variant ≤ q % 4)
    | _ => decide (bitsOf q 29 22 ≠ 0) || decide (bitsOf q 15 4 ≠ 0) || !(portPresent d.variant (q / 2 ^ 16 % 64))

/-- Whether an entry is a refused encoding (R170, R187). -/
def badEntry (d : Dev) (e : Bytes) : Bool :=
  decide (eColour e = 3) || decide (u8 e 53 / 4 ≠ 0) || decide (le e 56 4 / 2 ^ 18 ≠ 0) || !(zeroAt e 60 4) || badQueue d (eQueue e)

/-- Whether a command may write an entry's queue and session binding (R185, R187). -/
def entryGranted (d : Dev) (c : Cmd) (e : Bytes) : Bool :=
  let q := eQueue e
  (if q = discardQ then true
   else if qKind q ≠ 0 then decide (c.fn = 0) || decide (c.fn = 2)
   else if bitOf q 29 then mayAct c.fn (q % 1024)
   else decide (c.fn = 0) || (match rxOfGlobal d (q % 2 ^ 15) with | some (fn, _) => mayAct c.fn fn | none => false)) &&
  (!(eSessEn e) || mayUse d c 7 (eSession e) true)

/-- Table entries a function owns (R392). -/
def ownedEntries (d : Dev) (f : Nat) : Nat :=
  d.tables.foldl (fun n t => n + (t.2.ents.filter fun e => decide (eOwner e.bytes = f)).length) 0

/-- The two candidate buckets of a key (R169). -/
def bucketOf (d : Dev) (t hash : Nat) (key : Bytes) : Nat :=
  Config.tableHash t hash (ltable d t).seed key % max 1 (2 ^ tblLog2 d t / 4)

/-- Entries in a bucket. -/
def inBucket (es : List TEnt) (b : Nat) : List TEnt := es.filter fun e => decide (e.loc = some b)

/-- The candidate bucket of an entry other than `b`. -/
def otherBucket (d : Dev) (t : Nat) (e : Bytes) (b : Nat) : Nat :=
  let b1 := bucketOf d t 0 (eKey e)
  if b1 = b then bucketOf d t 1 (eKey e) else b1

/-- Place an entry in bucket `b`, displacing entries of full buckets to their other bucket up to `n` times and then trying the
stash (R172). The entry a displacement moves is the device's choice: free (log entry 2). None: no room. -/
def placeEnt (d0 : Dev) (t : Nat) : Nat → Bytes → Nat → List TEnt → Dev → Option (List TEnt) × Dev
  | n, e, b, es, d =>
    if (inBucket es b).length < 4 then (some (⟨e, some b⟩ :: es), d)
    else
      match n with
      | 0 =>
        if (es.filter fun x => decide (x.loc = none)).length < 64 then (some (⟨e, none⟩ :: es), d) else (none, d)
      | n + 1 =>
        let (x, d) := fresh d
        match (inBucket es b)[x % 4]? with
        | some v =>
          let es := updFirst (fun y => decide (y = v)) (fun _ => ⟨e, some b⟩) es
          placeEnt d0 t n v.bytes (otherBucket d0 t v.bytes b) es d
        | none => (none, d)

/-- Place a new entry in a free slot of either candidate bucket, else by displacement from one of them, freely chosen (R172). -/
def placeNew (t : Nat) (e : Bytes) (d : Dev) : Option (List TEnt) × Dev :=
  let es := (ltable d t).ents
  let b1 := bucketOf d t 0 (eKey e)
  let b2 := bucketOf d t 1 (eKey e)
  if (inBucket es b1).length < 4 then (some (⟨e, some b1⟩ :: es), d)
  else if (inBucket es b2).length < 4 then (some (⟨e, some b2⟩ :: es), d)
  else
    let (x, d') := fresh d
    placeEnt d t 128 e (if x % 2 = 0 then b1 else b2) es d'

/-- An entry as stored: VALID set, OWNER the acting function's (R170). -/
def storedEnt (e : Bytes) (owner : Nat) : Bytes :=
  patch (patch e 53 (leBytes 1 (u8 e 53 ||| 1))) 54 (leBytes 2 owner)

/-- Insert one entry (R172, R187). -/
def tblInsert1 (c : Cmd) (t : Nat) (e : Bytes) (d : Dev) : Nat × Dev :=
  let f := actor d c
  let lim := grantLimit d f 6
  if !(tblEn d t) then (6, d)
  else if badEntry d e then (4, d)
  else if !(entryGranted d c e) || (decide (lim ≠ 0xFFFFFFFF) && decide (lim ≤ ownedEntries d f)) then (5, d)
  else if (lookup d t (eKey e)).isSome then (1, d)
  else
    let s := storedEnt e f
    match placeNew t s d with
    | (some es, d) => (0, ltableU t (fun x => { x with ents := es }) d)
    | (none, d) =>
      (3, postDev 0x40 (leBytes 1 t ++ leBytes 4 (ltable d t).ents.length) (regW (tblKey t 8) (regR d (tblKey t 8) + 1) d))

/-- Modify one entry (R173, R187). -/
def tblModify1 (c : Cmd) (t : Nat) (e : Bytes) (d : Dev) : Nat × Dev :=
  let old := lookup d t (eKey e)
  if !(tblEn d t) then (6, d)
  else if badEntry d e then (4, d)
  else if !(entryGranted d c e) || (match old with | some o => !(mayAct c.fn (eOwner o)) | none => false) then (5, d)
  else match old with
    | none => (2, d)
    | some o =>
      let put (y : TEnt) : TEnt := { y with bytes := storedEnt e (eOwner o) }
      (0, ltableU t (fun x => { x with ents := updFirst (fun y => decide (eKey y.bytes = eKey e)) put x.ents }) d)

/-- Delete one entry (R186, R187). -/
def tblDelete1 (c : Cmd) (t : Nat) (e : Bytes) (d : Dev) : Nat × Dev :=
  if !(tblEn d t) then (6, d)
  else match lookup d t (eKey e) with
    | none => (2, d)
    | some o =>
      if mayAct c.fn (eOwner o) then
        (0, ltableU t (fun x => { x with ents := x.ents.filter fun y => !(decide (eKey y.bytes = eKey e)) }) d)
      else (5, d)

/-- The status of a table command over entries. -/
def tblStatus (d : Dev) (c : Cmd) : Nat :=
  classStatus d c [(16, 1), (18, 2), (24, 8)]
    (decide (7 < c.f 16 1) || decide (256 < cCount c) || decide (cBuf c % 64 ≠ 0)) false

/-- TBL_INSERT (R172, R186, R187). -/
def execTblInsert (c : Cmd) (s : State) : Host.Outcome State Fault Refusal :=
  lift (fun d => checked c (tblStatus d c) (applyItems c 64 (tblInsert1 c (c.f 16 1))) d) s

/-- TBL_MODIFY (R173, R186, R187). -/
def execTblModify (c : Cmd) (s : State) : Host.Outcome State Fault Refusal :=
  lift (fun d => checked c (tblStatus d c) (applyItems c 64 (tblModify1 c (c.f 16 1))) d) s

/-- TBL_DELETE (R186, R187). -/
def execTblDelete (c : Cmd) (s : State) : Host.Outcome State Fault Refusal :=
  lift (fun d => checked c (tblStatus d c) (applyItems c 64 (tblDelete1 c (c.f 16 1))) d) s

/-- TBL_READ (R186). -/
def execTblRead (c : Cmd) (s : State) : Host.Outcome State Fault Refusal :=
  lift (fun d => checked c (tblStatus d c)
    (fun d =>
      let t := c.f 16 1
      let d := loopN (cCount c) (fun i d =>
        let a := cBuf c + 64 * i
        let e := dmaRead d c.fn a 64
        match (if tblEn d t then lookup d t (eKey e) else none) with
        | some o => if mayAct c.fn (eOwner o) then dma c.fn a o d else dma c.fn (a + 53) (leBytes 1 (u8 e 53 / 2 * 2)) d
        | none => dma c.fn (a + 53) (leBytes 1 (u8 e 53 / 2 * 2)) d) d
      completeSt c 0 d) d) s

/-- TBL_CLEAR (R186): for a VF that a PF names, the VF's entries. -/
def execTblClear (c : Cmd) (s : State) : Host.Outcome State Fault Refusal :=
  lift (fun d => checked c (classStatus d c [(16, 1)] (decide (7 < c.f 16 1)) false)
    (fun d =>
      let f := actor d c
      let mine (o : Nat) : Bool := if f = c.fn then mayAct c.fn o else decide (o = f)
      completeSt c 0 (ltableU (c.f 16 1) (fun x => { x with ents := x.ents.filter fun y => !(mine (eOwner y.bytes)) }) d)) d) s

/-! ### Sessions (R188) -/

/-- Whether a context is another's to change: it has been set, is VALID or in its OWNER's range still, and the issuer may not act on
its OWNER (R185). -/
def sessForeign (d : Dev) (c : Cmd) (id : Nat) : Bool :=
  let x := Sys2Proof.Machine.session d id
  x.made && (bitOf x.flags 0 || inRange d x.owner 7 id false) && !(mayAct c.fn x.owner)

/-- The OWNER a context takes: the acting function, but for PF2 acting on a VF's the VF, and its OWNER once it has one. -/
def sessOwner (d : Dev) (c : Cmd) (id : Nat) : Nat :=
  let x := Sys2Proof.Machine.session d id
  let f := actor d c
  if x.made && decide (x.owner ≠ f) && (bitOf x.flags 0 || inRange d x.owner 7 id false) then x.owner
  else if f = 2 ∧ inRange d 2 7 id true = false then (rangeVf d 7 id true).getD f
  else f

/-- Set one session context (R185, R187, R188). -/
def sessionSet1 (c : Cmd) (it : Bytes) (d : Dev) : Nat × Dev :=
  let id := le it 0 4
  let fl := le it 4 2
  let pol := le it 6 2
  if sessionSlots d ≤ id ∨ 8 ≤ fl ∨ zeroAt it 12 4 = false then (4, d)
  else if !(mayUse d c 7 id (bitOf fl 0)) || sessForeign d c id || (bitOf fl 1 && !(mayUse d c 8 pol true)) then (5, d)
  else
    let o := sessOwner d c id
    let d := sessionU id (fun x =>
      let x := if bitOf fl 2 then { x with frames := 0, octets := 0 } else x
      { x with flags := fl % 4, policer := pol, tag := le it 8 4, owner := o, made := true }) d
    (0, d)

/-- SESSION_SET (R186–R188). -/
def execSessionSet (c : Cmd) (s : State) : Host.Outcome State Fault Refusal :=
  lift (fun d => checked c (classStatus d c [(18, 2), (24, 8)] (decide (256 < cCount c) || decide (cBuf c % 64 ≠ 0)) false)
    (applyItems c 16 (sessionSet1 c)) d) s

/-- A session context as read (R188). -/
def sessionBytes (x : Session) : Bytes :=
  leBytes 8 x.frames ++ leBytes 8 x.octets ++ leBytes 12 x.stamp ++ leBytes 2 x.u ++ leBytes 2 x.flags ++
  leBytes 2 x.policer ++ leBytes 2 x.owner ++ leBytes 4 x.tag ++ zeros 24

/-- SESSION_READ (R186). -/
def execSessionRead (c : Cmd) (s : State) : Host.Outcome State Fault Refusal :=
  lift (fun d => checked c
    (classStatus d c [(18, 2), (20, 4), (24, 8)]
      (decide (64 < cCount c) || decide (cBuf c % 64 ≠ 0) ||
        (decide (cCount c ≠ 0) && decide (sessionSlots d < c.f 20 4 + cCount c))) false)
    (fun d =>
      let bs := (List.range (cCount c)).flatMap fun i =>
        let x := session d (c.f 20 4 + i)
        if mayAct c.fn x.owner then sessionBytes x else zeros 64
      reply c (cBuf c) bs d) d) s

/-! ### Policers (R188) -/

/-- Set one policer: both buckets full, or empty at rate 0; its counts are kept (R182, R187, R188). -/
def policerSet1 (c : Cmd) (it : Bytes) (d : Dev) : Nat × Dev :=
  let i := le it 0 2
  let m := u8 it 2
  let cir := le it 4 4
  let pir := le it 8 4
  if 2 < m ∨ 1 < u8 it 3 ∨ (m = 2 ∧ pir < cir) ∨ zeroAt it 20 12 = false then (4, d)
  else if !(mayUse d c 8 i (decide (m ≠ 0))) then (5, d)
  else
    let cbs := le it 12 4
    let ebs := le it 16 4
    (0, policerU i (fun x => { x with
      mode := m, aware := decide (u8 it 3 = 1), cir := cir, pir := pir, cbs := cbs, ebs := ebs, tick := now d,
      cRest := 0, eRest := 0,
      c := if cir = 0 then 0 else cbs * polByte,
      e := if (m = 1 ∧ cir = 0) ∨ (m = 2 ∧ pir = 0) then 0 else ebs * polByte }) d)

/-- POLICER_SET (R182, R186–R188). -/
def execPolicerSet (c : Cmd) (s : State) : Host.Outcome State Fault Refusal :=
  lift (fun d => checked c (classStatus d c [(18, 2), (24, 8)] (decide (256 < cCount c) || decide (cBuf c % 64 ≠ 0)) false)
    (applyItems c 32 (policerSet1 c)) d) s

/-- POLICER_READ (R186, R188). -/
def execPolicerRead (c : Cmd) (s : State) : Host.Outcome State Fault Refusal :=
  lift (fun d =>
    let i := c.f 20 2
    checked c (classStatus d c [(20, 2), (24, 8)] (decide (cBuf c % 64 ≠ 0)) (!(mayUse d c 8 i false)))
      (fun d =>
        let p := polRefill (now d) (policer d i)
        let b := leBytes 2 i ++ leBytes 1 p.mode ++ leBytes 1 (b2n p.aware) ++ leBytes 4 p.cir ++ leBytes 4 p.pir ++
          leBytes 4 p.cbs ++ leBytes 4 p.ebs ++ zeros 12 ++ leBytes 4 (p.c / polByte) ++ leBytes 4 (p.e / polByte) ++
          (p.counts.flatMap (leBytes 8))
        reply c (cBuf c) b d) d) s

/-! ### Load spreading (R184) -/

/-- RSS_SET (R184, R186). -/
def execRssSet (c : Cmd) (s : State) : Host.Outcome State Fault Refusal :=
  lift (fun d =>
    let f := actor d c
    let setH := bitOf (c.f 16 1) 0
    let n := c.f 22 2
    let first := c.f 20 2
    let top := if isVf f then 9 else 12
    checked c (classStatus d c [(16, 1), (17, 1), (18, 1), (19, 1), (20, 2), (22, 2), (24, 8)]
        (decide (2 ≤ c.f 16 1) || decide (64 ≤ c.f 18 1) || decide (4096 < n) || decide (2 ^ top < first + n) ||
          decide (cBuf c % 64 ≠ 0) ||
          (setH && (decide (1 < c.f 17 1) || decide (c.f 19 1 < 6) || decide (top < c.f 19 1)))) false)
      (fun d =>
        let ents := dmaRead d c.fn (cBuf c + 64) (2 * n)
        let key := dmaRead d c.fn (cBuf c) 40
        completeSt c 0 { d with rss := Tbl.upd (fun _ => {}) d.rss f fun x =>
          let x := if setH then { x with kind := c.f 17 1, fields := c.f 18 1, log2 := c.f 19 1, key := key } else x
          { x with table := (List.range n).foldl (fun t i => Tbl.set (fun _ => 0) t (first + i) (le ents (2 * i) 2)) x.table } }) d) s

end Sys2Proof.Machine
end

