-- ==== Sys2Proof/Machine/Dram.lean ====
section
/-! DEFINITION. DDR5 memory (14): the address map, the regions, poison, scrub, refresh, retirement and sparing. -/

namespace Sys2Proof.Machine

/-- A memory channel. -/
def dch (d : Dev) (n : Nat) : DCh := Tbl.get (fun _ => {}) d.dram.chans n

/-- Key of a channel group's register, and of a rank's counter (R466). -/
def dramKey (n off : Nat) : Nat := 0xB01000 + n * 0x1000 + off
def rankCtr (n r off : Nat) : Nat := dramKey n (0x100 + 0x40 * r + off)

/-- Change the memory system. -/
def dramU (f : Dram → Dram) (d : Dev) : Dev := { d with dram := f d.dram }

/-- DRAM_CH_STAT of a channel's record. -/
def chStatWord (x : DCh) : Word :=
  let rs := (List.range 4).foldl (fun (a : Nat) i => a + x.ranks.getD i 0 * 16 ^ i) 0
  BitVec.ofNat 32 (b2n x.inService * 2 ^ 31 + b2n x.fast * 2 ^ 30 + b2n x.hot * 2 ^ 29 + x.cause * 2 ^ 26 +
    x.dimms * 2 ^ 24 + ofSigned 8 x.temp * 2 ^ 16 + rs)

/-- Change a channel, and DRAM_CH_STAT with it; the DRAM-tier lookups' bucket is settled before HOT changes (R174). -/
def dchU (n : Nat) (f : DCh → DCh) (d : Dev) : Dev :=
  let was := dch d n
  let d := if (was.inService && was.hot) = ((f was).inService && (f was).hot) then d else dramSettle d
  let d := dramU (fun x => { x with chans := Tbl.upd (fun _ => {}) x.chans n f }) d
  regW (dramKey n 0x40) (chStatWord (dch d n)) d

/-- State of a rank named by channel × 4 + rank (R461). -/
def rankSt (d : Dev) (r : Nat) : Nat := (dch d (r / 4)).ranks.getD (r % 4) 0
def rankSet (r st : Nat) (d : Dev) : Dev := dchU (r / 4) (fun x => { x with ranks := setAt x.ranks (r % 4) st }) d

/-- The largest power of two not above `n` (1 for 0). -/
def pow2Floor (n : Nat) : Nat := 2 ^ Nat.log2 (max n 1)

/-! ### The address map (R449–R452) -/

/-- Used outputs with C channels in service (R449). -/
def usedOuts (c : Nat) : List Nat :=
  [0] ++ ((List.range 3).filter fun i => decide (2 ^ i < c)).map (· + 1) ++ [4, 5, 6, 7, 8]

/-- Exclusive-or of the bits of `a` that stand in `m`. -/
def parity (a m : Nat) : Nat :=
  (List.range 42).foldl (fun (x : Nat) i => if bitOf a i && bitOf m i then 1 - x else x) 0

/-- Output `k` of an address within `n` bits; masks count from address bit 6 (R449). -/
def outBit (mp : List (Nat × Nat)) (n a k : Nat) : Nat := parity (a % 2 ^ n) ((mp.getD k (0, 0)).2 * 64)

/-- Direct bits of an address: the bits 6 to n − 1 that are no home of the outputs `ks`, as a number (R449). -/
def directBits (mp : List (Nat × Nat)) (ks : List Nat) (n a : Nat) : Nat :=
  let homes := ks.map fun k => (mp.getD k (0, 0)).1
  let bits := ((List.range n).drop 6).filter fun b => !(homes.contains b)
  bits.foldr (fun b (x : Nat) => 2 * x + b2n (bitOf a b)) 0

/-- Channels in service and R0 (R450), and the interleaved part's bytes. -/
def chanCount (d : Dev) : Nat := d.dram.slots.length
def rankR0 (d : Dev) : Nat := pow2Floor ((d.dram.slots.map List.length).foldl min 4)
def interBytes (d : Dev) : Nat := chanCount d * rankR0 d * d.dram.rankSize

/-- The ranks of the tail in address order (R450). -/
def tailRanks (d : Dev) : List Nat := d.dram.slots.flatMap fun l => l.drop (rankR0 d)

/-- Bytes in service (R450). -/
def dramBytes (d : Dev) : Nat := interBytes d + (tailRanks d).length * d.dram.rankSize

/-- SC, BG and BA as the low six bits of a line's number within its rank. -/
def bankBits (mp : List (Nat × Nat)) (n a : Nat) : Nat :=
  [0, 4, 5, 6, 7, 8].foldr (fun k (x : Nat) => 2 * x + outBit mp n a k) 0

/-- Where a device address lands (R449, R450): its rank, and the line within the rank; none outside both parts. -/
def dramLoc (d : Dev) (a : Nat) : Option (Nat × Nat) :=
  let mp := d.dram.map
  let s := d.dram.rankSize
  let ib := interBytes d
  if a < ib then
    let n := Nat.clog 2 ib
    let ks := usedOuts (chanCount d)
    let ch := outBit mp n a 1 * b2n (decide (1 < chanCount d)) + 2 * (outBit mp n a 2 * b2n (decide (2 < chanCount d))) +
      4 * (outBit mp n a 3 * b2n (decide (4 < chanCount d)))
    let dir := directBits mp ks n a
    let low := 2 ^ (Nat.clog 2 s - 12)
    match (d.dram.slots.getD ch [])[dir / low]? with
    | some r => some (r, dir % low * 64 + bankBits mp n a)
    | none => none
  else if s = 0 then none
  else
    match (tailRanks d)[(a - ib) / s]? with
    | some r =>
      let b := (a - ib) % s
      let n := Nat.clog 2 s
      some (r, directBits mp [0, 4, 5, 6, 7, 8] n b * 64 + bankBits mp n b)
    | none => none

/-- An address with the direct bits `dir` whose outputs give what `ok` accepts: the home bits are tried in turn. -/
def solveHomes (mp : List (Nat × Nat)) (ks : List Nat) (n dir : Nat) (ok : Nat → Bool) : Option Nat :=
  let homes := ks.map fun k => (mp.getD k (0, 0)).1
  let bits := ((List.range n).drop 6).filter fun b => !(homes.contains b)
  let base := (bits.zipIdx).foldl (fun (x : Nat) (b : Nat × Nat) => if bitOf dir b.2 then x + 2 ^ b.1 else x) 0
  let addr := fun (v : Nat) => (homes.zipIdx).foldl (fun (x : Nat) (b : Nat × Nat) => if bitOf v b.2 then x + 2 ^ b.1 else x) base
  ((List.range (2 ^ homes.length)).map addr).find? ok

/-- The device address of a line of a mapped rank: the address that R449 and R450 put there. -/
def lineAddr (d : Dev) (r line : Nat) : Option Nat :=
  let mp := d.dram.map
  let s := d.dram.rankSize
  let ib := interBytes d
  let low := 2 ^ (Nat.clog 2 s - 12)
  match d.dram.slots.findIdx? (fun l => l.contains r) with
  | none => none
  | some ch =>
    let pos := (d.dram.slots.getD ch []).idxOf r
    if pos < rankR0 d then
      solveHomes mp (usedOuts (chanCount d)) (Nat.clog 2 ib) (pos * low + line / 64)
        (fun a => decide (dramLoc d a = some (r, line)))
    else
      let b := ib + (tailRanks d).idxOf r * s
      (solveHomes mp [0, 4, 5, 6, 7, 8] (Nat.clog 2 s) (line / 64)
        (fun a => decide (dramLoc d (b + a) = some (r, line)))).map (b + ·)

/-- Rank of a square matrix over GF(2), rows as numbers, by elimination on rising columns. -/
def gfFull : Nat → Nat → List Nat → Bool
  | 0, _, _ => true
  | n + 1, c, rows =>
    match takeFirst (fun r => bitOf r c) rows with
    | none => false
    | some (p, rest) => gfFull n (c + 1) (rest.map fun r => if bitOf r c then Nat.xor r p else r)

/-- Whether outputs `ks` over `n` address bits form an invertible map (R452), their homes distinct and below `n`. -/
def mapOk (mp : List (Nat × Nat)) (ks : List Nat) (n : Nat) : Bool :=
  let homes := ks.map fun k => (mp.getD k (0, 0)).1
  let row := fun k => (homes.zipIdx).foldl
    (fun (x : Nat) (h : Nat × Nat) => if bitOf ((mp.getD k (0, 0)).2 * 64) h.1 then x + 2 ^ h.2 else x) 0
  homes.all (fun h => decide (6 ≤ h ∧ h < n)) && decide homes.Nodup &&
    ks.all (fun k => bitOf ((mp.getD k (0, 0)).2 * 64) (mp.getD k (0, 0)).1) &&
    gfFull ks.length 0 (ks.map row)

/-- The test of R452 and R450 for the current boot. -/
def mapFits (d : Dev) (mp : List (Nat × Nat)) : Bool :=
  mapOk mp (usedOuts (chanCount d)) (Nat.clog 2 (interBytes d)) &&
    (decide (tailRanks d = []) || mapOk mp [0, 4, 5, 6, 7, 8] (Nat.clog 2 d.dram.rankSize))

/-- The map at reset (R451). -/
def mapReset : List (Nat × Nat) := (List.range 9).map fun k => (6 + k, 2 ^ k + 2 ^ (k + 16) + 2 ^ (k + 24))

/-- The map that a set of register values spells. -/
def mapOfRegs (r : Nat → Word) : List (Nat × Nat) :=
  (List.range 9).map fun k =>
    let hi := r (0xB00104 + 8 * k)
    (Word.fld hi 21 16, (r (0xB00100 + 8 * k)).toNat + Word.fld hi 3 0 * 2 ^ 32)

/-! ### Regions (R453) -/

/-- Bytes asked for by each region, in order; the hold areas' from the size the ports hold. -/
def regionAsk (d : Dev) : List Nat :=
  let c := chanCount d
  let gib := 2 ^ 30
  let mib := 2 ^ 20
  let tbl := (List.range 8).foldl (fun (a : Nat) t =>
    if effB d (0x402100 + 16 * t) 31 && effB d (0x402100 + 16 * t) 30 then a + 64 * 2 ^ effF d (0x402100 + 16 * t) 4 0 else a) 0
  if c = 0 then [0, 0, 0, 0, 0, 0, 0]
  else [numClusters d.variant * gib, 32 * c * mib, (if c = 1 then 32 else 64) * mib,
    (holdMib d 0 + holdMib d 1) * mib, roundUp tbl (2 * mib), stagingBytes d, effF d 0xC00010 7 0 * gib]

/-- Place one region of `n` bytes below `top`: its base and the space left, or nothing when it does not fit. -/
def placeOne (top n : Nat) : Option Nat :=
  let al := if n % 2 ^ 30 = 0 then 2 ^ 30 else 2 ^ 21
  if n = 0 then some top else if n ≤ top then some ((top - n) / al * al) else none

/-- Place regions from the top of the interleaved part down, then from the top of the tail: the bases, or none where
one does not fit. `i` and `t` are the tops left. -/
def placeAll (floor : Nat) : Nat → Nat → List Nat → List (Option (Nat × Nat))
  | _, _, [] => []
  | i, t, n :: rest =>
    match placeOne i n with
    | some b => some (b, n) :: placeAll floor b t rest
    | none =>
      match placeOne t n with
      | some b => if floor ≤ b then some (b, n) :: placeAll floor i b rest else none :: placeAll floor i t rest
      | none => none :: placeAll floor i t rest

/-- The regions a list of sizes gives. -/
def regionsFor (d : Dev) (sizes : List Nat) : List (Option (Nat × Nat)) :=
  placeAll (interBytes d) (interBytes d) (dramBytes d) sizes

/-- Whether every region has room (R453). -/
def regionsFit (d : Dev) : Bool := (regionsFor d (regionAsk d)).all Option.isSome

/-- Place the regions and show them in DRAM_RGN (R453, R465). -/
def placeRegions (d : Dev) : Dev :=
  let rs := (regionsFor d (regionAsk d)).map fun x => x.getD (0, 0)
  let d := dramU (fun x => { x with regions := rs }) d
  (rs.zipIdx).foldl (fun d (r : (Nat × Nat) × Nat) =>
    regW (0xB00200 + 4 * r.2) (BitVec.ofNat 32 (r.1.2 / 2 ^ 20 + b2n (d.dram.degraded.contains r.2) * 2 ^ 31)) d) d

/-- The region that holds a device address. -/
def regionOf (d : Dev) (a : Nat) : Option Nat :=
  d.dram.regions.findIdx? fun r => decide (r.1 ≤ a ∧ a < r.1 + r.2)

/-- Base of a cluster's DRAM window (R453). -/
def windowBase (d : Dev) (c : Nat) : Nat := (d.dram.regions.getD 0 (0, 0)).1 + c * 2 ^ 30

/-! ### Poison and retirement (R454, R457–R464) -/

/-- Whether a line of a device address reads as poisoned: written so, or on a REMOVED rank (R458, R463). -/
def linePoisoned (d : Dev) (a : Nat) : Bool :=
  d.dram.poisoned.contains (a / 64) ||
    match dramLoc d a with
    | some (r, _) => decide (rankSt d r = 6)
    | none => true

/-- What reading a poisoned line of a region does to what its owner holds there (R454). `victim` names which held
frame or parked completion stands on the line: the spec leaves the layout inside a region open. The other regions'
owners meet the poison when they read the line. -/
def regionHit (rg victim : Nat) (d : Dev) : Dev :=
  if rg = 3 then
    let h := victim % 2
    match (hp d h).hold[victim / 2]? with
    | none => d
    | some it =>
      let d := hpU h (fun p => { p with hold := p.hold.eraseIdx (victim / 2), holdBytes := p.holdBytes - holdCharge it.frame.bytes.length }) d
      dropUnseq it.frame (ctrInc (0xD00118 + 0x40 * h) d)
  else if rg = 2 ∧ chanCount d = 1 then
    let cqs := d.queues.filter fun q => decide (q.2.parked ≠ [])
    match cqs[victim % 65536]? with
    | none => d
    | some (k, q) =>
      let i := victim / 65536
      match q.parked[i]? with
      | none => d
      | some e =>
        { d with queues := Tbl.set (fun _ => {}) d.queues k { q with parked := setAt q.parked i (asPoisoned e) } }
  else d

/-- Log an error of a channel as UNIT_DEGRADED and post DRAM_UE (R458). -/
def reportUe (r a : Nat) (d : Dev) : Dev :=
  let pl := leBytes 1 (r / 4) ++ leBytes 1 (r % 4) ++ leBytes 8 a
  postDev 0xB9 pl (logErr 1 (mIsland (r / 4)) 0xB900 (pl.take 8) d)

/-- An eligible spare for a failing rank (R461). -/
def eligibleSpare (d : Dev) (r : Nat) : Option Nat :=
  let own := (List.range 4).map (r / 4 * 4 + ·)
  let others := (List.range 32).filter fun x => decide (x / 4 ≠ r / 4)
  (own ++ others).find? fun x => decide (rankSt d x = 2)

/-- The first of `n` lines from address `a` that stands on rank `r`. -/
def lineOn (d : Dev) (r : Nat) : Nat → Nat → Option Nat
  | 0, _ => none
  | n + 1, a => if (dramLoc d a).any fun x => decide (x.1 = r) then some a else lineOn d r n (a + 64)

/-- Remove a rank from the map (R463): each region with a line on it is DEGRADED, reported and handled by its owner, who
reports UNIT_DEGRADED (log entry 44). -/
def removeRank (r : Nat) (d : Dev) : Dev :=
  let d := postDev 0xBA (leBytes 1 (r / 4) ++ leBytes 1 (r % 4) ++ leBytes 1 0xFF ++ leBytes 1 0xFF) (rankSet r 6 d)
  placeRegions ((d.dram.regions.zipIdx).foldl (fun d (rg : (Nat × Nat) × Nat) =>
    match lineOn d r (rg.1.2 / 64) rg.1.1 with
    | none => d
    | some a => logErr 1 0xFF 0xB900 (leBytes 1 rg.2)
      (reportUe r a (dramU (fun x => { x with degraded := if x.degraded.contains rg.2 then x.degraded else x.degraded ++ [rg.2] }) d))) d)

/-- Retire an ACTIVE rank: a spare takes its lines, or it is removed (R461, R464). -/
def retireRank (r : Nat) (d : Dev) : Dev :=
  if rankSt d r ≠ 1 ∨ d.dram.waiting.contains r then d
  else
    match eligibleSpare d r with
    | none => removeRank r d
    | some t =>
      if d.dram.copy.isSome then dramU (fun x => { x with waiting := x.waiting ++ [r] }) d
      else
        let d := rankSet t 4 (rankSet r 3 d)
        let d := bitW 0xB00040 29 true (dramU (fun x => { x with copy := some { src := r, dst := t } }) d)
        postDev 0xBA (leBytes 1 (r / 4) ++ leBytes 1 (r % 4) ++ leBytes 1 (t / 4) ++ leBytes 1 (t % 4)) d

/-- The copy has ended: ranks that waited are retired in order (R464). -/
def retireWaiting (d : Dev) : Dev :=
  let w := d.dram.waiting
  w.foldl (fun d r => retireRank r d) (dramU (fun x => { x with waiting := [] }) d)

/-- An uncorrectable error on a rank (R458, R461): what its state makes of it. -/
def rankFails (r : Nat) (d : Dev) : Dev :=
  match rankSt d r with
  | 1 => retireRank r d
  | 2 => rankSet r 7 d
  | 4 =>
    match d.dram.copy with
    | none => d
    | some c =>
      let d := rankSet c.src 1 (rankSet r 7 (bitW 0xB00040 29 false (dramU (fun x => { x with copy := none }) d)))
      retireWaiting (retireRank c.src d)
  | _ => d

/-- An uncorrectable read of a line (R458). -/
def lineUe (r line victim : Nat) (d : Dev) : Dev :=
  let d := ctrInc (rankCtr (r / 4) (r % 4) 8) d
  match lineAddr d r line with
  | none => rankFails r (reportUe r (line * 64) d)
  | some a =>
    let d := dramU (fun x => { x with poisoned := if x.poisoned.contains (a / 64) then x.poisoned else x.poisoned ++ [a / 64] }) d
    let d := match regionOf d a with
      | some rg => regionHit rg victim d
      | none => d
    rankFails r (reportUe r a d)

/-- Ticks of 24 hours. -/
def dayTicks : Nat := 86400000000000

/-- A corrected read (R457). -/
def lineCe (r : Nat) (d : Dev) : Dev :=
  let d := ctrInc (rankCtr (r / 4) (r % 4) 0) d
  let l := (Tbl.get (fun _ => ([] : List Nat)) d.dram.ce r).filter (fun t => decide (now d < t + dayTicks)) ++ [now d]
  let d := dramU (fun x => { x with ce := Tbl.set (fun _ => []) x.ce r l }) d
  let lim := effF d 0xB00010 15 0
  if lim = 0 ∨ l.length ≤ lim then dramU (fun x => { x with cePosted := x.cePosted.filter (· ≠ r) }) d
  else if d.dram.cePosted.contains r then d
  else
    let pl := leBytes 1 (r / 4) ++ leBytes 1 (r % 4) ++ leBytes 4 l.length
    let d := postDev 0xBD pl (logErr 0 (mIsland (r / 4)) 0xBD00 (pl.take 8) (dramU (fun x => { x with cePosted := x.cePosted ++ [r] }) d))
    if effB d 0xB00010 31 then retireRank r d else d

/-- Lines of a rank. -/
def rankLines (d : Dev) : Nat := d.dram.rankSize / 64

/-- Whether a rank is in service, spares included (R459). -/
def rankIn (d : Dev) (r : Nat) : Bool := [1, 2, 3, 4].contains (rankSt d r)

/-- The line the scrub of a channel reads next (R459), as rank and line: its position runs through the ranks in ascending order, past
those out of service (log entry 73). -/
def scrubPlace (d : Dev) (ch : Nat) : Option (Nat × Nat) :=
  let x := dch d ch
  let n := rankLines d
  let r := x.scrub / n % 4
  if rankIn d (ch * 4 + r) then some (r, x.scrub % n)
  else ([1, 2, 3].find? fun i => rankIn d (ch * 4 + (r + i) % 4)).map fun i => ((r + i) % 4, 0)

/-- SCRUB_STEP (R459): the scrub reads the line at its position, and finds it so. It reads no other line (log entry 73). -/
def execScrubStep (ch rank line : Nat) (res : LineRes) (victim : Nat) (s : State) : Host.Outcome State Fault Refusal :=
  lift (fun d =>
    if !(dch d ch).inService ∨ effF d 0xB00010 23 16 = 0 ∨ scrubPlace d ch ≠ some (rank, line) then d else
      let r := ch * 4 + rank
      let d := ctrInc (rankCtr ch rank 0x18) (dchU ch (fun x => { x with scrub := (rank * rankLines d + line + 1) % (4 * rankLines d) }) d)
      match res with
      | .good => d
      | .corrected => lineCe r d
      | .uncorrectable => lineUe r line victim d) s

/-- SPARE_COPY_STEP (R462): the next line is copied; the last one switches the map. -/
def execSpareCopyStep (src : LineRes) (targetBad : Bool) (s : State) : Host.Outcome State Fault Refusal :=
  lift (fun d =>
    match d.dram.copy with
    | none => d
    | some c =>
      if targetBad then rankFails c.dst (reportUe c.dst (c.pos * 64) (ctrInc (rankCtr (c.dst / 4) (c.dst % 4) 8) d))
      else
        let pk := rankCtr (c.dst / 4) (c.dst % 4) 0x20
        let d := match src with
          | .good => d
          | .corrected => lineCe c.src d
          | .uncorrectable =>
            let d := ctrInc pk d
            match lineAddr d c.src c.pos with
            | some a => dramU (fun x => { x with poisoned := if x.poisoned.contains (a / 64) then x.poisoned else x.poisoned ++ [a / 64] }) d
            | none => d
        if c.pos + 1 < rankLines d then dramU (fun x => { x with copy := some { c with pos := c.pos + 1 } }) d
        else
          let d := dramU (fun x => { x with
            copy := none
            slots := x.slots.map fun l => l.map fun r => if r = c.src then c.dst else r }) d
          let d := bitW 0xB00040 29 false (rankSet c.dst 1 (rankSet c.src 5 d))
          retireWaiting (postDev 0xBB (leBytes 1 (c.src / 4) ++ leBytes 1 (c.src % 4) ++ leBytes 4 (ctrR d pk)) d)) s

/-- Ranks of the DIMM that holds a rank: DIMMs hold consecutive ranks (DEDUCED, log entry 44). -/
def dimmRanks (d : Dev) (r : Nat) : List Nat :=
  let x := dch d (r / 4)
  let per := max 1 (x.nranks / max 1 x.dimms)
  ((List.range x.nranks).filter fun i => decide (i / per = r % 4 / per)).map (r / 4 * 4 + ·)

/-- CA_PARITY_ERROR (R460): retried; after a third retry that fails it is uncorrectable on every rank of the DIMM. -/
def execCaParityError (ch rank line retries : Nat) (s : State) : Host.Outcome State Fault Refusal :=
  lift (fun d =>
    let r := ch * 4 + rank
    if !(dch d ch).inService ∨ 4 ≤ rank ∨ rankLines d ≤ line ∨ !([1, 2, 3, 4].contains (rankSt d r)) then d
    else
      let d := ctrAdd (rankCtr ch rank 0x10) (min retries 3) d
      if retries ≤ 3 then d else (dimmRanks d r).foldl (fun d x => lineUe x line 0 d) d) s

/-- DRAM_REFRESH (R456): one bank of the same-bank refresh; a change of tREFI applies at the next window. -/
def execDramRefresh (ch : Nat) (s : State) : Host.Outcome State Fault Refusal :=
  lift (fun d =>
    if (dch d ch).inService then dchU ch (fun x => { x with refBank := (x.refBank + 1) % 4, refFast := x.refNext }) d else d) s

/-- DRAM_TEMP_POLL (R456): the readings of the DIMMs' sensors, none where a read failed. -/
def execDramTempPoll (ch : Nat) (readings : List (Option Int)) (s : State) : Host.Outcome State Fault Refusal :=
  lift (fun d =>
    let x := dch d ch
    if !x.inService ∨ readings.length ≠ x.dimms then d
    else
      let miss := (List.range 2).map fun i =>
        match readings[i]? with
        | some none => x.miss.getD i 0 + 1
        | _ => 0
      let got := readings.filterMap id
      let top := if got = [] then x.temp else got.foldl max (got.headD 0)
      let hot := decide (95 < top)
      let d := dchU ch (fun x => { x with
        miss := miss, temp := satSigned 8 top, hot := hot
        refNext := decide (85 < top) || miss.any (fun n => decide (2 ≤ n)) }) d
      if hot = x.hot then d
      else postDev 0xBC (leBytes 1 ch ++ leBytes 1 (b2n hot) ++ leBytes 1 (ofSigned 8 (satSigned 8 top))) d) s

/-- The status of a DRAM command (R467), with its own parameter and state checks. -/
def dramStatus (c : Cmd) (used : List (Nat × Nat)) (badParam : Bool) (late : List (Bool × Nat)) : Nat :=
  firstStatus ([(decide (c.fn ≠ 0) || (cmdSelf c).isNone, stNotPermitted),
    (!(reservedOk c ([(16, 1), (17, 1)] ++ used)) || badParam, stBadParam)] ++ late)

/-- A channel and rank that a DRAM command may name: an island the variant lacks is ABSENT (R11). -/
def chanStatus (d : Dev) (ch : Nat) : List (Bool × Nat) :=
  [(decide (unitStatus d (mIsland ch) ≠ 0), unitStatus d (mIsland ch))]

/-- DRAM_RANK_RETIRE (R461, R464, R467). -/
def execDramRankRetire (c : Cmd) (s : State) : Host.Outcome State Fault Refusal :=
  lift (fun d =>
    let ch := c.f 16 1
    let r := ch * 4 + c.f 17 1
    checked c (dramStatus c [] (decide (7 < ch) || decide (3 < c.f 17 1))
        (chanStatus d ch ++ [(decide (rankSt d r ≠ 1), stBadState)]))
      (fun d => completeSt c 0 (retireRank r d)) d) s

/-- DRAM_STATS (R466, R467). -/
def execDramStats (c : Cmd) (s : State) : Host.Outcome State Fault Refusal :=
  lift (fun d =>
    let ch := c.f 16 1
    let buf := c.f 24 8
    checked c (dramStatus c [(18, 1), (24, 8)] (decide (7 < ch) || decide (3 < c.f 17 1) || decide (1 < c.f 18 1) || decide (buf % 64 ≠ 0))
        (chanStatus d ch))
      (fun d =>
        let keys := (List.range 4).flatMap fun r => (List.range 6).map fun i => rankCtr ch r (8 * i)
        let bs := keys.flatMap fun k => leBytes 8 (ctrR d k)
        let d := if bitOf (c.f 18 1) 0 then keys.foldl (fun d k => ctrW k 0 d) d else d
        reply c buf bs d) d) s

/-! ### The boot (R447, R448, R452) -/

/-- Whether a usable channel fast resumes (R448): after a warm reset, with every DIMM's serial number as stored, the hottest reading
within 15 °C of the stored one, and the stored results passing their check. -/
def fastResume (d : Dev) (n : Nat) (t : ChTrain) : Bool :=
  d.dram.warm && decide (t.cause = 0) && t.check &&
  (match Tbl.get (fun _ => none) d.dram.trained n with
    | some (sn, temp) => decide (sn = t.serials) && decide ((t.temp - temp).natAbs ≤ 15)
    | none => false)

/-- Bring up the memory from what the boot found of each channel (R447, R450, R452, R461). -/
def dramBoot (tr : List ChTrain) (d : Dev) : Dev :=
  let present := (List.range 8).filter fun n => islandPresent d.variant (mIsland n)
  let get := fun n => tr.getD n ⟨1, 0, 0, 0, 0, [], false, 0⟩
  let usable := present.filter fun n => decide ((get n).cause = 0)
  let like := fun (a b : ChTrain) => decide ((a.dimms, a.ranks, a.rankGib, a.density) = (b.dimms, b.ranks, b.rankGib, b.density))
  let ref := get (usable.headD 0)
  let same := usable.filter fun n => like (get n) ref
  let inS := if same = [] then [] else same.take (pow2Floor same.length)
  let spareOf := fun n =>
    let w := effR d (dramKey n 0x10)
    if Word.bit w 2 && decide (Word.fld w 1 0 < ref.ranks) && decide (1 < ref.ranks) then some (Word.fld w 1 0) else none
  let cause := fun n => if inS.contains n then 0 else if (get n).cause ≠ 0 then (get n).cause else if same.contains n then 5 else 4
  let slots := inS.map fun n => ((List.range ref.ranks).filter fun r => decide (spareOf n ≠ some r)).map (n * 4 + ·)
  let quick := usable.filter fun n => fastResume d n (get n)
  let trained := (usable.filter fun n => !(quick.contains n)).foldl (fun (x : Tbl (Option (List Nat × Int))) n =>
    Tbl.set (fun _ => none) x n (some ((get n).serials, (get n).temp))) d.dram.trained
  let d := dramU (fun x => { ({} : Dram) with
    rankSize := if inS = [] then 0 else ref.rankGib * 2 ^ 30, slots := slots, stored := x.stored, trained := trained }) d
  let d := present.foldl (fun d n =>
    let t := get n
    let on := inS.contains n
    dchU n (fun _ => {
      inService := on, fast := on && quick.contains n, cause := cause n, dimms := t.dimms, nranks := if on then t.ranks else 0
      temp := t.temp
      ranks := (List.range 4).map fun r => if on && decide (r < t.ranks) then (if spareOf n = some r then 2 else 1) else 0 }) d) d
  let stored := if d.dram.stored = [] then mapReset else d.dram.stored
  let bad := decide (inS ≠ []) && !(mapFits d stored)
  let d := dramU (fun x => { x with map := if bad then mapReset else stored }) d
  let c := inS.length
  let mask := inS.foldl (fun (a : Nat) n => a + 2 ^ n) 0
  let n := if c = 0 then 0 else Nat.clog 2 (interBytes d)
  let d := regW 0xB00040 (BitVec.ofNat 32 (b2n bad * 2 ^ 30 + c * 2 ^ 20 + mask * 2 ^ 8 + n)) d
  let d := placeRegions d
  let d := (present.filter fun n => !(inS.contains n)).foldl (fun d n =>
    postDev 0xB8 (leBytes 1 n ++ leBytes 1 (cause n) ++ leBytes 1 (b2n (quick.contains n))) d) d
  let d := if bad then
      let (v, d) := fresh d
      postDev 0xB8 (leBytes 1 (v % 256) ++ leBytes 1 0 ++ leBytes 1 0) d
    else d
  if c = 0 then loopN 7 (fun i d => logErr 1 0xFF 0xB800 (leBytes 1 i) d) d else d

/-- What a commit of the map group does once it passes R452: the map is stored for the next boot (R452). -/
def storeMap (d : Dev) : Dev :=
  let mp := mapOfRegs (effR d)
  bitW 0xB00040 31 true (dramU (fun x => { x with stored := mp }) d)

end Sys2Proof.Machine
end

