-- ==== Sys2Proof/Machine/Givik.lean ====
section
/-! DEFINITION. Givik clusters (15): threads, gates and work items, the keystone and channels, faults and restart, debug
and release. -/

namespace Sys2Proof.Machine

/-! ### Records -/

/-- A cluster, a thread (number within its cluster), a core of a cluster. -/
def clu (d : Dev) (c : Nat) : GClu := Tbl.get (fun _ => {}) d.clusters c
def cluU (c : Nat) (f : GClu → GClu) (d : Dev) : Dev := { d with clusters := Tbl.upd (fun _ => {}) d.clusters c f }
def thr (d : Dev) (c t : Nat) : GThr := Tbl.get (fun _ => {}) (clu d c).thrs t
def thrU (c t : Nat) (f : GThr → GThr) (d : Dev) : Dev :=
  cluU c (fun x => { x with thrs := Tbl.upd (fun _ => {}) x.thrs t f, lastAct := d.time.tick }) d
def gcore (d : Dev) (c k : Nat) : GCore := Tbl.get (fun _ => {}) (clu d c).cores k
def gcoreU (c k : Nat) (f : GCore → GCore) (d : Dev) : Dev :=
  cluU c (fun x => { x with cores := Tbl.upd (fun _ => {}) x.cores k f }) d
def ggate (d : Dev) (g : Nat) : GGate := Tbl.get (fun _ => {}) d.gates g
def ggateU (g : Nat) (f : GGate → GGate) (d : Dev) : Dev := { d with gates := Tbl.upd (fun _ => {}) d.gates g f }
def glock (d : Dev) (c n : Nat) : GLock := Tbl.get (fun _ => {}) (clu d c).locks n
def glockU (c n : Nat) (f : GLock → GLock) (d : Dev) : Dev :=
  cluU c (fun x => { x with locks := Tbl.upd (fun _ => {}) x.locks n f }) d
def gevent (d : Dev) (c n : Nat) : GEvent := Tbl.get (fun _ => {}) (clu d c).events n
def geventU (c n : Nat) (f : GEvent → GEvent) (d : Dev) : Dev :=
  cluU c (fun x => { x with events := Tbl.upd (fun _ => {}) x.events n f }) d
def gtimer (d : Dev) (c n : Nat) : Option GTimer := Tbl.get (fun _ => none) (clu d c).timers n
def gtimerW (c n : Nat) (v : Option GTimer) (d : Dev) : Dev :=
  cluU c (fun x => { x with timers := Tbl.set (fun _ => none) x.timers n v, lastAct := d.time.tick }) d
def gchan (d : Dev) (c n : Nat) : GChan := Tbl.get (fun _ => {}) (clu d c).chans n
def gchanU (c n : Nat) (f : GChan → GChan) (d : Dev) : Dev :=
  cluU c (fun x => { x with chans := Tbl.upd (fun _ => {}) x.chans n f }) d

/-- Key of a cluster group's register (R494). -/
def gvKey (c off : Nat) : Nat := 0xA01000 + c * 0x1000 + off

/-- The cycle of the 2.0 GHz clocks (R470): two in each nanosecond of the time clock. -/
def gCycle (d : Dev) : Nat := 2 * now d

/-- Whether a core has stopped on a fault. -/
def coreStopped (d : Dev) (c k : Nat) : Bool := d.stopped.contains (c * 8 + k)

/-- Reserved cores (R475): the time service's, and on the W and the L the storage service's. -/
def coreReserved (v : Variant) (c k : Nat) : Bool := decide (c = 0 ∧ k = 0) || decide (c = 0 ∧ k = 1 ∧ v ≠ .m)

/-! ### Gates and threads (R476) -/

/-- The threads of a gate in its cluster or its alternate, as a mask. -/
def gateMask (d : Dev) (g : Nat) (alt : Bool) : Nat :=
  let o := if alt then 0x10 else 8
  (effR d (gateCfgKey g o)).toNat + (effR d (gateCfgKey g (o + 4))).toNat * 2 ^ 32

/-- Whether thread `t` of cluster `c` belongs to gate `g`. -/
def threadIn (d : Dev) (g c t : Nat) : Bool :=
  let w := effR d (gateCfgKey g 0)
  Word.bit w 31 && ((decide (Word.fld w 26 24 = c) && bitOf (gateMask d g false) t) ||
    (Word.bit w 23 && decide (Word.fld w 22 20 = c) && bitOf (gateMask d g true) t))

/-- The gate of a thread. -/
def gateOf (d : Dev) (c t : Nat) : Option Nat := (List.range 64).find? fun g => threadIn d g c t

/-- Where a thread starts (R475, R476, R543): a gate's at its entry while its cluster holds a gate image, another at its
image's entry; none: idle. -/
def threadEntry (d : Dev) (c t : Nat) : Option Nat :=
  if !(clu d c).image then none
  else
    match gateOf d c t with
    | some g => some (effF d (gateCfgKey g 4) 16 2 * 4)
    | none => ((clu d c).entries[t]?).bind fun e => if e = 0xFFFFFFFF ∨ coreReserved d.variant c (t / 8) = true then none else some (e % 2 ^ 17 / 4 * 4)

/-- Start a thread afresh: registers and STATUS zeroed, the PC at its entry (R499). A debugger's halt stands. -/
def startThread (c t : Nat) (d : Dev) : Dev :=
  let x := thr d c t
  let y : GThr := { halted := x.halted, haltAt := x.haltAt }
  match threadEntry d c t with
  | some e => thrU c t (fun _ => { y with st := .running, pc := e }) d
  | none => thrU c t (fun _ => y) d

/-- Cycles counted against a work item's budget (R479). -/
def itemCycles (d : Dev) (x : GThr) : Nat :=
  match x.item with
  | none => 0
  | some i =>
    match i.start with
    | none => 0
    | some s => gCycle d - s - i.halted - (if x.halted then gCycle d - max x.haltAt s else 0)

/-- PAIRED takes effect at a core's next cycle in which no thread holds a work item (R494). -/
def applyPaired (c k : Nat) (d : Dev) : Dev :=
  if (List.range 8).any fun i => (thr d c (k * 8 + i)).item.isSome then d
  else gcoreU c k (fun x => { x with paired := effB d (gvKey c 0x10) k }) d

/-- A thread's work item is decided: the thread is left without it, and takes a change of its gate that waited (R494). -/
def dropItem (c t : Nat) (d : Dev) : Dev :=
  let m := (thr d c t).moved
  let d := applyPaired c (t / 8) (thrU c t (fun x => { x with item := none }) d)
  if m then startThread c t d else d

/-- Whether a cluster holds a work item (R493). -/
def holdsItem (d : Dev) (c : Nat) : Bool := (List.range 64).any fun t => (thr d c t).item.isSome

/-! ### The keystone (R482–R487) -/

/-- Pass a freed lock on: to the first waiter, whose acquire has then ended, or to none. -/
def passLock (c n : Nat) (broken : Bool) (d : Dev) : Dev :=
  match (glock d c n).waiters with
  | [] => glockU c n (fun l => { l with owner := none, broken := l.broken || broken }) d
  | w :: rest =>
    thrU c w (fun x => { x with granted := some broken }) (glockU c n (fun l => { l with owner := some w, waiters := rest }) d)

/-- Signal an event once (R483). -/
def signalEvent (c n : Nat) (d : Dev) : Dev :=
  let e := gevent d c n
  match e.waiters with
  | w :: rest => thrU c w (fun x => { x with granted := some false }) (geventU c n (fun e => { e with waiters := rest }) d)
  | [] => if e.count < 65535 then geventU c n (fun e => { e with count := e.count + 1 }) d else ctrInc (gvKey c 0xC00) d

/-- Free a channel: the first waiting writer becomes its owner (R487). -/
def freeChan (c n : Nat) (d : Dev) : Dev :=
  let h := gchan d c n
  match h.writers with
  | [] => gchanU c n (fun h => { h with owner := none, words := [], committed := false }) d
  | w :: rest =>
    thrU c w (fun x => { x with granted := some false })
      (gchanU c n (fun h => { h with owner := some w, since := now d, words := [], committed := false, writers := rest }) d)

/-- Take a thread out of every keystone wait. -/
def leaveWaits (c t : Nat) (d : Dev) : Dev :=
  cluU c (fun x => { x with
    locks := x.locks.map fun l => (l.1, { l.2 with waiters := l.2.waiters.filter (· ≠ t) })
    events := x.events.map fun e => (e.1, { e.2 with waiters := e.2.waiters.filter (· ≠ t) })
    chans := x.chans.map fun h => (h.1, { h.2 with writers := h.2.writers.filter (· ≠ t) }) }) d

/-- The locks and channels a thread holds. -/
def locksOf (d : Dev) (c t : Nat) : List Nat := ((clu d c).locks.filter fun l => decide (l.2.owner = some t)).map (·.1)
def chansOf (d : Dev) (c t : Nat) : List Nat := ((clu d c).chans.filter fun h => decide (h.2.owner = some t)).map (·.1)

/-! ### Work items (R477–R481) -/

/-- Decide a work item as dropped or failed by the device: counted at `off` of its gate, and the frame ends as `f` says. -/
def decideItem (c t off : Nat) (f : GItem → Dev → Dev) (d : Dev) : Dev :=
  match (thr d c t).item with
  | none => d
  | some i => f i (ctrInc (gateCtr i.gate off) (dropItem c t d))

/-- A work item ends TIMEOUT or CORE_FAULT (R179). -/
def failItem (c : Nat) (i : GItem) (d : Dev) : Dev := gateFail (gIsland c) i.gate { i.frame with gated := true } d

/-! ### Faults (R488–R490) -/

/-- The word a thread would fetch: its instruction at the PC. -/
def fetchWord (d : Dev) (c t : Nat) : Nat := le (rd d (spc d (instrSpace c (t / 8))) (thr d c t).pc 4) 0 4

/-- Stop a core (R488, R489): `thread` is the faulting thread's index, 0xFF for none. -/
def stopCore (c k cause thread detail addr : Nat) (d : Dev) : Dev :=
  if coreStopped d c k then d
  else
    let ts := (List.range 8).map (k * 8 + ·)
    let gm := (List.range 64).foldl (fun (a : Nat) g => if ts.any (threadIn d g c) then a + 2 ^ g else a) 0
    let (fpc, insn, d) :=
      if thread < 8 then ((thr d c (k * 8 + thread)).pc, fetchWord d c (k * 8 + thread), d)
      else
        let (a, d) := fresh d
        let (b, d) := fresh d
        (a, b, d)
    let items := ts.filter fun t => (thr d c t).item.isSome
    let locks := ts.flatMap (locksOf d c)
    let chans := ts.flatMap (chansOf d c)
    let d := { d with stopped := d.stopped ++ [c * 8 + k] }
    let d := ts.foldl (fun d t => thrU c t (fun x => { x with st := if x.st = .idle then .idle else .running, granted := none, step := false, moved := false }) (leaveWaits c t d)) d
    let d := items.foldl (fun d t => decideItem c t 0x28 (failItem c) d) d
    let d := ts.foldl (fun d t => thrU c t (fun x => { x with st := if x.st = .idle then .idle else .running }) d) d
    let d := locks.foldl (fun d n => passLock c n true d) d
    let d := chans.foldl (fun d n => freeChan c n (ctrInc (gvKey c 0xC08) d)) d
    let d := ctrAdd (gvKey c 0xC18) locks.length (ctrInc (gvKey c 0xC10) d)
    let n := (gcore d c k).faults + 1
    let r := leBytes 1 c ++ leBytes 1 k ++ leBytes 1 thread ++ leBytes 1 cause ++ leBytes 4 fpc ++ leBytes 4 insn ++
      leBytes 4 detail ++ leBytes 8 addr ++ leBytes 12 (toR17 (rep d (gIsland c) 0).t) ++ leBytes 2 locks.length ++
      leBytes 2 items.length ++ leBytes 2 chans.length ++ leBytes 2 0 ++ leBytes 4 n ++ leBytes 8 gm ++ leBytes 8 0
    let d := gcoreU c k (fun x => { x with fault := r, faults := n }) d
    let d := loopN 16 (fun i d => regW (gvKey c (0x400 + 0x40 * k + 4 * i)) (BitVec.ofNat 32 (le r (4 * i) 4)) d) d
    let pl := leBytes 1 c ++ leBytes 1 k ++ leBytes 1 cause ++ leBytes 1 thread
    postDev 0xA8 pl (logErr 1 (gIsland c) (0xA800 + cause) pl d)

/-- A thread faults (R488, R513). -/
def threadFault (c t cause detail addr : Nat) (d : Dev) : Dev := stopCore c (t / 8) cause (t % 8) detail addr d

/-- Stop the cores with any of these threads for a deadlock, and post GIVIK_DEADLOCK (R485, R486, R497). The cores stop
together: no thread of one takes what the stop of another frees. -/
def deadlock (c cause detail : Nat) (ts : List Nat) (d : Dev) : Dev :=
  let ks := (List.range 8).filter fun k => ts.any fun t => decide (t / 8 = k)
  let d := ks.foldl (fun d k => loopN 8 (fun i d => leaveWaits c (k * 8 + i) d) d) d
  let d := ks.foldl (fun d k => stopCore c k cause 0xFF detail 0 d) d
  postDev 0xA9 (leBytes 1 c ++ leBytes 1 cause ++ leBytes 1 (ks.foldl (fun (a : Nat) k => a + 2 ^ k) 0)) d

/-- The threads of the wait-for chain from thread `o` back to thread `t` (R485); none if the chain does not return. -/
def waitChain (d : Dev) (c t : Nat) : Nat → Nat → Option (List Nat)
  | 0, _ => none
  | n + 1, o =>
    if o = t then some []
    else
      match (thr d c o).st with
      | .waiting (.lock m) =>
        if (thr d c o).granted.isSome then none
        else
          match (glock d c m).owner with
          | some o' => (waitChain d c t n o').map (o :: ·)
          | none => none
      | _ => none

/-! ### Intake (R477, R478) -/

/-- The packet window of a work item (R478): descriptor, then frame bytes 0 to 191. -/
def windowBytes (i : GItem) : Bytes :=
  let f := i.frame
  leBytes 12 f.stamp ++ leBytes 2 f.u ++
    leBytes 1 (f.str % 8 + (if bitOf f.flags 7 then 8 else 0) + (if bitOf f.flags 4 then 16 else 0)) ++
    leBytes 1 (f.port % 64) ++ leBytes 4 (clsWord f + (if f.session.isSome then 2 ^ 26 else 0)) ++
    leBytes 2 f.bytes.length ++ leBytes 1 f.pflags ++ leBytes 1 i.gate ++ leBytes 4 i.number ++ leBytes 2 f.owner ++
    zeros 34 ++ padTo 192 (f.bytes.take 192)

/-- WNEXT retires: gD := ITEM, and the budget starts to count (R479, R511). D is the instruction's. -/
def retireWnext (c t : Nat) (d : Dev) : Dev :=
  let x := thr d c t
  match x.item with
  | none => d
  | some i =>
    let dd := fetchWord d c t / 2 ^ 21 % 32
    thrU c t (fun x => { x with
      st := .running, pc := x.pc + 4
      regs := if dd = 0 then x.regs else Tbl.set (fun _ => 0) x.regs dd (BitVec.ofNat 64 i.number)
      item := some { i with start := some (gCycle d) } }) d

/-- Threads of a gate in cluster `c`, in rotation order after the one last assigned. -/
def rotation (d : Dev) (g c : Nat) (alt : Bool) : List Nat :=
  let ts := (List.range 64).filter fun t => bitOf (gateMask d g alt) t
  let l := match (ggate d g).last with | some x => if x / 64 = c then x % 64 + 1 else 0 | none => 0
  ts.filter (fun t => decide (l ≤ t)) ++ ts.filter (fun t => decide (t < l))

/-- Whether a thread is parked in WNEXT and free to take a work item. -/
def isParked (d : Dev) (c t : Nat) : Bool :=
  decide ((thr d c t).st = .parked) && (thr d c t).item.isNone && !(coreStopped d c (t / 8))

/-- GATE_INTAKE (R477): the oldest frame arrived for a gate at cluster `c`. -/
def execGateIntake (c : Nat) (s : State) : Host.Outcome State Fault Refusal :=
  lift (fun d =>
    match receive (gIsland c) (fun i => match i with | .gate _ _ => true | _ => false) d with
    | some (.gate g f, d) =>
      let src := gIsland c
      match gateServer d g with
      | none => gateUnavailable src g f d
      | some (c', alt) =>
        let ts := rotation d g c alt
        if !(gateOn d g) ∨ c' ≠ c ∨ !(clu d c).image ∨ !(islandOn d (gIsland c)) ∨ ts.all (fun t => coreStopped d c (t / 8)) then
          gateUnavailable src g f d
        else
          match ts.find? (isParked d c) with
          | none => gateFail src g f (rateNote (rateKey 0xAB g) 0 (ctrInc (gateCtr g 0x30) d))
          | some t =>
            let b := Word.fld f.clsB 19 0
            let n := (ggate d g).item
            let i : GItem := { gate := g, number := n, frame := f, budget := if b = 0 then gateBudget d g else b }
            let d := ggateU g (fun x => { x with last := some (c * 64 + t), item := (n + 1) % 2 ^ 32 }) (ctrInc (gateCtr g 0) d)
            let d := wrt (spc d (windowSpace c t)) 0 (windowBytes i) (thrU c t (fun x => { x with item := some i }) d)
            if (thr d c t).halted then d else retireWnext c t d
    | _ => d) s

/-- GATE_BUSY (R497): frames refused BUSY in the last second. -/
def execGateBusy (g : Nat) (s : State) : Host.Outcome State Fault Refusal :=
  lift (fun d =>
    let k := rateKey 0xAB g
    if rateDue d k then postDev 0xAB (leBytes 1 g ++ leBytes 4 (rateOf d k).count) (rateClear k d) else d) s

/-- BUDGET_EXPIRY (R481): a work item whose count has reached its budget. -/
def execBudgetExpiry (c t : Nat) (s : State) : Host.Outcome State Fault Refusal :=
  lift (fun d =>
    let x := thr d c t
    match x.item with
    | none => d
    | some i =>
      if i.start.isNone ∨ x.halted ∨ coreStopped d c (t / 8) ∨ itemCycles d x < i.budget then d
      else if locksOf d c t ≠ [] ∨ chansOf d c t ≠ [] then threadFault c t 9 0 0 d
      else startThread c t (decideItem c t 0x20 (failItem c) (leaveWaits c t d))) s

/-! ### Waits that end (R482–R487) -/

/-- KEYSTONE_TIMER (R484): an armed timer whose deadline has come signals its event once and disarms. -/
def execKeystoneTimer (c n : Nat) (s : State) : Host.Outcome State Fault Refusal :=
  lift (fun d =>
    match gtimer d c n with
    | none => d
    | some x =>
      let due := match x.at_ with
        | .time s t => decide (t ≤ (rep d (gIsland c) s).t)
        | .cycle k => decide (k ≤ gCycle d)
      if due && islandOn d (gIsland c) then signalEvent c x.event (gtimerW c n none d) else d) s

/-- Whether a thread counts as idle for R486: idle, or parked in no gate. -/
def countsIdle (d : Dev) (c t : Nat) : Bool :=
  decide ((thr d c t).st = .idle) || (decide ((thr d c t).st = .parked) && (gateOf d c t).isNone)

/-- Whether a thread waits in the keystone. -/
def keystoneWaits (d : Dev) (c t : Nat) : Bool :=
  !(coreStopped d c (t / 8)) && match (thr d c t).st with | .waiting _ => true | _ => false

/-- Whether a thread waits on an event that has EXTERNAL set (R483, R486). -/
def extWaited (d : Dev) (c : Nat) : Bool :=
  (List.range 64).any fun t => keystoneWaits d c t &&
    match (thr d c t).st with
    | .waiting (.event n) => effB d (gvKey c (0x20 + 4 * (n / 32))) (n % 32)
    | _ => false

/-- QUIESCENT_DEADLOCK (R486): its conditions have held since the cluster's latest activity. -/
def execQuiescentDeadlock (c : Nat) (s : State) : Host.Outcome State Fault Refusal :=
  lift (fun d =>
    let q := effF d (gvKey c 0x14) 15 0
    let ts := List.range 64
    let waits := ts.filter (keystoneWaits d c)
    let still := ts.all fun t =>
      coreStopped d c (t / 8) || (!(thr d c t).halted && (thr d c t).granted.isNone && (countsIdle d c t || keystoneWaits d c t))
    let ext := extWaited d c
    let coming := d.xings.any fun x => decide (x.dst = gIsland c) && (match x.item with | .gate _ _ => true | _ => false)
    let quiet := ((clu d c).timers.all fun t => t.2.isNone) && !coming
    if q = 0 ∨ waits = [] ∨ !still ∨ ext ∨ !quiet ∨ !(islandOn d (gIsland c)) ∨ now d < (clu d c).lastAct + q * 1000 then d
    else deadlock c 11 0 waits d) s

/-- CHANNEL_ABANDON (R487): the owner has held the channel for CHANNEL_HOLD while another writer waits. -/
def execChannelAbandon (c n : Nat) (s : State) : Host.Outcome State Fault Refusal :=
  lift (fun d =>
    let h := gchan d c n
    let hold := effF d (gvKey c 0x18) 19 0
    match h.owner with
    | none => d
    | some o =>
      if hold = 0 ∨ h.writers = [] ∨ islandOn d (gIsland c) = false ∨ now d < h.since + hold * 1000 then d
      else freeChan c n (gchanU c n (fun h => { h with lost := h.lost ++ [o] }) (ctrInc (gvKey c 0xC08) d))) s

/-! ### Debug (R492) -/

/-- Key of a debug register of core `k`. -/
def dbgKey (c k off : Nat) : Nat := gvKey c (0x800 + 0x40 * k + off)

/-- DEBUG_EN of a core. -/
def debugEn (d : Dev) (c k : Nat) : Bool := bitR d (dbgKey c k 0) 31

/-- Show which threads of a core are halted in DBG_STAT. -/
def showHalted (c k : Nat) (d : Dev) : Dev :=
  fldW (dbgKey c k 4) 7 0 ((List.range 8).foldl (fun (a : Nat) i => if (thr d c (k * 8 + i)).halted then a + 2 ^ i else a) 0) d

/-- Halt a thread, or let it go on; its budget does not count while it is halted (R479). -/
def haltThread (c t : Nat) (on : Bool) (d : Dev) : Dev :=
  let x := thr d c t
  if x.halted = on then d
  else if on then showHalted c (t / 8) (thrU c t (fun x => { x with halted := true, haltAt := gCycle d }) d)
  else
    let d := thrU c t (fun x => { x with
      halted := false, step := false
      item := x.item.map fun i => { i with halted := i.halted + (match i.start with | some s => gCycle d - max x.haltAt s | none => 0) } }) d
    let d := showHalted c (t / 8) d
    if (thr d c t).st = .parked then retireWnext c t d else d

/-- Whether an enabled breakpoint of its core matches a thread's PC. -/
def bpMatch (d : Dev) (c t : Nat) : Bool :=
  let k := t / 8
  debugEn d c k && (List.range 4).any fun b =>
    let w := regR d (dbgKey c k (8 + 4 * b))
    Word.bit w 31 && bitOf (Word.fld w 30 23) (t % 8) && decide (Word.fld w 16 2 * 4 = (thr d c t).pc)

/-- Whether a work item's budget has run out, so that its expiry comes first (R479, R481). -/
def overdue (d : Dev) (x : GThr) : Bool :=
  match x.item with
  | some i => i.start.isSome && !x.halted && decide (i.budget ≤ itemCycles d x)
  | none => false

/-- Whether a thread may issue: it runs, its core has not stopped, its cluster works, its budget has not run out, and it
is not halted but for a step. -/
def mayIssue (d : Dev) (c t : Nat) : Bool :=
  let x := thr d c t
  decide (x.st = .running) && !(coreStopped d c (t / 8)) && islandOn d (gIsland c) && (!x.halted || x.step) && !(overdue d x)

/-- BREAKPOINT_HIT (R492): a matching breakpoint halts the thread before its instruction issues. -/
def execBreakpointHit (c t : Nat) (s : State) : Host.Outcome State Fault Refusal :=
  lift (fun d =>
    if mayIssue d c t && bpMatch d c t && !(thr d c t).halted then
      let k := t / 8
      haltThread c t true (bitW (dbgKey c k 4) (8 + t % 8) true d)
    else d) s

/-- DBG_CTL_DEBUG_EN (R475, R492). -/
def execDbgCtlDebugEn (c k : Nat) (on : Bool) (s : State) : Host.Outcome State Fault Refusal :=
  lift (fun d => if k < 8 ∧ (!on ∨ !(coreReserved d.variant c k) ∨ d.dbgCores) then bitW (dbgKey c k 0) 31 on d else d) s

/-- DBG_HALT (R492): bits 7:0 of a write of DBG_CTL. -/
def execDbgHalt (c k mask : Nat) (s : State) : Host.Outcome State Fault Refusal :=
  lift (fun d =>
    if debugEn d c k then loopN 8 (fun i d => if bitOf mask i && decide ((thr d c (k * 8 + i)).st ≠ .idle) then haltThread c (k * 8 + i) true d else d) d
    else d) s

/-- DBG_RESUME (R492): bits 15:8 of a write of DBG_CTL. -/
def execDbgResume (c k mask : Nat) (s : State) : Host.Outcome State Fault Refusal :=
  lift (fun d =>
    if debugEn d c k then loopN 8 (fun i d => if bitOf mask i then haltThread c (k * 8 + i) false d else d) d else d) s

/-- DBG_STEP (R492): the halted thread `i` may issue one instruction. -/
def execDbgStep (c k i : Nat) (s : State) : Host.Outcome State Fault Refusal :=
  lift (fun d =>
    if debugEn d c k && (thr d c (k * 8 + i % 8)).halted then
      thrU c (k * 8 + i % 8) (fun x => { x with step := true }) (fldW (dbgKey c k 0) 26 24 (i % 8) d)
    else d) s

/-- STATUS of a thread (R499). -/
def statusWord (d : Dev) (c t : Nat) : Nat :=
  let x := thr d c t
  b2n x.broken + 2 * b2n x.abandoned + 4 * b2n x.shed + 8 * b2n x.lpoison + 64 * b2n x.item.isSome +
    128 * b2n (gcore d c (t / 8)).paired

/-- The register DBG_SEL names of a halted thread; 0 for one that is not halted (R492). -/
def dbgValue (d : Dev) (c k : Nat) : Nat :=
  let w := regR d (dbgKey c k 0x18)
  let t := k * 8 + Word.fld w 26 24
  let r := Word.fld w 5 0
  let x := thr d c t
  if !(debugEn d c k && x.halted) then 0
  else if r = 0 ∨ 33 < r then 0
  else if r < 32 then (Tbl.get (fun _ => (0 : BitVec 64)) x.regs r).toNat
  else if r = 32 then x.pc
  else statusWord d c t

/-- DBG_DATA_WRITE (R492): the low or high word of the selected register of a halted thread. -/
def execDbgDataWrite (c k : Nat) (hi : Bool) (v : Word) (s : State) : Host.Outcome State Fault Refusal :=
  lift (fun d =>
    let w := regR d (dbgKey c k 0x18)
    let t := k * 8 + Word.fld w 26 24
    let r := Word.fld w 5 0
    if !(debugEn d c k && (thr d c t).halted) ∨ r = 0 ∨ 33 < r then d
    else
      let old := dbgValue d c k
      let n := if hi then old % 2 ^ 32 + v.toNat * 2 ^ 32 else old / 2 ^ 32 * 2 ^ 32 + v.toNat
      thrU c t (fun x =>
        if r < 32 then { x with regs := Tbl.set (fun _ => 0) x.regs r (BitVec.ofNat 64 n) }
        else if r = 32 then { x with pc := n % 2 ^ 17 / 4 * 4 }
        else { x with broken := bitOf n 0, abandoned := bitOf n 1, shed := bitOf n 2, lpoison := bitOf n 3 }) d) s

/-! ### Commands (R491, R493, R496) -/

/-- The status of a Givik command (R496): its cluster, its own parameter checks, then what follows. -/
def givikStatus (d : Dev) (c : Cmd) (used : List (Nat × Nat)) (badParam : Bool) (late : List (Bool × Nat)) : Nat :=
  let cl := c.f 16 1
  firstStatus ([(decide (c.fn ≠ 0) || (cmdSelf c).isNone, stNotPermitted),
    (!(reservedOk c ([(16, 1)] ++ used)) || decide (5 < cl) || badParam, stBadParam),
    (decide (numClusters d.variant ≤ cl), stAbsent),
    (decide (unitStatus d (gIsland cl) ≠ 0), unitStatus d (gIsland cl))] ++ late)

/-- Restart a core (R491): its threads start at their entries, and its memory may be zeroed. -/
def restartCore (c k : Nat) (clear : Bool) (d : Dev) : Dev :=
  let d := { d with stopped := d.stopped.filter (· ≠ c * 8 + k) }
  let d := if clear then loseSpace (coreSpace c k) d else d
  let d := gcoreU c k (fun x => { x with start := gCycle d }) d
  loopN 8 (fun i d => startThread c (k * 8 + i) (thrU c (k * 8 + i) (fun x => { x with moved := false }) d)) d

/-- GIVIK_CORE_RESTART (R491). -/
def execGivikCoreRestart (c : Cmd) (s : State) : Host.Outcome State Fault Refusal :=
  lift (fun d =>
    let cl := c.f 16 1
    let k := c.f 17 1
    checked c (givikStatus d c [(17, 1), (18, 1)] (decide (7 < k) || decide (1 < c.f 18 1)) [(!(coreStopped d cl k), stBadState)])
      (fun d => completeSt c 0 (restartCore cl k (bitOf (c.f 18 1) 0) d)) d) s

/-- GIVIK_SIGNAL (R483). -/
def execGivikSignal (c : Cmd) (s : State) : Host.Outcome State Fault Refusal :=
  lift (fun d =>
    let cl := c.f 16 1
    let e := c.f 17 1
    checked c (givikStatus d c [(17, 1), (18, 2)] (decide (c.f 18 2 = 0))
        [(!(effB d (gvKey cl (0x20 + 4 * (e / 32))) (e % 32)), stBadState)])
      (fun d => completeSt c 0 (loopN (c.f 18 2) (fun _ d => signalEvent cl e d) d)) d) s

/-- Bring GVK_STAT.RELEASED in line. -/
def showReleased (c : Nat) (d : Dev) : Dev := bitW (gvKey c 0x40) 31 (d.released.contains c) d

/-- Release a cluster (R493): its gates' alternate threads, or none, take new frames. -/
def releaseCluster (c : Nat) (d : Dev) : Dev :=
  if d.released.contains c then d else showReleased c { d with released := d.released ++ [c] }

/-- Return a cluster (R493). -/
def returnCluster (c : Nat) (d : Dev) : Dev := showReleased c { d with released := d.released.filter (· ≠ c) }

/-- GIVIK_CLUSTER_RELEASE (R493). Commands naming one cluster execute in order: one behind a release that waits joins it. -/
def execGivikClusterRelease (c : Cmd) (s : State) : Host.Outcome State Fault Refusal :=
  lift (fun d =>
    let cl := c.f 16 1
    let op := c.f 17 1
    checked c (givikStatus d c [(17, 1)] (decide (1 < op)) [])
      (fun d =>
        if (clu d cl).relJobs ≠ [] then
          noteHeld c (cluU cl (fun x => { x with relJobs := x.relJobs ++ [hold d c] }) d)
        else if op = 0 then
          if d.released.contains cl then completeSt c 0 d
          else noteHeld c (cluU cl (fun x => { x with relJobs := [hold d c] }) (releaseCluster cl d))
        else if d.released.contains cl then
          postDev 0xAA (leBytes 1 cl ++ leBytes 1 1) (completeSt c 0 (returnCluster cl d))
        else completeSt c 0 d) d) s

/-- Execute commands that waited behind a release, in order, until one waits again. -/
def runReleases (cl : Nat) : Nat → List Held → Dev → Dev
  | 0, _, d => d
  | _, [], d => d
  | n + 1, h :: rest, d =>
    let d := cluU cl (fun x => { x with relJobs := rest }) d
    if h.cmd.f 17 1 = 0 then
      if d.released.contains cl then runReleases cl n rest (completeHeld h 0 0 d)
      else cluU cl (fun x => { x with relJobs := h :: rest }) (releaseCluster cl d)
    else if d.released.contains cl then
      runReleases cl n rest (postDev 0xAA (leBytes 1 cl ++ leBytes 1 1) (completeHeld h 0 0 (returnCluster cl d)))
    else runReleases cl n rest (completeHeld h 0 0 d)

/-- A released cluster may hold no work item any more: the release that waits for it completes (R493). -/
def clusterEmpty (c : Nat) (d : Dev) : Dev :=
  match (clu d c).relJobs with
  | [] => d
  | h :: rest =>
    if holdsItem d c then d
    else runReleases c (rest.length + 1) rest (postDev 0xAA (leBytes 1 c ++ leBytes 1 0) (completeHeld h 0 0 d))

/-- GIVIK_STATS (R495, R496). -/
def execGivikStats (c : Cmd) (s : State) : Host.Outcome State Fault Refusal :=
  lift (fun d =>
    let g := c.f 17 1
    checked c (givikStatus d c [(17, 1), (18, 1), (24, 8)] (decide (63 < g) || decide (1 < c.f 18 1) || decide (c.f 24 8 % 64 ≠ 0)) [])
      (fun d =>
        let b := ctrBytes d (gateCtr g 0) 10
        reply c (c.f 24 8) b (if c.f 18 1 = 1 then ctrClear (gateCtr g 0) 10 d else d)) d) s

/-- GIVIK_FAULT_READ (R490, R496). -/
def execGivikFaultRead (c : Cmd) (s : State) : Host.Outcome State Fault Refusal :=
  lift (fun d =>
    checked c (givikStatus d c [(17, 1), (24, 8)] (decide (7 < c.f 17 1)) [])
      (fun d => reply c (c.f 24 8) (padTo 64 (gcore d (c.f 16 1) (c.f 17 1)).fault) d) d) s

/-! ### Commits, images and generations (R403, R474, R494, R543) -/

/-- Every thread of a cluster whose gate or entry differs from where it stands now restarts, after its work item (R494).
`old` is the start each had before. -/
def repoint (c : Nat) (old : List (Option Nat × Option Nat)) (d : Dev) : Dev :=
  loopN 64 (fun t d =>
    if old.getD t (none, none) = (threadEntry d c t, gateOf d c t) ∨ coreStopped d c (t / 8) then d
    else if (thr d c t).item.isSome then thrU c t (fun x => { x with moved := true }) d
    else startThread c t (leaveWaits c t d)) d

/-- The starts of a cluster's threads. -/
def starts (d : Dev) (c : Nat) : List (Option Nat × Option Nat) := (List.range 64).map fun t => (threadEntry d c t, gateOf d c t)

/-- A cluster loads a gate image with these thread entries, or holds none; its cores start (R476, R543). -/
def loadCluster (c : Nat) (entries : Option (List Nat)) (d : Dev) : Dev :=
  let d := cluU c (fun x => { ({} : GClu) with image := entries.isSome, entries := entries.getD [], cores := x.cores, relJobs := x.relJobs }) d
  let d := if entries.isSome then d else { d with comps := d.comps.filter fun x => decide (x.id ≠ 0x10 + c) }
  loopN 8 (fun k d => restartCore c k false d) d

/-- The generation of function `f` advances: its gate work items are decided, their frames end as dropped (R403, R480). -/
def dropItemsOf (f : Nat) (d : Dev) : Dev :=
  loopN 6 (fun c d => loopN 64 (fun t d =>
    match (thr d c t).item with
    | some i => if i.frame.owner = f then gateDrop i.frame (dropItem c t d) else d
    | none => d) d) d

end Sys2Proof.Machine
end

