-- ==== Sys2Proof/Machine/GivikIsa.lean ====
section
/-! DEFINITION. The Givik instruction set (16): encodings, and what each instruction does when a thread issues it. -/

namespace Sys2Proof.Machine

/-! ### Formats (R500) -/

/-- The word of each format, from its fields. -/
def encA (fn : Nat) (D A B C : BitVec 5) : Nat :=
  2 ^ 26 + D.toNat * 2 ^ 21 + A.toNat * 2 ^ 16 + B.toNat * 2 ^ 11 + C.toNat * 2 ^ 6 + fn
def encI (op : Nat) (D A : BitVec 5) (imm : BitVec 16) : Nat := op * 2 ^ 26 + D.toNat * 2 ^ 21 + A.toNat * 2 ^ 16 + imm.toNat
def encJ (op : Nat) (off : BitVec 26) : Nat := op * 2 ^ 26 + off.toNat
def encK (op : Nat) (D A : BitVec 5) (fn : Nat) (k : BitVec 12) : Nat :=
  op * 2 ^ 26 + D.toNat * 2 ^ 21 + A.toNat * 2 ^ 16 + fn * 2 ^ 12 + k.toNat

/-- Whether a word is an encoding of the instruction tables (R500, R502–R512): its OP and FN listed, the fields its row
requires 0 all 0, and its register fields in range. -/
def legalWord (w : Nat) : Bool :=
  let op := bitsOf w 31 26
  let dd := bitsOf w 25 21
  let a := bitsOf w 20 16
  let fn := bitsOf w 15 12
  let k := bitsOf w 11 0
  if op = 1 then
    let f := bitsOf w 5 0
    let c := bitsOf w 10 6
    (decide (f ≤ 0x12) || decide (0x18 ≤ f ∧ f ≤ 0x1A)) && (decide (c = 0) || decide (f = 0x12)) &&
      (decide (bitsOf w 15 11 = 0) || !(decide (f = 0x10) || decide (f = 0x11)))
  else if 2 ≤ op ∧ op ≤ 7 then true
  else if op = 8 then decide (a = 0)
  else if 9 ≤ op ∧ op ≤ 0xB then decide (bitsOf w 15 6 = 0)
  else if 0xC ≤ op ∧ op ≤ 0x16 then true
  else if 0x18 ≤ op ∧ op ≤ 0x1B then true
  else if 0x20 ≤ op ∧ op ≤ 0x28 then true
  else if op = 0x30 then decide (fn = 0 ∧ k < 8 ∧ 1 ≤ dd ∧ dd ≤ 30)
  else if op = 0x31 then
    if fn = 1 ∨ fn = 6 then true
    else if fn = 5 then decide (1 ≤ dd ∧ dd ≤ 29)
    else decide (fn ≤ 4 ∧ dd = 0)
  else if op = 0x32 then
    if fn = 0 then decide (k < 256)
    else if fn = 1 then decide (k < 256 ∧ dd = 0)
    else decide (fn ≤ 3)
  else if op = 0x33 then decide (fn = 0 ∧ a = 0 ∧ k < 8 ∧ 1 ≤ dd ∧ dd ≤ 29)
  else if op = 0x34 then
    if fn = 0 then true
    else if fn = 1 then decide (dd = 0 ∧ k < 8 ∧ k % 4 ≠ 3)
    else decide (fn = 2 ∧ dd = 0)
  else if op = 0x35 then decide (fn = 0 ∧ a = 0 ∧ k ≤ 4)
  else if op = 0x3E then decide (dd = 0 ∧ a = 0)
  else decide (op = 0x3F)

/-! ### Issue and retirement (R473, R499, R513) -/

/-- A thread's register; g0 reads 0 (R499). -/
def greg (d : Dev) (c t : Nat) (r : BitVec 5) : BitVec 64 :=
  if r = 0 then 0 else Tbl.get (fun _ => 0) (thr d c t).regs r.toNat

/-- Write a register; a write of g0 is discarded (R499). -/
def gset (r : BitVec 5) (v : BitVec 64) (x : GThr) : GThr :=
  if r = 0 then x else { x with regs := Tbl.set (fun _ => 0) x.regs r.toNat v }

/-- A thread issues the instruction of word `w`: it may issue, no breakpoint of its core stops it, and it is what stands
at its PC. -/
def issue (c t w : Nat) (f : Dev → Dev) (s : State) : Host.Outcome State Fault Refusal :=
  lift (fun d =>
    if mayIssue d c t && (!(bpMatch d c t) || (thr d c t).step) && decide (fetchWord d c t = w) && legalWord w then
      f (thrU c t (fun x => { x with step := false }) d)
    else d) s

/-- A thread issues an instruction that goes on to the next one: past 0x1_FFFC it faults ACCESS instead (R499). -/
def issueSeq (c t w : Nat) (f : Dev → Dev) (s : State) : Host.Outcome State Fault Refusal :=
  issue c t w (fun d => if 0x1FFFC ≤ (thr d c t).pc then threadFault c t 2 0 0x20000 d else f d) s

/-- Retire: change the thread and move its PC on. -/
def retire (c t : Nat) (g : GThr → GThr) (d : Dev) : Dev := thrU c t (fun x => { g x with pc := x.pc + 4 }) d

/-- Go to a target, which must lie in instruction memory (R506); `g` is what else the instruction does. -/
def jumpTo (c t : Nat) (target : Int) (g : GThr → GThr) (d : Dev) : Dev :=
  if 0 ≤ target ∧ target ≤ 0x1FFFC then thrU c t (fun x => { g x with pc := target.toNat }) d
  else threadFault c t 2 0 (ofSigned 64 target) d

/-- An instruction whose whole effect is a register's new value, from the operands. -/
def alu (c t w : Nat) (D : BitVec 5) (v : (BitVec 5 → BitVec 64) → BitVec 64) (s : State) : Host.Outcome State Fault Refusal :=
  issueSeq c t w (fun d => retire c t (gset D (v (greg d c t))) d) s

/-- A set instruction's result. -/
def flag64 (b : Bool) : BitVec 64 := BitVec.ofNat 64 (b2n b)

/-! ### Integer, multiply, compare and select (R502) -/

/-- ADD (R502). -/
def execAdd (c t : Nat) (D A B : BitVec 5) (s : State) : Host.Outcome State Fault Refusal :=
  alu c t (encA 0 D A B 0) D (fun g => g A + g B) s

/-- SUB (R502). -/
def execSub (c t : Nat) (D A B : BitVec 5) (s : State) : Host.Outcome State Fault Refusal :=
  alu c t (encA 1 D A B 0) D (fun g => g A - g B) s

/-- AND (R502). -/
def execAnd (c t : Nat) (D A B : BitVec 5) (s : State) : Host.Outcome State Fault Refusal :=
  alu c t (encA 2 D A B 0) D (fun g => g A &&& g B) s

/-- OR (R502). -/
def execOr (c t : Nat) (D A B : BitVec 5) (s : State) : Host.Outcome State Fault Refusal :=
  alu c t (encA 3 D A B 0) D (fun g => g A ||| g B) s

/-- XOR (R502). -/
def execXor (c t : Nat) (D A B : BitVec 5) (s : State) : Host.Outcome State Fault Refusal :=
  alu c t (encA 4 D A B 0) D (fun g => g A ^^^ g B) s

/-- SLL (R502). -/
def execSll (c t : Nat) (D A B : BitVec 5) (s : State) : Host.Outcome State Fault Refusal :=
  alu c t (encA 5 D A B 0) D (fun g => g A <<< (g B % 64).toNat) s

/-- SRL (R502). -/
def execSrl (c t : Nat) (D A B : BitVec 5) (s : State) : Host.Outcome State Fault Refusal :=
  alu c t (encA 6 D A B 0) D (fun g => g A >>> (g B % 64).toNat) s

/-- SRA (R502). -/
def execSra (c t : Nat) (D A B : BitVec 5) (s : State) : Host.Outcome State Fault Refusal :=
  alu c t (encA 7 D A B 0) D (fun g => (g A).sshiftRight (g B % 64).toNat) s

/-- SLT (R502). -/
def execSlt (c t : Nat) (D A B : BitVec 5) (s : State) : Host.Outcome State Fault Refusal :=
  alu c t (encA 8 D A B 0) D (fun g => flag64 ((g A).slt (g B))) s

/-- SLTU (R502). -/
def execSltu (c t : Nat) (D A B : BitVec 5) (s : State) : Host.Outcome State Fault Refusal :=
  alu c t (encA 9 D A B 0) D (fun g => flag64 ((g A).ult (g B))) s

/-- SEQ (R502). -/
def execSeq (c t : Nat) (D A B : BitVec 5) (s : State) : Host.Outcome State Fault Refusal :=
  alu c t (encA 10 D A B 0) D (fun g => flag64 (g A == g B)) s

/-- SNE (R502). -/
def execSne (c t : Nat) (D A B : BitVec 5) (s : State) : Host.Outcome State Fault Refusal :=
  alu c t (encA 11 D A B 0) D (fun g => flag64 (g A != g B)) s

/-- MIN (R502). -/
def execMin (c t : Nat) (D A B : BitVec 5) (s : State) : Host.Outcome State Fault Refusal :=
  alu c t (encA 12 D A B 0) D (fun g => if (g B).slt (g A) then g B else g A) s

/-- MAX (R502). -/
def execMax (c t : Nat) (D A B : BitVec 5) (s : State) : Host.Outcome State Fault Refusal :=
  alu c t (encA 13 D A B 0) D (fun g => if (g A).slt (g B) then g B else g A) s

/-- MINU (R502). -/
def execMinu (c t : Nat) (D A B : BitVec 5) (s : State) : Host.Outcome State Fault Refusal :=
  alu c t (encA 14 D A B 0) D (fun g => if (g B).ult (g A) then g B else g A) s

/-- MAXU (R502). -/
def execMaxu (c t : Nat) (D A B : BitVec 5) (s : State) : Host.Outcome State Fault Refusal :=
  alu c t (encA 15 D A B 0) D (fun g => if (g A).ult (g B) then g B else g A) s

/-- Leading zero bits of a register value. -/
def clz64 (v : BitVec 64) : Nat := if v = 0 then 64 else 63 - Nat.log2 v.toNat

/-- Set bits of a register value. -/
def popc64 (v : BitVec 64) : Nat := (List.range 64).foldl (fun (n : Nat) i => n + b2n (v.getLsbD i)) 0

/-- CLZ (R502). -/
def execClz (c t : Nat) (D A : BitVec 5) (s : State) : Host.Outcome State Fault Refusal :=
  alu c t (encA 16 D A 0 0) D (fun g => BitVec.ofNat 64 (clz64 (g A))) s

/-- POPC (R502). -/
def execPopc (c t : Nat) (D A : BitVec 5) (s : State) : Host.Outcome State Fault Refusal :=
  alu c t (encA 17 D A 0 0) D (fun g => BitVec.ofNat 64 (popc64 (g A))) s

/-- SEL (R502). -/
def execSel (c t : Nat) (D A B C : BitVec 5) (s : State) : Host.Outcome State Fault Refusal :=
  alu c t (encA 0x12 D A B C) D (fun g => if g C ≠ 0 then g A else g B) s

/-- MUL (R502). -/
def execMul (c t : Nat) (D A B : BitVec 5) (s : State) : Host.Outcome State Fault Refusal :=
  alu c t (encA 24 D A B 0) D (fun g => g A * g B) s

/-- MULHS (R502). -/
def execMulhs (c t : Nat) (D A B : BitVec 5) (s : State) : Host.Outcome State Fault Refusal :=
  alu c t (encA 25 D A B 0) D (fun g => BitVec.ofInt 64 ((g A).toInt * (g B).toInt / 2 ^ 64)) s

/-- MULHU (R502). -/
def execMulhu (c t : Nat) (D A B : BitVec 5) (s : State) : Host.Outcome State Fault Refusal :=
  alu c t (encA 26 D A B 0) D (fun g => BitVec.ofNat 64 ((g A).toNat * (g B).toNat / 2 ^ 64)) s

/-! ### Immediates (R503) -/

/-- An immediate extended to 64 bits with its sign (R501). -/
def sext (imm : BitVec 16) : BitVec 64 := imm.signExtend 64

/-- An immediate extended to 64 bits with zeros (R501). -/
def zext (imm : BitVec 16) : BitVec 64 := imm.setWidth 64

/-- ADDI (R503). -/
def execAddi (c t : Nat) (D A : BitVec 5) (imm : BitVec 16) (s : State) : Host.Outcome State Fault Refusal :=
  alu c t (encI 2 D A imm) D (fun g => g A + sext imm) s

/-- ANDI (R503). -/
def execAndi (c t : Nat) (D A : BitVec 5) (imm : BitVec 16) (s : State) : Host.Outcome State Fault Refusal :=
  alu c t (encI 3 D A imm) D (fun g => g A &&& zext imm) s

/-- ORI (R503). -/
def execOri (c t : Nat) (D A : BitVec 5) (imm : BitVec 16) (s : State) : Host.Outcome State Fault Refusal :=
  alu c t (encI 4 D A imm) D (fun g => g A ||| zext imm) s

/-- XORI (R503). -/
def execXori (c t : Nat) (D A : BitVec 5) (imm : BitVec 16) (s : State) : Host.Outcome State Fault Refusal :=
  alu c t (encI 5 D A imm) D (fun g => g A ^^^ zext imm) s

/-- SLTI (R503). -/
def execSlti (c t : Nat) (D A : BitVec 5) (imm : BitVec 16) (s : State) : Host.Outcome State Fault Refusal :=
  alu c t (encI 6 D A imm) D (fun g => flag64 ((g A).slt (sext imm))) s

/-- SLTUI (R503). -/
def execSltui (c t : Nat) (D A : BitVec 5) (imm : BitVec 16) (s : State) : Host.Outcome State Fault Refusal :=
  alu c t (encI 7 D A imm) D (fun g => flag64 ((g A).ult (sext imm))) s

/-- LUI (R503). -/
def execLui (c t : Nat) (D : BitVec 5) (imm : BitVec 16) (s : State) : Host.Outcome State Fault Refusal :=
  alu c t (encI 8 D 0 imm) D (fun _ => ((imm ++ (0 : BitVec 16)) : BitVec 32).signExtend 64) s

/-- SLLI (R503). -/
def execSlli (c t : Nat) (D A : BitVec 5) (sh : BitVec 6) (s : State) : Host.Outcome State Fault Refusal :=
  alu c t (encI 9 D A (sh.setWidth 16)) D (fun g => g A <<< sh.toNat) s

/-- SRLI (R503). -/
def execSrli (c t : Nat) (D A : BitVec 5) (sh : BitVec 6) (s : State) : Host.Outcome State Fault Refusal :=
  alu c t (encI 10 D A (sh.setWidth 16)) D (fun g => g A >>> sh.toNat) s

/-- SRAI (R503). -/
def execSrai (c t : Nat) (D A : BitVec 5) (sh : BitVec 6) (s : State) : Host.Outcome State Fault Refusal :=
  alu c t (encI 11 D A (sh.setWidth 16)) D (fun g => (g A).sshiftRight sh.toNat) s

/-! ### Loads and stores (R471, R504, R505) -/

/-- Effective address (R501). -/
def effAddr (d : Dev) (c t : Nat) (A : BitVec 5) (imm : BitVec 16) : Nat := (greg d c t A + sext imm).toNat % 2 ^ 32

/-- Where an access of `n` bytes at a thread address lands: space, address and whether it is the packet window or DRAM
(R471); none outside every memory. -/
inductive GPlace where
  | data (a : Nat)
  | cluster (a : Nat)
  | window (a : Nat)
  | dram (a : Nat)
  deriving DecidableEq, Repr

def placeOf (a n : Nat) : Option GPlace :=
  if a + n ≤ 0x40000 then some (.data a)
  else if 0x1000000 ≤ a ∧ a + n ≤ 0x1400000 then some (.cluster (a - 0x1000000))
  else if 0x2000000 ≤ a ∧ a + n ≤ 0x2000100 then some (.window (a - 0x2000000))
  else if 0x40000000 ≤ a ∧ a + n ≤ 0x80000000 then some (.dram (a - 0x40000000))
  else none

/-- Space and address of a place, for thread `t` of cluster `c`. -/
def placeAt (d : Dev) (c t : Nat) : GPlace → Nat × Nat
  | .data a => (spc d (coreSpace c (t / 8)), a)
  | .cluster a => (spc d (clusterSpace c), a)
  | .window a => (spc d (windowSpace c t), a)
  | .dram a => (spc d dramSpace, windowBase d c + a)

/-- A load of `n` bytes (R504): ACCESS, ALIGN or POISON, or the number read, given to `v`. -/
def load (c t w n : Nat) (D A : BitVec 5) (imm : BitVec 16) (v : Nat → BitVec 64) (s : State) : Host.Outcome State Fault Refusal :=
  issueSeq c t w (fun d =>
    let ea := effAddr d c t A imm
    match placeOf ea n with
    | none => threadFault c t 2 0 ea d
    | some p =>
      if ea % n ≠ 0 then threadFault c t 3 0 ea d
      else
        let (sp, a) := placeAt d c t p
        let bad := match p with | .dram _ => linePoisoned d a | _ => false
        if bad then threadFault c t 4 0 ea d
        else retire c t (gset D (v (le (rd d sp a n) 0 n))) d) s

/-- A store of the low `n` bytes of a register (R504). Lines of a REMOVED rank discard it (R463). -/
def store (c t w n : Nat) (S A : BitVec 5) (imm : BitVec 16) (s : State) : Host.Outcome State Fault Refusal :=
  issueSeq c t w (fun d =>
    let ea := effAddr d c t A imm
    match placeOf ea n with
    | none => threadFault c t 2 0 ea d
    | some (.window _) => threadFault c t 2 0 ea d
    | some p =>
      if ea % n ≠ 0 then threadFault c t 3 0 ea d
      else
        let (sp, a) := placeAt d c t p
        let gone := match p with
          | .dram _ => match dramLoc d a with | some (r, _) => decide (rankSt d r = 6) | none => true
          | _ => false
        let bs := leBytes n (greg d c t S).toNat
        retire c t id (if gone then d else wrt sp a bs d)) s

/-- LB (R504). -/
def execLb (c t : Nat) (D A : BitVec 5) (imm : BitVec 16) (s : State) : Host.Outcome State Fault Refusal :=
  load c t (encI 0x10 D A imm) 1 D A imm (fun v => (BitVec.ofNat 8 v).signExtend 64) s

/-- LBU (R504). -/
def execLbu (c t : Nat) (D A : BitVec 5) (imm : BitVec 16) (s : State) : Host.Outcome State Fault Refusal :=
  load c t (encI 0x11 D A imm) 1 D A imm (fun v => BitVec.ofNat 64 v) s

/-- LH (R504). -/
def execLh (c t : Nat) (D A : BitVec 5) (imm : BitVec 16) (s : State) : Host.Outcome State Fault Refusal :=
  load c t (encI 0x12 D A imm) 2 D A imm (fun v => (BitVec.ofNat 16 v).signExtend 64) s

/-- LHU (R504). -/
def execLhu (c t : Nat) (D A : BitVec 5) (imm : BitVec 16) (s : State) : Host.Outcome State Fault Refusal :=
  load c t (encI 0x13 D A imm) 2 D A imm (fun v => BitVec.ofNat 64 v) s

/-- LW (R504). -/
def execLw (c t : Nat) (D A : BitVec 5) (imm : BitVec 16) (s : State) : Host.Outcome State Fault Refusal :=
  load c t (encI 0x14 D A imm) 4 D A imm (fun v => (BitVec.ofNat 32 v).signExtend 64) s

/-- LWU (R504). -/
def execLwu (c t : Nat) (D A : BitVec 5) (imm : BitVec 16) (s : State) : Host.Outcome State Fault Refusal :=
  load c t (encI 0x15 D A imm) 4 D A imm (fun v => BitVec.ofNat 64 v) s

/-- LD (R504). -/
def execLd (c t : Nat) (D A : BitVec 5) (imm : BitVec 16) (s : State) : Host.Outcome State Fault Refusal :=
  load c t (encI 0x16 D A imm) 8 D A imm (fun v => BitVec.ofNat 64 v) s

/-- SB (R504). -/
def execSb (c t : Nat) (S A : BitVec 5) (imm : BitVec 16) (s : State) : Host.Outcome State Fault Refusal :=
  store c t (encI 0x18 S A imm) 1 S A imm s

/-- SH (R504). -/
def execSh (c t : Nat) (S A : BitVec 5) (imm : BitVec 16) (s : State) : Host.Outcome State Fault Refusal :=
  store c t (encI 0x19 S A imm) 2 S A imm s

/-- SW (R504). -/
def execSw (c t : Nat) (S A : BitVec 5) (imm : BitVec 16) (s : State) : Host.Outcome State Fault Refusal :=
  store c t (encI 0x1A S A imm) 4 S A imm s

/-- SD (R504). -/
def execSd (c t : Nat) (S A : BitVec 5) (imm : BitVec 16) (s : State) : Host.Outcome State Fault Refusal :=
  store c t (encI 0x1B S A imm) 8 S A imm s

/-- A packet-window load of `n` bytes in network order (R505). -/
def packetLoad (c t w n : Nat) (D A : BitVec 5) (imm : BitVec 16) (s : State) : Host.Outcome State Fault Refusal :=
  issueSeq c t w (fun d =>
    let o := effAddr d c t A imm
    if 256 < o + n then threadFault c t 2 0 (0x2000000 + o) d
    else retire c t (gset D (BitVec.ofNat 64 (beNat (rd d (spc d (windowSpace c t)) o n)))) d) s

/-- PLB (R505). -/
def execPlb (c t : Nat) (D A : BitVec 5) (imm : BitVec 16) (s : State) : Host.Outcome State Fault Refusal :=
  packetLoad c t (encI 0xC D A imm) 1 D A imm s

/-- PLH (R505). -/
def execPlh (c t : Nat) (D A : BitVec 5) (imm : BitVec 16) (s : State) : Host.Outcome State Fault Refusal :=
  packetLoad c t (encI 0xD D A imm) 2 D A imm s

/-- PLW (R505). -/
def execPlw (c t : Nat) (D A : BitVec 5) (imm : BitVec 16) (s : State) : Host.Outcome State Fault Refusal :=
  packetLoad c t (encI 0xE D A imm) 4 D A imm s

/-- PLD (R505). -/
def execPld (c t : Nat) (D A : BitVec 5) (imm : BitVec 16) (s : State) : Host.Outcome State Fault Refusal :=
  packetLoad c t (encI 0xF D A imm) 8 D A imm s

/-! ### Branches and jumps (R506) -/

/-- A conditional branch (R506): taken to PC + 4 × sext(OFF), else on to the next instruction. -/
def branch (c t w : Nat) (A B : BitVec 5) (off : BitVec 16) (p : BitVec 64 → BitVec 64 → Bool) (s : State) :
    Host.Outcome State Fault Refusal :=
  issue c t w (fun d =>
    let pc := (thr d c t).pc
    jumpTo c t (if p (greg d c t A) (greg d c t B) then pc + 4 * off.toInt else pc + 4) id d) s

/-- BEQ (R506). -/
def execBeq (c t : Nat) (A B : BitVec 5) (off : BitVec 16) (s : State) : Host.Outcome State Fault Refusal :=
  branch c t (encI 0x20 A B off) A B off (fun x y => x == y) s

/-- BNE (R506). -/
def execBne (c t : Nat) (A B : BitVec 5) (off : BitVec 16) (s : State) : Host.Outcome State Fault Refusal :=
  branch c t (encI 0x21 A B off) A B off (fun x y => x != y) s

/-- BLT (R506). -/
def execBlt (c t : Nat) (A B : BitVec 5) (off : BitVec 16) (s : State) : Host.Outcome State Fault Refusal :=
  branch c t (encI 0x22 A B off) A B off (fun x y => x.slt y) s

/-- BGE (R506). -/
def execBge (c t : Nat) (A B : BitVec 5) (off : BitVec 16) (s : State) : Host.Outcome State Fault Refusal :=
  branch c t (encI 0x23 A B off) A B off (fun x y => !(x.slt y)) s

/-- BLTU (R506). -/
def execBltu (c t : Nat) (A B : BitVec 5) (off : BitVec 16) (s : State) : Host.Outcome State Fault Refusal :=
  branch c t (encI 0x24 A B off) A B off (fun x y => x.ult y) s

/-- BGEU (R506). -/
def execBgeu (c t : Nat) (A B : BitVec 5) (off : BitVec 16) (s : State) : Host.Outcome State Fault Refusal :=
  branch c t (encI 0x25 A B off) A B off (fun x y => !(x.ult y)) s

/-- J (R506). -/
def execJ (c t : Nat) (off : BitVec 26) (s : State) : Host.Outcome State Fault Refusal :=
  issue c t (encJ 0x26 off) (fun d => jumpTo c t ((thr d c t).pc + 4 * off.toInt) id d) s

/-- JAL (R506). -/
def execJal (c t : Nat) (off : BitVec 26) (s : State) : Host.Outcome State Fault Refusal :=
  issue c t (encJ 0x27 off) (fun d =>
    let pc := (thr d c t).pc
    jumpTo c t (pc + 4 * off.toInt) (gset 31 (BitVec.ofNat 64 (pc + 4))) d) s

/-- JALR (R506). -/
def execJalr (c t : Nat) (D A : BitVec 5) (imm : BitVec 16) (s : State) : Host.Outcome State Fault Refusal :=
  issue c t (encI 0x28 D A imm) (fun d =>
    let pc := (thr d c t).pc
    jumpTo c t ((greg d c t A + sext imm) &&& ~~~3#64).toInt (gset D (BitVec.ofNat 64 (pc + 4))) d) s

/-! ### Lookup (R507) -/

/-- LKUP (R507): `poisoned` tells that a DRAM-tier lookup reads a poisoned line, on channel `chan`. -/
def execLkup (c t : Nat) (D A : BitVec 5) (tbl : BitVec 3) (poisoned : Bool) (chan : Nat) (s : State) : Host.Outcome State Fault Refusal :=
  issueSeq c t (encK 0x30 D A 0 (tbl.setWidth 12)) (fun d =>
    let a := (greg d c t A).toNat
    let place := match placeOf a 48 with
      | some (.data x) => some (GPlace.data x)
      | some (.cluster x) => some (GPlace.cluster x)
      | _ => none
    match place with
    | none => threadFault c t 2 0 a d
    | some p =>
      if a % 64 ≠ 0 then threadFault c t 3 0 a d
      else
        let (sp, x) := placeAt d c t p
        let key := rd d sp x 48
        let n := tbl.toNat
        let fin := fun (e : Option Bytes) (shed lp : Bool) (d : Dev) =>
          let lo := match e with | some e => BitVec.ofNat 64 (le e 48 8) | none => 0
          let hi := match e with | some e => BitVec.ofNat 64 (le e 56 8) | none => 0
          retire c t (fun x => { gset (D + 1) hi (gset D lo x) with shed := shed, lpoison := lp }) d
        if !(tblEn d n) ∨ !(tablesOn d) then fin none false false d
        else if !(tblDram d n) then fin (lookup d n key) false false d
        else
          match dramTake d with
          | (false, d) => fin none true false d
          | (true, d) => if poisoned then fin none false true (lookupPoison n chan d) else fin (lookup d n key) false false d) s

/-! ### The keystone (R508) -/

/-- The number n of a keystone or channel instruction, which must lie below `lim` (R508, R509). -/
def unitOp (c t w lim : Nat) (A : BitVec 5) (k : Nat) (f : Nat → Dev → Dev) (s : State) : Host.Outcome State Fault Refusal :=
  issueSeq c t w (fun d =>
    let n := ((greg d c t A).toNat + k) % 2 ^ 32
    if lim ≤ n then threadFault c t 2 0 n d else f n d) s

/-- Take a free lock: the thread learns whether it was broken. -/
def takeLock (c t n : Nat) (d : Dev) : Bool × Dev :=
  ((glock d c n).broken, glockU c n (fun l => { l with owner := some t, broken := false }) d)

/-- ACQ (R482, R485). -/
def execAcq (c t : Nat) (A : BitVec 5) (k : BitVec 12) (s : State) : Host.Outcome State Fault Refusal :=
  unitOp c t (encK 0x31 0 A 0 k) 1024 A k.toNat (fun n d =>
    match (glock d c n).owner with
    | none =>
      let (b, d) := takeLock c t n d
      retire c t (fun x => { x with broken := b }) d
    | some o =>
      if o = t then threadFault c t 6 n 0 d
      else
        let d := thrU c t (fun x => { x with st := .waiting (.lock n) }) (glockU c n (fun l => { l with waiters := l.waiters ++ [t] }) d)
        match waitChain d c t 64 o with
        | some ts => deadlock c 10 n (t :: ts) d
        | none => d) s

/-- TACQ (R482). -/
def execTacq (c t : Nat) (D A : BitVec 5) (k : BitVec 12) (s : State) : Host.Outcome State Fault Refusal :=
  unitOp c t (encK 0x31 D A 1 k) 1024 A k.toNat (fun n d =>
    match (glock d c n).owner with
    | none =>
      let (b, d) := takeLock c t n d
      retire c t (fun x => { gset D 1 x with broken := b }) d
    | some o =>
      if o = t then threadFault c t 6 n 0 d
      else retire c t (fun x => { gset D 0 x with broken := false }) d) s

/-- REL (R482). -/
def execRel (c t : Nat) (A : BitVec 5) (k : BitVec 12) (s : State) : Host.Outcome State Fault Refusal :=
  unitOp c t (encK 0x31 0 A 2 k) 1024 A k.toNat (fun n d =>
    if (glock d c n).owner = some t then retire c t id (passLock c n false d) else threadFault c t 5 n 0 d) s

/-- WAIT (R483). -/
def execWait (c t : Nat) (A : BitVec 5) (k : BitVec 12) (s : State) : Host.Outcome State Fault Refusal :=
  unitOp c t (encK 0x31 0 A 3 k) 256 A k.toNat (fun n d =>
    if 0 < (gevent d c n).count then retire c t id (geventU c n (fun e => { e with count := e.count - 1 }) d)
    else thrU c t (fun x => { x with st := .waiting (.event n) }) (geventU c n (fun e => { e with waiters := e.waiters ++ [t] }) d)) s

/-- SIG (R483). -/
def execSig (c t : Nat) (A : BitVec 5) (k : BitVec 12) (s : State) : Host.Outcome State Fault Refusal :=
  unitOp c t (encK 0x31 0 A 4 k) 256 A k.toNat (fun n d => retire c t id (signalEvent c n d)) s

/-- Arm a timer, or signal at once when its deadline has come (R484, R508). -/
def armTimer (c n : Nat) (x : GTimer) (due : Bool) (d : Dev) : Dev :=
  if due then signalEvent c x.event (gtimerW c n none d) else gtimerW c n (some x) d

/-- TMRS (R484, R508). -/
def execTmrs (c t : Nat) (D A : BitVec 5) (k : BitVec 12) (s : State) : Host.Outcome State Fault Refusal :=
  unitOp c t (encK 0x31 D A 5 k) 32 A k.toNat (fun n d =>
    let v2 := (greg d c t (D + 2)).toNat
    let sec := (greg d c t D).toNat % 2 ^ 48
    let ns := (greg d c t (D + 1)).toNat % 2 ^ 32
    let st := bitsOf v2 26 24
    if !(strPresent d st) ∨ 1000000000 ≤ ns then threadFault c t 2 0 0 d
    else
      let dl := (sec * 1000000000 + ns) * 2 ^ 48 + v2 % 2 ^ 16 * 2 ^ 32
      retire c t id (armTimer c n ⟨bitsOf v2 23 16, .time st dl⟩ (decide (dl ≤ (rep d (gIsland c) st).t)) d)) s

/-- TMRC (R484, R508). -/
def execTmrc (c t : Nat) (D A : BitVec 5) (k : BitVec 12) (s : State) : Host.Outcome State Fault Refusal :=
  unitOp c t (encK 0x31 D A 6 k) 32 A k.toNat (fun n d =>
    let v := (greg d c t D).toNat
    let cnt := v % 2 ^ 32
    retire c t id (armTimer c n ⟨bitsOf v 39 32, .cycle (gCycle d + cnt)⟩ (decide (cnt = 0)) d)) s

/-! ### Channels (R487, R509) -/

/-- CHW (R487, R509). -/
def execChw (c t : Nat) (D A : BitVec 5) (k : BitVec 8) (s : State) : Host.Outcome State Fault Refusal :=
  unitOp c t (encK 0x32 D A 0 (k.setWidth 12)) 256 A k.toNat (fun n d =>
    let h := gchan d c n
    let v := greg d c t D
    if h.lost.contains t then retire c t id d
    else if h.owner = some t then
      if 16 ≤ h.words.length then threadFault c t 8 n 0 d
      else retire c t id (gchanU c n (fun h => { h with words := h.words ++ [v] }) d)
    else if h.owner.isNone && !h.committed && h.writers.isEmpty then
      retire c t id (gchanU c n (fun h => { h with owner := some t, since := now d, words := [v] }) d)
    else thrU c t (fun x => { x with st := .waiting (.write n) }) (gchanU c n (fun h => { h with writers := h.writers ++ [t] }) d)) s

/-- CHC (R487, R509). -/
def execChc (c t : Nat) (A : BitVec 5) (k : BitVec 8) (s : State) : Host.Outcome State Fault Refusal :=
  unitOp c t (encK 0x32 0 A 1 (k.setWidth 12)) 256 A k.toNat (fun n d =>
    let h := gchan d c n
    if h.lost.contains t then
      retire c t (fun x => { x with abandoned := true }) (gchanU c n (fun h => { h with lost := h.lost.filter (· ≠ t) }) d)
    else if h.owner = some t then
      retire c t (fun x => { x with abandoned := false }) (gchanU c n (fun h => { h with owner := none, committed := true }) d)
    else threadFault c t 8 n 0 d) s

/-- Read word `w` of a committed message into a register, and free the channel on the last read. -/
def readChan (c t n w : Nat) (D : BitVec 5) (last : Bool) (d : Dev) : Dev :=
  let v := (gchan d c n).words.getD w 0
  let d := retire c t (fun x => { gset D v x with st := .running }) d
  if last then freeChan c n d else d

/-- CHR (R487, R509). -/
def execChr (c t : Nat) (D A : BitVec 5) (w : BitVec 4) (k : BitVec 8) (s : State) : Host.Outcome State Fault Refusal :=
  unitOp c t (encK 0x32 D A 2 (w ++ k)) 256 A k.toNat (fun n d =>
    if (gchan d c n).committed then readChan c t n w.toNat D false d
    else thrU c t (fun x => { x with st := .waiting (.read n) }) d) s

/-- CHRL (R487, R509). -/
def execChrl (c t : Nat) (D A : BitVec 5) (w : BitVec 4) (k : BitVec 8) (s : State) : Host.Outcome State Fault Refusal :=
  unitOp c t (encK 0x32 D A 3 (w ++ k)) 256 A k.toNat (fun n d =>
    if (gchan d c n).committed then readChan c t n w.toNat D true d
    else thrU c t (fun x => { x with st := .waiting (.read n) }) d) s

/-- KEYSTONE_WAKE (R482, R483, R487): the wait of a thread has ended, and its operation retires at its next issue slot. -/
def execKeystoneWake (c t : Nat) (s : State) : Host.Outcome State Fault Refusal :=
  lift (fun d =>
    let x := thr d c t
    let w := fetchWord d c t
    let dd : BitVec 5 := BitVec.ofNat 5 (bitsOf w 25 21)
    if (x.halted && !x.step) || coreStopped d c (t / 8) || !(islandOn d (gIsland c)) || overdue d x then d
    else
      let go := fun (g : GThr → GThr) (d : Dev) =>
        retire c t (fun x => { g x with st := .running, granted := none, step := false }) d
      match x.st, x.granted with
      | .waiting (.lock _), some b => go (fun x => { x with broken := b }) d
      | .waiting (.event _), some _ => go id d
      | .waiting (.write n), some _ => go id (gchanU c n (fun h => { h with words := h.words ++ [greg d c t dd] }) d)
      | .waiting (.read n), _ =>
        if (gchan d c n).committed then
          readChan c t n (bitsOf w 11 8) dd (decide (bitsOf w 15 12 = 3)) (thrU c t (fun x => { x with step := false }) d)
        else d
      | _, _ => d) s

/-! ### Time, work and special registers (R510–R512) -/

/-- TRD (R510). -/
def execTrd (c t : Nat) (D : BitVec 5) (st : BitVec 3) (s : State) : Host.Outcome State Fault Refusal :=
  issueSeq c t (encK 0x33 D 0 0 (st.setWidth 12)) (fun d =>
    let n := st.toNat
    let x := rep d (gIsland c) n
    let v := toR17 x.t
    let (a, b, e) := if strPresent d n then
        (v / 2 ^ 48, v / 2 ^ 16 % 2 ^ 32, v % 2 ^ 16 + stCode x.st * 2 ^ 16 + b2n (outOfBound d n x.u) * 2 ^ 19 + x.u * 2 ^ 32)
      else (0, 0, 0)
    retire c t (fun y => gset (D + 2) (BitVec.ofNat 64 e) (gset (D + 1) (BitVec.ofNat 64 b) (gset D (BitVec.ofNat 64 a) y))) d) s

/-- WNEXT (R477, R511): fields A and K are not used. -/
def execWnext (c t : Nat) (D A : BitVec 5) (k : BitVec 12) (s : State) : Host.Outcome State Fault Refusal :=
  issueSeq c t (encK 0x34 D A 0 k) (fun d =>
    let moved := (thr d c t).moved && (thr d c t).item.isSome
    let d := decideItem c t 0x10 (fun i d => gateDrop { i.frame with gated := true } d) d
    if moved then d else thrU c t (fun x => { x with st := .parked }) d) s

/-- A DECISION record (R232): the reading of the cluster's time tap at the verdict, on the frame's stamp string. -/
def decisionRec (d : Dev) (c verdict : Nat) (i : GItem) : Bytes :=
  let f := i.frame
  let u := tapU d f.str (gIsland c)
  let fl := (stampFlags d f.str (gIsland c) u false).1
  recBytes (toR17 (rep d (gIsland c) f.str).t) u f.str 4 f.port false f.session.isSome (clsWord f + i.gate % 64 * 2 ^ 26)
    (match i.recd with | some v => v.toNat | none => 0) f.bytes.length (frameFlags d { f with flags := fl } + verdict * 2 ^ 10) (digest f.bytes)

/-- WDONE (R479, R480, R511): the verdict on the thread's work item, with a DECISION record when asked for. -/
def execWdone (c t : Nat) (A : BitVec 5) (verdict : BitVec 2) (record : Bool) (s : State) : Host.Outcome State Fault Refusal :=
  issueSeq c t (encK 0x34 0 A 1 (BitVec.ofNat 12 (verdict.toNat + 4 * b2n record))) (fun d =>
    let x := thr d c t
    match x.item with
    | none => threadFault c t 7 0 0 d
    | some i =>
      let cyc := itemCycles d x + (if (gcore d c (t / 8)).paired then 1 else 8)
      let q := (greg d c t A).toNat % 2 ^ 32
      let bad := decide (verdict = 2) && decide (q ≠ discardQ) && (decide (qKind q = 1) || decide (qKind q = 2))
      let v := if bad then 1 else verdict.toNat
      let d := retire c t id d
      if i.budget < cyc then d
      else
        let g := i.gate
        let d := if ctrR d (gateCtr g 0x48) < cyc then ctrW (gateCtr g 0x48) cyc d else d
        let d := if record then (writeRec (decisionRec d c v i) c d).2 else d
        let f := { i.frame with gated := true }
        let d := if bad then ctrInc (gateCtr g 0x40) d else d
        if v = 0 then decideItem c t 8 (fun _ d => gatePass (gIsland c) g f d) d
        else if v = 1 then decideItem c t 0x10 (fun _ d => gateDrop f d) d
        else
          decideItem c t 0x18 (fun _ d =>
            let d := freeSlot f d
            let f := { f with slotOf := none, dest := destOf d f q }
            deliver (gIsland c) f (finishRec f (decide (f.dest = .discard)) d)) d) s

/-- RECD (R511): field K is not used. -/
def execRecd (c t : Nat) (A : BitVec 5) (k : BitVec 12) (s : State) : Host.Outcome State Fault Refusal :=
  issueSeq c t (encK 0x34 0 A 2 k) (fun d =>
    let v := greg d c t A
    retire c t (fun x => { x with item := x.item.map fun i => { i with recd := some v } }) d) s

/-- MFS (R499, R512). A cycle count is exact to the 1 ns tick, its last cycle free (log entry 45). -/
def execMfs (c t : Nat) (D : BitVec 5) (idx : BitVec 5) (s : State) : Host.Outcome State Fault Refusal :=
  issueSeq c t (encK 0x35 D 0 0 (idx.setWidth 12)) (fun d =>
    let x := thr d c t
    let (h, d) := fresh d
    let v :=
      match idx.toNat with
      | 0 => statusWord d c t
      | 1 => t % 64 + c % 8 * 256
      | 2 => gCycle d - (gcore d c (t / 8)).start + h % 2
      | 3 => if x.item.isSome then itemCycles d x + h % 2 else 0
      | _ => match x.item with | some i => i.budget | none => 0
    retire c t (gset D (BitVec.ofNat 64 v)) d) s

/-- TRAP (R512). -/
def execTrap (c t : Nat) (code : BitVec 16) (s : State) : Host.Outcome State Fault Refusal :=
  issue c t (encI 0x3E 0 0 code) (fun d => threadFault c t 12 code.toNat 0 d) s

/-- BRK (R492, R512): bits 25:0 are ignored. -/
def execBrk (c t : Nat) (bits : BitVec 26) (s : State) : Host.Outcome State Fault Refusal :=
  issue c t (encJ 0x3F bits) (fun d =>
    let k := t / 8
    if debugEn d c k then haltThread c t true (bitW (dbgKey c k 4) (8 + t % 8) true d)
    else threadFault c t 13 0 0 d) s

/-- ILLEGAL (R500, R502–R512): a thread issues a word that is no encoding of the tables. -/
def execIllegal (c t : Nat) (s : State) : Host.Outcome State Fault Refusal :=
  lift (fun d =>
    if mayIssue d c t && (!(bpMatch d c t) || (thr d c t).step) && !(legalWord (fetchWord d c t)) then
      threadFault c t 1 0 0 (thrU c t (fun x => { x with step := false }) d)
    else d) s

end Sys2Proof.Machine
end

