-- ==== Sys2Proof/Machine/Course.lean ====
section
/-! DEFINITION. The course sequencer: intake, release, drains and the forwarded stream (06). -/

namespace Sys2Proof.Machine

/-! ### Keys and times (R198, R207, R208) -/

/-- A frame's stamp in Q16 ns. -/
def fQ (f : Frame) : Nat := r17Q f.stamp

/-- A frame's u in Q16 ns; U 0xFFFF counts as 4,096 ns (R208). -/
def fU (f : Frame) : Nat := if f.u = 0xFFFF then 4096 * 65536 else f.u * 4096

/-- The string of a course in effect, and its time in Q16 ns. -/
def courseStr (d : Dev) (c : Nat) : Nat := fldR d (coKey c 0x40) 27 25
def courseNow (d : Dev) (c : Nat) : Nat := repQ d csIsland (courseStr d c) 0

/-- The next sequence (R202), and the registers that show it. -/
def nextSeq (d : Dev) (c : Nat) : Nat := (regR d (coKey c 0x50)).toNat + 2 ^ 32 * (regR d (coKey c 0x54)).toNat
def setSeq (c n : Nat) (d : Dev) : Dev := regW (coKey c 0x54) (BitVec.ofNat 32 (n / 2 ^ 32)) (regW (coKey c 0x50) (BitVec.ofNat 32 n) d)

/-- Set OCC. -/
def setOcc (c : Nat) (d : Dev) : Dev := fldW (coKey c 0x40) 16 0 (course d c).held.length d

/-! ### The forwarded stream (R217–R219) -/

/-- The course header (R218), network byte order; RELEASE_DELTA is free where the spec states none: a negative one
outside a drain (log entry 33). -/
def courseHeader (c : Nat) (f : Frame) (flags : Nat) (drain : Bool) (d : Dev) : Bytes × Dev :=
  let del : Int := (courseNow d c : Int) - fQ f
  let (delta, d) := if 0 ≤ del then (del.toNat, d) else if drain then (0, d) else fresh d
  ([0x01] ++ beBytes 1 c ++ beBytes 2 (frameFlags d f ||| flags) ++ beBytes 8 (f.seq.getD 0) ++ beBytes 12 f.stamp ++ beBytes 2 f.u ++
    beBytes 1 f.str ++ beBytes 1 f.port ++ beBytes 4 (clsWord f + (if f.session.isSome then 2 ^ 26 else 0)) ++
    beBytes 2 f.bytes.length ++ beBytes 2 (regR d (coKey c 0x58)).toNat ++ beBytes 4 (courseW d c) ++ beBytes 8 delta, d)

/-- The bytes of a course's frame on a trunk port's output with ENCAP set (R217, R219). -/
def encap (c p : Nat) (f : Frame) (drain : Bool) (d : Dev) : Bytes × Dev :=
  let vlan := effB d (coKey c 0x10) 28
  let room := maxFrame d p - (if vlan then 70 else 66)
  let cut := decide (room < f.bytes.length)
  let (h, d) := courseHeader c f (if cut then 2 ^ 10 else 0) drain d
  let da := leBytes 4 (effR d (coKey c 0x24)).toNat ++ leBytes 2 (effF d (coKey c 0x28) 15 0)
  let sa := leBytes 4 (effR d (coKey c 0x2C)).toNat ++ leBytes 2 (effF d (coKey c 0x30) 15 0)
  let tag : Bytes := if vlan then [0x81, 0x00] ++ beBytes 2 (effF d (coKey c 0x28) 31 16) else []
  (da ++ sa ++ tag ++ [0x88, 0xB5] ++ h ++ f.bytes.take room, if cut then ctrInc (coKey c 0x158) d else d)

/-! ### Release (R199–R202, R206–R209, R215) -/

/-- Course flags of R231: LATE 1, TIE 2, AMBIG 4, EARLY 8, EPOCH_SPLIT 512. -/
def countFlags (c fl : Nat) (d : Dev) : Dev :=
  let one (m off : Nat) (d : Dev) : Dev := if fl / m % 2 = 1 then ctrInc (coKey c off) d else d
  one 512 0x128 (one 8 0x120 (one 1 0x118 (one 4 0x110 (one 2 0x108 (ctrInc (coKey c 0x100) d)))))

/-- Sequence a frame and send it on (R201, R202, R207, R215). `test`: the frame takes part in F and H; `drain`: it is
released by a drain. -/
def releaseFrame (c : Nat) (f : Frame) (fl : Nat) (test drain : Bool) (d : Dev) : Dev :=
  let x := course d c
  let below := match x.horizon with | some h => decide ((fQ f : Int) - fU f < h) | none => false
  let fl := fl ||| f.flags &&& 512 ||| (if f.u = 0xFFFF ∨ (test = true ∧ below = true) then 4 else 0)
  let seq := nextSeq d c
  let d := countFlags c fl (setSeq c ((seq + 1) % 2 ^ 64) d)
  let d := if !test then d else courseU c (fun x => { x with
      front := some (match x.front with | some t => max t f.stamp | none => f.stamp),
      horizon := some (match x.horizon with | some h => max h ((fQ f : Int) + fU f) | none => (fQ f : Int) + fU f) }) d
  let dest := match f.dest with | .courseOut => destOf d f (effR d (coKey c 0x20)).toNat | o => o
  let f := { f with flags := f.flags ||| fl, seq := some seq, dest := dest }
  let d := completeOpt f.rec_ (fun b => recSeqFlags seq fl (recKind (frameKind f + (if dest = .discard then 2 ^ 28 else 0)) b))
    (some (c, seq)) d
  match dest with
  | .egress p _ =>
    if effB d (coKey c 0x10) 29 && decide (p < 16) then
      let (b, d) := encap c p f drain d
      deliver csIsland { f with bytes := b } d
    else deliver csIsland f d
  | _ => deliver csIsland f d

/-- The lowest TIME held. -/
def lowest : List CHeld → Option Nat
  | [] => none
  | h :: t => match lowest t with | some m => some (min m h.frame.stamp) | none => some h.frame.stamp

/-- RR_PTR (R206). -/
def rrPtr (d : Dev) (c : Nat) : Nat := fldR d (coKey c 0x40) 22 17

/-- The tie group at the lowest TIME in its order of release (R206). -/
def tieGroup (d : Dev) (c : Nat) : List CHeld :=
  let hs := (course d c).held
  match lowest hs with
  | none => []
  | some t =>
    let key (h : CHeld) : Nat := (h.frame.port + 48 - rrPtr d c) % 48
    (hs.filter fun h => decide (h.frame.stamp = t)).foldr (insertBy fun a b =>
      decide (key a < key b) || (decide (key a = key b) && decide (a.arr ≤ b.arr))) []

/-- Release the first held frame in order (R200, R206, R211). -/
def releaseFirst (c fl : Nat) (drain : Bool) (d : Dev) : Dev :=
  match tieGroup d c with
  | [] => d
  | h :: rest =>
    let x := course d c
    let tied := !rest.isEmpty || x.tieFirst.isSome
    let first := x.tieFirst.getD h.frame.port
    let d := courseU c (fun x => { x with
      held := x.held.filter fun y => decide (y.arr ≠ h.arr),
      tieFirst := if rest.isEmpty then none else some first }) d
    let d := if tied && rest.isEmpty then fldW (coKey c 0x40) 22 17 ((first + 1) % 48) d else d
    releaseFrame c h.frame (fl ||| (if tied then 2 else 0)) true drain (setOcc c d)

/-- Release the whole tie group at the lowest TIME (R206). -/
def releaseGroup (c fl : Nat) (drain : Bool) (d : Dev) : Dev :=
  loopN (tieGroup d c).length (fun _ d => releaseFirst c fl drain d) d

/-- Release every held frame in order (R213, R220, R221). -/
def releaseAll (c fl : Nat) (d : Dev) : Dev :=
  loopN (course d c).held.length (fun _ d => releaseFirst c fl true d) d

/-! ### Drains (R212–R214, R220, R221) -/

/-- Post COURSE_DRAINED (R225). -/
def postDrained (c n cause : Nat) (d : Dev) : Dev :=
  postDev 0x54 (leBytes 1 c ++ leBytes 4 (regR d (coKey c 0x58)).toNat ++ leBytes 4 n ++ leBytes 1 cause) d

/-- The drain at a step (cause 0) or LOAD (1) of the course's string, the string's time already that after it (R213). -/
def drainCourse (c cause : Nat) (d : Dev) : Dev :=
  if !(courseOn d c) then d else
  let n := (course d c).held.length
  let d := releaseAll c 512 d
  let d := courseU c (fun x => { x with front := none, horizon := none, tag := (str d (courseStr d c)).jumps % 4,
                                        drainTick := some (now d), drainTime := courseNow d c }) d
  postDrained c n cause (regW (coKey c 0x58) (regR d (coKey c 0x58) + 1) d)

/-- Drain the courses of a string. -/
def drainString (s cause : Nat) (d : Dev) : Dev :=
  (List.range (numCourses d.variant)).foldl (fun d c => if courseStr d c = s then drainCourse c cause d else d) d

/-- A course's enable follows its commit (R220). -/
def courseEnable (c : Nat) (d : Dev) : Dev :=
  let en := effB d (coKey c 0x10) 31
  let on := courseOn d c
  if en && !on then
    let s := effF d (coKey c 0x10) 18 16
    let w := Word.putBit (Word.put (regR d (coKey c 0x40)) 27 25 s) 31 true
    courseU c (fun x => { x with held := [], front := none, horizon := none, tag := (str d s).jumps % 4, drainTick := none,
                                 tieFirst := none })
      (regW (coKey c 0x40) (Word.put (Word.put w 22 17 0) 16 0 0) d)
  else if !en && on then
    let n := (course d c).held.length
    postDrained c n 3 (bitW (coKey c 0x40) 31 false (releaseAll c 8 d))
  else if !en then fldW (coKey c 0x40) 27 25 (effF d (coKey c 0x10) 18 16) d
  else d

/-! ### Intake (R195, R196, R199, R209–R211, R214, R220) -/

/-- Whether a drain's window is still running (R214). -/
def inWindow (d : Dev) (c : Nat) : Bool :=
  match (course d c).drainTick with | some t => decide (now d ≤ t + courseW d c) | none => false

/-- Whether a port is a member of a course. -/
def isMember (d : Dev) (c p : Nat) : Bool := effB d (coKey c (if p < 32 then 0x18 else 0x1C)) (p % 32)

/-- A LATE frame is released at once (R209, R214). -/
def releaseLate (c : Nat) (f : Frame) (fl : Nat) (test : Bool) (d : Dev) : Dev :=
  releaseFrame c f (fl ||| 1) test false (rateNote (rateKey 0x52 c) 0 d)

/-- Hold a frame in the reorder store (R200, R210, R211). -/
def holdInCourse (c : Nat) (f : Frame) (d : Dev) : Dev :=
  let d := if fQ f + courseW d c * 65536 < courseNow d c then ctrInc (coKey c 0x140) d else d
  let d := if 65536 ≤ (course d c).held.length then releaseFirst c 8 false (rateNote (rateKey 0x53 c) 0 d) else d
  setOcc c (courseU c (fun x => { x with held := x.held ++ [⟨f, x.arrSeq⟩], arrSeq := x.arrSeq + 1 }) d)

/-- A frame reaches its course. -/
def courseTake (c : Nat) (f : Frame) (d : Dev) : Dev :=
  if !(courseOn d c) then finishRec f true (ctrInc (coKey c 0x150) d) else
  let d := if isMember d c f.port then d else ctrInc (coKey c 0x130) d
  let x := course d c
  if f.str ≠ courseStr d c then releaseFrame c f 4 false false (ctrInc (coKey c 0x138) d)
  else if f.ep ≠ x.tag then
    if inWindow d c then releaseFrame c f 512 false false d else releaseLate c f 512 false d
  else
    let split := inWindow d c && decide (fQ f < x.drainTime + courseW d c * 65536)
    let f := { f with flags := if split then f.flags ||| 512 else f.flags }
    match x.front with
    | some t =>
      if f.stamp < t then releaseLate c f 0 true d
      else if f.stamp = t then releaseLate c f 2 true d
      else holdInCourse c f d
    | none => holdInCourse c f d

/-- COURSE_INTAKE (R195): the oldest frame readable at CS for course `course_`. -/
def execCourseIntake (course_ : Nat) (s : State) : Host.Outcome State Fault Refusal :=
  lift (fun d =>
    match receive csIsland (fun i => match i with | .course c _ => decide (c = course_) | _ => false) d with
    | some (.course _ f, d) => courseTake course_ f d
    | _ => d) s

/-- COURSE_RELEASE (R200): the tap reads t + W or later. -/
def execCourseRelease (course_ : Nat) (s : State) : Host.Outcome State Fault Refusal :=
  lift (fun d =>
    match lowest (course d course_).held with
    | some t =>
      if courseOn d course_ && islandOn d csIsland && decide (r17Q t + courseW d course_ * 65536 ≤ courseNow d course_) then
        releaseGroup course_ 0 false d
      else d
    | none => d) s

/-- EPOCH_WINDOW_END (R214): W has elapsed after the drain. -/
def execEpochWindowEnd (course_ : Nat) (s : State) : Host.Outcome State Fault Refusal :=
  lift (fun d =>
    if (course d course_).drainTick.isSome && !(inWindow d course_) then courseU course_ (fun x => { x with drainTick := none }) d
    else d) s

/-- COURSE_LATE (R209, R225). -/
def execCourseLate (course_ : Nat) (s : State) : Host.Outcome State Fault Refusal :=
  lift (fun d =>
    let k := rateKey 0x52 course_
    if rateDue d k then postDev 0x52 (leBytes 1 course_ ++ leBytes 4 (rateOf d k).count) (rateClear k d) else d) s

/-- COURSE_EARLY (R211, R225). -/
def execCourseEarly (course_ : Nat) (s : State) : Host.Outcome State Fault Refusal :=
  lift (fun d =>
    let k := rateKey 0x53 course_
    if rateDue d k then postDev 0x53 (leBytes 1 course_ ++ leBytes 4 (rateOf d k).count) (rateClear k d) else d) s

/-! ### Commands (R221, R224) -/

/-- The status of a course command. -/
def courseStatus (d : Dev) (c : Cmd) (used : List (Nat × Nat)) (badParam badState : Bool) : Nat :=
  let k := c.f 16 1
  firstStatus [
    (decide (c.fn ≠ 0) || (cmdSelf c).isNone, stNotPermitted),
    (!(reservedOk c ([(16, 1)] ++ used)) || decide (4 ≤ k) || badParam, stBadParam),
    (decide (numCourses d.variant ≤ k), stAbsent),
    (!(islandOn d csIsland), stUnitOff),
    (badState, stBadState)]

/-- COURSE_SEQ_SET (R224). -/
def execCourseSeqSet (c : Cmd) (s : State) : Host.Outcome State Fault Refusal :=
  lift (fun d => checked c (courseStatus d c [(24, 8)] false (courseOn d (c.f 16 1)))
    (fun d => completeSt c 0 (setSeq (c.f 16 1) (c.f 24 8) d)) d) s

/-- COURSE_DRAIN (R221). -/
def execCourseDrain (c : Cmd) (s : State) : Host.Outcome State Fault Refusal :=
  lift (fun d => checked c (courseStatus d c [] false false)
    (fun d =>
      let k := c.f 16 1
      if !(courseOn d k) then complete c 0 0 d else
      let n := (course d k).held.length
      complete c 0 n (postDrained k n 2 (releaseAll k 8 d))) d) s

/-- COURSE_STATS (R224). -/
def execCourseStats (c : Cmd) (s : State) : Host.Outcome State Fault Refusal :=
  lift (fun d => checked c (courseStatus d c [(17, 1), (24, 8)] (decide (1 < c.f 17 1) || decide (c.f 24 8 % 64 ≠ 0)) false)
    (fun d =>
      let k := coKey (c.f 16 1) 0x100
      let b := ctrBytes d k 12
      let d := if c.f 17 1 = 1 then ctrClear k 12 d else d
      reply c (c.f 24 8) b d) d) s

end Sys2Proof.Machine
end

