-- ==== Sys2Proof/Machine/Sched.lean ====
section
/-! DEFINITION. Gates, guard bands, shapers and the choice of the next frame of a port (09). -/

namespace Sys2Proof.Machine

/-- The port's string in Q16 ns, and the ports of a string. -/
def portQ (d : Dev) (p : Nat) : Nat := repQ d (epIsland (egressPipe d p)) (portString d p) 0

/-! ### Gates (R328–R331) -/

/-- Where a string time stands in a configuration's cycle, in Q16 ns. -/
def cyclePos (c : GateCfg) (t : Int) : Nat := ((t - c.start) % ((c.cycle * 65536 : Nat) : Int)).toNat

/-- The entry that applies at a position of the cycle, with its GATES; the last applies until the cycle ends. -/
def entryAt : List (Nat × Nat) → Nat → Nat → Nat × Nat
  | [], _, i => (i, 0)
  | [(g, _)], _, i => (i, g)
  | (g, n) :: t, pos, i => if pos < n * 65536 then (i, g) else entryAt t (pos - n * 65536) (i + 1)

/-- Entry and GATES of a configuration at a string time. -/
def cfgAt (c : GateCfg) (t : Int) : Nat × Nat := entryAt c.list (cyclePos c t) 0

/-- Whether the cycle of the running list holding `t` does not start, for the change pending (R331). -/
def extended (c n : GateCfg) (t : Int) : Bool :=
  let cs := t - cyclePos c t
  decide ((n.made : Int) ≤ cs) && decide (cs < n.start) && decide ((n.start : Int) - cs ≤ c.ext * 65536)

/-- Entry and GATES of a port at a string time (R328–R331). -/
def gatesAt (x : SchedP) (t : Int) : Nat × Nat :=
  if !x.gateOn then (0, 0xFFFF) else
  let oper (_ : Unit) : Nat × Nat := match x.oper with
    | none => (0, x.init)
    | some c =>
      match x.pend with
      | some n => if extended c n t then entryAt c.list (c.cycle * 65536 - 1) 0 else cfgAt c t
      | none => cfgAt c t
  match x.pend with
  | some n => if n.start ≤ t then cfgAt n t else oper ()
  | none => oper ()

/-- Instants at which entries of a configuration start, over the cycle holding `t` and the next. -/
def boundaries (c : GateCfg) (t : Int) : List Int :=
  let cs := t - cyclePos c t
  let offs := (c.list.foldl (fun (a : List Nat × Nat) (e : Nat × Nat) => (a.1 ++ [a.2], a.2 + e.2 * 65536)) (([] : List Nat), 0)).1
  let offs := offs.filter fun o => decide (o < c.cycle * 65536)
  offs.map (fun o => cs + o) ++ offs.map (fun o => cs + c.cycle * 65536 + o)

/-- The next closing of gate `q` after `t`, its gate being open at `t` (R328, R332). -/
def nextClosing (x : SchedP) (t : Int) (q : Nat) : Option Int :=
  if !x.gateOn then none else
  let bs := (match x.oper with | some c => boundaries c t | none => []) ++
    (match x.pend with | some n => (n.start : Int) :: boundaries n (max t n.start) | none => [])
  (bs.filter fun b => decide (t < b) && !(bitOf (gatesAt x b).2 q)).foldl (fun m b =>
    match m with | some y => some (min y b) | none => some b) none

/-- A gate that closes on the frame on the line, which will leave after it: the frame is counted (R334). -/
def overrun (p q : Nat) (d : Dev) : Dev :=
  rateNote (rateKey 0x71 p) q (ctrInc (sKey p (0x3018 + 0x20 * q)) (portU p (fun x => { x with lineQ := none }) d))

/-- ENTRY and GATES_NOW show the entry that applies; a change that no launch foresaw may close the gate of the frame on the
line. -/
def gateRegs (p : Nat) (d : Dev) : Dev :=
  let (e, g) := gatesAt (schedP d p) (portQ d p)
  let d := match (port d p).lineQ with
    | some q => if now d < (port d p).busyUntil ∧ bitR d (sKey p 0x40) q = true ∧ bitOf g q = false then overrun p q d else d
    | none => d
  fldW (sKey p 0x40) 24 16 e (fldW (sKey p 0x40) 15 0 g d)

/-- GATE_ENTRY_CHANGE (R328): the next entry's gate states apply. -/
def execGateEntryChange (port_ : Nat) (s : State) : Host.Outcome State Fault Refusal :=
  lift (fun d => if (schedP d port_).gateOn then gateRegs port_ d else d) s

/-- The pending configuration starts its first cycle (R330). -/
def changeConfig (p : Nat) (d : Dev) : Dev :=
  match (schedP d p).pend with
  | some n =>
    if n.start ≤ portQ d p then
      let d := schedU p (fun x => { x with oper := some n, pend := none }) d
      let d := ctrInc (sKey p 0x3208) (bitW (sKey p 0x40) 30 false d)
      postDev 0x70 (leBytes 1 p ++ leBytes 2 n.list.length ++ leBytes 4 n.cycle) (gateRegs p (shortUpdate9 p d))
    else d
  | none => d

/-- CONFIG_CHANGE_TIME (R330). -/
def execConfigChangeTime (port_ : Nat) (s : State) : Host.Outcome State Fault Refusal := lift (changeConfig port_) s

/-- A step or LOAD of a string, or a change of a port's STRING, reaches its gates (R335). -/
def gateResync (p : Nat) (d : Dev) : Dev :=
  if (schedP d p).gateOn then gateRegs p (changeConfig p (ctrInc (sKey p 0x3210) d)) else d

/-- The gates of every port on a string resynchronise (R335). -/
def gateResyncAll (s : Nat) (d : Dev) : Dev :=
  (List.range 48).foldl (fun d p => if portString d p = s then gateResync p d else d) d

/-- BASE of a port's page in effect, in Q16 ns. -/
def schedBase (d : Dev) (p : Nat) : Nat :=
  let e (o : Nat) : Nat := (effR d (sKey p o)).toNat
  r17Q ((e 0x2C + 2 ^ 32 * (e 0x30 % 65536)) * 2 ^ 48 + e 0x28 * 65536 + e 0x24 % 65536)

/-- The gate fields of a port's SCHED page are captured at its commit point (R329, R330). -/
def gateCommit (p : Nat) (d : Dev) : Dev :=
  if effB d (sKey p 0x10) 31 then
    let nowQ := portQ d p
    let cyc := effF d (sKey p 0x18) 29 0
    let b := schedBase d p
    let lim := nowQ + 10000 * 65536
    let start := if lim ≤ b then b else b + ceilDiv (lim - b) (cyc * 65536) * (cyc * 65536)
    let n := effF d (sKey p 0x20) 8 0
    let list := (List.range n).map fun k =>
      (effF d (sKey p (0x1000 + 8 * k)) 15 0, (effR d (sKey p (0x1004 + 8 * k))).toNat)
    let cfg : GateCfg := { list := list, cycle := cyc, ext := effF d (sKey p 0x1C) 29 0, start := start, made := nowQ }
    let d := schedU p (fun x => { x with
      init := if x.oper.isNone then effF d (sKey p 0x20) 31 16 else x.init, gateOn := true, pend := some cfg }) d
    let t := qR17 start
    let d := regW (sKey p 0x48) (BitVec.ofNat 32 (t % 65536)) d
    let d := regW (sKey p 0x4C) (BitVec.ofNat 32 (t / 65536)) d
    let d := regW (sKey p 0x50) (BitVec.ofNat 32 (t / 2 ^ 48)) d
    let d := regW (sKey p 0x54) (BitVec.ofNat 32 (t / 2 ^ 80)) d
    gateRegs p (bitW (sKey p 0x40) 31 true (bitW (sKey p 0x40) 30 true d))
  else
    let d := schedU p (fun x => { x with gateOn := false, oper := none, pend := none }) d
    gateRegs p (bitW (sKey p 0x40) 29 false (bitW (sKey p 0x40) 30 false (bitW (sKey p 0x40) 31 false d)))

/-! ### Shapers (R321, R325, R326) -/

/-- Whether shaper `i` of a port is enabled (0 to 15 a queue's, 16 the port's), its RATE and BURST, by register words. -/
def shaperCfg (r : Nat → Word) (p i : Nat) : Bool × Nat × Nat :=
  if i = 16 then (Word.bit (r (sKey p 0x10)) 30, Word.fld (r (sKey p 0x34)) 20 0, Word.fld (r (sKey p 0x38)) 23 0)
  else (Word.bit (r (sKey p (0x100 + 16 * i))) 31, Word.fld (r (sKey p (0x100 + 16 * i))) 28 8,
    Word.fld (r (sKey p (0x104 + 16 * i))) 23 0)

/-- A bucket. -/
def bucket (d : Dev) (p i : Nat) : Bucket := Tbl.get (fun _ => {}) (schedP d p).buckets i

/-- Change a bucket. -/
def bucketU (p i : Nat) (f : Bucket → Bucket) (d : Dev) : Dev :=
  schedU p (fun x => { x with buckets := Tbl.upd (fun _ => {}) x.buckets i f }) d

/-- BURST bytes in the unit of 1/256 byte (R325). -/
def burstUnits (n : Nat) : Int := ((n * 256 : Nat) : Int)

/-- A bucket brought up to date: 1 Mb/s gives 4/125 of a unit of 1/256 byte each ns (R325); what falls short of a unit is carried
below the ceiling. -/
def bucketNow (d : Dev) (p i : Nat) : Bucket :=
  let (_, rate, burst) := shaperCfg (effR d) p i
  let b := bucket d p i
  let g := b.rest + 4 * rate * (now d - b.tick)
  let l := b.level + ((g / 125 : Nat) : Int)
  if burstUnits burst ≤ l then { level := burstUnits burst, rest := 0, tick := now d } else { level := l, rest := g % 125, tick := now d }

/-- Whether a shaper permits a start. -/
def shaperOpen (d : Dev) (p i : Nat) : Bool :=
  let (en, rate, _) := shaperCfg (effR d) p i
  !en || (decide (rate ≠ 0) && decide (0 ≤ (bucketNow d p i).level))

/-- Charge a shaper. -/
def shaperCharge (p i n : Nat) (d : Dev) : Dev :=
  if (shaperCfg (effR d) p i).1 then
    let b := bucketNow d p i
    bucketU p i (fun _ => { b with level := b.level - burstUnits n }) d
  else d

/-- Before a port page's commit takes effect: bring every bucket up to date. -/
def shaperSettle (p : Nat) (d : Dev) : Dev :=
  loopN 17 (fun i d => if (shaperCfg (effR d) p i).1 then (let b := bucketNow d p i; bucketU p i (fun _ => b) d) else d) d

/-- After it, `was` the registers in effect before: a shaper that is newly enabled starts full (R325). -/
def shaperFill (p : Nat) (was : Tbl Word) (d : Dev) : Dev :=
  loopN 17 (fun i d =>
    let (en, _, burst) := shaperCfg (effR d) p i
    if en && !(shaperCfg (fun k => Tbl.get regReset was k) p i).1 then
      bucketU p i (fun _ => { level := burstUnits burst, rest := 0, tick := now d }) d
    else d) d

/-- Counted length (R321). -/
def countedLen (d : Dev) (p : Nat) (f : Frame) : Nat :=
  ((lenAsSent f.bytes.length : Int) + toSigned 8 (effF d (sKey p 0x10) 15 8)).toNat

/-! ### Selection (R322–R324) -/

/-- WEIGHT of a queue. -/
def qWeight (d : Dev) (p q : Nat) : Nat := effF d (sKey p (0x100 + 16 * q)) 7 0

/-- Whether queue `q` could start at planned lands instant `t` but for the guard band. -/
def openFor (d : Dev) (p q : Nat) (t : Int) : Bool :=
  !(egq d p q).isEmpty && bitOf (gatesAt (schedP d p) t).2 q && shaperOpen d p q && !(queuePaused d p q) &&
  (decide (q < 4) || decide (qWeight d p q ≠ 0))

/-- Whether `t` lies outside the guard band before the gate's next closing (R332). -/
def guardOk (d : Dev) (p q : Nat) (t : Int) : Bool :=
  match nextClosing (schedP d p) t q with
  | some c => decide (t + ((guardNow d p * 65536 : Nat) : Int) ≤ c)
  | none => true

/-- Whether the planned instant lies in an idle window of a plumb copy of the port (R320, R351), `lead` after now. -/
def inIdle (d : Dev) (p a lead : Nat) : Bool :=
  d.copies.any fun c =>
    let t := txStampQ d p ((repQ d (epIsland (egressPipe d p)) c.str 0 + lead : Nat) : Int) a
    decide (c.port = p) && decide ((c.stamp : Int) - c.window ≤ t) && decide (t < c.stamp)

/-- The turn of the queue at the round pointer ends, and the pointer moves on (R324). -/
def endTurn9 (x : SchedP) : SchedP := { x with ptr := if x.ptr = 15 then 4 else x.ptr + 1, inTurn := false }

/-- The weighted group's choice by deficit round robin (R324), at most `n` moves of the round; `ok` says which queues
are eligible. -/
def drr (d : Dev) (p : Nat) (ok : Nat → Bool) : Nat → SchedP → Option Nat × SchedP
  | 0, x => (none, x)
  | n + 1, x =>
    let q := x.ptr
    let def_ := Tbl.get (fun _ => 0) x.deficits q
    match ok q, egq d p q with
    | true, f :: _ =>
      if !x.inTurn then
        drr d p ok n { x with deficits := Tbl.set (fun _ => 0) x.deficits q (def_ + qWeight d p q * 128), inTurn := true }
      else if countedLen d p f ≤ def_ then
        (some q, { x with deficits := Tbl.set (fun _ => 0) x.deficits q (def_ - countedLen d p f) })
      else drr d p ok n (endTurn9 x)
    | _, _ => drr d p ok n (endTurn9 x)

/-- Count a frame deferred by the guard band once (R332). -/
def noteDefer (p q : Nat) (d : Dev) : Dev :=
  if (schedP d p).deferred.contains q then d
  else ctrInc (sKey p 0x3200) (schedU p (fun x => { x with deferred := q :: x.deferred }) d)

/-- The transmit side of a port can start a frame: UP or in near-end loopback (R108), no remote fault, line free, hold
empty. -/
def canStart (d : Dev) (p : Nat) : Bool :=
  ((decide (lstate d p = 4) && decide (loopCfg d p ≠ 2)) || decide (lstate d p = 6)) && !(bitR d (pKey p 0x40) 10) && decide ((port d p).busyUntil ≤ now d) && (port d p).hold.isEmpty &&
  islandOn d (epIsland (egressPipe d p)) && !d.fatal

/-- Start the head frame of a queue: into the transmit hold, planned for `plan` on the port's string (R120, R323). -/
def startFrame (p q plan a : Nat) (d : Dev) : Dev :=
  match egq d p q with
  | [] => d
  | f :: rest =>
    let n := countedLen d p f
    let d := egqW p q rest d
    let d := schedU p (fun x =>
      let x := { x with deferred := x.deferred.filter fun y => decide (y ≠ q) }
      if rest.isEmpty && decide (4 ≤ q) then endTurn9 x else x) d
    let d := shaperCharge p 16 n (shaperCharge p q n d)
    let d := ctrAdd (sKey p (0x3008 + 0x20 * q)) n (ctrInc (sKey p (0x3000 + 0x20 * q)) d)
    let d := match f.pkt with
      | some id => { d with pkts := updFirst (fun x => decide (x.id = id)) (fun x => { x with stage := 2 }) d.pkts }
      | none => d
    portU p (fun x => { x with hold := x.hold ++ [{ frame := f, q := q, plan := plan, a := a }] }) d

/-- SCHEDULER_SELECT (R322–R324): port `port_` can start a frame whose t_L is planned `lead` (Q16 ns) ahead of its
string's time, with `a` marker and parity symbols before the start symbol. -/
def execSchedulerSelect (port_ lead a : Nat) (s : State) : Host.Outcome State Fault Refusal :=
  lift (fun d =>
    let p := port_
    if !(canStart d p) then d else
    let plan := portQ d p + lead
    let t := txStampQ d p (plan : Int) a
    let open_ := if !(shaperOpen d p 16) || inIdle d p a lead then [] else (List.range 16).filter fun q => openFor d p q t
    let d := open_.foldl (fun d q => if guardOk d p q t then d else noteDefer p q d) d
    let ok (q : Nat) : Bool := open_.contains q && guardOk d p q t
    let d := schedU p (fun x => if x.inTurn && !(ok x.ptr) then endTurn9 x else x) d
    match (List.range 4).find? ok with
    | some q => startFrame p q plan a d
    | none =>
      if (List.range 16).any fun q => decide (4 ≤ q) && ok q then
        match drr d p ok 4096 (schedP d p) with
        | (some q, x) => startFrame p q plan a (schedU p (fun _ => x) d)
        | (none, _) => d
      else d) s

/-- GATE_OVERRUN (R334, R342). -/
def execGateOverrun (port_ : Nat) (s : State) : Host.Outcome State Fault Refusal :=
  lift (fun d =>
    let k := rateKey 0x71 port_
    if rateDue d k then
      postDev 0x71 (leBytes 1 port_ ++ leBytes 1 (rateOf d k).detail ++ leBytes 4 (rateOf d k).count) (rateClear k d)
    else d) s

/-- SCHED_STATS (R341); of a port whose egress pipe is off it is UNIT_OFF (R12). -/
def execSchedStats (c : Cmd) (s : State) : Host.Outcome State Fault Refusal :=
  lift (fun d =>
    let p := c.f 16 1
    checked c (firstStatus [
      (decide (c.fn ≠ 0) || (cmdSelf c).isNone, stNotPermitted),
      (!(reservedOk c [(16, 1), (17, 1), (24, 8)]) || decide (1 < c.f 17 1) || decide (48 ≤ p) || decide (c.f 24 8 % 64 ≠ 0), stBadParam),
      (!(portPresent d.variant p), stAbsent), (!(islandOn d (epIsland (egressPipe d p))), stUnitOff)])
      (fun d =>
        let b := ctrBytes d (sKey p 0x3000) 67
        let d := if c.f 17 1 = 1 then ctrClear (sKey p 0x3000) 67 d else d
        reply c (c.f 24 8) b d) d) s

end Sys2Proof.Machine
end

