-- ==== Sys2Proof/Machine/Egress.lean ====
section
/-! DEFINITION. The launch of a frame from a port's transmit hold: its stamp, the one-step and transparent-clock
rewrites, its counters, record and completion (03, 04, 09). -/

namespace Sys2Proof.Machine

/-! ### PTP rewrites (R131–R135) -/

/-- One's complement sum of 16-bit words with the carry folded in. -/
def ocAdd (a b : Nat) : Nat := let s := a + b; if 65536 ≤ s then s - 65535 else s

/-- Update a checksum for the 16-bit words of `old` becoming those of `new` (RFC 1624, equation 3). A UDP checksum that
comes out 0 is sent as 0xFFFF (DEDUCED from UDP). -/
def ckUpdate (ck : Nat) (old new : Bytes) : Nat :=
  let s := (List.range (old.length / 2)).foldl (fun a i =>
    ocAdd (ocAdd a (65535 - be old (2 * i) 2)) (be new (2 * i) 2)) (65535 - ck)
  if s = 65535 then 65535 else 65535 - s

/-- Whether the PTP header at `off` of a frame may be rewritten (R133). -/
def mayRewrite (bs : Bytes) (off transport : Nat) : Bool :=
  decide (off + 16 ≤ 128) && decide (off + 16 ≤ bs.length) && !(decide (transport = 2) && decide (be bs (off - 2) 2 = 0))

/-- Replace bytes of a PTP message, keeping the UDP checksum at `off` − 2 right (R132). -/
def ptpPatch (bs : Bytes) (off transport at_ : Nat) (new : Bytes) : Bytes :=
  let i := off + at_
  let old := slice bs i new.length
  let out := patch bs i new
  if transport = 0 ∨ be bs (off - 2) 2 = 0 then out
  else patch out (off - 2) (beBytes 2 (ckUpdate (be bs (off - 2) 2) old new))

/-- Add Q16 ns to a correctionField. -/
def addCorrection (bs : Bytes) (off transport : Nat) (q : Int) : Bytes :=
  ptpPatch bs off transport 8 (beBytes 8 (ofSigned 64 (toSigned 64 (be bs (off + 8) 8) + q)))

/-- ORIGIN (R131), `t` the transmit stamp (R17). -/
def ptpOrigin (bs : Bytes) (off transport t : Nat) : Bytes :=
  addCorrection (ptpPatch bs off transport 34 (beBytes 6 (t / 2 ^ 48) ++ beBytes 4 (t / 2 ^ 16))) off transport
    ((t % 65536 : Nat) : Int)

/-- TURNAROUND (R131). -/
def ptpTurnaround (bs : Bytes) (off transport t : Nat) : Bytes :=
  let r := (be bs (off + 34) 6 * 1000000000 + be bs (off + 40) 4) * 65536
  ptpPatch (addCorrection bs off transport ((r17Q t : Int) - r)) off transport 34 (zeros 10)

/-- CAL_PORT_PTP of a port. -/
def calPtpKey (p : Nat) : Nat := 0xF00500 + 4 * p

/-- Count a frame not rewritten (R133). -/
def countNoRewrite (p : Nat) (d : Dev) : Dev := fldW (calPtpKey p) 31 16 (fldR d (calPtpKey p) 31 16 + 1) d

/-- A host frame's one-step action at launch (R131–R133): the bytes sent, and whether it was left undone. The header's
offset counts from the frame as fetched, so a VLAN tag the device has inserted moves it (DEDUCED, log entry 40). -/
def hostRewrite (p t : Nat) (k : TxPkt) (bs : Bytes) (d : Dev) : Bytes × Bool × Dev :=
  let act := dPtp k.head
  if act = 0 then (bs, false, d) else
  let off := u8 k.head 14 + (if bs.length = segBytes k.segs then 0 else 4)
  let tr := u8 k.head 15
  if mayRewrite bs off tr then
    ((if act = 1 then ptpOrigin bs off tr t else ptpTurnaround bs off tr t), false, d)
  else (bs, true, countNoRewrite p d)

/-- CLOCK_TYPE of a string's instance, when it runs one (R95). -/
def clockType (d : Dev) (s : Nat) : Option Nat := if ptpEn d s then some (u8 (str d s).ptpClock 0) else none

/-- The key of a two-step Sync and its Follow_Up: sourcePortIdentity and sequenceId. -/
def tcKey (bs : Bytes) (off : Nat) : Bytes := slice bs (off + 20) 12

/-- meanPathDelay of an ingress port as the time service last measured it (R135), in Q16 ns; free before the first measurement. -/
def pathDelay (s p : Nat) (d : Dev) : Int × Dev :=
  match (Tbl.get (fun _ => {}) (str d s).pdelay p : Pdelay).mean with
  | some m => (m, d)
  | none => let (n, d) := fresh d; (toSigned 64 n, d)

/-- The residence of a forwarded PTP event message (R135). An encapsulated frame shows no PTP header to the port (DEDUCED,
log entry 41). -/
def tcRewrite (p : Nat) (f : Frame) (tx : Int) (d : Dev) : Bytes × Dev :=
  let r := shortParse f.bytes
  match clockType d f.str, r.ptp with
  | some kind, some off =>
    if kind < 2 then (f.bytes, d) else
    let ty := u8 f.bytes off % 16
    if ty < 4 then
      let res : Int := tx - fQ f - stepsBetween d f.str f.tick (now d)
      let (mean, d) : Int × Dev := if ty = 0 ∧ kind = 3 then pathDelay f.str f.port d else (0, d)
      if ty = 0 ∧ bitOf (u8 f.bytes (off + 6)) 1 = true then
        (f.bytes, portU p (fun x =>
          let l := x.tc ++ [(tcKey f.bytes off, res + mean)]
          { x with tc := l.drop (l.length - 16) }) d)
      else if mayRewrite f.bytes off r.transport then (addCorrection f.bytes off r.transport (res + mean), d)
      else (f.bytes, countNoRewrite p d)
    else if ty = 8 then
      match takeFirst (fun (e : Bytes × Int) => decide (e.1 = tcKey f.bytes off)) (port d p).tc with
      | some (e, rest) =>
        let d := portU p (fun x => { x with tc := rest }) d
        if mayRewrite f.bytes off r.transport then (addCorrection f.bytes off r.transport e.2, d)
        else (f.bytes, countNoRewrite p d)
      | none => (f.bytes, fldW (calPtpKey p) 15 0 (fldR d (calPtpKey p) 15 0 + 1) d)
    else (f.bytes, d)
  | _, _ => (f.bytes, d)

/-! ### Launch (R118–R120, R125, R134) -/

/-- The string a host packet names for port string `ps` (R125). -/
def headString (head : Bytes) (ps : Nat) : Nat := if bitOf (u8 head 11) 3 then u8 head 11 % 8 else ps

/-- A frame's first symbol leaves: it is counted, and the line is busy to its end (R114). In near-end loopback it comes
back to the port and the lanes send idle (R108). -/
def sendOut (p : Nat) (bs : Bytes) (d : Dev) : Dev :=
  let n := lenAsSent bs.length
  let d := ctrInc (pKey p (0x1A8 + castOff bs)) (ctrInc (pKey p 0x1A0) (ctrAdd (pKey p 0x198) n d))
  let d := portU p (fun x => { x with lineQ := none, busyUntil := now d + ceilDiv ((n + 20) * 8) (modeRate (modeAct d p)) }) d
  if lstate d p = 6 then portU p (fun x => { x with looped := x.looped ++ [padTo 60 bs] }) d else emit (.frame p (padTo 60 bs)) d

/-- A frame of a gate that closed before its last FCS octet left (R334). -/
def noteOverrun (p q : Nat) (first last : Int) (d : Dev) : Dev :=
  let d := portU p (fun x => { x with lineQ := some q }) d
  let x := schedP d p
  if bitOf (gatesAt x first).2 q = false then overrun p q d else
  match nextClosing x first q with
  | some c => if c < last then overrun p q d else d
  | none => d

/-- A port's own string on its fret (R31), in Q16 ns. -/
def fretQ (d : Dev) (p : Nat) : Nat := repQ d (portIsland p) (portString d p) 0

/-- Launch the frame at the head of a port's transmit hold (R118, R120, R125, R131–R135). -/
def launch (p : Nat) (h : TxHold) (d : Dev) : Dev :=
  let f := h.frame
  let diff : Nat := h.plan - fretQ d p
  let pk := framePkt d f
  let (s, d) := txString p (match pk with | some k => headString k.head (portString d p) | none => f.str) d
  let tx := txStampQ d p ((repQ d (portIsland p) s 0 + diff : Nat) : Int) h.a
  let (u, fl, d) := txStampUF p s d
  let t := iR17 tx
  let (bs, undone, d) : Bytes × Bool × Dev := match pk with
    | some k => hostRewrite p t k f.bytes d
    | none => let (b, d) := tcRewrite p f tx d; (b, false, d)
  let first := txStampQ d p ((fretQ d p + diff : Nat) : Int) h.a
  let last := first + ((lenAsSent bs.length * 8 * 65536 / modeRate (modeAct d p) : Nat) : Int)
  let d := noteOverrun p h.q first last (sendOut p bs d)
  match pk with
  | none => d
  | some k =>
    let d := if dWitness k.head then (writeRec (egressRec d k (some (t, u, s, fl)) p) (egressPipe d p) d).2 else d
    txComplete k.id { stamp := if dTsReq k.head || undone then some (t, u) else none, str := s,
                      flags := fl + (if undone then 4096 else 0), len := segBytes k.segs } d

/-- TX_LAUNCH (R120, R134): the fret reaches the planned instant of the frame at the head of a port's transmit hold. -/
def execTxLaunch (port_ : Nat) (s : State) : Host.Outcome State Fault Refusal :=
  lift (fun d =>
    let p := port_
    match (port d p).hold with
    | [] => d
    | h :: rest =>
      if (lstate d p ≠ 4 ∧ lstate d p ≠ 6) ∨ bitR d (pKey p 0x40) 10 = true ∨ d.fatal = true ∨
          fretQ d p + (rep d (portIsland p) (portString d p)).incr / 2 ^ 32 < h.plan then d
      else launch p h (portU p (fun x => { x with hold := rest }) d)) s

end Sys2Proof.Machine
end

