-- ==== Sys2Proof/Machine/Plumb.lean ====
section
/-! DEFINITION. Plumb release: planning, launch and completion of copies (10). -/

namespace Sys2Proof.Machine

/-! ### Lock groups (R87, R88) -/

/-- Whether port `p` is a member of lock group `l` in effect. -/
def inLock (d : Dev) (l p : Nat) : Bool :=
  Word.bit (effR d (0x109010 + 16 * l + 4 * (p / 32))) (p % 32)

/-- Whether a port is an aligned member of a lock group: it has realigned since it joined (R88). A port of the group whose link
comes up starts its blocks on the grid (DEDUCED, log entry 42). -/
def aligned (d : Dev) (l p : Nat) : Bool := inLock d l p && decide ((port d p).alignAt ≤ now d)

/-- Members of a lock group that have link. -/
def lockLinked (d : Dev) (l : Nat) : List Nat := (List.range 48).filter fun p => inLock d l p && decide (lstate d p = 4)

/-- LOCK_GROUP of a plumb group in effect. -/
def lockOf (d : Dev) (g : Nat) : Nat := effF d (gKey g 0x10) 26 24

/-- ALIGNED of a plumb group: some member has link, and each that has is aligned. -/
def plumbAligned (d : Dev) (g : Nat) : Bool :=
  let l := (plumbMembers d g).filter fun p => decide (lstate d p = 4)
  bitR d (gKey g 0x40) 31 && !l.isEmpty && l.all fun p => aligned d (lockOf d g) p

/-! ### Planning (R348–R350) -/

/-- The quantum of a mode in 1/25 of a Q16 ns (R349). -/
def plumbQuantum (m : Nat) : Nat :=
  if m = 1 then 10485760 else if m = 2 then 4194304 else if m = 3 then 2097152 else if m = 4 then 1048576 else 524288

/-- RELEASE_TIME widened to the time whose seconds lie nearest to `now` (R287), in Q16 ns; at equal distances either
(free, log entry 2). -/
def widenRelease (v nowSec : Nat) (d : Dev) : Int × Dev :=
  let s := v / 2 ^ 48
  let down : Int := (nowSec : Int) - ((nowSec + 65536 - s) % 65536 : Nat)
  let gap := nowSec - down
  let frac : Int := ((v / 65536 % 2 ^ 32 * 65536 + v % 65536 : Nat) : Int)
  let at_ (sec : Int) : Int := sec * 65536000000000 + frac
  if gap < 32768 then (at_ down, d)
  else if 32768 < gap then (at_ (down + 65536), d)
  else let (n, d) := fresh d; (at_ (if n % 2 = 0 then down else down + 65536), d)

/-- The achievable stamp nearest to a target, the earlier on a tie, in 1/25 of a Q16 ns: boundaries at `phase` plus
multiples of `q`. -/
def nearestStamp (target phase : Int) (q : Nat) : Int :=
  let k := (target - phase) / q
  let lo := phase + k * q
  if target - lo ≤ lo + q - target then lo else lo + q

/-- A quotient by `n` rounded to nearest, halves away from zero. -/
def divNearest (x : Int) (n : Nat) : Int :=
  if 0 ≤ x then ((2 * x.natAbs + n) / (2 * n) : Nat) else -(((2 * x.natAbs + n) / (2 * n) : Nat) : Int)

/-- ERROR as its 16-bit field (R232). -/
def errField (e : Int) : Nat := ofSigned 16 (satSigned 16 e)

/-- PENDING of a group follows the copies waiting. -/
def plumbPending (g : Nat) (d : Dev) : Dev :=
  fldW (gKey g 0x40) 15 0 (d.copies.filter fun c => decide (c.group = g)).length d

/-- A copy no longer waits. -/
def copyRemove (c : PCopy) (d : Dev) : Dev :=
  plumbPending c.group { d with copies := d.copies.filter fun x => !(decide (x.pkt = c.pkt) && decide (x.port = c.port)) }

/-- A copy completes RELEASE_MISSED (R353). -/
def copyMissed (c : PCopy) (d : Dev) : Dev :=
  copyUnsent c.pkt c.group c.port 0x0C c.wit
    (rateNote (rateKey 0x80 c.group) 0 (ctrInc (gKey c.group 0x110) (copyRemove c d)))

/-- Plan the copy for one member (R349, R355). -/
def planCopy (f : Frame) (pkt g s : Nat) (rel phase : Int) (am p : Nat) (d : Dev) : Dev :=
  let e := entryOf d p true
  let a25 : Int := 25 * (fecTerm (modeAct d p) (fecAct d p) am : Int)
  let st25 := nearestStamp (25 * (rel - entD e)) (phase + a25) (plumbQuantum (modeAct d p))
  let (st, d) := roundFree st25 25 d
  let tL := st - (txStampQ d p 0 am)
  let err := divNearest (st25 + 25 * entD e - 25 * rel) (25 * 4096)
  let c : PCopy := {
    pkt := pkt, group := g, port := p, frame := f, rel := rel, d := entD e, window := (devGuard d p).getD 0 * 65536
    stamp := st, tL := tL, str := s, tick := now d, lock := lockOf d g, wit := plumbWit d g, am := am, err := err }
  { d with copies := d.copies ++ [c] }

/-- The oldest packet of a group readable at an egress pipe, and that pipe: its home pipe's packets first. -/
def takePlumb (d : Dev) (g : Nat) : Option (Nat × Frame × Dev) :=
  (egressPipe d (fldR d (gKey g 0x40) 21 16) :: List.range 6).findSome? fun pipe =>
    match receive (epIsland pipe) (fun i => match i with | .plumb x _ => decide (x = g) | _ => false) d with
    | some (.plumb _ f, d) => some (pipe, f, d)
    | _ => none

/-- PLUMB_ENQUEUE (R346–R349, R353, R355): the home pipe of group `g` takes the oldest plumb packet readable there.
`phase` is a grid point of the group's lock group at the lands on the release string, in 1/25 of a Q16 ns; `am` gives the
marker and parity symbols known for members' launches. -/
def execPlumbEnqueue (g : Nat) (phase : Int) (am : List (Nat × Nat)) (s : State) : Host.Outcome State Fault Refusal :=
  lift (fun d =>
    match takePlumb d g with
    | some (pipe, f, d) =>
      match framePkt d f with
      | none => d
      | some k =>
        let ms := plumbMembers d g
        if !(bitR d (gKey g 0x40) 31) || ms.isEmpty then
          txComplete k.id { status := 0x0B, len := segBytes k.segs } d
        else
          let pkts := updFirst (fun x => decide (x.id = k.id)) (fun x => { x with stage := 2, copies := ms.length }) d.pkts
          let d := ctrInc (gKey g 0x100) { d with pkts := pkts }
          let want := headString k.head (effF d (gKey g 0x10) 18 16)
          let σ := (txString (ms.headD 0) want d).1
          let d := ms.foldl (fun d p => (txString p want d).2) d
          let tEnq : Int := repQ d (epIsland pipe) σ 0
          let (rel, d) : Int × Dev :=
            if dTimed k.head then widenRelease (le k.head 24 8) ((rep d (epIsland pipe) σ).t / secUnit) d
            else (tEnq + ((fldR d (gKey g 0x48) 19 0 * 65536 : Nat) : Int), d)
          if 65536000000000 < rel - tEnq then
            ms.foldl (fun d p => copyUnsent k.id g p 0x0D (plumbWit d g) d) (ctrInc (gKey g 0x128) d)
          else
            plumbPending g (ms.foldl (fun d p =>
              planCopy f k.id g σ rel phase ((am.find? fun (x : Nat × Nat) => decide (x.1 = p)).elim 0 (·.2)) p d) d)
    | _ => d) s

/-! ### Launch (R351, R353) -/

/-- The copy of a port that launches next: by stamp, then group (R351). -/
def nextCopy (p : Nat) : List PCopy → Option PCopy
  | [] => none
  | c :: t =>
    match nextCopy p t with
    | none => if c.port = p then some c else none
    | some b => if c.port = p ∧ (c.stamp < b.stamp ∨ (c.stamp = b.stamp ∧ c.group ≤ b.group)) then some c else some b

/-- Send a copy at its t_L (R118, R349, R350, R356). -/
def copySend (c : PCopy) (k : TxPkt) (d : Dev) : Dev :=
  let p := c.port
  let g := c.group
  let d := copyRemove c d
  let (u, fl, d) := txStampUF p c.str d
  let t := iR17 c.stamp
  let (bs, undone, d) := hostRewrite p t k c.frame.bytes d
  let e := errField c.err
  let d := ctrInc (gKey g 0x108) (sendOut p bs d)
  let d := if ctrR d (gKey g 0x130) < c.err.natAbs then ctrW (gKey g 0x130) c.err.natAbs d else d
  let d := if c.wit then (writeRec (plumbRec d g p e k (some (t, u, c.str, fl))) (egressPipe d p) d).2 else d
  txComplete k.id { stamp := some (t, u), str := c.str, flags := fl + (if undone then 4096 else 0), copy := some (e, p),
                    len := segBytes k.segs } d

/-- PLUMB_LAUNCH (R349, R353): the release string reaches the t_L of the next copy of a port. -/
def execPlumbLaunch (port_ : Nat) (s : State) : Host.Outcome State Fault Refusal :=
  lift (fun d =>
    let p := port_
    match nextCopy p d.copies with
    | none => d
    | some c =>
      let step : Int := ((rep d (portIsland p) c.str).incr / 2 ^ 32 : Nat)
      let t : Int := repQ d (portIsland p) c.str 0
      match d.pkts.find? fun k => decide (k.id = c.pkt) with
      | none => d
      | some k =>
        if t + step < c.tL then d
        else if !(inLock d c.lock p) || (decide (lstate d p = 4) && !(aligned d c.lock p)) then copyMissed c (ctrInc (gKey c.group 0x118) d)
        else if lstate d p ≠ 4 then
          copyUnsent c.pkt c.group p 4 c.wit (ctrInc (gKey c.group 0x120) (copyRemove c d))
        else if c.tL + step < t || !(mayTransmit d p) || decide (now d < (port d p).busyUntil) then copyMissed c d
        else copySend c k d) s

/-- PLUMB_COPY_TIMEOUT (R353): copies of a group not launched within 1.5 × 10^9 ticks of T_enq. -/
def execPlumbCopyTimeout (g : Nat) (s : State) : Host.Outcome State Fault Refusal :=
  lift (fun d =>
    (d.copies.filter fun c => decide (c.group = g) && decide (c.tick + 1500000000 ≤ now d)).foldl (fun d c => copyMissed c d) d) s

/-- A step or LOAD of string `s` from `before` to `after` (Q16 ns): copies in the interval it skips miss (R354). -/
def plumbStep (s before after : Nat) (d : Dev) : Dev :=
  (d.copies.filter fun c => decide (c.str = s) && decide ((before : Int) ≤ c.tL) && decide (c.tL < (after : Int))).foldl
    (fun d c => copyMissed c d) d

/-- PLUMB_MISSED (R359). -/
def execPlumbMissed (g : Nat) (s : State) : Host.Outcome State Fault Refusal :=
  lift (fun d =>
    let k := rateKey 0x80 g
    if rateDue d k then postDev 0x80 (leBytes 1 g ++ leBytes 4 (rateOf d k).count) (rateClear k d) else d) s

/-- PLUMB_STATS (R359). -/
def execPlumbStats (c : Cmd) (s : State) : Host.Outcome State Fault Refusal :=
  lift (fun d =>
    let g := c.f 16 1
    checked c (firstStatus [
      (decide (c.fn ≠ 0) || (cmdSelf c).isNone, stNotPermitted),
      (!(reservedOk c [(16, 1), (17, 1), (24, 8)]) || decide (1 < c.f 17 1) || decide (64 ≤ g) || decide (c.f 24 8 % 64 ≠ 0), stBadParam)])
      (fun d =>
        let b := ctrBytes d (gKey g 0x100) 7
        let d := if c.f 17 1 = 1 then ctrClear (gKey g 0x100) 7 d else d
        reply c (c.f 24 8) b d) d) s

end Sys2Proof.Machine
end

