-- ==== Sys2Proof/Machine/TxData.lean ====
section
/-! DEFINITION. The data of host packets: its read, the spoof checks of VFs, and entry into the packet buffer (08, 12). -/

namespace Sys2Proof.Machine

/-! ### VF_CONFIG (R402) -/

/-- A VF's VF_CONFIG block; all zeros until one is given. -/
def vfBlock (d : Dev) (f : Nat) : Bytes := padTo 320 (fn d f).vfConfig

/-- MAC_CHK, IP_CHK, PTP_ALLOW and VLAN_MODE. -/
def cfgMacChk (b : Bytes) : Bool := bitOf (u8 b 0) 0
def cfgIpChk (b : Bytes) : Bool := bitOf (u8 b 0) 1
def cfgPtpAllow (b : Bytes) : Bool := bitOf (u8 b 0) 2
def cfgVlanMode (b : Bytes) : Nat := u8 b 0 / 8 % 4

/-! ### Spoof checks (R400) -/

/-- Whether the first `n` bits of two byte strings agree. -/
def samePrefix (a b : Bytes) (n : Nat) : Bool :=
  decide (beNat a / 2 ^ (8 * a.length - n) = beNat b / 2 ^ (8 * b.length - n))

/-- Whether an IP source address lies in a prefix of its family. -/
def inPrefixes (b src : Bytes) (family : Nat) : Bool :=
  (List.range (u8 b 7)).any fun i =>
    let e := slice b (144 + 20 * i) 20
    decide (u8 e 17 = family) && decide (u8 e 16 ≤ 8 * src.length) && samePrefix (e.take src.length) src (u8 e 16)

/-- The checks of R400 in order: each true when it fails. -/
def spoofFails (b head bs : Bytes) : List Bool :=
  let r := shortParse bs
  let et := r.etype.getD 0
  let tpid := be bs 12 2
  let tagged := decide (14 ≤ bs.length) && (decide (tpid = 0x8100) || decide (tpid = 0x88A8))
  let sa := slice bs 6 6
  [ decide (et = 0x88B5) || decide (et = 0x88B6) || decide (et = 0x8808),
    (decide (frameKindOf r = 0) || decide (dPtp head ≠ 0)) && !(cfgPtpAllow b),
    cfgMacChk b && !((List.range (u8 b 6)).any fun i => decide (slice b (16 + 8 * i) 6 = sa)),
    (decide (cfgVlanMode b = 1) && !(decide (tpid = 0x8100) && decide (be bs 14 2 % 4096 = le b 2 2 % 4096))) ||
      (decide (cfgVlanMode b = 2) && tagged),
    cfgIpChk b && (match r.l3 with
      | some o =>
        if r.l3Kind = 1 then !(decide (o + 16 ≤ r.win) && inPrefixes b (slice bs (o + 12) 4) 4)
        else if r.l3Kind = 2 then !(decide (o + 24 ≤ r.win) && inPrefixes b (slice bs (o + 8) 16) 6)
        else false
      | none => false) ]

/-- The tag a VF's block has the device insert (R400): the frame is padded first, since a length as sent counts the tag
beyond the padding (R108). -/
def insertTag (b bs : Bytes) : Bytes :=
  let p := padTo 60 bs
  p.take 12 ++ [0x81, 0x00] ++ beBytes 2 (le b 2 2) ++ p.drop 12

/-! ### The data read (R289) -/

/-- A packet whose data is read goes to its port's egress queue or to its plumb group. -/
def packetIn (k : TxPkt) (bs : Bytes) (d : Dev) : Dev :=
  let t := dTarget (queue d k.fn 0 k.lq) k.head
  let f : Frame := { bytes := bs, port := t / 2 ^ 8 % 64, fromFn := some k.fn, pkt := some k.id, desc := k.head }
  if t / 2 ^ 14 = 1 then
    let g := t % 2 ^ 6
    let isl := epIsland (egressPipe d (fldR d (gKey g 0x40) 21 16))
    let d' := send (hIsland (fnPort k.fn)) isl (.plumb g { f with port := 0 }) d
    if xingTakes d isl then d' else packetEnds k.id 6 (segBytes k.segs) d'
  else
    let isl := epIsland (egressPipe d f.port)
    let d' := send (hIsland (fnPort k.fn)) isl (.egress f.port (t % 16) f) d
    if xingTakes d isl then d' else dropPkt f 6 d'

/-- A packet failing check `i` of R400 (R401). -/
def spoofDrop (k : TxPkt) (i : Nat) (d : Dev) : Dev :=
  let v := k.fn
  let d := rateNote (rateKey 0xD6 v) 0 (fnU v (fun x => { x with spoofMask := x.spoofMask ||| 2 ^ i })
    (ctrInc (0xD80000 + 0x40 * v + 8 * i) d))
  let p := dTarget (queue d v 0 k.lq) k.head / 2 ^ 8 % 64
  let d := if dWitness k.head then (writeRec (egressRec d k none p) (egressPipe d p) d).2 else d
  txComplete k.id { status := 7, len := segBytes k.segs } d

/-- The data of a packet has been read whole. -/
def dataRead (k0 : TxPkt) (d : Dev) : Dev :=
  let bs := k0.segs.flatMap fun s => dmaRead d k0.fn s.1 s.2
  let k := { k0 with data := bs, stage := 1 }
  let d := { d with pkts := updFirst (fun x => decide (x.id = k.id)) (fun _ => k) d.pkts }
  if !(isVf k.fn) then packetIn k bs d else
  let b := vfBlock d k.fn
  match (spoofFails b k.head bs).findIdx? id with
  | some i => spoofDrop k i d
  | none =>
    if cfgVlanMode b = 2 then
      let d := fnU k.fn (fun x => { x with bwLevel := x.bwLevel - 32000 }) d
      let out := insertTag b bs
      if oversize d (dTarget (queue d k.fn 0 k.lq) k.head) (lenAsSent out.length) then
        txComplete k.id { status := 5, len := segBytes k.segs } d
      else packetIn k out d
    else packetIn k bs d

/-- TX_DATA_FETCH (R289, R400): the data read of the oldest packet of a TX queue still to be read returns. -/
def execTxDataFetch (fn lq : Nat) (res : ReadRes) (s : State) : Host.Outcome State Fault Refusal :=
  lift (fun d =>
    match d.pkts.find? fun k => decide (k.fn = fn) && decide (k.lq = lq) && decide (k.stage = 0) && decide (k.gen = (queue d fn 0 lq).gen) with
    | none => d
    | some k =>
      if !(mayDma d fn) then d else
      let len := segBytes k.segs
      match res with
      | .ok => dataRead k d
      | .poisoned => packetEnds k.id 9 len d
      | _ =>
        let (froze, d) := readFailed fn res d
        if froze then d else queueError fn 0 lq 3 k.first (packetEnds k.id 8 len d)) s

/-- SPOOF_DETECTED (R401, R413). -/
def execSpoofDetected (vf : Nat) (s : State) : Host.Outcome State Fault Refusal :=
  lift (fun d =>
    let k := rateKey 0xD6 vf
    if rateDue d k then
      fnU vf (fun x => { x with spoofMask := 0 })
        (rateClear k (postEvent (parentPf vf) 0xD6 vf
          (leBytes 2 vf ++ leBytes 1 (fn d vf).spoofMask ++ leBytes 4 (rateOf d k).count) d))
    else d) s

end Sys2Proof.Machine
end

