-- ==== Sys2Proof/Machine/Tenants.lean ====
section
/-! DEFINITION. Grants, VF configuration, dirty-page logs, and saving and restoring a VF (12). -/

namespace Sys2Proof.Machine

/-! ### Tenant commands (R391) -/

/-- The function a tenant command acts on. -/
def cmdTarget (c : Cmd) : Nat := c.f 16 2

/-- Whether a function may name a target (R391); `query`: the command is GRANT_QUERY. -/
def mayTarget (c : Cmd) (query : Bool) : Bool :=
  (cmdSelf c).isSome &&
  (decide (c.fn = 0) ||
    (decide (c.fn = 2) && ((decide (514 ≤ cmdTarget c) && decide (cmdTarget c < 1024)) || (query && decide (cmdTarget c = 2)))))

/-- The status of a tenant command (R308, R391). -/
def tenantStatus (d : Dev) (c : Cmd) (used : List (Nat × Nat)) (query vfOnly badParam badState : Bool) : Nat :=
  firstStatus [
    (!(mayTarget c query), stNotPermitted),
    (!(reservedOk c ((16, 2) :: used)) || decide (1024 ≤ cmdTarget c) || (vfOnly && decide (cmdTarget c < 4)) || badParam, stBadParam),
    (!(fnExists d.variant (cmdTarget c)), stAbsent),
    (badState, stBadState)]

/-! ### Units in use (R395) -/

/-- Local numbers of a function's queues of a kind that exist. -/
def liveQueues (d : Dev) (f qt : Nat) : List Nat :=
  d.queues.filterMap fun e =>
    if e.1 / 65536 = f * 4 + qt ∧ (e.2.st ≠ .disabled ∨ e.2.exists_ = true) then some (e.1 % 65536) else none

/-- Vectors bound in a function. -/
def boundVectors (d : Dev) (f : Nat) : List Nat :=
  ((liveQueues d f 2).map fun q => (queue d f 2 q).vector) ++ ((liveQueues d f 3).map fun q => (queue d f 3 q).vector) ++
  (if bitR d (fnKey f 0x134) 31 then [fldR d (fnKey f 0x130) 26 16] else [])

/-- VALID sessions in a function's range, counted from its BASE. -/
def liveSessions (d : Dev) (f : Nat) : List Nat :=
  let g := grant d f 7
  d.sessions.filterMap fun e =>
    if g.aux ≤ e.1 ∧ e.1 < g.aux + g.value ∧ bitOf e.2.flags 0 = true then some (e.1 - g.aux) else none

/-- Policers of a function's range that are not idle, counted from its BASE. -/
def livePolicers (d : Dev) (f : Nat) : List Nat :=
  let g := grant d f 8
  let named := d.sessions.filterMap fun e =>
    if e.2.owner = f ∧ e.2.flags % 4 = 3 then some e.2.policer else none
  let on := d.policers.filterMap fun e => if e.2.mode ≠ 0 then some e.1 else none
  ((on ++ named).filter fun i => decide (g.aux ≤ i) && decide (i < g.aux + g.value)).map (· - g.aux)

/-- The units of a resource in use, by number. -/
def liveUnits (d : Dev) (f res : Nat) : List Nat :=
  if res = 1 then liveQueues d f 0 else if res = 2 then liveQueues d f 1 else if res = 3 then liveQueues d f 2
  else if res = 4 then boundVectors d f else if res = 5 then liveQueues d f 3
  else if res = 7 then liveSessions d f else if res = 8 then livePolicers d f else []

/-- The count of a counted resource in use. -/
def heldCount (d : Dev) (f res : Nat) : Nat :=
  if res = 6 then ownedEntries d f else if res = 10 then (fn d f).gateSlots else 0

/-- The lowest value, at least `new`, above which every unit is idle (R395, R396). A unit returns to the pool when it and
those above it are idle (DEDUCED, log entry 43). -/
def heldTop (d : Dev) (f res new : Nat) : Nat :=
  max (max new (heldCount d f res)) ((liveUnits d f res).foldl (fun m u => max m (u + 1)) 0)

/-- What a function holds of a resource: its grant, or during a shrink what has not returned. -/
def heldValue (d : Dev) (f res : Nat) : Nat :=
  if grantLimit d f res < (grant d f res).value then min (grant d f res).value (heldTop d f res (grantLimit d f res))
  else (grant d f res).value

/-! ### Granting (R392–R397) -/

/-- Largest grant of a resource to a PF or VF (R392). -/
def grantMax (res : Nat) (vf : Bool) : Nat :=
  match res with
  | 1 | 2 | 3 => if vf then 256 else 32768
  | 4 => if vf then 64 else 2048
  | 5 => if vf then 4 else 64
  | 6 => 0xFFFFFFFF
  | 7 => 262144
  | 8 => 65536
  | 9 => 0xFFFFFF
  | _ => 0xFFFF

/-- Device pool of a numbered resource. -/
def grantPool (res : Nat) : Nat := if res ≤ 3 then 32768 else if res = 4 then 65536 else 64

def iRes (it : Bytes) : Nat := u8 it 0
def iScope (it : Bytes) : Nat := u8 it 1
def iValue (it : Bytes) : Nat := le it 4 4
def iAux (it : Bytes) : Nat := le it 8 4

/-- PF2's ceiling for its VFs. -/
def ceiling (d : Dev) (res : Nat) : Grant := Tbl.get (fun _ => {}) (fn d 2).ceilings res

/-- Functions that can hold grants. -/
def granted (d : Dev) : List Nat := (List.range 1024).filter fun f => fnExists d.variant f && decide (f ≠ 1) && decide (f ≠ 3)

/-- Whether a numbered or range resource can cover a function's grant of an item (R393). -/
def poolCovers (d : Dev) (f : Nat) (it : Bytes) : Bool :=
  let res := iRes it
  let others := (granted d).filter fun g => decide (g ≠ f)
  if res ≤ 5 then decide ((others.foldl (fun n g => n + heldValue d g res) 0) + iValue it ≤ grantPool res)
  else if res = 7 ∨ res = 8 then
    decide (iAux it + iValue it ≤ grantMax res false) &&
    !(others.any fun g => decide (0 < heldValue d g res) && decide ((grant d g res).aux < iAux it + iValue it) &&
      decide (iAux it < (grant d g res).aux + heldValue d g res))
  else true

/-- RESULT of the checks of an item (R187, R393, R397); 0: it may be applied. -/
def grantCheck (d : Dev) (issuer f : Nat) (it : Bytes) : Nat :=
  let res := iRes it
  let v := iValue it
  let old := grant d f res
  let range := decide (res = 7) || decide (res = 8)
  if res = 0 ∨ 10 < res ∨ 1 < iScope it ∨ zeroAt it 2 2 = false ∨ zeroAt it 14 2 = false ∨
     grantMax res (isVf f && decide (iScope it = 0)) < v ∨ (range = false ∧ res ≠ 9 ∧ iAux it ≠ 0) ∨
     f = 1 ∨ f = 3 ∨ (iScope it = 1 ∧ (issuer ≠ 0 ∨ f ≠ 2)) then 4
  else if iScope it = 1 then 0
  else if range && decide (0 < old.value) && decide (iAux it ≠ old.aux) then 4
  else if decide (old.value < v) && !(poolCovers d f it) then 5
  else if decide (issuer = 2) && decide (old.value < v) &&
      decide ((ceiling d res).value < (((granted d).filter fun g => decide (514 ≤ g) && decide (g ≠ f)).foldl
        (fun n g => n + (grant d g res).value) 0) + v) then 5
  else 0

/-- Set a function's grant, posting GRANT_CHANGED when it changes (R394). -/
def grantTo (f res v aux : Nat) (d : Dev) : Dev :=
  if grant d f res = ⟨v, aux⟩ then d else
  let d := if res = 9 then bwRefill f d else d
  postEvent f 0xD5 f (leBytes 1 res ++ leBytes 4 v) (grantW f res ⟨v, aux⟩ d)

/-- Items of a GRANT_QUERY (R398). -/
def grantItems (d : Dev) (f : Nat) : Bytes :=
  let own := (List.range 10).flatMap fun i =>
    let res := i + 1
    let g := if f = 1 ∨ f = 3 then ⟨0, 0⟩ else grant d f res
    let use := if res = 9 then g.value else if res = 6 ∨ res = 10 then heldCount d f res
      else ((liveUnits d f res).foldl (fun l u => if l.contains u then l else u :: l) ([] : List Nat)).length
    leBytes 1 res ++ zeros 3 ++ leBytes 4 g.value ++ leBytes 4 g.aux ++ leBytes 4 use
  let second := (List.range 10).flatMap fun i =>
    let res := i + 1
    let g := ceiling d res
    let use := ((granted d).filter fun v => decide (514 ≤ v)).foldl (fun n v => n + (grant d v res).value) 0
    leBytes 1 res ++ leBytes 1 1 ++ zeros 2 ++ leBytes 4 g.value ++ leBytes 4 g.aux ++ leBytes 4 (min use 0xFFFFFFFF)
  own ++ (if f = 2 then second else [])

/-- Change the first grant job of a function. -/
def jobU (f : Nat) (g : GrantJob → GrantJob) (d : Dev) : Dev :=
  fnU f (fun x => { x with jobs := match x.jobs with | j :: t => g j :: t | [] => [] }) d

/-- The first grant job ends with RESULT `r`. -/
def jobEnd (f r : Nat) (d : Dev) : Dev :=
  match (fn d f).jobs with
  | j :: t => completeHeld j.held 0 (j.index % 65536 + r * 65536) (fnU f (fun x => { x with jobs := t }) d)
  | [] => d

/-- Run a function's grant commands in order until a shrink waits (R308, R394–R397); `n` bounds the steps. -/
def grantRun (f : Nat) : Nat → Dev → Dev
  | 0, d => d
  | n + 1, d =>
    match (fn d f).jobs with
    | [] => d
    | j :: t =>
      if j.held.cmd.opcode = 0xD1 then
        let d := fnU f (fun x => { x with jobs := t }) d
        let d := if (fn d j.held.cmd.fn).gen = j.held.gen then dma j.held.cmd.fn (j.held.cmd.f 24 8) (grantItems d f) d else d
        grantRun f n (completeHeld j.held 0 0 d)
      else
        match j.items[j.index]? with
        | none => grantRun f n (jobEnd f 0 d)
        | some it =>
          let r := if j.since.isSome then 0 else grantCheck d j.held.cmd.fn f it
          if r ≠ 0 then grantRun f n (jobEnd f r d)
          else if iScope it = 1 then
            grantRun f n (jobU f (fun j => { j with index := j.index + 1, since := none })
              (fnU 2 (fun x => { x with ceilings := Tbl.set (fun _ => {}) x.ceilings (iRes it) ⟨iValue it, iAux it⟩ }) d))
          else if iValue it < heldTop d f (iRes it) (iValue it) then
            jobU f (fun j => { j with since := match j.since with | some t => some t | none => some (now d) }) d
          else
            grantRun f n (grantTo f (iRes it) (iValue it) (iAux it)
              (jobU f (fun j => { j with index := j.index + 1, since := none }) d))

/-- Run a function's grant commands. -/
def grantGo (f : Nat) (d : Dev) : Dev := grantRun f (18 * ((fn d f).jobs.length + 1)) d

/-- Take a grant command for a target: it waits for earlier ones (R396). -/
def grantTake (c : Cmd) (items : List Bytes) (d : Dev) : Dev :=
  let f := cmdTarget c
  let first := (fn d f).jobs.isEmpty
  let d := noteHeld c (fnU f (fun x => { x with jobs := x.jobs ++ [⟨hold d c, f, 0, items, none⟩] }) d)
  if first then grantGo f d else d

/-- GRANT_SET (R397). -/
def execGrantSet (c : Cmd) (s : State) : Host.Outcome State Fault Refusal :=
  lift (fun d =>
    let n := c.f 18 2
    checked c (tenantStatus d c [(18, 2), (24, 8)] false false
        (decide (n = 0) || decide (16 < n) || decide (c.f 24 8 % 64 ≠ 0)) false)
      (fun d => grantTake c ((List.range n).map fun i => dmaRead d c.fn (c.f 24 8 + 16 * i) 16) d) d) s

/-- GRANT_QUERY (R398). -/
def execGrantQuery (c : Cmd) (s : State) : Host.Outcome State Fault Refusal :=
  lift (fun d =>
    checked c (tenantStatus d c [(24, 8)] true false false false) (grantTake c []) d) s

/-- GRANT_SHRINK_DONE (R395): the last unit of a shrink has returned. -/
def execGrantShrinkDone (fn : Nat) (s : State) : Host.Outcome State Fault Refusal := lift (grantGo fn) s

/-- SHRINK_TIMEOUT (R396). -/
def execShrinkTimeout (fn : Nat) (s : State) : Host.Outcome State Fault Refusal :=
  lift (fun d =>
    match (Sys2Proof.Machine.fn d fn).jobs with
    | j :: _ =>
      match j.since, j.items[j.index]? with
      | some t, some it =>
        let ms := le it 12 2
        let top := heldTop d fn (iRes it) (iValue it)
        if ms = 0 ∨ now d < t + ms * 1000000 ∨ top ≤ iValue it then d
        else
          let g := grant d fn (iRes it)
          grantGo fn (jobEnd fn 7 (grantTo fn (iRes it) (min g.value top) g.aux d))
      | _, _ => d
    | [] => d) s

/-! ### VF_CONFIG (R402) -/

/-- Whether a block is acceptable. -/
def vfBlockOk (b : Bytes) : Bool :=
  decide (le b 0 2 < 32) && decide (cfgVlanMode b ≠ 3) && decide (le b 4 2 ≠ 0xFFFF) && decide (u8 b 6 ≤ 16) &&
  decide (u8 b 7 ≤ 8) && zeroAt b 304 16 && ((List.range 16).all fun i => zeroAt b (22 + 8 * i) 2) &&
  (List.range 8).all fun i =>
    let e := slice b (144 + 20 * i) 20
    zeroAt e 18 2 && (decide (u8 b 7 ≤ i) || (decide (u8 e 17 = 4) && decide (u8 e 16 ≤ 32)) ||
      (decide (u8 e 17 = 6) && decide (u8 e 16 ≤ 128)))

/-- VF_CONFIG (R402): the VF's TX queues take the block, and its default target, from the next packet. -/
def execVfConfig (c : Cmd) (s : State) : Host.Outcome State Fault Refusal :=
  lift (fun d =>
    let f := cmdTarget c
    let b := dmaRead d c.fn (c.f 24 8) 320
    checked c (tenantStatus d c [(24, 8)] false true (decide (c.f 24 8 % 64 ≠ 0) || !(vfBlockOk b)) false)
      (fun d =>
        let d := fnU f (fun x => { x with vfConfig := if allZero b then [] else b }) d
        completeSt c 0 ((liveQueues d f 0).foldl (fun d q => queueU f 0 q (fun x => { x with target := le b 4 2 }) d) d)) d) s

/-! ### Dirty-page logs (R405–R408) -/

/-- LOG_START (R405). -/
def execLogStart (c : Cmd) (s : State) : Host.Outcome State Fault Refusal :=
  lift (fun d =>
    let f := cmdTarget c
    checked c (tenantStatus d c [(24, 8), (32, 8), (40, 8)] false true
        (decide (c.f 24 8 % 4096 ≠ 0) || decide (c.f 32 8 % 4096 ≠ 0) || decide (c.f 40 8 = 0) || decide (2 ^ 40 < c.f 40 8))
        (match (fn d f).log with | some l => l.running | none => false))
      (fun d => completeSt c 0 (fnU f (fun x => { x with
        log := some { bitmap := c.f 24 8, iovaBase := c.f 32 8, pages := c.f 40 8, pf := c.fn } }) d)) d) s

/-- DW of a drain (R407). -/
def drainDw (l : DirtyLog) : Nat := b2n l.outOfRange + 2 * b2n l.failed

/-- LOG_DRAIN (R407). A failed log ends once a drain has reported it (R406). -/
def execLogDrain (c : Cmd) (s : State) : Host.Outcome State Fault Refusal :=
  lift (fun d =>
    let f := cmdTarget c
    checked c (tenantStatus d c [(24, 8)] false true (decide (c.f 24 8 % 4096 ≠ 0)) ((fn d f).log.isNone))
      (fun d =>
        match (fn d f).log with
        | some l =>
          complete c 0 (drainDw l) (fnU f (fun x => { x with
            log := if l.failed then none
              else some { l with outOfRange := false, bitmap := if c.f 24 8 = 0 then l.bitmap else c.f 24 8 } }) d)
        | none => d) d) s

/-- LOG_STOP (R408). -/
def execLogStop (c : Cmd) (s : State) : Host.Outcome State Fault Refusal :=
  lift (fun d =>
    let f := cmdTarget c
    checked c (tenantStatus d c [] false true false ((fn d f).log.isNone))
      (fun d =>
        match (fn d f).log with
        | some l => complete c 0 (drainDw l) (fnU f (fun x => { x with log := none }) d)
        | none => d) d) s

/-! ### Saving (R409, R410) -/

/-- A queue record (R410). -/
def queueRecord (qt lq : Nat) (q : Queue) : Bytes :=
  leBytes 1 qt ++ [0] ++ leBytes 2 lq ++ leBytes 1 q.sizeLog2 ++ leBytes 1 (if qt = 1 then q.bufLog2 else 0) ++
  leBytes 2 (if qt < 2 then q.cq else 0) ++ leBytes 8 q.base ++ leBytes 8 q.recAddr ++ leBytes 2 q.devIdx ++ leBytes 2 q.hostIdx ++
  leBytes 2 (if qt = 0 then q.target else if qt = 1 then 0 else q.vector) ++
  leBytes 1 (if qt = 0 then q.weight else if qt = 2 then q.modCount else 0) ++
  leBytes 1 (if qt = 0 then q.burst else if qt = 2 then b2n q.phase + 2 * b2n q.armed else if qt = 3 then b2n q.phase else 0) ++
  leBytes 2 (if qt = 2 then q.modTime else 0) ++ leBytes 2 (if qt = 3 then q.cplIdx else 0) ++
  leBytes 4 (if qt = 2 then q.parked.length else 0) ++ leBytes 8 (if qt = 3 then q.cplBase else 0)

/-- Queues of a function that exist, in QTYPE then local number order. -/
def savedQueues (d : Dev) (f : Nat) : List (Nat × Nat) :=
  [0, 1, 2, 3].flatMap fun qt => (liveQueues d f qt).map fun q => (qt, q)

/-- A state block with its CRC (R410). -/
def sealBlock (b : Bytes) : Bytes := patch b 60 (leBytes 4 (crc32c (patch b 60 (zeros 4))))

/-- The state block of a VF (R410). -/
def stateBlock (d : Dev) (f : Nat) : Bytes :=
  let qs := savedQueues d f
  let x := fn d f
  let need (r : Nat) : Nat := (grant d f r).value
  let v := need 4
  let recs := qs.flatMap fun q => queueRecord q.1 q.2 (queue d f q.1 q.2)
  let parked := (qs.filter fun q => decide (q.1 = 2)).flatMap fun q => (queue d f 2 q.2).parked.flatten
  let msix := (List.range v).flatMap fun i => (List.range 4).flatMap fun j => leBytes 4 (msixWord d f i j).toNat
  let pba := (List.range (2 * ceilDiv v 64)).flatMap fun i => leBytes 4 (regR d (fnKey f (0x7000 + 4 * i))).toNat
  let r64 (o : Nat) : Bytes := leBytes 8 (reg64 d (fnKey f o))
  let body := r64 0x100 ++ r64 0x108 ++ r64 0x110 ++ r64 0x120 ++ r64 0x128 ++ leBytes 4 (regR d (fnKey f 0x118)).toNat ++
    leBytes 4 (regR d (fnKey f 0x130)).toNat ++ leBytes 2 x.aqIdx ++ leBytes 2 x.aqCplIdx ++ leBytes 2 x.eqIdx ++
    leBytes 1 (b2n x.aqPhase + 2 * b2n x.eqPhase + 4 * b2n x.eqArmed) ++ zeros 9 ++ recs ++ parked ++ msix ++ pba
  sealBlock (leBytes 4 0x53465642 ++ leBytes 2 1 ++ zeros 2 ++ leBytes 4 (64 + body.length) ++ leBytes 1 x.gen ++
    leBytes 1 (b2n x.lostBefore) ++ leBytes 2 qs.length ++ (List.range 16).map Config.serial ++
    ((List.range 5).flatMap fun i => leBytes 2 (need (i + 1))) ++ zeros 18 ++ zeros 4 ++ body)

/-- VF_SAVE (R409): a VF whose queues are stopped has no command outstanding, so the block is written at once. -/
def execVfSave (c : Cmd) (s : State) : Host.Outcome State Fault Refusal :=
  lift (fun d =>
    let f := cmdTarget c
    checked c (tenantStatus d c [(24, 8), (44, 4)] false true (decide (c.f 24 8 % 64 ≠ 0))
        ([0, 1, 3].any fun qt => (liveQueues d f qt).any fun q => decide ((queue d f qt q).st ≠ .stopped)))
      (fun d =>
        let d := fnU f (fun x => { x with frozen := true }) d
        let b := stateBlock d f
        if c.f 44 4 < b.length then complete c stBadParam b.length d
        else complete c 0 b.length (dma c.fn (c.f 24 8) b d)) d) s

/-- VF_RESUME (R409): FROZEN ends; what waited is written, and AQ intake restarts from the doorbell record. -/
def execVfResume (c : Cmd) (s : State) : Host.Outcome State Fault Refusal :=
  lift (fun d =>
    let f := cmdTarget c
    checked c (tenantStatus d c [] false true false (!(fn d f).frozen))
      (fun d =>
        let d := fnU f (fun x => { x with frozen := false, aqRec := bitR d (fnKey f 0x11C) 31 }) d
        completeSt c 0 (if mayDma d f then writeWaiting f d else d)) d) s

/-! ### Restoring (R411) -/

/-- Record `i` of a block. -/
def blockRec (b : Bytes) (i : Nat) : Bytes := slice b (128 + 48 * i) 48

/-- NQ, NEED and the parked completions of a block. -/
def blockNq (b : Bytes) : Nat := le b 14 2
def blockNeed (b : Bytes) (res : Nat) : Nat := le b (30 + 2 * res) 2
def blockRecs (b : Bytes) : List Bytes := (List.range (blockNq b)).map (blockRec b)
def recParked (r : Bytes) : Nat := if u8 r 0 = 2 then le r 36 4 else 0
def blockParked (b : Bytes) : Nat := (blockRecs b).foldl (fun n r => n + recParked r) 0

/-- LENGTH by the formula of R410. -/
def blockLength (b : Bytes) : Nat :=
  128 + 48 * blockNq b + 32 * blockParked b + 16 * blockNeed b 4 + 8 * ceilDiv (blockNeed b 4) 64

/-- Whether a record is one its create command would accept (R310, R411). -/
def recOk (d : Dev) (f : Nat) (b r : Bytes) : Bool :=
  let qt := u8 r 0
  let z (o n : Nat) : Bool := zeroAt r o n
  decide (qt < 4) && z 1 1 && decide (le r 2 2 < blockNeed b (qtRes qt)) && decide (6 ≤ u8 r 4) && decide (u8 r 4 ≤ 16) &&
  (if qt = 1 then decide (9 ≤ u8 r 5) && decide (u8 r 5 ≤ 14) else z 5 1) &&
  (if qt < 2 then
    ((blockRecs b).any fun x => decide (u8 x 0 = 2) && decide (le x 2 2 = le r 6 2)) &&
    decide (((blockRecs b).filter fun x => decide (u8 x 0 = qt) && decide (le x 6 2 = le r 6 2)).length = 1)
   else z 6 2) &&
  decide (le r 8 8 % 4096 = 0) && decide (le r 16 8 % 8 = 0) &&
  (if qt = 0 then decide (le r 28 2 = vfTarget d f) && decide (le r 28 2 < 32768) && decide (u8 r 30 ≠ 0) && decide (u8 r 31 ≤ 64)
   else if qt = 1 then z 28 4
   else if qt = 2 then decide (le r 28 2 < blockNeed b 4) && decide (u8 r 31 < 4) && decide (le r 32 2 ≤ 4095)
   else decide (le r 28 2 < blockNeed b 4) && z 30 1 && decide (u8 r 31 < 2) && decide (le r 40 8 % 4096 = 0)) &&
  (decide (qt = 2) || (z 32 2 && z 36 4)) && (decide (qt = 3) || (z 34 2 && z 40 8))

/-- Whether the records stand in QTYPE then local number order, none twice. -/
def recsRising : List Bytes → Bool
  | a :: b :: t => decide (u8 a 0 * 65536 + le a 2 2 < u8 b 0 * 65536 + le b 2 2) && recsRising (b :: t)
  | _ => true

/-- Whether a block may be restored (R411). -/
def blockOk (d : Dev) (f len : Nat) (b : Bytes) : Bool :=
  decide (128 ≤ len) && decide (le b 0 4 = 0x53465642) && decide (le b 4 2 = 1) && decide (le b 8 4 ≤ len) &&
  decide (le b 8 4 = blockLength b) &&
  decide (le b 60 4 = crc32c (patch (b.take (le b 8 4)) 60 (zeros 4))) &&
  recsRising (blockRecs b) && (blockRecs b).all (recOk d f b)

/-- Create one recorded queue (R297, R411). -/
def restoreQueue (f : Nat) (r : Bytes) (d : Dev) : Dev :=
  let qt := u8 r 0
  let (g, d) := pickGlobal d qt
  let p := le r 28 2
  let q : Queue := {
    st := if qt = 2 then .disabled else .stopped, exists_ := decide (qt = 2), globalId := g, gen := (fn d f).gen
    sizeLog2 := u8 r 4, bufLog2 := u8 r 5, cq := le r 6 2, base := le r 8 8, recAddr := le r 16 8, devIdx := le r 24 2, fetchPos := le r 24 2
    usedIdx := le r 24 2
    hostIdx := le r 26 2, target := if qt = 0 then p else 0, vector := if 2 ≤ qt then p else 0
    weight := if qt = 0 then u8 r 30 else 0, modCount := if qt = 2 then u8 r 30 else 0, burst := if qt = 0 then u8 r 31 else 0
    phase := if 2 ≤ qt then bitOf (u8 r 31) 0 else true, armed := decide (qt = 2) && bitOf (u8 r 31) 1
    modTime := le r 32 2, cplIdx := le r 34 2, cplBase := le r 40 8 }
  queueU f qt (le r 2 2) (fun _ => q) d

/-- Park the saved completions of a block's CQs, in record order, from offset `o`. -/
def restoreParked (f : Nat) (b : Bytes) : List Bytes → Nat → Dev → Dev
  | [], _, d => d
  | r :: t, o, d =>
    let n := recParked r
    let es := (List.range n).map fun i => slice b (o + 32 * i) 32
    let d := if n = 0 then d else
      cqOverflowCheck f (le r 2 2) (regW 0x900014 (regR d 0x900014 - BitVec.ofNat 32 n)
        (queueU f 2 (le r 2 2) (fun q => { q with parked := es }) d))
    restoreParked f b t (o + 32 * n) d

/-- Words of a block into consecutive registers. -/
def restoreWords (k o n : Nat) (b : Bytes) (d : Dev) : Dev :=
  loopN n (fun i d => regW (k + 4 * i) (BitVec.ofNat 32 (le b (o + 4 * i) 4)) d) d

/-- Put a block onto a VF (R411). -/
def restoreBlock (f : Nat) (b : Bytes) (d : Dev) : Dev :=
  let d := dropItemsOf f (fnU f (fun x => { x with gen := (x.gen + 1) % 256 }) d)
  let d := (blockRecs b).foldl (fun d r => restoreQueue f r d) d
  let op := 128 + 48 * blockNq b
  let d := restoreParked f b (blockRecs b) op d
  let v := blockNeed b 4
  let om := op + 32 * blockParked b
  let d := restoreWords (fnKey f 0x7000) (om + 16 * v) (2 * ceilDiv v 64) b (restoreWords (fnKey f 0x8000) om (4 * v) b d)
  let d := restoreWords (fnKey f 0x128) 96 2 b (restoreWords (fnKey f 0x120) 88 2 b (restoreWords (fnKey f 0x100) 64 6 b d))
  let d := restoreWords (fnKey f 0x118) 104 1 b (restoreWords (fnKey f 0x130) 108 1 b d)
  let aq := bitR d (fnKey f 0x118) 31
  let eq := bitR d (fnKey f 0x130) 31
  let ph := u8 b 118
  let d := bitW (fnKey f 0x11C) 31 aq (bitW (fnKey f 0x134) 31 eq d)
  let d := fnU f (fun x => { x with
    aqIdx := le b 112 2, aqHost := le b 112 2, aqCplIdx := le b 114 2, eqIdx := le b 116 2
    eqHost := (le b 116 2 + 65537 - eqSize d f) % 65536, aqPhase := bitOf ph 0, eqPhase := bitOf ph 1, eqArmed := bitOf ph 2
    aqRec := aq, eqRec := eq, aqClosing := false, aqOut := 0, lostBefore := bitOf (u8 b 13) 0 }) d
  if mayDma d f then writeWaiting f d else d

/-- VF_RESTORE (R411). -/
def execVfRestore (c : Cmd) (s : State) : Host.Outcome State Fault Refusal :=
  lift (fun d =>
    let f := cmdTarget c
    let len := c.f 44 4
    let b := dmaRead d c.fn (c.f 24 8) (min len (le (dmaRead d c.fn (c.f 24 8) 64) 8 4))
    checked c (tenantStatus d c [(24, 8), (44, 4)] false true (!(blockOk d f len b))
        (!(fn d f).ready || ([0, 1, 2, 3].any fun qt => !(liveQueues d f qt).isEmpty) || bitR d (fnKey f 0x11C) 31 ||
          bitR d (fnKey f 0x134) 31 || ((List.range 5).any fun i => decide ((grant d f (i + 1)).value < blockNeed b (i + 1))) ||
          decide (poolFree d < blockParked b)))
      (fun d => completeSt c 0 (restoreBlock f b d)) d) s

end Sys2Proof.Machine
end

