-- ==== Sys2Proof/Machine/Footing.lean ====
section
/-! DEFINITION. Footing (17): carriers, slots, boot, recovery, activation, lifecycle. -/

namespace Sys2Proof.Machine
open Sys2Proof

/-! ### Access -/

def footU (f : Foot → Foot) (d : Dev) : Dev := { d with foot := f d.foot }

/-- A slot, and a cluster's gate area. -/
def slot (d : Dev) (i : Nat) : FwSlot := d.foot.slots.getD i {}
def gateArea (d : Dev) (c : Nat) : FwSlot := Tbl.get (fun _ => {}) d.foot.gates c

def slotU (i : Nat) (f : FwSlot → FwSlot) (d : Dev) : Dev := footU (fun x => { x with slots := updAt f x.slots i }) d
def gateAreaU (c : Nat) (f : FwSlot → FwSlot) (d : Dev) : Dev :=
  footU (fun x => { x with gates := Tbl.upd (fun _ => {}) x.gates c f }) d

/-- Rewrite a record: WRITES counts it (R530). -/
def recU (f : SlotRec → SlotRec) (s : FwSlot) : FwSlot :=
  { s with rec_ := s.rec_.map fun r => { f r with writes := (r.writes + 1) % 2 ^ 32 } }

def slotSt (d : Dev) (i : Nat) : Nat := match (slot d i).rec_ with
  | some r => r.st
  | none => 0

def slotSeq (d : Dev) (i : Nat) : Nat := match (slot d i).rec_ with
  | some r => r.seq
  | none => 0

/-- Drive the boot pins (R519, R548). -/
def bootPins (code : Nat) (halt : Bool) (d : Dev) : Dev :=
  emit (.pin pinBootHalt halt) ((List.range 4).foldl (fun d i => emit (.pin (pinBootErr i) (bitOf code i)) d) d)

/-- HEALTHY rises or falls. -/
def setHealthy (b : Bool) (d : Dev) : Dev :=
  if d.foot.healthy = b then d else emit (.pin pinHealthy b) (footU (fun x => { x with healthy := b }) d)

/-- Halt (R548). -/
def halt (code : Nat) (d : Dev) : Dev := bootPins code true (footU (fun x => { x with boot := .halted code }) d)

/-! ### Carriers (R525–R527) -/

/-- The components of a carrier. -/
def carrierComps (b : Bytes) : List FwComp :=
  (List.range (min (u8 b 24) 4)).map fun i =>
    let e := slice b (64 + 64 * i) 64
    ⟨le e 0 2, le e 4 4, le e 8 8, slice b (le e 16 4) (le e 20 4)⟩

/-- The form of a carrier of a kind (R525, R526). -/
def carrierForm (b : Bytes) (kind : Nat) : Bool :=
  let n := u8 b 24
  let ids := (carrierComps b).map fun c => c.id
  decide (le b 0 4 = 0x52414342) && decide (le b 4 2 = 1) && decide (u8 b 6 = kind) && decide (le b 8 4 = b.length) &&
  decide (4096 + 3408 ≤ b.length) && decide (b.length ≤ 24 * 2 ^ 20 - 65536) && decide (le b 12 4 ≤ 63) && zeroAt b 25 39 &&
  decide (1 ≤ n ∧ n ≤ (if kind = 1 then 4 else 1)) && zeroAt b (64 + 64 * n) (1024 - 64 * n) && decide (ids.Nodup) &&
  (List.range n).all (fun i =>
    let e := slice b (64 + 64 * i) 64
    zeroAt e 2 2 && zeroAt e 24 8 && decide (le e 16 4 % 4096 = 0) && decide (4096 ≤ le e 16 4) &&
    decide (le e 16 4 + le e 20 4 ≤ b.length - 3408)) &&
  (if kind = 1 then decide (u8 b 7 ≤ 3) && ids.all (fun i => decide (1 ≤ i ∧ i ≤ 4)) && ids.contains 4
   else decide (u8 b 7 = 0xFF) && decide (ids = [0x10]) && zeroAt b 1088 2064 && zeroAt b (b.length - 3408) 3408)

/-- Whether every component's digest matches its payload (R527). -/
def digestsOk (b : Bytes) : Bool :=
  (carrierComps b).zipIdx.all fun (x : FwComp × Nat) => decide (sha3_256 x.1.payload = slice b (64 + 64 * x.2 + 32) 32)

/-- Whether a signed object's two signatures verify, and its key block is its key slot's (R257, R527): TBS is all but the last
3,408 bytes, the key block lies at an offset. -/
def signedOk (b : Bytes) (key keyOff : Nat) : Bool :=
  let ec := slice b keyOff 97
  let ml := slice b (keyOff + 100) 1952
  let tbs := b.take (b.length - 3408)
  let sig := b.drop (b.length - 3408)
  decide (sha3_256 (ec ++ ml) = (List.range 32).map (Config.vendorKeyHash key)) && zeroAt b (keyOff + 97) 3 && zeroAt b (keyOff + 2052) 12 &&
  Config.verifies 0 ec tbs (slice sig 0 96) && Config.verifies 1 ml tbs (slice sig 96 3309) && zeroAt sig 3405 3

/-- Why a firmware carrier is refused, as its halt code (R527, R538, R548): 0x7 signature, digest or form, 0x8 revoked key
slot, 0x9 rollback. -/
def carrierRefusal (d : Dev) (b : Bytes) : Option Nat :=
  if !(carrierForm b 1) || !(signedOk b (u8 b 7) 1088) || !(digestsOk b) then some 7
  else if bitOf d.foot.revoked (u8 b 7) then some 8
  else if le b 12 4 < d.foot.svn then some 9
  else none

/-- The status of a halt code (R549). -/
def refusalStatus (code : Nat) : Nat := if code = 8 then 0x2A else if code = 9 then 0x2B else 0x29

/-! ### Compatibility (R540, R541) -/

/-- A component of a list. -/
def compOf (cs : List FwComp) (id : Nat) : Option FwComp := cs.find? fun c => decide (c.id = id)

def versionOf (cs : List FwComp) (id : Nat) : Nat := match compOf cs id with
  | some c => c.version
  | none => 0

/-- The entry of the governing manifest that lists a combination for this stepping: its ABI bounds. -/
def testedEntry (cs : List FwComp) : Option (Nat × Nat) :=
  match compOf cs 4 with
  | none => none
  | some m =>
    let b := m.payload
    if le b 0 4 = 0x4E414D42 ∧ le b 4 2 = 1 then
      ((List.range (le b 6 2)).map fun i => slice b (16 + 32 * i) 32).findSome? fun e =>
        if le e 0 8 = versionOf cs 1 ∧ le e 8 8 = versionOf cs 2 ∧ le e 16 8 = versionOf cs 3 ∧ bitOf (le e 28 2) 4 = true then
          some (le e 24 2, le e 26 2) else none
    else none

/-! ### Binding (R528–R533) -/

/-- The bound header of components (R528): 4 KiB. -/
def boundHeader (cs : List FwComp) (svn : Nat) : Bytes :=
  let place := cs.foldl (fun (a : Nat × List Nat) c => (a.1 + roundUp c.payload.length 65536, a.2 ++ [a.1])) (65536, ([] : List Nat))
  padTo 4096 (leBytes 4 0x4D495342 ++ leBytes 2 1 ++ leBytes 2 cs.length ++ leBytes 4 svn ++ leBytes 4 place.1 ++ zeros 48 ++
    cs.zipIdx.flatMap fun (x : FwComp × Nat) =>
      leBytes 2 x.1.id ++ zeros 2 ++ leBytes 4 x.1.svn ++ leBytes 8 x.1.version ++ leBytes 4 (place.2.getD x.2 0) ++
      leBytes 4 x.1.payload.length ++ zeros 8 ++ sha3_256 x.1.payload)

/-- A bound image in its blocks of 64 KiB: the header's, then each payload's (R523, R528). -/
def boundImage (cs : List FwComp) (svn : Nat) : Bytes :=
  padTo 65536 (boundHeader cs svn) ++ cs.flatMap fun c => padTo (roundUp c.payload.length 65536) c.payload

/-- The image key of an epoch (R522). -/
def imageKey (e : Nat) : Bytes := kmac256 Config.uds (leBytes 1 e) ("ImageKey".toList.map fun c => BitVec.ofNat 8 c.toNat) 32

/-- The tag of block `k` of an image in slot `s` (R523). -/
def blockTag (s seq k e : Nat) (block : Bytes) : Bytes :=
  kmac256 (imageKey e) (leBytes 1 s ++ leBytes 8 seq ++ leBytes 4 k ++ block) ("Block".toList.map fun c => BitVec.ofNat 8 c.toNat) 32

/-- The tags of an image as bound in slot `s` (gate areas are 2 + c) under a record (R523, R543). -/
def imageTags (s : Nat) (r : SlotRec) (cs : List FwComp) : List Bytes :=
  let img := boundImage cs r.svn
  (List.range (ceilDiv img.length 65536)).map fun k => blockTag s r.seq k r.epoch (slice img (65536 * k) 65536)

/-- Write an image's tags into the table its record names (R528, R535). -/
def tagSlot (s : Nat) (x : FwSlot) : FwSlot :=
  match x.rec_ with
  | none => x
  | some r => if r.table then { x with tags1 := imageTags s r x.comps } else { x with tags0 := imageTags s r x.comps }

/-- A slot's bytes from its offset 0 (R529): tag table 0, tag table 1 at 0x8000, the bound image at 0x1_0000. -/
def slotImage (x : FwSlot) : Bytes :=
  padTo 0x8000 x.tags0.flatten ++ padTo 0x8000 x.tags1.flatten ++ (match x.rec_ with
    | some r => boundImage x.comps r.svn
    | none => [])

/-- An image bound under a record, tagged as slot `s`. -/
def boundSlot (s : Nat) (r : SlotRec) (cs : List FwComp) : FwSlot := tagSlot s { rec_ := some r, comps := cs }

/-- Bytes of a bound image: the header's block and each payload's. -/
def boundLen (cs : List FwComp) : Nat := 65536 + (cs.map fun c => roundUp c.payload.length 65536).sum

/-- The record of an image bound now. -/
def newRec (d : Dev) (st seq key svn : Nat) (recovered : Bool) (cs : List FwComp) : SlotRec :=
  { st := st, seq := seq, writes := 1, recovered := recovered, epoch := d.foot.epoch, key := key, svn := svn, len := boundLen cs,
    digest := sha3_256 (boundHeader cs svn), version := versionOf cs 1 }

/-- SEQ of the next image bound: one above the highest of the records that stand. -/
def nextSlotSeq (d : Dev) : Nat := (max (slotSeq d 0) (slotSeq d 1) + 1) % 2 ^ 64

/-! ### Gate images (R543) -/

/-- Write the sections of a gate image to their destinations, or zero those where its load failed (R524). Fields of a section entry
are words in the order named. -/
def gateSections (c : Nat) (zeroed : Bool) (b : Bytes) (d : Dev) : Dev :=
  let secs := (List.range 16).map fun i => (le b (16 * i) 4, le b (16 * i + 4) 4, le b (16 * i + 8) 4, le b (16 * i + 12) 4)
  let put := fun (t mask off : Nat) (bs : Bytes) (d : Dev) =>
    if t = 2 then wrt (spc d (clusterSpace c)) off bs d
    else loopN 8 (fun k d => if bitOf mask k then wrt (spc d (if t = 0 then instrSpace c k else coreSpace c k)) off bs d else d) d
  let r := secs.foldl (fun (a : Nat × Dev) s =>
    (a.1 + s.2.2.2, if s.2.2.2 = 0 then a.2 else put s.1 s.2.1 s.2.2.1 (if zeroed then zeros s.2.2.2 else slice b a.1 s.2.2.2) a.2)) (512, d)
  r.2

/-- Load a gate image's sections and start its cluster. -/
def loadGate (c : Nat) (b : Bytes) (d : Dev) : Dev :=
  loadCluster c (some ((List.range 64).map fun i => le b (256 + 4 * i) 4)) (gateSections c false b d)

/-- The measurement of a component (R255). -/
def compEntry (c : FwComp) : Comp := { id := c.id, svn := c.svn, version := c.version, digest := sha3_256 c.payload }

/-- Put measurement entries among the running ones, marking those that differ as changed in the period. -/
def noteComps (new : List Comp) (d : Dev) : Dev :=
  let merged := new.foldl (fun (l : List Comp) c =>
    let old := l.find? fun x => decide (x.id = c.id)
    let c := { c with untested := d.untested, changed := match old with
      | some o => o.changed || decide ((o.svn, o.version, o.digest) ≠ (c.svn, c.version, c.digest))
      | none => true }
    ((l.filter fun x => decide (x.id ≠ c.id)) ++ [c]).foldr (insertBy fun a b => decide (a.id ≤ b.id)) []) d.comps
  { d with comps := merged }

/-- Load a cluster's gate image at a boot or reload (R543): one whose tags fail leaves it without. -/
def bootGate (tagBad : List Nat) (c : Nat) (d : Dev) : Dev :=
  match (gateArea d c).rec_ with
  | none => loadCluster c none d
  | some r =>
    match (gateArea d c).comps.head? with
    | some x =>
      if tagBad.contains (2 + c) || decide (r.epoch < d.foot.epoch) then postDev 0xEE [BitVec.ofNat 8 c] (loadCluster c none d)
      else noteComps [{ compEntry x with id := 0x10 + c }] (loadGate c x.payload d)
    | none => loadCluster c none d

/-- Every cluster's gate image; none in RETURNED (R545). -/
def bootGates (tagBad : List Nat) (d : Dev) : Dev :=
  loopN (numClusters d.variant) (fun c d => if d.foot.lifecycle = 2 then loadCluster c none d else bootGate tagBad c d) d

/-! ### Boot (R519, R532, R537, R538) -/

/-- The ROM's measurement (R547): bit 63 of its VERSION is DEBUG_OPEN. -/
def romComp (d : Dev) : Comp :=
  { id := 0x100, version := le ((List.range 4).map (Config.freeByte 0x1700)) 0 4 + b2n (d.dbgPort || d.dbgCores) * 2 ^ 63,
    digest := (List.range 32).map (Config.freeByte 0x1701) }

/-- Hand over to the components loaded (R519 step 7). -/
def handover (cs : List FwComp) (untested : Bool) (tagBad : List Nat) (d : Dev) : Dev :=
  let abi := (testedEntry cs).getD (0, 0)
  let d := footU (fun x => { x with boot := .running, running := cs, abiMin := abi.1, abiMax := abi.2 }) { d with untested := untested }
  let d := noteComps (romComp d :: cs.map compEntry) { d with comps := [] }
  let d := bootGates tagBad d
  bootPins 0 false { d with comps := d.comps.map fun c => { c with changed := false } }

/-- Take a carrier in recovery (R537, R538, R545). -/
def recoveryTake (b : Bytes) (flash : Bool) (tagBad : List Nat) (d : Dev) : Dev :=
  let cs := carrierComps b
  let bad := match carrierRefusal d b with
    | some x => some x
    | none => if cs.length ≠ 4 then some 7 else if (testedEntry cs).isNone then some 11 else none
  match bad with
  | some x => footU (fun y => { y with refused := y.refused + 1, lastRefusal := some x }) d
  | none =>
    if d.foot.lifecycle = 2 then handover cs false [] (footU (fun y => { y with fromFlash := flash }) d)
    else
      let i := if slotSeq d 1 < slotSeq d 0 then 1 else 0
      let d := slotU i (fun _ => {}) d
      let d := slotU i (fun _ => boundSlot i (newRec d 1 (nextSlotSeq d) (u8 b 7) (le b 12 4) true cs) cs) d
      let n := d.foot.refused
      let d := handover cs false tagBad (footU (fun y => { y with runSlot := i, recovered := true }) d)
      postDev 0xEC ([BitVec.ofNat 8 i] ++ leBytes 4 n) d

/-- Enter recovery (R537): the recovery flash's carrier first, unless the management bus is forced. -/
def enterRecovery (primary : Nat) (forced : Bool) (tagBad : List Nat) (recovery : Bytes) (d : Dev) : Dev :=
  let d := footU (fun x => { x with boot := .recovery, primary := primary, forced := forced, refused := 0, lastRefusal := none,
                                    waitFrom := now d, gateBad := tagBad }) d
  let d := bootPins primary false d
  if d.foot.src ≠ 2 ∧ le recovery 0 4 = 0x52414342 then recoveryTake recovery true tagBad d else d

/-- Why a candidate slot fails before or while it loads (R532), as a cause. -/
def slotCause (d : Dev) (tagBad : List Nat) (i : Nat) (r : SlotRec) : Option Nat :=
  if bitOf d.foot.revoked r.key then some 8
  else if r.epoch < d.foot.epoch then some 6
  else if r.svn < d.foot.svn then some 9
  else if tagBad.contains i then some 5
  else none

/-- Try the candidate slots in order (R532): the slot that loads, and those passed over with their causes. -/
def trySlots (tagBad : List Nat) : List Nat → List (Nat × Nat) → Dev → Option Nat × List (Nat × Nat) × Dev
  | [], passed, d => (none, passed, d)
  | i :: rest, passed, d =>
    match (slot d i).rec_ with
    | none => trySlots tagBad rest passed d
    | some r =>
      if r.st = 2 ∧ r.tries = 3 then
        trySlots tagBad rest (passed ++ [(i, 0)]) (slotU i (recU fun r => { r with st := 3 }) d)
      else
        let d := if r.st = 2 then slotU i (recU fun r => { r with tries := r.tries + 1 }) d else d
        match slotCause d tagBad i r with
        | some c => trySlots tagBad rest (passed ++ [(i, c)]) d
        | none => (some i, passed, d)

/-- The candidate slots, highest SEQ first. -/
def candidates (d : Dev) : List Nat :=
  let l := [0, 1].filter fun i => [1, 2].contains (slotSt d i)
  if slotSeq d 0 < slotSeq d 1 then l.reverse else l

/-- Step 5 on (R519, R532, R544): choose, load, check, hand over. -/
def bootSlot (flashOk : Bool) (tagBad : List Nat) (recovery : Bytes) (d : Dev) : Dev :=
  if d.foot.lifecycle = 2 then enterRecovery 0 true tagBad recovery d
  else if !flashOk then halt 3 d
  else if d.foot.src = 1 ∨ d.foot.src = 2 then enterRecovery 0 true tagBad recovery d
  else
    let r := trySlots tagBad (candidates d) [] d
    let d := r.2.2
    match r.1 with
    | none => enterRecovery (match r.2.1.head? with
        | some x => x.2
        | none => 4) false tagBad recovery d
    | some i =>
      let cs := (slot d i).comps
      let allow := match (slot d i).rec_ with
        | some r => r.untested
        | none => false
      let d := footU (fun x => { x with runSlot := i, fallback := decide (r.2.1 ≠ []), fbCause := match r.2.1.head? with
        | some y => y.2
        | none => 0 }) d
      if (testedEntry cs).isNone ∧ !allow then halt 11 d
      else
        let d := handover cs ((testedEntry cs).isNone) tagBad d
        r.2.1.foldl (fun d x => postDev 0xEB [BitVec.ofNat 8 x.1, BitVec.ofNat 8 x.2] d) d

/-- Whether the debug token held is valid: its scope, else 0 (R546). -/
def tokenScope (d : Dev) : Nat :=
  let b := d.foot.token
  let spki := spkiOf (keyOf 0 (sDev d))
  if b.length = 5536 && decide (le b 0 4 = 0x54424442) && decide (le b 4 2 = 1) && decide (u8 b 6 ≤ 3) && decide (u8 b 7 ≤ 3) &&
      decide (slice b 8 16 = (List.range 16).map Config.serial) && decide (slice b 24 32 = sha3_256 spki) && zeroAt b 56 8 &&
      signedOk b (u8 b 6) 64 && !(bitOf d.foot.revoked (u8 b 6)) then u8 b 7 else 0

/-- The calibration table at boot (R141, R142): the valid image with the higher VERSION; `bad` names the sectors whose image
is not valid. With none valid FLASH_ERR is set. -/
def calBoot (bad : List Nat) (d : Dev) : Dev :=
  let at_ (i : Nat) : Option CalImg := if bad.contains i then none else (d.calSect.getD i none)
  let take (i : Nat) (img : CalImg) : Dev := calRegs { d with cal := some img, calSect := setAt [none, none] i (some img) }
  match at_ 0, at_ 1 with
  | some a, some b => if a.version < b.version then take 1 b else take 0 a
  | some a, none => take 0 a
  | none, some b => take 1 b
  | none, none =>
    let (n, d) := fresh d
    postDev 0x39 (leBytes 1 (n % 2) ++ leBytes 1 2) (bitW 0xF00010 2 true (calRegs { d with cal := none }))

/-- COLD_BOOT (R517, R519, R544, R546): BOOT_SRC, and what the self-tests, the fuses' check, the primary flash, the block tags,
the recovery flash and the calibration sectors hold. -/
def execColdBoot (src : Nat) (aonOk romOk fuseOk flashOk : Bool) (tagBad : List Nat) (recovery : Bytes)
    (calBad : List Nat) (s : State) : Host.Outcome State Fault Refusal :=
  lift (fun d =>
    if d.foot.boot ≠ .held then d
    else
      let d := footU (fun x => { x with src := src % 4, boots := (x.boots + 1) % 2 ^ 32 }) d
      if !aonOk then halt 1 d
      else if !romOk then halt 13 d
      else if !fuseOk then halt 2 d
      else
        let d := calBoot calBad d
        let d := footU (fun x => { x with lifecycle := x.lcNext.getD x.lifecycle, lcNext := none }) d
        if 2 < d.foot.lifecycle then halt 10 d
        else
          let sc := if d.foot.lifecycle = 1 then tokenScope d else 3
          let d := { d with dbgPort := bitOf sc 0, dbgCores := bitOf sc 1 }
          if d.foot.pg then bootSlot flashOk tagBad recovery d
          else bootPins 0 false (footU (fun x => { x with boot := .waitPg }) d)) s

/-- PG_RISE (R584): footing starts or restarts step 5. -/
def execPgRise (flashOk : Bool) (tagBad : List Nat) (recovery : Bytes) (s : State) : Host.Outcome State Fault Refusal :=
  lift (fun d =>
    if d.foot.pg || d.tripped then d
    else
      let d := footU (fun x => { x with pg := true }) d
      if d.foot.boot = .waitPg then bootSlot flashOk tagBad recovery d else d) s

/-- RECOVERY_CARRIER (R537, R538): a carrier offered on the management bus. -/
def execRecoveryCarrier (bytes : Bytes) (s : State) : Host.Outcome State Fault Refusal :=
  lift (fun d => if d.foot.boot = .recovery then recoveryTake bytes false d.foot.gateBad d else d) s

/-- RECOVERY_TIMEOUT (R538): 600 s have passed. -/
def execRecoveryTimeout (s : State) : Host.Outcome State Fault Refusal :=
  lift (fun d =>
    if d.foot.boot = .recovery ∧ d.foot.waitFrom + 600000000000 ≤ now d then
      halt (match d.foot.lastRefusal with
        | some x => x
        | none => if d.foot.forced then 12 else d.foot.primary) d
    else d) s

/-! ### Power (R519, R554, R585) -/

/-- Every switchable domain's contents are lost: DRAM, cluster memories, packet windows, the packet buffer (R266, R428). -/
def loseContents (d : Dev) : Dev :=
  let d := loseSpace pbSpace (loseSpace dramSpace d)
  let d := loopN 6 (fun c d =>
    let d := loopN 8 (fun k d => loseSpace (instrSpace c k) (loseSpace (coreSpace c k) d)) (loseSpace (clusterSpace c) d)
    loopN 64 (fun t d => loseSpace (windowSpace c t) d) d) d
  ledU (fun l => { l with wbuf := [] }) d

/-- The journal after its units have lost what they hold (R266): nothing that was not durable is left; the opening counter stands
in flash (R267). -/
def journalLost (d : Dev) : Wit := { opening := d.wit.opening, offFrom := toR17 (str d 0).t }

/-- Main power is gone (R570, R585): everything in the switchable domains stops, the always-on one runs on. -/
def powerLost (d : Dev) : Dev :=
  let d := footU (fun x => { x with needReset := true }) d
  let d := { d with power := false, xings := [], egqs := [], pkts := [], deepQ := [], dramQ := [], copies := [], wit := journalLost d }
  loseContents d

/-- PG_FALL (R584, R585): before handover footing stops loading, after it every switchable domain loses power and MAIN_POWER is
logged. -/
def execPgFall (cause : Nat) (s : State) : Host.Outcome State Fault Refusal :=
  lift (fun d =>
    if !d.foot.pg || decide (2 < cause) then d
    else
      let d := footU (fun x => { x with pg := false }) d
      if d.foot.boot = .recovery then bootPins 0 false (footU (fun x => { x with boot := .waitPg }) d)
      else if d.foot.boot = .running then logErr 2 0xFE (0xFC00 + cause) [] (powerLost d)
      else d) s

/-- BRIDGE_BRINGUP (R519, R447, R554): the bridge brings up DRAM and the islands. -/
def execBridgeBringup (tr : List ChTrain) (s : State) : Host.Outcome State Fault Refusal :=
  lift (fun d =>
    if d.foot.boot = .running && d.foot.pg && !d.power && !d.fatal && !d.foot.needReset then
      let d := dramBoot tr { d with power := true }
      let d := ((List.range 4).filter fun f => fnPresent d f).foldl (fun d f => fnU f (fun x => { x with ready := true }) d) d
      let d := loopN 4 (fun n d => drvFollow n 0 d) d
      if islandOn d (gIsland 0) && decide (chanCount d ≠ 0) then setHealthy true d else d
    else d) s

/-! ### Commands (R549) -/

/-- The status of a footing command: PF0's admin queue alone. -/
def footStatus (c : Cmd) (used : List (Nat × Nat)) (badParam : Bool) (late : List (Bool × Nat)) : Nat :=
  firstStatus ([(decide (c.fn ≠ 0) || (cmdSelf c).isNone, stNotPermitted), (!(reservedOk c used) || badParam, stBadParam)] ++ late)

/-- Device address of the download buffer (R549): the last 32 MiB of cluster 0's window. -/
def dlBase (d : Dev) : Nat := windowBase d 0 + 2 ^ 30 - 2 ^ 25

/-- FW_DOWNLOAD (R549). -/
def execFwDownload (c : Cmd) (s : State) : Host.Outcome State Fault Refusal :=
  lift (fun d =>
    let off := c.f 20 4
    let len := c.f 40 4
    checked c (footStatus c [(20, 4), (24, 8), (40, 4)] (decide (off % 4096 ≠ 0) || decide (len < 4 ∨ 2 ^ 20 < len) || decide (2 ^ 25 < off + len))
        [(decide (chanCount d = 0), stUnitOff)])
      (fun d => completeSt c 0 (wrt (spc d dramSpace) (dlBase d + off) (dmaRead d 0 (c.f 24 8) len) d)) d) s

/-- Whether the running slot is a TRIAL one. -/
def runTrial (d : Dev) : Bool := decide (d.foot.lifecycle ≠ 2) && decide (slotSt d d.foot.runSlot = 2)

/-- Bind a firmware carrier into the slot that does not run (R528, R533): its refusal status, or the slot and its SEQ. -/
def bindFirmware (b : Bytes) (copyBad : Bool) (d : Dev) : Nat × Nat × Dev :=
  match carrierRefusal d b with
  | some x => (refusalStatus x, 0, d)
  | none =>
    let i := 1 - d.foot.runSlot
    let own := carrierComps b
    let cs := [1, 2, 3, 4].filterMap fun id => match compOf own id with
      | some c => some c
      | none => compOf (slot d d.foot.runSlot).comps id
    let d := slotU i (fun _ => {}) d
    if copyBad && decide (own.length < 4) then (0x2C, 0, d)
    else
      let seq := nextSlotSeq d
      (0, i + 256 * (seq % 2 ^ 24), slotU i (fun _ => boundSlot i (newRec d 2 seq (u8 b 7) (le b 12 4) false cs) cs) d)

/-- Bind a gate image into a cluster's area (R543). -/
def bindGate (b : Bytes) (c : Nat) (d : Dev) : Nat × Nat × Dev :=
  if !(carrierForm b 2) || !(digestsOk b) then (0x29, 0, d)
  else
    let cs := carrierComps b
    let w := match (gateArea d c).rec_ with
      | some r => r.writes
      | none => 0
    (0, c, gateAreaU c (fun _ => boundSlot (2 + c) { newRec d 1 0 0xFF (le b 12 4) false cs with writes := (w + 1) % 2 ^ 32, version := versionOf cs 0x10 } cs) d)

/-- FW_BIND (R528, R543, R549): `copyBad` says that a block copied from the running slot fails its tag. -/
def execFwBind (c : Cmd) (copyBad : Bool) (s : State) : Host.Outcome State Fault Refusal :=
  lift (fun d =>
    let target := c.f 17 1
    let cl := c.f 18 1
    let len := c.f 40 4
    checked c (footStatus c [(17, 1), (18, 1), (40, 4)] (decide (1 < target) || decide (24 * 2 ^ 20 - 65536 < len) ||
          (decide (target = 0) && decide (cl ≠ 0)) || (decide (target = 1) && (decide (5 < cl) || decide (2 ^ 21 < len))))
        [(decide (target = 1) && decide (numClusters d.variant ≤ cl), stAbsent), (decide (chanCount d = 0), stUnitOff),
         (runTrial d || decide (d.foot.lifecycle = 2), stBadState)])
      (fun d =>
        let b := rd d (spc d dramSpace) (dlBase d) len
        let r := if target = 0 then bindFirmware b copyBad d else bindGate b cl d
        complete c r.1 r.2.1 r.2.2) d) s

/-- FOOT_FUSE_CHANGED (R550). -/
def fuseChanged (what v : Nat) (d : Dev) : Dev := postDev 0xED [BitVec.ofNat 8 what, BitVec.ofNat 8 v] d

/-- FW_CONFIRM (R533). -/
def execFwConfirm (c : Cmd) (s : State) : Host.Outcome State Fault Refusal :=
  lift (fun d =>
    checked c (footStatus c [] false [(!(runTrial d), stBadState)])
      (fun d =>
        let i := d.foot.runSlot
        let d := slotU i (recU fun r => { r with st := 1 }) d
        let d := if slotSt d (1 - i) = 1 then slotU (1 - i) (recU fun r => { r with st := 3 }) d else d
        completeSt c 0 d) d) s

/-- FW_SVN_COMMIT (R534). -/
def execFwSvnCommit (c : Cmd) (s : State) : Host.Outcome State Fault Refusal :=
  lift (fun d =>
    checked c (footStatus c [] false [(decide (d.foot.lifecycle = 2) || decide (slotSt d d.foot.runSlot ≠ 1), stBadState)])
      (fun d =>
        let v := match (slot d d.foot.runSlot).rec_ with
          | some r => min r.svn 63
          | none => 0
        let d := if d.foot.svn < v then fuseChanged 0 v (footU (fun x => { x with svn := v }) d) else d
        completeSt c 0 d) d) s

/-- FOOT_EPOCH_ADVANCE (R535): `bad` names the slots (0, 1) and gate areas (2 + c) whose blocks fail their present tags. -/
def execFootEpochAdvance (c : Cmd) (bad : List Nat) (s : State) : Host.Outcome State Fault Refusal :=
  lift (fun d =>
    let e := d.foot.epoch
    checked c (footStatus c [(20, 4)] (decide (c.f 20 4 ≠ e + 1)) [(decide (15 ≤ e) || decide (d.foot.lifecycle = 2), stBadState)])
      (fun d =>
        let retag := fun (i : Nat) (s : FwSlot) =>
          match s.rec_ with
          | some r =>
            if [1, 2].contains r.st && !(bad.contains i) && decide (r.epoch = e) then
              tagSlot i (recU (fun r => { r with epoch := e + 1, table := !r.table }) s) else s
          | none => s
        let d := slotU 1 (retag 1) (slotU 0 (retag 0) d)
        let d := loopN (numClusters d.variant) (fun g d => gateAreaU g (retag (2 + g)) d) d
        completeSt c 0 (fuseChanged 1 (e + 1) (footU (fun x => { x with epoch := e + 1 }) d))) d) s

/-- FOOT_KEY_REVOKE (R536). -/
def execFootKeyRevoke (c : Cmd) (s : State) : Host.Outcome State Fault Refusal :=
  lift (fun d =>
    let k := c.f 17 1
    let users := [0, 1].filter fun i => [1, 2].contains (slotSt d i)
    let all := decide (users ≠ []) && users.all fun i => match (slot d i).rec_ with
      | some r => decide (r.key = k)
      | none => false
    let after := d.foot.revoked ||| 2 ^ k
    checked c (footStatus c [(17, 1), (20, 4)] (decide (3 < k) || decide (c.f 20 4 ≠ le ((List.range 4).map (Config.vendorKeyHash k)) 0 4))
        [(decide (after % 16 = 15) || all, stBadState)])
      (fun d =>
        let d := if bitOf d.foot.revoked k then d else fuseChanged 2 k (footU (fun x => { x with revoked := after }) d)
        completeSt c 0 d) d) s

/-- FOOT_LIFECYCLE (R544). -/
def execFootLifecycle (c : Cmd) (s : State) : Host.Outcome State Fault Refusal :=
  lift (fun d =>
    let t := c.f 17 1
    let l := d.foot.lifecycle
    let ok := (decide (t = 1) && decide (l = 0)) || (decide (t = 2) && decide (l = 1)) || (decide (t = 3) && decide (l ≤ 2))
    let tok := dmaRead d 0 (c.f 24 8) 5536
    checked c (footStatus c [(17, 1), (20, 4), (24, 8)] (decide (t = 0 ∨ 3 < t) || (decide (t = 3) && decide (c.f 20 4 ≠ 0x4D434544)))
        [(decide (t ≠ 3) && !(Config.lifecycleToken t tok), 0x29), (!ok, stBadState)])
      (fun d => completeSt c 0 (fuseChanged 3 t (footU (fun x => { x with lcNext := some t }) d))) d) s

/-- FOOT_DEBUG_TOKEN (R546, R549). -/
def execFootDebugToken (c : Cmd) (s : State) : Host.Outcome State Fault Refusal :=
  lift (fun d =>
    let op := c.f 17 1
    checked c (footStatus c [(17, 1), (24, 8)] (decide (1 < op)) [])
      (fun d => completeSt c 0 (footU (fun x => { x with token := if op = 0 then dmaRead d 0 (c.f 24 8) 5536 else [] }) d)) d) s

/-- FW_DRIVER_ABI (R542): any function may issue it. -/
def execFwDriverAbi (c : Cmd) (s : State) : Host.Outcome State Fault Refusal :=
  lift (fun d =>
    let a := c.f 20 2
    checked c (firstStatus [((cmdSelf c).isNone, stNotPermitted), (!(reservedOk c [(20, 2)]), stBadParam),
        (!d.untested && decide (a < d.foot.abiMin ∨ d.foot.abiMax < a), 0x28)])
      (fun d => completeSt c 0 d) d) s

end Sys2Proof.Machine
end

