-- ==== Sys2Proof/Machine/Activate.lean ====
section
/-! DEFINITION. Activation (R436, R543), the NVMe firmware commands (R435, R549) and log pages (R416). -/

namespace Sys2Proof.Machine
open Sys2Proof

/-- Change what runs: with the journal open, the open ashlar and a capstone are cut first, under the Alias keys as they were (R239,
R261); where the keys change the next capstone carries CERT. -/
def changeRunning (f : Dev → Dev) (d : Dev) : Dev :=
  if witOpen d then
    let e := f (cutAshlar true d)
    if aliasM e ≠ aliasM d then witU (fun w => { w with certDue := true }) e else e
  else f d

/-- Set CSTS.PP on both controllers, or clear it and fetch again (R436). -/
def pauseLedger (on : Bool) (d : Dev) : Dev :=
  let d := bitW (cstsKey 3) 5 on (bitW (cstsKey 1) 5 on d)
  if on then d else ctrlGo 3 (ctrlGo 1 d)

/-- Whether both controllers have completed every fetched command. -/
def ledgerDrained (d : Dev) : Bool := [1, 3].all fun pf => decide ((ctrl d pf).fetched = [] ∧ (ctrl d pf).outs = [])

/-- The NVMe status of a footing status (R435; the others PRESUMED, log entry 50). -/
def nvmeOfFoot (st : Nat) : Nat :=
  if st = 0 then 0 else if st = 0x28 then 0x113 else if st = stBadState then 0x0C else if st = 0x2C then 0x06
  else if st = stBadParam then nsInvalidField else 0x107

/-- An activation ends: its command completes. -/
def actDone (j : ActJob) (st : Nat) (d : Dev) : Dev :=
  let d := footU (fun x => { x with act := none }) d
  match j.nvme with
  | some q => nvmeEnd 1 q 0 (nvmeOfFoot st) d
  | none => if j.mgmt then d else completeHeld j.held st 0 d

/-- Components replaced so far by an activation of a firmware slot take their place among those that run. -/
def actComps (j : ActJob) (all : Bool) (d : Dev) : Dev :=
  let cs := (slot d j.idx).comps
  let ids := (if j.done ≠ [] then [2] else []) ++ (if j.done.contains 0 then [3] else []) ++ (if all then [1, 4] else [])
  let new := cs.filter fun c => ids.contains c.id
  let run := new ++ d.foot.running.filter fun c => !(new.any fun n => decide (n.id = c.id))
  let abi := (testedEntry run).getD (0, 0)
  (if ids = [] then id else changeRunning) (fun d =>
    let d := if all then { d with untested := j.untested } else d
    let d := footU (fun x => { x with running := run, abiMin := if all then abi.1 else x.abiMin, abiMax := if all then abi.2 else x.abiMax,
                                      runSlot := if all then j.idx else x.runSlot }) d
    noteComps (new.map compEntry) d) d

/-- Take up a cluster of an activation: one that is off loads when it returns, cluster 0 drains the ledger first, any other is
released (R436, R493, R543). Answers the job as it then stands. -/
def actRelease (j : ActJob) (d : Dev) : Dev :=
  let mine := !(d.released.contains j.cl)
  footU (fun x => { x with act := some { j with phase := 1, mine := mine } }) (releaseCluster j.cl d)

/-- The activation goes on with cluster `cl`, or after cluster 0 with the bridge. -/
def actEnter : Nat → ActJob → Dev → Dev
  | 0, j, d => footU (fun x => { x with act := some j }) d
  | k + 1, j, d =>
    if !(islandOn d (gIsland j.cl)) then
      if j.cl = 0 then actDone j stUnitOff d else actEnter k { j with cl := j.cl - 1 } d
    else if j.cl = 0 ∧ !j.gate ∧ d.variant ≠ .m then
      footU (fun x => { x with act := some { j with phase := 0 } }) (pauseLedger true d)
    else actRelease j d

/-- A cluster of an activation is empty: its components are loaded and it is returned, or the load fails (R543). -/
def actLoad (j : ActJob) (d : Dev) : Dev :=
  let c := j.cl
  let d := if j.mine then postDev 0xAA (leBytes 1 c ++ leBytes 1 0) d else d
  let back := fun (d : Dev) =>
    let d := if j.mine then postDev 0xAA (leBytes 1 c ++ leBytes 1 1) (returnCluster c d) else d
    if c = 0 ∧ !j.gate ∧ d.variant ≠ .m then pauseLedger false d else d
  if j.gate then
    match (gateArea d c).comps.head? with
    | some x =>
      let old := match (gateArea d c).rec_ with
        | some r => decide (r.epoch < d.foot.epoch)
        | none => true
      if j.fail = some c ∨ old = true then actDone j 0x2C (back (loadCluster c none (gateSections c true x.payload d)))
      else
        let d := back (noteComps [{ compEntry x with id := 0x10 + c }] (loadGate c x.payload d))
        actDone j 0 (postDev 0xEA ([BitVec.ofNat 8 c] ++ leBytes 4 0 ++ [0]) d)
    | none => actDone j stBadState (back d)
  else if j.fail = some c then actDone j 0x2C (actComps j false (back d))
  else
    let j := { j with done := j.done ++ [c] }
    let d := back d
    if c ≠ 0 then actEnter 6 { j with cl := c - 1 } d
    else if j.fail = some 6 then actDone j 0x2C (actComps j false d)
    else
      let seq := slotSeq d j.idx
      actDone j 0 (postDev 0xEA ([BitVec.ofNat 8 j.idx] ++ leBytes 4 seq ++ [BitVec.ofNat 8 (b2n j.untested)]) (actComps j true d))

/-- Write the records an activation of a slot writes (R533, R541): a TRIAL slot counts a try, another TRIAL slot is retired. -/
def actRecords (i : Nat) (untested : Bool) (d : Dev) : Dev :=
  let d := slotU i (recU fun r => { r with tries := if r.st = 2 then min 3 (r.tries + 1) else r.tries, untested := untested }) d
  if slotSt d (1 - i) = 2 then slotU (1 - i) (recU fun r => { r with st := 3 }) d else d

/-- What stands in the way of activating a slot (R541, R549): BAD_STATE, FLASH_ERROR under a revoked epoch, UNTESTED. -/
def actStatus (d : Dev) (i : Nat) (allow : Bool) : Nat :=
  match (slot d i).rec_ with
  | none => stBadState
  | some r =>
    if d.foot.lifecycle = 2 ∨ ¬ [1, 2].contains r.st then stBadState
    else if r.epoch < d.foot.epoch then 0x2C
    else if (testedEntry (slot d i).comps).isNone ∧ !allow then 0x28
    else 0

/-- Start the activation of a slot that `actStatus` allows; with AT_RESET only the records are written. -/
def actSlot (j : ActJob) (atReset : Bool) (d : Dev) : Dev :=
  let unt := (testedEntry (slot d j.idx).comps).isNone
  let d := actRecords j.idx unt d
  if atReset then actDone j 0 d
  else
    let top := numClusters d.variant - 1
    actEnter (top + 1) { j with untested := unt, cl := top } d

/-- Execute an FW_ACTIVATE that has been taken. -/
def activate (h : Held) (fail : Option Nat) (d : Dev) : Dev :=
  let c := h.cmd
  let i := c.f 18 1
  let j : ActJob := { held := h, gate := decide (c.f 17 1 = 1), idx := i, untested := false, fail := fail, cl := i, phase := 0, mine := false }
  if j.gate then
    if (gateArea d i).rec_.isNone ∨ d.foot.lifecycle = 2 then actDone j stBadState d
    else if bitOf (c.f 19 1) 1 then actDone j 0 d
    else actEnter 1 j d
  else
    let st := actStatus d i (bitOf (c.f 19 1) 0)
    if st ≠ 0 then actDone j st d else actSlot j (bitOf (c.f 19 1) 1) d

/-- Run the activations that waited, until one runs on. -/
def runActs : Nat → Dev → Dev
  | 0, d => d
  | k + 1, d =>
    match d.foot.act, d.foot.actQ with
    | none, x :: rest => runActs k (activate x.1 x.2 (footU (fun y => { y with actQ := rest }) d))
    | _, _ => d

/-- FW_ACTIVATE (R541, R543, R549): `fail` names the load that fails its tags, a cluster or 6 for the bridge. -/
def execFwActivate (c : Cmd) (fail : Option Nat) (s : State) : Host.Outcome State Fault Refusal :=
  lift (fun d =>
    let gate := decide (c.f 17 1 = 1)
    let i := c.f 18 1
    checked c (footStatus c [(17, 1), (18, 1), (19, 1)]
        (decide (1 < c.f 17 1) || decide (3 < c.f 19 1) || (!gate && decide (1 < i)) || (gate && decide (5 < i)))
        [(gate && decide (unitStatus d (gIsland i) ≠ 0), unitStatus d (gIsland i))])
      (fun d =>
        let d := footU (fun x => { x with actQ := x.actQ ++ [(hold d c, fail)] }) (noteHeld c d)
        runActs d.foot.actQ.length d) d) s

/-- GIVIK_RELEASED (R493, R543): a released cluster holds no work item, or the ledger has drained (R436). -/
def execGivikReleased (c : Nat) (s : State) : Host.Outcome State Fault Refusal :=
  lift (fun d =>
    let d := clusterEmpty c d
    match d.foot.act with
    | none => d
    | some j =>
      if j.cl ≠ c then d
      else if j.phase = 0 then (if ledgerDrained d then actRelease j d else d)
      else if holdsItem d c then d
      else
        let d := actLoad j d
        runActs d.foot.actQ.length d) s

/-! ### NVMe firmware commands and log pages -/

/-- FIRMWARE_IMAGE_DOWNLOAD (R435, R549): as FW_DOWNLOAD. -/
def execFirmwareImageDownload (pf n : Nat) (s : State) : Host.Outcome State Fault Refusal :=
  lift (withCmd pf n 0x11 false (simple pf fun q d =>
    let len := 4 * (cdw q 10 + 1)
    let off := 4 * cdw q 11
    if pf ≠ 1 ∨ off % 4096 ≠ 0 ∨ 2 ^ 20 < len ∨ 2 ^ 25 < off + len ∨ chanCount d = 0 then (0, nsInvalidField, d)
    else takes pf q len (fun bs d => (0, 0, wrt (spc d dramSpace) (dlBase d + off) bs d)) d)) s

/-- FIRMWARE_COMMIT (R435, R549): as FW_BIND of the carrier downloaded, then FW_ACTIVATE; action 0 only binds, actions 1 and 2 set
AT_RESET. -/
def execFirmwareCommit (pf n : Nat) (copyBad : Bool) (fail : Option Nat) (s : State) : Host.Outcome State Fault Refusal :=
  lift (withCmd pf n 0x10 false (fun q d =>
    let fs := cdw q 10 % 8
    let ca := bitsOf (cdw q 10) 5 3
    let bad := fun (st : Nat) (d : Dev) => some (nvmeEnd pf q 0 st d)
    if pf ≠ 1 ∨ 3 < ca then bad nsInvalidField d
    else if 2 < fs ∨ fs = d.foot.runSlot + 1 then bad 0x106 d
    else if runTrial d = true ∨ d.foot.lifecycle = 2 ∨ d.foot.act.isSome = true ∨ chanCount d = 0 then bad 0x0C d
    else
      let len := min (le (rd d (spc d dramSpace) (dlBase d) 12) 8 4) (24 * 2 ^ 20 - 65536)
      let r := bindFirmware (rd d (spc d dramSpace) (dlBase d) len) copyBad d
      if r.1 ≠ 0 then bad (nvmeOfFoot r.1) r.2.2
      else if ca = 0 then bad 0 r.2.2
      else
        let d := r.2.2
        let i := 1 - d.foot.runSlot
        let st := actStatus d i false
        if st ≠ 0 then bad (nvmeOfFoot st) d
        else
          let j : ActJob := { held := ⟨{ fn := 1 }, 0⟩, gate := false, idx := i, untested := false, fail := fail, cl := 0, phase := 0,
                              mine := false, nvme := some q }
          some (actSlot j (decide (ca ≠ 3)) d))) s

/-- GET_LOG_PAGE (R416, R431): Error Information, SMART / Health, Firmware Slot Information, Device Self-test. -/
def execGetLogPage (pf n : Nat) (s : State) : Host.Outcome State Fault Refusal :=
  lift (withCmd pf n 0x02 false (simple pf fun q d =>
    let len := 4 * (cdw q 10 / 65536 + 65536 * (cdw q 11 % 65536) + 1)
    let off := le q.bytes 48 8
    let page := match cdw q 10 % 256 with
      | 0x01 => some (padTo 4096 (ctrl d pf).errLog.flatten)
      | 0x02 => some (nvmeFree nmSmart 512)
      | 0x03 => some (patch (nvmeFree nmFwLog 512) 0 (leBytes 1 (d.foot.runSlot + 1)))
      | 0x06 => some (padTo 564 (leBytes 1 (match d.ledger.test with
          | some t => t.stc
          | none => 0) ++ nvmeFree nmSmart 1 ++ zeros 2 ++ d.ledger.results.flatten))
      | _ => none
    match page with
    | none => (0, 0x109, d)
    | some b => if off % 4 ≠ 0 ∨ b.length < off then (0, nsInvalidField, d)
      else returns pf q (slice b off (min len 65536)) d)) s

end Sys2Proof.Machine
end

