-- ==== Sys2Proof/Machine/Groups.lean ====
section
/-! DEFINITION. Commit groups (R37) and the units whose registers a key names (R11, R12, R43). -/

namespace Sys2Proof.Machine

/-- The commit groups as (first base, number, stride), by block (R37): BRG; TIME's strings, inputs and outputs, lock groups
(R98); port pages; PARSE groups 0 and 1; CLASS groups 0 to 2; courses; WIT; SCHED pages and the admission group; plumb
groups; QMGR; gate group and cluster groups; map group and channel groups; LEDG; HOST group 0 and peer groups; FOOT;
CAL. -/
def groupRows : List (Nat × Nat × Nat) := [
  (0, 1, 0), (0x100000, 10, 0x1000), (0x200000, 48, 0x1000), (0x300000, 2, 0x1000), (0x400000, 3, 0x1000), (0x500000, 4, 0x1000),
  (0x600000, 1, 0), (0x700000, 48, 0x4000), (0x7C0000, 1, 0), (0x800000, 64, 0x1000), (0x900000, 1, 0), (0xA00000, 7, 0x1000),
  (0xB00000, 9, 0x1000), (0xC00000, 1, 0), (0xD00000, 5, 0x1000), (0xE00000, 1, 0), (0xF00000, 1, 0)]

/-- Every group's base. -/
def groupBases : List Nat := groupRows.flatMap fun r => (List.range r.2.1).map fun i => r.1 + i * r.2.2

/-- Whether a key is a group's base, and the group's number in its block (R37). -/
def isGroup (b : Nat) : Bool := groupRows.any fun r =>
  decide (r.1 ≤ b) && (if r.2.2 = 0 then decide (b = r.1) else decide ((b - r.1) % r.2.2 = 0) && decide ((b - r.1) / r.2.2 < r.2.1))

def groupNum (b : Nat) : Nat :=
  match groupRows.find? fun r => decide (r.1 ≤ b) && (if r.2.2 = 0 then decide (b = r.1) else
      decide ((b - r.1) % r.2.2 = 0) && decide ((b - r.1) / r.2.2 < r.2.1)) with
  | some r => if r.2.2 = 0 then (if r.1 = 0x7C0000 then 48 else 0) else (b - r.1) / r.2.2
  | none => 0

/-- The group a key of the device map belongs to. -/
def groupOf (k : Nat) : Nat :=
  match groupRows.find? fun r => decide (r.1 ≤ k) && decide (k / 2 ^ 20 = r.1 / 2 ^ 20) &&
      (if r.2.2 = 0 then true else decide ((k - r.1) / r.2.2 < r.2.1)) &&
      !(decide (r.1 = 0x700000) && decide (0x7C0000 ≤ k)) with
  | some r => if r.2.2 = 0 then r.1 else r.1 + (k - r.1) / r.2.2 * r.2.2
  | none => 2 ^ 40

/-- The present ones of `n` islands from `first` on. -/
def islandsFrom (v : Variant) (first n : Nat) : List Nat := ((List.range n).map (first + ·)).filter (islandPresent v)

/-- The unit a key of the device map belongs to: whether the variant has it, and the islands of which one must be ON for it
to answer, none for the always-on domain (R43). What several islands hold together answers while one of them is ON. -/
def unitOf (d : Dev) (k : Nat) : Bool × List Nat :=
  let v := d.variant
  let o := k % 2 ^ 20
  match k / 2 ^ 20 with
  | 1 =>
    if o < 0x8000 then (decide (o / 0x1000 < numStrings v), [])
    else (true, [])
  | 2 => (decide (o / 0x1000 < 48) && portPresent v (o / 0x1000), [portIsland (o / 0x1000)])
  | 3 =>
    let both := islandsFrom v 9 6 ++ islandsFrom v 24 2
    if 0x100 ≤ o ∧ o < 0x1C0 then (portPresent v ((o - 0x100) / 4), both)
    else if 0x800 ≤ o ∧ o < 0x980 then (islandPresent v (ipIsland ((o - 0x800) / 0x40)), [ipIsland ((o - 0x800) / 0x40)])
    else if 0xA00 ≤ o ∧ o < 0xA80 then (decide ((o - 0xA00) / 0x20 < numDeep v), [tableIsland ((o - 0xA00) / 0x20 / 2)])
    else (true, both)
  | 4 => (true, islandsFrom v 9 6 ++ islandsFrom v 24 2)
  | 5 => (decide (o / 0x1000 < numCourses v), [csIsland])
  | 6 => (hasWitness v, if islandPresent v 22 then [21, 22] else [21])
  | 7 =>
    if o < 0xC0000 then (portPresent v (o / 0x4000), [epIsland (egressPipe d (o / 0x4000))])
    else (true, islandsFrom v 15 6)
  | 8 => (true, islandsFrom v 15 6)
  | 9 => (true, islandsFrom v 42 2)
  | 10 =>
    if 0x1000 ≤ o ∧ o < 0x7000 then (decide (o / 0x1000 - 1 < numClusters v), [gIsland (o / 0x1000 - 1)])
    else (true, islandsFrom v 28 6)
  | 11 =>
    if 0x1000 ≤ o ∧ o < 0x9000 then (decide (o / 0x1000 - 1 < numChannels v), [mIsland (o / 0x1000 - 1)])
    else (true, islandsFrom v 34 8)
  | 12 =>
    if !(hasLedger v) then (false, [])
    else if 0x100 ≤ o ∧ o < 0x180 then (decide ((o - 0x100) / 0x20 < numDrives v), [dIsland ((o - 0x100) / 0x20)])
    else if 0x1000 ≤ o ∧ o < 0x1100 then (decide ((o - 0x1000) / 0x40 < numDrives v), [dIsland ((o - 0x1000) / 0x40)])
    else (true, [48])
  | 13 =>
    if 0x1000 ≤ o ∧ o < 0x5000 then
      (fnExists v (o / 0x1000 - 1) && !(decide (o / 0x1000 % 2 = 0) && !(hasLedger v)), [hIsland (fnPort (o / 0x1000 - 1))])
    else if (0x10 ≤ o ∧ o < 0x18) then (decide ((o - 0x10) / 4 < numHosts v), [hIsland ((o - 0x10) / 4)])
    else if 0x100 ≤ o ∧ o < 0x180 then (decide ((o - 0x100) / 0x40 < numHosts v), [hIsland ((o - 0x100) / 0x40)])
    else if 0x80000 ≤ o ∧ o < 0x90000 then
      (fnExists v ((o - 0x80000) / 0x40), [hIsland (fnPort ((o - 0x80000) / 0x40))])
    else if o < 0x1000 then (true, islandsFrom v 42 2)
    else (true, [])
  | _ => (true, [])

/-- How a register answers: 0 it works, 1 its unit is absent (R11), 2 its unit is off (R12). -/
def regState (d : Dev) (k : Nat) : Nat :=
  let u := unitOf d k
  if !u.1 then 1 else if u.2.isEmpty || u.2.any (islandOn d) then 0 else 2

/-- The groups of an island, whose LOCK a reset of the island clears (R37). -/
def islandGroups (n : Nat) : List Nat :=
  if 1 ≤ n ∧ n ≤ 8 then (islandPorts n).map fun p => 0x200000 + 0x1000 * p
  else if n ≤ 14 then [0x300000, 0x400000, 0x401000]
  else if n ≤ 20 then 0x7C0000 :: ((List.range 48).map fun p => 0x700000 + 0x4000 * p) ++ (List.range 64).map fun g => 0x800000 + 0x1000 * g
  else if n ≤ 22 then [0x600000]
  else if n = 23 then (List.range 4).map fun c => 0x500000 + 0x1000 * c
  else if n ≤ 25 then [0x301000, 0x402000]
  else if n ≤ 27 then []
  else if n ≤ 33 then [0xA00000, 0xA01000 + 0x1000 * (n - 28)]
  else if n ≤ 41 then [0xB00000, 0xB01000 + 0x1000 * (n - 34)]
  else if n ≤ 43 then [0x900000, 0xD00000, 0xD01000 + 0x2000 * (n - 42), 0xD02000 + 0x2000 * (n - 42)]
  else [0xC00000]

/-- Clear the LOCK of groups (R37). -/
def unlock (bs : List Nat) (d : Dev) : Dev := bs.foldl (fun d b => regW (b + 0xC) 0 d) d

end Sys2Proof.Machine
end

