-- ==== Sys2Proof/Machine/CommitCheck.lean ====
section
/-! DEFINITION. The checks a warden makes of a captured set before applying it (R40). -/

namespace Sys2Proof.Machine

/-- A captured register, a field and a bit of it (R38). -/
def capR (d : Dev) (k : Nat) : Word := Tbl.get regReset d.cap k

def capF (d : Dev) (k hi lo : Nat) : Nat := Word.fld (capR d k) hi lo

def capB (d : Dev) (k i : Nat) : Bool := Word.bit (capR d k) i

/-- Whether a number lies within bounds. -/
def between (lo n hi : Nat) : Bool := decide (lo ≤ n) && decide (n ≤ hi)

/-- The device with the captured set of a group in effect, for checks that need the whole (R40). -/
def withCap (b : Nat) (d : Dev) : Dev := { d with eff := Tbl.copyRange (fun k => decide (groupOf k = b)) d.cap d.eff }

/-- BRG (R573). -/
def okBrg (d : Dev) : Bool :=
  let w := capF d 0x800 31 24
  let c := capF d 0x800 23 16
  between 60 w 110 && between 70 c 120 && decide (w < c)

/-- A string group (R98), and its PTP instance's domain (R79). -/
def okString (d : Dev) (s : Nat) : Bool :=
  let k := tKey s
  between 10 (capF d (k 0x1C) 31 0) 1000000000 && decide (capF d (k 0x10) 15 8 ≠ 0) && decide (capF d (k 0x18) 31 0 ≠ 0) &&
  between 1 (capF d (k 0x10) 24 16) 500 && between 1 (capF d (k 0x2C) 31 20) 3600 &&
  (!(capB d (k 0x34) 8) || !((List.range (numStrings d.variant)).any fun i =>
    decide (i ≠ s) && ptpEn d i && decide (effF d (tKey i 0x34) 7 0 = capF d (k 0x34) 7 0)))

/-- Group 8 (R98): the 10 MHz output's advance, and the recovered clocks' dividers. -/
def okTimeIo (d : Dev) : Bool :=
  decide (capF d 0x108050 31 16 ≤ 1599) && decide (capF d 0x108054 9 8 ≠ 3) && decide (capF d 0x108058 9 8 ≠ 3)

/-- The lock groups (R88). -/
def okLocks (d : Dev) : Bool :=
  (List.range 64).all fun p =>
    let n := ((List.range 8).filter fun g => capB d (0x109010 + 16 * g + 4 * (p / 32)) (p % 32)).length
    decide (n ≤ 1) && (decide (n = 0) || (decide (p < 48) && portPresent d.variant p))

/-- Whether lane map entries within a width are a permutation of 0 to width − 1 (R112). -/
def okLaneMap (w : Word) (width : Nat) : Bool :=
  let ms := (List.range width).map fun i => Word.fld w (3 * i + 2) (3 * i)
  ms.all (fun m => decide (m < width)) && decide ms.Nodup

/-- Whether a port is a member of some plumb group in effect. -/
def inPlumb (d : Dev) (p : Nat) : Bool := (List.range 64).any fun g => (plumbMembers d g).contains p

/-- A port page (R101, R110, R112). -/
def okPort (d : Dev) (p : Nat) : Bool :=
  let k := pKey p
  let m := capF d (k 0x10) 31 28
  let f := capF d (k 0x10) 27 26
  let w := modeLanes m
  let mf := capF d (k 0x10) 13 0
  (decide (m = 0) || modeAllowed p m) && (decide (m = 0) || !(subsumed d p)) &&
  ((List.range w).all fun i => decide (i = 0) || decide (modeCfg d (p + i) = 0)) &&
  decide (f ≠ 3) && (decide (m = 0) || fecAllowed m f) && okLaneMap (capR d (k 0x14)) w && okLaneMap (capR d (k 0x18)) w &&
  (decide (mf = 0) || decide (64 ≤ mf)) && decide (capF d (k 0x20) 15 0 < capF d (k 0x20) 31 16) &&
  decide (capF d (k 0x10) 19 18 ≠ 3) && decide (capF d (k 0x24) 17 16 ≠ 3) && decide (capF d (k 0x24) 9 0 ≤ 1000) &&
  !(capB d (k 0x10) 16 && decide (capF d (k 0x1C) 31 16 = 0)) && !(capB d (k 0x10) 17 && inPlumb d p)

/-- PARSE group 0 (R160). -/
def okParse0 (d : Dev) : Bool := (List.range 48).all fun p => decide (capF d (0x300100 + 4 * p) 9 8 < numDeep d.variant)

/-- Byte `b` of captured parse-graph node `n`. -/
def capNode (d : Dev) (n b : Nat) : Nat := capF d (0x301800 + 32 * n + b / 4 * 4) (8 * (b % 4) + 7) (8 * (b % 4))

/-- The nodes a captured node leads to: none from a terminal (R163). -/
def capNexts (d : Dev) (n : Nat) : List Nat :=
  if capNode d n 10 = 0 then []
  else ((List.range 6).map (fun i => capNode d n (16 + 3 * i)) ++ [capNode d n 11]).filter fun x => decide (x < 64)

/-- Nodes reachable from node 0, in at most `n` rounds. -/
def capReach (d : Dev) : Nat → List Nat → List Nat
  | 0, l => l
  | n + 1, l => capReach d n (l ++ ((l.flatMap (capNexts d)).dedup.filter fun x => !(l.contains x)))

/-- PARSE group 1 (R164, R165). -/
def okParse1 (d : Dev) : Bool :=
  between 64 (capF d 0x301010 8 0) 256 &&
  ((List.range 64).all fun n =>
    let nx : Nat → Bool := fun x => decide (x < 64) || decide (x = 0xFF)
    nx (capNode d n 11) && ((List.range 6).all fun i => nx (capNode d n (16 + 3 * i)) || decide (capNode d n (16 + 3 * i) = 0xFE))) &&
  ((capReach d 64 [0]).all fun n =>
    decide (bitsOf (capNode d n 1) 6 4 ≤ 4) && decide (bitsOf (capNode d n 3) 5 4 ≤ 1) && decide (capNode d n 10 ≤ 2))

/-- CLASS group 0 (R193): selectors and miss colours of the profiles. -/
def okProfiles (d : Dev) : Bool := (List.range 16).all fun p =>
  let sel := (List.range 12).map fun i => capR d (0x400108 + 64 * p + 4 * i)
  decide (capF d (0x400100 + 64 * p) 17 16 ≠ 3) &&
  (sel.all fun w =>
    let src := Word.fld w 31 28
    decide (src ≤ 9) && !(decide (src = 8) && decide (Word.fld w 21 20 = 3)) &&
    !(decide (src = 9) && decide (16 < Word.fld w 19 12 + Word.fld w 11 8 + 1))) &&
  decide (sel.foldl (fun a w => if Word.fld w 31 28 = 0 then a else a + Word.fld w 11 8 + 1) 0 ≤ 46)

/-- CLASS group 1 (R193). -/
def okClasses (d : Dev) : Bool := (List.range 64).all fun c =>
  let w := capR d (0x401100 + 16 * c)
  (!(Word.bit w 30) || decide (Word.fld w 29 28 < numCourses d.variant)) && decide (Word.fld w 23 22 ≠ 3)

/-- CLASS group 2 (R193, R169, R176), less the room in DRAM. -/
def okTables (d : Dev) : Bool :=
  let en : Nat → Bool := fun t => capB d (0x402100 + 16 * t) 31
  let dram : Nat → Bool := fun t => capB d (0x402100 + 16 * t) 30
  let lg : Nat → Nat := fun t => capF d (0x402100 + 16 * t) 4 0
  let slots := capF d 0x402010 18 0
  let sum : Bool → Nat := fun tier => (List.range 8).foldl (fun (a : Nat) t => if en t && decide (dram t = tier) then a + 2 ^ lg t else a) 0
  let top := d.sessions.foldl (fun a e => if bitOf e.2.flags 0 && decide (e.1 < sessionSlots d) then max a (e.1 + 1) else a) 0
  ((List.range 8).all fun t =>
    (!(tblEn d t) || decide ((ltable d t).ents = []) ||
      (en t && decide (dram t = tblDram d t) && decide (lg t = tblLog2 d t))) &&
    (!(en t) || (if dram t then between 16 (lg t) 26 else between 10 (lg t) 19))) &&
  decide (sum false + slots ≤ 524288) && decide (sum true ≤ 67108864) && decide (slots % 1024 = 0) && decide (slots ≤ 262144) &&
  decide (top ≤ slots)

/-- A course (R222). -/
def okCourse (d : Dev) (c : Nat) : Bool :=
  let k := coKey c
  let s := capF d (k 0x10) 18 16
  let q := (capR d (k 0x20)).toNat
  decide (s < numStrings d.variant) && (!(courseOn d c) || decide (s = courseStr d c)) &&
  (!(capB d (k 0x10) 30) || between 200 (capF d (k 0x14) 19 0) 1000000) &&
  (decide (q = discardQ) || (decide (qKind q ≠ 1) && decide (qKind q ≠ 2) && !(badQueue d q))) &&
  ((List.range 64).all fun p => !(capB d (k 0x18 + 4 * (p / 32)) (p % 32)) || (decide (p < 48) && portPresent d.variant p))

/-- Whether the DRAM region `i` has room under the device `e`, which differs from `d` in its size alone, and takes none from a
region that had it (R453). -/
def roomFor (d e : Dev) (i : Nat) : Bool :=
  if chanCount d = 0 then false
  else
    let was := regionsFor d (regionAsk d)
    let new := regionsFor e (regionAsk e)
    (new.getD i none).isSome && ((List.range 7).all fun j => !(was.getD j none).isSome || (new.getD j none).isSome)

/-- The WIT group (R272, R544, R545): no EN in RETURNED. -/
def okWit (d : Dev) : Bool :=
  let ep := capF d (wKey 0x14) 16 0
  let cm := capF d (wKey 0x18) 13 0
  let st := capF d (wKey 0x10) 23 16
  decide (capF d (wKey 0x10) 29 27 < numStrings d.variant) && between 1 st 64 &&
  roomFor d (withCap 0x600000 d) 5 && (!(witEnAct d) || decide (st = effF d (wKey 0x10) 23 16)) &&
  between 100 ep 100000 && decide (1000000 % ep = 0) && between 100 cm 10000 &&
  (decide (1000 % cm = 0) || decide (cm % 1000 = 0)) && decide (cm * 1000 % ep = 0) && between 1100 (capF d (wKey 0x1C) 16 0) 100000 &&
  !(capB d (wKey 0x10) 31 && decide (d.foot.lifecycle = 2))

/-- A SCHED page (R339). -/
def okSched (d : Dev) (p : Nat) : Bool :=
  let k := sKey p
  let cyc := capF d (k 0x18) 29 0
  let n := capF d (k 0x20) 8 0
  let ov := capF d (k 0x10) 15 8
  (!(capB d (k 0x10) 31) || (between 1 n 256 && (List.range n).all fun i => decide (capR d (k (0x1004 + 8 * i)) ≠ 0))) &&
  between 1000 cyc 1000000000 && decide (capF d (k 0x1C) 29 0 ≤ cyc) && decide (capF d (k 0x14) 19 0 ≤ cyc) &&
  !(between 0x80 ov 0xDF) && decide ((capR d (k 0x28)).toNat < 1000000000)

/-- The admission group (R339). -/
def okAdm (d : Dev) : Bool := (List.range 64).all fun c =>
  let y := capF d (0x7C0100 + 8 * c) 16 0
  let r := capF d (0x7C0104 + 8 * c) 16 0
  decide (y = 0) || decide (r = 0) || decide (r ≤ y)

/-- A plumb group (R110, R357). -/
def okPlumb (d : Dev) (g : Nat) : Bool :=
  let k := gKey g
  let l := capF d (k 0x10) 26 24
  let ms := (List.range 64).filter fun p => capB d (k 0x18 + 4 * (p / 32)) (p % 32)
  let b := capF d (k 0x14) 19 0
  (!(capB d (k 0x10) 31) || decide (ms ≠ [])) &&
  (ms.all fun p => decide (p < 48) && portPresent d.variant p && !(subsumed d p) && inLock d l p && !(effB d (pKey p 0x10) 17)) &&
  decide (capF d (k 0x10) 18 16 < numStrings d.variant) && (decide (b = 0) || between 200 b 1000000)

/-- A captured gate's threads in its cluster or its alternate. -/
def capMask (d : Dev) (g : Nat) (alt : Bool) : Nat :=
  let o := if alt then 0x10 else 8
  (capR d (gateCfgKey g o)).toNat + (capR d (gateCfgKey g (o + 4))).toNat * 2 ^ 32

/-- Threads, as cluster × 64 + thread, that the enabled gates of a captured set name, with repeats. -/
def capThreads (d : Dev) : List Nat := (List.range 64).flatMap fun g =>
  let w := capR d (gateCfgKey g 0)
  let ts : Nat → Bool → List Nat := fun c alt => ((List.range 64).filter fun t => bitOf (capMask d g alt) t).map fun t => 64 * c + t
  if !(Word.bit w 31) then [] else ts (Word.fld w 26 24) false ++ (if Word.bit w 23 then ts (Word.fld w 22 20) true else [])

/-- The gate group (R494). -/
def okGates (d : Dev) : Bool :=
  ((List.range 64).all fun g =>
    let w := capR d (gateCfgKey g 0)
    let q := (capR d (gateCfgKey g 0x18)).toNat
    let n := numClusters d.variant
    !(Word.bit w 31) ||
      (decide (Word.fld w 19 0 ≠ 0) && decide (capMask d g false ≠ 0) && decide (Word.fld w 26 24 < n) &&
       (!(Word.bit w 23) || (decide (Word.fld w 22 20 < n) && decide (capMask d g true ≠ 0))) &&
       (decide (q = discardQ) || (decide (qKind q ≠ 1) && decide (qKind q ≠ 2) && !(badQueue d q))))) &&
  ((capThreads d).all fun t => !(coreReserved d.variant (t / 64) (t % 64 / 8))) && decide (capThreads d).Nodup

/-- A cluster group (R494). -/
def okCluster (d : Dev) (c : Nat) : Bool := (List.range 8).all fun k => !(capB d (gvKey c 0x10) k && coreReserved d.variant c k)

/-- The map group (R452, R465). -/
def okMap (d : Dev) : Bool :=
  mapFits d (mapOfRegs (capR d)) && between 1 (capF d 0xB00010 30 24) 100 && decide (capF d 0xB00010 23 16 ≤ 168)

/-- A channel group (R465), while SPARE_EN makes its rank the spare. -/
def okChannel (d : Dev) (n : Nat) : Bool :=
  let r := capF d (chKey n 0x10) 1 0
  !(capB d (chKey n 0x10) 2) || (decide (rankSt d (4 * n + r) ≠ 0) && decide (1 < (dch d n).nranks))

/-- The LEDG group (R443, R453). -/
def okLedg (d : Dev) : Bool :=
  let g := capF d 0xC00010 7 0
  between 1 g 64 && (!(anyIoSq d) || decide (g = effF d 0xC00010 7 0)) && between 1 (capF d 0xC00010 14 8) 100 &&
  roomFor d (withCap 0xC00000 d) 6

/-- A window of PF `n`'s group by register words: KIND, OFF, size and TGT. -/
def pwOf (r : Nat → Word) (n w : Nat) : Nat × Nat × Nat × Nat :=
  let k := 0xD01100 + 0x1000 * n + 16 * w
  (Word.fld (r (k + 4)) 31 30, Word.fld (r k) 29 12 * 4096, 2 ^ Word.fld (r k) 4 0, Word.fld (r (k + 8)) 24 12 * 4096)

/-- HOST group 0 (R386). -/
def okHost (d : Dev) : Bool :=
  let n := capF d 0xD00018 5 0
  decide (n ≤ 32) && ((List.range 4).all fun f => (List.range 8).all fun w =>
    let x := pwOf (effR d) f w
    decide (x.1 ≠ 1) || decide (x.2.2.2 + x.2.2.1 ≤ n * 2 ^ 20))

/-- The peer group of PF `n` (R386). -/
def okPeer (d : Dev) (n : Nat) : Bool :=
  let ws := (List.range 8).map fun w => (w, pwOf (capR d) n w)
  let isOpen : Nat × Nat × Nat × Nat × Nat → Bool := fun x => decide (x.2.1 = 1) || decide (x.2.1 = 2)
  (ws.all fun x =>
    let k := 0xD01100 + 0x1000 * n + 16 * x.1
    let size := x.2.2.2.1
    let off := x.2.2.1
    let tgt := x.2.2.2.2
    between 12 (capF d k 4 0) 25 && decide (x.2.1 ≠ 3) &&
    (!(isOpen x) || (decide (off + size ≤ 2 ^ 30) && decide (off % size = 0))) &&
    (decide (x.2.1 ≠ 1) || decide (tgt + size ≤ effF d 0xD00018 5 0 * 2 ^ 20)) &&
    (decide (x.2.1 ≠ 2) || (decide (capF d (k + 4) 26 24 < numClusters d.variant) && decide (tgt + size ≤ 2 ^ 22)))) &&
  (ws.all fun x => ws.all fun y =>
    decide (y.1 ≤ x.1) || !(isOpen x) || !(isOpen y) || decide (x.2.2.1 + x.2.2.2.1 ≤ y.2.2.1) || decide (y.2.2.1 + y.2.2.2.1 ≤ x.2.2.1))

/-- Whether a group's captured set passes its chapter's checks (R40). -/
def capOk (d : Dev) (b : Nat) : Bool :=
  let n := groupNum b
  match b / 2 ^ 20 with
  | 0 => okBrg d
  | 1 => if n < 8 then okString d n else if n = 8 then okTimeIo d else okLocks d
  | 2 => okPort d n
  | 3 => if n = 0 then okParse0 d else okParse1 d
  | 4 => if n = 0 then okProfiles d else if n = 1 then okClasses d else okTables d && (!((List.range 8).any fun t =>
      capB d (0x402100 + 16 * t) 31 && capB d (0x402100 + 16 * t) 30) || roomFor d (withCap b d) 4)
  | 5 => okCourse d n
  | 6 => okWit d
  | 7 => if n = 48 then okAdm d else okSched d n
  | 8 => okPlumb d n
  | 10 => if n = 0 then okGates d else okCluster d (n - 1)
  | 11 => if n = 0 then okMap d else okChannel d (n - 1)
  | 12 => okLedg d
  | 13 => if n = 0 then okHost d else okPeer d (n - 1)
  | _ => true

end Sys2Proof.Machine
end

