-- ==== Sys2Proof/Machine/Journal.lean ====
section
/-! DEFINITION. The ashlar journal (07): boundaries, sealing, capstones, extents, openings and the witness commands. -/

namespace Sys2Proof.Machine
open Sys2Proof

/-! ### Hashing (R240–R242) -/

def leafHash (r : Bytes) : Bytes := sha3_256 (0 :: r)
def nodeHash (a b : Bytes) : Bytes := sha3_256 (1 :: (a ++ b))

/-- One level up: pairs join, an odd last node is carried. -/
def levelUp : List Bytes → List Bytes
  | a :: b :: t => nodeHash a b :: levelUp t
  | l => l

/-- The Merkle root of leaves; 32 zero bytes of none. -/
def merkleRoot : Nat → List Bytes → Bytes
  | _, [] => zeros 32
  | _, [x] => x
  | 0, x :: _ => x
  | k + 1, l => merkleRoot k (levelUp l)

/-- The sibling hashes of leaf `i`, in the order verification takes them (R268, R271). -/
def merklePath : Nat → Nat → List Bytes → List Bytes
  | 0, _, _ => []
  | k + 1, i, l =>
    if l.length ≤ 1 then []
    else
      let sib := if i % 2 = 1 then [l.getD (i - 1) []] else if i + 1 < l.length then [l.getD (i + 1) []] else []
      sib ++ merklePath k (i / 2) (levelUp l)

/-- An ashlar's header (R240). -/
def headerBytes (a : Ashlar) : Bytes :=
  leBytes 4 0x48534142 ++ leBytes 2 1 ++ leBytes 1 a.kind ++ leBytes 1 a.flags ++ leBytes 8 a.index ++ leBytes 8 a.prev ++
  leBytes 4 a.opening ++ leBytes 1 a.jstring ++ zeros 3 ++ leBytes 12 a.open_ ++ leBytes 12 a.close ++
  leBytes 4 a.recs.length ++ leBytes 4 a.unwitnessed ++ padTo 32 a.root ++ padTo 32 a.hPrev

/-- Seal an ashlar on the chain (R241, R242, R244). -/
def sealOn (hPrev : Bytes) (a : Ashlar) : Ashlar :=
  let a := { a with root := merkleRoot 32 (a.recs.map fun (r : ARec) => leafHash r.bytes), hPrev := hPrev, sealed_ := true }
  { a with h := sha3_256 (padTo 32 hPrev ++ headerBytes a) }

/-! ### Epoch boundaries (R238, R239, R250, R269, R270) -/

/-- An epoch in 2^-48 ns, and the number of the last boundary the journal string has reached. -/
def epochUnit (d : Dev) : Nat := effF d (wKey 0x14) 16 0 * 1000 * 2 ^ 48
def curB (d : Dev) : Nat := (jRep d).t / epochUnit d

/-- Note a boundary. -/
def noteB (d : Dev) : Dev := witU (fun w => { w with lastB := curB d, lastBTick := now d }) d

/-- Start on the journal string's scale: no boundary has passed. -/
def startB (d : Dev) : Dev := witU (fun w => { w with capB := some w.lastB }) (noteB d)

/-- A GAP record into the open ashlar (R232, R250): the reserve holds it, so that a gap does not keep it out (R245). -/
def gapRec (start cause count boundary : Nat) (wod : Bool) (d : Dev) : Dev :=
  addRec (recBytes start 0xFFFF (jString d) 6 0x3F false false (cause + 256 * b2n wod) count 0 (untestedFlag d)
    (leBytes 12 boundary ++ zeros 4)) none (sealer d) d

/-- The sealer role moves to a half in use (R229, R269, R270). -/
def moveSealer (d : Dev) : Dev :=
  if halfInUse d (sealer d) then d
  else if halfInUse d 0 || halfInUse d 1 then fldW (wKey 0x40) 26 26 (if halfInUse d 0 then 0 else 1) d else d

/-- The halves change over at a boundary (R269, R270): released and failed ones leave, returned ones come back. -/
def switchHalves (d : Dev) : Dev :=
  let jobs := d.wit.halfJobs
  let back := (jobs.filter fun j => decide (j.2.1 = 1)).map fun j => j.1
  let gone := ((jobs.filter fun j => decide (j.2.1 = 0) && !j.2.2.1).map fun j => j.1) ++ d.wit.failed
  let d := witU (fun w => { w with
    relHalves := (w.relHalves.filter fun h => !(back.contains h)) ++ gone.filter fun h => !(w.relHalves.contains h)
    failed := []
    halfJobs := (jobs.filter fun j => decide (j.2.1 = 0)).map fun j => (j.1, j.2.1, true, j.2.2.2) }) d
  let d := moveSealer d
  let d := witU (fun w => { w with halfInPeriod := oneHalf d }) d
  (jobs.filter fun j => decide (j.2.1 = 1)).foldl (fun d j =>
    postDev 0x64 [BitVec.ofNat 8 j.1, 1] (completeHeld j.2.2.2 0 0 d)) d

/-- Whether the halves change over at the next boundary. -/
def halvesDue (d : Dev) : Bool :=
  decide (d.wit.failed ≠ []) || d.wit.halfJobs.any fun j => decide (j.2.1 = 1) || !j.2.2.1

/-- Free staging, the reserve excluded, in bytes: durable evidence can be reclaimed (R245, R250). -/
def stagingFree (d : Dev) : Nat := stagingBytes d - 2 ^ 24 - 48 * stagedFirm d

/-- An epoch boundary (R238): the open ashlar closes, unless an empty one waits out a gap; the halves change over; a gap ends.
`cut` closes it with CUT_CLOSE and a capstone. -/
def boundary (cut : Bool) (d : Dev) : Dev :=
  match d.wit.cur with
  | none => noteB d
  | some a =>
    let b := curB d
    let tb := toR17 (b * epochUnit d)
    let sw := halvesDue d
    let cut := cut || sw
    let ends := d.wit.gap.isSome && decide (stagingBytes d / 8 ≤ stagingFree d)
    if d.wit.gap.isSome && !ends && decide (a.recs = []) && !cut then
      noteB (witU (fun w => { w with cur := some { a with flags := a.flags ||| 8 } }) d)
    else
      let d := closeAshlar (if cut then 4 else 0) tb (jTime d) true d
      let d := if cut then witU (fun w => { w with capB := some b }) (callCapstone true tb a.index d) else d
      let d := if sw then switchHalves d else d
      let d := noteB d
      let d := match d.wit.gap with
        | some g =>
          if ends then
            let d := bitW (wKey 0x40) 30 false (witU (fun w => { w with gap := none, gapInPeriod := w.gapInPeriod && !cut }) d)
            postDev 0x61 ([0, BitVec.ofNat 8 g.cause] ++ leBytes 4 g.count) (gapRec g.start g.cause g.count tb g.wod d)
          else d
        | none => d
      match d.wit.halfGap with
      | some g => postDev 0x61 ([0, 2] ++ leBytes 4 g.2) (gapRec g.1 2 g.2 tb false (witU (fun w => { w with halfGap := none }) d))
      | none => d

/-- EPOCH_BOUNDARY (R238). -/
def execEpochBoundary (s : State) : Host.Outcome State Fault Refusal :=
  lift (fun d => if d.wit.cur.isSome && decide (curB d ≠ d.wit.lastB) then boundary false d else d) s

/-- LONG_CLOSE (R239). -/
def execLongClose (s : State) : Host.Outcome State Fault Refusal :=
  lift (fun d =>
    if d.wit.cur.isSome && decide (d.wit.lastBTick + 2000 * effF d (wKey 0x14) 16 0 ≤ now d) && decide (curB d = d.wit.lastB) then
      noteB (closeAshlar 2 (jTime d) (jTime d) true d)
    else d) s

/-- A step or LOAD of a string has been applied (R239): the open ashlar closes on the old scale if it is the journal's. -/
def stepClose (s before : Nat) (d : Dev) : Dev :=
  if d.wit.cur.isSome && decide (jString d = s) then startB (closeAshlar 1 (toR17 before) (jTime d) true d) else d

/-- ORPHAN_TIMEOUT (R236). -/
def execOrphanTimeout (id : Nat) (s : State) : Host.Outcome State Fault Refusal :=
  lift (fun d =>
    match d.wit.recs.find? fun r => decide (r.id = id) with
    | some r =>
      if u8 r.bytes 14 % 32 = 1 ∧ r.tick + 1000 * effF d (wKey 0x1C) 16 0 ≤ now d then
        ctrInc (wKey 0x118) (completeRec id (fun b => b) none d)
      else d
    | none => d) s

/-! ### Marks (R274) -/

/-- The place of a mark's record in its ashlar: among the records by instant, group and order. -/
def markLeaf (m : MarkWait) (a : Ashlar) : Nat :=
  (sortRecs a.recs).findIdx fun r => decide (r.at_ = m.at_ ∧ r.grp = m.grp ∧ r.ord = m.ord)

/-- Complete the marks whose place is final. -/
def flushMarks (d : Dev) : Dev :=
  let final := fun (m : MarkWait) => match d.wit.cur with
    | some a => decide (a.index ≠ m.ashlar) || decide (m.at_ ≠ jQ d)
    | none => true
  let d' := witU (fun w => { w with marks := w.marks.filter fun m => !(final m) }) d
  (d.wit.marks.filter final).foldl (fun e m =>
    let held := (match d.wit.cur with
      | some a => [a]
      | none => []) ++ d.wit.closed ++ d.wit.sealed_
    let leaf := match held.find? fun a => decide (a.index = m.ashlar) with
      | some a => markLeaf m a
      | none => 0
    let out := leBytes 8 m.ashlar ++ leBytes 4 leaf ++ zeros 4 ++ slice m.bytes 0 14 ++ zeros 2
    let e := if (fn e m.held.cmd.fn).gen = m.held.gen then dma m.held.cmd.fn m.buf out e else e
    completeHeld m.held 0 0 e) d'

/-- TIME_TICK (R50, R55): a mark's place is final once its instant is past. -/
def execTimeTick (s : State) : Host.Outcome State Fault Refusal := lift (fun d => flushMarks (timeTick d)) s

/-- The status of a witness command (R274): its issuers, its parameters, the variant, then what stands in its way. With no
half working the engine is off (R12). -/
def witStatus (d : Dev) (c : Cmd) (pf2 : Bool) (used : List (Nat × Nat)) (badParam : Bool) (late : List (Bool × Nat)) : Nat :=
  firstStatus ([(!(decide (c.fn = 0) || (pf2 && decide (c.fn = 2))) || (cmdSelf c).isNone, stNotPermitted),
    (!(reservedOk c used) || badParam, stBadParam), (!(witPresent d), stAbsent)] ++
    (late.filter fun x => decide (x.2 = stAbsent)) ++ [(!(islandOn d 21 || islandOn d 22), stUnitOff)] ++
    (late.filter fun x => decide (x.2 ≠ stAbsent)))

/-- WIT_MARK (R232, R274). -/
def execWitMark (c : Cmd) (s : State) : Host.Outcome State Fault Refusal :=
  lift (fun d =>
    let i := c.f 16 1
    let buf := c.f 24 8
    checked c (witStatus d c true [(16, 1), (24, 8), (32, 8), (40, 16)] (decide (7 < i) || decide (buf % 64 ≠ 0))
        [(!(strPresent d i), stAbsent), (!(witOpen d), stBadState)])
      (fun d =>
        let isl := 21 + sealer d
        let u := tapU d i isl
        let fl := (stampFlags d i isl u false).1
        let b := recBytes (toR17 (rep d isl i).t) u i 5 0x3F false false c.fn (c.f 32 8) 0 (fl ||| untestedFlag d) (slice c.bytes 40 16)
        let o := d.wit.order
        let r := writeRec b (sealer d) d
        -- the ashlar that was open took the record, also where it is full with it
        match r.1, d.wit.cur with
        | true, some a =>
          noteHeld c (witU (fun w => { w with marks := w.marks ++ [⟨hold d c, buf, a.index, jQ d, 4 + halfOf d (sealer d), o, b⟩] }) r.2)
        | _, _ => completeSt c stBadState r.2) d) s

/-- TIME_REANCHOR (R61, R66, R89, R232). -/
def execTimeReanchor (c : Cmd) (s : State) : Host.Outcome State Fault Refusal :=
  lift (fun d =>
    let i := cmdStr c
    checked c (timeStatus d c [] false false (decide ((str d i).st = .drone)))
      (fun d =>
        let x := str d i
        let isl := 21 + sealer d
        let u := tapU d i isl
        let fl := (stampFlags d i isl u false).1
        let b := recBytes (toR17 (rep d isl i).t) u i 7 0x3F false false (stCode x.st + 8 * b2n x.latched + 16 * x.srcKind) (x.reanchors + 1) 0
          (fl ||| untestedFlag d) (leBytes 8 (ofSigned 64 x.ofs) ++ leBytes 4 x.u ++ zeros 4)
        let r := writeRec b (sealer d) (reanchor i d)
        if r.1 then complete c 0 1 r.2 else scheduleHeld c i (applyTick r.2) .carried r.2) d) s

/-! ### Sealing and capstones (R244, R251–R258) -/

/-- Put an object at the end of what waits for the drives (R263). -/
def queueExtent (type index bytes covers : Nat) (d : Dev) : Dev :=
  witU (fun w => { w with extents := w.extents ++ [⟨type, index, 0, 1 + ceilDiv bytes 4096, covers, false⟩] }) d

/-- ASHLAR_SEALED (R244): the oldest closed ashlar; records on poisoned staging lines are left out and counted in UNWITNESSED
(R454). -/
def execAshlarSealed (lost : List Nat) (s : State) : Host.Outcome State Fault Refusal :=
  lift (fun d =>
    match d.wit.closed with
    | [] => d
    | a :: rest =>
      if !(halfInUse d 0 || halfInUse d 1) then d
      else
        let keep := (a.recs.zipIdx.filter fun (r : ARec × Nat) => !(lost.contains r.2)).map fun r => r.1
        let a := sealOn d.wit.hLast { a with recs := keep, unwitnessed := min (a.unwitnessed + (a.recs.length - keep.length)) 0xFFFFFFFF }
        let d := witU (fun w => { w with closed := rest, sealed_ := w.sealed_ ++ [a], hLast := a.h,
                                         sums := w.sums ++ [(a.index, a.recs.length, gapRecs a, a.h)] }) d
        queueExtent 1 a.index (48 * a.recs.length) a.index (ctrInc (wKey 0x130) d)) s

/-- Whether the last epoch boundary is a capstone boundary (R251). -/
def capBoundary (d : Dev) : Bool :=
  decide (d.wit.lastB * epochUnit d % (effF d (wKey 0x18) 13 0 * 1000000 * 2 ^ 48) = 0)

/-- CAPSTONE_BOUNDARY (R251): a capstone of the boundary just passed. -/
def execCapstoneBoundary (s : State) : Host.Outcome State Fault Refusal :=
  lift (fun d =>
    match d.wit.cur with
    | some a =>
      if capBoundary d && decide (d.wit.capB ≠ some d.wit.lastB) && decide (curB d = d.wit.lastB) then
        witU (fun w => { w with capB := some w.lastB }) (callCapstone false (toR17 (d.wit.lastB * epochUnit d)) (a.index - 1) d)
      else d
    | none => d) s

/-- First ashlar the next capstone covers. -/
def capFirst (d : Dev) : Nat := match d.wit.capLast with
  | some n => n + 1
  | none => 0

/-- A capstone's bytes less its signatures (R252). -/
def capBody (d : Dev) (r : CapReq) : Bytes :=
  let cov := d.wit.sums.filter fun x => decide (x.1 ≤ r.last)
  let hl := match cov.getLast? with
    | some x => x.2.2.2
    | none => d.wit.prevHLast
  let tail := r.strings ++ r.intervals ++ r.measures ++ r.cert
  leBytes 4 0x50414342 ++ leBytes 2 1 ++ leBytes 2 r.flags ++ leBytes 4 (232 + tail.length + 3408) ++ leBytes 4 d.wit.opening ++
  leBytes 8 (d.wit.capIndex + 1) ++ leBytes 8 (capFirst d) ++ leBytes 8 r.last ++ padTo 32 hl ++ padTo 32 d.wit.prevCap ++
  leBytes 12 r.start ++ leBytes 12 r.endTime ++ padTo 32 r.calHash ++ leBytes 4 r.calVersion ++ leBytes 1 r.jstring ++
  leBytes 1 (r.strings.length / 64) ++ leBytes 1 (r.intervals.length / 28) ++ leBytes 1 (r.measures.length / 48) ++
  leBytes 8 (cov.map fun x => x.2.1).sum ++ leBytes 8 r.gapFrames ++ leBytes 8 r.wodDrops ++ leBytes 8 r.delivery ++
  leBytes 4 (cov.map fun x => x.2.2.1).sum ++ leBytes 4 r.orphans ++ leBytes 4 r.cert.length ++ zeros 4 ++ padTo 16 r.aliasId ++ tail

/-- Sign bytes under two keys, an ECDSA and an ML-DSA one (R257). -/
def signBoth (ec ml : Nat) (tbs : Bytes) : Bytes :=
  (List.range 96).map (Config.signByte ec tbs) ++ (List.range 3309).map (Config.signByte ml tbs) ++ zeros 3

/-- CAPSTONE_SIGNED (R251, R258): the oldest capstone due, once its last ashlar is sealed. It is held and goes to the journal if the
reserve has room for it. -/
def execCapstoneSigned (s : State) : Host.Outcome State Fault Refusal :=
  lift (fun d =>
    match d.wit.caps with
    | [] => d
    | r :: rest =>
      if d.wit.closed.any fun a => decide (a.index ≤ r.last) then d
      else
        let body := capBody d r
        let b := body ++ signBoth (keyOf 0 r.aliasKey) (keyOf 1 r.aliasKey) body
        let i := d.wit.capIndex + 1
        let slot := d.wit.ringNext
        let last := if r.last + 1 = capFirst d then d.wit.capLast else some r.last
        let d := witU (fun w => { w with
          caps := rest, capIndex := i, capCount := w.capCount + 1, prevCap := sha3_256 b, prevHLast := slice body 40 32, capLast := last
          sums := w.sums.filter fun x => decide (r.last < x.1) }) d
        let d := if d.wit.ringSlots = 0 then d else
          witU (fun w => { w with ringNext := (slot + 1) % w.ringSlots }) (dma 0 (d.wit.ringBase + 32768 * slot) b d)
        let d := postDev 0x60 (leBytes 4 i ++ leBytes 2 slot ++ leBytes 4 b.length) (ctrInc (wKey 0x138) d)
        let d := reclaimReserve b.length d
        if reserveUsed d + b.length ≤ 2 ^ 24 then
          queueExtent 2 i b.length r.last (witU (fun w => { w with capDone := w.capDone ++ [⟨i, r.last, b⟩] }) d)
        else ctrInc (wKey 0x140) (witU (fun w => { w with unstored := w.unstored ++ [i] }) d)) s

/-! ### The journal on the drives (R262–R265) -/

/-- One past the ring's last LBA. -/
def ringEnd (d : Dev) : Nat := nsSize d 1

/-- Where the next extent of `n` LBAs begins, and the pad before it, if any. -/
def placeExtent (d : Dev) (n : Nat) : Nat × Option (Nat × Nat) :=
  let l := d.wit.nextLba
  if ringEnd d < l + n then (16, if l < ringEnd d then some (l, ringEnd d - l) else none) else (l, none)

/-- Whether an extent overlaps a range of LBAs. -/
def overlaps (e : Extent) (l n : Nat) : Bool := e.durable && decide (e.lba < l + n ∧ l < e.lba + e.lbas)

/-- Whether an extent may be overwritten (R265). -/
def mayOverwrite (d : Dev) (e : Extent) : Bool :=
  let r := d.wit.released.getD 0
  decide (e.type = 3) || decide (e.covers ≤ r)

/-- Whether an extent of `n` LBAs fits now (R265). -/
def extentFits (d : Dev) (n : Nat) : Bool :=
  let p := placeExtent d n
  decide (16 + n ≤ ringEnd d) && d.wit.extents.all fun e =>
    mayOverwrite d e || !(overlaps e p.1 n || (match p.2 with
      | some q => overlaps e q.1 q.2
      | none => false))

/-- An extent block (R263). -/
def extentBlock (d : Dev) (type index lbas bytes : Nat) (header : Bytes) : Bytes :=
  let b := leBytes 4 0x54584542 ++ leBytes 1 type ++ zeros 3 ++ leBytes 8 index ++ leBytes 4 lbas ++ leBytes 4 bytes ++ leBytes 4 d.wit.opening
  padTo 4096 (b ++ leBytes 4 (crc32c b) ++ zeros 32 ++ padTo 128 header)

/-- Write consecutive LBAs of the journal. -/
def jWrites (lba : Nat) (bs : Bytes) (d : Dev) : Dev :=
  loopN (ceilDiv bs.length 4096) (fun i d => jWrite (lba + i) (slice bs (4096 * i) 4096) d) d

/-- Write an extent at its place, overwriting what stood there: it is durable. -/
def writeExtent (type index covers : Nat) (header content : Bytes) (d : Dev) : Dev :=
  let n := 1 + ceilDiv content.length 4096
  let p := placeExtent d n
  let d := match p.2 with
    | some q => witU (fun w => { w with
        extents := (w.extents.filter fun e => !(overlaps e q.1 q.2)) ++ [⟨3, 0, q.1, q.2, 0, true⟩] }) (jWrite q.1 (extentBlock d 3 0 q.2 0 []) d)
    | none => d
  let d := jWrites p.1 (extentBlock d type index n content.length header ++ content) d
  witU (fun w => { w with nextLba := p.1 + n, sbDirty := true
                          extents := (w.extents.filter fun e => !(overlaps e p.1 n)) ++ [⟨type, index, p.1, n, covers, true⟩] }) d

/-- Start an opening (R267 step 1): what is not durable is dropped. -/
def startOpening (d : Dev) : Dev :=
  let d := witU (fun w => { w with
    opening := w.opening + 1, cur := none, closed := [], recs := [], caps := [], gap := none, halfGap := none
    enPend := false, adopted := false
    sealed_ := w.sealed_.filter fun a => isDurable d a.index
    capDone := w.capDone.filter fun c => capDurable d c.index
    extents := w.extents.filter fun e => e.durable }) d
  let d := fldW (wKey 0x40) 23 21 (effF d (wKey 0x10) 29 27) d
  let d := fldW (wKey 0x40) 26 26 (if halfInUse d 0 then 0 else 1) d
  bitW (wKey 0x40) 31 true (bitW (wKey 0x40) 29 false <| bitW (wKey 0x40) 30 false (bitW (wKey 0x40) 20 true (bitW (wKey 0x40) 19 false d)))

/-- The journal stops taking records (R272): the open ashlar is cut, records begun count as OFF from here on. -/
def closeJournal (d : Dev) : Dev :=
  let d := cutAshlar false d
  let n := d.wit.recs.length
  let d := loopN n (fun _ d => ctrInc (wKey 0x120) d) d
  let d := witU (fun w => { w with recs := [], gap := none, halfGap := none, offFrom := jTime d, offCount := n }) d
  bitW (wKey 0x40) 19 true (bitW (wKey 0x40) 30 false d)

/-- Whether the drives can take journal writes. -/
def journalDrives (d : Dev) : Bool := storageUp d && nsExists d 1 && allPairsUp d

/-- The next extent does not fit (R265): NS_FULL is set and JOURNAL_FULL posted, once. -/
def nsFull (d : Dev) : Dev :=
  if bitR d (wKey 0x40) 29 then d
  else
    let oldest := match d.wit.extents.find? fun x => x.durable && decide (x.type = 1) with
      | some x => x.index
      | none => 0
    postDev 0x62 (leBytes 4 (d.wit.released.getD 0) ++ leBytes 4 oldest) (bitW (wKey 0x40) 29 true d)

/-- EXTENT_DURABLE (R264, R265): the oldest waiting extent is written and acknowledged by every present drive of its pairs, or does
not fit. A sealed ashlar on a poisoned staging line makes the journal reopen (R454). -/
def execExtentDurable (poisoned : Bool) (s : State) : Host.Outcome State Fault Refusal :=
  lift (fun d =>
    match d.wit.extents.find? fun e => !e.durable with
    | none => d
    | some e =>
      if !(journalDrives d) then d
      else if poisoned ∧ e.type = 1 then startOpening (closeJournal d)
      else if !(extentFits d e.lbas) then nsFull d
      else
        let d := bitW (wKey 0x40) 29 false (witU (fun w => { w with extents := w.extents.erase e }) d)
        if e.type = 1 then
          match d.wit.sealed_.find? fun a => decide (a.index = e.index) with
          | some a => witU (fun w => { w with durable := some a.index, durableH := a.h })
              (writeExtent 1 a.index a.index (headerBytes a) (a.recs.flatMap fun r => r.bytes) d)
          | none => d
        else
          match d.wit.capDone.find? fun c => decide (c.index = e.index) with
          | some c => witU (fun w => { w with durableCap := some c.index }) (writeExtent 2 c.index c.last [] c.bytes d)
          | none => d) s

/-- The superblock (R262). -/
def superblock (d : Dev) (gen : Nat) : Bytes :=
  let w := d.wit
  let old := w.extents.find? fun e => e.durable && decide (e.type ≠ 3)
  let b := leBytes 4 0x42534A42 ++ leBytes 2 1 ++ zeros 2 ++ leBytes 8 gen ++ leBytes 4 w.opening ++ zeros 4 ++ leBytes 8 16 ++
    leBytes 8 (ringEnd d - 16) ++
    (match old with
      | some e => leBytes 8 e.lba ++ leBytes 8 e.index
      | none => leBytes 8 16 ++ leBytes 8 0) ++
    leBytes 8 w.nextLba ++ leBytes 8 (w.durable.getD 0) ++
    (match w.durableCap with
      | some n => leBytes 8 n
      | none => List.replicate 8 0xFF) ++
    leBytes 8 (w.released.getD 0) ++ padTo 32 w.durableH ++ (List.range 16).map Config.serial
  b ++ leBytes 4 (crc32c b)

/-- Write the superblock: the copies alternate (R264). -/
def writeSuper (d : Dev) : Dev :=
  let g := d.wit.sbGen + 1
  witU (fun w => { w with sbGen := g, sbDirty := false }) (jWrite (g % 2) (superblock d g) d)

/-- SUPERBLOCK_WRITE (R264). -/
def execSuperblockWrite (s : State) : Host.Outcome State Fault Refusal :=
  lift (fun d => if d.wit.sbDirty && journalDrives d then writeSuper d else d) s

/-! ### Opening (R243, R267) -/

/-- What a scan of the ring has found; of the last capstone its INDEX, LAST_INDEX, hash and H_LAST. -/
structure Scan where
  lba : Nat
  index : Option Nat := none
  h : Bytes := []
  opening : Nat := 0
  cap : Option (Nat × Nat × Bytes × Bytes) := none
  sums : List (Nat × Nat × Nat × Bytes) := []
  extents : List Extent := []
  unstored : List Nat := []
  deriving DecidableEq, Repr

/-- A copy of a journal LBA (R267): that of the first or second drive port of its pair, or of the one member. -/
def jCopy (d : Dev) (side : Nat × Nat) (lba : Nat) : Option Bytes :=
  let p := lbaPair d lba
  let n := 2 * p + (if p = 0 then side.1 else side.2)
  if drvMember d n then
    (driveLba d 1 lba).bind fun l => if (drv d n).unread.contains l then none else some (drvRead d n l 0 4096)
  else (jRead [] lba d).1

/-- The choices of a copy in each pair. -/
def copySides : List (Nat × Nat) := [(0, 0), (1, 1), (0, 1), (1, 0)]

/-- The extent at an LBA, read from the copies named, when its block checks: TYPE, INDEX, LBAS, OPENING, its header and its content. -/
def readExtent (d : Dev) (side : Nat × Nat) (lba : Nat) : Option (Nat × Nat × Nat × Nat × Bytes × Bytes) :=
  match jCopy d side lba with
  | none => none
  | some b =>
    let n := le b 16 4
    if le b 0 4 = 0x54584542 ∧ le b 28 4 = crc32c (b.take 28) ∧ 1 ≤ n ∧ lba + n ≤ ringEnd d ∧ le b 20 4 ≤ 4096 * (n - 1) then
      let c := (List.range (n - 1)).flatMap fun i => (jCopy d side (lba + 1 + i)).getD (zeros 4096)
      some (u8 b 4, le b 8 8, n, le b 24 4, slice b 64 128, c.take (le b 20 4))
    else none

/-- Follow one extent: `verify` asks that it continues the chain (R267 step 3). The INDEX of a capstone follows on where it is greater:
those between were not stored (R258). -/
def scanStep (d : Dev) (verify : Bool) (s : Scan) (side : Nat × Nat) : Option Scan :=
  let lba := if ringEnd d ≤ s.lba then 16 else s.lba
  match readExtent d side lba with
  | none => none
  | some (ty, ix, n, op, hd, c) =>
    let next := lba + n
    if verify && decide (op < s.opening) then none
    else if ty = 1 then
      let recs := (List.range (c.length / 48)).map fun i => slice c (48 * i) 48
      let root := merkleRoot 32 (recs.map leafHash)
      let okChain := decide (slice hd 96 32 = padTo 32 s.h) && decide (slice hd 64 32 = root) && decide (le hd 8 8 = ix) &&
        (match s.index with
          | some i => decide (ix = i + 1)
          | none => decide (ix = 0)) && decide (le hd 56 4 = recs.length)
      let h := sha3_256 (slice hd 96 32 ++ hd)
      if verify && !okChain then none
      else some { s with lba := next, index := some ix, h := h, opening := op
                         sums := s.sums ++ [(ix, recs.length, (recs.filter fun r => decide (u8 r 14 % 32 = 6)).length, h)]
                         extents := s.extents ++ [⟨1, ix, lba, n, ix, true⟩] }
    else if ty = 2 then
      let prev := s.cap.map fun x => x.1
      if verify && decide (ix ≤ prev.getD 0) then none
      else some { s with lba := next, opening := op, cap := some (ix, le c 32 8, sha3_256 c, slice c 40 32)
                         extents := s.extents ++ [⟨2, ix, lba, n, le c 32 8, true⟩]
                         unstored := s.unstored ++ (match prev with
                           | some i => (List.range (ix - i - 1)).map fun k => i + 1 + k
                           | none => []) }
    else if ty = 3 then some { s with lba := next, opening := op, extents := s.extents ++ [⟨3, 0, lba, n, 0, true⟩] }
    else none

/-- Follow extents while one of their copies is valid and `stop` has not been reached. -/
def scan (d : Dev) (verify : Bool) (stop : Option Nat) : Nat → Scan → Scan
  | 0, s => s
  | k + 1, s =>
    if some s.lba = stop then s
    else match copySides.findSome? (scanStep d verify s) with
      | some t => scan d verify stop k t
      | none => s

/-- The valid superblock with the higher GENERATION (R267 step 2). -/
def bestSuper (d : Dev) : Option Bytes :=
  let valid := ([0, 1].flatMap fun l => copySides.filterMap fun c => jCopy d c l).filter fun b =>
    decide (le b 0 4 = 0x42534A42 ∧ le b 4 2 = 1 ∧ le b 136 4 = crc32c (b.take 136))
  valid.foldl (fun best b => match best with
    | some a => if le a 8 8 < le b 8 8 then some b else some a
    | none => some b) none

/-- Take what the journal on the drives holds as the engine's durable state. -/
def adoptJournal (d : Dev) : Dev :=
  match bestSuper d with
  | none => witU (fun w => { w with nextLba := 16, durable := none, durableCap := none, durableH := zeros 32, hLast := zeros 32
                                    capIndex := 0, capLast := none, prevCap := zeros 32, prevHLast := zeros 32, extents := []
                                    sbGen := 0, released := none, unstored := [], sums := [], sealed_ := [], capDone := [] }) d
  | some b =>
    let fuel := ringEnd d
    let past := scan d false (some (le b 56 8)) fuel { lba := le b 40 8 }
    let s := scan d true none fuel { past with
      lba := le b 56 8, index := some (le b 64 8), h := slice b 88 32, opening := le b 16 4 }
    let cl := s.cap.map fun x => x.2.1
    witU (fun w => { w with
      nextLba := s.lba, durable := s.index, durableH := s.h, hLast := s.h, extents := s.extents, sbGen := le b 8 8
      released := some (le b 80 8), durableCap := s.cap.map fun x => x.1
      capIndex := (s.cap.map fun x => x.1).getD 0, capLast := cl, unstored := s.unstored
      prevCap := (s.cap.map fun x => x.2.2.1).getD (zeros 32), prevHLast := (s.cap.map fun x => x.2.2.2).getD (zeros 32)
      sums := s.sums.filter fun x => match cl with
        | some n => decide (n < x.1)
        | none => true }) d

/-- Steps 2 and 3 of an opening, once: what the drives hold is read and taken (R267). -/
def readJournal (d : Dev) : Dev := if d.wit.adopted then d else witU (fun w => { w with adopted := true }) (adoptJournal d)

/-! ### Device self-test (R431) -/

/-- Segment 1 of a self-test: `health`, what the drives and their links report of themselves, and both labels of each drive in use; an
extended test compares the slab maps of each pair's drives too. -/
def testDrives (d : Dev) (ext health : Bool) : Bool :=
  let label (n : Nat) : Bool := [0, 1].all fun l =>
    !((drv d n).unread.contains l) && decide (drvRead d n l 0 64 = labelBytes d n (pairMap d (n / 2)).slabs)
  health && (List.range (numPairs d.variant)).all fun p =>
    (targets d p).all label &&
    (!ext || decide ((targets d p).length < 2) || (List.range 254).all fun i =>
      decide (drvRead d (2 * p) (2 + i) 0 4096 = drvRead d (2 * p + 1) (2 + i) 0 4096))

/-- Segment 3: the most recent 1,000 durable ashlars read from the drives; their chain, and in an extended test their roots. -/
def testAshlars (d : Dev) (ext : Bool) : Bool :=
  let es := ((d.wit.extents.filter fun e => e.durable && decide (e.type = 1)).reverse.take 1000).reverse
  let r := es.foldl (fun (a : Option Bytes × Bool) e =>
    match copySides.findSome? fun c => readExtent d c e.lba with
    | some (_, _, _, _, hd, c) =>
      let recs := (List.range (c.length / 48)).map fun i => slice c (48 * i) 48
      let linked := match a.1 with
        | some h => decide (slice hd 96 32 = h)
        | none => true
      (some (sha3_256 (slice hd 96 32 ++ hd)), a.2 && linked && (!ext || decide (slice hd 64 32 = merkleRoot 32 (recs.map leafHash))))
    | none => (a.1, false)) ((none : Option Bytes), true)
  r.2 && (es.isEmpty || decide (r.1 = some (padTo 32 d.wit.durableH)))

/-- SELF_TEST_DONE (R431): result 0, or 7 with the first segment that failed; `dram`: segment 2 passed. -/
def execSelfTestDone (health dram : Bool) (s : State) : Host.Outcome State Fault Refusal :=
  lift (fun d =>
    match d.ledger.test with
    | some t =>
      let ext := decide (t.stc = 2)
      if t.paused || !(storageUp d) then d
      else if !(testDrives d ext health) then testResult 7 1 d
      else if !dram then testResult 7 2 d
      else if !(testAshlars d ext) then testResult 7 3 d
      else testResult 0 0 d
    | none => d) s

/-- JOURNAL_OPENING_DONE (R267 steps 2 to 5): the restart or genesis ashlar is written and durable; record admission starts, or
the journal closes at once if EN 0 came meanwhile. An ashlar that does not fit makes the opening wait (R265). -/
def execJournalOpeningDone (s : State) : Host.Outcome State Fault Refusal :=
  lift (fun d =>
    if !(bitR d (wKey 0x40) 20 && journalDrives d) then d
    else
      let fresh_ := (bestSuper d).isNone
      let d := readJournal d
      let before := d.wit.durable
      let idx := match before with
        | some n => n + 1
        | none => 0
      let a := sealOn d.wit.hLast {
        kind := if fresh_ then 2 else 1, flags := ashlarNow d { tick := now d } &&& 0x70, index := idx, prev := idx - 1
        opening := if fresh_ then 1 else d.wit.opening, jstring := jString d, open_ := jTime d, close := jTime d }
      if !(extentFits d 1) then nsFull d
      else
        let d := writeExtent 1 idx idx (headerBytes a) [] (bitW (wKey 0x40) 29 false d)
        let d := witU (fun w => { w with durable := some idx, durableH := a.h, hLast := a.h, sealed_ := w.sealed_ ++ [a]
                                         sums := w.sums ++ [(idx, 0, 0, a.h)] }) (ctrInc (wKey 0x130) d)
        let lastB := match before with
          | some n => if fresh_ then 0xFFFFFFFF else n
          | none => 0xFFFFFFFF
        let d := postDev 0x63 (leBytes 4 d.wit.opening ++ leBytes 4 idx ++ leBytes 4 lastB) d
        let first : Ashlar := { index := idx + 1, prev := idx, opening := d.wit.opening, jstring := jString d, open_ := jTime d, tick := now d }
        let d := (List.range (numStrings d.variant)).foldl (fun d s => newPeriod s d) d
        let d := witU (fun w => { w with
          cur := some first, restart := true, certDue := true, capStart := jTime d, gapInPeriod := false, halfInPeriod := oneHalf d
          capsBase := [ctrR d (wKey 0x108), ctrR d (wKey 0x110), ctrR d (wKey 0x118), w.deliveryDrops]
          calAtStart := match d.cal with
            | some c => c.version
            | none => 0 }) d
        let d := startB (bitW (wKey 0x40) 20 false d)
        if d.wit.enPend then witU (fun w => { w with enPend := false }) (closeJournal d)
        else
          let n := d.wit.offCount
          let d := witU (fun w => { w with offCount := 0 }) d
          if n = 0 then d else gapRec d.wit.offFrom 3 n (jTime d) false d) s

/-- EN 0 takes effect (R267, R272): at once, or after the opening that runs. -/
def disableJournal (d : Dev) : Dev :=
  if bitR d (wKey 0x40) 20 then witU (fun w => { w with enPend := true }) d else closeJournal d

/-- JOURNAL_CLOSED (R228, R272): the closing capstone is durable, or posted with no drives. -/
def execJournalClosed (s : State) : Host.Outcome State Fault Refusal :=
  lift (fun d =>
    let stored := capDurable d d.wit.capIndex || d.wit.unstored.contains d.wit.capIndex
    if bitR d (wKey 0x40) 19 && decide (d.wit.caps = [] ∧ d.wit.closed = []) && (stored || noDrives d) then
      bitW (wKey 0x40) 31 false (bitW (wKey 0x40) 19 false d)
    else d) s

/-! ### Commands (R274) -/

/-- Return bytes through BUF and BUF_LEN: too short a buffer is BAD_PARAM with the bytes needed. -/
def giveBytes (c : Cmd) (bs : Bytes) (d : Dev) : Dev :=
  if c.f 44 4 < bs.length then complete c stBadParam bs.length d
  else complete c 0 bs.length (dma c.fn (c.f 24 8) bs d)

/-- Why an ashlar is not held, as EVIDENCE_READ's dword. -/
def ashlarGone (d : Dev) (i : Nat) : Nat :=
  if (match d.wit.cur with
      | some a => decide (a.index = i)
      | none => false) || d.wit.closed.any (fun a => decide (a.index = i)) then 1
  else if isDurable d i then 2 else 3

/-- Why a capstone is not held: due and not made, durable, or unknown, which the one before the first and one never stored are. -/
def capGone (d : Dev) (i : Nat) : Nat :=
  if d.wit.capIndex < i ∧ i ≤ d.wit.capIndex + d.wit.caps.length then 1
  else if i ≠ 0 ∧ ¬ d.wit.unstored.contains i ∧ capDurable d i then 2 else 3

/-- EVIDENCE_READ (R268, R274). -/
def execEvidenceRead (c : Cmd) (s : State) : Host.Outcome State Fault Refusal :=
  lift (fun d =>
    let kind := c.f 16 1
    let obj := c.f 17 1
    let i := c.f 32 8
    let first := c.f 20 4
    let cnt := c.f 40 4
    checked c (witStatus d c true [(16, 1), (17, 1), (20, 4), (24, 8), (32, 8), (40, 4), (44, 4)]
        (decide (4 < kind) || decide (1 < obj) || decide (c.f 24 8 % 64 ≠ 0)) [])
      (fun d =>
        let ash := d.wit.sealed_.find? fun a => decide (a.index = i)
        let cap := d.wit.capDone.find? fun x => decide (x.index = i)
        match kind with
        | 2 => match cap with
          | some x => giveBytes c x.bytes d
          | none => complete c stBadState (capGone d i) d
        | 4 =>
          let isCap := decide (obj = 1)
          if (if isCap then cap.isNone else ash.isNone) then complete c stBadState (if isCap then capGone d i else ashlarGone d i) d
          else match d.wit.extents.find? fun e => e.durable && decide (e.index = i) && decide (e.type = 1 + obj) with
            | some e => giveBytes c (leBytes 8 e.lba) d
            | none => complete c stBadState 4 d
        | _ => match ash with
          | none => complete c stBadState (ashlarGone d i) d
          | some a =>
            let rs := a.recs.map fun r => r.bytes
            if kind = 0 then giveBytes c (headerBytes a) d
            else if kind = 1 then
              if cnt = 0 ∨ rs.length < first + cnt then complete c stBadParam 0 d
              else giveBytes c ((rs.drop first).take cnt).flatten d
            else if rs.length ≤ first then complete c stBadParam 0 d
            else
              let path := merklePath 32 first (rs.map leafHash)
              giveBytes c (leBytes 4 rs.length ++ leBytes 4 first ++ rs.getD first [] ++ leBytes 4 path.length ++ path.flatten) d) d) s

/-- WIT_RELEASE (R265, R274). -/
def execWitRelease (c : Cmd) (s : State) : Host.Outcome State Fault Refusal :=
  lift (fun d =>
    let i := c.f 32 8
    checked c (witStatus d c false [(32, 8)] (witPresent d && !(isDurable d i)) [])
      (fun d => completeSt c 0 (witU (fun w => { w with released := some (max i (w.released.getD 0)) }) d)) d) s

/-- WIT_CERTS (R256, R259, R260, R274): in RETURNED no key exists (R544). -/
def execWitCerts (c : Cmd) (s : State) : Host.Outcome State Fault Refusal :=
  lift (fun d =>
    let which := c.f 16 1
    checked c (witStatus d c true [(16, 1), (24, 8), (44, 4)] (decide (15 < which) || decide (c.f 24 8 % 64 ≠ 0))
        [(decide (d.foot.lifecycle = 2), stBadState)])
      (fun d =>
        giveBytes c (((List.range 4).filter fun k => bitOf which k).flatMap fun k =>
          certEntry (if k < 2 then deviceCert d k else aliasCert d (k - 2))) d) d) s

/-- WIT_CAP_RING (R258, R274). -/
def execWitCapRing (c : Cmd) (s : State) : Host.Outcome State Fault Refusal :=
  lift (fun d =>
    let base := c.f 24 8
    let slots := c.f 32 2
    checked c (witStatus d c false [(24, 8), (32, 2)] (decide (base % 4096 ≠ 0) || decide (1024 < slots)) [])
      (fun d => completeSt c 0 (witU (fun w => { w with ringBase := base, ringSlots := slots, ringNext := 0 }) d)) d) s

/-- WIT_HALF (R269, R274): with the journal not open the change is made at once, there being no boundary. -/
def execWitHalf (c : Cmd) (s : State) : Host.Outcome State Fault Refusal :=
  lift (fun d =>
    let h := c.f 16 1
    let op := c.f 17 1
    let rel := d.wit.relHalves.contains h
    let asked := d.wit.halfJobs.any fun j => decide (j.1 = h)
    let other := halfInUse d (1 - h) && !(d.wit.halfJobs.any fun j => decide (j.1 = 1 - h ∧ j.2.1 = 0))
    checked c (witStatus d c false [(16, 1), (17, 1)] (decide (1 < h) || decide (1 < op))
        [(!(islandPresent d.variant (21 + h)), stAbsent),
         (decide (op = 1) && rel && decide (unitStatus d (21 + h) ≠ 0), unitStatus d (21 + h)),
         (decide (op = 0) && !rel && !asked && !other, stBadState)])
      (fun d =>
        if (op = 0 ∧ (rel || asked)) ∨ (op = 1 ∧ !rel) then completeSt c 0 d
        else
          let d := noteHeld c (witU (fun w => { w with halfJobs := w.halfJobs ++ [(h, op, false, hold d c)] }) d)
          if d.wit.cur.isSome then d else switchHalves d) d) s

/-- WIT_HALF_DONE (R269): a released half is idle. -/
def execWitHalfDone (h : Nat) (s : State) : Host.Outcome State Fault Refusal :=
  lift (fun d =>
    match d.wit.halfJobs.find? fun j => decide (j.1 = h ∧ j.2.1 = 0) && j.2.2.1 with
    | some j =>
      if d.wit.recs.any fun r => decide (r.half = h) then d
      else
        postDev 0x64 [BitVec.ofNat 8 h, 0] (completeHeld j.2.2.2 0 0 (witU (fun w => { w with halfJobs := w.halfJobs.erase j }) d))
    | none => d) s

/-- WIT_STATS (R273, R274). -/
def execWitStats (c : Cmd) (s : State) : Host.Outcome State Fault Refusal :=
  lift (fun d =>
    let buf := c.f 24 8
    checked c (witStatus d c false [(17, 1), (24, 8)] (decide (1 < c.f 17 1) || decide (buf % 64 ≠ 0)) [])
      (fun d =>
        let keys := (List.range 9).map fun i => wKey (0x100 + 8 * i)
        let bs := keys.flatMap fun k => leBytes 8 (ctrR d k)
        let d := if bitOf (c.f 17 1) 0 then keys.foldl (fun d k => ctrW k 0 d) d else d
        reply c buf bs d) d) s

/-- A witness half fails (R270): what it held is lost and reported at the next boundary. A half already released takes no source, but
may hold records begun before. -/
def halfFails (h : Nat) (d : Dev) : Dev :=
  let n := (d.wit.recs.filter fun r => decide (r.half = h)).length
  let rel := d.wit.relHalves.contains h
  let d := ctrAdd (wKey 0x128) n d
  let d := witU (fun w => { w with recs := w.recs.filter fun r => decide (r.half ≠ h)
                                   failed := if rel then w.failed else h :: w.failed.filter (· ≠ h)
                                   halfGap := if (rel && decide (n = 0)) || w.cur.isNone then w.halfGap else some (match w.halfGap with
                                     | some g => (g.1, g.2 + n)
                                     | none => (jTime d, n)) }) d
  let d := witU (fun w => { w with halfInPeriod := w.halfInPeriod || oneHalf d }) d
  if d.wit.cur.isSome then d else switchHalves d

end Sys2Proof.Machine
end

