-- ==== Sys2Proof/Machine/Commit.lean ====
section
/-! DEFINITION. Commits: the capture, the commit point and what follows from new values in effect (R37–R42). -/

namespace Sys2Proof.Machine

/-! ### The write of COMMIT and LOCK (R37–R39) -/

/-- Whether a write of PF0's host to a group's header reaches its warden: the group exists, its unit is present and on (R11,
R12), and host port 0 is not frozen (R375). -/
def headerReached (d : Dev) (b : Nat) : Bool := isGroup b && !(isFrozen d 0) && decide (regState d b = 0)

/-- COMMIT_COUNT advances, and wraps (R37). -/
def countCommit (b : Nat) (d : Dev) : Dev := fldW (b + 8) 31 16 (fldR d (b + 8) 31 16 + 1) d

/-- COMMIT (R38, R39): the group's shadow is captured, or the write is ignored with COMMIT_REJ while a commit is pending. A
commit of CAL completes at once and changes nothing (04), and one of FOOT changes nothing (R551). -/
def execCommit (base : Nat) (s : State) : Host.Outcome State Fault Refusal :=
  lift (fun d =>
    if !(headerReached d base) then d
    else if base = 0xF00000 then countCommit base d
    else if base = 0xE00000 then d
    else if bitR d (base + 8) 0 then bitW (base + 8) 2 true d
    else bitW (base + 8) 0 true { d with cap := Tbl.copyRange (fun k => decide (groupOf k = base)) d.regs d.cap }) s

/-- LOCK (R37): the group's RWL fields are read-only from now on. -/
def execLock (base : Nat) (s : State) : Host.Outcome State Fault Refusal :=
  lift (fun d => if headerReached d base then bitW (base + 0xC) 0 true d else d) s

/-! ### What new values bring about -/

/-- The commit has taken effect: it is counted, and PENDING clears (R37, R38). -/
def commitDone (b : Nat) (d : Dev) : Dev :=
  bitW (b + 8) 0 false (countCommit b { d with cap := Tbl.drop (fun k => decide (groupOf k = b)) d.cap })

/-- The captured set fails its checks (R40): nothing takes effect, and COMMIT_REFUSED is posted. -/
def commitRefused (b : Nat) (d : Dev) : Dev :=
  postDev 1 (leBytes 1 (b / 2 ^ 20) ++ leBytes 2 (groupNum b))
    (bitW (b + 8) 1 true (bitW (b + 8) 0 false { d with cap := Tbl.drop (fun k => decide (groupOf k = b)) d.cap }))

/-- A string group (R72, R98): SERVO_OWNER waits while a step or LOAD is pending; at its own change any slew is abandoned. FREQ_SYNCE
acts on a locked EEC at once (R81). The Boolean tells whether the commit is complete. -/
def commitString (s : Nat) (d : Dev) : Bool × Dev :=
  let new := capF d (tKey s 0x10) 0 0
  let d := carryIncr s (withCap (tKey s 0) d)
  let x := str d s
  if new = x.owner then (true, d)
  else if stepPending x then (false, d)
  else (true, carryIncr s (stopSlew s (strU s (fun x => { x with owner := new }) d)))

/-- Take keys of a captured set into effect. -/
def takeKeys (ks : List Nat) (d : Dev) : Dev := { d with eff := ks.foldl (fun t k => Tbl.set regReset t k (capR d k)) d.eff }

/-- Whether a captured set is in effect at keys. -/
def keysAgree (d : Dev) (ks : List Nat) : Bool := ks.all fun k => decide (capR d k = effR d k)

/-! #### Group 8 (R84, R85, R98) -/

/-- The shadowed registers of group 8. -/
def ioKeys : List Nat :=
  [0x108020, 0x108024, 0x108030, 0x108034, 0x108038, 0x10803C, 0x108040, 0x108044, 0x108048, 0x10804C, 0x108050, 0x108054, 0x108058,
   0x108060, 0x108068, 0x10806C]

/-- Whether the string an output is to follow is at a whole second. -/
def capSecond (d : Dev) (cfg : Word) : Bool :=
  let x := str d (Word.fld cfg 3 1)
  decide (x.t % secUnit < x.incr)

/-- Keys of group 8 that take their captured values now (R98): each output's at the next whole second of the string it is to
follow, an enabled input's at its next pulse (`pulse`), and at once those of an input not enabled, which has no pulse to wait for,
and those with neither second nor pulse: RCLK, the EEC and its candidates (DESIGN CHOICE, log entry 65). -/
def dueIo (d : Dev) (pulse : Option Nat) : List Nat :=
  [0x108054, 0x108058, 0x108060, 0x108068, 0x10806C] ++
  ((List.range 2).filter fun i => !(effB d (0x108020 + 4 * i) 0) || decide (pulse = some i)).map (0x108020 + 4 * ·) ++
  ((List.range 4).filter fun i => capSecond d (capR d (0x108030 + 4 * i))).flatMap (fun i => [0x108030 + 4 * i, 0x108040 + 4 * i]) ++
  (if capSecond d (capR d 0x108050) then [0x108050] else [])

/-- A PPS output's pin under a configuration newly in effect: low when disabled, else its inactive level (R84). -/
def restPps (i : Nat) (d : Dev) : Dev :=
  let k := 0x108030 + 4 * i
  emit (.pin (pinPpsOut i) (effB d k 0 && effB d k 4)) (timeU (fun t => { t with ppsOn := setAt t.ppsOn i false }) d)

/-- The clock of an RCLK output (R85): off, or the EEC's or a port's recovered clock, divided. -/
def showRclk (i : Nat) (d : Dev) : Dev :=
  let k := 0x108054 + 4 * i
  emit (.rclk i (effB d k 0) (effB d k 1) (effF d k 7 2) (effF d k 9 8)) d

/-- What an output does when a key of group 8 changes. -/
def ioChanged (k : Nat) (d : Dev) : Dev :=
  if 0x108030 ≤ k ∧ k < 0x108040 then restPps ((k - 0x108030) / 4) d
  else if k = 0x108054 ∨ k = 0x108058 then showRclk ((k - 0x108054) / 4) d
  else if k = 0x108050 ∧ effB d k 0 = false then emit (.pin pinTenMhz false) d
  else d

/-- The inputs and outputs of group 8 that have reached their own points take their part of the pending commit (R98); with the
last of them it is complete. The EEC chooses its input again (R82). -/
def commitTimeIo (pulse : Option Nat) (d : Dev) : Bool × Dev :=
  let ks := (dueIo d pulse).filter fun k => decide (capR d k ≠ effR d k)
  let d := eecReselect (ks.foldl (fun d k => ioChanged k d) (takeKeys ks d))
  let done := keysAgree d ioKeys
  (done, timeU (fun t => { t with ioTaking := !done }) d)

/-- An input or output of group 8 reaches its point while a commit is taking effect. -/
def takeIo (pulse : Option Nat) (d : Dev) : Dev :=
  if !d.time.ioTaking then d
  else
    let r := commitTimeIo pulse d
    if r.1 then commitDone 0x108000 r.2 else r.2

/-! #### Group 9 (R87, R88, R98) -/

/-- PLG_MASK words. -/
def lockKeys : List Nat := (List.range 16).map fun i => 0x109010 + 16 * (i / 2) + 4 * (i % 2)

/-- The grid period of a lock group: the least common multiple of its members' block quanta, in 1/25 of a Q16 ns (R87). -/
def gridPeriod (d : Dev) (l : Nat) : Nat :=
  ((List.range 48).filter fun p => inLock d l p && decide (modeCfg d p ≠ 0)).foldl (fun n p => Nat.lcm n (plumbQuantum (modeCfg d p))) 1

/-- A joining port realigns: its next start is delayed by at most one grid period plus one block (R88), freely. -/
def realign (l p : Nat) (d : Dev) : Dev :=
  let most := ceilDiv (gridPeriod d l + plumbQuantum (modeCfg d p)) (25 * 65536)
  let (x, d) := fresh d
  let t := max (now d) (port d p).busyUntil + x % (most + 1)
  portU p (fun y => { y with alignAt := t, busyUntil := t }) d

/-- Port `p` joins lock group `l` if the captured set names it and the port is at an inter-frame gap, or has no link. -/
def joinLock (l p : Nat) (d : Dev) : Dev :=
  let k := 0x109010 + 16 * l + 4 * (p / 32)
  let gap := decide ((port d p).busyUntil ≤ now d) && (port d p).hold.isEmpty
  if Word.bit (capR d k) (p % 32) && !(inLock d l p) && (gap || decide (lstate d p ≠ 4)) then
    realign l p { d with eff := Tbl.set regReset d.eff k (Word.putBit (effR d k) (p % 32) true) }
  else d

/-- The lock groups' commit (R88): ports leave at once, and port `p` joins at its own next inter-frame gap. -/
def commitLocks (p : Nat) (d : Dev) : Bool × Dev :=
  let d := { d with eff := lockKeys.foldl (fun t k => Tbl.set regReset t k (effR d k &&& capR d k)) d.eff }
  let d := (List.range 8).foldl (fun d l => joinLock l p d) d
  let done := keysAgree d lockKeys
  (done, timeU (fun t => { t with plgTaking := !done }) d)

/-! #### Port pages -/

/-- What follows a change of what a port sends by: mode, FEC or MAX_FRAME (R333, R352), and flow control (R109). -/
def txFollow (p : Nat) (d : Dev) : Dev := flowUpdate p (plumbTouch p (guardUpdate p d))

/-- Whether a port's captured set changes a line field (R111). -/
def lineChange (d : Dev) (p : Nat) : Bool :=
  let k := pKey p
  decide (capF d (k 0x10) 31 24 ≠ effF d (k 0x10) 31 24) ||
  decide (capR d (k 0x14) ≠ effR d (k 0x14)) || decide (capR d (k 0x18) ≠ effR d (k 0x18)) ||
  decide (capF d (k 0x24) 17 16 ≠ effF d (k 0x24) 17 16)

/-- A port's captured set takes effect in a direction (R111): reception with the windows of its courses before it (R204),
transmission with its gates on the new STRING (R335), its guard band, budgets and flow control. -/
def takeDir (p : Nat) (tx : Bool) (d : Dev) : Dev :=
  if tx then
    let old := portString d p
    let d := { d with halfTx := p :: d.halfTx }
    txFollow p (if portString d p = old then d else gateResync p d)
  else coursesUpdate { d with halfRx := p :: d.halfRx }

/-- With both directions done the whole set is in effect. -/
def portWhole (p : Nat) (d : Dev) : Dev :=
  { withCap (pKey p 0) d with halfRx := d.halfRx.filter (· ≠ p), halfTx := d.halfTx.filter (· ≠ p) }

/-- Whether no frame is being sent on a port or waits in its transmit hold. Frames are received whole (log entry 11). -/
def txGap (d : Dev) (p : Nat) : Bool := decide ((port d p).busyUntil ≤ now d) && (port d p).hold.isEmpty

/-- A port page (R105, R111). A change of line fields waits until no frame is in progress, takes the link down, and the ports of
the span follow it; without one, each direction takes the set at its own gap: `dir` 0 receive, 1 transmit. -/
def commitPort (p dir : Nat) (d : Dev) : Bool × Dev :=
  if lineChange d p && !(d.halfRx.contains p) && !(d.halfTx.contains p) then
    if !(txGap d p) then (false, d)
    else
      let cause := if capF d (pKey p 0x24) 17 16 = 1 ∧ effF d (pKey p 0x24) 17 16 ≠ 1 then 5 else 3
      let d := if lstate d p = 0 then d else disablePort p cause d
      let d := portWhole p (takeDir p true (takeDir p false d))
      (true, (List.range 8).foldl (fun d i => if p + i < 48 then evalPort (p + i) d else d) d)
  else
    let tx := decide (dir = 1)
    let had := if tx then d.halfTx.contains p else d.halfRx.contains p
    let d := if had || (tx && !(txGap d p)) then d else takeDir p tx d
    if d.halfRx.contains p && d.halfTx.contains p then (true, portWhole p d) else (false, d)

/-- The units that take the group at `base` each at a boundary of its own: the deep parsers for PARSE group 1, which stand in both
table islands, the host ports' arbiters for QMGR, and the working ingress pipes for the rest (R165, R193, R316). -/
def takers (d : Dev) (base : Nat) : List Nat :=
  if base = 0x301000 then (if islandOn d (tableIsland 0) && islandOn d (tableIsland 1) then List.range (numDeep d.variant) else [])
  else if base = 0x900000 then (List.range (numHosts d.variant)).filter fun h => islandOn d (hIsland h)
  else (List.range 6).filter fun i => islandOn d (ipIsland i)

/-- A larger W takes effect before the pending set of a group takes effect in any unit (R204). -/
def widenFirst (b : Nat) (d : Dev) : Dev :=
  let e := withCap b d
  (List.range (numCourses d.variant)).foldl (fun d c =>
    if courseW d c < (courseReq e c).1 then { courseUpdate c { d with eff := e.eff, cap := e.cap } with eff := d.eff, cap := d.cap }
    else d) d

/-- Unit `u` takes the pending set of the group at `b` between two of its frames, or turns; with the last of the units it is in effect as a
whole (R165, R180, R193). -/
def commitUnit (b u : Nat) (d : Dev) : Bool × Dev :=
  let us := takers d b
  let d := if us.contains u && !(d.took.contains (b, u)) && !(decide (b = 0x900000) && turnOn d u) then
      let d := if d.took.any fun x => decide (x.1 = b) then d else widenFirst b d
      { d with took := (b, u) :: d.took }
    else d
  if us.all fun u => d.took.contains (b, u) then
    (true, coursesUpdate (withCap b { d with took := d.took.filter fun x => decide (x.1 ≠ b) }))
  else (false, d)

/-- CLASS group 2 (R169, R176, R193, R453): a table newly enabled is empty under a new seed, a slot newly reserved is zeroed,
and the DRAM region follows. -/
def commitTables (d : Dev) : Dev :=
  let was := (List.range 8).map (tblEn d)
  let slots := sessionSlots d
  let d := withCap 0x402000 d
  let d := loopN 8 (fun t d =>
    if tblEn d t && !(was.getD t false) then let (x, d) := fresh d; ltableU t (fun _ => { seed := x }) d else d) d
  let d := { d with sessions := Tbl.drop (fun k => decide (min slots (sessionSlots d) ≤ k)) d.sessions }
  coursesUpdate (placeRegions d)

/-- The WIT group (R272). A change of EN takes effect at once; with EN set, the rest at an epoch boundary, where a change of
the journal string or of the epoch cuts the ashlar and the new scale's boundaries count. -/
def commitWit (d : Dev) : Bool × Dev :=
  let on := effB d (wKey 0x10) 31
  let new := capB d (wKey 0x10) 31
  if on = new then
    if !on then
      (true, let e := placeRegions (withCap 0x600000 d); if witEnAct d then e else fldW (wKey 0x40) 23 21 (effF e (wKey 0x10) 29 27) e)
    else if curB d = d.wit.lastB then (false, d)
    else
      let scale := decide (capF d (wKey 0x10) 29 27 ≠ effF d (wKey 0x10) 29 27) || decide (capF d (wKey 0x14) 16 0 ≠ effF d (wKey 0x14) 16 0)
      if !scale then (true, withCap 0x600000 d)
      else
        let d := withCap 0x600000 (boundary true d)
        let d := fldW (wKey 0x40) 23 21 (effF d (wKey 0x10) 29 27) d
        let d := witU (fun w => { w with cur := w.cur.map fun a => { a with jstring := jString d, open_ := jTime d } }) d
        (true, startB d)
  else if new then (true, startOpening (placeRegions (withCap 0x600000 d)))
  else (true, disableJournal (withCap 0x600000 d))

/-- A SCHED page (R325, R329, R330, R339). -/
def commitSched (p : Nat) (d : Dev) : Dev :=
  let d := shaperSettle p d
  let was := d.eff
  let d := withCap (sKey p 0) d
  guardUpdate p (gateCommit p (shaperFill p was d))

/-- A plumb group (R352, R357). -/
def commitPlumb (g : Nat) (d : Dev) : Dev :=
  let d := withCap (gKey g 0) d
  let w := regR d (gKey g 0x40)
  let w := Word.put (Word.putBit w 31 (effB d (gKey g 0x10) 31)) 28 26 (effF d (gKey g 0x10) 18 16)
  plumbUpdate g (regW (gKey g 0x40) (Word.put w 21 16 ((plumbMembers d g).headD 0)) d)

/-- The gate group (R204, R494): threads whose gate or entry changed start afresh. -/
def commitGates (d : Dev) : Dev :=
  let old := (List.range 6).map (starts d)
  let d := withCap 0xA00000 d
  coursesUpdate (loopN (numClusters d.variant) (fun c d => repoint c (old.getD c []) d) d)

/-- A commit of a cluster's group (R486, R494): PAIRED takes effect where it may, and an EXTERNAL it takes from an event
waited on breaks the quiet until now. -/
def commitCluster (c base : Nat) (d : Dev) : Dev :=
  let was := extWaited d c
  let d := loopN 8 (fun k d => applyPaired c k d) (withCap base d)
  if was then cluU c (fun x => { x with lastAct := d.time.tick }) d else d

/-- Apply a group's captured set (R41): whether the commit is complete, and the device. -/
def applyCommit (b dir : Nat) (d : Dev) : Bool × Dev :=
  let n := groupNum b
  match b / 2 ^ 20 with
  | 0 => (true, driveAlert (alertOn d) (withCap b d))
  | 1 => if n < 8 then commitString n d else if n = 8 then commitTimeIo none d else commitLocks dir d
  | 2 => commitPort n dir d
  | 3 => commitUnit b dir d
  | 4 => if n = 2 then (true, commitTables d) else commitUnit b dir d
  | 5 => (true, courseUpdate n (courseEnable n (withCap b d)))
  | 6 => commitWit d
  | 7 => if n = 48 then (true, withCap b d) else (true, commitSched n d)
  | 8 => (true, commitPlumb n d)
  | 9 => commitUnit b dir d
  | 10 => if n = 0 then (true, commitGates d) else (true, commitCluster (n - 1) b d)
  | 11 => if n = 0 then (true, storeMap (withCap b d)) else (true, withCap b d)
  | 12 => (true, placeRegions (withCap b d))
  | _ => (true, withCap b d)

/-- Whether part of a group's pending set is in effect already, its checks passed (R88, R98, R111). -/
def partTaken (d : Dev) (b : Nat) : Bool :=
  (decide (b / 2 ^ 20 = 2) && (d.halfRx.contains (groupNum b) || d.halfTx.contains (groupNum b))) ||
  (d.took.any fun x => decide (x.1 = b)) || (decide (b = 0x108000) && d.time.ioTaking) || (decide (b = 0x109000) && d.time.plgTaking)

/-- COMMIT_POINT (R38–R42, R88, R98, R111): a group with a pending commit reaches a commit point. `dir` says which, where it has
several: the direction whose gap it is for a port page that changes no line field, the port at its gap for group 9, the pipe or deep parser between two frames for PARSE and CLASS groups 0 and 1, the host
port between two turns for QMGR. The set is
checked once, before any of it takes effect. -/
def execCommitPoint (base dir : Nat) (s : State) : Host.Outcome State Fault Refusal :=
  lift (fun d =>
    if !(isGroup base) || !(bitR d (base + 8) 0) || decide (regState d base ≠ 0) || decide (48 ≤ dir) ||
        (decide (base / 2 ^ 20 = 2) && decide (1 < dir)) then d
    else if !(partTaken d base) && !(capOk d base) then commitRefused base d
    else
      let r := applyCommit base dir d
      if r.1 then commitDone base r.2 else r.2) s

end Sys2Proof.Machine
end

