-- ==== Sys2Proof/Machine/FnReset.lean ====
section
/-! DEFINITION. Resets of functions: PERST_N, hot reset, FLR, FN_RESET, VF Enable (R363, R373, R390, R403, R418). -/

namespace Sys2Proof.Machine

/-- Frames held for a function are dropped and counted in HOLD_DROP (R373, R378). -/
def dropHeldOf (f : Nat) (d : Dev) : Dev :=
  let h := fnPort f
  let (mine, rest) := (hp d h).hold.partition fun (it : RxItem) => decide (it.fn = f)
  let d := hpU h (fun p => { p with hold := rest, holdBytes := p.holdBytes - (mine.map fun it => holdCharge it.frame.bytes.length).sum }) d
  mine.foldl (fun d it => dropUnseq it.frame (ctrInc (0xD00118 + 0x40 * h) d)) d

/-- A function's queues and ring registers go, its MSI-X table and Pending Bit Array are reset, and its generation
advances (R373, R403, R404): what belongs to the old generation is discarded and counted in GEN_DISCARD; packets already
in the packet buffer are sent. -/
def fnReset (f : Nat) (d : Dev) : Dev :=
  let x := fn d f
  let d := if x.intxOn then emit (.intx f false) d else d
  let parked := ((d.queues.filter fun e => decide (e.1 / 262144 = f)).map fun e => e.2.parked.length).sum
  let d := ctrAdd 0x900130 parked (regW 0x900014 (regR d 0x900014 + BitVec.ofNat 32 parked) d)
  let (gone, kept) := d.pkts.partition fun p => decide (p.fn = f) && decide (p.stage = 0)
  let d := ctrAdd 0x900130 gone.length (regW 0x900018 (regR d 0x900018 - BitVec.ofNat 32 gone.length) { d with pkts := kept })
  let out := fun (k : Nat) => (decide (fnKey f 0x100 ≤ k) && decide (k < fnKey f 0x300)) ||
    (decide (fnKey f 0x7000 ≤ k) && decide (k < fnKey f 0x10000)) || decide (k = fnKey f 0x14)
  let d := { d with queues := d.queues.filter fun e => decide (e.1 / 262144 ≠ f), regs := d.regs.filter fun e => !(out e.1) }
  let d := fnU f (fun y => { ({} : Fn) with
    mse := y.mse, vfMse := y.vfMse, bme := y.bme, parityResp := y.parityResp, serr := y.serr, intxDisable := y.intxDisable, d3hot := y.d3hot
    msixEnable := y.msixEnable, maxPayload := y.maxPayload, maxRead := y.maxRead, vfEnable := y.vfEnable, numVfs := y.numVfs
    gen := (y.gen + 1) % 256, ready := y.ready, resetBusy := y.resetBusy, log := y.log, vfConfig := y.vfConfig
    spoofMask := y.spoofMask, grants := y.grants, ceilings := y.ceilings, jobs := y.jobs, gateSlots := y.gateSlots }) d
  let d := if f = 0 ∨ f = 2 then hpU (fnPort f) (fun p => { p with spdm := 0 }) d else d
  dropItemsOf f (dropHeldOf f d)

/-- VF Enable of a PF is cleared: each of its VFs is reset, and its dirty log stops (R373, R390). -/
def dropVfs (pf : Nat) (d : Dev) : Dev :=
  let kept := (fn d pf).vfKept
  let vs := ((List.range 1024).filter fun f => isVf f && decide (parentPf f = pf) && (fnPresent d f || decide (vfIndex f ≤ kept)))
  let d := fnU pf (fun x => { x with vfEnable := false, vfKept := 0 }) d
  vs.foldl (fun d f => fnU f (fun x => { x with log := none, ready := false, resetBusy := false }) (fnReset f (cfgDefaults f d))) d

/-- A function's reset begins: it stops issuing requests (R373, R418). `all`: its configuration returns to its defaults. -/
def beginReset (f : Nat) (all : Bool) (d : Dev) : Dev :=
  let d := if all && !(isVf f) then dropVfs f d else d
  let d := if isLedgerPf f && islandOn d 48 then ctrlReset f true d else d
  let d := holdFn f (fnU f (fun x => { x with ready := false, resetBusy := true }) d)
  if all then cfgDefaults f d else d

/-- FLR (R373). -/
def execFlr (fn : Nat) (s : State) : Host.Outcome State Fault Refusal :=
  lift (fun d => if fnPresent d fn then beginReset fn true d else d) s

/-- FN_RESET (R373): a write of the register, which PF1 and PF3 do not have on the M (R3); bit 0 is RESET. Configuration space stands as it is, but a PF's VF Enable
goes as at an FLR. -/
def execFnReset (fn : Nat) (v : Word) (s : State) : Host.Outcome State Fault Refusal :=
  lift (fun d =>
    if fnPresent d fn && Word.bit v 0 && !(isFrozen d (fnPort fn)) && !(!(hasLedger d.variant) && decide (fn = 1 ∨ fn = 3)) then
      beginReset fn false (if isVf fn then d else dropVfs fn d)
    else d) s

/-- FLR_DONE (R373): completions have drained or 50 ms have passed. -/
def execFlrDone (fn : Nat) (s : State) : Host.Outcome State Fault Refusal :=
  lift (fun d =>
    if (Sys2Proof.Machine.fn d fn).resetBusy then
      let d := fnU fn (fun x => { x with ready := true, resetBusy := false, frozen := false }) (fnReset fn d)
      postDev 0xD4 (leBytes 2 fn ++ leBytes 1 (Sys2Proof.Machine.fn d fn).gen) d
    else d) s

/-- The functions of a host port that are present. -/
def portFns (d : Dev) (h : Nat) : List Nat := (List.range 1024).filter fun f => decide (fnPort f = h) && fnPresent d f

/-- A host port's functions are reset (R363): its PFs as by FLR, and with them their VFs. -/
def resetPortFns (h : Nat) (d : Dev) : Dev :=
  let d := [2 * h, 2 * h + 1].foldl (fun d f => if fnPresent d f then beginReset f true d else d) d
  hpU h (fun p => { p with spdm := 0, aspmL1 := false }) d

/-- A host port's link goes down. -/
def hostDown (h : Nat) (d : Dev) : Dev :=
  let was := (hp d h).linkUp
  let d := regW (0xD00010 + 4 * h) 0 (hpU h (fun p => { p with linkUp := false, linkL0 := false, inL1 := false, l1sub := 0 }) d)
  if was then postDev 0xD2 (leBytes 1 h ++ leBytes 1 0 ++ leBytes 1 0 ++ leBytes 1 0) d else d

/-- PERST_N (R363): its assertion is a fundamental reset of the port; its release lets the link train. -/
def execPerstN (h : Nat) (asserted : Bool) (s : State) : Host.Outcome State Fault Refusal :=
  lift (fun d =>
    if decide (numHosts d.variant ≤ h) then d
    else if asserted then
      resetPortFns h (hostDown h (hpU h (fun p => { p with perst := true, aerCor := 0, aerUncor := 0, aerHdr := [] }) d))
    else hpU h (fun p => { p with perst := false }) d) s

/-- HOT_RESET (R363): a hot reset or a Link Disable. -/
def execHotReset (h : Nat) (s : State) : Host.Outcome State Fault Refusal :=
  lift (fun d => if (hp d h).linkUp then resetPortFns h (hostDown h d) else d) s

/-- VF_ENABLE (R390, R403): a write of VF Enable with NumVFs, which is read-only while the bit is set. VFs that a freeze has kept over
a link that went down are restored as they stood (R379). -/
def execVfEnable (pf : Nat) (on : Bool) (numVfs : Nat) (s : State) : Host.Outcome State Fault Refusal :=
  lift (fun d =>
    if !(decide (pf = 0) || decide (pf = 2)) || !(fnPresent d pf) || (fn d pf).vfEnable == on then d
    else if on then
      let d := fnU pf (fun x => { x with vfEnable := true, numVfs := numVfs }) d
      let kept := (fn d pf).vfKept
      let d := fnU pf (fun x => { x with vfKept := 0 }) d
      let vs := (List.range 1024).filter fun f => isVf f && decide (parentPf f = pf) && fnPresent d f && decide (kept < vfIndex f)
      vs.foldl (fun d f => fnU f (fun x => { x with gen := (x.gen + 1) % 256, ready := false }) d) d
    else dropVfs pf d) s

/-- VF_READY (R390). -/
def execVfReady (vf : Nat) (s : State) : Host.Outcome State Fault Refusal :=
  lift (fun d =>
    if isVf vf && fnPresent d vf && !(fn d vf).resetBusy then fnU vf (fun x => { x with ready := true }) d else d) s

/-! ### A function works again (R368, R372, R377) -/

/-- A ledger controller writes the completions that waited and fetches again. -/
def ledgerWake (f : Nat) (d : Dev) : Dev := if f = 1 ∨ f = 3 then ctrlGo f d else d

/-- A function may issue DMA again. -/
def wakeFn (f : Nat) (d : Dev) : Dev := ledgerWake f (resumeFn f d)

/-- BUS_MASTER_ENABLE (R372). -/
def execBusMasterEnable (fn : Nat) (on : Bool) (s : State) : Host.Outcome State Fault Refusal :=
  lift (fun d =>
    if !(fnPresent d fn) then d
    else if on then wakeFn fn (fnU fn (fun x => { x with bme := true }) d)
    else holdFn fn (fnU fn (fun x => { x with bme := false }) d)) s

/-- D3HOT (R368, R372): PFs only. -/
def execD3hot (fn : Nat) (enter : Bool) (s : State) : Host.Outcome State Fault Refusal :=
  lift (fun d =>
    if !(fnPresent d fn) || isVf fn then d
    else if enter then holdFn fn (fnU fn (fun x => { x with d3hot := true }) d)
    else wakeFn fn (fnU fn (fun x => { x with d3hot := false }) d)) s

/-- FRZ_RELEASE (R377, R380): a write of FRZ_CTL. Bits 1:0 are stored; RELEASE starts the release of a frozen port,
or is refused. -/
def execFrzRelease (h : Nat) (v : Word) (s : State) : Host.Outcome State Fault Refusal :=
  lift (fun d =>
    let ck := cfgKey (2 * h) 0x2D8
    let k := frzStatKey h
    let d := regW ck (Word.put (regR d ck) 1 0 (Word.fld v 1 0)) d
    if !(Word.bit v 31) then d
    else if !(hp d h).linkL0 || decide (fldR d k 3 0 ≠ 0) then bitW k 29 true d
    else if !(isFrozen d h) then d
    else
      let d := fldW k 7 4 0 (bitW k 30 true (bitW k 31 false d))
      let d := hpU h (fun y => { y with delivered := 0 }) d
      let fs := (d.fns.map Prod.fst).filter fun f => decide (fnPort f = h)
      let d := fs.foldl (fun d f => if mayDma d f then ledgerWake f (firePending f (writeWaiting f d)) else d) d
      eachQueue (fun f => decide (fnPort f = h)) (fun f qt lq d =>
        if qt = 1 ∧ mayDma d f = true then
          takeRecord f 1 lq (le (dmaRead d f (queue d f 1 lq).recAddr 2) 0 2) d
        else d) d) s

end Sys2Proof.Machine
end

