-- ==== Sys2Proof/Machine/Service.lean ====
section
/-! DEFINITION. Power domains, unit resets, pipe remaps, isolation and device-fatal errors (R552–R560, R567, R568). -/

namespace Sys2Proof.Machine
open Sys2Proof

/-! ### Frames lost with a unit -/

/-- A frame is lost with the unit that holds it: a host packet completes ADMISSION (R558, R560), a sequenced frame is counted
in DELIVERY_DROP (R216), and an unsequenced one's record ends DROPPED (R235). -/
def loseFrame (f : Frame) (d : Dev) : Dev :=
  let d := freeSlot f (dropPkt f 6 d)
  if f.seq.isSome then deliveryDrop f d else finishRec f true d

def itemFrame : Item → Frame
  | .ingress f => f
  | .gate _ f => f
  | .course _ f => f
  | .rx _ _ f => f
  | .egress _ _ f => f
  | .plumb _ f => f

/-- Entries bound for an island that goes OFF or is isolated are discarded (R22, R45): those for a course count in COURSE_OFF of
the pipe each passed (R220, R558). An island in RETAIN or in reset keeps its entries, but for CS in reset, whose arrivals are
discarded at the pipes (R558). -/
def dropXings (n : Nat) (d : Dev) : Dev :=
  let keeps := xingTakes d n
  let (mine, rest) := d.xings.partition fun (x : Xing) => decide (x.dst = n)
  if mine.isEmpty || (keeps && !(decide (n = csIsland) && (dom d n).resetting)) then d else
  let d := { d with xings := rest }
  mine.foldl (fun d x =>
    let d := match x.item with
      | .course _ f => ctrInc (0x300820 + 0x40 * f.pipe) d
      | _ => d
    loseFrame (itemFrame x.item) d) (if keeps then d else discardN n mine.length d)

/-- Part a list: each element whose frame has cells in a packet-buffer half goes; which frames do, the spec leaves open (log
entry 2). -/
def sieve {α : Type} (xs : List α) (d : Dev) : List α × List α × Dev :=
  xs.foldl (fun (a : List α × List α × Dev) x =>
    let (n, d) := fresh a.2.2
    if n % 2 = 1 then (a.1, a.2.1 ++ [x], d) else (a.1 ++ [x], a.2.1, d)) ([], [], d)

/-- Frames with cells in a packet-buffer half are dropped (R558). -/
def dropHalf (d : Dev) : Dev :=
  let (keep, gone, d) := sieve (d.xings.filter fun x => (xingFrame x).isSome) d
  let d := gone.foldl (fun d x => loseFrame (itemFrame x.item) d)
    { d with xings := d.xings.filter (fun x => (xingFrame x).isNone) ++ keep }
  let d := loopN (48 * 16) (fun i d =>
    let (keep, gone, d) := sieve (egq d (i / 16) (i % 16)) d
    gone.foldl (fun d f => loseFrame f d) (egqW (i / 16) (i % 16) keep d)) d
  let d := loopN 4 (fun c d =>
    let (keep, gone, d) := sieve (course d c).held d
    setOcc c (gone.foldl (fun d h => loseFrame h.frame d) (courseU c (fun x => { x with held := keep }) d))) d
  let d := loopN 2 (fun h d =>
    let (keep, gone, d) := sieve (hp d h).rx d
    gone.foldl (fun d (x : RxItem) => loseFrame x.frame d) (hpU h (fun p => { p with rx := keep }) d)) d
  let (_, gone, d) := sieve ((d.copies.map fun c => c.pkt).dedup) d
  let d := (d.copies.filter fun c => gone.contains c.pkt).foldl (fun d c => copyUnsent c.pkt c.group c.port 6 c.wit (copyRemove c d)) d
  loopN 6 (fun c d => loopN 64 (fun t d =>
    match (thr d c t).item with
    | some i =>
      let (n, d) := fresh d
      if n % 2 = 1 then gateDrop i.frame (dropItem c t d) else d
    | none => d) d) d

/-! ### An island stops and starts -/

/-- The half of a W island, the pipe of an IP or EP island, and so on: the island's number within its kind. -/
def kindNum (n base : Nat) : Nat := n - base

/-- What an egress pipe's loss does to the frames it schedules (R560): those in the queues of its ports and the plumb copies of
groups it is home to. -/
def dropEgress (e : Nat) (d : Dev) : Dev :=
  let ps := (List.range 48).filter fun p => portPresent d.variant p && decide (egressPipe d p = e)
  let d := ps.foldl (fun d p => loopN 16 (fun q d =>
    let fs := egq d p q
    fs.foldl (fun d f => discardTx p 6 f d) (egqW p q [] d)) d) d
  (d.copies.filter fun c => decide (egressPipe d (fldR d (gKey c.group 0x40) 21 16) = e)).foldl
    (fun d c => copyUnsent c.pkt c.group c.port 6 c.wit (copyRemove c d)) d

/-- An island's fret or tap is no longer valid (R30). -/
def tapGone (n : Nat) (d : Dev) : Dev :=
  if hasTap n then bitW (0x400 + 4 * n) 0 false { d with taps := Tbl.set (fun _ => {}) d.taps n {} } else d

/-- An island goes to RETAIN (R552, R555): its ports, link or drive go down, and what its logic holds is kept, frozen. -/
def freezeIsland (n : Nat) (d : Dev) : Dev :=
  let d := tapGone n d
  if 1 ≤ n ∧ n ≤ 8 then startIslandReset n d
  else if n = 42 ∨ n = 43 then (portFns d (n - 42)).foldl (fun d f => holdFn f d) (hostDown (n - 42) d)
  else if 44 ≤ n ∧ n ≤ 47 then drvFollow (n - 44) 5 d
  else d

/-- An island stops working and loses what its logic holds: its fret or tap is no longer valid, entries bound for it are discarded, and
its dependants act as for a unit that goes OFF (R30, R45, R555, R567). The domain's record already says so. -/
def stopIsland (n : Nat) (d : Dev) : Dev :=
  let d := dropXings n (tapGone n d)
  if 1 ≤ n ∧ n ≤ 8 then startIslandReset n d
  else if 9 ≤ n ∧ n ≤ 14 then
    let i := kindNum n 9
    let dq := d.deepQ.filter fun x => decide (x.2.1 = i)
    let mq := d.dramQ.filter fun x => decide (x.pipe = i)
    let deepQ := d.deepQ.filter fun x => decide (x.2.1 ≠ i)
    let dramQ := d.dramQ.filter fun x => decide (x.pipe ≠ i)
    let d := { d with deepQ := deepQ, dramQ := dramQ }
    mq.foldl (fun d x => loseFrame x.frame d) (dq.foldl (fun d x => loseFrame x.2.2 (countParse x.2.2 d)) d)
  else if 15 ≤ n ∧ n ≤ 20 then dropEgress (kindNum n 15) d
  else if n = 21 ∨ n = 22 then halfFails (n - 21) d
  else if n = 23 then
    loopN 4 (fun c d =>
      let hs := (course d c).held
      setOcc c (hs.foldl (fun d h => loseFrame h.frame d)
        (courseU c (fun x => { x with held := [], front := none, horizon := none, tieFirst := none }) d))) d
  else if n = 26 ∨ n = 27 then dropHalf d
  else if 28 ≤ n ∧ n ≤ 33 then loopN 64 (fun t d => decideItem (n - 28) t 0x28 (failItem (n - 28)) d) d
  else if 34 ≤ n ∧ n ≤ 41 then
    if (dch d (n - 34)).inService then
      loopN 4 (fun r d => if [1, 3, 4].contains (rankSt d (4 * (n - 34) + r)) then removeRank (4 * (n - 34) + r) d else d) d
    else d
  else if n = 42 ∨ n = 43 then
    let h := n - 42
    let rx := (hp d h).rx
    let d := rx.foldl (fun d (x : RxItem) => dropUnseq x.frame d) (hpU h (fun p => { p with rx := [] }) (hostDown h d))
    (portFns d h).foldl (fun d f => holdFn f d) d
  else if 44 ≤ n ∧ n ≤ 47 then drvFollow (n - 44) 5 d
  else if n = 48 then ctrlReset 3 true (ctrlReset 1 true d)
  else d

/-- What an island's SRAM held is lost (R552). -/
def loseIsland (n : Nat) (d : Dev) : Dev :=
  if n = 24 ∨ n = 25 then
    let d := loopN 8 (fun t d => fldW (0x402104 + 16 * t) 31 0 0 d) d
    let tables := d.tables.map fun (e : Nat × LTable) => (e.1, { e.2 with ents := [] })
    { d with tables := tables, sessions := [], rss := [],
             policers := d.policers.map fun (e : Nat × Policer) => (e.1, { counts := e.2.counts }) }
  else if n = 27 then loseSpace pbSpace d
  else if 28 ≤ n ∧ n ≤ 33 then
    let c := n - 28
    let d := { d with comps := d.comps.filter fun x => decide (x.id ≠ 0x10 + c) }
    let d := loopN 8 (fun k d => loseSpace (instrSpace c k) (loseSpace (coreSpace c k) d)) (loseSpace (clusterSpace c) d)
    loopN 64 (fun t d => loseSpace (windowSpace c t) d) d
  else if n = 42 ∨ n = 43 then (portFns d (n - 42)).foldl (fun d f => fnReset f d) d
  else d

/-- An island works again (R552, R556): ports come up, functions resume, drives are sought; `reload`: a cluster loads its gate
image, whose tags are `imageOk` (R524, R552). -/
def startIsland (n : Nat) (reload imageOk : Bool) (d : Dev) : Dev :=
  if 1 ≤ n ∧ n ≤ 8 then
    let d := setFretValid n d
    (islandUsers d n).foldl (fun d p => evalPort p d) d
  else if 28 ≤ n ∧ n ≤ 33 then
    if reload then (if d.foot.lifecycle = 2 then loadCluster (n - 28) none d else bootGate (if imageOk then [] else [2 + (n - 28)]) (n - 28) d) else d
  else if n = 42 ∨ n = 43 then (portFns d (n - 42)).foldl (fun d f => wakeFn f d) d
  else if 44 ≤ n ∧ n ≤ 47 then drvFollow (n - 44) 5 d
  else d

/-! ### Domain commands (R552–R556) -/

def domCode : DomSt → Nat
  | .on => 0
  | .retain => 1
  | .off => 2

/-- Whether a transition to RETAIN or OFF is accepted (R555); `mgmt`: the command came over the management bus. An isolated half or
cluster, which can no longer be released, counts as released (log entry 48). -/
def mayLeave (d : Dev) (n : Nat) (mgmt : Bool) : Bool :=
  let v := d.variant
  let ports := (List.range 9).filter fun i => decide (1 ≤ i) && islandPresent v i
  let at_ (i hi lo : Nat) : Nat := fldR d (0x700 + 4 * ((i - 1) / 4)) (8 * ((i - 1) % 4) + hi) (8 * ((i - 1) % 4) + lo)
  let dark (a b : Nat) : Bool := (List.range 6).all fun i =>
    (!(islandPresent v (a + i)) || decide ((dom d (a + i)).st ≠ .on)) && (!(islandPresent v (b + i)) || decide ((dom d (b + i)).st ≠ .on))
  if n ≤ 8 then true
  else if n ≤ 14 then ports.all fun i => decide (at_ i 2 0 ≠ n - 9)
  else if n ≤ 20 then ports.all fun i => decide (at_ i 6 4 ≠ n - 15)
  else if n ≤ 22 then (dom d n).failed || d.wit.relHalves.contains (n - 21) && !(d.wit.halfJobs.any fun j => decide (j.1 = n - 21 ∧ j.2.1 = 0))
  else if n = 23 then (List.range 4).all fun c => !(courseOn d c)
  else if n ≤ 25 then dark 9 9
  else if n ≤ 27 then dark 9 15 && (List.range 32).all fun w => decide (effF d (0xD01104 + 0x1000 * (w / 8) + 16 * (w % 8)) 31 30 ≠ 1)
  else if n ≤ 33 then (dom d n).failed || d.released.contains (n - 28)
  else if n ≤ 41 then !(dch d (n - 34)).inService
  else if n ≤ 43 then isFrozen d (n - 42) && (mgmt || decide (n = 43))
  else if n ≤ 47 then true
  else !(bitR d (ccKey 1) 0) && !(bitR d (ccKey 3) 0)

/-- A response on the management bus (R572): COMMAND, STATUS, data. -/
def mgmtReply (command status : Nat) (data : Bytes) (d : Dev) : Dev :=
  emit (.mctp (leBytes 1 command ++ leBytes 1 status ++ data)) d

/-- A domain command completes. -/
def domEnd (j : DomJob) (st : Nat) (d : Dev) : Dev :=
  match j.held with
  | some h => completeHeld h st 0 d
  | none => mgmtReply 4 st [] d

/-- Whether an island holds work in its logic: it is ON and works, or stands frozen in RETAIN (R552). -/
def holdsWork (d : Dev) (n : Nat) : Bool := islandOn d n || (decide ((dom d n).st = .retain) && !(dom d n).failed && !(dom d n).lost)

/-- Start a domain transition (R554–R556): the island freezes for RETAIN or stops for OFF, or its power comes back. -/
def domStart (j : DomJob) (d : Dev) : Dev :=
  let was := islandOn d j.island
  let holds := holdsWork d j.island
  let d := { d with doms := Tbl.upd (fun _ => {}) d.doms j.island fun x => { x with target := j.st, busy := true } }
  match j.st with
  | .on => d
  | .retain => if was then freezeIsland j.island d else d
  | .off => if holds then stopIsland j.island d else d

/-- Run domain commands and unit resets that may start: one domain command at a time, in order; a unit reset and a domain command
of one island one after the other (R308, R554). -/
def domRun : Nat → Dev → Dev
  | 0, d => d
  | k + 1, d =>
    match d.domJobs with
    | [] => d
    | j :: rest =>
      if j.started || d.rstJobs.any (fun r => decide (r.island = j.island) && r.started) then d
      else if (dom d j.island).st = j.st then domRun k (domEnd j 0 { d with domJobs := rest })
      else if j.st ≠ .on ∧ mayLeave d j.island j.held.isNone = false then domRun k (domEnd j stBadState { d with domJobs := rest })
      else domStart j { d with domJobs := { j with started := true } :: rest }

/-- The statuses of a DOMAIN_SET before it runs. -/
def domStatus (d : Dev) (n st : Nat) : List (Bool × Nat) :=
  [(decide (n = 0) || decide (48 < n) || decide (2 < st), stBadParam), (!(islandPresent d.variant n), stAbsent)]

def domSt (n : Nat) : DomSt := if n = 0 then .on else if n = 1 then .retain else .off

/-- DOMAIN_SET (R554, R555, R574). -/
def execDomainSet (c : Cmd) (s : State) : Host.Outcome State Fault Refusal :=
  lift (fun d =>
    checked c (firstStatus ([(decide (c.fn ≠ 0) || (cmdSelf c).isNone, stNotPermitted),
        (!(reservedOk c [(16, 1), (17, 1)]), stBadParam)] ++ domStatus d (c.f 16 1) (c.f 17 1)))
      (fun d =>
        let j : DomJob := { island := c.f 16 1, st := domSt (c.f 17 1), held := some (hold d c) }
        let d := noteHeld c { d with domJobs := d.domJobs ++ [j] }
        domRun d.domJobs.length d) d) s

/-! ### Unit resets (R558, R567) -/

/-- Whether a UNIT_RESET is accepted (R558). -/
def mayReset (d : Dev) (n : Nat) : Bool :=
  if n ≤ 8 then true
  else if (9 ≤ n ∧ n ≤ 22) ∨ (28 ≤ n ∧ n ≤ 41) then mayLeave d n true
  else if n = 42 ∨ n = 43 then isFrozen d (n - 42)
  else true

/-- Start a unit reset (R558): the island's logic is reset, its configuration, counters and SRAM are kept. -/
def resetStart (n : Nat) (d : Dev) : Dev :=
  let was := islandOn d n
  let d := if was && decide (n = 23) then
      loopN 4 (fun c d =>
        if !(courseOn d c) then d else
        let k := (course d c).held.length
        let d := courseU c (fun x => { x with front := none, horizon := none, tieFirst := none }) (releaseAll c 8 d)
        postDrained c k 3 (regW (coKey c 0x58) (regR d (coKey c 0x58) + 1) (fldW (coKey c 0x40) 22 17 0 d))) d
    else d
  let d := unlock (islandGroups n) { d with doms := Tbl.upd (fun _ => {}) d.doms n fun x => { x with resetting := true } }
  if was then stopIsland n d else d

/-- Run unit resets that may start: in order for one island, after a domain command of the island that runs. -/
def resetRun : List RstJob → List Nat → Dev → Dev
  | [], _, d => d
  | r :: rest, seen, d =>
    if r.started || seen.contains r.island || d.domJobs.any (fun j => decide (j.island = r.island) && j.started) then
      resetRun rest (r.island :: seen) d
    else if (dom d r.island).st ≠ .on then
      let jobs := (takeFirst (fun (x : RstJob) => decide (x = r)) d.rstJobs).elim d.rstJobs (·.2)
      resetRun rest seen (completeHeld r.held stUnitOff 0 { d with rstJobs := jobs })
    else if mayReset d r.island = false then
      let jobs := (takeFirst (fun (x : RstJob) => decide (x = r)) d.rstJobs).elim d.rstJobs (·.2)
      resetRun rest seen (completeHeld r.held stBadState 0 { d with rstJobs := jobs })
    else
      let jobs := updFirst (fun (x : RstJob) => decide (x = r)) (fun x => { x with started := true }) d.rstJobs
      resetRun rest (r.island :: seen) (resetStart r.island { d with rstJobs := jobs })

/-- Start what may start now. -/
def serviceRun (d : Dev) : Dev :=
  let d := domRun d.domJobs.length d
  resetRun d.rstJobs [] d

/-- DOMAIN_STATE (R554, R556, R567): the transition that runs completes. `pass`: a failed island's self-check, made when it comes
back from OFF; `imageOk`: a cluster's gate image verifies. -/
def execDomainState (pass imageOk : Bool) (s : State) : Host.Outcome State Fault Refusal :=
  lift (fun d =>
    match d.domJobs with
    | j :: rest =>
      if !j.started then d
      else
        let old := (dom d j.island).st
        let lost := (dom d j.island).lost
        let fix := lost && decide (j.st = .on) && pass
        let d := { d with
          domJobs := rest
          doms := Tbl.upd (fun _ => {}) d.doms j.island fun x => { x with st := j.st, busy := false, failed := x.failed && !fix, lost := decide (j.st ≠ .on) && (x.lost || decide (j.st = .off)) } }
        let d := if j.st = .off then loseIsland j.island d else d
        let d := if islandOn d j.island then startIsland j.island lost imageOk d else d
        let d := postDev 0x03 (leBytes 1 j.island ++ leBytes 1 (domCode old) ++ leBytes 1 (domCode j.st)) d
        serviceRun (domEnd j 0 d)
    | [] => d) s

/-- UNIT_RESET (R558, R574). -/
def execUnitReset (c : Cmd) (s : State) : Host.Outcome State Fault Refusal :=
  lift (fun d =>
    let n := c.f 16 1
    checked c (firstStatus [(decide (c.fn ≠ 0) || (cmdSelf c).isNone, stNotPermitted),
        (!(reservedOk c [(16, 1)]) || decide (n = 0) || decide (48 < n), stBadParam), (!(islandPresent d.variant n), stAbsent)])
      (fun d => serviceRun (noteHeld c { d with rstJobs := d.rstJobs ++ [{ island := n, held := hold d c }] })) d) s

/-- Whether a port island has come back (R113). -/
def islandBack (d : Dev) (n : Nat) : Bool :=
  fretValid d n && (islandUsers d n).all fun p =>
    decide (modeCfg d p = 0) || subsumed d p || decide (lstate d p ≠ 0)

/-- UNIT_RESET_DONE (R558, R567): the island works again, or fails its self-check and stays isolated. A port island completes once
its ports are back, with ISLAND_READY as PORT_ISLAND_RESET does. -/
def execUnitResetDone (n : Nat) (pass : Bool) (s : State) : Host.Outcome State Fault Refusal :=
  lift (fun d =>
    match takeFirst (fun (r : RstJob) => decide (r.island = n) && r.started) d.rstJobs with
    | none => d
    | some (r, rest) =>
      let bad := (dom d n).failed && !pass
      let again := (dom d n).resetting
      let d := { d with doms := Tbl.upd (fun _ => {}) d.doms n fun x => { x with resetting := false, failed := bad } }
      let d := if again && islandOn d n then
          startIsland n false true (if 28 ≤ n ∧ n ≤ 33 then
            loadCluster (n - 28) (if (clu d (n - 28)).image then some (clu d (n - 28)).entries else none) d else d)
        else d
      if !bad && decide (n ≤ 8) && !(islandBack d n) then d
      else
        let d := if n ≤ 8 ∧ bad = false then postDev 0x35 (leBytes 1 n) d else d
        let d := postDev 0x05 (leBytes 1 n ++ leBytes 1 (b2n bad)) (completeHeld r.held 0 (b2n bad) { d with rstJobs := rest })
        serviceRun d) s

/-! ### Pipe map (R559, R560) -/

/-- Configured line rate of a port island on its ingress and egress pipes in Gb/s: a 1.6TBASE-R port counts half on each quad's
ingress pipe and whole on the egress pipe of its lower quad. -/
def islandRate (d : Dev) (n : Nat) (egress : Bool) : Nat :=
  let own := ((islandPorts n).map fun p => if subsumed d p then 0 else
    if modeCfg d p = 8 ∧ egress = false then 800 else modeRate (modeCfg d p)).sum
  let low := ((List.range 16).filter fun p => decide (modeCfg d p = 8) && decide (portIsland p + 1 = n)).length
  if egress then own else own + 800 * low

/-- Rate of the pipe map with one port island moved. -/
def pipeLoad (d : Dev) (n pipe : Nat) (egress : Bool) : Nat :=
  let others := (List.range 9).filter fun i => decide (1 ≤ i) && decide (i ≠ n) && islandPresent d.variant i &&
    decide (fldR d (0x700 + 4 * ((i - 1) / 4)) (8 * ((i - 1) % 4) + (if egress then 6 else 2)) (8 * ((i - 1) % 4) + (if egress then 4 else 0)) = pipe)
  ((n :: others).map fun i => islandRate d i egress).sum

/-- Map a port island. -/
def mapIn (n ip : Nat) (d : Dev) : Dev := fldW (0x700 + 4 * ((n - 1) / 4)) (8 * ((n - 1) % 4) + 2) (8 * ((n - 1) % 4)) ip d
def mapOut (n ep : Nat) (d : Dev) : Dev := fldW (0x700 + 4 * ((n - 1) / 4)) (8 * ((n - 1) % 4) + 6) (8 * ((n - 1) % 4) + 4) ep d

/-- Start remaps that may start: in order for one island; each is checked when it starts (R559). A larger W takes effect first
(R204, R560 step 1). With the old ingress pipe not working the island sends to the new pipe from here. -/
def mapRun : List MapJob → List Nat → Dev → Dev
  | [], _, d => d
  | j :: rest, seen, d =>
    if j.started || seen.contains j.island then mapRun rest (j.island :: seen) d
    else
      let st := firstStatus [
        (decide (1600 < pipeLoad d j.island j.ip false) || decide (1600 < pipeLoad d j.island j.ep true), stBadParam),
        (!(islandOn d (ipIsland j.ip)) || !(islandOn d (epIsland j.ep)) || !(islandOn d j.island), stUnitOff)]
      if st ≠ 0 then
        let jobs := (takeFirst (fun (x : MapJob) => decide (x = j)) d.mapJobs).elim d.mapJobs (·.2)
        mapRun rest seen (completeHeld j.held st 0 { d with mapJobs := jobs })
      else
        let live := islandOn d (ipIsland (ingressPipe d ((islandPorts j.island).headD 0)))
        let jobs := updFirst (fun (x : MapJob) => decide (x = j)) (fun x => { x with started := true, holds := live }) d.mapJobs
        let d := coursesUpdate { d with mapJobs := jobs }
        mapRun rest (j.island :: seen) (if live then d else mapIn j.island j.ip d)

/-- PIPE_REMAP (R559, R560, R574). -/
def execPipeRemap (c : Cmd) (s : State) : Host.Outcome State Fault Refusal :=
  lift (fun d =>
    let n := c.f 16 1
    let ip := c.f 17 1
    let ep := c.f 18 1
    checked c (firstStatus [(decide (c.fn ≠ 0) || (cmdSelf c).isNone, stNotPermitted),
        (!(reservedOk c [(16, 1), (17, 1), (18, 1)]) || decide (n = 0) || decide (8 < n) || decide (5 < ip) || decide (5 < ep), stBadParam),
        (!(islandPresent d.variant n) || !(islandPresent d.variant (ipIsland ip)) || !(islandPresent d.variant (epIsland ep)), stAbsent)])
      (fun d =>
        let j : MapJob := { island := n, ip := ip, ep := ep, held := hold d c }
        let d := noteHeld c { d with mapJobs := d.mapJobs ++ [j] }
        mapRun d.mapJobs [] d) d) s

/-- Whether the old ingress pipe still has frames of a port island to pass. -/
def pipeBusy (d : Dev) (n : Nat) : Bool :=
  let i := ingressPipe d ((islandPorts n).headD 0)
  d.xings.any (fun x => decide (x.src = n) && decide (x.dst = ipIsland i)) ||
  d.deepQ.any (fun x => decide (x.2.1 = i) && decide (portIsland x.2.2.port = n)) ||
  d.dramQ.any (fun x => decide (x.pipe = i) && decide (portIsland x.frame.port = n))

/-- The new egress pipe of a port (R560 step 3): deficits 0, shaper buckets full, the gates at their place in the cycle. -/
def egressSwitch (p : Nat) (d : Dev) : Dev :=
  let full (i : Nat) : Bucket :=
    let x := shaperCfg (effR d) p i
    { level := burstUnits x.2.2, rest := 0, tick := now d }
  let bs : Tbl Bucket := (List.range 17).map fun i => (i, full i)
  gateRegs p (schedU p (fun x => { x with ptr := 4, inTurn := false, deficits := [], buckets := bs }) d)

/-- PIPE_REMAPPED (R560): the old ingress pipe has passed the island's last frame. -/
def execPipeRemapped (island : Nat) (s : State) : Host.Outcome State Fault Refusal :=
  lift (fun d =>
    match takeFirst (fun (j : MapJob) => decide (j.island = island) && j.started) d.mapJobs with
    | none => d
    | some (j, rest) =>
      if j.holds && pipeBusy d island then d
      else
        let ps := (islandPorts island).filter fun p => portPresent d.variant p
        let old := egressPipe d ((islandPorts island).headD 0)
        let dead := !(islandOn d (epIsland old))
        let d := if dead then
            ps.foldl (fun d p => loopN 16 (fun q d =>
              let fs := egq d p q
              fs.foldl (fun d f => discardTx p 6 f d) (egqW p q [] d)) d) d
          else d
        let d := mapOut island j.ep (mapIn island j.ip { d with mapJobs := rest })
        let d := j.frames.foldl (fun d f => send island (ipIsland j.ip) (.ingress f) d) d
        let d := if dead ∨ old ≠ j.ep then ps.foldl (fun d p => egressSwitch p d) d else d
        let d := postDev 0x04 (leBytes 1 island ++ leBytes 1 j.ip ++ leBytes 1 j.ep) (completeHeld j.held 0 0 d)
        let d := coursesUpdate d
        mapRun d.mapJobs [] d) s

/-! ### Errors (R563, R567, R568) -/

/-- UNIT_FAILED (R567): the island is isolated, and the error logged. -/
def unitFails (n code addr : Nat) (d : Dev) : Dev :=
  if n = 0 ∨ islandPresent d.variant n = false then d
  else
    let was := holdsWork d n
    let d := { d with doms := Tbl.upd (fun _ => {}) d.doms n fun x => { x with failed := true } }
    logErr 2 n code (leBytes 8 addr) (if was then stopIsland n d else d)

/-- SRAM_CE (R563). -/
def execSramCe (n addr : Nat) (s : State) : Host.Outcome State Fault Refusal :=
  lift (fun d => if islandOn d n then logErr 0 n 0xF100 (leBytes 8 addr) d else d) s

/-- SRAM_UE (R563, R567). -/
def execSramUe (n addr : Nat) (s : State) : Host.Outcome State Fault Refusal := lift (unitFails n 0xF200 addr) s

/-- XING_FAULT (R563, R567). -/
def execXingFault (n : Nat) (s : State) : Host.Outcome State Fault Refusal := lift (unitFails n 0xF300 0) s

/-- WARDEN_TIMEOUT (R563, R567). -/
def execWardenTimeout (n : Nat) (s : State) : Host.Outcome State Fault Refusal := lift (unitFails n 0xF400 0) s

/-- A host port acts as frozen with no cause recorded (R568). -/
def fatalFreeze (h : Nat) (d : Dev) : Dev :=
  if isFrozen d h ∨ numHosts d.variant ≤ h then d
  else
    let k := frzStatKey h
    let d := bitW k 30 false (bitW k 31 true d)
    eachQueue (fun f => decide (fnPort f = h)) (fun f qt lq d =>
      if qt = 2 then d else queueU f qt lq (fun q => qReHold { q with holdFrz := true, turn := none, asm := {} }) d) d

/-- DEVICE_FATAL (R568). -/
def deviceFatal (code : Nat) (d : Dev) : Dev :=
  let was := alertOn d
  let d := fatalFreeze 1 (fatalFreeze 0 d)
  let d := logErr 3 0 code [] (driveAlert was { d with fatal := true })
  setHealthy false d

/-- AON_POWER (R568, R586). -/
def execAonPower (s : State) : Host.Outcome State Fault Refusal := lift (deviceFatal 0xF700) s

/-- RING_FAULT (R568). -/
def execRingFault (s : State) : Host.Outcome State Fault Refusal := lift (deviceFatal 0xF800) s

/-- BRIDGE_WDT (R568). -/
def execBridgeWdt (s : State) : Host.Outcome State Fault Refusal := lift (deviceFatal 0xF900) s

/-- KEYVAULT (R568). -/
def execKeyvault (s : State) : Host.Outcome State Fault Refusal := lift (deviceFatal 0xFA00) s

/-- TIME_ISLAND (R568): the time outputs are held inactive as well. -/
def execTimeIsland (s : State) : Host.Outcome State Fault Refusal :=
  lift (fun d =>
    let d := timeU (fun t => { t with ppsOn := [false, false, false, false] }) (deviceFatal 0xFB00 { d with timeDead := true })
    loopN 4 (fun i d => emit (.pin (pinPpsOut i) (effB d (0x108030 + 4 * i) 4 && effB d (0x108030 + 4 * i) 0)) d) (emit (.pin pinTenMhz false) d)) s

/-- ERRLOG_READ (R564, R574). -/
def execErrlogRead (c : Cmd) (s : State) : Host.Outcome State Fault Refusal :=
  lift (fun d =>
    let first := c.f 16 1
    let n := c.f 17 1
    let buf := c.f 24 8
    checked c (firstStatus [(decide (c.fn ≠ 0) || (cmdSelf c).isNone, stNotPermitted),
        (!(reservedOk c [(16, 1), (17, 1), (24, 8)]) || decide (n = 0) || decide (128 < n) || decide (256 < first + n) ||
          decide (buf % 64 ≠ 0), stBadParam)])
      (fun d => reply c buf ((List.range n).flatMap fun i => match d.errs[first + i]? with
        | some e => errBytes e
        | none => zeros 32) d) d) s

/-- BRG_ERR_ACK (R566): a write of the register. -/
def execBrgErrAck (v : Word) (s : State) : Host.Outcome State Fault Refusal :=
  lift (fun d => if isFrozen d 0 then d else ackErr v.toNat d) s

/-! ### Temperature (R569, R570) -/

/-- A threshold of one island: crossed upwards it posts THERMAL and logs an entry; 5 °C below it posts again. -/
def thermal (n : Nat) (t thr : Int) (which : Nat) (above : Bool) (d : Dev) : Bool × Dev :=
  let post (up : Nat) (d : Dev) : Dev := postDev 0x06 (leBytes 1 n ++ leBytes 1 (ofSigned 8 t) ++ leBytes 1 which ++ leBytes 1 up) d
  if !above && decide (thr < t) then
    (true, logErr (if which = 2 then 1 else 0) n (0xF500 + which) (leBytes 1 n ++ leBytes 1 (ofSigned 8 t) ++ leBytes 1 which ++ leBytes 1 1) (post 1 d))
  else if above && decide (t ≤ thr - 5) then (false, post 0 d)
  else (above, d)

def inList (b : Bool) (n : Nat) (l : List Nat) : List Nat := if b then (if l.contains n then l else l ++ [n]) else l.filter (· ≠ n)

/-- The hottest island shown in BRG_TEMP. -/
def showTemp (d : Dev) : Dev :=
  let ns := (List.range 49).filter fun n => islandPresent d.variant n || decide (n = 0)
  let t (n : Nat) : Int := toSigned 8 (fldR d (0x900 + 4 * n) 7 0)
  let hot := ns.foldl (fun (a : Nat) n => if t a < t n then n else a) 0
  regW 0x820 (BitVec.ofNat 32 (ofSigned 8 (t hot) + 2 ^ 8 * hot + 2 ^ 16 * b2n (decide (d.hotWarn ≠ [])) + 2 ^ 17 * b2n (decide (d.hotCrit ≠ [])))) d

/-- TEMP_SENSOR_READ (R569): readings of islands in °C. -/
def execTempSensorRead (temps : List (Nat × Int)) (s : State) : Host.Outcome State Fault Refusal :=
  lift (fun d =>
    showTemp (temps.foldl (fun d x =>
      if 48 < x.1 ∨ (x.1 ≠ 0 ∧ islandPresent d.variant x.1 = false) then d
      else
        let d := fldW (0x900 + 4 * x.1) 7 0 (ofSigned 8 x.2) d
        let (w, d) := thermal x.1 x.2 (effF d 0x800 31 24) 1 (d.hotWarn.contains x.1) d
        let (c, d) := thermal x.1 x.2 (effF d 0x800 23 16) 2 (d.hotCrit.contains x.1) d
        { d with hotWarn := inList w x.1 d.hotWarn, hotCrit := inList c x.1 d.hotCrit }) d)) s

/-- THERMTRIP (R570, R594): main power goes until the next cold reset, with no MAIN_POWER entry. -/
def execThermtrip (s : State) : Host.Outcome State Fault Refusal :=
  lift (fun d =>
    if d.tripped then d
    else
      let d := emit (.pin pinThermtripN false) { d with tripped := true }
      let d := footU (fun x => { x with pg := false }) d
      logErr 2 0xFE 0xF600 [] (powerLost d)) s

end Sys2Proof.Machine
end

