-- ==== Sys2Proof/Machine/Resets.lean ====
section
/-! DEFINITION. Warm and cold resets of the device (R520, R545, R561, R562, R586). -/

namespace Sys2Proof.Machine
open Sys2Proof

/-- The registers of the always-on island, which a warm reset keeps (R561): BRG, TIME, FOOT and CAL, without what shows the state of
the islands it resets and without LOCK (R37). -/
def warmKept (k : Nat) : Bool :=
  (decide (k < 0x400) || (decide (0x800 ≤ k) && decide (k < 0x200000)) || (decide (0xE00000 ≤ k) && decide (k < 0xF00100)) ||
    (decide (0xF00400 ≤ k) && decide (k < 0x1000000))) && !(groupBases.any fun b => decide (k = b + 0xC))

/-- What the ledger has outside the switchable islands: the flash's records and the drives' presence and contents. -/
def ledgerKept (l : Ledger) : Ledger :=
  let keep (x : Drv) : Drv := { present := x.present, unread := x.unread, zero := x.zero }
  { volume := l.volume, epochs := l.epochs, attach := l.attach, drvs := l.drvs.map fun (e : Nat × Drv) => (e.1, keep e.2) }

/-- A host port after a device reset: only its PERST_N pin's level stands (R561). -/
def hportKept (p : HostPort) : HostPort := { perst := p.perst }

/-- A cluster after a warm reset: its cores' FAULT_COUNT runs since the cold reset (R490). -/
def faultsKept (g : GClu) : GClu :=
  { cores := (g.cores.map fun (k : Nat × GCore) => (k.1, { ({} : GCore) with faults := k.2.faults })).filter fun k => decide (k.2 ≠ {}) }

/-- A warm reset (R561): the always-on island is kept, every switchable island starts again without its contents. -/
def warmDev (d : Dev) : Dev :=
  let clusters : Tbl GClu := (d.clusters.map fun (e : Nat × GClu) => (e.1, faultsKept e.2)).filter fun e => decide (e.2 ≠ {})
  let keep (t : Tbl Word) : Tbl Word := t.filter fun e => warmKept e.1
  let ctrs : Tbl Nat := d.ctrs.filter fun e => warmKept e.1
  let hports : Tbl HostPort := d.hports.map fun (e : Nat × HostPort) => (e.1, hportKept e.2)
  let foot : Foot := { d.foot with act := none, actQ := [], needReset := false }
  let n : Dev := {
    variant := d.variant, regs := keep d.regs, eff := keep d.eff, cap := keep d.cap, ctrs := ctrs, mem := d.mem, wr := d.wr
    freeIdx := d.freeIdx, out := d.out, pktSeq := d.pktSeq, hports := hports, fatal := d.fatal, strs := d.strs, time := d.time
    errs := d.errs, errSeq := d.errSeq, errAck := d.errAck, cal := d.cal, calSect := d.calSect
    wit := journalLost d, comps := d.comps, untested := d.untested
    dram := { stored := d.dram.stored, trained := d.dram.trained, warm := true }, spEpoch := d.spEpoch, dbgPort := d.dbgPort, dbgCores := d.dbgCores
    ledger := ledgerKept d.ledger, foot := foot, tripped := d.tripped, timeDead := d.timeDead, hotWarn := d.hotWarn, hotCrit := d.hotCrit
    spdmMctp := d.spdmMctp, eids := d.eids, pldm := d.pldm, clusters := clusters }
  setHealthy false (loseContents (loopN 4 (fun i d => emit (.pin (pinDperst i) false) d) n))

/-- Footing reloads what does not live in the always-on island (R520, R545): from the running slot, whose failing tags send it to
recovery; in RETURNED from the same carrier. -/
def warmReload (tagBad : List Nat) (recovery : Bytes) (d : Dev) : Dev :=
  if d.foot.boot ≠ .running then d
  else if d.foot.lifecycle = 2 then
    let d := footU (fun x => { x with boot := .recovery, refused := 0, lastRefusal := none, waitFrom := now d }) d
    if d.foot.fromFlash then recoveryTake recovery true [] d else d
  else if tagBad.contains d.foot.runSlot then enterRecovery 5 false tagBad recovery d
  else bootGates tagBad d

/-- WARM_RESET (R520, R562): 1 ms after the DEVICE_RESET. -/
def execWarmReset (tagBad : List Nat) (recovery : Bytes) (s : State) : Host.Outcome State Fault Refusal :=
  lift (fun d =>
    match d.resetAt with
    | some t => if t ≤ now d then warmReload tagBad recovery (warmDev d) else d
    | none => d) s

/-- Schedule the warm reset (R562). -/
def askReset (d : Dev) : Dev := { d with resetAt := some (now d + 1000000) }

/-- DEVICE_RESET (R562, R574, R585). -/
def execDeviceReset (c : Cmd) (s : State) : Host.Outcome State Fault Refusal :=
  lift (fun d =>
    checked c (firstStatus [(decide (c.fn ≠ 0) || (cmdSelf c).isNone, stNotPermitted),
        (!(reservedOk c [(20, 4)]) || decide (c.f 20 4 ≠ 0x4D524157), stBadParam), (!d.foot.pg, stBadState)])
      (fun d => askReset (completeSt c 0 d)) d) s

/-- A cold reset (R561, R586): only flash, fuses and what lies outside the module stand; footing waits for RESET_N to be released. -/
def coldDev (d : Dev) : Dev :=
  let hports : Tbl HostPort := d.hports.map fun (e : Nat × HostPort) => (e.1, hportKept e.2)
  let foot : Foot := {
    slots := d.foot.slots, gates := d.foot.gates, svn := d.foot.svn, epoch := d.foot.epoch, revoked := d.foot.revoked
    lifecycle := d.foot.lifecycle, lcNext := d.foot.lcNext, token := d.foot.token, boots := d.foot.boots }
  let n : Dev := {
    variant := d.variant, mem := d.mem, wr := d.wr, freeIdx := d.freeIdx, out := d.out, hports := hports, calSect := d.calSect
    wit := { opening := d.wit.opening }, dram := { stored := d.dram.stored, trained := d.dram.trained }, spEpoch := d.spEpoch, ledger := ledgerKept d.ledger, foot := foot }
  let n := emit (.pin pinThermtripN true) (emit (.pin pinAlertN true) (emit (.pin pinHealthy false) (bootPins 0 false n)))
  loseContents (loopN 4 (fun i d => emit (.pin (pinDperst i) false) d) n)

/-- RESET_N (R586): an assertion of so many ns; one under 10 µs may be ignored (free, log entry 2). -/
def execResetN (ns : Nat) (s : State) : Host.Outcome State Fault Refusal :=
  lift (fun d =>
    if 10000 ≤ ns then coldDev d
    else
      let (n, d) := fresh d
      if n % 2 = 1 then coldDev d else d) s

/-- POWER_ON_RESET (R586). -/
def execPowerOnReset (s : State) : Host.Outcome State Fault Refusal := lift coldDev s

end Sys2Proof.Machine
end

