-- ==== Sys2Proof/Machine/Mgmt.lean ====
section
/-! DEFINITION. The management bus: vendor-defined messages (R572), MCTP control and PLDM (R539, R571). The layouts and command codes
of MCTP and PLDM are their standards' (PRESUMED, log entry 53). -/

namespace Sys2Proof.Machine
open Sys2Proof

/-- Whether footing or the bridge answers the management bus at all (R548, R568). -/
def busUp (d : Dev) : Bool := decide (d.foot.boot ≠ .held)

def isHalted (d : Dev) : Bool :=
  match d.foot.boot with
  | .halted _ => true
  | _ => false

/-- Whether more than READ_STATUS and READ_LOG is answered (R548, R568). -/
def busFull (d : Dev) : Bool := busUp d && !d.fatal && !(isHalted d)

/-- Whether the bridge firmware runs. -/
def bridgeUp (d : Dev) : Bool := decide (d.foot.boot = .running) && !d.fatal

/-- The code on BOOT_ERR (R519, R537, R548). -/
def bootCode (d : Dev) : Nat :=
  match d.foot.boot with
  | .halted c => c
  | .recovery => d.foot.primary
  | _ => 0

/-- The class of the worst unacknowledged entry, or 0xFF. -/
def worstClass (d : Dev) : Nat :=
  match (d.errs.filter fun e => decide (d.errAck < e.seq)).map (·.cls) with
  | [] => 0xFF
  | x :: xs => xs.foldl max x

/-! ### Vendor-defined messages (R572) -/

/-- READ_STATUS (R572). -/
def execReadStatus (s : State) : Host.Outcome State Fault Refusal :=
  lift (fun d =>
    if busUp d then
      mgmtReply 1 0 (leBytes 1 (bootCode d) ++ leBytes 1 (b2n d.foot.healthy) ++ leBytes 1 d.foot.lifecycle ++
        leBytes 1 (fldR d 0x820 7 0) ++ leBytes 1 (worstClass d)) d
    else d) s

/-- READ_LOG (R572): entries of R564; a slot not written reads 0. -/
def execReadLog (slot count : Nat) (s : State) : Host.Outcome State Fault Refusal :=
  lift (fun d =>
    if !(busUp d) then d
    else if count = 0 ∨ 8 < count ∨ 256 < slot + count then mgmtReply 2 stBadParam [] d
    else mgmtReply 2 0 ((List.range count).flatMap fun i => match d.errs[slot + i]? with
      | some e => errBytes e
      | none => zeros 32) d) s

/-- ACK_LOG (R566, R572). -/
def execAckLog (seq : Nat) (s : State) : Host.Outcome State Fault Refusal :=
  lift (fun d => if busFull d then mgmtReply 3 0 [] (ackErr (seq % 2 ^ 32) d) else d) s

/-- DOMAIN_SET over the management bus (R554–R556, R572). -/
def execMctpDomainSet (island st : Nat) (s : State) : Host.Outcome State Fault Refusal :=
  lift (fun d =>
    if !(bridgeUp d) then d
    else
      let x := firstStatus (domStatus d island st)
      if x ≠ 0 then mgmtReply 4 x [] d
      else serviceRun { d with domJobs := d.domJobs ++ [{ island := island, st := domSt st }] }) s

/-- DEVICE_RESET over the management bus (R562, R572, R585). -/
def execMctpDeviceReset (confirm : Nat) (s : State) : Host.Outcome State Fault Refusal :=
  lift (fun d =>
    if !(bridgeUp d) then d
    else if confirm ≠ 0x4D524157 then mgmtReply 5 stBadParam [] d
    else if !d.foot.pg then mgmtReply 5 stBadState [] d
    else askReset (mgmtReply 5 0 [] d)) s

/-! ### MCTP control (R571) -/

/-- A control response: command code, completion code, data. -/
def ctlReply (code cc : Nat) (data : Bytes) (d : Dev) : Dev :=
  emit (.mctp ([0x00] ++ leBytes 1 code ++ leBytes 1 cc ++ data)) d

/-- Whether an endpoint answers: 0 on SMBus, 1 behind PF0, 2 behind PF2. -/
def epUp (d : Dev) (ep : Nat) : Bool :=
  busFull d && (decide (ep = 0) ||
    (bridgeUp d && decide (ep ≤ numHosts d.variant) && islandOn d (hIsland (ep - 1)) && (hp d (ep - 1)).linkUp))

/-- SET_ENDPOINT_ID (R571): an ID of 1 to 0xFE is taken by operations 0 and 1. -/
def execSetEndpointId (ep op eid : Nat) (s : State) : Host.Outcome State Fault Refusal :=
  lift (fun d =>
    if !(epUp d ep) then d
    else if 1 < op ∨ eid = 0 ∨ 0xFE < eid then ctlReply 1 2 [] d
    else ctlReply 1 0 ([0] ++ leBytes 1 eid ++ [0]) { d with eids := setAt d.eids ep eid }) s

/-- GET_ENDPOINT_ID (R571). -/
def execGetEndpointId (ep : Nat) (s : State) : Host.Outcome State Fault Refusal :=
  lift (fun d => if epUp d ep then ctlReply 2 0 (leBytes 1 (d.eids.getD ep 0) ++ [0, Config.freeByte 11 0]) d else d) s

/-- GET_MCTP_VERSION_SUPPORT (R571): for the base and the message types the bridge carries; the version bytes are free. -/
def execGetMctpVersionSupport (type : Nat) (s : State) : Host.Outcome State Fault Refusal :=
  lift (fun d =>
    if !(busFull d) then d
    else if [0xFF, 0x00, 0x01, 0x05, 0x7E].contains type then
      ctlReply 4 0 ([1] ++ (List.range 4).map fun i => Config.freeByte 12 (4 * type + i)) d
    else ctlReply 4 0x80 [] d) s

/-- GET_MESSAGE_TYPE_SUPPORT (R571): control, PLDM, SPDM, vendor-defined. -/
def execGetMessageTypeSupport (s : State) : Host.Outcome State Fault Refusal :=
  lift (fun d => if busFull d then ctlReply 5 0 [4, 0x00, 0x01, 0x05, 0x7E] d else d) s

/-- GET_VENDOR_DEFINED_MESSAGE_SUPPORT (R571, R572): the one set, PCI format, 0x1F5A. -/
def execGetVendorDefinedMessageSupport (selector : Nat) (s : State) : Host.Outcome State Fault Refusal :=
  lift (fun d =>
    if !(busFull d) then d
    else if selector = 0 then ctlReply 6 0 ([0xFF, 0x00] ++ beBytes 2 0x1F5A ++ [Config.freeByte 13 0, Config.freeByte 13 1]) d
    else ctlReply 6 2 [] d) s

/-! ### PLDM base, monitoring and control (R571) -/

/-- A PLDM response: type, command code, completion code, data. -/
def pldmReply (type code cc : Nat) (data : Bytes) (d : Dev) : Dev :=
  emit (.mctp ([0x01] ++ leBytes 1 type ++ leBytes 1 code ++ leBytes 1 cc ++ data)) d

/-- A 32-byte bitmap of command codes. -/
def codeMap (codes : List Nat) : Bytes := leBytes 32 ((codes.map fun i => 2 ^ i).sum)

/-- GET_TID (R571): no command sets one, so it is unassigned. -/
def execGetTid (s : State) : Host.Outcome State Fault Refusal :=
  lift (fun d => if busFull d then pldmReply 0 2 0 [0] d else d) s

/-- GET_PLDM_VERSION (R571): the version and its check are free. -/
def execGetPldmVersion (type : Nat) (s : State) : Host.Outcome State Fault Refusal :=
  lift (fun d =>
    if !(busFull d) then d
    else if [0, 2, 5].contains type then
      pldmReply 0 3 0 (leBytes 4 0 ++ [5] ++ (List.range 8).map fun i => Config.freeByte 14 (8 * type + i)) d
    else pldmReply 0 3 0x83 [] d) s

/-- GET_PLDM_TYPES (R571): base, monitoring and control, firmware update. -/
def execGetPldmTypes (s : State) : Host.Outcome State Fault Refusal :=
  lift (fun d => if busFull d then pldmReply 0 4 0 (leBytes 8 0x25) d else d) s

/-- GET_PLDM_COMMANDS (R539, R571). -/
def execGetPldmCommands (type : Nat) (s : State) : Host.Outcome State Fault Refusal :=
  lift (fun d =>
    if !(busFull d) then d
    else if type = 0 then pldmReply 0 5 0 (codeMap [2, 3, 4, 5]) d
    else if type = 2 then pldmReply 0 5 0 (codeMap [0x11, 0x21, 0x50, 0x51]) d
    else if type = 5 then pldmReply 0 5 0 (codeMap [0x01, 0x02, 0x10, 0x13, 0x14, 0x15, 0x16, 0x17, 0x18, 0x1A, 0x1B, 0x1D]) d
    else pldmReply 0 5 0x83 [] d) s

/-- The sensors (R571), numbered by the model (log entry 53): 1 hottest island temperature, 2 VIN, 3 VIN_AON, 4 input power,
5 HEALTHY, 6 BOOT_ERR, 0x100 + n the state of domain n. -/
def sensors (d : Dev) : List Nat :=
  [1, 2, 3, 4, 5, 6] ++ ((List.range 49).filter fun n => islandPresent d.variant n && decide (n ≠ 0)).map fun n => 0x100 + n

/-- GET_PDR (R571): one record per sensor; its handle is its place, and beyond its handle and sensor the record's text is free. -/
def execGetPdr (handle : Nat) (s : State) : Host.Outcome State Fault Refusal :=
  lift (fun d =>
    if !(busFull d) then d
    else
      let ss := sensors d
      let i := if handle = 0 then 0 else handle - 1
      match ss[i]? with
      | none => pldmReply 2 0x51 0x82 [] d
      | some x =>
        let next := if i + 1 < ss.length then i + 2 else 0
        pldmReply 2 0x51 0 (leBytes 4 next ++ leBytes 4 0 ++ [5] ++ leBytes 2 46 ++ leBytes 4 (i + 1) ++
          (List.range 8).map (fun k => Config.freeByte 15 (64 * x + k)) ++ leBytes 2 x ++
          (List.range 32).map fun k => Config.freeByte 15 (64 * x + 8 + k)) d) s

/-- GET_SENSOR_READING (R571): the temperature, or a reading of the rails, which the spec does not give (free, log entry 2). -/
def execGetSensorReading (sensor : Nat) (s : State) : Host.Outcome State Fault Refusal :=
  lift (fun d =>
    if !(busFull d) then d
    else if sensor = 1 then pldmReply 2 0x11 0 ([1, 0, 0, 0, 0, 0] ++ leBytes 1 (fldR d 0x820 7 0)) d
    else if 2 ≤ sensor ∧ sensor ≤ 4 then
      let (v, d) := fresh d
      pldmReply 2 0x11 0 ([4, 0, 0, 0, 0, 0] ++ leBytes 4 v) d
    else pldmReply 2 0x11 0x80 [] d) s

/-- GET_STATE_SENSOR_READINGS (R571): HEALTHY, BOOT_ERR, or a domain's state as DOMAIN_SET codes it. -/
def execGetStateSensorReadings (sensor : Nat) (s : State) : Host.Outcome State Fault Refusal :=
  lift (fun d =>
    if !(busFull d) then d
    else if !((sensors d).contains sensor) || decide (sensor < 5) then pldmReply 2 0x21 0x80 [] d
    else
      let v := if sensor = 5 then b2n d.foot.healthy else if sensor = 6 then bootCode d else domCode (dom d (sensor - 0x100)).st
      pldmReply 2 0x21 0 ([1, 0] ++ leBytes 1 v) d) s

/-- GET_PDR_REPOSITORY_INFO (R571): as many records as sensors; times and sizes are free. -/
def execGetPdrRepositoryInfo (s : State) : Host.Outcome State Fault Refusal :=
  lift (fun d =>
    if busFull d then
      pldmReply 2 0x50 0 ([0] ++ (List.range 26).map (Config.freeByte 16) ++ leBytes 4 (sensors d).length ++
        (List.range 9).map fun k => Config.freeByte 16 (64 + k)) d
    else d) s

/-! ### PLDM firmware update (R539, R571) -/

/-- Whether the firmware device serves: while running as well as in recovery. -/
def fwServes (d : Dev) : Bool := !d.fatal && (decide (d.foot.boot = .running) || decide (d.foot.boot = .recovery))

def pldmU (f : Pldm → Pldm) (d : Dev) : Dev := { d with pldm := f d.pldm }

/-- Go to a state of the update. -/
def pldmTo (st : Nat) (d : Dev) : Dev := pldmU (fun x => { x with prev := x.st, st := st }) d

/-- Run a command of the update in the states given; in another it is refused with `cc`. -/
def fwIn (code cc : Nat) (sts : List Nat) (f : Dev → Dev) (d : Dev) : Dev :=
  if !(fwServes d) then d else if sts.contains d.pldm.st then f d else pldmReply 5 code cc [] d

/-- QUERY_DEVICE_IDENTIFIERS (R539): one descriptor, the PCI vendor ID. -/
def execQueryDeviceIdentifiers (s : State) : Host.Outcome State Fault Refusal :=
  lift (fun d => if fwServes d then pldmReply 5 1 0 (leBytes 4 6 ++ [1] ++ leBytes 2 0 ++ leBytes 2 2 ++ leBytes 2 0x1F5A) d else d) s

/-- GET_FIRMWARE_PARAMETERS (R539): one component; its active version is the bridge firmware's, a pending one the other slot's;
the rest of the text is free. -/
def execGetFirmwareParameters (s : State) : Host.Outcome State Fault Refusal :=
  lift (fun d =>
    if fwServes d then
      let other := (slot d (1 - d.foot.runSlot)).comps
      pldmReply 5 2 0 (leBytes 4 (Config.freeByte 17 0).toNat ++ leBytes 2 1 ++ leBytes 8 (versionOf d.foot.running 1) ++ leBytes 8 (versionOf other 1)) d
    else d) s

/-- REQUEST_UPDATE (R539): one component, no package data, transfers of at least 64 bytes. -/
def execRequestUpdate (maxXfer comps pkgData : Nat) (s : State) : Host.Outcome State Fault Refusal :=
  lift (fwIn 0x10 0x81 [0] (fun d =>
    if maxXfer < 64 ∨ comps ≠ 1 ∨ pkgData ≠ 0 then pldmReply 5 0x10 0x02 [] d
    else
      let d := pldmTo 1 { d with pldm := { maxXfer := min maxXfer 1024 } }
      pldmReply 5 0x10 0 (leBytes 2 0 ++ [0]) d)) s

/-- PASS_COMPONENT_TABLE (R539): the one component, start and end of the table together. -/
def execPassComponentTable (s : State) : Host.Outcome State Fault Refusal :=
  lift (fwIn 0x13 0x84 [1] (fun d => pldmReply 5 0x13 0 [0, 0] (pldmTo 2 d))) s

/-- UPDATE_COMPONENT (R539): a carrier of at most 24 MiB − 64 KiB. -/
def execUpdateComponent (size : Nat) (s : State) : Host.Outcome State Fault Refusal :=
  lift (fwIn 0x14 0x84 [2] (fun d =>
    if size = 0 ∨ 24 * 2 ^ 20 - 65536 < size then pldmReply 5 0x14 0 ([1, 0x0A] ++ leBytes 4 0 ++ leBytes 2 0) d
    else
      let d := pldmTo 3 (pldmU (fun x => { x with size := size, data := [], applied := false }) d)
      pldmReply 5 0x14 0 ([0, 0] ++ leBytes 4 0 ++ leBytes 2 0) d)) s

/-- REQUEST_FIRMWARE_DATA (R539): the device asks for the next `ask` bytes, 64 to 1,024 and within what the sender takes, and gets
them; those past the carrier's end are padding. -/
def execRequestFirmwareData (ask : Nat) (data : Bytes) (s : State) : Host.Outcome State Fault Refusal :=
  lift (fun d =>
    let p := d.pldm
    if !(fwServes d) ∨ p.st ≠ 3 ∨ ask < 64 ∨ p.maxXfer < ask ∨ p.size ≤ p.data.length ∨ data.length ≠ ask then d
    else
      let d := emit (.mctp ([0x01, 0x05, 0x15] ++ leBytes 4 p.data.length ++ leBytes 4 ask)) d
      pldmU (fun x => { x with data := x.data ++ data.take (p.size - p.data.length) }) d) s

/-- TRANSFER_COMPLETE (R539): every byte has come. -/
def execTransferComplete (s : State) : Host.Outcome State Fault Refusal :=
  lift (fun d =>
    if fwServes d && decide (d.pldm.st = 3) && decide (d.pldm.data.length = d.pldm.size) then
      pldmTo 4 (emit (.mctp [0x01, 0x05, 0x16, 0x00]) d)
    else d) s

/-- Why the carrier would be refused (R527, R537, R549). -/
def fwRefusal (d : Dev) (b : Bytes) : Option Nat :=
  if !(carrierForm b 1) then some 7
  else match carrierRefusal d b with
    | some x => some x
    | none =>
      if d.foot.boot = .recovery then
        let cs := carrierComps b
        if cs.length ≠ 4 then some 7 else if (testedEntry cs).isNone then some 11 else none
      else none

/-- VERIFY_COMPLETE (R527, R538, R539): a carrier refused in recovery is counted and reported, and the device waits for another. -/
def execVerifyComplete (s : State) : Host.Outcome State Fault Refusal :=
  lift (fun d =>
    if !(fwServes d) ∨ d.pldm.st ≠ 4 then d
    else match fwRefusal d d.pldm.data with
      | none => pldmTo 5 (emit (.mctp [0x01, 0x05, 0x17, 0x00]) d)
      | some x =>
        let d := pldmTo 2 (emit (.mctp ([0x01, 0x05, 0x17] ++ leBytes 1 (0x90 + x))) d)
        if d.foot.boot = .recovery then footU (fun y => { y with refused := y.refused + 1, lastRefusal := some x }) d else d) s

/-- APPLY_COMPLETE (R539): the carrier is ready to be activated. -/
def execApplyComplete (s : State) : Host.Outcome State Fault Refusal :=
  lift (fun d =>
    if fwServes d && decide (d.pldm.st = 5) then
      pldmTo 2 (pldmU (fun x => { x with applied := true }) (emit (.mctp ([0x01, 0x05, 0x18, 0x00] ++ leBytes 2 0)) d))
    else d) s

/-- ACTIVATE_FIRMWARE (R537–R539, R571): running, as FW_BIND then FW_ACTIVATE; in recovery the carrier is taken. Self-contained
activation is not supported. `copyBad` and `fail` as for those commands. -/
def execActivateFirmware (selfContained copyBad : Bool) (fail : Option Nat) (s : State) : Host.Outcome State Fault Refusal :=
  lift (fwIn 0x1A 0x84 [2] (fun d =>
    if !d.pldm.applied then pldmReply 5 0x1A 0x86 [] d
    else if selfContained then pldmReply 5 0x1A 0x8B [] d
    else
      let b := d.pldm.data
      if d.foot.boot = .recovery then
        recoveryTake b false d.foot.gateBad (pldmReply 5 0x1A 0 (leBytes 2 0) { d with pldm := { prev := 2 } })
      else if runTrial d = true ∨ d.foot.lifecycle = 2 ∨ d.foot.act.isSome = true then pldmReply 5 0x1A 0x84 [] d
      else
        let r := bindFirmware b copyBad d
        let d := r.2.2
        let i := 1 - d.foot.runSlot
        if r.1 ≠ 0 then pldmReply 5 0x1A 0x01 [] d
        else if actStatus d i false ≠ 0 then pldmReply 5 0x1A 0x01 [] d
        else
          let j : ActJob := { held := ⟨{ fn := 0 }, 0⟩, gate := false, idx := i, untested := false, fail := fail, cl := 0, phase := 0,
                              mine := false, mgmt := true }
          actSlot j false (pldmReply 5 0x1A 0 (leBytes 2 0) { d with pldm := { prev := 2 } }))) s

/-- GET_STATUS (R539): the state now and before, and how much has come in percent. -/
def execGetStatus (s : State) : Host.Outcome State Fault Refusal :=
  lift (fun d =>
    if fwServes d then
      let p := d.pldm
      let pct := if p.st = 3 ∧ p.size ≠ 0 then p.data.length * 100 / p.size else 0x65
      pldmReply 5 0x1B 0 (leBytes 1 p.st ++ leBytes 1 p.prev ++ [3, 0] ++ leBytes 1 pct ++ [0] ++ leBytes 4 0) d
    else d) s

/-- CANCEL_UPDATE (R539). -/
def execCancelUpdate (s : State) : Host.Outcome State Fault Refusal :=
  lift (fwIn 0x1D 0x80 [1, 2, 3, 4, 5] (fun d =>
    let was := d.pldm.st
    pldmReply 5 0x1D 0 ([0] ++ leBytes 8 0) { d with pldm := { prev := was } })) s

end Sys2Proof.Machine
end

