-- ==== Sys2Proof/Machine/Spdm.lean ====
section
/-! DEFINITION. The SPDM 1.3 responder (R385). The messages' layouts are those of the SPDM standard (PRESUMED, log entry 52). -/

namespace Sys2Proof.Machine
open Sys2Proof

/-- `n` bytes nobody can foretell (log entry 2). -/
def freeBytes : Nat → Dev → Bytes × Dev
  | 0, d => ([], d)
  | n + 1, d =>
    let (v, d) := fresh d
    let (bs, d) := freeBytes n d
    (BitVec.ofNat 8 v :: bs, d)

/-- SHA-384 of a message (48 bytes). -/
def sha384 (m : Bytes) : Bytes := (List.range 48).map (Config.sha384Byte m)

/-- The certificate chain of slot 0 (R385): the Breore CA's certificate, which it signs itself, the DeviceID's, the Alias's. -/
def certChain (d : Dev) : Bytes :=
  let ca := certBytes (caKey 0) (caKey 0) []
  let body := ca ++ deviceCert d 0 ++ aliasCert d 0
  leBytes 2 (52 + body.length) ++ [0, 0] ++ sha384 ca ++ body

/-- Whether the responder answers on a carrier (R385, R568, R571): the bridge runs, and the DOE mailbox's host port works. -/
def spdmServes (d : Dev) : Carrier → Bool
  | .doe h => decide (d.foot.boot = .running) && !d.fatal && decide (h < numHosts d.variant) && islandOn d (hIsland h) && (hp d h).linkUp
  | .mctp => decide (d.foot.boot = .running) && !d.fatal

/-- How far a connection has come: 0 nothing, 1 version, 2 capabilities, 3 algorithms. -/
def spdmSt (d : Dev) : Carrier → Nat
  | .doe h => (hp d h).spdm
  | .mctp => d.spdmMctp

def spdmStW (c : Carrier) (n : Nat) (d : Dev) : Dev :=
  match c with
  | .doe h => hpU h (fun p => { p with spdm := n }) d
  | .mctp => { d with spdmMctp := n }

/-- A response: version, code, two parameters, and what follows. -/
def spdmMsg (code p1 p2 : Nat) (body : Bytes) : Bytes := [0x13] ++ leBytes 1 code ++ leBytes 1 p1 ++ leBytes 1 p2 ++ body

/-- An ERROR response. -/
def spdmErr (c : Carrier) (e data : Nat) (d : Dev) : Dev := emit (.spdm c (spdmMsg 0x7F e data [])) d

/-- Whether no certificate exists: in RETURNED (R544). -/
def noCert (d : Dev) : Bool := decide (d.foot.lifecycle = 2)

/-- The measurement block of one entry (R385): its index, DMTF specification, and the raw DIGEST; the value's type byte is the
standard's (log entry 2). -/
def measureBlock (i : Nat) (c : Comp) : Bytes :=
  leBytes 1 (i + 1) ++ [0x01] ++ leBytes 2 35 ++ [Config.freeByte 9 c.id] ++ leBytes 2 32 ++ padTo 32 (c.digest.take 32)

/-- A signature by the Alias ECDSA key over what was asked and answered; what else the standard adds to the signed text is left
to it. -/
def spdmSign (d : Dev) (text : Bytes) : Bytes := (List.range 96).map (Config.signByte (keyOf 0 (sAlias d)) text)

/-- VERSION: 1.3 alone. -/
def spdmVersion (c : Carrier) (d : Dev) : Dev :=
  emit (.spdm c ([0x10] ++ (spdmMsg 0x04 0 0 ([0, 1] ++ leBytes 2 0x1300)).drop 1)) (spdmStW c 1 d)

/-- CAPABILITIES: certificates, challenge, measurements with signature, and no more; data objects of at most 16 KiB. -/
def spdmCapabilities (c : Carrier) (d : Dev) : Dev :=
  let flags := if noCert d then 0x08 else 0x16
  emit (.spdm c (spdmMsg 0x61 0 0 ([0, Config.freeByte 10 0, 0, 0] ++ leBytes 4 flags ++ leBytes 4 16384 ++ leBytes 4 16384))) (spdmStW c 2 d)

/-- ALGORITHMS: ECDSA P-384 with SHA-384, SHA3-256 for measurements, where the request offers them. -/
def spdmAlgorithms (c : Carrier) (req : Bytes) (d : Dev) : Dev :=
  let asym := if bitOf (le req 8 4) 7 then 0x80 else 0
  let hash := if bitOf (le req 12 4) 1 then 0x02 else 0
  if asym = 0 ∨ hash = 0 then spdmErr c 0x01 0 d
  else
    emit (.spdm c (spdmMsg 0x63 0 0 (leBytes 2 36 ++ [0x01, 0] ++ leBytes 4 0x10 ++ leBytes 4 asym ++ leBytes 4 hash ++ zeros 16)))
      (spdmStW c 3 d)

/-- DIGESTS: the chain of slot 0. -/
def spdmDigests (c : Carrier) (d : Dev) : Dev :=
  emit (.spdm c (if noCert d then spdmMsg 0x01 0x01 0 [] else spdmMsg 0x01 0x01 0x01 (sha384 (certChain d)))) d

/-- CERTIFICATE: a part of the chain of slot 0, as long as a data object holds. -/
def spdmCertificate (c : Carrier) (req : Bytes) (d : Dev) : Dev :=
  let chain := certChain d
  let off := le req 4 2
  let n := min (le req 6 2) (min (chain.length - off) 16368)
  if noCert d || decide (u8 req 2 % 16 ≠ 0) || decide (chain.length ≤ off) then spdmErr c 0x01 0 d
  else emit (.spdm c (spdmMsg 0x02 0 0 (leBytes 2 n ++ leBytes 2 (chain.length - off - n) ++ slice chain off n))) d

/-- The summary hash of all measurements that a CHALLENGE or its like asks for. -/
def measureSummary (d : Dev) : Bytes := sha384 ((d.comps.zipIdx.flatMap fun x => measureBlock x.2 x.1))

/-- CHALLENGE_AUTH. -/
def spdmChallenge (c : Carrier) (req : Bytes) (d : Dev) : Dev :=
  if noCert d || decide (u8 req 2 % 16 ≠ 0) then spdmErr c 0x01 0 d
  else
    let (nonce, d) := freeBytes 32 d
    let text := spdmMsg 0x03 0 0x01 (sha384 (certChain d) ++ nonce ++ (if u8 req 3 = 0 then [] else measureSummary d) ++ leBytes 2 0 ++ slice req 36 8)
    emit (.spdm c (text ++ spdmSign d (req ++ text))) d

/-- MEASUREMENTS: how many blocks there are, one of them, or all in COMPONENT order; signed on request. -/
def spdmMeasurements (c : Carrier) (req : Bytes) (d : Dev) : Dev :=
  let sign := bitOf (u8 req 2) 0
  let op := u8 req 3
  let blocks := d.comps.zipIdx.map fun (x : Comp × Nat) => measureBlock x.2 x.1
  let chosen := if op = 0 then [] else if op = 0xFF then blocks else (blocks.drop (op - 1)).take 1
  if (sign && (noCert d || decide (u8 req 36 % 16 ≠ 0))) || (decide (op ≠ 0) && decide (op ≠ 0xFF) && chosen.isEmpty) then
    spdmErr c 0x01 0 d
  else
    let (nonce, d) := freeBytes 32 d
    let text := spdmMsg 0x60 (if op = 0 then blocks.length else 0) 0
      (leBytes 1 chosen.length ++ leBytes 3 chosen.flatten.length ++ chosen.flatten ++ nonce ++ leBytes 2 0 ++
        slice req (if sign then 37 else 4) 8)
    emit (.spdm c (if sign then text ++ spdmSign d (req ++ text) else text)) d

/-- Answer the request with code `code` (R385): GET_VERSION starts the connection anew, the others follow in order; a code the
responder lacks is unsupported. -/
def spdmServe (code : Nat) (c : Carrier) (req : Bytes) (d : Dev) : Dev :=
  if !(spdmServes d c) then d
  else if req.length < 4 ∨ 16384 < req.length then spdmErr c 0x01 0 d
  else if code = 0x84 then spdmVersion c d
  else if u8 req 0 ≠ 0x13 then spdmErr c 0x41 0 d
  else if code = 0xE1 then (if spdmSt d c < 1 then spdmErr c 0x04 0 d else spdmCapabilities c d)
  else if code = 0xE3 then (if spdmSt d c < 2 then spdmErr c 0x04 0 d else spdmAlgorithms c req d)
  else if code = 0x81 ∨ code = 0x82 ∨ code = 0x83 ∨ code = 0xE0 then
    if spdmSt d c < 3 then spdmErr c 0x04 0 d
    else if code = 0x81 then spdmDigests c d
    else if code = 0x82 then spdmCertificate c req d
    else if code = 0x83 then spdmChallenge c req d
    else spdmMeasurements c req d
  else spdmErr c 0x07 code d

/-- SPDM_REQUEST (R385): any request, by its code. -/
def execSpdmRequest (c : Carrier) (req : Bytes) (s : State) : Host.Outcome State Fault Refusal := lift (spdmServe (u8 req 1) c req) s

/-- GET_VERSION (R385). -/
def execGetVersion (c : Carrier) (req : Bytes) (s : State) : Host.Outcome State Fault Refusal := lift (spdmServe 0x84 c req) s

/-- GET_CAPABILITIES (R385). -/
def execGetCapabilities (c : Carrier) (req : Bytes) (s : State) : Host.Outcome State Fault Refusal := lift (spdmServe 0xE1 c req) s

/-- NEGOTIATE_ALGORITHMS (R385). -/
def execNegotiateAlgorithms (c : Carrier) (req : Bytes) (s : State) : Host.Outcome State Fault Refusal := lift (spdmServe 0xE3 c req) s

/-- GET_DIGESTS (R385). -/
def execGetDigests (c : Carrier) (req : Bytes) (s : State) : Host.Outcome State Fault Refusal := lift (spdmServe 0x81 c req) s

/-- GET_CERTIFICATE (R385). -/
def execGetCertificate (c : Carrier) (req : Bytes) (s : State) : Host.Outcome State Fault Refusal := lift (spdmServe 0x82 c req) s

/-- CHALLENGE (R385). -/
def execChallenge (c : Carrier) (req : Bytes) (s : State) : Host.Outcome State Fault Refusal := lift (spdmServe 0x83 c req) s

/-- GET_MEASUREMENTS (R385). -/
def execGetMeasurements (c : Carrier) (req : Bytes) (s : State) : Host.Outcome State Fault Refusal := lift (spdmServe 0xE0 c req) s

end Sys2Proof.Machine
end

