-- ==== Sys2Proof/Machine/Ptp.lean ====
section
/-! DEFINITION. The time service's PTP engine (R77–R79, R95, R96, R136): masters heard and the best of them, offsets, what it
answers and what it sends. Message formats and the algorithms IEEE 1588-2019 defines are PRESUMED (log entry 55). -/

namespace Sys2Proof.Machine

/-! ### Data sets (R95, R96) -/

/-- Byte `i` of a PTP port's settings as TIME_PTP_PORT gave them, from PORT on. -/
def ptpPortCfg (d : Dev) (s p i : Nat) : Nat := u8 (Tbl.get (fun _ => []) (str d s).ptpPorts p) i

/-- ROLE, DELAY_MECH and TRANSPORT of a PTP port. -/
def ptpRole (d : Dev) (s p : Nat) : Nat := ptpPortCfg d s p 1
def ptpMech (d : Dev) (s p : Nat) : Nat := ptpPortCfg d s p 2
def ptpTransport (d : Dev) (s p : Nat) : Nat := ptpPortCfg d s p 7

/-- Unicast negotiation, non-forwardable address and one-step of a PTP port. -/
def ptpUnicast (d : Dev) (s p : Nat) : Bool := bitOf (ptpPortCfg d s p 8) 0
def ptpNearAddr (d : Dev) (s p : Nat) : Bool := bitOf (ptpPortCfg d s p 8) 1
def ptpOneStep (d : Dev) (s p : Nat) : Bool := bitOf (ptpPortCfg d s p 8) 2

/-- ASYM_CORR of a PTP port. -/
def asymCorr (d : Dev) (s p : Nat) : Int := toSigned 32 (le (Tbl.get (fun _ => []) (str d s).ptpPorts p) 11 4)

/-- Byte `i` of a string's clock data set, from CLOCK_TYPE on. -/
def ptpClk (d : Dev) (s i : Nat) : Nat := u8 (str d s).ptpClock i

/-- slaveOnly. -/
def ptpSlaveOnly (d : Dev) (s : Nat) : Bool := bitOf (ptpClk d s 6) 0

/-- PROFILE 3 or 4: the alternate best master clock algorithm (R78). -/
def ptpAlternate (d : Dev) (s : Nat) : Bool := decide (3 ≤ ptpClk d s 1)

/-- clockIdentity: CLOCK_ID, or, where that is all zeros, the device's base MAC with FF FE in its middle (R95; the derivation is
PRESUMED, log entry 55). -/
def clockId (d : Dev) (s : Nat) : Bytes :=
  let id := slice (str d s).ptpClock 9 8
  let mac := (List.range 6).map (Config.freeByte 7)
  if allZero id then mac.take 3 ++ [0xFF, 0xFE] ++ mac.drop 3 else id

/-! ### The best master (R77, R78) -/

/-- Lexicographic order of comparison keys: the lesser is the better. -/
def keyLt : List Nat → List Nat → Bool
  | a :: as, b :: bs => decide (a < b) || (decide (a = b) && keyLt as bs)
  | [], _ :: _ => true
  | _, [] => false

/-- The key of a data set: by IEEE 1588 priority1, class, accuracy, variance, priority2, identity, steps and sender; by the
alternate algorithm of G.8275 without priority1, with localPriority before the identity, which counts only for a class above
127. -/
def bmcKey (alt : Bool) (lp p1 cls acc var p2 gm steps sender : Nat) : List Nat :=
  if alt then [cls, acc, var, p2, lp, if cls ≤ 127 then 0 else gm, steps, sender]
  else [p1, cls, acc, var, p2, gm, steps, sender]

/-- The key of a master heard. -/
def foreignKey (d : Dev) (s : Nat) (e : Foreign) : List Nat :=
  bmcKey (ptpAlternate d s) (ptpPortCfg d s e.port 9) (u8 e.msg 47) (u8 e.msg 48) (u8 e.msg 49) (be e.msg 50 2) (u8 e.msg 52)
    (be e.msg 53 8) (be e.msg 61 2) (beNat e.id)

/-- The key of the clock's own data set; its localPriority is 128. -/
def ownKey (d : Dev) (s : Nat) : List Nat :=
  bmcKey (ptpAlternate d s) 128 (ptpClk d s 2) (ptpClk d s 4) (ptpClk d s 5) (le (str d s).ptpClock 7 2) (ptpClk d s 3)
    (beNat (clockId d s)) 0 (beNat (clockId d s))

/-- Masters that count: qualified, live, on a port that may be a slave, fewer than 255 steps away. -/
def ptpCandidates (d : Dev) (s : Nat) : List Foreign :=
  (str d s).foreign.filter fun e =>
    e.ok && foreignLive d s e && decide (ptpRole d s e.port = 1 ∨ ptpRole d s e.port = 3) && decide (be e.msg 61 2 < 255)

/-- The best master heard, unless the clock's own data set is better (a slave-only clock's never is). -/
def bestMaster (d : Dev) (s : Nat) : Option Foreign :=
  match ptpCandidates d s with
  | [] => none
  | e :: es =>
    let b := es.foldl (fun b x => if keyLt (foreignKey d s x) (foreignKey d s b) then x else b) e
    if !(ptpSlaveOnly d s) && keyLt (ownKey d s) (foreignKey d s b) then none else some b

/-- clockIdentity of the grandmaster the best master clock algorithm chooses. -/
def bestGm (d : Dev) (s : Nat) : Nat :=
  match bestMaster d s with | some e => be e.msg 53 8 | none => beNat (clockId d s)

/-- Choose the grandmaster anew; a change posts PTP_GM_CHANGE (R97). -/
def gmUpdate (s : Nat) (d : Dev) : Dev :=
  if !(ptpEn d s) || decide (bestGm d s = (str d s).gm) then d
  else postDev 0x26 (leBytes 1 s ++ beBytes 8 (bestGm d s)) (strU s (fun y => { y with gm := bestGm d s }) d)

/-- Whether a PTP port acts as a master: an ordinary or boundary clock that may be one, on a port that is master only, or whose
best master is not heard there (R95, R96). -/
def ptpMaster (d : Dev) (s p : Nat) : Bool :=
  decide (ptpClk d s 0 < 2) && !(ptpSlaveOnly d s) &&
  (decide (ptpRole d s p = 2) || (decide (ptpRole d s p = 1) &&
    (match bestMaster d s with | some e => decide (e.port ≠ p) | none => true)))

/-- Whether a PTP port acts as a slave. -/
def ptpSlave (d : Dev) (s p : Nat) : Bool :=
  decide (ptpClk d s 0 < 2) && (decide (ptpRole d s p = 3) || (decide (ptpRole d s p = 1) && !(ptpMaster d s p)))

/-! ### Offsets -/

/-- The entry a stamp of tick `tick` was taken with, where it is no longer the port's newest (R144). -/
def oldEntry (d : Dev) (p : Nat) (tx : Bool) (tick : Nat) : Option Bytes :=
  let slot := calSlot (modeAct d p) (fecAct d p)
  match (if tx then (port d p).oldTx else (port d p).oldRx).find? fun e => decide (e.1 = slot) with
  | some e => some e.2
  | none => match if tx then (port d p).prevTx else (port d p).prevRx with
    | some (s, t, e) => if s = slot ∧ tick < t then some e else none
    | none => none

/-- The receive and transmit entries an exchange counts with (R145): the new ones from the first exchange whose stamps were both
taken with them. -/
def exchangeEntries (d : Dev) (p rxTick txTick : Nat) : Bytes × Bytes :=
  match oldEntry d p false rxTick, oldEntry d p true txTick with
  | none, none => (entryOf d p false, entryOf d p true)
  | a, b => (a.getD ((oldEntry d p false 0).getD (entryOf d p false)), b.getD ((oldEntry d p true 0).getD (entryOf d p true)))

/-- delayAsymmetry of a PTP port (R136): ASYM of the calibration entry plus ASYM_CORR. -/
def delayAsymmetry (d : Dev) (s p : Nat) (e : Bytes) : Int := entAsym e + asymCorr d s p

/-- u_meas of a PTP exchange on a port: half the sum of the local stamp terms of its receive and transmit stamps (R68); the
rounding of a half is free. -/
def ptpUMeas (p : Nat) (es : Bytes × Bytes) (d : Dev) : Nat × Dev :=
  let q := 2 * (16384 + uQuant (modeAct d p)) + entU es.1 + entU es.2
  let (u, d) := roundFree (q : Int) 2 d
  (u.toNat, d)

/-- ACCEPTED_OFFSET (R596, R61, R136): one offset of the time service for a string in device ownership. `o` is what its filter
makes of the exchange before delayAsymmetry, `rxTick` and `txTick` the ticks of the exchange's receive and transmit stamps on the
port. -/
def execAcceptedOffset (str_ port : Nat) (o : Int) (rxTick txTick : Nat) (s : State) : Host.Outcome State Fault Refusal :=
  lift (fun d =>
    let x := str d str_
    let meas := min rxTick txTick
    if strPresent d str_ && decide (x.owner = 0) && decide (x.srcKind = 1) && decide (x.srcPort = port) &&
        timeServiceUp d && !(staleOffset x meas) then
      let es := exchangeEntries d port rxTick txTick
      let (u, d) := ptpUMeas port es d
      gmUpdate str_ (acceptOffset str_ (o - delayAsymmetry d str_ port es.1) u meas d).2
    else d) s

/-- SOURCE_LOST (R62). -/
def execSourceLost (str_ : Nat) (why : LossCause) (s : State) : Host.Outcome State Fault Refusal :=
  lift (fun d => if strPresent d str_ && lossHolds d str_ why then gmUpdate str_ (loseSource str_ d) else d) s

/-- TREF_LOST (R53): the time PLL holds, and the period of every string has seen it hold (R253). -/
def execTrefLost (s : State) : Host.Outcome State Fault Refusal :=
  lift (fun d =>
    let d := postDev 0x25 (leBytes 1 1) (bitW 0x108010 8 false (bitW 0x108010 10 true d))
    (List.range (numStrings d.variant)).foldl (fun d i =>
      gmUpdate i (loseSource i (strU i (fun x => { x with pHold := true }) d))) d) s

/-! ### Messages -/

/-- messageType of a PTP message. -/
def ptpType (m : Bytes) : Nat := u8 m 0 % 16

/-- The 80-bit timestamp of a Q16 ns time, and its fraction of a nanosecond. -/
def ptpStamp (q : Int) : Bytes := let v := iR17 q; beBytes 6 (v / 2 ^ 48) ++ beBytes 4 (v / 2 ^ 16)
def ptpFrac (q : Int) : Int := q % 65536

/-- The time of an 80-bit timestamp, in Q16 ns. -/
def ptpTime (m : Bytes) (off : Nat) : Int := ((be m off 6 * 1000000000 + be m (off + 6) 4) * 65536 : Nat)

/-- correctionField of a message. -/
def ptpCorr (m : Bytes) : Int := toSigned 64 (be m 8 8)

/-- controlField of a message type. -/
def ptpControl (kind : Nat) : Nat := if kind = 0 then 0 else if kind = 1 then 1 else if kind = 8 then 2 else if kind = 9 then 3 else if kind = 13 then 4 else 5

/-- The flags of the time properties an Announce carries (R51). -/
def ptpTimeFlags (x : Str) : Nat := x.utcFlags % 8 + 8 + x.utcFlags / 8 % 4 * 16

/-- A message: common header, then its body. `sdo` is majorSdoId, `flag0` the first flag octet, `log` logMessageInterval. -/
def ptpMsg (d : Dev) (s p kind sdo flag0 seq log : Nat) (corr : Int) (body : Bytes) : Bytes :=
  [BitVec.ofNat 8 (sdo * 16 + kind), 0x12] ++ beBytes 2 (34 + body.length) ++ [BitVec.ofNat 8 (effF d (tKey s 0x34) 7 0), 0] ++
  [BitVec.ofNat 8 flag0, BitVec.ofNat 8 (if kind = 11 then ptpTimeFlags (str d s) else 0)] ++
  beBytes 8 (ofSigned 64 corr) ++ zeros 4 ++ clockId d s ++ beBytes 2 (p + 1) ++ beBytes 2 seq ++
  [BitVec.ofNat 8 (ptpControl kind), BitVec.ofNat 8 log] ++ body

/-- Path trace TLV of an Announce, with this clock's identity added, when the best master's has one. -/
def pathTrace (d : Dev) (s : Nat) : Bytes :=
  match bestMaster d s with
  | some e => if be e.msg 64 2 = 8 then
      let ids := slice e.msg 68 (be e.msg 66 2 / 8 * 8) ++ clockId d s
      [0, 8] ++ beBytes 2 ids.length ++ ids
    else []
  | none => []

/-- Body of an Announce: the clock's own data set, or its best master's, one step further. The source of its own time is the
model's free value. -/
def announceBody (d : Dev) (s timeSource : Nat) : Bytes :=
  let x := str d s
  zeros 10 ++ beBytes 2 (ofSigned 16 x.utcOffset) ++ [0] ++
  (match bestMaster d s with
   | some e => slice e.msg 47 14 ++ beBytes 2 (be e.msg 61 2 + 1) ++ slice e.msg 63 1
   | none => [BitVec.ofNat 8 (ptpClk d s 2), BitVec.ofNat 8 (ptpClk d s 4), BitVec.ofNat 8 (ptpClk d s 5)] ++
       beBytes 2 (le x.ptpClock 7 2) ++ [BitVec.ofNat 8 (ptpClk d s 3)] ++ clockId d s ++ [0, 0] ++ [BitVec.ofNat 8 timeSource]) ++
  pathTrace d s

/-- What stands before the message: Ethernet, or Ethernet, IP and UDP (R77); addresses the spec does not give are free. -/
def ptpHead (transport : Nat) (near : Bool) (d : Dev) : Bytes × Dev :=
  let n := if transport = 0 then 0 else if transport = 1 then 28 else 48
  let (sa, d) := freeBytes 6 d
  let (ip, d) := freeBytes n d
  let (da, d) := if transport = 0 then
      (if near then ([0x01, 0x80, 0xC2, 0, 0, 0x0E], d) else ([0x01, 0x1B, 0x19, 0, 0, 0], d)) else freeBytes 6 d
  (da ++ sa ++ (if transport = 0 then [0x88, 0xF7] else if transport = 1 then [0x08, 0x00] else [0x86, 0xDD]) ++ ip, d)

/-- A one-step action on a message: ORIGIN, TURNAROUND (R131), or none. -/
inductive OneStep where
  | none | origin | turnaround
  deriving DecidableEq, Repr

/-- Send a message on a PTP port, its one-step action done at launch (R131–R133). -/
def ptpSend (s p : Nat) (act : OneStep) (tx : Int) (m : Bytes) (d : Dev) : Dev :=
  let (h, d) := ptpHead (ptpTransport d s p) (ptpNearAddr d s p) d
  let bs := h ++ m
  let tr := ptpTransport d s p
  match act with
  | .none => sendOut p bs d
  | _ =>
    if !(mayRewrite bs h.length tr) then sendOut p bs (countNoRewrite p d)
    else if act = .origin then sendOut p (ptpOrigin bs h.length tr (iR17 tx)) d
    else sendOut p (ptpTurnaround bs h.length tr (iR17 tx)) d

/-- The transmit stamp of a message the time service sends now on a string (R120), in Q16 ns. -/
def ptpTx (d : Dev) (s p sub a : Nat) : Int := txStampQ d p (repQ d (portIsland p) s sub) a

/-- Next sequence number of the instance. -/
def ptpNextSeq (s : Nat) (d : Dev) : Nat × Dev :=
  ((str d s).ptpSeq, strU s (fun y => { y with ptpSeq := (y.ptpSeq + 1) % 65536 }) d)

/-! ### Received messages -/

/-- An Announce is noted; one that has passed this clock already is not (R77). Two from one sender within four of the port's
announce intervals qualify it. -/
def noteAnnounce (s p : Nat) (msg : Bytes) (d : Dev) : Dev :=
  let id := slice msg 20 10
  let gap := 4 * (10 ^ 9 * 2 ^ (toSigned 8 (ptpPortCfg d s p 5) + 3).toNat / 8)
  let looped := decide (id.take 8 = clockId d s) || bitOf (u8 msg 6) 0 ||
    (decide (be msg 64 2 = 8) && (List.range (be msg 66 2 / 8)).any fun i => decide (slice msg (68 + 8 * i) 8 = clockId d s))
  if looped then d
  else strU s (fun x =>
    let old := x.foreign.find? fun e => decide (e.port = p ∧ e.id = id)
    let ok := match old with | some e => decide (now d ≤ e.at_ + gap) | none => false
    { x with foreign := (x.foreign.filter fun e => !(decide (e.port = p ∧ e.id = id))) ++ [⟨p, id, msg, now d, ok⟩] }) d

/-- Grants that have not ended. -/
def liveGrants (d : Dev) (s : Nat) : List Grantee := (str d s).clients.filter fun g => decide (now d < g.till)

/-- One unicast negotiation TLV of a Signaling message from `id` (R77): a request is granted while fewer than 256 clients hold
grants, a cancelled grant ends, and a grant received makes its sender one of at most 8 grantors. Answers the TLV sent back. -/
def signalTlv (s p : Nat) (id : Bytes) (type : Nat) (b : Bytes) (d : Dev) : Bytes × Dev :=
  let kind := u8 b 0 / 16
  if type = 4 then
    let live := liveGrants d s
    let clients := (live.map fun g => (g.port, g.id)).dedup
    let ok := ptpMaster d s p && ptpUnicast d s p && (clients.contains (p, id) || decide (clients.length < 256))
    let dur := if ok then be b 2 4 else 0
    let others := live.filter fun g => !(decide (g.port = p ∧ g.id = id ∧ g.kind = kind))
    ([0, 5, 0, 8] ++ slice b 0 2 ++ beBytes 4 dur ++ [0, 1],
      strU s (fun x => { x with clients := if ok then others ++ [⟨p, id, kind, now d + dur * 10 ^ 9⟩] else others }) d)
  else if type = 6 then
    ([0, 7, 0, 2] ++ slice b 0 2,
      strU s (fun x => { x with
        clients := x.clients.filter fun g => !(decide (g.port = p ∧ g.id = id ∧ g.kind = kind)) }) d)
  else if type = 5 then
    ([], strU s (fun x => { x with grantors :=
      (if be b 2 4 = 0 then x.grantors.filter (fun g => decide (g ≠ (p, id)))
       else if x.grantors.contains (p, id) || decide (8 ≤ x.grantors.length) then x.grantors else x.grantors ++ [(p, id)]) }) d)
  else ([], d)

/-- The TLVs of a Signaling message, in order; `n` bounds their number. -/
def signalTlvs (s p : Nat) (id : Bytes) : Nat → Bytes → Dev → Bytes × Dev
  | 0, _, d => ([], d)
  | n + 1, b, d =>
    if b.length < 4 then ([], d) else
    let r := signalTlv s p id (be b 0 2) (slice b 4 (be b 2 2)) d
    let rest := signalTlvs s p id n (b.drop (4 + be b 2 2)) r.2
    (r.1 ++ rest.1, rest.2)

/-- A management message's answer (R77): a GET gets a RESPONSE, whose data is free; a SET the error NOT_SUPPORTED. -/
def managementTlv (msg : Bytes) (d : Dev) : Bytes × Dev :=
  if u8 msg 46 % 16 = 0 then
    let (n, d) := fresh d
    let (data, d) := freeBytes (n % 64 * 2) d
    ([0, 1] ++ beBytes 2 (2 + data.length) ++ slice msg 52 2 ++ data, d)
  else ([0, 2, 0, 8, 0, 6] ++ slice msg 52 2 ++ zeros 4, d)

/-- A peer delay response closes, or with its follow-up closes, the measurement it answers (R77): meanPathDelay is half of the
round trip less the turnaround and the corrections; the rounding of a half is free. -/
def pdelayClose (s p : Nat) (pd : Pdelay) (t4 turn corr : Int) (d : Dev) : Dev :=
  let (m, d) := roundFree (t4 - pd.t1 - turn - corr) 2 d
  strU s (fun x => { x with pdelay := Tbl.set (fun _ => {}) x.pdelay p { pd with open_ := false, resp := none, mean := some m } }) d

/-- A Pdelay_Resp or its follow-up, `rx` the receive stamp in Q16 ns. -/
def pdelayResp (s p : Nat) (rx : Int) (msg : Bytes) (d : Dev) : Dev :=
  let pd : Pdelay := Tbl.get (fun _ => {}) (str d s).pdelay p
  if !pd.open_ || decide (be msg 30 2 ≠ pd.seq) || decide (slice msg 44 10 ≠ clockId d s ++ beBytes 2 (p + 1)) then d
  else if ptpType msg = 3 then
    if bitOf (u8 msg 6) 1 then
      strU s (fun x => { x with pdelay := Tbl.set (fun _ => {}) x.pdelay p { pd with resp := some (rx, ptpTime msg 34, ptpCorr msg) } }) d
    else pdelayClose s p pd rx 0 (ptpCorr msg) d
  else match pd.resp with
    | some (t4, t2, c) => pdelayClose s p pd t4 (ptpTime msg 34 - t2) (c + ptpCorr msg) d
    | none => d

/-- A Pdelay_Req is answered on a peer-to-peer port (R77, R131): in one step by TURNAROUND, else with a follow-up. -/
def pdelayAnswer (s p sub a : Nat) (rx : Int) (msg : Bytes) (d : Dev) : Dev :=
  let who := slice msg 20 10
  let seq := be msg 30 2
  let sdo := u8 msg 0 / 16
  let tx := ptpTx d s p sub a
  if ptpOneStep d s p then
    ptpSend s p .turnaround tx (ptpMsg d s p 3 sdo 0 seq 0x7F (ptpCorr msg - ptpFrac rx) (ptpStamp rx ++ who)) d
  else
    let d := ptpSend s p .none tx (ptpMsg d s p 3 sdo 2 seq 0x7F (-ptpFrac rx) (ptpStamp rx ++ who)) d
    ptpSend s p .none tx (ptpMsg d s p 10 sdo 0 seq 0x7F (ptpCorr msg + ptpFrac tx) (ptpStamp tx ++ who)) d

/-- A message taken by a string's instance on a port; `rx` is its receive stamp in Q16 ns. -/
def ptpTake (s p sub a : Nat) (rx : Int) (msg : Bytes) (d : Dev) : Dev :=
  let id := slice msg 20 10
  match ptpType msg with
  | 11 => gmUpdate s (noteAnnounce s p msg d)
  | 1 =>
    if ptpMaster d s p && decide (ptpMech d s p = 0) && canStart d p then
      ptpSend s p .none 0 (ptpMsg d s p 9 (u8 msg 0 / 16) (if ptpUnicast d s p then 4 else 0) (be msg 30 2) (ptpPortCfg d s p 4)
        (ptpCorr msg - ptpFrac rx) (ptpStamp rx ++ id)) d
    else d
  | 2 => if decide (ptpMech d s p ≠ 0) && canStart d p then pdelayAnswer s p sub a rx msg d else d
  | 3 => pdelayResp s p rx msg d
  | 10 => pdelayResp s p rx msg d
  | 12 =>
    if !(ptpUnicast d s p) then d else
    let r := signalTlvs s p id 32 (msg.drop 44) d
    if r.1.isEmpty || !(canStart r.2 p) then r.2
    else (fun e => ptpSend s p .none 0 (ptpMsg e.2 s p 12 0 4 e.1 0x7F 0 (id ++ r.1)) e.2) (ptpNextSeq s r.2)
  | 13 =>
    let tgt := slice msg 34 8
    if (tgt ≠ clockId d s ∧ tgt ≠ List.replicate 8 0xFF) ∨ 2 ≤ u8 msg 46 % 16 ∨ canStart d p = false then d
    else
      let (tlv, d) := managementTlv msg d
      ptpSend s p .none 0 (ptpMsg d s p 13 0 0 (be msg 30 2) 0x7F 0 (id ++ [0, 0, 2, 0] ++ tlv)) d
  | _ => d

/-- The string a class names, else the port's STRING, present or string 0 (R123, R124, R180). -/
def classString (d : Dev) (cls p : Nat) : Nat :=
  let a := effR d (0x401100 + 16 * cls)
  let s := if Word.bit a 27 then Word.fld a 26 24 else rxString d p
  if strPresent d s then s else 0

/-- PTP_MESSAGE (R79): a PTP message that arrived on a port, was stamped (R17) and given class `cls`, is delivered to the
instance of that class's string, which takes it when its domain and the port's transport are its own and the port has a role
there. -/
def execPtpMessage (port cls : Nat) (rx : PtpRx) (msg : Bytes) (s : State) : Host.Outcome State Fault Refusal :=
  lift (fun d =>
    let i := classString d cls port
    if 64 ≤ cls ∨ ptpEn d i = false ∨ timeServiceUp d = false ∨ u8 msg 4 ≠ effF d (tKey i 0x34) 7 0 ∨ ptpRole d i port = 0 ∨
        rx.transport ≠ ptpTransport d i port then d
    else ptpTake i port rx.sub rx.a (r17Q rx.stamp : Int) msg d) s

/-! ### Sending -/

/-- Whether a port may send a message of a kind (R77, R95, R96): Sync and Announce from a master, Delay_Req from a slave of the
request-response mechanism, Pdelay_Req with a peer delay mechanism, and the request for unicast grants from a slave that
negotiates. -/
def ptpMaySend (d : Dev) (s p kind : Nat) : Bool :=
  match kind with
  | 0 | 11 => ptpMaster d s p
  | 1 => ptpSlave d s p && decide (ptpMech d s p = 0)
  | 2 => decide (ptpMech d s p ≠ 0) && decide (ptpClk d s 0 ≠ 2)
  | 12 => ptpSlave d s p && ptpUnicast d s p && decide ((str d s).grantors.length < 8)
  | _ => false

/-- Send one Sync, with its Follow_Up on a two-step port. -/
def sendSync (s p sub a : Nat) (d : Dev) : Dev :=
  let r := ptpNextSeq s d
  let tx := ptpTx d s p sub a
  let log := ptpPortCfg d s p 3
  if ptpOneStep d s p then ptpSend s p .origin tx (ptpMsg d s p 0 0 0 r.1 log 0 (zeros 10)) r.2
  else ptpSend s p .none tx (ptpMsg d s p 8 0 0 r.1 log (ptpFrac tx) (ptpStamp tx))
    (ptpSend s p .none tx (ptpMsg d s p 0 0 2 r.1 log 0 (zeros 10)) r.2)

/-- Send one message of a kind that may be sent. -/
def ptpSendKind (s p kind sub a : Nat) (d : Dev) : Dev :=
  let act : OneStep := if ptpOneStep d s p then .origin else .none
  let tx := ptpTx d s p sub a
  match kind with
  | 0 => sendSync s p sub a d
  | 1 => let r := ptpNextSeq s d; ptpSend s p act tx (ptpMsg d s p 1 0 0 r.1 0x7F 0 (zeros 10)) r.2
  | 2 =>
    let r := ptpNextSeq s d
    ptpSend s p act tx (ptpMsg d s p 2 (if ptpMech d s p = 2 then 2 else 0) 0 r.1 0x7F 0 (zeros 20))
      (strU s (fun x => { x with pdelay := Tbl.upd (fun _ => {}) x.pdelay p fun y =>
        { y with seq := r.1, t1 := tx, open_ := true, resp := none } }) r.2)
  | 11 =>
    let r := ptpNextSeq s d
    let (v, d) := fresh r.2
    ptpSend s p .none tx (ptpMsg d s p 11 0 0 r.1 (ptpPortCfg d s p 5) 0 (announceBody d s v)) d
  | _ =>
    let r := ptpNextSeq s d
    let (dur, d) := fresh r.2
    ptpSend s p .none tx (ptpMsg d s p 12 0 4 r.1 0x7F 0 (List.replicate 10 0xFF ++
      [0xB0, 0x00, 0x90].flatMap fun k => [0, 4, 0, 6, k, BitVec.ofNat 8 (ptpPortCfg d s p (if k = 0xB0 then 5 else if k = 0 then 3 else 4))] ++
        beBytes 4 dur)) d

/-- PTP_MESSAGE_TX (R77, R131): the time service sends Sync (kind 0), Delay_Req (1), Pdelay_Req (2), Announce (11) or a request for
unicast grants (12) of a string's instance on a port that may, when the port can start a frame; the rate is the sender's. With
unicast negotiation a Sync or Announce goes to each client that holds a grant for it. -/
def execPtpMessageTx (str_ port : Nat) (m : PtpSend) (s : State) : Host.Outcome State Fault Refusal :=
  lift (fun d =>
    if !(strPresent d str_) || !(ptpEn d str_) || !(timeServiceUp d) || decide (48 ≤ port) || !(portPresent d.variant port) ||
        !(canStart d port) || !(ptpMaySend d str_ port m.kind) then d
    else if ptpUnicast d str_ port ∧ (m.kind = 0 ∨ m.kind = 11) then
      ((liveGrants d str_).filter fun g => decide (g.port = port ∧ g.kind = m.kind)).foldl
        (fun d _ => ptpSendKind str_ port m.kind m.sub m.a d) d
    else ptpSendKind str_ port m.kind m.sub m.a d) s

end Sys2Proof.Machine
end

