-- ==== Sys2Proof/Machine/RegRead.lean ====
section
/-! DEFINITION. What register reads return (R14, R37, R44, and each block's registers). -/

namespace Sys2Proof.Machine

/-! ### Counters (R114, R192) -/

/-- The ranges of 64-bit counters: first low word's key, number, stride and bytes of each range (R114, R192, R193, R223,
R273, R340, R358, R317, R495, R466, R444, R387, R414). The admission counters of R340 lie where R339 places thresholds of
classes 32 to 34, which is what a read there returns (log entry 54). -/
def ctrRanges : List (Nat × Nat × Nat × Nat) := [
  (0x200100, 48, 0x1000, 0x100), (0x300800, 6, 0x40, 0x28), (0x300A00, 4, 0x20, 0x18), (0x403000, 64, 0x10, 0x10),
  (0x500100, 4, 0x1000, 0x60), (0x600100, 1, 0x100, 0x48), (0x703000, 48, 0x4000, 0x218), (0x800100, 64, 0x1000, 0x38),
  (0x900100, 1, 0x100, 0x40), (0xA08000, 64, 0x80, 0x50), (0xA01C00, 6, 0x1000, 0x20), (0xB01100, 8, 0x1000, 0x100),
  (0xC01000, 4, 0x40, 0x30), (0xD00100, 2, 0x40, 0x30), (0xD80000, 1024, 0x40, 0x40)]

/-- Whether a key is a word of a counter. -/
def isCtr (k : Nat) : Bool := ctrRanges.any fun r =>
  decide (r.1 ≤ k) && decide ((k - r.1) / r.2.2.1 < r.2.1) && decide ((k - r.1) % r.2.2.1 < r.2.2.2)

/-- Key of the latch a host port keeps of a counter's high word (R114); it holds the word plus one, 0 for none. -/
def latchKey (h k : Nat) : Nat := h * 2 ^ 32 + k

/-- Reading a counter's low word latches its high word for the port's next read of it. -/
def latchHigh (h k : Nat) (d : Dev) : Dev :=
  { d with latch := Tbl.set (fun _ => 0) d.latch (latchKey h k) (ctrR d k / 2 ^ 32) }

/-- A read of a counter's word: the low word, or the high word last latched, which resets to 0 with the counter (R192). -/
def readCtr (h k : Nat) (d : Dev) : Word × Dev :=
  if k % 8 = 0 then (BitVec.ofNat 32 (ctrR d k), latchHigh h k d)
  else (BitVec.ofNat 32 (Tbl.get (fun _ => 0) d.latch (latchKey h (k - 4))), d)

/-! ### Words by block -/

/-- A word of a byte string. -/
def wordOf (bs : Bytes) (off : Nat) : Word := BitVec.ofNat 32 (le bs off 4)

/-- A word of a 64-bit number, the low one at an even place. -/
def halfOf64 (n i : Nat) : Word := BitVec.ofNat 32 (n / 2 ^ (32 * i))

/-- BRG_DOM (R573). -/
def domWord (d : Dev) (n : Nat) : Word :=
  let x := dom d n
  let code : DomSt → Nat := fun s => match s with | .on => 0 | .retain => 1 | .off => 2
  let low := if n = 0 then 0
    else if !(islandPresent d.variant n) then 3
    else b2n x.failed * 128 + b2n x.resetting * 64 + b2n x.busy * 32 + code x.target * 4 + code x.st
  BitVec.ofNat 32 (n * 2 ^ 24 + low)

/-- BRG_ERR_STAT (R573). -/
def errStatWord (d : Dev) : Word :=
  let un := (d.errs.filter fun e => decide (d.errAck < e.seq)).map (·.cls)
  BitVec.ofNat 32 (b2n d.fatal * 2 ^ 31 + b2n (alertOn d) * 2 ^ 30 + un.foldl max 0 * 2 ^ 28 + d.errs.length)

/-- BRG registers (R9, R45, R573). -/
def readBrg (d : Dev) (k : Nat) : Word :=
  if 0x10 ≤ k ∧ k < 0x24 then capWord d.variant ((k - 0x10) / 4)
  else if 0x400 ≤ k ∧ k < 0x4C4 then regR d k ||| BitVec.ofNat 32 ((k - 0x400) / 4 * 2 ^ 24)
  else if 0x600 ≤ k ∧ k < 0x6C4 then domWord d ((k - 0x600) / 4)
  else if k = 0x804 then errStatWord d
  else if k = 0x808 then BitVec.ofNat 32 d.errSeq
  else if 0x2000 ≤ k ∧ k < 0x4000 then
    match d.errs[(k - 0x2000) / 32]? with
    | some e => wordOf (errBytes e) ((k - 0x2000) % 32)
    | none => 0
  else regR d k

/-- TIME_STAT (R98). -/
def timeStatWord (d : Dev) (s : Nat) : Word :=
  let x := str d s
  let ok := x.dtValid && !(decide (x.st = .drone) || decide (x.st = .holdover))
  let n := x.srcPort % 64 * 2 ^ 16 + x.srcKind % 16 * 2 ^ 12 + b2n x.latched * 256 + b2n x.oob * 128 +
    b2n (decide (2 ^ 32 - 1 ≤ x.u)) * 64 + b2n (decide (x.slew ≠ 0)) * 32 + b2n ok * 16 + b2n x.stepArmed * 8 + stCode x.st
  BitVec.ofNat 32 n ||| (regR d (tKey s 0x40) &&& 0x600)

/-- A string group's registers (R98). -/
def readString (d : Dev) (s off : Nat) : Word :=
  let x := str d s
  match off with
  | 0x40 => timeStatWord d s
  | 0x44 => BitVec.ofNat 32 x.u
  | 0x48 => halfOf64 (ofSigned 64 x.ofs) 0
  | 0x4C => halfOf64 (ofSigned 64 x.ofs) 1
  | 0x50 => halfOf64 (ofSigned 40 x.freq) 0
  | 0x54 => halfOf64 (ofSigned 40 x.freq) 1
  | 0x58 => halfOf64 x.drone 0
  | 0x5C => halfOf64 x.drone 1
  | 0x64 => BitVec.ofNat 32 (x.now.getD 0 0)
  | 0x68 => BitVec.ofNat 32 (x.now.getD 1 0)
  | 0x6C => BitVec.ofNat 32 (x.now.getD 2 0)
  | 0x70 => BitVec.ofNat 32 (x.utcFlags % 32 * 2 ^ 16 + ofSigned 16 x.utcOffset)
  | 0x74 => BitVec.ofNat 32 (x.reanchors % 256 * 2 ^ 24 + x.steps % 256 * 2 ^ 16 + x.refusals % 2 ^ 16)
  | _ => regR d (tKey s off)

/-- PLG_STAT of a lock group (R88, R98). -/
def plgWord (d : Dev) (l : Nat) : Word :=
  let n := (lockLinked d l).length
  BitVec.ofNat 32 (n * 256 + b2n (decide (n ≠ 0)))

/-- TIME registers. -/
def readTime (d : Dev) (k : Nat) : Word :=
  let o := k - 0x100000
  if o < 0x8000 then readString d (o / 0x1000) (o % 0x1000)
  else if k = 0x108010 then
    regR d k &&& 0x701
  else if 0x109010 ≤ k ∧ k < 0x109090 ∧ k % 16 = 8 then plgWord d ((k - 0x109010) / 16)
  else regR d k

/-- CAL registers (04). -/
def readCal (d : Dev) (k : Nat) : Word :=
  let o := k - 0xF00000
  let img : Nat → Word := fun i => match d.cal with
    | some c => wordOf (calImage c) i
    | none => 0
  if o = 0x14 then (match d.cal with | some c => BitVec.ofNat 32 c.version | none => 0)
  else if o = 0x18 then (match d.cal with | some c => BitVec.ofNat 32 c.users.length | none => 0)
  else if 0x20 ≤ o ∧ o < 0x40 then (match d.cal with | some c => wordOf (calHash c) (o - 0x20) | none => 0)
  else if 0xF00 ≤ o ∧ o < 0xF40 then img (o - 0xF00)
  else if 0x1000 ≤ o ∧ o < 0x4000 then img (64 + (o - 0x1000))
  else regR d k

/-- WIT registers (07) whose words are exact. -/
def readWit (d : Dev) (k : Nat) : Word :=
  let o := k - 0x600000
  let w := d.wit
  let idx := match w.cur with | some a => a.index | none => 0
  let dur := w.durable.getD 0
  if o = 0x40 then
    let x := Word.putBit (Word.putBit (regR d k) 28 (degraded d)) 27 (noDrives d)
    Word.putBit (Word.putBit x 25 (witEnAct d && halfInUse d 0)) 24 (witEnAct d && halfInUse d 1)
  else if o = 0x44 ∨ o = 0x48 then halfOf64 idx ((o - 0x44) / 4)
  else if o = 0x4C ∨ o = 0x50 then halfOf64 dur ((o - 0x4C) / 4)
  else if o = 0x54 ∨ o = 0x58 then halfOf64 w.capIndex ((o - 0x54) / 4)
  else if o = 0x5C then BitVec.ofNat 32 w.opening
  else if 0x80 ≤ o ∧ o < 0xA0 then wordOf w.durableH (o - 0x80)
  else if 0xA0 ≤ o ∧ o < 0xB0 then if hasKeys d then wordOf (aliasId (sAlias d)) (o - 0xA0) else 0
  else regR d k

/-- Occupancy of an egress queue in KiB, rounded up (R339). -/
def qOccKib (d : Dev) (p q : Nat) : Nat := (framesCells (egq d p q) + 3) / 4

/-- SCHED registers (R339): the operational list is mirrored beside the admin list. -/
def readSched (d : Dev) (k : Nat) : Word :=
  let o := k - 0x700000
  let p := o / 0x4000
  let r := o % 0x4000
  if 0x100 ≤ r ∧ r < 0x200 ∧ r % 16 = 12 then BitVec.ofNat 32 (qOccKib d p ((r - 0x100) / 16))
  else if 0x2000 ≤ r ∧ r < 0x2800 then
    match (schedP d p).oper with
    | some g => match g.list[(r - 0x2000) / 8]? with
      | some e => BitVec.ofNat 32 (if r % 8 = 0 then e.1 else e.2)
      | none => 0
    | none => 0
  else regR d k

/-- PLUMB registers (R357). -/
def readPlumb (d : Dev) (k : Nat) : Word :=
  let o := k - 0x800000
  if o % 0x1000 = 0x40 then Word.putBit (regR d k) 29 (plumbAligned d (o / 0x1000)) else regR d k

/-- PORT registers (03): SUBSUMED and FRET_VALID of PORT_STAT follow their sources (R101, R30). -/
def readPort (d : Dev) (k : Nat) : Word :=
  let o := k - 0x200000
  let p := o / 0x1000
  if o % 0x1000 = 0x40 then Word.putBit (Word.putBit (regR d k) 25 (subsumed d p)) 6 (fretValid d (portIsland p)) else regR d k

/-- QMGR_INFLIGHT (R316). -/
def readQmgr (d : Dev) (k : Nat) : Word :=
  if k = 0x900018 then BitVec.ofNat 32 d.pkts.length else regR d k

/-- GATE_STAT (R494). -/
def gateStatWord (d : Dev) (g : Nat) : Word :=
  let w := effR d (gateCfgKey g 0)
  let on := gateOn d g
  let c0 := Word.fld w 26 24
  let c1 := Word.fld w 22 20
  let pairedIn : Nat → Bool → Bool := fun c alt =>
    (List.range 8).any fun k => (gcore d c k).paired && decide (gateMask d g alt / 2 ^ (8 * k) % 256 ≠ 0)
  let srv := gateServer d g
  let c := match srv with | some x => x.1 | none => c0
  let alt := match srv with | some x => x.2 | none => false
  let parked := ((List.range 64).filter fun t => bitOf (gateMask d g alt) t && decide ((thr d c t).st = .parked)).length
  if !on then 0 else
  BitVec.ofNat 32 (2 ^ 31 + b2n (pairedIn c0 false || (Word.bit w 23 && pairedIn c1 true)) * 2 ^ 30 + b2n alt * 2 ^ 29 +
    c * 2 ^ 24 + parked)

/-- CORE_STATE of one core (R494). -/
def coreStateCode (d : Dev) (c k : Nat) : Nat :=
  let ts := (List.range 8).map fun i => thr d c (8 * k + i)
  if coreStopped d c k then 2
  else if ts.any (·.halted) then 3
  else if ts.any (fun t => decide (t.st ≠ .idle)) then 1 else 0

/-- GVK_STAT (R494). -/
def gvkStatWord (d : Dev) (c : Nat) : Word :=
  let res := (List.range 8).foldl (fun (a : Nat) k => a + b2n (coreReserved d.variant c k) * 2 ^ k) 0
  let st := (List.range 8).foldl (fun (a : Nat) k => a + coreStateCode d c k * 4 ^ k) 0
  Word.putBit (BitVec.ofNat 32 (res * 2 ^ 16 + st)) 31 (d.released.contains c)

/-- GIVIK registers (R494). -/
def readGivik (d : Dev) (k : Nat) : Word :=
  let o := k - 0xA00000
  if 0x900 ≤ o ∧ o < 0xA00 then gateStatWord d ((o - 0x900) / 4)
  else if o < 0x1000 ∨ 0x7000 ≤ o then regR d k
  else
    let c := o / 0x1000 - 1
    let r := o % 0x1000
    if r = 0x40 then gvkStatWord d c
    else if 0x400 ≤ r ∧ r < 0x600 then wordOf (gcore d c ((r - 0x400) / 0x40)).fault ((r - 0x400) % 0x40)
    else if 0x800 ≤ r ∧ r < 0xA00 ∧ (r % 0x40 = 0x1C ∨ r % 0x40 = 0x20) then
      halfOf64 (dbgValue d c ((r - 0x800) / 0x40)) ((r % 0x40 - 0x1C) / 4)
    else regR d k

/-- Rebuild progress of a drive port as allocated chunks copied of allocated chunks (R439, R443). -/
def rebuildPart (d : Dev) (n : Nat) : Nat × Nat :=
  let m := pairMap d (n / 2)
  let done := (drv d n).rebuilt
  (m.used.foldl (fun a u => a + min 1024 (done - 1024 * u.1)) 0, 1024 * m.used.length)

/-- LEDG_DRV_STAT less REBUILD_PM (R443). -/
def drvStatWord (d : Dev) (n pm : Nat) : Word :=
  let x := drv d n
  BitVec.ofNat 32 (x.st * 2 ^ 28 + b2n x.present * 2 ^ 27 + b2n x.up * 2 ^ 26 + x.speed % 8 * 2 ^ 23 + x.width % 8 * 2 ^ 20 + pm)

/-- LEDG registers (R443) whose words are exact. -/
def readLedg (d : Dev) (k : Nat) : Word :=
  let o := k - 0xC00000
  if o = 0x40 then
    BitVec.ofNat 32 (b2n (decide (d.ledger.volume ≠ [])) * 2 ^ 31 + b2n (bitR d (cstsKey 1) 5) * 2 ^ 30 +
      (ctrl d 1).ps % 4 * 2 ^ 28 + (ctrl d 3).ps % 4 * 2 ^ 26)
  else if 0x50 ≤ o ∧ o < 0x60 then wordOf d.ledger.volume (o - 0x50)
  else if o = 0x80 ∨ o = 0x84 then
    let p := (o - 0x80) / 4
    if numPairs d.variant ≤ p then 0
    else BitVec.ofNat 32 ((members d p).length * 2 ^ 30 + (pairMap d p).slabs % 2 ^ 17)
  else regR d k

/-- FOOT registers (R551). -/
def readFoot (d : Dev) (k : Nat) : Word :=
  let f := d.foot
  let o := k - 0xE00000
  if o = 0x10 then
    BitVec.ofNat 32 (b2n f.recovered * 2 ^ 27 + b2n d.untested * 2 ^ 26 + b2n (d.dbgPort || d.dbgCores) * 2 ^ 25 +
      b2n (decide (slotSt d f.runSlot = 2)) * 2 ^ 24 + f.lifecycle % 4 * 2 ^ 22 + f.runSlot % 2 * 2 ^ 21 + b2n f.fallback * 2 ^ 20 +
      f.fbCause % 16 * 2 ^ 16)
  else if o = 0x14 then BitVec.ofNat 32 (f.epoch % 16 * 2 ^ 28 + f.revoked % 16 * 2 ^ 24 + f.svn % 64 * 2 ^ 18)
  else if o = 0x20 ∨ o = 0x24 then
    match (slot d ((o - 0x20) / 4)).rec_ with
    | some r => BitVec.ofNat 32 (r.st % 4 * 2 ^ 30 + r.tries % 4 * 2 ^ 28 + b2n r.untested * 2 ^ 27 + b2n r.table * 2 ^ 26 +
        r.epoch % 16 * 2 ^ 22 + r.key % 4 * 2 ^ 20)
    | none => 0
  else if 0x28 ≤ o ∧ o < 0x38 then halfOf64 (slotSeq d ((o - 0x28) / 8)) ((o - 0x28) % 8 / 4)
  else if o = 0x40 then BitVec.ofNat 32 f.boots
  else regR d k

/-- HOST registers (R386). -/
def readHost (d : Dev) (k : Nat) : Word :=
  if k = 0xD00010 ∨ k = 0xD00014 then
    Word.putBit (regR d k) 28 (isFrozen d ((k - 0xD00010) / 4))
  else regR d k

/-! ### Function registers (11, R315, R417) -/

/-- Whether a function has a BAR4 (R366). -/
def hasBar4 (v : Variant) (f : Nat) : Bool := decide (f < 4) && (decide (f % 2 = 0) || hasLedger v)

/-- FN_ID to FN_RESET, and the NVMe registers of PF1 and PF3, of function `f` at offset `off` of its keys. -/
def readFn (d : Dev) (f off : Nat) : Word :=
  let x := fn d f
  let v := d.variant
  let dev := if isVf f then 0x324A else if f % 2 = 1 then 0x3249 else 0x3248
  let devL := if isVf f then 0x3226 else if f % 2 = 1 then 0x3225 else 0x3224
  let bare := !(hasLedger v) && decide (f = 1 ∨ f = 3)
  if off = 0 then BitVec.ofNat 32 ((if v = .l then devL else dev) * 2 ^ 16 + fnKind f * 2 ^ 10 + f)
  else if off = 4 then
    BitVec.ofNat 32 (b2n (hasWitness v) * 2 ^ 31 + b2n (hasBar4 v f) * 2 ^ 30 + fnPort f * 2 ^ 29 + (grant d f 4).value % 2 ^ 12 * 2 ^ 12)
  else if bare then 0
  else if off = 8 then BitVec.ofNat 32 (x.gen % 256)
  else if off = 0xC then
    let heldB := !x.bme
    let vfs := !(isVf f) && x.vfEnable
    BitVec.ofNat 32 (b2n x.ready * 2 ^ 31 + b2n x.resetBusy * 2 ^ 30 + b2n x.d3hot * 4 + b2n heldB * 2 + b2n vfs)
  else if off = 0x10 then BitVec.ofNat 32 (b2n x.resetBusy)
  else if off = 0x14 ∧ isVf f = true then 0
  else if off = 0x180 ∨ off = 0x184 ∨ (0x200 ≤ off ∧ off < 0x300) ∨ (isVf f = true ∧ 0x8400 ≤ off) then 0
  else if f = 1 ∨ f = 3 then
    if off = 0x2000 then 0x14010FFF
    else if off = 0x2004 then 0x20
    else if off = 0x2008 then 0x00020000
    else if off = 0x2010 then regR d (fnKey f 0x200C)
    else regR d (fnKey f off)
  else regR d (fnKey f off)

/-! ### One word -/

/-- A quotient the spec states without its rounding: one of its two neighbours, freely (log entry 2). -/
def freeQuot (n q : Nat) (d : Dev) : Word × Dev :=
  let r := roundFree n q d
  (BitVec.ofNat 32 r.1.toNat, r.2)

/-- WIT_BACKLOG (R244): the hashing's pace is time's (out of the model), so it is free between 0 and the records not yet
under a seal. -/
def readBacklog (d : Dev) : Word × Dev :=
  let open_ := match d.wit.cur with | some a => a.recs.length | none => 0
  let n := open_ + d.wit.closed.foldl (fun n a => n + a.recs.length) 0
  if n = 0 then (0, d) else let (x, d) := fresh d; (BitVec.ofNat 32 (x % (n + 1)), d)

/-- HOST_PB_RESERVE with RESV_PEND (R382): certainly set while more cells are held than remain, certainly clear with no
reserve or no frame; between, it depends on which cells the frames hold, which is free. -/
def readResv (d : Dev) : Word × Dev :=
  let r := effF d 0xD00018 5 0
  let occ := bufCells d
  let w := regR d 0xD00018
  if r = 0 ∨ occ = 0 then (w, d)
  else if 393216 - 4096 * r < occ then (Word.putBit w 31 true, d)
  else let (x, d) := fresh d; (Word.putBit w 31 (decide (x % 2 = 1)), d)

/-- The word a key reads as, and what the read does, for host port `h` and a key whose unit works. -/
def readUnit (h k : Nat) (d : Dev) : Word × Dev :=
  if 0x5000000 ≤ k then (0, d)
  else if 0x1000000 ≤ k then (readFn d ((k - 0x1000000) / 0x10000) ((k - 0x1000000) % 0x10000), d)
  else if isCtr k then readCtr h k d
  else if k = 0x600060 ∧ chanCount d = 0 then (0, d)
  else if k = 0x600060 then freeQuot (stagingFree d) (2 ^ 20) d
  else if k = 0x600064 then readBacklog d
  else if k = 0x7C0010 then freeQuot (bufCells d) 4 d
  else if k = 0xC00044 then freeQuot (d.ledger.wbuf.length * 4096) (2 ^ 20) d
  else if k = 0xD00018 then readResv d
  else if 0xC00100 ≤ k ∧ k < 0xC00180 ∧ k % 0x20 = 0 then
    let n := (k - 0xC00100) / 0x20
    let x := rebuildPart d n
    if (drv d n).st = 6 ∧ x.2 ≠ 0 then
      let r := roundFree (1000 * x.1) x.2 d
      (drvStatWord d n r.1.toNat, r.2)
    else (drvStatWord d n 0, d)
  else
    (match k / 2 ^ 20 with
      | 0 => readBrg d k
      | 1 => readTime d k
      | 2 => readPort d k
      | 6 => readWit d k
      | 7 => readSched d k
      | 8 => readPlumb d k
      | 9 => readQmgr d k
      | 10 => readGivik d k
      | 12 => readLedg d k
      | 13 => readHost d k
      | 14 => readFoot d k
      | 15 => readCal d k
      | _ => regR d k, d)

/-- The header of a commit group: ID and COMMIT (R37, R38); CSTAT and LOCK stand as registers. -/
def headerWord (d : Dev) (b off : Nat) : Word :=
  if off = 0 then BitVec.ofNat 32 (b / 2 ^ 20 * 2 ^ 24 + 2 ^ 16 + groupNum b)
  else if off = 4 then BitVec.ofNat 32 (b2n (bitR d (b + 8) 0))
  else regR d (b + off)

/-- A read of the register at a key by host port `h` (R11, R12, R37, R44). -/
def readWord (h k : Nat) (d : Dev) : Word × Dev :=
  if k < 0x1000000 ∧ regState d k = 1 then (0, d)
  else if k < 0x1000000 ∧ regState d k = 2 then (0xFFFFFFFF, d)
  else if isGroup (k / 16 * 16) && decide (k < 0x1000000) then (headerWord d (k / 16 * 16) (k % 16), d)
  else if k < 0x108000 ∧ 0x100000 ≤ k ∧ k % 0x1000 = 0x60 then
    let s := (k - 0x100000) / 0x1000
    let v := toR17 (str d s).t
    (BitVec.ofNat 32 (v % 2 ^ 16), strU s (fun x => { x with now := [v / 2 ^ 16 % 2 ^ 32, v / 2 ^ 48 % 2 ^ 32, v / 2 ^ 80] }) d)
  else readUnit h k d

/-! ### The row -/

/-- The host port whose host reads a function's registers. -/
def readerOf (f : Nat) : Nat := fnPort f

/-- COUNTER_LOW_READ (R114, R192): a host's read of a counter's low word in PF0's device map at `off` returns it and
latches its high word. A read of a register that is no counter's low word is no such event. -/
def execCounterLowRead (fn off : Nat) (s : State) : Host.Outcome State Fault Refusal :=
  lift (fun d =>
    if fn ≠ 0 ∨ !(isCtr off) ∨ off % 8 ≠ 0 then d
    else if isFrozen d 0 then emit (.regData fn off 0xFFFFFFFF) d
    else
      let r := readWord (readerOf fn) off d
      emit (.regData fn off r.1) r.2) s

end Sys2Proof.Machine
end

