-- ==== Sys2Proof/Machine/ConfigSpace.lean ====
section
/-! DEFINITION. The configuration space of the functions: identity, capability list and fields (R364–R368, R380, R384). What of a
capability's body the spec does not give is free (log entry 70). -/

namespace Sys2Proof.Machine
open Sys2Proof

/-! ### The capability list (R367) -/

/-- One capability: offset, ID, length, and whether PF0 and PF2, PF1 and PF3, and VFs have it. -/
structure CapRow where
  off : Nat
  id : Nat
  len : Nat
  pf02 : Bool
  pf13 : Bool
  vf : Bool
  deriving DecidableEq, Repr

/-- The capability list, in table order (R367). -/
def capRows : List CapRow := [
  ⟨0x40, 0x01, 0x08, true, true, false⟩, ⟨0x50, 0x11, 0x0C, true, true, true⟩, ⟨0x60, 0x10, 0x3C, true, true, true⟩,
  ⟨0x100, 0x0001, 0x48, true, true, false⟩, ⟨0x148, 0x000E, 0x08, true, true, true⟩, ⟨0x150, 0x0010, 0x40, true, false, false⟩,
  ⟨0x190, 0x000D, 0x08, true, true, false⟩, ⟨0x1A0, 0x0019, 0x2C, true, false, false⟩, ⟨0x1D0, 0x0025, 0x0C, true, false, false⟩,
  ⟨0x1E0, 0x0026, 0x30, true, false, false⟩, ⟨0x210, 0x002A, 0x30, true, false, false⟩, ⟨0x240, 0x0031, 0x20, true, false, false⟩,
  ⟨0x260, 0x0027, 0x48, true, false, false⟩, ⟨0x2B0, 0x002E, 0x18, true, false, false⟩, ⟨0x2D0, 0x000B, 0x30, true, false, false⟩]

/-- Whether a function has a capability. -/
def CapRow.for (r : CapRow) (f : Nat) : Bool := if isVf f then r.vf else if f % 2 = 0 then r.pf02 else r.pf13

/-- The capabilities of a function, in table order. -/
def capsOf (f : Nat) : List CapRow := capRows.filter fun r => r.for f

/-- The next pointer of a capability (R367): the next one present, 0 for the last. The 8-bit pointers below 0x100 end with the last
capability there, and the extended list begins at 0x100 (DEDUCED, log entry 70). -/
def capNext (f : Nat) (r : CapRow) : Nat :=
  match (capsOf f).find? fun x => decide (r.off < x.off) with
  | some x => if r.off < 0x100 ∧ 0x100 ≤ x.off then 0 else x.off
  | none => 0

/-! ### What a word reads as -/

/-- The bits of `mask` free, the others as given (log entries 2 and 70). -/
def freeBits (mask : Nat) (known : Nat) (d : Dev) : Word × Dev :=
  let (x, d) := fresh d
  ((BitVec.ofNat 32 x &&& BitVec.ofNat 32 mask) ||| (BitVec.ofNat 32 known &&& ~~~ (BitVec.ofNat 32 mask)), d)

/-- Device ID of a function (R364). -/
def deviceId (v : Variant) (f : Nat) : Nat :=
  if v = .l then (if isVf f then 0x3226 else if f % 2 = 1 then 0x3225 else 0x3224)
  else if isVf f then 0x324A else if f % 2 = 1 then 0x3249 else 0x3248

/-- Class code of a function (R364). -/
def classCode (v : Variant) (f : Nat) : Nat :=
  if f = 1 ∨ f = 3 then (if v = .m then 0x088000 else 0x010802) else 0x020000

/-- Subsystem ID (R364). -/
def subsystemId : Variant → Nat
  | .w => 0x0057
  | .m => 0x004D
  | .l => 0x004C

/-- VFs a PF may enable (R364, R368). -/
def totalVfs (v : Variant) (f : Nat) : Nat := if f = 0 then vfsPf0 v else vfsPf2 v

/-- A word of the Type 0 header (R364–R366). -/
def headerCfg (f off : Nat) (d : Dev) : Word × Dev :=
  let v := d.variant
  let x := fn d f
  let pin := if isVf f then 0 else 1 + f % 2
  if off = 0 then (if isVf f then 0xFFFFFFFF else BitVec.ofNat 32 (deviceId v f * 2 ^ 16 + 0x1F5A), d)
  else if off = 4 then
    freeBits 0xF9000000 (2 * b2n x.mse + 4 * b2n x.bme + 2 ^ 6 * b2n x.parityResp + 2 ^ 8 * b2n x.serr + 2 ^ 10 * b2n x.intxDisable +
      2 ^ 19 * b2n x.intxOn + 2 ^ 20) d
  else if off = 8 then (BitVec.ofNat 32 (classCode v f * 2 ^ 8 + 0x10), d)
  else if off = 0xC then (if isVf f then 0 else 0x800000, d)
  else if off = 0x2C then (BitVec.ofNat 32 (subsystemId v * 2 ^ 16 + 0x1F5A), d)
  else if off = 0x34 then (0x40, d)
  else if off = 0x3C then (BitVec.ofNat 32 (pin * 2 ^ 8) ||| (regR d (cfgKey f 0x3C) &&& 0xFF), d)
  else if isVf f || (decide (0x20 ≤ off) && !(hasBar4 v f)) then (0, d)
  else (regR d (cfgKey f off), d)

/-- Code of a payload or request size: 128 bytes are 0 (PCI Express). -/
def sizeCode (n : Nat) : Nat := Nat.log2 (n / 128)

/-- A word of a capability's body, at offset `o` of it (R367, R368, R370, R380, R384). -/
def capCfg (f : Nat) (r : CapRow) (o : Nat) (d : Dev) : Word × Dev :=
  let v := d.variant
  let x := fn d f
  let h := fnPort f
  let base := if f = 0 then 0xDF0000 else 0
  match r.off, o with
  | 0x40, 4 => freeBits 0x7F00FF00 ((if x.d3hot then 3 else 0) + 8) d
  | 0x50, 4 => (BitVec.ofNat 32 (base + 0x8000), d)
  | 0x50, 8 => (BitVec.ofNat 32 (base + 0x7000), d)
  | 0x60, 8 => freeBits 0xFFFF8F1F (sizeCode x.maxPayload * 2 ^ 5 + sizeCode x.maxRead * 2 ^ 12) d
  | 0x60, 0x10 => freeBits 0xFFFFFFFD (2 * b2n (hp d h).aspmL1) d
  | 0x100, 4 => (BitVec.ofNat 32 (hp d h).aerUncor, d)
  | 0x100, 0x10 => (BitVec.ofNat 32 (hp d h).aerCor, d)
  | 0x100, 0x1C => (BitVec.ofNat 32 ((hp d h).aerHdr.getD 0 0), d)
  | 0x100, 0x20 => (BitVec.ofNat 32 ((hp d h).aerHdr.getD 1 0), d)
  | 0x100, 0x24 => (BitVec.ofNat 32 ((hp d h).aerHdr.getD 2 0), d)
  | 0x100, 0x28 => (BitVec.ofNat 32 ((hp d h).aerHdr.getD 3 0), d)
  | 0x150, 8 => freeBits 0xFFFFFFF6 (b2n x.vfEnable + 8 * b2n x.vfMse) d
  | 0x150, 0xC => (BitVec.ofNat 32 (totalVfs v f * 2 ^ 16 + totalVfs v f), d)
  | 0x150, 0x10 => freeBits 0xFFFF0000 x.numVfs d
  | 0x150, 0x14 => (0x00010002, d)
  | 0x150, 0x18 => (BitVec.ofNat 32 (deviceId v 4 * 2 ^ 16), d)
  | 0x150, 0x1C => (1, d)
  | 0x150, 0x24 => (regR d (cfgKey f 0x174), d)
  | 0x150, 0x28 => (regR d (cfgKey f 0x178), d)
  | 0x150, 0x2C => (regR d (cfgKey f 0x17C), d)
  | 0x150, 0x30 => (regR d (cfgKey f 0x180), d)
  | 0x190, 4 => freeBits 0xFFB3FFB3 (0x4C + (regR d (cfgKey f 0x194)).toNat) d
  | 0x2D0, 4 => (0x03010001, d)
  | 0x2D0, 0x20 => (BitVec.ofNat 32 (hp d h).hold.length, d)
  | 0x2D0, 0x2C => (0, d)
  | 0x2D0, o => (regR d (cfgKey f (0x2D0 + o)), d)
  | _, _ => let (n, d) := fresh d; (BitVec.ofNat 32 n, d)

/-- The first word of a capability: ID, next pointer, version, and what a standard capability holds beside them. -/
def capHead (f : Nat) (r : CapRow) (d : Dev) : Word × Dev :=
  let n := capNext f r
  if r.off = 0x40 then freeBits 0x01FF0000 (r.id + n * 2 ^ 8) d
  else if r.off = 0x50 then
    freeBits 0x40000000 (r.id + n * 2 ^ 8 + (if isVf f then 63 else 2047) * 2 ^ 16 + b2n (fn d f).msixEnable * 2 ^ 31) d
  else if r.off = 0x60 then freeBits 0xFF000000 (r.id + n * 2 ^ 8 + 2 * 2 ^ 16) d
  else if r.off = 0x2D0 then (BitVec.ofNat 32 (r.id + 2 ^ 16 + n * 2 ^ 20), d)
  else freeBits 0x000F0000 (r.id + n * 2 ^ 20) d

/-- A read of one aligned word of a function's configuration space; outside the header and its capabilities it reads 0. -/
def cfgRead (f off : Nat) (d : Dev) : Word × Dev :=
  if off < 0x40 then headerCfg f off d
  else match (capsOf f).find? fun r => decide (r.off ≤ off) && decide (off < r.off + r.len) with
    | some r => if off = r.off then capHead f r d else capCfg f r (off - r.off) d
    | none => (0, d)

/-! ### What a write does -/

/-- A function's Command register (R365, R372): Memory Space Enable, Parity Error Response and SERR# Enable. Bus Master Enable and
Interrupt Disable act by the rows of theirs. -/
def commandWrite (f : Nat) (v : Word) (d : Dev) : Dev :=
  fnU f (fun x => { x with mse := Word.bit v 1 && !(isVf f), parityResp := Word.bit v 6, serr := Word.bit v 8 }) d

/-- Device Control (R361): Max_Payload_Size 128 to 512 and Max_Read_Request_Size 128 to 4,096 bytes; another code changes nothing. -/
def deviceControl (f : Nat) (v : Word) (d : Dev) : Dev :=
  fnU f (fun x => { x with
    maxPayload := if Word.fld v 7 5 ≤ 2 then 128 * 2 ^ Word.fld v 7 5 else x.maxPayload
    maxRead := if Word.fld v 14 12 ≤ 5 then 128 * 2 ^ Word.fld v 14 12 else x.maxRead }) d

end Sys2Proof.Machine
end

