-- ==== Sys2Proof/Machine/TimeTx.lean ====
section
/-! DEFINITION. Scheduled changes of the strings as they apply (R27), what the time service sends (R77, R82), and IDENTIFY
(R10, R312). -/

namespace Sys2Proof.Machine

/-! ### Scheduled changes -/

/-- Whether a scheduled change moves a string's time, and as which cause of a drain: 0 a step, 1 a LOAD (R213). -/
def jumpCause (k : SchedKind) : Option Nat := match k with
  | .step _ => some 0
  | .load _ _ => some 1
  | _ => none

/-- A string's time has jumped from `before`: the courses drain (R213), the open ashlar closes on the old scale (R239), the
gates resynchronise (R335) and skipped copies miss (R354). -/
def afterJump (s before cause : Nat) (d : Dev) : Dev :=
  plumbStep s (toQ before) (toQ (str d s).t) (gateResyncAll s (stepClose s before (drainString s cause d)))

/-- SCHEDULED_APPLY (R27): the first change of a string that has reached its tick applies on every fret and time tap. -/
def execScheduledApply (str_ : Nat) (s : State) : Host.Outcome State Fault Refusal :=
  lift (fun d =>
    match takeDue d str_ with
    | none => d
    | some (e, rest) =>
      let before := (str d str_).t
      let d := applyOne str_ e (strU str_ (fun x => { x with sched := rest }) d)
      match jumpCause e.what with
      | some c => afterJump str_ before c d
      | none => d) s

/-! ### Inputs and outputs (R83, R84, R98) -/

/-- PPS_IN_PULSE (R83, R98): an edge on PPS_IN0 or PPS_IN1, `sub` sixteenths of a ns after the tick. An input enabled again counts
from the last pulse it saw before (DESIGN CHOICE, log entry 64). -/
def execPpsInPulse (i : Nat) (rising : Bool) (sub : Nat) (s : State) : Host.Outcome State Fault Refusal :=
  lift (fun d =>
    let k := 0x108020 + 4 * i
    let d := takeIo (some i) d
    if !(effB d k 0) || effB d k 1 = rising || decide (2 ≤ i) then d else
    let last := d.time.ppsLast.getD i 0
    let gap := now d + 1 - last
    let qualified := decide (last = 0) || (decide (999000000 ≤ gap) && decide (gap ≤ 1001000000))
    let d := timeU (fun t => { t with ppsLast := setAt t.ppsLast i (now d + 1) }) d
    if !qualified then d else
    (List.range (numStrings d.variant)).foldl (fun d st =>
      let x := str d st
      if decide (x.srcKind = 2 + i) then
        let d := strU st (fun y => { y with lastPulse := now d }) d
        let q := toQ x.t / 4096 * 4096 + sub % 16 * 4096
        let o := ppsOffset (q + 1000000000 * 65536 - effF d k 31 16 * 4096)
        if decide (x.owner = 0) && timeServiceUp d && !(staleOffset x (now d)) then
          (acceptOffset st o 32768 (now d) d).2
        else d
      else d) d) s

/-- Whether PPS output `i` configured by `cfg` and `adv` is at a whole second of its string, less ADVANCE (R84). -/
def atSecond (d : Dev) (cfg adv : Word) : Bool :=
  let x := str d (Word.fld cfg 3 1)
  decide ((x.t + Word.fld adv 15 0 * 2 ^ 44) % secUnit < x.incr)

/-- PPS_OUT_EDGE (R84, R98): the active edge at a whole second of the string less ADVANCE, and the end of its pulse. -/
def execPpsOutEdge (i : Nat) (active : Bool) (s : State) : Host.Outcome State Fault Refusal :=
  lift (fun d =>
    let k := 0x108030 + 4 * i
    if 4 ≤ i then d
    else if active then
      let d := takeIo none d
      if effB d k 0 && decide (effF d k 31 13 ≠ 0) && !d.timeDead && atSecond d (effR d k) (effR d (0x108040 + 4 * i)) then
        emit (.pin (pinPpsOut i) (!(effB d k 4))) (timeU (fun t => { t with
          ppsOn := setAt t.ppsOn i true, ppsFrom := setAt t.ppsFrom i t.tick }) d)
      else d
    else if d.time.ppsOn.getD i false && decide (d.time.ppsFrom.getD i 0 + effF d k 31 13 * 1000 ≤ now d) then
      emit (.pin (pinPpsOut i) (effB d k 4)) (timeU (fun t => { t with ppsOn := setAt t.ppsOn i false }) d)
    else d) s

/-! ### ESMC -/

/-- An ESMC PDU (ITU-T G.8264; PRESUMED, log entry 55): slow protocol addressing, version 1 with the event flag, the QL TLV and
the extended QL TLV. It tells the QL and the extended QL of the EEC's input, and Do Not Use on that input itself; without an EEC
locked to one both are free, as is the source address. -/
def esmcPdu (port : Nat) (event : Bool) (d : Dev) : Bytes × Dev :=
  let (sa, d) := freeBytes 6 d
  let (fq, d) := fresh d
  let (fe, d) := freeBytes 17 d
  let locked := effB d 0x108060 0 && decide (fldR d 0x108064 1 0 = 1)
  let input := fldR d 0x108064 13 8
  let e : Esmc := Tbl.get (fun _ => {}) d.time.esmc input
  let ql := if !locked then fq % 16 else if port = input then 15 else fldR d 0x108064 7 4
  let ext := if locked && !e.ext.isEmpty then e.ext else fe
  ([0x01, 0x80, 0xC2, 0, 0, 0x02] ++ sa ++ [0x88, 0x09, 0x0A, 0x00, 0x19, 0xA7, 0x00, 0x01, if event then 0x18 else 0x10, 0, 0, 0] ++
    [0x01, 0x00, 0x04, BitVec.ofNat 8 ql] ++ [0x02, 0x00, 0x14] ++ ext, d)

/-- ESMC_PDU_TX (R82): the time service sends an information PDU, or an event PDU on a change, on a port; with QL_MODE the
EEC's input is chosen again. -/
def execEsmcPduTx (port : Nat) (event : Bool) (s : State) : Host.Outcome State Fault Refusal :=
  lift (fun d =>
    if !(timeServiceUp d) || decide (48 ≤ port) || !(portPresent d.variant port) || !(canStart d port) then d
    else
      let (b, d) := esmcPdu port event (eecReselect d)
      sendOut port b d) s

/-! ### IDENTIFY -/

/-- The part number of a variant (R10). -/
def partBytes (v : Variant) : Bytes :=
  asciiPad 12 (match v with
    | .w => [0x50, 0x33, 0x32, 0x34, 0x38, 0x2D, 0x57]
    | .m => [0x50, 0x33, 0x32, 0x34, 0x38, 0x2D, 0x4D]
    | .l => [0x50, 0x33, 0x32, 0x32, 0x34, 0x2D, 0x4C])

/-- A function's BASE_MAC and MACS (R312, R402): a VF's from its VF_CONFIG block, a PF's free. -/
def macBytes (d : Dev) (f : Nat) : Bytes :=
  if isVf f then slice (fn d f).vfConfig 8 8 else (List.range 8).map fun i => Config.freeByte 7 (8 * f + i)

/-- The Identify data of a function (R10, R312). -/
def identifyData (d : Dev) (f : Nat) : Bytes :=
  let g : Nat → Nat := fun r => (grant d f r).value
  let cap : Nat → Bytes := fun i => leBytes 4 (capWord d.variant i).toNat
  padTo 4096 (leBytes 2 0x1F5A ++ leBytes 2 ((readFn d f 0).toNat / 2 ^ 16) ++ cap 0 ++ cap 1 ++ cap 2 ++ cap 3 ++
    partBytes d.variant ++ (List.range 16).map Config.serial ++
    leBytes 2 f ++ leBytes 1 (fnKind f) ++ leBytes 1 (fn d f).gen ++ leBytes 1 (fnPort f) ++ [0] ++
    leBytes 2 (g 1) ++ leBytes 2 (g 2) ++ leBytes 2 (g 3) ++ leBytes 2 (g 4) ++ leBytes 1 (g 5) ++ [0] ++
    [6, 16, 32, 64, 8, 9, 14, 0] ++ leBytes 4 (ovfLimit d f) ++ leBytes 2 d.foot.abiMin ++ leBytes 2 d.foot.abiMax ++ macBytes d f ++
    leBytes 8 (versionOf d.foot.running 1) ++ leBytes 8 (versionOf d.foot.running 2) ++ cap 4)

/-- IDENTIFY (R312). -/
def execIdentify (c : Cmd) (s : State) : Host.Outcome State Fault Refusal :=
  lift (fun d =>
    checked c (firstStatus [((cmdSelf c).isNone, stNotPermitted),
      (!(reservedOk c [(24, 8)]) || decide (c.f 24 8 % 4096 ≠ 0), stBadParam)])
      (fun d => reply c (c.f 24 8) (identifyData d c.fn) d) d) s

end Sys2Proof.Machine
end

