-- ==== Sys2Proof/Machine/RegWrite.lean ====
section
/-! DEFINITION. Register writes with no behaviour of their own (R35), the freeze capability's hold area (R380), and inbound
TLPs (R374, R375, R381–R383), which reach every register row. -/

namespace Sys2Proof.Machine

/-! ### Plain writes -/

/-- Keys whose writes are rows of their own in the command table. -/
def ownRow (k : Nat) : Bool :=
  decide (k = 0x108010) || decide (k = 0x80C) || decide (k = cfgKey 0 0x2D8) || decide (k = cfgKey 2 0x2D8) ||
  decide (k = cfgKey 0 0x2F8) || decide (k = cfgKey 2 0x2F8) ||
  (decide (fnKey 0 0 ≤ k) && decide (k < cfgKey 0 0) && [0x10, 0x14, 0x118, 0x130, 0x180, 0x184, 0x2014].contains ((k - fnKey 0 0) % 0x10000))

/-- Bits software writes plainly on this variant: WITNESS and WIT_EN read 0 on the M (R193, R357), and a VF's MSI-X table has
64 entries (R370). -/
def writableBits (d : Dev) (k : Nat) (r : RegRow) : Nat :=
  let o := (k - fnKey 0 0) % 0x10000
  if !(hasWitness d.variant) && decide (0x401100 ≤ k) && decide (k < 0x401500) && decide (k % 16 = 0) then r.w % 2 ^ 31
  else if !(hasWitness d.variant) && decide (0x800010 ≤ k) && decide (k < 0x840000) && decide (k % 0x1000 = 0x10) then r.w - 2 ^ 30
  else if decide (fnKey 0 0 ≤ k) && decide (k < cfgKey 0 0) && decide (0x8000 ≤ o) && isVf ((k - fnKey 0 0) / 0x10000) && decide (0x8400 ≤ o) then 0
  else r.w

/-- Whether a ring's base is held by its running queue (R315). -/
def baseHeld (d : Dev) (k : Nat) : Bool :=
  let f := (k - fnKey 0 0) / 0x10000
  let o := (k - fnKey 0 0) % 0x10000
  decide (fnKey 0 0 ≤ k) && decide (k < cfgKey 0 0) &&
    ((between 0x100 o 0x117 && bitR d (fnKey f 0x11C) 31) || (between 0x120 o 0x12F && bitR d (fnKey f 0x134) 31))

/-- Write a word's plain fields, and clear the W1C bits written as 1. -/
def plainWrite (k : Nat) (v : Word) (d : Dev) : Dev :=
  if isGroup (k / 16 * 16) && decide (k < 0x1000000) && decide (k % 16 = 8) then regW k (regR d k &&& ~~~ (v &&& 6)) d
  else match regRow k with
    | none => d
    | some r =>
      if ownRow k || baseHeld d k then d
      else
        let locked := bitR d (groupOf k + 0xC) 0
        let w := BitVec.ofNat 32 (writableBits d k r) &&& (if locked then ~~~ (BitVec.ofNat 32 r.rwl) else 0xFFFFFFFF)
        regW k (((regR d k &&& ~~~ w) ||| (v &&& w)) &&& ~~~ (v &&& BitVec.ofNat 32 r.w1c)) d

/-- INTMS and INTMC of a ledger PF (R417; NVM Express, log entry 50): they mask and unmask interrupt vectors; an unmasked
queue with completions not taken signals. -/
def nvmeMask (f : Nat) (clear : Bool) (v : Word) (d : Dev) : Dev :=
  let k := fnKey f 0x200C
  if !clear then regW k (regR d k ||| v) d
  else
    let d := regW k (regR d k &&& ~~~ v) d
    (cqIds d f).foldl (fun d y => match ncq d f y with
      | some q => if q.ien && Word.bit v (q.vector % 32) && decide (q.tail ≠ q.head) then nvmeSignal f q.vector d else d
      | none => d) d

/-- What a write of one aligned register word of BAR0 does: nothing at a unit that is absent or off (R11, R12), outside a
present register (R44), or on the M outside its map (R3). -/
def bar0Write (f off : Nat) (v : Word) (d : Dev) : Dev :=
  let k := barKey f off
  if off % 4 ≠ 0 ∨ (k < 0x1000000 ∧ regState d k ≠ 0) ∨ (!(hasLedger d.variant) = true ∧ (f = 1 ∨ f = 3)) then d
  else if (f = 1 ∨ f = 3) ∧ (off = 0xC ∨ off = 0x10) then nvmeMask f (decide (off = 0x10)) v d
  else
    let d' := plainWrite k v d
    if 0x1000000 ≤ k ∧ 0x8000 ≤ k % 0x10000 ∧ k % 16 = 12 then firePending f d' else d'

/-- Local queue numbers a function's BAR2 has a page for (R285). -/
def bar2Pages (d : Dev) (f : Nat) : Nat := max (grant d f 1).value (grant d f 2).value

/-- REGISTER_WRITE (R35): a host's write of one aligned register word with no behaviour of its own, in function `fn`'s BAR0
(`bar` 0), its BAR2, where push windows lie (`bar` 2, R285), or its configuration space (`bar` 3, R380). BAR writes have no
effect while the port is frozen (R375). -/
def execRegisterWrite (fn bar off : Nat) (v : Word) (s : State) : Host.Outcome State Fault Refusal :=
  lift (fun d =>
    if bar = 3 then
      (if fnPresent d fn = true ∧ off % 4 = 0 ∧ off < 0x1000 then plainWrite (cfgKey fn off) v d else d)
    else if !(fnPresent d fn) || isFrozen d (fnPort fn) || d.fatal then d
    else if bar = 0 then bar0Write fn off v d
    else if bar = 2 ∧ off / 4096 < bar2Pages d fn ∧ 0x800 ≤ off % 4096 ∧ off % 4096 < 0x900 ∧ off % 4 = 0 then
      pushWrite fn (off / 4096) (off % 4096 - 0x800) v d
    else d) s

/-! ### The hold area (R376, R380, R453) -/

/-- The largest hold area of a port up to `n` MiB that fits in DRAM. -/
def holdFit (d : Dev) (h : Nat) : Nat → Nat
  | 0 => 0
  | n + 1 => if roomFor d (fldW (cfgKey (2 * h) 0x2F8) 15 0 (n + 1) d) 3 then n + 1 else holdFit d h n

/-- FRZ_HOLD_WRITE (R380, R453): ignored while FROZEN; otherwise the area takes the largest size that fits. -/
def execFrzHoldWrite (h : Nat) (v : Word) (s : State) : Host.Outcome State Fault Refusal :=
  lift (fun d =>
    if decide (numHosts d.variant ≤ h) || isFrozen d h then d
    else placeRegions (fldW (cfgKey (2 * h) 0x2F8) 15 0 (holdFit d h (min 4096 (Word.fld v 15 0))) d)) s

/-! ### Inbound TLPs -/

/-- The open window of a PF that a range of BAR4 lies wholly in, as a space and an address there (R381, R383). A window whose
cluster, or whose half of the packet buffer, does not work counts as closed. -/
def peerTarget (d : Dev) (pf off len : Nat) : Option (Nat × Nat) :=
  ((List.range 8).map fun w => (w, pwOf (effR d) pf w)).findSome? fun x =>
    let kind := x.2.1
    let o := x.2.2.1
    let size := x.2.2.2.1
    let tgt := x.2.2.2.2
    if o ≤ off ∧ off + len ≤ o + size ∧ 0 < len then
      if kind = 1 ∧ islandOn d 27 = true then some (pbSpace, tgt + (off - o))
      else if kind = 2 then
        let c := effF d (0xD01104 + 0x1000 * pf + 16 * x.1) 26 24
        if islandOn d (gIsland c) then some (clusterSpace c, tgt + (off - o)) else none
      else none
    else none

/-- Whether a target is critical to a poisoned request (R374). -/
def criticalTarget (d : Dev) (t : Tlp) : Bool :=
  let vecs := if isVf t.fn then 64 else 2048
  let base := if t.fn = 0 then 0xDF0000 else 0
  let o := t.off - base
  let msix := (decide (base ≤ t.off) && (between 0x7000 o (0x7000 + vecs / 8 - 1) || between 0x8000 o (0x8000 + 16 * vecs - 1)))
  if t.bar = 4 then (peerTarget d t.fn t.off (max 1 t.data.length)).isSome
  else if t.bar ≠ 0 then false
  else if t.fn = 1 ∨ t.fn = 3 then decide (t.off < 0x1000) || between 0x6000 t.off 0x6017 || msix
  else if t.fn = 0 then !(between 0xDF0000 t.off 0xDFFFFF) || decide (o < 0x300) || msix
  else decide (o < 0x300) || msix

/-- An access that no open window takes is counted and logged (R383), and PEER_CLOSED is due (R388). -/
def peerClosed (h pf off : Nat) (d : Dev) : Dev :=
  let d := ctrInc (0xD00110 + 0x40 * h) (rateNote (rateKey 0xD3 pf) off d)
  if bitR d 0xD00020 31 then d
  else regW 0xD00024 (BitVec.ofNat 32 (off % 2 ^ 30)) (regW 0xD00020 (BitVec.ofNat 32 (2 ^ 31 + pf % 4)) d)

/-- The register words a read of BAR0 covers, with what reading them does. -/
def readWords (h f : Nat) : Nat → Nat → Dev → Bytes × Dev
  | 0, _, d => ([], d)
  | n + 1, off, d =>
    let r := readWord h (barKey f off) d
    let rest := readWords h f n (off + 4) r.2
    (leBytes 4 r.1.toNat ++ rest.1, rest.2)

/-- An inbound memory read on a port that is not frozen (R381, R383, R285, R366). -/
def tlpRead (h : Nat) (t : Tlp) (d : Dev) : Dev :=
  if t.bar = 4 then
    match peerTarget d t.fn t.off t.len with
    | some x => emit (.readCpl h true (rd d x.1 x.2 t.len)) d
    | none => emit (.readCpl h false []) (aerUncor h aerUnsupported (t.hdr.map (·.toNat)) d)
  else if t.bar = 0 then
    let first := t.off / 4 * 4
    let r := readWords h t.fn ((t.off + t.len + 3) / 4 - t.off / 4) first d
    emit (.readCpl h true (slice r.1 (t.off - first) t.len)) r.2
  else emit (.readCpl h true (zeros t.len)) d

/-- The debug control word of a core (R492): DEBUG_EN, the thread to step, then what it halts, resumes and steps. -/
def dbgCtlWrite (c k : Nat) (v : Word) (s : State) : Host.Outcome State Fault Refusal :=
  let run := fun (o : Host.Outcome State Fault Refusal) (g : State → Host.Outcome State Fault Refusal) =>
    match o with | .next t => g t | e => e
  let o := execDbgCtlDebugEn c k (Word.bit v 31) s
  let o := run o (lift (plainWrite (dbgKey c k 0) v))
  let o := if Word.fld v 7 0 = 0 then o else run o (execDbgHalt c k (Word.fld v 7 0))
  let o := if Word.fld v 15 8 = 0 then o else run o (execDbgResume c k (Word.fld v 15 8))
  if Word.bit v 27 then run o (execDbgStep c k (Word.fld v 26 24)) else o

/-- A write of PF0's device map at an aligned offset: the row of its register. -/
def mapWrite (off : Nat) (v : Word) (s : State) : Host.Outcome State Fault Refusal :=
  let b := off / 16 * 16
  let c := (off - 0xA01000) / 0x1000
  let r := (off - 0xA01000) % 0x1000
  if isGroup b ∧ off % 16 = 4 then (if Word.bit v 0 then execCommit b s else .next s)
  else if isGroup b ∧ off % 16 = 12 then (if Word.bit v 0 then execLock b s else .next s)
  else if off = 0x108010 then execTrefSelWrite v s
  else if off = 0x80C then execBrgErrAck v s
  else if 0xA01000 ≤ off ∧ off < 0xA07000 ∧ 0x800 ≤ r ∧ r < 0xA00 then
    let k := (r - 0x800) / 0x40
    if r % 0x40 = 0 then dbgCtlWrite c k v s
    else if r % 0x40 = 0x1C ∨ r % 0x40 = 0x20 then execDbgDataWrite c k (decide (r % 0x40 = 0x20)) v s
    else execRegisterWrite 0 0 off v s
  else execRegisterWrite 0 0 off v s

/-- A write of a function's register set, at the offset of its keys. -/
def fnWrite (f off fo : Nat) (v : Word) (s : State) : Host.Outcome State Fault Refusal :=
  if fo = 0x10 then execFnReset f v s
  else if fo = 0x14 then execFnIntxPendClear f v s
  else if f = 1 ∨ f = 3 then
    if off = 0x14 then execCcEn f v s
    else if 0x1000 ≤ off ∧ off < 0x1808 then
      (if off % 8 = 0 then execSqTailDoorbell f ((off - 0x1000) / 8) v s else execCqHeadDoorbell f ((off - 0x1000) / 8) v s)
    else execRegisterWrite f 0 off v s
  else if fo = 0x118 then execAqCfgWrite f v s
  else if fo = 0x130 then execEqCfgWrite f v s
  else if fo = 0x180 then execAqDb f s
  else if fo = 0x184 then execEqDb f v s
  else if 0x200 ≤ fo ∧ fo < 0x300 then execTcqDb f ((fo - 0x200) / 4) s
  else execRegisterWrite f 0 off v s

/-- A write of a doorbell page (R285): the row of its register; a page whose queue is not granted ignores it (R11). -/
def pageWrite (f off : Nat) (v : Word) (s : State) : Host.Outcome State Fault Refusal :=
  let p := off / 4096
  let o := off % 4096
  if bar2Pages s.dev f ≤ p then .next s
  else if o = 0 then execTxDb f p s
  else if o = 4 then execRxDb f p s
  else if o = 8 then execCqDb f p v s
  else if o = 0x900 then execPushCtl f p v s
  else execRegisterWrite f 2 off v s

/-- One aligned word of an inbound write that is served. -/
def wordWrite (f bar off : Nat) (v : Word) (s : State) : Host.Outcome State Fault Refusal :=
  if bar = 2 then pageWrite f off v s
  else
    let k := barKey f off
    if 0x1000000 ≤ k then fnWrite f off ((k - 0x1000000) % 0x10000) v s else if f = 0 then mapWrite off v s else .next s

/-- The whole aligned words of an inbound write, in order; bytes that are not part of one are ignored (log entry 56). -/
def wordsWrite (f bar : Nat) : Nat → Nat → Bytes → State → Host.Outcome State Fault Refusal
  | 0, _, _, s => .next s
  | n + 1, off, bs, s =>
    match wordWrite f bar off (BitVec.ofNat 32 (le bs 0 4)) s with
    | .next t => wordsWrite f bar n (off + 4) (bs.drop 4) t
    | o => o

/-- A write of one aligned word of a function's configuration space: the row of its register (R361–R372, R380, R384, R390). -/
def cfgWrite (f off : Nat) (v : Word) (s : State) : Host.Outcome State Fault Refusal :=
  let x := fn s.dev f
  let h := fnPort f
  let run := fun (o : Host.Outcome State Fault Refusal) (g : State → Host.Outcome State Fault Refusal) =>
    match o with | .next t => g t | e => e
  if off = 4 then
    let o := lift (commandWrite f v) s
    let o := if Word.bit v 2 = x.bme then o else run o (execBusMasterEnable f (Word.bit v 2))
    if isVf f ∨ Word.bit v 10 = x.intxDisable then o else run o (execMsiXEnable f x.msixEnable (Word.bit v 10))
  else if off = 0x44 ∧ isVf f = false then
    (if Word.fld v 1 0 = 3 ∧ x.d3hot = false then execD3hot f true s
     else if Word.fld v 1 0 = 0 ∧ x.d3hot = true then execD3hot f false s else .next s)
  else if off = 0x50 then (if Word.bit v 31 = x.msixEnable then .next s else execMsiXEnable f (Word.bit v 31) x.intxDisable s)
  else if off = 0x68 then
    let o := lift (deviceControl f v) s
    if Word.bit v 15 then run o (execFlr f) else o
  else if off = 0x70 ∧ (f = 0 ∨ f = 2) then lift (hpU h fun p => { p with aspmL1 := Word.bit v 1 }) s
  else if off = 0x104 ∧ isVf f = false then lift (hpU h fun p => { p with aerUncor := p.aerUncor - (p.aerUncor &&& v.toNat) }) s
  else if off = 0x110 ∧ isVf f = false then lift (hpU h fun p => { p with aerCor := p.aerCor - (p.aerCor &&& v.toNat) }) s
  else if off = 0x158 ∧ (f = 0 ∨ f = 2) then
    let o := lift (fnU f fun y => { y with vfMse := Word.bit v 3 }) s
    if Word.bit v 0 = x.vfEnable then o else run o (execVfEnable f (Word.bit v 0) x.numVfs)
  else if off = 0x160 ∧ (f = 0 ∨ f = 2) then
    (if x.vfEnable then .next s else lift (fnU f fun y => { y with numVfs := Word.fld v 15 0 }) s)
  else if off = 0x2D8 ∧ (f = 0 ∨ f = 2) then execFrzRelease h v s
  else if off = 0x2F8 ∧ (f = 0 ∨ f = 2) then execFrzHoldWrite h v s
  else execRegisterWrite f 3 off v s

/-- Whether a function answers memory requests: Memory Space Enable, for a VF VF MSE of its PF (R365). -/
def memOn (d : Dev) (f : Nat) : Bool := if isVf f then (fn d (parentPf f)).vfMse else (fn d f).mse

/-- A completion arrives (R373, R374, R384): one that is late is dropped, counted in UNEXP_CPL and reported; a poisoned one of a
descriptor, list, doorbell record or admin command read freezes the port. -/
def completion (h : Nat) (t : Tlp) (k : CplKind) (d : Dev) : Dev :=
  let hdr := t.hdr.map (·.toNat)
  match k with
  | .late => aerUncor h aerUnexpCpl hdr (ctrInc (0xD00100 + 0x40 * h) d)
  | .read r =>
    if !t.poisoned then d else
    let d := aerUncor h aerPoison hdr d
    match r with
    | .record _ _ | .descriptor _ _ | .admin => freezePort h 3 t.hdr d
    | .data _ | .bitmap => d

/-- How the port disposes of a TLP before it is served: none when it is served. A frozen port serves configuration requests
normally (R375); before footing hands over they get Configuration Request Retry Status (R363). -/
def tlpRefused (h : Nat) (t : Tlp) (d : Dev) : Option Dev :=
  let hdr := t.hdr.map (·.toNat)
  let poisonAny := bitR d (cfgKey (2 * h) 0x2D8) 1
  let discard : Dev → Dev := fun d =>
    if t.write then ctrInc (0xD00108 + 0x40 * h) d else emit (.readCpl h true (List.replicate t.len 0xFF)) d
  if decide (numHosts d.variant ≤ h) || !((hp d h).linkUp) then some d
  else if t.malformed then some (aerUncor h aerMalformed hdr (freezePort h 2 t.hdr d))
  else match t.cpl with
  | some k => some (completion h t k d)
  | none =>
  if t.bar = 3 ∧ d.fatal = false then
    (if t.write && t.poisoned then
      let d := aerUncor h aerPoison hdr d
      some (if poisonAny then freezePort h 3 t.hdr d else ctrInc (0xD00128 + 0x40 * h) d)
    else if d.foot.boot ≠ .running then some (emit (.cfgRetry h) d)
    else if decide (fnPort t.fn ≠ h) || !(fnPresent d t.fn) then
      some (aerUncor h aerUnsupported hdr (if t.write then d else emit (.readCpl h false []) d))
    else none)
  else if isFrozen d h || d.fatal then
    some (discard (if t.write && t.poisoned && (poisonAny || criticalTarget d t) then freezePort h 3 t.hdr d else d))
  else if t.write && t.poisoned then
    let d := aerUncor h aerPoison hdr d
    some (if poisonAny || criticalTarget d t then freezePort h 3 t.hdr d else ctrInc (0xD00128 + 0x40 * h) d)
  else if decide (fnPort t.fn ≠ h) || !(fnPresent d t.fn) || !(memOn d t.fn) ||
      !(decide (t.bar = 0) || (decide (t.bar = 2) && decide (t.fn ≠ 1 ∧ t.fn ≠ 3)) || (decide (t.bar = 4) && hasBar4 d.variant t.fn)) then
    some (aerUncor h aerUnsupported hdr (if t.write then d else emit (.readCpl h false []) d))
  else none

/-- INBOUND_TLP (R374, R375, R381–R384): a TLP received on host port `h`. A malformed TLP, or a poisoned write toward a critical
target, freezes the port and has no other effect; on a frozen port writes are discarded and reads answer all-ones; a TLP that
no function takes is an Unsupported Request; any other is served, each word by the row of its register. A configuration request
(`bar` 3) reads or writes one aligned word; a write of part of a word is ignored (log entry 56). -/
def execInboundTlp (h : Nat) (t : Tlp) (s : State) : Host.Outcome State Fault Refusal :=
  match tlpRefused h t s.dev with
  | some _ => lift (fun d => (tlpRefused h t d).getD d) s
  | none =>
    if t.bar = 3 then
      (if !t.write then
        lift (fun d =>
          let r := cfgRead t.fn (t.off / 4 * 4) d
          emit (.readCpl h true (slice (leBytes 4 r.1.toNat) (t.off % 4) t.len)) r.2) s
      else if t.off % 4 = 0 ∧ 4 ≤ t.data.length then cfgWrite t.fn t.off (BitVec.ofNat 32 (le t.data 0 4)) s
      else .next s)
    else if !t.write then lift (tlpRead h t) s
    else if t.bar = 4 then
      lift (fun d => match peerTarget d t.fn t.off t.data.length with
        | some x => wrt x.1 x.2 t.data d
        | none => peerClosed h t.fn t.off d) s
    else
      let skip := (4 - t.off % 4) % 4
      wordsWrite t.fn t.bar ((t.data.length - skip) / 4) (t.off + skip) (t.data.drop skip) s

end Sys2Proof.Machine
end

