-- ==== Sys2Proof/Machine/Dispatch.lean ====
section
/-! DEFINITION. One arm per command: a direct call of its meaning. -/

namespace Sys2Proof.Machine

/-- The command's effect on everything but the queue. -/
def exec (i : Instr) (s : State) : Host.Outcome State Fault Refusal :=
  match i with
  | .registerWrite fn bar off v => Sys2Proof.Machine.execRegisterWrite fn bar off v s
  | .counterLowRead fn off => Sys2Proof.Machine.execCounterLowRead fn off s
  | .commit base => Sys2Proof.Machine.execCommit base s
  | .lock base => Sys2Proof.Machine.execLock base s
  | .commitPoint base dir => Sys2Proof.Machine.execCommitPoint base dir s
  | .xingDeliver src dst => Sys2Proof.Machine.execXingDeliver src dst s
  | .timeTick => Sys2Proof.Machine.execTimeTick s
  | .codeCycle badCrc drifts => Sys2Proof.Machine.execCodeCycle badCrc drifts s
  | .scheduledApply str => Sys2Proof.Machine.execScheduledApply str s
  | .timeBusDelayMeasure island delay => Sys2Proof.Machine.execTimeBusDelayMeasure island delay s
  | .fretValid island => Sys2Proof.Machine.execFretValid island s
  | .trefLost => Sys2Proof.Machine.execTrefLost s
  | .tpllRelock => Sys2Proof.Machine.execTpllRelock s
  | .trefSelWrite v => Sys2Proof.Machine.execTrefSelWrite v s
  | .slewEnd str => Sys2Proof.Machine.execSlewEnd str s
  | .acceptedOffset str port o rxTick txTick => Sys2Proof.Machine.execAcceptedOffset str port o rxTick txTick s
  | .sourceLost str why => Sys2Proof.Machine.execSourceLost str why s
  | .disputeTimerExpiry str => Sys2Proof.Machine.execDisputeTimerExpiry str s
  | .leapApply str => Sys2Proof.Machine.execLeapApply str s
  | .ppsInPulse idx rising sub => Sys2Proof.Machine.execPpsInPulse idx rising sub s
  | .ppsOutEdge idx active => Sys2Proof.Machine.execPpsOutEdge idx active s
  | .ptpMessage port cls rx msg => Sys2Proof.Machine.execPtpMessage port cls rx msg s
  | .ptpMessageTx str port m => Sys2Proof.Machine.execPtpMessageTx str port m s
  | .esmcPduRx port pdu => Sys2Proof.Machine.execEsmcPduRx port pdu s
  | .esmcPduTx port event => Sys2Proof.Machine.execEsmcPduTx port event s
  | .esmcQlFailed port => Sys2Proof.Machine.execEsmcQlFailed port s
  | .timeSetSource c => Sys2Proof.Machine.execTimeSetSource c s
  | .timeLoad c => Sys2Proof.Machine.execTimeLoad c s
  | .timeSetIncr c => Sys2Proof.Machine.execTimeSetIncr c s
  | .timeSetDrone c => Sys2Proof.Machine.execTimeSetDrone c s
  | .timeReanchor c => Sys2Proof.Machine.execTimeReanchor c s
  | .timeHostOffset c => Sys2Proof.Machine.execTimeHostOffset c s
  | .timeHostFreq c => Sys2Proof.Machine.execTimeHostFreq c s
  | .timeSetUtc c => Sys2Proof.Machine.execTimeSetUtc c s
  | .timeRead c => Sys2Proof.Machine.execTimeRead c s
  | .timePtpClock c => Sys2Proof.Machine.execTimePtpClock c s
  | .timePtpPort c => Sys2Proof.Machine.execTimePtpPort c s
  | .timeNowRead str => Sys2Proof.Machine.execTimeNowRead str s
  | .frameRx port_ bytes badFcs sub q corr uncorr syms => Sys2Proof.Machine.execFrameRx port_ bytes badFcs sub q corr uncorr syms s
  | .pauseExpiry port_ => Sys2Proof.Machine.execPauseExpiry port_ s
  | .pauseRepeat port_ => Sys2Proof.Machine.execPauseRepeat port_ s
  | .negotiationResolved port_ tech fec c0 c1 ext => Sys2Proof.Machine.execNegotiationResolved port_ tech fec c0 c1 ext s
  | .linkTrainingDone port_ ok => Sys2Proof.Machine.execLinkTrainingDone port_ ok s
  | .linkUp port_ lrx ltx => Sys2Proof.Machine.execLinkUp port_ lrx ltx s
  | .linkSignalLoss port_ cause midRx => Sys2Proof.Machine.execLinkSignalLoss port_ cause midRx s
  | .holdDownExpiry port_ => Sys2Proof.Machine.execHoldDownExpiry port_ s
  | .holdRecovered port_ lrx ltx => Sys2Proof.Machine.execHoldRecovered port_ lrx ltx s
  | .remoteFault port_ on => Sys2Proof.Machine.execRemoteFault port_ on s
  | .portLinkRestart c => Sys2Proof.Machine.execPortLinkRestart c s
  | .portIslandReset c => Sys2Proof.Machine.execPortIslandReset c s
  | .islandReady island => Sys2Proof.Machine.execIslandReady island s
  | .portStats c => Sys2Proof.Machine.execPortStats c s
  | .txLaunch port_ => Sys2Proof.Machine.execTxLaunch port_ s
  | .calUpdate c flash => Sys2Proof.Machine.execCalUpdate c flash s
  | .calEntryApply port_ tx => Sys2Proof.Machine.execCalEntryApply port_ tx s
  | .calMeasure c => Sys2Proof.Machine.execCalMeasure c s
  | .calFrameTx port_ sub a => Sys2Proof.Machine.execCalFrameTx port_ sub a s
  | .calFrameLost port_ => Sys2Proof.Machine.execCalFrameLost port_ s
  | .calRead c => Sys2Proof.Machine.execCalRead c s
  | .ingressFrame pipe => Sys2Proof.Machine.execIngressFrame pipe s
  | .deepParse j => Sys2Proof.Machine.execDeepParse j s
  | .dramLookupDone pipe poisoned chan => Sys2Proof.Machine.execDramLookupDone pipe poisoned chan s
  | .dramShed => Sys2Proof.Machine.execDramShed s
  | .tblInsert c => Sys2Proof.Machine.execTblInsert c s
  | .tblModify c => Sys2Proof.Machine.execTblModify c s
  | .tblDelete c => Sys2Proof.Machine.execTblDelete c s
  | .tblRead c => Sys2Proof.Machine.execTblRead c s
  | .tblClear c => Sys2Proof.Machine.execTblClear c s
  | .sessionSet c => Sys2Proof.Machine.execSessionSet c s
  | .sessionRead c => Sys2Proof.Machine.execSessionRead c s
  | .policerSet c => Sys2Proof.Machine.execPolicerSet c s
  | .policerRead c => Sys2Proof.Machine.execPolicerRead c s
  | .rssSet c => Sys2Proof.Machine.execRssSet c s
  | .courseIntake course_ => Sys2Proof.Machine.execCourseIntake course_ s
  | .courseRelease course_ => Sys2Proof.Machine.execCourseRelease course_ s
  | .epochWindowEnd course_ => Sys2Proof.Machine.execEpochWindowEnd course_ s
  | .wShrink course_ => Sys2Proof.Machine.execWShrink course_ s
  | .courseLate course_ => Sys2Proof.Machine.execCourseLate course_ s
  | .courseEarly course_ => Sys2Proof.Machine.execCourseEarly course_ s
  | .courseSeqSet c => Sys2Proof.Machine.execCourseSeqSet c s
  | .courseDrain c => Sys2Proof.Machine.execCourseDrain c s
  | .courseStats c => Sys2Proof.Machine.execCourseStats c s
  | .orphanTimeout id => Sys2Proof.Machine.execOrphanTimeout id s
  | .epochBoundary => Sys2Proof.Machine.execEpochBoundary s
  | .longClose => Sys2Proof.Machine.execLongClose s
  | .ashlarSealed lost => Sys2Proof.Machine.execAshlarSealed lost s
  | .capstoneBoundary => Sys2Proof.Machine.execCapstoneBoundary s
  | .capstoneSigned => Sys2Proof.Machine.execCapstoneSigned s
  | .extentDurable poisoned => Sys2Proof.Machine.execExtentDurable poisoned s
  | .superblockWrite => Sys2Proof.Machine.execSuperblockWrite s
  | .journalOpeningDone => Sys2Proof.Machine.execJournalOpeningDone s
  | .journalClosed => Sys2Proof.Machine.execJournalClosed s
  | .witMark c => Sys2Proof.Machine.execWitMark c s
  | .evidenceRead c => Sys2Proof.Machine.execEvidenceRead c s
  | .witRelease c => Sys2Proof.Machine.execWitRelease c s
  | .witCerts c => Sys2Proof.Machine.execWitCerts c s
  | .witCapRing c => Sys2Proof.Machine.execWitCapRing c s
  | .witHalf c => Sys2Proof.Machine.execWitHalf c s
  | .witHalfDone h => Sys2Proof.Machine.execWitHalfDone h s
  | .witStats c => Sys2Proof.Machine.execWitStats c s
  | .txDb fn lq => Sys2Proof.Machine.execTxDb fn lq s
  | .rxDb fn lq => Sys2Proof.Machine.execRxDb fn lq s
  | .cqDb fn lq v => Sys2Proof.Machine.execCqDb fn lq v s
  | .aqDb fn => Sys2Proof.Machine.execAqDb fn s
  | .eqDb fn v => Sys2Proof.Machine.execEqDb fn v s
  | .tcqDb fn j => Sys2Proof.Machine.execTcqDb fn j s
  | .pushCtl fn lq v => Sys2Proof.Machine.execPushCtl fn lq v s
  | .doorbellRecordRead fn qtype lq res => Sys2Proof.Machine.execDoorbellRecordRead fn qtype lq res s
  | .fetchTurn h => Sys2Proof.Machine.execFetchTurn h s
  | .txDescFetch fn lq res => Sys2Proof.Machine.execTxDescFetch fn lq res s
  | .txDataFetch fn lq res => Sys2Proof.Machine.execTxDataFetch fn lq res s
  | .spoofDetected vf => Sys2Proof.Machine.execSpoofDetected vf s
  | .rxDelivery h => Sys2Proof.Machine.execRxDelivery h s
  | .modTimeExpiry fn lq => Sys2Proof.Machine.execModTimeExpiry fn lq s
  | .identify c => Sys2Proof.Machine.execIdentify c s
  | .cqCreate c => Sys2Proof.Machine.execCqCreate c s
  | .txqCreate c => Sys2Proof.Machine.execTxqCreate c s
  | .rxqCreate c => Sys2Proof.Machine.execRxqCreate c s
  | .tcqCreate c => Sys2Proof.Machine.execTcqCreate c s
  | .qstart c => Sys2Proof.Machine.execQstart c s
  | .qstop c => Sys2Proof.Machine.execQstop c s
  | .qdestroy c => Sys2Proof.Machine.execQdestroy c s
  | .qset c => Sys2Proof.Machine.execQset c s
  | .qquery c => Sys2Proof.Machine.execQquery c s
  | .aqCfgWrite fn v => Sys2Proof.Machine.execAqCfgWrite fn v s
  | .eqCfgWrite fn v => Sys2Proof.Machine.execEqCfgWrite fn v s
  | .egressEnqueue pipe => Sys2Proof.Machine.execEgressEnqueue pipe s
  | .admissionDrop => Sys2Proof.Machine.execAdmissionDrop s
  | .schedulerSelect port_ lead a => Sys2Proof.Machine.execSchedulerSelect port_ lead a s
  | .gateEntryChange port_ => Sys2Proof.Machine.execGateEntryChange port_ s
  | .configChangeTime port_ => Sys2Proof.Machine.execConfigChangeTime port_ s
  | .gateOverrun port_ => Sys2Proof.Machine.execGateOverrun port_ s
  | .schedStats c => Sys2Proof.Machine.execSchedStats c s
  | .plumbEnqueue g phase am => Sys2Proof.Machine.execPlumbEnqueue g phase am s
  | .plumbLaunch port_ => Sys2Proof.Machine.execPlumbLaunch port_ s
  | .plumbCopyTimeout g => Sys2Proof.Machine.execPlumbCopyTimeout g s
  | .plumbMissed g => Sys2Proof.Machine.execPlumbMissed g s
  | .plumbStats c => Sys2Proof.Machine.execPlumbStats c s
  | .perstN h asserted => Sys2Proof.Machine.execPerstN h asserted s
  | .hotReset h => Sys2Proof.Machine.execHotReset h s
  | .hostLink h up surprise flit reversed speed width => Sys2Proof.Machine.execHostLink h up surprise flit reversed speed width s
  | .busMasterEnable fn on => Sys2Proof.Machine.execBusMasterEnable fn on s
  | .d3hot fn enter => Sys2Proof.Machine.execD3hot fn enter s
  | .flr fn => Sys2Proof.Machine.execFlr fn s
  | .fnReset fn v => Sys2Proof.Machine.execFnReset fn v s
  | .flrDone fn => Sys2Proof.Machine.execFlrDone fn s
  | .inboundTlp h t => Sys2Proof.Machine.execInboundTlp h t s
  | .peerClosed pf => Sys2Proof.Machine.execPeerClosed pf s
  | .completionTimeout fn k => Sys2Proof.Machine.execCompletionTimeout fn k s
  | .frzRelease h v => Sys2Proof.Machine.execFrzRelease h v s
  | .hostReleased h => Sys2Proof.Machine.execHostReleased h s
  | .vfEnable pf on numVfs => Sys2Proof.Machine.execVfEnable pf on numVfs s
  | .vfReady vf => Sys2Proof.Machine.execVfReady vf s
  | .spdmRequest c req => Sys2Proof.Machine.execSpdmRequest c req s
  | .getVersion c req => Sys2Proof.Machine.execGetVersion c req s
  | .getCapabilities c req => Sys2Proof.Machine.execGetCapabilities c req s
  | .negotiateAlgorithms c req => Sys2Proof.Machine.execNegotiateAlgorithms c req s
  | .getDigests c req => Sys2Proof.Machine.execGetDigests c req s
  | .getCertificate c req => Sys2Proof.Machine.execGetCertificate c req s
  | .challenge c req => Sys2Proof.Machine.execChallenge c req s
  | .getMeasurements c req => Sys2Proof.Machine.execGetMeasurements c req s
  | .grantSet c => Sys2Proof.Machine.execGrantSet c s
  | .grantShrinkDone fn => Sys2Proof.Machine.execGrantShrinkDone fn s
  | .shrinkTimeout fn => Sys2Proof.Machine.execShrinkTimeout fn s
  | .grantQuery c => Sys2Proof.Machine.execGrantQuery c s
  | .vfConfig c => Sys2Proof.Machine.execVfConfig c s
  | .logStart c => Sys2Proof.Machine.execLogStart c s
  | .logDrain c => Sys2Proof.Machine.execLogDrain c s
  | .logStop c => Sys2Proof.Machine.execLogStop c s
  | .vfSave c => Sys2Proof.Machine.execVfSave c s
  | .vfRestore c => Sys2Proof.Machine.execVfRestore c s
  | .vfResume c => Sys2Proof.Machine.execVfResume c s
  | .ccEn pf v => Sys2Proof.Machine.execCcEn pf v s
  | .sqTailDoorbell pf y v => Sys2Proof.Machine.execSqTailDoorbell pf y v s
  | .cqHeadDoorbell pf y v => Sys2Proof.Machine.execCqHeadDoorbell pf y v s
  | .createIoSq pf n => Sys2Proof.Machine.execCreateIoSq pf n s
  | .deleteIoSq pf n => Sys2Proof.Machine.execDeleteIoSq pf n s
  | .createIoCq pf n => Sys2Proof.Machine.execCreateIoCq pf n s
  | .deleteIoCq pf n => Sys2Proof.Machine.execDeleteIoCq pf n s
  | .getLogPage pf n => Sys2Proof.Machine.execGetLogPage pf n s
  | .nvmeIdentify pf n => Sys2Proof.Machine.execNvmeIdentify pf n s
  | .abort pf n => Sys2Proof.Machine.execAbort pf n s
  | .setFeatures pf n => Sys2Proof.Machine.execSetFeatures pf n s
  | .getFeatures pf n => Sys2Proof.Machine.execGetFeatures pf n s
  | .asynchronousEventRequest pf n => Sys2Proof.Machine.execAsynchronousEventRequest pf n s
  | .namespaceManagement pf n => Sys2Proof.Machine.execNamespaceManagement pf n s
  | .namespaceAttachment pf n => Sys2Proof.Machine.execNamespaceAttachment pf n s
  | .formatNvm pf n => Sys2Proof.Machine.execFormatNvm pf n s
  | .firmwareImageDownload pf n => Sys2Proof.Machine.execFirmwareImageDownload pf n s
  | .firmwareCommit pf n copyBad fail => Sys2Proof.Machine.execFirmwareCommit pf n copyBad fail s
  | .deviceSelfTest pf n => Sys2Proof.Machine.execDeviceSelfTest pf n s
  | .selfTestResume => Sys2Proof.Machine.execSelfTestResume s
  | .selfTestDone health dram => Sys2Proof.Machine.execSelfTestDone health dram s
  | .nvmeFlush pf n => Sys2Proof.Machine.execNvmeFlush pf n s
  | .nvmeWrite pf n => Sys2Proof.Machine.execNvmeWrite pf n s
  | .nvmeRead pf n fails => Sys2Proof.Machine.execNvmeRead pf n fails s
  | .writeZeroes pf n => Sys2Proof.Machine.execWriteZeroes pf n s
  | .datasetManagement pf n => Sys2Proof.Machine.execDatasetManagement pf n s
  | .writebackDurable n poisoned => Sys2Proof.Machine.execWritebackDurable n poisoned s
  | .apstTransition pf => Sys2Proof.Machine.execApstTransition pf s
  | .cluster0Timeout => Sys2Proof.Machine.execCluster0Timeout s
  | .drivePresence n on other => Sys2Proof.Machine.execDrivePresence n on other s
  | .dperstRelease n => Sys2Proof.Machine.execDperstRelease n s
  | .driveLinkUp n speed width => Sys2Proof.Machine.execDriveLinkUp n speed width s
  | .driveLinkTimeout n => Sys2Proof.Machine.execDriveLinkTimeout n s
  | .driveIdentify n usable slabs => Sys2Proof.Machine.execDriveIdentify n usable slabs s
  | .driveWriteError n link => Sys2Proof.Machine.execDriveWriteError n link s
  | .driveCommandTimeout n => Sys2Proof.Machine.execDriveCommandTimeout n s
  | .rebuildChunk n bad => Sys2Proof.Machine.execRebuildChunk n bad s
  | .ledgerFormat c => Sys2Proof.Machine.execLedgerFormat c s
  | .driveAdopt c => Sys2Proof.Machine.execDriveAdopt c s
  | .driveRelease c => Sys2Proof.Machine.execDriveRelease c s
  | .ledgerStats c => Sys2Proof.Machine.execLedgerStats c s
  | .dramRefresh ch => Sys2Proof.Machine.execDramRefresh ch s
  | .dramTempPoll ch readings => Sys2Proof.Machine.execDramTempPoll ch readings s
  | .scrubStep ch rank line res victim => Sys2Proof.Machine.execScrubStep ch rank line res victim s
  | .caParityError ch rank line retries => Sys2Proof.Machine.execCaParityError ch rank line retries s
  | .spareCopyStep src targetBad => Sys2Proof.Machine.execSpareCopyStep src targetBad s
  | .dramRankRetire c => Sys2Proof.Machine.execDramRankRetire c s
  | .dramStats c => Sys2Proof.Machine.execDramStats c s
  | .gateIntake c => Sys2Proof.Machine.execGateIntake c s
  | .budgetExpiry c t => Sys2Proof.Machine.execBudgetExpiry c t s
  | .gateBusy g => Sys2Proof.Machine.execGateBusy g s
  | .keystoneWake c t => Sys2Proof.Machine.execKeystoneWake c t s
  | .keystoneTimer c n => Sys2Proof.Machine.execKeystoneTimer c n s
  | .quiescentDeadlock c => Sys2Proof.Machine.execQuiescentDeadlock c s
  | .channelAbandon c n => Sys2Proof.Machine.execChannelAbandon c n s
  | .breakpointHit c t => Sys2Proof.Machine.execBreakpointHit c t s
  | .dbgHalt c k mask => Sys2Proof.Machine.execDbgHalt c k mask s
  | .dbgStep c k idx => Sys2Proof.Machine.execDbgStep c k idx s
  | .dbgResume c k mask => Sys2Proof.Machine.execDbgResume c k mask s
  | .dbgDataWrite c k hi v => Sys2Proof.Machine.execDbgDataWrite c k hi v s
  | .dbgCtlDebugEn c k on => Sys2Proof.Machine.execDbgCtlDebugEn c k on s
  | .givikCoreRestart c => Sys2Proof.Machine.execGivikCoreRestart c s
  | .givikSignal c => Sys2Proof.Machine.execGivikSignal c s
  | .givikClusterRelease c => Sys2Proof.Machine.execGivikClusterRelease c s
  | .givikReleased c => Sys2Proof.Machine.execGivikReleased c s
  | .givikStats c => Sys2Proof.Machine.execGivikStats c s
  | .givikFaultRead c => Sys2Proof.Machine.execGivikFaultRead c s
  | .add c t D A B => Sys2Proof.Machine.execAdd c t D A B s
  | .sub c t D A B => Sys2Proof.Machine.execSub c t D A B s
  | .and c t D A B => Sys2Proof.Machine.execAnd c t D A B s
  | .or c t D A B => Sys2Proof.Machine.execOr c t D A B s
  | .xor c t D A B => Sys2Proof.Machine.execXor c t D A B s
  | .sll c t D A B => Sys2Proof.Machine.execSll c t D A B s
  | .srl c t D A B => Sys2Proof.Machine.execSrl c t D A B s
  | .sra c t D A B => Sys2Proof.Machine.execSra c t D A B s
  | .slt c t D A B => Sys2Proof.Machine.execSlt c t D A B s
  | .sltu c t D A B => Sys2Proof.Machine.execSltu c t D A B s
  | .seq c t D A B => Sys2Proof.Machine.execSeq c t D A B s
  | .sne c t D A B => Sys2Proof.Machine.execSne c t D A B s
  | .min c t D A B => Sys2Proof.Machine.execMin c t D A B s
  | .max c t D A B => Sys2Proof.Machine.execMax c t D A B s
  | .minu c t D A B => Sys2Proof.Machine.execMinu c t D A B s
  | .maxu c t D A B => Sys2Proof.Machine.execMaxu c t D A B s
  | .clz c t D A => Sys2Proof.Machine.execClz c t D A s
  | .popc c t D A => Sys2Proof.Machine.execPopc c t D A s
  | .sel c t D A B C => Sys2Proof.Machine.execSel c t D A B C s
  | .mul c t D A B => Sys2Proof.Machine.execMul c t D A B s
  | .mulhs c t D A B => Sys2Proof.Machine.execMulhs c t D A B s
  | .mulhu c t D A B => Sys2Proof.Machine.execMulhu c t D A B s
  | .addi c t D A imm => Sys2Proof.Machine.execAddi c t D A imm s
  | .andi c t D A imm => Sys2Proof.Machine.execAndi c t D A imm s
  | .ori c t D A imm => Sys2Proof.Machine.execOri c t D A imm s
  | .xori c t D A imm => Sys2Proof.Machine.execXori c t D A imm s
  | .slti c t D A imm => Sys2Proof.Machine.execSlti c t D A imm s
  | .sltui c t D A imm => Sys2Proof.Machine.execSltui c t D A imm s
  | .lui c t D imm => Sys2Proof.Machine.execLui c t D imm s
  | .slli c t D A sh => Sys2Proof.Machine.execSlli c t D A sh s
  | .srli c t D A sh => Sys2Proof.Machine.execSrli c t D A sh s
  | .srai c t D A sh => Sys2Proof.Machine.execSrai c t D A sh s
  | .lb c t D A imm => Sys2Proof.Machine.execLb c t D A imm s
  | .lbu c t D A imm => Sys2Proof.Machine.execLbu c t D A imm s
  | .lh c t D A imm => Sys2Proof.Machine.execLh c t D A imm s
  | .lhu c t D A imm => Sys2Proof.Machine.execLhu c t D A imm s
  | .lw c t D A imm => Sys2Proof.Machine.execLw c t D A imm s
  | .lwu c t D A imm => Sys2Proof.Machine.execLwu c t D A imm s
  | .ld c t D A imm => Sys2Proof.Machine.execLd c t D A imm s
  | .sb c t S A imm => Sys2Proof.Machine.execSb c t S A imm s
  | .sh c t S A imm => Sys2Proof.Machine.execSh c t S A imm s
  | .sw c t S A imm => Sys2Proof.Machine.execSw c t S A imm s
  | .sd c t S A imm => Sys2Proof.Machine.execSd c t S A imm s
  | .plb c t D A imm => Sys2Proof.Machine.execPlb c t D A imm s
  | .plh c t D A imm => Sys2Proof.Machine.execPlh c t D A imm s
  | .plw c t D A imm => Sys2Proof.Machine.execPlw c t D A imm s
  | .pld c t D A imm => Sys2Proof.Machine.execPld c t D A imm s
  | .beq c t A B off => Sys2Proof.Machine.execBeq c t A B off s
  | .bne c t A B off => Sys2Proof.Machine.execBne c t A B off s
  | .blt c t A B off => Sys2Proof.Machine.execBlt c t A B off s
  | .bge c t A B off => Sys2Proof.Machine.execBge c t A B off s
  | .bltu c t A B off => Sys2Proof.Machine.execBltu c t A B off s
  | .bgeu c t A B off => Sys2Proof.Machine.execBgeu c t A B off s
  | .j c t off => Sys2Proof.Machine.execJ c t off s
  | .jal c t off => Sys2Proof.Machine.execJal c t off s
  | .jalr c t D A imm => Sys2Proof.Machine.execJalr c t D A imm s
  | .lkup c t D A tbl poisoned chan => Sys2Proof.Machine.execLkup c t D A tbl poisoned chan s
  | .acq c t A k => Sys2Proof.Machine.execAcq c t A k s
  | .tacq c t D A k => Sys2Proof.Machine.execTacq c t D A k s
  | .rel c t A k => Sys2Proof.Machine.execRel c t A k s
  | .wait c t A k => Sys2Proof.Machine.execWait c t A k s
  | .sig c t A k => Sys2Proof.Machine.execSig c t A k s
  | .tmrs c t D A k => Sys2Proof.Machine.execTmrs c t D A k s
  | .tmrc c t D A k => Sys2Proof.Machine.execTmrc c t D A k s
  | .chw c t D A k => Sys2Proof.Machine.execChw c t D A k s
  | .chc c t A k => Sys2Proof.Machine.execChc c t A k s
  | .chr c t D A w k => Sys2Proof.Machine.execChr c t D A w k s
  | .chrl c t D A w k => Sys2Proof.Machine.execChrl c t D A w k s
  | .trd c t D st => Sys2Proof.Machine.execTrd c t D st s
  | .wnext c t D A k => Sys2Proof.Machine.execWnext c t D A k s
  | .wdone c t A verdict record => Sys2Proof.Machine.execWdone c t A verdict record s
  | .recd c t A k => Sys2Proof.Machine.execRecd c t A k s
  | .mfs c t D idx => Sys2Proof.Machine.execMfs c t D idx s
  | .trap c t code => Sys2Proof.Machine.execTrap c t code s
  | .brk c t bits => Sys2Proof.Machine.execBrk c t bits s
  | .coldBoot src aonOk romOk fuseOk flashOk tagBad recovery calBad => Sys2Proof.Machine.execColdBoot src aonOk romOk fuseOk flashOk tagBad recovery calBad s
  | .pgRise flashOk tagBad recovery => Sys2Proof.Machine.execPgRise flashOk tagBad recovery s
  | .pgFall cause => Sys2Proof.Machine.execPgFall cause s
  | .bridgeBringup tr => Sys2Proof.Machine.execBridgeBringup tr s
  | .recoveryCarrier bytes => Sys2Proof.Machine.execRecoveryCarrier bytes s
  | .recoveryTimeout => Sys2Proof.Machine.execRecoveryTimeout s
  | .fwDownload c => Sys2Proof.Machine.execFwDownload c s
  | .fwBind c copyBad => Sys2Proof.Machine.execFwBind c copyBad s
  | .fwActivate c fail => Sys2Proof.Machine.execFwActivate c fail s
  | .fwConfirm c => Sys2Proof.Machine.execFwConfirm c s
  | .fwSvnCommit c => Sys2Proof.Machine.execFwSvnCommit c s
  | .footEpochAdvance c bad => Sys2Proof.Machine.execFootEpochAdvance c bad s
  | .footKeyRevoke c => Sys2Proof.Machine.execFootKeyRevoke c s
  | .footLifecycle c => Sys2Proof.Machine.execFootLifecycle c s
  | .footDebugToken c => Sys2Proof.Machine.execFootDebugToken c s
  | .fwDriverAbi c => Sys2Proof.Machine.execFwDriverAbi c s
  | .domainSet c => Sys2Proof.Machine.execDomainSet c s
  | .domainState pass imageOk => Sys2Proof.Machine.execDomainState pass imageOk s
  | .unitReset c => Sys2Proof.Machine.execUnitReset c s
  | .unitResetDone n pass => Sys2Proof.Machine.execUnitResetDone n pass s
  | .pipeRemap c => Sys2Proof.Machine.execPipeRemap c s
  | .pipeRemapped island => Sys2Proof.Machine.execPipeRemapped island s
  | .deviceReset c => Sys2Proof.Machine.execDeviceReset c s
  | .warmReset tagBad recovery => Sys2Proof.Machine.execWarmReset tagBad recovery s
  | .errlogRead c => Sys2Proof.Machine.execErrlogRead c s
  | .sramCe n addr => Sys2Proof.Machine.execSramCe n addr s
  | .sramUe n addr => Sys2Proof.Machine.execSramUe n addr s
  | .xingFault n => Sys2Proof.Machine.execXingFault n s
  | .wardenTimeout n => Sys2Proof.Machine.execWardenTimeout n s
  | .tempSensorRead temps => Sys2Proof.Machine.execTempSensorRead temps s
  | .thermtrip => Sys2Proof.Machine.execThermtrip s
  | .aonPower => Sys2Proof.Machine.execAonPower s
  | .ringFault => Sys2Proof.Machine.execRingFault s
  | .bridgeWdt => Sys2Proof.Machine.execBridgeWdt s
  | .keyvault => Sys2Proof.Machine.execKeyvault s
  | .timeIsland => Sys2Proof.Machine.execTimeIsland s
  | .brgErrAck v => Sys2Proof.Machine.execBrgErrAck v s
  | .resetN ns => Sys2Proof.Machine.execResetN ns s
  | .powerOnReset => Sys2Proof.Machine.execPowerOnReset s
  | .readStatus => Sys2Proof.Machine.execReadStatus s
  | .readLog slot count => Sys2Proof.Machine.execReadLog slot count s
  | .ackLog seq => Sys2Proof.Machine.execAckLog seq s
  | .mctpDomainSet island st => Sys2Proof.Machine.execMctpDomainSet island st s
  | .mctpDeviceReset confirm => Sys2Proof.Machine.execMctpDeviceReset confirm s
  | .setEndpointId ep op eid => Sys2Proof.Machine.execSetEndpointId ep op eid s
  | .getEndpointId ep => Sys2Proof.Machine.execGetEndpointId ep s
  | .getMctpVersionSupport type => Sys2Proof.Machine.execGetMctpVersionSupport type s
  | .getMessageTypeSupport => Sys2Proof.Machine.execGetMessageTypeSupport s
  | .getVendorDefinedMessageSupport selector => Sys2Proof.Machine.execGetVendorDefinedMessageSupport selector s
  | .getTid => Sys2Proof.Machine.execGetTid s
  | .getPldmVersion type => Sys2Proof.Machine.execGetPldmVersion type s
  | .getPldmTypes => Sys2Proof.Machine.execGetPldmTypes s
  | .getPldmCommands type => Sys2Proof.Machine.execGetPldmCommands type s
  | .getPdr handle => Sys2Proof.Machine.execGetPdr handle s
  | .getSensorReading sensor => Sys2Proof.Machine.execGetSensorReading sensor s
  | .getStateSensorReadings sensor => Sys2Proof.Machine.execGetStateSensorReadings sensor s
  | .getPdrRepositoryInfo => Sys2Proof.Machine.execGetPdrRepositoryInfo s
  | .queryDeviceIdentifiers => Sys2Proof.Machine.execQueryDeviceIdentifiers s
  | .getFirmwareParameters => Sys2Proof.Machine.execGetFirmwareParameters s
  | .requestUpdate maxXfer comps pkgData => Sys2Proof.Machine.execRequestUpdate maxXfer comps pkgData s
  | .passComponentTable => Sys2Proof.Machine.execPassComponentTable s
  | .updateComponent size => Sys2Proof.Machine.execUpdateComponent size s
  | .requestFirmwareData ask data => Sys2Proof.Machine.execRequestFirmwareData ask data s
  | .transferComplete => Sys2Proof.Machine.execTransferComplete s
  | .verifyComplete => Sys2Proof.Machine.execVerifyComplete s
  | .applyComplete => Sys2Proof.Machine.execApplyComplete s
  | .activateFirmware selfContained copyBad fail => Sys2Proof.Machine.execActivateFirmware selfContained copyBad fail s
  | .getStatus => Sys2Proof.Machine.execGetStatus s
  | .cancelUpdate => Sys2Proof.Machine.execCancelUpdate s
  | .eecStateChange state freq => Sys2Proof.Machine.execEecStateChange state freq s
  | .aspmL1Entry h enter sub => Sys2Proof.Machine.execAspmL1Entry h enter sub s
  | .msiXEnable fn msix intxDisable => Sys2Proof.Machine.execMsiXEnable fn msix intxDisable s
  | .fnIntxPendClear fn v => Sys2Proof.Machine.execFnIntxPendClear fn v s
  | .frzHoldWrite h v => Sys2Proof.Machine.execFrzHoldWrite h v s
  | .illegal c t => Sys2Proof.Machine.execIllegal c t s

end Sys2Proof.Machine
end

