-- ==== Sys2Proof/Safety.lean ====
section
/-! DEFINITION. What the statements are written in: the invariant every step keeps, what it means for a command to run,
and what a command leaves alone. -/

namespace Sys2Proof.Machine

/-- Memory is in its canonical form, and no write of a finished command waits. -/
def Inv (s : State) : Prop := Memory.wf s.dev.mem = true ∧ s.dev.wr = []

/-- The command answers a next state, its queue untouched, whose device satisfies `P`. -/
def Runs (i : Instr) (s : State) (P : Dev → Prop) : Prop :=
  ∃ t, exec i s = .next t ∧ t.pending = s.pending ∧ P t.dev

/-- The command answers the state in which the device as `d` has landed. -/
def Lands (i : Instr) (s : State) (d : Dev) : Prop := exec i s = .next (landed s d)

/-- An admin or table command: one with a failing check completes with the first failing status and has no other effect;
one that passes has its effect and completes with SUCCESS (R307, R308). -/
def Serves (i : Instr) (c : Cmd) (s : State) (status : Nat) (eff : Dev → Dev) : Prop :=
  (status = 0 → Lands i s (completeSt c 0 (eff s.dev))) ∧ (status ≠ 0 → Lands i s (completeSt c status s.dev))

/-- An admin command whose effect says itself when and with what it completes: one with a failing check completes with the
first failing status; one that passes has its effect (R307, R308). -/
def Defers (i : Instr) (c : Cmd) (s : State) (status : Nat) (eff : Dev → Dev) : Prop :=
  (status = 0 → Lands i s (eff s.dev)) ∧ (status ≠ 0 → Lands i s (completeSt c status s.dev))

/-- Every byte of memory outside `p` reads as before. -/
def MemSameOutside (p : Nat → Prop) (d d' : Dev) : Prop := ∀ x, ¬ p x → Memory.read d'.mem x = Memory.read d.mem x

/-! ### Givik threads -/

/-- Thread `t` of cluster `c` may issue the word `w` now: it may issue, no breakpoint stops it (or it is being stepped),
`w` stands at its PC and is an encoding of the instruction tables (R473, R492, R500). -/
abbrev Issues (d : Dev) (c t w : Nat) : Prop :=
  mayIssue d c t = true ∧ (bpMatch d c t = false ∨ (thr d c t).step = true) ∧ fetchWord d c t = w ∧ legalWord w = true

/-- As `Issues`, at a PC that has a next instruction (R499). -/
abbrev IssuesSeq (d : Dev) (c t w : Nat) : Prop := Issues d c t w ∧ (thr d c t).pc < 0x1FFFC

/-- Nothing of the device but thread `t` of cluster `c` (and the note of the cluster's latest activity) has changed. -/
def OnlyThread (d d' : Dev) (c t : Nat) : Prop :=
  d' = { d with clusters := d'.clusters } ∧ (∀ c', c' ≠ c → clu d' c' = clu d c') ∧
  (∀ t', t' ≠ t → thr d' c t' = thr d c t') ∧
  clu d' c = { clu d c with thrs := (clu d' c).thrs, lastAct := (clu d' c).lastAct }

/-- The thread has gone to `pc`, with `v` in register `D` (a write of g0 is discarded, R499), and nothing else of the
device has changed. -/
def RegAt (d d' : Dev) (c t : Nat) (D : BitVec 5) (v : BitVec 64) (pc : Nat) : Prop :=
  OnlyThread d d' c t ∧ (∀ r, greg d' c t r = if r = D ∧ D ≠ 0 then v else greg d c t r) ∧
  thr d' c t = { thr d c t with regs := (thr d' c t).regs, pc := pc, step := false }

/-- A thread that issues `w` writes `v` to register `D` and goes on to the next instruction. -/
def Computes (i : Instr) (s : State) (c t w : Nat) (D : BitVec 5) (v : BitVec 64) : Prop :=
  IssuesSeq s.dev c t w → Runs i s fun d' => RegAt s.dev d' c t D v ((thr s.dev c t).pc + 4)

/-! ### Verifying evidence -/

/-- Step 1 of the verification procedure of R271, from leaf hash `h` at index `i` of `n` records: the hash the path leads to, if
the path has the length it must have. -/
def climb : Nat → Nat → Nat → Bytes → List Bytes → Option Bytes
  | 0, _, _, h, path => if path = [] then some h else none
  | k + 1, n, i, h, path =>
    if n ≤ 1 then (if path = [] then some h else none)
    else if i % 2 = 1 then
      match path with
      | p :: ps => climb k ((n + 1) / 2) (i / 2) (nodeHash p h) ps
      | [] => none
    else if i + 1 < n then
      match path with
      | p :: ps => climb k ((n + 1) / 2) (i / 2) (nodeHash h p) ps
      | [] => none
    else climb k ((n + 1) / 2) (i / 2) h path

/-! ### NVMe commands -/

/-- The device when the controller has fetched what its queues offer and command `n` has left for its execution. -/
def taken (d : Dev) (pf n : Nat) : Dev := ctrlU pf (fun c => { c with fetched := c.fetched.eraseIdx n }) (ctrlGo pf d)

/-- Command `q`, the fetched command `n` of the controller of `pf`, is one of opcode `op` and may start now (R416, R417, R425). -/
abbrev Starts (d : Dev) (pf n op : Nat) (io : Bool) (q : NCmd) : Prop :=
  (ctrl (ctrlGo pf d) pf).fetched[n]? = some q ∧ ctrlReady d pf = true ∧ storageUp d = true ∧ mayDma d pf = true ∧ nOp q = op ∧
  io = decide (q.sq ≠ 0) ∧ mayStart (ctrl (ctrlGo pf d) pf) q = true ∧ u8 q.bytes 1 % 4 = 0

/-- Command `q` starts, has its effect and completes with dword `dw` and status `st` (R416). -/
def Ends (i : Instr) (s : State) (pf n op : Nat) (io : Bool) (q : NCmd) (dw st : Nat) (eff : Dev → Dev) : Prop :=
  Starts s.dev pf n op io q → Lands i s (sweepBad pf (nvmeEnd pf q dw st (eff (taken s.dev pf n))))

/-- Command `q` starts and leaves the device as `eff` says: what it completes with, and when, is part of that. -/
def Goes (i : Instr) (s : State) (pf n op : Nat) (io : Bool) (q : NCmd) (eff : Dev → Dev) : Prop :=
  Starts s.dev pf n op io q → Lands i s (sweepBad pf (eff (taken s.dev pf n)))

end Sys2Proof.Machine
end

