-- ==== Sys2Proof/Certificates/Slice0/Obligations.lean ====
section
/-! DEFINITION. The statements for the provers. -/

open Sys2Proof Sys2Proof.Machine

/-! ### The block -/

/-- One step takes the command at the front of the queue and is that command on the state with the queue's rest. With no command
waiting the block idles (the model's choice, log entry 7). -/
def Obligations.StepRunsTheFrontCommandOrIdles : Prop :=
  (∀ (c : Instr) (s : State) (rest : List Instr), step { s with pending := c :: rest } = exec c { s with pending := rest }) ∧
  (∀ s : State, s.pending = [] → step s = .next s)

/-- After reset the queue is empty, no island has come up, every present string is in DRONE with increment 1 and no
uncertainty known (R54, R61, R68), no function is present but the PFs, and memory lists nothing. The variant, and the registers the spec
gives no reset value, are the model's choices (log entries 1 and 14). -/
def Obligations.ResetLeavesTheBlockAtRest : Prop :=
  State.reset.pending = [] ∧ State.reset.dev.mem = [] ∧ State.reset.dev.power = false ∧
  (∀ i, (str State.reset.dev i).st = .drone ∧ (str State.reset.dev i).drone = 2 ^ 32 ∧ (str State.reset.dev i).u = 0xFFFFFFFF) ∧
  (∀ f, fnPresent State.reset.dev f = true → f < 4) ∧
  (∀ n, islandOn State.reset.dev n = true → n = 0) ∧
  (∀ k, ctrR State.reset.dev k = 0) ∧ (∀ k, regR State.reset.dev k = regReset k)

/-- The invariant holds after reset. -/
def Obligations.ResetHasTheInvariant : Prop := Inv State.reset

/-- Every step keeps the invariant: memory stays canonical, no write of a finished command waits, whatever the command. -/
def Obligations.EveryStepKeepsTheInvariant : Prop := ∀ s t : State, Inv s → step s = .next t → Inv t

/-- No command faults, is refused or touches the queue: every command, on every state and for all operands, answers a next
state with the queue as it was. -/
def Obligations.EveryCommandAnswersANextState : Prop :=
  ∀ (c : Instr) (s : State), ∃ t, exec c s = .next t ∧ t.pending = s.pending

/-- R307: a command completes with an entry that names it (CID, STATUS, OPCODE, the dword, its ring index, the generation), put
out at once when its function may issue DMA and no completion waits. -/
def Obligations.AdminCompletionEntryNamesItsCommand : Prop :=
  ∀ (c : Cmd) (st dw : Nat) (d : Dev), c.tcq = none → mayDma d c.fn = true → (fn d c.fn).aqHeld = [] →
    ∃ pre post ent, (complete c st dw d).out = pre ++ .adminCpl c.fn ent :: post ∧
      ent.take 15 = leBytes 2 c.cid ++ leBytes 1 st ++ leBytes 1 c.opcode ++ leBytes 4 dw ++ leBytes 2 c.idx ++
        leBytes 1 (fn d c.fn).gen ++ zeros 4 ∧
      ent.length = 16

/-! ### Registers, commits, crossings and inbound accesses (01, 11) -/

/-- R39: a COMMIT write that arrives while PENDING is 1 is ignored and sets COMMIT_REJ; the pending commit, its captured set
and every value in effect stand. -/
def Obligations.CommitWhilePendingIsRejected : Prop :=
  ∀ (s : State) (b : Nat), headerReached s.dev b = true → b ≠ 0xF00000 → b ≠ 0xE00000 → bitR s.dev (b + 8) 0 = true →
    Runs (.commit b) s fun d' =>
      bitR d' (b + 8) 2 = true ∧ bitR d' (b + 8) 0 = true ∧ d'.cap = s.dev.cap ∧ d'.eff = s.dev.eff ∧
      (∀ k, k ≠ b + 8 → regR d' k = regR s.dev k)

/-- R40: a captured set that fails its group's checks takes no effect: COMMIT_BAD is set, PENDING clears, COMMIT_REFUSED
naming the block and group is posted to PF0's event queue, and the shadow keeps the written values. (A commit of which a part is in
effect, its checks passed, is not checked again: R88, R98, R111.) -/
def Obligations.RefusedCommitTakesNoEffect : Prop :=
  ∀ (s : State) (b dir : Nat), isGroup b = true → bitR s.dev (b + 8) 0 = true → regState s.dev b = 0 → dir ≤ 1 →
    partTaken s.dev b = false →
    capOk s.dev b = false →
    Lands (.commitPoint b dir) s (postDev 1 (leBytes 1 (b / 2 ^ 20) ++ leBytes 2 (groupNum b))
      (bitW (b + 8) 1 true (bitW (b + 8) 0 false { s.dev with cap := Tbl.drop (fun k => decide (groupOf k = b)) s.dev.cap }))) ∧
    Runs (.commitPoint b dir) s fun d' => d'.eff = s.dev.eff ∧ bitR d' (b + 8) 1 = true ∧ bitR d' (b + 8) 0 = false

/-- R37, R38, R41: COMMIT captures the group's shadow and sets PENDING; LOCK sets the group's lock; a commit point that passes its
checks puts the captured set of a HOST group or of a memory channel's group, and nothing of another group, in effect, counts the commit
and clears PENDING. -/
def Obligations.CommitCapturesAndApplies : Prop :=
  ∀ (s : State) (b dir : Nat), headerReached s.dev b = true →
    (b ≠ 0xF00000 → b ≠ 0xE00000 → bitR s.dev (b + 8) 0 = false → Runs (.commit b) s fun d' =>
      bitR d' (b + 8) 0 = true ∧ d'.eff = s.dev.eff ∧ (∀ k, groupOf k = b → capR d' k = regR s.dev k) ∧
      (∀ k, groupOf k ≠ b → capR d' k = capR s.dev k)) ∧
    Runs (.lock b) s (fun d' => bitR d' (b + 0xC) 0 = true ∧ ∀ k, k ≠ b + 0xC → regR d' k = regR s.dev k) ∧
    ((b / 2 ^ 20 = 13 ∨ (b / 2 ^ 20 = 11 ∧ groupNum b ≠ 0)) → dir ≤ 1 → capOk s.dev b = true → bitR s.dev (b + 8) 0 = true → Runs (.commitPoint b dir) s fun d' =>
      bitR d' (b + 8) 0 = false ∧ fldR d' (b + 8) 31 16 = (fldR s.dev (b + 8) 31 16 + 1) % 65536 ∧
      (∀ k, groupOf k = b → effR d' k = capR s.dev k) ∧ (∀ k, groupOf k ≠ b → effR d' k = effR s.dev k))

/-- R13, R35, R44: a plain register write that is served changes only the bits software may write, clears the write-1-to-clear
bits written as 1, and leaves every other register, all memory and the values in effect as they were; a read of a counter's low
word answers it and latches the high word (R114); an entry written to a crossing becomes readable (R21). R363, R367, R374, R375,
R380, R381, R383: inbound accesses. On a frozen port a write is discarded and counted and a read answers all-ones; a write
wholly within an open window to the packet-buffer reserve lands there and nowhere else; one that no open window takes is
discarded and counted; a configuration request is asked to be sent again until footing hands over, and a read is then answered
by the function's configuration space (R363, R367); a hold area that fits is taken. -/
def Obligations.RegisterAndInboundAccessesTouchTheirRegister : Prop :=
  (∀ (s : State) (k : Nat) (v : Word) (r : RegRow), s.dev.wr = [] →
    (fnPresent s.dev 0 = true → isFrozen s.dev 0 = false → s.dev.fatal = false → k % 4 = 0 → k < 0xDF0000 → regState s.dev k = 0 →
      regRow k = some r → ownRow k = false → isGroup (k / 16 * 16) = false → bitR s.dev (groupOf k + 0xC) 0 = false →
      Runs (.registerWrite 0 0 k v) s fun d' =>
        regR d' k = ((regR s.dev k &&& ~~~ BitVec.ofNat 32 (writableBits s.dev k r)) ||| (v &&& BitVec.ofNat 32 (writableBits s.dev k r))) &&&
          ~~~ (v &&& BitVec.ofNat 32 r.w1c) ∧
        d' = { s.dev with regs := d'.regs } ∧ ∀ j, j ≠ k → regR d' j = regR s.dev j) ∧
    (isCtr k = true → k % 8 = 0 → isFrozen s.dev 0 = false → k < 0x1000000 → regState s.dev k = 0 → isGroup (k / 16 * 16) = false →
      ¬(k < 0x108000 ∧ 0x100000 ≤ k ∧ k % 0x1000 = 0x60) → Runs (.counterLowRead 0 k) s fun d' =>
        d'.out = .regData 0 k (BitVec.ofNat 32 (ctrR s.dev k)) :: s.dev.out ∧
        Tbl.get (fun _ => 0) d'.latch (latchKey 0 k) = ctrR s.dev k / 2 ^ 32 ∧ ∀ j, ctrR d' j = ctrR s.dev j) ∧
    (∀ src dst it rest, s.dev.xings = ⟨src, dst, false, it⟩ :: rest → Runs (.xingDeliver src dst) s fun d' =>
      d' = { s.dev with xings := ⟨src, dst, true, it⟩ :: rest })) ∧
  (∀ (s : State) (h : Nat) (t : Tlp), s.dev.wr = [] → h < numHosts s.dev.variant → (hp s.dev h).linkUp = true → t.malformed = false →
    t.poisoned = false → t.cpl = none →
    let d := s.dev
    let taken : Prop := isFrozen d h = false ∧ d.fatal = false ∧ fnPort t.fn = h ∧ fnPresent d t.fn = true ∧ memOn d t.fn = true ∧
      t.bar = 4 ∧ hasBar4 d.variant t.fn = true
    (isFrozen d h = true → t.bar ≠ 3 → t.write = true → Runs (.inboundTlp h t) s fun d' =>
      ctrR d' (0xD00108 + 0x40 * h) = (ctrR d (0xD00108 + 0x40 * h) + 1) % 2 ^ 64 ∧ d' = { d with ctrs := d'.ctrs }) ∧
    (isFrozen d h = true → t.bar ≠ 3 → t.write = false → Runs (.inboundTlp h t) s fun d' =>
      d' = { d with out := .readCpl h true (List.replicate t.len 0xFF) :: d.out }) ∧
    (∀ sp a, taken → t.write = true → peerTarget d t.fn t.off t.data.length = some (sp, a) → Runs (.inboundTlp h t) s fun d' =>
      d' = { d with mem := d'.mem } ∧
      (∀ i, i < t.data.length → Memory.read d'.mem (spaceAddr sp a + i) = t.data.getD i 0) ∧
      MemSameOutside (fun x => spaceAddr sp a ≤ x ∧ x < spaceAddr sp a + t.data.length) d d') ∧
    (taken → t.write = true → peerTarget d t.fn t.off t.data.length = none → Runs (.inboundTlp h t) s fun d' =>
      ctrR d' (0xD00110 + 0x40 * h) = (ctrR d (0xD00110 + 0x40 * h) + 1) % 2 ^ 64 ∧ MemSameOutside (fun _ => False) d d') ∧
    (taken → t.write = false → peerTarget d t.fn t.off t.len = none → Runs (.inboundTlp h t) s fun d' =>
      d' = emit (.readCpl h false []) (aerUncor h aerUnsupported (t.hdr.map (·.toNat)) d)) ∧
    (t.bar = 3 → d.fatal = false → d.foot.boot ≠ .running → Lands (.inboundTlp h t) s (emit (.cfgRetry h) d)) ∧
    (t.bar = 3 → d.fatal = false → d.foot.boot = .running → fnPort t.fn = h → fnPresent d t.fn = true → t.write = false →
      Lands (.inboundTlp h t) s (emit (.readCpl h true (slice (leBytes 4 (cfgRead t.fn (t.off / 4 * 4) d).1.toNat) (t.off % 4) t.len))
        (cfgRead t.fn (t.off / 4 * 4) d).2)) ∧
    (∀ v, isFrozen d h = false → Lands (.frzHoldWrite h v) s
      (placeRegions (fldW (cfgKey (2 * h) 0x2F8) 15 0 (holdFit d h (min 4096 (Word.fld v 15 0))) d))))

/-! ### Strings and time (01, 02) -/

/-- R26–R30, R45, R50, R51, R53–R56, R69, R98: a tick adds the effective increment to every present string; a scheduled
increment, drone increment, UTC change, step or LOAD applies at its tick; a slew ends; a leap second's UTC offset is taken; the
fret or tap of an island that works and has loaded becomes valid; a bus delay is shown; a read of TIME_NOW snapshots the time;
at each code cycle holdover growth advances, and a tap that is not valid loads what the cycle carries. R61–R63, R65, R53, R81,
R136, R596: an accepted offset less delayAsymmetry: in LOCKED inside JUMP_LIMIT it keeps LOCKED, outside it disputes the source;
in ACQUIRE with the step armed and STEP_MIN reached it schedules the one step; a lost source or reference moves ACQUIRE and
LOCKED to HOLDOVER; the dispute timer latches the dispute; a locked EEC gives FREQ_SYNCE strings its frequency. -/
def Obligations.StringsAdvanceAndFollowTheirSource : Prop :=
  (∀ (s : State) (i n delay : Nat),
    let d := s.dev
    let x := str d i
    (Runs .timeTick s fun d' => now d' = now d + 1 ∧
      ∀ j, strPresent d j = true → (str d' j).t = ((str d j).t + (str d j).incr) % (2 ^ 48 * secUnit)) ∧
    (∀ v a rest, takeDue d i = some (⟨a, .incr v, none⟩, rest) → Runs (.scheduledApply i) s fun d' =>
      str d' i = { x with incr := v, sched := rest } ∧
      ∀ m, hasTap m = true → i < (tap d m).reps.length → (rep d' m i).incr = v) ∧
    (∀ v a rest, takeDue d i = some (⟨a, .drone v 0, none⟩, rest) → Runs (.scheduledApply i) s fun d' =>
      str d' i = { x with drone := v, incr := if x.st = .drone then v * 65536 else x.incr, sched := rest }) ∧
    (∀ off fl a rest, takeDue d i = some (⟨a, .utc off fl, none⟩, rest) → Runs (.scheduledApply i) s fun d' =>
      str d' i = { x with utcOffset := off.getD x.utcOffset, utcFlags := fl, sched := rest }) ∧
    (∀ e rest, takeDue d i = some (e, rest) →
      let put := applyOne i e (strU i (fun y => { y with sched := rest }) d)
      (∀ c, jumpCause e.what = some c → Lands (.scheduledApply i) s (afterJump i x.t c put)) ∧
      (jumpCause e.what = none → Lands (.scheduledApply i) s put) ∧
      (∀ delta, e.what = .step delta → e.held = none → (str put i).t = stepped x.t delta ∧ (str put i).jumps = x.jumps + 1 ∧
        (str put i).slew = 0) ∧
      (∀ v r, e.what = .load v r → e.held = none → (str put i).t = v % (2 ^ 48 * secUnit) ∧ (str put i).jumps = x.jumps + 1)) ∧
    (takeDue d i = none → Lands (.scheduledApply i) s d) ∧
    (x.slew ≠ 0 → x.slewEnd ≤ now d → Runs (.slewEnd i) s fun d' => (str d' i).slew = 0 ∧ (str d' i).t = x.t ∧
      ((x.sched.all fun e => match e.what with
        | .incr _ => false
        | _ => true) = true → (str d' i).incr = wantIncr { x with slew := 0 })) ∧
    (∀ off due, x.leap = some (off, due) → due ≤ x.t / secUnit → Runs (.leapApply i) s fun d' =>
      (str d' i).utcOffset = off ∧ (str d' i).utcFlags = x.utcFlags / 4 * 4 ∧ (str d' i).leap = none ∧ (str d' i).t = x.t ∧
      (str d' i).st = x.st ∧ (str d' i).incr = x.incr) ∧
    (∀ off due, x.leap = some (off, due) → x.t / secUnit < due → Lands (.leapApply i) s d) ∧
    (hasTap n = true → islandOn d n = true → (tap d n).reps ≠ [] → bitR (setFretValid n d) (0x400 + 4 * n) 0 = true ∧
      (8 < n → Lands (.fretValid n) s (setFretValid n d)) ∧
      (1 ≤ n → n ≤ 8 → Lands (.fretValid n) s ((islandUsers (setFretValid n d) n).foldl (fun d p => evalPort p d) (setFretValid n d)))) ∧
    (hasTap n = true → islandOn d n = true → Runs (.timeBusDelayMeasure n delay) s fun d' =>
      regR d' (0x500 + 4 * n) = BitVec.ofNat 32 delay ∧ ∀ k, k ≠ 0x500 + 4 * n → regR d' k = regR d k) ∧
    (strPresent d i = true → Runs (.timeNowRead i) s fun d' =>
      d'.out = .regData 0 (tKey i 0x60) (BitVec.ofNat 32 (toR17 x.t % 2 ^ 16)) :: d.out ∧
      (str d' i).now = [toR17 x.t / 2 ^ 16 % 2 ^ 32, toR17 x.t / 2 ^ 48 % 2 ^ 32, toR17 x.t / 2 ^ 80]) ∧
    (strPresent d i = false → Lands (.timeNowRead i) s (emit (.regData 0 (tKey i 0x60) 0) d)) ∧
    (∀ bad drifts, now d % 1024 = 0 → d.time.lastCycle ≠ some (now d) → Runs (.codeCycle bad drifts) s fun d' =>
      d'.time.codeCycles = d.time.codeCycles + 1 ∧ d'.time.lastCycle = some (now d) ∧
      (strPresent d i = true → x.st = .holdover ∨ x.st = .disputed → (str d' i).growth =
        x.growth + (if tpllHold d = true then max (holdDrift d i) 512000 else holdDrift d i) * 262144) ∧
      (strPresent d i = true → (str d' i).t = x.t ∧ (str d' i).incr = x.incr ∧ (str d' i).st = x.st) ∧
      (hasTap n = true → islandOn d n = true → bitR d (0x400 + 4 * n) 0 = false → n ∉ bad → (tap d' n).reps = carriedAll d'))) ∧
  (∀ (s : State) (i port rx tx : Nat) (o : Int) (why : LossCause),
    let d := s.dev
    let x := str d i
    let net := o - delayAsymmetry d i port (exchangeEntries d port rx tx).1
    let taken : Prop := strPresent d i = true ∧ x.owner = 0 ∧ x.srcKind = 1 ∧ x.srcPort = port ∧ timeServiceUp d = true ∧
      staleOffset x (min rx tx) = false
    (taken → x.st = .locked → net.natAbs ≤ jumpLimit d i → Runs (.acceptedOffset i port o rx tx) s fun d' =>
      (str d' i).st = .locked ∧ (str d' i).ofs = net ∧ (str d' i).lastMeas = min rx tx) ∧
    (taken → x.st = .locked → jumpLimit d i < net.natAbs → Runs (.acceptedOffset i port o rx tx) s fun d' =>
      (str d' i).st = .disputed ∧ (str d' i).refusals = (x.refusals + 1) % 65536 ∧ (str d' i).slew = 0) ∧
    (taken → x.st = .acquire → x.stepArmed = true → stepMin d i ≤ net.natAbs → stepOutOfRange x (-net) = false →
      Runs (.acceptedOffset i port o rx tx) s fun d' =>
        (str d' i).st = .acquire ∧ (str d' i).stepArmed = false ∧ (str d' i).steps = (x.steps + 1) % 256 ∧
        (str d' i).sched = x.sched ++ [⟨applyTick d, .step (-net), none⟩] ∧ (str d' i).t = x.t) ∧
    (taken → x.st = .drone → Runs (.acceptedOffset i port o rx tx) s fun d' =>
      (str d' i).st = .drone ∧ (str d' i).t = x.t ∧ (str d' i).ofs = net) ∧
    (strPresent d i = true → lossHolds d i why = true → x.st = .acquire ∨ x.st = .locked → Runs (.sourceLost i why) s fun d' =>
      (str d' i).st = .holdover ∧ (str d' i).srcOk = false ∧ (str d' i).slew = 0) ∧
    (∀ t0, x.dispFrom = some t0 → x.st = .disputed → x.latched = false → disputeTo d i ≠ 0 →
      t0 + disputeTo d i * 1000000 ≤ now d → Runs (.disputeTimerExpiry i) s fun d' =>
        (str d' i).latched = true ∧ (str d' i).st = .disputed) ∧
    (Runs .trefLost s fun d' => tpllHold d' = true ∧
      (strPresent d i = true → x.st = .acquire ∨ x.st = .locked → (str d' i).st = .holdover)) ∧
    (Runs .tpllRelock s fun d' => tpllHold d' = false ∧ bitR d' 0x108010 8 = true ∧ str d' i = x) ∧
    (∀ st f, effB d 0x108060 0 = true → st < 3 → Runs (.eecStateChange st f) s fun d' => d'.time.eecFreq = f ∧
      (strPresent d i = true → freqSynce d i = true → x.st = .acquire ∨ x.st = .locked →
        (st ≠ 1 → (str d' i).st = .holdover) ∧ (st = 1 → (str d' i).st = x.st ∧ (str d' i).freq = clampFreq f))))

/-- R52, R77, R79, R82–R84, R98: references, pulses and the messages of the time service. TREF_SEL is taken while every present
string is in DRONE and refused otherwise; a PPS pin follows its string and a PPS input gives its strings their offset; PTP
messages reach the instance of their class's string, and PTP and ESMC messages are sent. R54, R61, R76, R89–R96, R312: the time
commands and IDENTIFY. A LOAD, an increment, a return to DRONE is held to its application tick, a host offset that steps to its
step's; the others complete at once. -/
def Obligations.TimeReferencesMessagesAndCommands : Prop :=
  (∀ (s : State) (i port : Nat) (v : Word),
    let d := s.dev
    let x := str d i
    let pol := effB d (0x108030 + 4 * i) 4
    (v.getLsbD 9 = false → v.getLsbD 0 ≠ bitR d 0x108010 0 → bitR d 0x10800C 0 = false →
      (∀ j < numStrings d.variant, (str d j).st = .drone) → Runs (.trefSelWrite v) s fun d' =>
        bitR d' 0x108010 0 = v.getLsbD 0) ∧
    (v.getLsbD 9 = false → v.getLsbD 0 ≠ bitR d 0x108010 0 → bitR d 0x10800C 0 = false →
      (∃ j < numStrings d.variant, (str d j).st ≠ .drone) → Runs (.trefSelWrite v) s fun d' =>
        bitR d' 0x108010 9 = true ∧ bitR d' 0x108010 0 = bitR d 0x108010 0) ∧
    (∀ e, e = takeIo none d → i < 4 → effB e (0x108030 + 4 * i) 0 = true → effF e (0x108030 + 4 * i) 31 13 ≠ 0 → e.timeDead = false →
      atSecond e (effR e (0x108030 + 4 * i)) (effR e (0x108040 + 4 * i)) = true →
      Runs (.ppsOutEdge i true) s fun d' => d'.out = .pin (pinPpsOut i) (!(effB e (0x108030 + 4 * i) 4)) :: e.out) ∧
    (i < 4 → d.time.ppsOn.getD i false = true → d.time.ppsFrom.getD i 0 + effF d (0x108030 + 4 * i) 31 13 * 1000 ≤ now d →
      Runs (.ppsOutEdge i false) s fun d' => d'.out = .pin (pinPpsOut i) pol :: d.out) ∧
    (∀ e k rising sub, e = takeIo (some k) d → k < 2 → effB e (0x108020 + 4 * k) 0 = true → effB e (0x108020 + 4 * k) 1 ≠ rising →
      e.time.ppsLast.getD k 0 = 0 → e.time.ppsLast.length = 2 → strPresent e i = true → (str e i).srcKind = 2 + k →
      Runs (.ppsInPulse k rising sub) s fun d' => (str d' i).lastPulse = now e ∧ d'.time.ppsLast.getD k 0 = now e + 1 ∧
        ((str e i).owner = 0 → timeServiceUp e = true → staleOffset (str e i) (now e) = false → (str d' i).ofs =
          ppsOffset (toQ (str e i).t / 4096 * 4096 + sub % 16 * 4096 + 1000000000 * 65536 - effF e (0x108020 + 4 * k) 31 16 * 4096))) ∧
    (∀ cls rx msg,
      let j := classString d cls port
      let ours : Prop := cls < 64 ∧ ptpEn d j = true ∧ timeServiceUp d = true ∧ u8 msg 4 = effF d (tKey j 0x34) 7 0 ∧
        ptpRole d j port ≠ 0 ∧ rx.transport = ptpTransport d j port
      (ours → Lands (.ptpMessage port cls rx msg) s (ptpTake j port rx.sub rx.a (r17Q rx.stamp : Int) msg d)) ∧
      (ours → ptpType msg = 11 → Lands (.ptpMessage port cls rx msg) s (gmUpdate j (noteAnnounce j port msg d))) ∧
      (¬ ours → Lands (.ptpMessage port cls rx msg) s d)) ∧
    (∀ m : PtpSend, strPresent d i = true → ptpEn d i = true → timeServiceUp d = true → port < 48 → portPresent d.variant port = true →
      canStart d port = true → ptpMaySend d i port m.kind = true → (ptpUnicast d i port = true → m.kind ≠ 0 ∧ m.kind ≠ 11) →
      Lands (.ptpMessageTx i port m) s (ptpSendKind i port m.kind m.sub m.a d) ∧
      (m.kind = 1 → (str (ptpSendKind i port m.kind m.sub m.a d) i).ptpSeq = (x.ptpSeq + 1) % 65536)) ∧
    (∀ pdu, portPresent d.variant port = true → timeServiceUp d = true → Runs (.esmcPduRx port pdu) s fun d' =>
      Tbl.get (fun _ => {}) d'.time.esmc port = esmcOf pdu (now d)) ∧
    (∀ ev, timeServiceUp d = true → port < 48 → portPresent d.variant port = true → canStart d port = true →
      Lands (.esmcPduTx port ev) s (sendOut port (esmcPdu port ev (eecReselect d)).1 (esmcPdu port ev (eecReselect d)).2)) ∧
    ((Tbl.get (fun _ => {}) d.time.esmc port : Esmc).ql.isSome = true →
      (Tbl.get (fun _ => {}) d.time.esmc port : Esmc).last + 5000000000 ≤ now d → Runs (.esmcQlFailed port) s fun d' =>
        (Tbl.get (fun _ => {}) d'.time.esmc port : Esmc).ql = none)) ∧
  (∀ (s : State) (c : Cmd),
    let d := s.dev
    let i := cmdStr c
    let x := str d i
    let busy := decide (x.st ≠ .drone) || (decide (c.f 36 1 = 1) && decide (x.drone = 0))
    Defers (.timeLoad c) c s (timeStatus d c [(24, 12), (36, 1), (40, 8)]
        (decide (2 ≤ c.f 36 1) || decide (c.f 40 8 % 32 ≠ 0) || decide (1000000000 ≤ c.f 24 12 / 2 ^ 16 % 2 ^ 32)) false busy)
      (fun d => scheduleHeld c i (alignTick d i (c.f 36 1)) (.load (ofR17 (c.f 24 12)) (c.f 40 8))
        (strU i (fun y => { y with lastStep := some (alignTick d i (c.f 36 1)), stepReading := ofR17 (c.f 24 12) }) d)) ∧
    Defers (.timeSetIncr c) c s
      (timeStatus d c [(24, 5), (36, 1), (40, 8)] (decide (2 ≤ c.f 36 1) || decide (c.f 40 8 % 32 ≠ 0)) false busy)
      (fun d => scheduleHeld c i (alignTick d i (c.f 36 1)) (.drone (c.f 24 5) (c.f 40 8)) d) ∧
    Defers (.timeSetDrone c) c s (timeStatus d c [] false false false)
      (fun d => scheduleHeld c i (applyTick d) .carried (toDrone i d)) ∧
    (timeStatus d c [] false false false = 0 → Runs (.timeSetDrone c) s fun d' => (str d' i).st = .drone ∧ (str d' i).srcKind = 0) ∧
    (∀ kind, kind = c.f 17 1 → timeStatus d c [(17, 1), (18, 1), (20, 4)]
        (decide (kind = 0) || decide (5 ≤ kind) || (decide (kind = 1) && decide (48 ≤ c.f 18 1)) ||
          (decide (kind = 4) && decide (60000 < c.f 20 4))) false false = 0 →
      (kind = 1 → portPresent d.variant (c.f 18 1) = true) →
      Runs (.timeSetSource c) s fun d' => (str d' i).srcKind = kind ∧ (x.st = .drone → (str d' i).st = .acquire ∧ (str d' i).stepArmed = true) ∧
        (x.st ≠ .drone → (str d' i).st = x.st)) ∧
    (timeStatus d c [(24, 8), (32, 4), (36, 12)] (decide (c.f 32 4 = 0xFFFFFFFF) || decide (1000000000 ≤ c.f 36 12 / 2 ^ 16 % 2 ^ 32))
        (decide (x.owner ≠ 1)) (decide (x.st = .drone)) = 0 →
      Lands (.timeHostOffset c) s
        (let e := staleReading i (ofR17 (c.f 36 12)) (strU i (fun y => { y with lastHost := now d }) d)
         let r := acceptOffset i (toSigned 64 (c.f 24 8)) (c.f 32 4) (now d) e.2
         if e.1 = true then complete c 0 4 e.2
         else if r.1 = 1 then noteHeld c (awaitStep i (hold r.2 c) r.2) else complete c 0 r.1 r.2)) ∧
    Serves (.timeHostFreq c) c s (timeStatus d c [(24, 5)] (decide (freqClamp < ((toSigned 40 (c.f 24 5)).natAbs : Int)))
        (decide (x.owner ≠ 1)) (decide (x.st = .drone)))
      (fun d => carryIncr i (setFreq i (toSigned 40 (c.f 24 5)) d)) ∧
    (c.f 22 1 % 4 = 0 → Serves (.timeSetUtc c) c s
      (timeStatus d c [(20, 2), (22, 1)] (decide (32 ≤ c.f 22 1)) (decide (x.owner ≠ 1)) false)
      (fun d => schedule i ⟨applyTick d, .utc (some (toSigned 16 (c.f 20 2))) (c.f 22 1), none⟩ (strU i (fun y => { y with leap := none }) d))) ∧
    (c.f 22 1 % 4 ≠ 0 → Serves (.timeSetUtc c) c s
      (timeStatus d c [(20, 2), (22, 1)] (decide (32 ≤ c.f 22 1)) (decide (x.owner ≠ 1)) false)
      (fun d => schedule i ⟨applyTick d, .utc none (c.f 22 1), none⟩ (strU i (fun y => { y with leap := some (toSigned 16 (c.f 20 2),
        ((((x.t / secUnit : Nat) - lastUtc x : Int) / 86400 + 1) * 86400 + lastUtc x).toNat) }) d))) ∧
    Serves (.timeRead c) c s (timeStatus d c [(24, 8)] (decide (c.f 24 8 % 32 ≠ 0)) false false)
      (fun d => dma c.fn (c.f 24 8) (timeSnapshot d i) d) ∧
    Serves (.timePtpClock c) c s (timeStatus d c [(17, 9), (26, 8)]
        (decide (4 ≤ c.f 17 1) || decide (5 ≤ c.f 18 1) || decide (4 ≤ c.f 23 1)) false (!(ptpEn d i)))
      (strU i (fun y => { y with ptpClock := slice c.bytes 17 17 })) ∧
    Serves (.timePtpPort c) c s (firstStatus [
        (decide (c.fn ≠ 0) || (cmdSelf c).isNone, stNotPermitted),
        (!(reservedOk c [(16, 11), (28, 4)]) || decide (8 ≤ i) || decide (48 ≤ c.f 17 1) || decide (4 ≤ c.f 18 1) || decide (3 ≤ c.f 19 1) ||
          !(within (c.f 20 1) 7) || !(within (c.f 21 1) 7) || !(within (c.f 22 1) 3) || decide (c.f 23 1 < 2) || decide (3 ≤ c.f 24 1) ||
          decide (8 ≤ c.f 25 1) || decide (c.f 26 1 = 0), stBadParam),
        (!(strPresent d i) || !(portPresent d.variant (c.f 17 1)), stAbsent), (!(ptpEn d i), stBadState)])
      (strU i (fun y => { y with ptpPorts := Tbl.set (fun _ => []) y.ptpPorts (c.f 17 1) (slice c.bytes 17 15) })) ∧
    Serves (.identify c) c s (firstStatus [((cmdSelf c).isNone, stNotPermitted),
        (!(reservedOk c [(24, 8)]) || decide (c.f 24 8 % 4096 ≠ 0), stBadParam)])
      (fun d => dma c.fn (c.f 24 8) (identifyData d c.fn) d))

/-! ### The witness engine (07) -/

/-- R241: the tree of an ashlar. No record gives 32 zero bytes, one gives its leaf; a level joins nodes 2j and 2j + 1 and carries
an odd last node up unchanged; the root is the root of the next level. The leaves stand in the order of R237. -/
def Obligations.MerkleTreeIsBuiltAsStated : Prop :=
  (∀ k, merkleRoot k [] = zeros 32) ∧ (∀ k x, merkleRoot k [x] = x) ∧ (∀ r, leafHash r = sha3_256 (0 :: r)) ∧
  (∀ l : List Bytes, (levelUp l).length = (l.length + 1) / 2) ∧
  (∀ (l : List Bytes) (j : Nat), 2 * j + 1 < l.length → (levelUp l).getD j [] = sha3_256 (1 :: (l.getD (2 * j) [] ++ l.getD (2 * j + 1) []))) ∧
  (∀ (l : List Bytes) (j : Nat), 2 * j + 1 = l.length → (levelUp l).getD j [] = l.getD (2 * j) []) ∧
  (∀ (l : List Bytes) (k : Nat), 2 ≤ l.length → l.length ≤ 2 ^ k → merkleRoot k l = merkleRoot k (levelUp l)) ∧
  (∀ (hp : Bytes) (a : Ashlar), (sealOn hp a).root = merkleRoot 32 (a.recs.map fun (r : ARec) => leafHash r.bytes)) ∧
  (∀ rs : List ARec, (sortRecs rs).Perm rs ∧ (sortRecs rs).Pairwise fun a b =>
    a.at_ < b.at_ ∨ a.at_ = b.at_ ∧ (a.grp < b.grp ∨ a.grp = b.grp ∧ a.ord ≤ b.ord))

/-- R268, R271: the sibling hashes EVIDENCE_READ gives for a record lead, by the verification procedure, from the record's leaf to
the root in its ashlar's header, for every record of every ashlar. -/
def Obligations.EveryRecordVerifiesAgainstItsAshlar : Prop :=
  ∀ (hp : Bytes) (a : Ashlar) (i : Nat), i < a.recs.length → a.recs.length < 2 ^ 28 →
    climb 32 a.recs.length i (leafHash ((a.recs.map fun (r : ARec) => r.bytes).getD i []))
      (merklePath 32 i (a.recs.map fun (r : ARec) => leafHash r.bytes)) = some (sealOn hp a).root

/-- R240, R242: a sealed ashlar's header is 128 bytes with MERKLE_ROOT at 64 and H_PREV at 96, and its H is the hash of H_PREV
followed by that header. R232, R236, R238, R239, R66, R274: the open ashlar closes at an epoch boundary, or for want of one, and
the next opens at the same tick; a record that waits too long is written as an orphan; a mark and a re-anchor are recorded. -/
def Obligations.AshlarsCloseAtTheirBoundariesAndChain : Prop :=
  (∀ (hp : Bytes) (a : Ashlar), hp.length = 32 →
    let x := sealOn hp a
    (headerBytes x).length = 128 ∧ x.h = sha3_256 (hp ++ headerBytes x) ∧ slice (headerBytes x) 64 32 = x.root ∧
    slice (headerBytes x) 96 32 = hp ∧ slice (headerBytes x) 0 4 = [0x42, 0x41, 0x53, 0x48] ∧
    le (headerBytes x) 56 4 = a.recs.length % 2 ^ 32 ∧ le (headerBytes x) 8 8 = a.index % 2 ^ 64) ∧
  (∀ (s : State) (a : Ashlar) (c : Cmd) (id : Nat),
    let d := s.dev
    let w := d.wit
    let tb := toR17 (curB d * epochUnit d)
    let i := cmdStr c
    (w.cur = some a → curB d ≠ w.lastB → halvesDue d = false → w.gap = none → w.halfGap = none → Lands .epochBoundary s
      (witU (fun w => { w with
        closed := w.closed ++ [{ a with flags := a.flags ||| ashlarNow d a, close := tb, recs := sortRecs a.recs }]
        cur := some { index := a.index + 1, prev := a.index, opening := a.opening, jstring := jString d, open_ := jTime d, tick := now d }
        lastB := curB d, lastBTick := now d }) d)) ∧
    (w.cur = some a → curB d = w.lastB → w.lastBTick + 2000 * effF d (wKey 0x14) 16 0 ≤ now d → Lands .longClose s
      (witU (fun w => { w with
        closed := w.closed ++ [{ a with flags := a.flags ||| 2 ||| ashlarNow d a, close := jTime d, recs := sortRecs a.recs }]
        cur := some { index := a.index + 1, prev := a.index, opening := a.opening, jstring := jString d, open_ := jTime d, tick := now d }
        lastBTick := now d }) d)) ∧
    (∀ r rest, w.recs = r :: rest → r.id = id → u8 r.bytes 14 % 32 = 1 → r.tick + 1000 * effF d (wKey 0x1C) 16 0 ≤ now d → w.cur = some a →
      a.recs.length + 1 < 2 ^ 28 - 1 → Lands (.orphanTimeout id) s (ctrInc (wKey 0x118) (ctrInc (wKey 0x100) (witU (fun w => { w with
        recs := rest, cur := some { a with recs := a.recs ++ [⟨r.bytes, jQ d, 4 + r.half, w.order⟩] }, order := w.order + 1 }) d)))) ∧
    (witStatus d c true [(16, 1), (24, 8), (32, 8), (40, 16)] (decide (7 < c.f 16 1) || decide (c.f 24 8 % 64 ≠ 0))
        [(!(strPresent d (c.f 16 1)), stAbsent), (!(witOpen d), stBadState)] = 0 →
      w.failed = [] → w.gap = none → stagedAll d < stagingCap d → w.recs = [] → w.cur = some a → a.recs.length < 2 ^ 28 - 2 →
      Runs (.witMark c) s fun d' => (∃ b m, d'.wit.marks = w.marks ++ [m] ∧ m.ashlar = a.index ∧ m.buf = c.f 24 8 ∧ m.bytes = b ∧
          b.length = 48 ∧ u8 b 14 = 5 + 32 * c.f 16 1 ∧ d'.wit.cur = some { a with recs := a.recs ++ [⟨b, jQ d, m.grp, w.order⟩] }) ∧
        (fn d' c.fn).aqOut = (fn d c.fn).aqOut + 1 ∧ ctrR d' (wKey 0x100) = (ctrR d (wKey 0x100) + 1) % 2 ^ 64) ∧
    (timeStatus d c [] false false (decide ((str d i).st = .drone)) = 0 → ∃ b, b.length = 48 ∧ u8 b 14 = 7 + 32 * i ∧ Lands (.timeReanchor c) s
      (let r := writeRec b (sealer d) (reanchor i d)
       if r.1 then complete c 0 1 r.2 else scheduleHeld c i (applyTick r.2) .carried r.2)) ∧
    (timeStatus d c [] false false (decide ((str d i).st = .drone)) ≠ 0 → Lands (.timeReanchor c) s
      (completeSt c (timeStatus d c [] false false (decide ((str d i).st = .drone))) d)))

/-- R243, R244, R251, R258, R262–R265, R267, R269, R272: closed ashlars are sealed on the chain in order and queued for the
drives; a capstone boundary calls for a capstone; a capstone due is signed; what waits is written where it fits and becomes
durable; the superblock alternates; an opening's ashlar is written; a closing journal ends; a released half becomes idle. R256,
R258, R265, R268, R269, R273, R274: the witness commands. EVIDENCE_READ serves what staging still holds and says why it does
not; WIT_RELEASE never moves the released index back; WIT_HALF waits for the next boundary. -/
def Obligations.EvidenceIsSealedStoredAndServed : Prop :=
  (∀ (s : State) (a : Ashlar) (rest : List Ashlar) (e : Extent) (es : List Extent) (r : CapReq) (h : Nat),
    let d := s.dev
    let w := d.wit
    (w.closed = a :: rest → halfInUse d 0 = true → Lands (.ashlarSealed []) s
      (let x := sealOn w.hLast { a with unwitnessed := min a.unwitnessed 0xFFFFFFFF }
       queueExtent 1 a.index (48 * a.recs.length) a.index (ctrInc (wKey 0x130) (witU (fun w => { w with
        closed := rest, sealed_ := w.sealed_ ++ [x], hLast := x.h, sums := w.sums ++ [(a.index, a.recs.length, gapRecs x, x.h)] }) d)))) ∧
    (w.cur = some a → capBoundary d = true → w.capB ≠ some w.lastB → curB d = w.lastB → Lands .capstoneBoundary s
      (witU (fun w => { w with capB := some w.lastB }) (callCapstone false (toR17 (w.lastB * epochUnit d)) (a.index - 1) d))) ∧
    (∀ rs, w.caps = r :: rs → w.closed = [] → w.ringSlots = 0 →
      reserveUsed d + (capBody d r ++ signBoth (keyOf 0 r.aliasKey) (keyOf 1 r.aliasKey) (capBody d r)).length ≤ 2 ^ 24 →
      Runs .capstoneSigned s fun d' => d'.wit.caps = rs ∧ d'.wit.capIndex = w.capIndex + 1 ∧
        d'.wit.prevCap = sha3_256 (capBody d r ++ signBoth (keyOf 0 r.aliasKey) (keyOf 1 r.aliasKey) (capBody d r)) ∧
        d'.wit.capDone = w.capDone ++ [⟨w.capIndex + 1, r.last,
          capBody d r ++ signBoth (keyOf 0 r.aliasKey) (keyOf 1 r.aliasKey) (capBody d r)⟩]) ∧
    (w.extents = e :: es → e.durable = false → e.type = 1 → journalDrives d = true → extentFits d e.lbas = true →
      (w.sealed_.find? fun x => decide (x.index = e.index)) = some a → Lands (.extentDurable false) s
      (witU (fun w => { w with durable := some a.index, durableH := a.h })
        (writeExtent 1 a.index a.index (headerBytes a) (a.recs.flatMap fun r => r.bytes)
          (bitW (wKey 0x40) 29 false (witU (fun w => { w with extents := es }) d))))) ∧
    (w.extents = e :: es → e.durable = false → e.type = 2 → journalDrives d = true → extentFits d e.lbas = false → bitR d (wKey 0x40) 29 = true →
      Lands (.extentDurable false) s d) ∧
    (w.sbDirty = true → journalDrives d = true → Lands .superblockWrite s
      (witU (fun v => { v with sbGen := w.sbGen + 1, sbDirty := false }) (jWrite ((w.sbGen + 1) % 2) (superblock d (w.sbGen + 1)) d))) ∧
    (bitR d (wKey 0x40) 20 = true → journalDrives d = true → bestSuper d = none → w.enPend = false → w.offCount = 0 →
      w.adopted = false → 16 + 1 ≤ ringEnd d → Runs .journalOpeningDone s fun d' =>
        bitR d' (wKey 0x40) 20 = false ∧ d'.wit.durable = some 0 ∧ d'.wit.restart = true ∧
        (∃ x, d'.wit.sealed_ = [x] ∧ x.kind = 2 ∧ x.index = 0 ∧ x.prev = 0 ∧ x.hPrev = zeros 32 ∧ x.recs = [] ∧ x.opening = 1 ∧ x.open_ = x.close ∧
          d'.wit.hLast = x.h) ∧
        ∃ y, d'.wit.cur = some y ∧ y.index = 1 ∧ y.prev = 0 ∧ y.recs = []) ∧
    (bitR d (wKey 0x40) 19 = true → w.caps = [] → w.closed = [] → (capDurable d w.capIndex || noDrives d) = true → Lands .journalClosed s
      (bitW (wKey 0x40) 31 false (bitW (wKey 0x40) 19 false d))) ∧
    (∀ j rs, w.halfJobs = (h, 0, true, j) :: rs → (∀ x ∈ w.recs, x.half ≠ h) → Lands (.witHalfDone h) s
      (postDev 0x64 [BitVec.ofNat 8 h, 0] (completeHeld j 0 0 (witU (fun w => { w with halfJobs := rs }) d))))) ∧
  (∀ (s : State) (c : Cmd) (a : Ashlar),
    let d := s.dev
    let w := d.wit
    let i := c.f 32 8
    let st := witStatus d c true [(16, 1), (17, 1), (20, 4), (24, 8), (32, 8), (40, 4), (44, 4)]
        (decide (4 < c.f 16 1) || decide (1 < c.f 17 1) || decide (c.f 24 8 % 64 ≠ 0)) []
    (st = 0 → c.f 16 1 = 0 → (w.sealed_.find? fun x => decide (x.index = i)) = some a → (headerBytes a).length ≤ c.f 44 4 →
      Lands (.evidenceRead c) s (complete c 0 (headerBytes a).length (dma c.fn (c.f 24 8) (headerBytes a) d))) ∧
    (st = 0 → c.f 16 1 ≠ 2 → c.f 16 1 ≠ 4 → (w.sealed_.find? fun x => decide (x.index = i)) = none →
      Lands (.evidenceRead c) s (complete c stBadState (ashlarGone d i) d)) ∧
    (st ≠ 0 → Lands (.evidenceRead c) s (completeSt c st d)) ∧
    Serves (.witRelease c) c s (witStatus d c false [(32, 8)] (witPresent d && !(isDurable d i)) [])
      (witU fun w => { w with released := some (max i (w.released.getD 0)) }) ∧
    (witStatus d c true [(16, 1), (24, 8), (44, 4)] (decide (15 < c.f 16 1) || decide (c.f 24 8 % 64 ≠ 0))
        [(decide (d.foot.lifecycle = 2), stBadState)] = 0 →
      let bs := ((List.range 4).filter fun k => bitOf (c.f 16 1) k).flatMap fun k =>
        certEntry (if k < 2 then deviceCert d k else aliasCert d (k - 2))
      Lands (.witCerts c) s (if bs.length ≤ c.f 44 4 then complete c 0 bs.length (dma c.fn (c.f 24 8) bs d)
        else complete c stBadParam bs.length d)) ∧
    Serves (.witCapRing c) c s
      (witStatus d c false [(24, 8), (32, 2)] (decide (c.f 24 8 % 4096 ≠ 0) || decide (1024 < c.f 32 2)) [])
      (witU fun w => { w with ringBase := c.f 24 8, ringSlots := c.f 32 2, ringNext := 0 }) ∧
    (witStatus d c false [(16, 1), (17, 1)] (decide (1 < c.f 16 1) || decide (1 < c.f 17 1))
        [(!(islandPresent d.variant (21 + c.f 16 1)), stAbsent),
         (decide (c.f 17 1 = 1) && w.relHalves.contains (c.f 16 1) && decide (unitStatus d (21 + c.f 16 1) ≠ 0), unitStatus d (21 + c.f 16 1)),
         (decide (c.f 17 1 = 0) && !(w.relHalves.contains (c.f 16 1)) && !(w.halfJobs.any fun j => decide (j.1 = c.f 16 1)) &&
           !(halfInUse d (1 - c.f 16 1) && !(w.halfJobs.any fun j => decide (j.1 = 1 - c.f 16 1 ∧ j.2.1 = 0))), stBadState)] = 0 →
      c.f 17 1 = 0 → w.relHalves.contains (c.f 16 1) = false → (w.halfJobs.any fun j => decide (j.1 = c.f 16 1)) = false → w.cur = some a →
      Lands (.witHalf c) s (noteHeld c (witU (fun w => { w with halfJobs := w.halfJobs ++ [(c.f 16 1, 0, false, hold d c)] }) d))) ∧
    Serves (.witStats c) c s
      (witStatus d c false [(17, 1), (24, 8)] (decide (1 < c.f 17 1) || decide (c.f 24 8 % 64 ≠ 0)) [])
      (fun d => dma c.fn (c.f 24 8) (((List.range 9).map fun i => wKey (0x100 + 8 * i)).flatMap fun k => leBytes 8 (ctrR d k))
        (if bitOf (c.f 17 1) 0 then ((List.range 9).map fun i => wKey (0x100 + 8 * i)).foldl (fun d k => ctrW k 0 d) d else d)))

/-! ### Ports and calibration (03, 04) -/

/-- R104–R106, R122: link states. Clause 73 ends in training or lock with the FEC and pause resolved, or begins again; training
in lock or back; lock makes the port UP; a loss holds it in HOLD or takes it down; what comes back in time makes it UP again;
remote fault is shown. R108, R109, R114, R120, R134: a frame too short, too long or with a bad FCS is counted and goes no
further; a good one is counted, stamped and sent on; received holds end with their time; the frame at the head of a transmit
hold leaves at its planned instant. -/
def Obligations.PortLinksCarryFramesAndPauses : Prop :=
  (∀ (s : State) (p n tech fec ext : Nat) (c0 c1 : Bool) (x y : Int) (on : Bool),
    let d := s.dev
    let k := pKey p 0x40
    let all := 2 ^ modeLanes (modeAct d p) - 1
    let mine := ((port d p).adv).getD (advert d p)
    let theirs := partnerWords tech fec c0 c1 ext
    (lstate d p = 1 → offers theirs (modeCfg d p) = false → Lands (.negotiationResolved p tech fec c0 c1 ext) s
      (bringUp p (postDev 0x32 (leBytes 1 p ++ leBytes 1 0 ++ leBytes 1 (2 * b2n c1 + b2n c0))
        (regW (pKey p 0x48) (Word.putBit theirs.2 31 true) (regW (pKey p 0x44) theirs.1 d))))) ∧
    (lstate d p = 1 → offers theirs (modeCfg d p) = true → p < 48 → Runs (.negotiationResolved p tech fec c0 c1 ext) s fun d' =>
      lstate d' p = (if ltEn d p then 2 else 3) ∧ (port d' p).negFec = some (resolveFec (modeCfg d p) mine theirs) ∧
      (port d' p).negPause = some (resolvePause mine theirs)) ∧
    (lstate d p = 2 → n % (all + 1) = all → Lands (.linkTrainingDone p n) s
      (setLstate p 3 (postDev 0x33 (leBytes 1 p ++ leBytes 1 all ++ leBytes 1 0) (fldW k 23 16 all d)))) ∧
    (lstate d p = 2 → n % (all + 1) ≠ all → anEn d p = true → Lands (.linkTrainingDone p n) s
      (setLstate p 1 (postDev 0x33 (leBytes 1 p ++ leBytes 1 (n % (all + 1)) ++ leBytes 1 (all - n % (all + 1)))
        (fldW k 23 16 (n % (all + 1)) d)))) ∧
    (lstate d p = 3 → Lands (.linkUp p x y) s
      (let d1 := setLstate p 4 (setTerms p x y (fldW k 23 16 all (bitW k 9 false (bitW k 8 (decide (fecAct d p ≠ 0)) (bitW k 7 true d)))))
       let d2 := postDev 0x30 (leBytes 1 p ++ leBytes 1 (modeAct d1 p) ++ leBytes 1 (fecAct d1 p)) d1
       flowUpdate p (plumbTouch p (guardUpdate p (if (port d2 p).lastFec = some (fecAct d2 p) then d2 else coursesUpdate d2))))) ∧
    (lstate d p = 4 → effF d (pKey p 0x24) 9 0 ≠ 0 → Lands (.linkSignalLoss p n false) s
      (setLstate p 5 (calLinkLost p (portU p (fun v => { v with downFrom := now d, downCause := n % 3 })
        (bitW k 7 false (bitW k 9 (decide (n % 3 = 2)) d)))))) ∧
    (lstate d p = 4 → effF d (pKey p 0x24) 9 0 = 0 → Lands (.linkSignalLoss p n true) s
      (restartLink p (n % 3) (bitW k 7 false (bitW k 9 (decide (n % 3 = 2)) (ctrInc (pKey p 0x150) d))))) ∧
    (lstate d p = 5 → (port d p).downFrom + holdDownTicks d p ≤ now d → Lands (.holdDownExpiry p) s
      (bringUp p (setLstate p 0 (linkDown p (port d p).downCause d)))) ∧
    (lstate d p = 5 → now d < (port d p).downFrom + holdDownTicks d p → Lands (.holdRecovered p x y) s
      (flowUpdate p (setLstate p 4 (setTerms p x y (bitW k 7 true (bitW k 9 false (ctrInc (pKey p 0x1F0) d))))))) ∧
    (lstate d p = 4 → bitR d k 10 ≠ on → Lands (.remoteFault p on) s
      (flowUpdate p (postDev 0x34 (leBytes 1 p ++ leBytes 1 (b2n on)) (bitW k 10 on d))))) ∧
  (∀ (s : State) (p sub q corr unc syms : Nat) (bs : Bytes) (bad : Bool),
    let d := s.dev
    let fec := ctrAdd (pKey p 0x1E0) syms (ctrAdd (pKey p 0x1D8) unc (ctrAdd (pKey p 0x1D0) corr d))
    let rx := Instr.frameRx p bs bad sub q corr unc syms
    let up : Prop := portPresent d.variant p = true ∧ d.fatal = false ∧ lstate d p = 4 ∧ loopCfg d p ≠ 2
    (up → bs.length + 4 < 64 → Lands rx s (ctrInc (pKey p (if bad then 0x140 else 0x130)) fec)) ∧
    (up → 64 ≤ bs.length + 4 → maxFrameRx d p < bs.length + 4 → Lands rx s (ctrInc (pKey p 0x138) fec)) ∧
    (up → 64 ≤ bs.length + 4 → bs.length + 4 ≤ maxFrameRx d p → bad = true → Lands rx s (ctrInc (pKey p 0x128) fec)) ∧
    (up → 64 ≤ bs.length + 4 → bs.length + 4 ≤ maxFrameRx d p → bad = false → be bs 12 2 = 0x8808 → flowRx d p = false →
      Lands rx s (ctrInc (pKey p 0x148) fec)) ∧
    (up → 64 ≤ bs.length + 4 → bs.length + 4 ≤ maxFrameRx d p → bad = false → be bs 12 2 = 0x8808 → flowRx d p = true →
      flowKind d false p = 1 → be bs 14 2 = 1 → Runs rx s fun d' =>
        (port d' p).pauseUntil = setAt (port d p).pauseUntil 8 (now d + quantaTicks d p (be bs 16 2)) ∧ d'.xings = d.xings) ∧
    (up → 64 ≤ bs.length + 4 → bs.length + 4 ≤ maxFrameRx d p → bad = false → be bs 12 2 ≠ 0x8808 → (port d p).cal = none →
      Lands rx s (flowUpdate p (passIngress p sub q bs (countGood p bs fec)))) ∧
    (portPresent d.variant p = true → d.fatal = false → lstate d p = 6 → padTo 60 bs ∉ (port d p).looped → Lands rx s fec) ∧
    (pauseRunning d p = false → bitR d (pKey p 0x40) 24 = true → Lands (.pauseExpiry p) s
      (ctrAdd (pKey p 0x1F8) ((now d - (port d p).pausedFrom) * modeRate (modeAct d p) / 512) (bitW (pKey p 0x40) 24 false d))) ∧
    (∀ t, (port d p).xoff = some t → t + quantaTicks d p (quanta d p) / 2 ≤ now d → flowTx d p = true → mayTransmit d p = true →
      Lands (.pauseRepeat p) s
        (emit (.frame p (flowFrame d p (quanta d p))) (ctrInc (pKey p 0x1C0) (portU p (fun x => { x with xoff := some (now d) }) d)))) ∧
    (∀ h rest, (port d p).hold = h :: rest → lstate d p = 4 ∨ lstate d p = 6 → bitR d (pKey p 0x40) 10 = false → d.fatal = false →
      h.plan ≤ fretQ d p + (rep d (portIsland p) (portString d p)).incr / 2 ^ 32 → Lands (.txLaunch p) s
        (launch p h (portU p (fun x => { x with hold := rest }) d))))

/-- R113, R115: the port commands. Those that name a port run in the order taken: PORT_LINK_RESTART takes the link down and
completes once the port has left DISABLED; PORT_STATS reads the 32 counters and clears them if asked. An island's reset waits
for an earlier one of the same island, and ends when its fret is valid and its ports have left DISABLED. R139, R141, R144–R149:
calibration. Its commands are served in the order taken, one at a time; an update with the wrong version is refused, one that is
written makes the new table, one that fails in flash leaves the table as it was; a measurement's frames are sent, returned and
lost; a port's new entries apply at an inter-frame gap of each direction. -/
def Obligations.PortAndCalibrationCommandsAreServed : Prop :=
  (∀ (s : State) (c : Cmd) (n : Nat),
    let d := s.dev
    let p := c.f 16 1
    let note := noteHeld c (portU p (fun x => { x with cmds := x.cmds ++ [hold d c] }) d)
    let isl := firstStatus [
      (decide (c.fn ≠ 0) || (cmdSelf c).isNone, stNotPermitted),
      (!(reservedOk c [(16, 1)]) || decide (p = 0) || decide (8 < p), stBadParam),
      (decide (unitStatus d p = 0x23), stAbsent), (decide (unitStatus d p = 0x24), stUnitOff)]
    Defers (.portLinkRestart c) c s (portCmdStatus d c) (fun _ => portRun p note) ∧
    (portCmdStatus d c = 0 → c.opcode ≠ 0x32 → (port d p).cmds = [] → (port d p).restarting = false → (port d p).cal = none →
      let down := enable p (disablePort p 3 (cutRx p note))
      Lands (.portLinkRestart c) s (if lstate down p = 0 then portU p (fun x => { x with restarting := true }) down
        else completeHeld (hold d c) 0 0 (portU p (fun x => { x with cmds := [], restarting := false }) down))) ∧
    Defers (.portStats c) c s (portCmdStatus d c) (fun _ => portRun p note) ∧
    (portCmdStatus d c = 0 → c.opcode = 0x32 → (port d p).cmds = [] → (port d p).restarting = false → Lands (.portStats c) s
      (completeHeld (hold d c) 0 0 (portU p (fun x => { x with cmds := [], restarting := false })
        (dma c.fn (c.f 24 8) (ctrBytes d (pKey p 0x100) 32) (if c.f 17 1 = 1 then ctrClear (pKey p 0x100) 32 note else note))))) ∧
    ((d.islJobs.any fun j => decide (j.1 = p)) = true → Defers (.portIslandReset c) c s isl
      (fun d => noteHeld c { d with islJobs := d.islJobs ++ [(p, hold d c)] })) ∧
    ((d.islJobs.any fun j => decide (j.1 = p)) = false → Defers (.portIslandReset c) c s isl
      (fun d => startIslandReset p (noteHeld c { d with islJobs := d.islJobs ++ [(p, hold d c)] }))) ∧
    (∀ h, d.islJobs = [(n, h)] → fretValid d n = true → (∀ q ∈ islandUsers d n, modeCfg d q = 0 ∨ subsumed d q = true ∨ lstate d q ≠ 0) →
      Lands (.islandReady n) s (postDev 0x35 (leBytes 1 n) (completeHeld h 0 0 { d with islJobs := [] })))) ∧
  (∀ (s : State) (c : Cmd) (n p sub a : Nat) (tx : Bool) (r : CalRun),
    let d := s.dev
    let note := noteHeld c { d with calQ := [] }
    (d.calQ ≠ [] → calBusy d = true → Lands (.calUpdate c n) s (noteHeld c { d with calQ := d.calQ ++ [(hold d c, n % 3)] })) ∧
    (d.calQ = [] → calBusy d = false → c.opcode = 0x38 → calUpdateStatus d c ≠ 0 → Lands (.calUpdate c n) s
      (completeHeld (hold d c) (calUpdateStatus d c) 0 note)) ∧
    (d.calQ = [] → calBusy d = false → c.opcode = 0x38 → calUpdateStatus d c = 0 → c.f 16 1 ≠ 0 → n % 3 = 0 → Runs (.calUpdate c n) s fun d' =>
      d'.cal = some (calNew d (calItems d c)) ∧ (d.calSect = [none, none] → d'.calSect = [d'.cal, none])) ∧
    (d.calQ = [] → calBusy d = false → c.opcode = 0x38 → calUpdateStatus d c = 0 → c.f 16 1 ≠ 0 → n % 3 ≠ 0 → Runs (.calUpdate c n) s fun d' =>
      d'.cal = d.cal ∧ d'.calSect = d.calSect ∧ bitR d' 0xF00010 2 = true) ∧
    (d.calQ = [] → calBusy d = false → c.opcode = 0x39 → calMeasureStatus d c ≠ 0 → Lands (.calMeasure c) s
      (completeHeld (hold d c) (calMeasureStatus d c) 0 note)) ∧
    (d.calQ = [] → calBusy d = false → c.opcode = 0x39 → calMeasureStatus d c = 0 → c.f 18 2 ≠ 0 → Runs (.calMeasure c) s fun d' =>
      (∃ x, (port d' (c.f 16 1)).cal = some x ∧ x.kind = c.f 17 1 ∧ x.count = c.f 18 2 ∧ x.sent = 0 ∧ x.run = d.calRuns) ∧
      d'.calRuns = (d.calRuns + 1) % 2 ^ 32 ∧ d'.cal = d.cal) ∧
    (d.calQ = [] → calBusy d = false → c.opcode = 0x3A → c.fn = 0 → cmdSelf c ≠ none → reservedOk c [(24, 8)] = true → c.f 24 8 % 64 = 0 →
      Lands (.calRead c) s (completeHeld (hold d c) 0 0
        (dma c.fn (c.f 24 8) (match d.cal with | some i => calImage i | none => zeros 12352) note))) ∧
    ((if tx then (port d p).oldTx else (port d p).oldRx) = [] → Lands (.calEntryApply p tx) s d) ∧
    ((if tx then (port d p).oldTx else (port d p).oldRx) ≠ [] → (tx = true → (port d p).busyUntil ≤ now d) → (port d p).cal = none →
      let slot := calSlot (modeAct d p) (fecAct d p)
      let was := ((if tx then (port d p).oldTx else (port d p).oldRx).find? fun e => decide (e.1 = slot)).map fun e => (slot, now d, e.2)
      Lands (.calEntryApply p tx) s (calPortStat p (portU p (fun x =>
        if tx then { x with oldTx := [], prevTx := was.or x.prevTx } else { x with oldRx := [], prevRx := was.or x.prevRx }) d))) ∧
    ((port d p).cal = some r → r.sent < r.count → (port d p).busyUntil ≤ now d → (port d p).hold = [] →
      r.sent = 0 ∨ r.last + 1000 ≤ now d → r.out = [] → mayTransmit d p = true ∨ lstate d p = 6 →
      Runs (.calFrameTx p sub a) s fun d' =>
        d'.out = (if lstate d p = 6 then d.out else .frame p (calFrame p r.run r.sent) :: d.out) ∧
        (port d' p).looped = (port d p).looped ++ (if lstate d p = 6 then [calFrame p r.run r.sent] else []) ∧
        ∃ x, (port d' p).cal = some x ∧ x.sent = r.sent + 1 ∧ x.last = now d ∧ (x.out.map fun o => o.seq) = [r.sent] ∧ x.lost = r.lost) ∧
    (∀ o rest, (port d p).cal = some r → r.out = o :: rest → calLost d o = true → r.sent < r.count → r.straddled = false →
      r.linkLost = false → Lands (.calFrameLost p) s
        (portU p (fun x => { x with cal := some { r with out := rest, lost := r.lost + 1 } }) d)))

/-! ### Classification (05) -/

/-- R172, R173, R187: one table insert. An insert that is applied is found by its key as it was stored, and every entry already
in the table is still found: none is lost, whatever it displaced. One that is not applied leaves every table as it was.
A table whose keys are distinct stays so. -/
def Obligations.InsertsFindTheirEntryAndLoseNone : Prop :=
  ∀ (d : Dev) (c : Cmd) (t : Nat) (e : Bytes), e.length = 64 →
    (ltable d t).ents.Pairwise (fun a b => eKey a.bytes ≠ eKey b.bytes) →
    let r := tblInsert1 c t e d
    (r.1 = 0 → lookup d t (eKey e) = none ∧ lookup r.2 t (eKey e) = some (storedEnt e (actor d c)) ∧
      (∀ k, k ≠ eKey e → lookup r.2 t k = lookup d t k) ∧
      (ltable r.2 t).ents.Pairwise (fun a b => eKey a.bytes ≠ eKey b.bytes) ∧
      (ltable r.2 t).ents.length = (ltable d t).ents.length + 1) ∧
    (r.1 ≠ 0 → r.2.tables = d.tables) ∧ (∀ u, u ≠ t → ltable r.2 u = ltable d u)

/-- R173, R186, R187: one table modify or delete. A modify that is applied replaces the entry's action and keeps its owner, and
a delete that is applied makes the key absent; no other key's entry changes; one that fails changes nothing. R186, R187: the
classification commands that apply items complete SUCCESS with DONE and RESULT, whatever their items; a COUNT of 0 applies
nothing. -/
def Obligations.TableItemsTouchTheirKeyAndReport : Prop :=
  (∀ (d : Dev) (c : Cmd) (t : Nat) (e : Bytes), e.length = 64 →
    let m := tblModify1 c t e d
    let x := tblDelete1 c t e d
    (m.1 = 0 → (∃ o, lookup d t (eKey e) = some o ∧ lookup m.2 t (eKey e) = some (storedEnt e (eOwner o))) ∧
      ∀ k, k ≠ eKey e → lookup m.2 t k = lookup d t k) ∧
    (m.1 ≠ 0 → m.2 = d) ∧
    (x.1 = 0 → lookup d t (eKey e) ≠ none ∧ lookup x.2 t (eKey e) = none ∧ ∀ k, k ≠ eKey e → lookup x.2 t k = lookup d t k) ∧
    (x.1 ≠ 0 → x.2 = d) ∧
    (tblEn d t = false → m.1 = 6 ∧ x.1 = 6) ∧
    (tblEn d t = true → lookup d t (eKey e) = none → x.1 = 2)) ∧
  (∀ (s : State) (c : Cmd),
    let d := s.dev
    let badBuf := decide (256 < cCount c) || decide (cBuf c % 64 ≠ 0)
    let items := classStatus d c [(18, 2), (24, 8)] badBuf false
    let one (n : Nat) (f : Bytes → Dev → Nat × Dev) (d : Dev) : Dev :=
      let r := f (dmaRead d c.fn (cBuf c) n) d
      complete c 0 (if r.1 = 0 then 1 else r.1 * 65536) r.2
    (tblStatus d c ≠ 0 → Lands (.tblInsert c) s (completeSt c (tblStatus d c) d) ∧ Lands (.tblModify c) s (completeSt c (tblStatus d c) d) ∧
      Lands (.tblDelete c) s (completeSt c (tblStatus d c) d)) ∧
    (items ≠ 0 → Lands (.sessionSet c) s (completeSt c items d) ∧ Lands (.policerSet c) s (completeSt c items d)) ∧
    (tblStatus d c = 0 → cCount c = 0 → Lands (.tblInsert c) s (complete c 0 0 d) ∧ Lands (.tblModify c) s (complete c 0 0 d) ∧
      Lands (.tblDelete c) s (complete c 0 0 d)) ∧
    (tblStatus d c = 0 → cCount c = 1 → Lands (.tblInsert c) s (one 64 (tblInsert1 c (c.f 16 1)) d) ∧
      Lands (.tblModify c) s (one 64 (tblModify1 c (c.f 16 1)) d) ∧ Lands (.tblDelete c) s (one 64 (tblDelete1 c (c.f 16 1)) d)) ∧
    (items = 0 → cCount c = 1 → Lands (.sessionSet c) s (one 16 (sessionSet1 c) d) ∧ Lands (.policerSet c) s (one 32 (policerSet1 c) d)) ∧
    (∀ n f, cCount c ≤ n → ∃ done res e, applyItems c 64 f d = complete c 0 (done + res * 65536) e ∧ done ≤ n ∧ (res = 0 ↔ done = cCount c)))

/-- R184, R186, R188: the reads, the clear and the load spreading. A policer's item sets both buckets full; a session's sets its
flags and its owner; a clear deletes what its issuer may delete. R102, R152, R153, R162, R163, R175, R189: a frame at its
ingress pipe. It leaves the crossing, is short-parsed, and waits for its deep parser or is looked up; a deep parse or a DRAM
lookup that ends sends it on; what was shed is reported. -/
def Obligations.FramesAreClassifiedByTheirTables : Prop :=
  (∀ (s : State) (c : Cmd) (it : Bytes),
    let d := s.dev
    let f := actor d c
    let rss := classStatus d c [(16, 1), (17, 1), (18, 1), (19, 1), (20, 2), (22, 2), (24, 8)]
        (decide (2 ≤ c.f 16 1) || decide (64 ≤ c.f 18 1) || decide (4096 < c.f 22 2) || decide (2 ^ (if isVf f then 9 else 12) < c.f 20 2 + c.f 22 2) ||
          decide (cBuf c % 64 ≠ 0) ||
          (bitOf (c.f 16 1) 0 && (decide (1 < c.f 17 1) || decide (c.f 19 1 < 6) || decide ((if isVf f then 9 else 12) < c.f 19 1)))) false
    ((policerSet1 c it d).1 = 0 → u8 it 2 = 2 → 0 < le it 4 4 →
      policer (policerSet1 c it d).2 (le it 0 2) = { policer d (le it 0 2) with mode := 2, aware := decide (u8 it 3 = 1), cir := le it 4 4, pir := le it 8 4, cbs := le it 12 4, ebs := le it 16 4, tick := now d, cRest := 0, eRest := 0, c := le it 12 4 * polByte, e := le it 16 4 * polByte }) ∧
    ((sessionSet1 c it d).1 = 0 → bitOf (le it 4 2) 2 = false →
      session (sessionSet1 c it d).2 (le it 0 4) = { session d (le it 0 4) with flags := le it 4 2 % 4, policer := le it 6 2, tag := le it 8 4, owner := sessOwner d c (le it 0 4), made := true }) ∧
    ((policerSet1 c it d).1 ≠ 0 → (policerSet1 c it d).2 = d) ∧ ((sessionSet1 c it d).1 ≠ 0 → (sessionSet1 c it d).2 = d) ∧
    (cCount c = 0 → Serves (.tblRead c) c s (tblStatus d c) (fun d => d)) ∧
    (cCount c = 1 → Serves (.tblRead c) c s (tblStatus d c) (fun d =>
      let e := dmaRead d c.fn (cBuf c) 64
      match (if tblEn d (c.f 16 1) then lookup d (c.f 16 1) (eKey e) else none) with
      | some o => if mayAct c.fn (eOwner o) then dma c.fn (cBuf c) o d else dma c.fn (cBuf c + 53) (leBytes 1 (u8 e 53 / 2 * 2)) d
      | none => dma c.fn (cBuf c + 53) (leBytes 1 (u8 e 53 / 2 * 2)) d)) ∧
    Serves (.tblClear c) c s (classStatus d c [(16, 1)] (decide (7 < c.f 16 1)) false) (fun d => ltableU (c.f 16 1) (fun x => { x with
      ents := x.ents.filter fun y => !(if f = c.fn then mayAct c.fn (eOwner y.bytes) else decide (eOwner y.bytes = f)) }) d) ∧
    Serves (.sessionRead c) c s (classStatus d c [(18, 2), (20, 4), (24, 8)] (decide (64 < cCount c) || decide (cBuf c % 64 ≠ 0) ||
        (decide (cCount c ≠ 0) && decide (sessionSlots d < c.f 20 4 + cCount c))) false)
      (fun d => dma c.fn (cBuf c) ((List.range (cCount c)).flatMap fun i =>
        if mayAct c.fn (session d (c.f 20 4 + i)).owner then sessionBytes (session d (c.f 20 4 + i)) else zeros 64) d) ∧
    Serves (.policerRead c) c s (classStatus d c [(20, 2), (24, 8)] (decide (cBuf c % 64 ≠ 0)) (!(mayUse d c 8 (c.f 20 2) false)))
      (fun d => dma c.fn (cBuf c)
        (let p := polRefill (now d) (policer d (c.f 20 2))
         leBytes 2 (c.f 20 2) ++ leBytes 1 p.mode ++ leBytes 1 (b2n p.aware) ++ leBytes 4 p.cir ++ leBytes 4 p.pir ++ leBytes 4 p.cbs ++
           leBytes 4 p.ebs ++ zeros 12 ++ leBytes 4 (p.c / polByte) ++ leBytes 4 (p.e / polByte) ++ (p.counts.flatMap (leBytes 8))) d) ∧
    (bitOf (c.f 16 1) 0 = false → Serves (.rssSet c) c s rss (fun d => { d with rss := Tbl.upd (fun _ => {}) d.rss f fun x => { x with
      table := (List.range (c.f 22 2)).foldl (fun t i => Tbl.set (fun _ => 0) t (c.f 20 2 + i)
        (le (dmaRead d c.fn (cBuf c + 64) (2 * c.f 22 2)) (2 * i) 2)) x.table } })) ∧
    (bitOf (c.f 16 1) 0 = true → c.f 22 2 = 0 → Serves (.rssSet c) c s rss (fun d => { d with rss := Tbl.upd (fun _ => {}) d.rss f fun x =>
      { x with kind := c.f 17 1, fields := c.f 18 1, log2 := c.f 19 1, key := dmaRead d c.fn (cBuf c) 40 } }))) ∧
  (∀ (s : State) (i chan : Nat) (f : Frame) (poi : Bool),
    let d := s.dev
    (∀ src rest, d.xings = ⟨src, ipIsland i, true, .ingress f⟩ :: rest → modeCfg d f.port ≠ 8 → Lands (.ingressFrame i) s
      (flowUpdate f.port (pipeFrame i f { d with xings := rest }))) ∧
    (∀ src rest w, d.xings = ⟨src, ipIsland i, true, .ingress f⟩ :: rest → modeCfg d f.port = 8 → w ∈ d.dramQ → w.frame.port = f.port → w.frame.order < f.order →
      Lands (.ingressFrame i) s d) ∧
    (∀ pipe rest, d.deepQ = (i, pipe, f) :: rest → graphEn d i = true → tablesOn d = true → Lands (.deepParse i) s
      (let e := { d with deepQ := rest }
       flowUpdate f.port (lookupFrame pipe (deepResult e i f) (ctrInc (deepCtr i 0) e)))) ∧
    (∀ pipe rest, d.deepQ = (i, pipe, f) :: rest → graphEn d i = true → tablesOn d = false → Lands (.deepParse i) s
      (let e := { d with deepQ := rest }
       flowUpdate f.port (lookupFrame pipe { f with pflags := f.pflags ||| 36 } (ctrInc (deepCtr i 8) e)))) ∧
    (∀ w rest, d.dramQ = w :: rest → w.pipe = i → Lands (.dramLookupDone i poi chan) s
      (let e := { d with dramQ := rest }
       let g := if poi then lookupPoison w.table (chan % 8) e else e
       flowUpdate w.frame.port (classified i w.frame (actOf w.miss (if poi then none else w.ent)) g))) ∧
    (rateDue d (rateKey 0x42 0) = true → Lands .dramShed s
      (postDev 0x42 (leBytes 4 (rateOf d (rateKey 0x42 0)).count) (rateClear (rateKey 0x42 0) d))))

/-! ### Courses, buffer, schedulers and plumbs (06, 08, 09, 10) -/

/-- R202: every frame a course releases takes the course's next sequence, which then counts up by one and wraps at 2^64, whatever
the frame, its destination, its flags and whether it is drained. -/
def Obligations.ReleaseConsumesOneSequenceNumber : Prop :=
  ∀ (d : Dev) (c : Nat) (f : Frame) (fl : Nat) (test drain : Bool), c < 4 →
    nextSeq (releaseFrame c f fl test drain d) c = (nextSeq d c + 1) % 2 ^ 64

/-- R199, R200, R206, R209–R211, R214, R220: intake and release. A frame of the course's string and epoch ahead of the front is
held in arrival order, one behind it is released LATE at once; the earliest held frame is released when the string reads its
time + W, and not before; a course that is off takes nothing. R209, R211, R221, R224, R225: course events are posted with their
counts, and the course commands are served: SEQ_SET only while the course is off, DRAIN releases everything held, in order and
EARLY. -/
def Obligations.CoursesHoldReleaseAndServe : Prop :=
  (∀ (s : State) (c src : Nat) (f : Frame) (rest : List Xing),
    let d := s.dev
    let e := { d with xings := rest }
    let arrives : Prop := d.xings = ⟨src, csIsland, true, .course c f⟩ :: rest
    let inOrder : Prop := courseOn d c = true ∧ isMember d c f.port = true ∧ f.str = courseStr d c ∧ f.ep = (course d c).tag ∧
      (course d c).drainTick = none
    (arrives → courseOn d c = false → Lands (.courseIntake c) s (finishRec f true (ctrInc (coKey c 0x150) e))) ∧
    (arrives → inOrder → (∀ t, (course d c).front = some t → t < f.stamp) → (course d c).held.length < 65536 →
      courseNow d c ≤ fQ f + courseW d c * 65536 → Lands (.courseIntake c) s
        (setOcc c (courseU c (fun x => { x with held := x.held ++ [⟨f, x.arrSeq⟩], arrSeq := x.arrSeq + 1 }) e))) ∧
    (∀ t, arrives → inOrder → (course d c).front = some t → f.stamp < t → Lands (.courseIntake c) s
      (releaseFrame c f 1 true false (rateNote (rateKey 0x52 c) 0 e))) ∧
    (∀ t, arrives → inOrder → (course d c).front = some t → f.stamp = t → Lands (.courseIntake c) s
      (releaseFrame c f 3 true false (rateNote (rateKey 0x52 c) 0 e))) ∧
    (arrives → courseOn d c = true → isMember d c f.port = true → f.str ≠ courseStr d c → Lands (.courseIntake c) s
      (releaseFrame c f 4 false false (ctrInc (coKey c 0x138) e))) ∧
    (∀ h, (course d c).held = [h] → (course d c).tieFirst = none → courseOn d c = true → islandOn d csIsland = true →
      r17Q h.frame.stamp + courseW d c * 65536 ≤ courseNow d c → Lands (.courseRelease c) s
        (releaseFrame c h.frame 0 true false (setOcc c (courseU c (fun x => { x with held := [], tieFirst := none }) d)))) ∧
    (∀ t, lowest (course d c).held = some t → courseNow d c < r17Q t + courseW d c * 65536 → Lands (.courseRelease c) s d) ∧
    (∀ t, (course d c).drainTick = some t → t + courseW d c < now d → Lands (.epochWindowEnd c) s
      (courseU c (fun x => { x with drainTick := none }) d)) ∧
    (∀ w t, (course d c).shrink = some (w, t) → t ≤ now d → Lands (.wShrink c) s
      (shortUpdate c (setW c w (bitW (coKey c 0x40) 29 false (courseU c (fun x => { x with shrink := none }) d)))))) ∧
  (∀ (s : State) (c : Cmd) (n : Nat),
    let d := s.dev
    let k := c.f 16 1
    (rateDue d (rateKey 0x52 n) = true → Lands (.courseLate n) s
      (postDev 0x52 (leBytes 1 n ++ leBytes 4 (rateOf d (rateKey 0x52 n)).count) (rateClear (rateKey 0x52 n) d))) ∧
    (rateDue d (rateKey 0x53 n) = true → Lands (.courseEarly n) s
      (postDev 0x53 (leBytes 1 n ++ leBytes 4 (rateOf d (rateKey 0x53 n)).count) (rateClear (rateKey 0x53 n) d))) ∧
    Serves (.courseSeqSet c) c s (courseStatus d c [(24, 8)] false (courseOn d k)) (setSeq k (c.f 24 8)) ∧
    (courseStatus d c [] false false = 0 → courseOn d k = true → Lands (.courseDrain c) s
      (complete c 0 (course d k).held.length (postDrained k (course d k).held.length 2 (releaseAll k 8 d)))) ∧
    (courseStatus d c [] false false = 0 → courseOn d k = false → Lands (.courseDrain c) s (complete c 0 0 d)) ∧
    (courseStatus d c [] false false ≠ 0 → Lands (.courseDrain c) s (completeSt c (courseStatus d c [] false false) d)) ∧
    Serves (.courseStats c) c s (courseStatus d c [(17, 1), (24, 8)] (decide (1 < c.f 17 1) || decide (c.f 24 8 % 64 ≠ 0)) false)
      (fun d => dma c.fn (c.f 24 8) (ctrBytes d (coKey k 0x100) 12) (if c.f 17 1 = 1 then ctrClear (coKey k 0x100) 12 d else d)))

/-- R106, R108, R336, R338, R342: a frame at its egress pipe. It joins the end of its queue if it is admitted; one too long, with no link
to wait for, or not admitted is discarded and counted; refusals are reported at most once a second. -/
def Obligations.EgressQueuesAdmitOrCount : Prop :=
  ∀ (s : State) (pipe src p q : Nat) (f : Frame) (rest : List Xing),
    let d := s.dev
    let e := { d with xings := rest }
    let k (i : Nat) : Nat := rateKey 0x72 i
    let col := if f.fromFn.isSome then 0 else f.colour % 3
    let arrives : Prop := d.xings = ⟨src, epIsland pipe, true, .egress p q f⟩ :: rest
    let fits : Prop := lenAsSent f.bytes.length ≤ maxFrame d p
    (arrives → fits → mayQueue d p = true → admitted e p q f = true → Lands (.egressEnqueue pipe) s (egqW p q (egq d p q ++ [f]) e)) ∧
    (arrives → fits → mayQueue d p = true → admitted e p q f = false → Lands (.egressEnqueue pipe) s
      (deliveryDrop f (dropPkt f 6 (rateNote (k col) 0 (ctrInc (sKey p (0x3010 + 0x20 * q)) (ctrInc (0x7C0200 + 8 * col) e)))))) ∧
    (arrives → fits → mayQueue d p = false → Lands (.egressEnqueue pipe) s (discardTx p 4 f e)) ∧
    (arrives → ¬ fits → Lands (.egressEnqueue pipe) s (deliveryDrop f (endPkt false f 5 (ctrInc (pKey p 0x1C8) e)))) ∧
    (admitted d p q f = true → f.fromFn = none → f.colour ≠ 0 →
      let th := effF d ((if f.colour = 1 then 0x7C0100 else 0x7C0104) + 8 * f.cls) 16 0
      th = 0 ∨ bufCells d * 256 < th * 1024) ∧
    (rateDue d (k 0) = true ∨ rateDue d (k 1) = true ∨ rateDue d (k 2) = true → Lands .admissionDrop s
      (rateClear (k 0) (rateClear (k 1) (rateClear (k 2)
        (postDev 0x72 (leBytes 4 (rateOf d (k 0)).count ++ leBytes 4 (rateOf d (k 1)).count ++ leBytes 4 (rateOf d (k 2)).count) d)))))

/-- R322, R332: whatever the port's lead, marks and queues, a choice of the next frame takes at most one frame, the head of its queue,
and only from a queue whose gate is open at the planned instant, outside its guard band, whose shaper permits it, which
no received pause stops, and, above the strict queues, whose weight is not 0. -/
def Obligations.OnlyEligibleQueuesStartFrames : Prop :=
  ∀ (s t : State) (p lead a : Nat), exec (.schedulerSelect p lead a) s = .next t →
    let d := s.dev
    let at_ := txStampQ d p ((portQ d p + lead : Nat) : Int) a
    ∀ p' q, egq t.dev p' q ≠ egq d p' q → q < 16 → p' < 48 → p < 48 →
      p' = p ∧ egq t.dev p q = (egq d p q).drop 1 ∧ openFor d p q at_ = true ∧ guardOk d p q at_ = true ∧ canStart d p = true ∧
      shaperOpen d p 16 = true ∧ inIdle d p a lead = false

/-- R323, R328, R330, R334, R341: strict queues go first, the lowest number first; gates follow their list and the pending
configuration takes over at its start; overruns and statistics are reported. R346–R351, R353, R359: plumb packets. One for a
group that takes none completes with its status; a copy is sent at its instant, or ends unsent with the first status that
applies; what was missed is reported. -/
def Obligations.SchedulesAndPlumbCopiesFollowTheirTimes : Prop :=
  (∀ (s : State) (c : Cmd) (p q lead a : Nat),
    let d := s.dev
    let plan := portQ d p + lead
    let at_ := txStampQ d p (plan : Int) a
    let k := rateKey 0x71 p
    (canStart d p = true → shaperOpen d p 16 = true → inIdle d p a lead = false → q < 4 → openFor d p q at_ = true →
      (∀ r < q, openFor d p r at_ = false) → (∀ r < 16, openFor d p r at_ = true → guardOk d p r at_ = true) →
      Lands (.schedulerSelect p lead a) s (startFrame p q plan a
        (schedU p (fun x => if x.inTurn && !(decide (x.ptr < 16) && openFor d p x.ptr at_) then endTurn9 x else x) d))) ∧
    (canStart d p = true → (∀ r < 16, openFor d p r at_ = false) → Lands (.schedulerSelect p lead a) s
      (schedU p (fun x => if x.inTurn then endTurn9 x else x) d)) ∧
    (canStart d p = false → Lands (.schedulerSelect p lead a) s d) ∧
    ((schedP d p).gateOn = true → Lands (.gateEntryChange p) s (gateRegs p d)) ∧
    ((schedP d p).gateOn = true → (port d p).lineQ = none → Lands (.gateEntryChange p) s
      (fldW (sKey p 0x40) 24 16 (gatesAt (schedP d p) (portQ d p)).1 (fldW (sKey p 0x40) 15 0 (gatesAt (schedP d p) (portQ d p)).2 d))) ∧
    (∀ n, (schedP d p).pend = some n → n.start ≤ portQ d p → Lands (.configChangeTime p) s
      (postDev 0x70 (leBytes 1 p ++ leBytes 2 n.list.length ++ leBytes 4 n.cycle) (gateRegs p (shortUpdate9 p
        (ctrInc (sKey p 0x3208) (bitW (sKey p 0x40) 30 false (schedU p (fun x => { x with oper := some n, pend := none }) d))))))) ∧
    (∀ n, (schedP d p).pend = some n → portQ d p < n.start → Lands (.configChangeTime p) s d) ∧
    (rateDue d k = true → Lands (.gateOverrun p) s
      (postDev 0x71 (leBytes 1 p ++ leBytes 1 (rateOf d k).detail ++ leBytes 4 (rateOf d k).count) (rateClear k d))) ∧
    Serves (.schedStats c) c s (firstStatus [
        (decide (c.fn ≠ 0) || (cmdSelf c).isNone, stNotPermitted),
        (!(reservedOk c [(16, 1), (17, 1), (24, 8)]) || decide (1 < c.f 17 1) || decide (48 ≤ c.f 16 1) || decide (c.f 24 8 % 64 ≠ 0), stBadParam),
        (!(portPresent d.variant (c.f 16 1)), stAbsent), (!(islandOn d (epIsland (egressPipe d (c.f 16 1)))), stUnitOff)])
      (fun d => dma c.fn (c.f 24 8) (ctrBytes d (sKey (c.f 16 1) 0x3000) 67)
        (if c.f 17 1 = 1 then ctrClear (sKey (c.f 16 1) 0x3000) 67 d else d))) ∧
  (∀ (s : State) (cmd : Cmd) (g p src : Nat) (f : Frame) (rest : List Xing) (phase : Int) (am : List (Nat × Nat)) (c : PCopy) (k : TxPkt),
    let d := s.dev
    let pipe := egressPipe d (fldR d (gKey g 0x40) 21 16)
    let at_ : Int := repQ d (portIsland p) c.str 0
    let step : Int := ((rep d (portIsland p) c.str).incr / 2 ^ 32 : Nat)
    let ready : Prop := nextCopy p d.copies = some c ∧ (d.pkts.find? fun k => decide (k.id = c.pkt)) = some k ∧ c.tL ≤ at_ + step
    (d.xings = ⟨src, epIsland pipe, true, .plumb g f⟩ :: rest → framePkt d f = some k → bitR d (gKey g 0x40) 31 = false →
      Lands (.plumbEnqueue g phase am) s (txComplete k.id { status := 0x0B, len := segBytes k.segs } { d with xings := rest })) ∧
    (nextCopy p d.copies = some c → at_ + step < c.tL → Lands (.plumbLaunch p) s d) ∧
    (ready → inLock d c.lock p = false → Lands (.plumbLaunch p) s (copyMissed c (ctrInc (gKey c.group 0x118) d))) ∧
    (ready → inLock d c.lock p = true → lstate d p ≠ 4 → Lands (.plumbLaunch p) s
      (copyUnsent c.pkt c.group p 4 c.wit (ctrInc (gKey c.group 0x120) (copyRemove c d)))) ∧
    (ready → inLock d c.lock p = true → aligned d c.lock p = true → at_ ≤ c.tL + step → mayTransmit d p = true →
      (port d p).busyUntil ≤ now d → Lands (.plumbLaunch p) s (copySend c k d)) ∧
    (ready → inLock d c.lock p = true → lstate d p = 4 → aligned d c.lock p = false → Lands (.plumbLaunch p) s
      (copyMissed c (ctrInc (gKey c.group 0x118) d))) ∧
    (ready → inLock d c.lock p = true → aligned d c.lock p = true → lstate d p = 4 → now d < (port d p).busyUntil → Lands (.plumbLaunch p) s (copyMissed c d)) ∧
    (d.copies = [c] → c.group = g → c.tick + 1500000000 ≤ now d → Lands (.plumbCopyTimeout g) s (copyMissed c d)) ∧
    (rateDue d (rateKey 0x80 g) = true → Lands (.plumbMissed g) s
      (postDev 0x80 (leBytes 1 g ++ leBytes 4 (rateOf d (rateKey 0x80 g)).count) (rateClear (rateKey 0x80 g) d))) ∧
    Serves (.plumbStats cmd) cmd s (firstStatus [
        (decide (cmd.fn ≠ 0) || (cmdSelf cmd).isNone, stNotPermitted),
        (!(reservedOk cmd [(16, 1), (17, 1), (24, 8)]) || decide (1 < cmd.f 17 1) || decide (64 ≤ cmd.f 16 1) || decide (cmd.f 24 8 % 64 ≠ 0), stBadParam)])
      (fun d => dma cmd.fn (cmd.f 24 8) (ctrBytes d (gKey (cmd.f 16 1) 0x100) 7)
        (if cmd.f 17 1 = 1 then ctrClear (gKey (cmd.f 16 1) 0x100) 7 d else d)))

/-! ### Queues and rings (08) -/

/-- R282, R285, R286, R302: doorbells and pushes. A doorbell of an existing queue asks for its record and changes nothing else
of the device; CQ_DB and EQ_DB may arm; a push with its slots whole, its count and index right is taken, any other is counted
and falls back to the ring. A doorbell of an absent, frozen or halted function changes nothing. R281, R283, R298, R308, R315: a
record that is read. An index that overruns its ring puts the queue in ERROR or stops the AQ, one that goes back is counted
stale and ignored, any other becomes HOST_IDX; with the function's DMA off nothing is read. -/
def Obligations.DoorbellsAndRecordReadsMoveTheHostIndex : Prop :=
  (∀ (s : State) (f lq : Nat) (v : Word), s.dev.wr = [] →
    let d := s.dev
    let ask (qt : Nat) : Dev := queueU f qt lq (fun x => { x with recPending := true }) d
    let q := queue d f 0 lq
    let n := Word.fld v 19 16
    let idx := Word.fld v 15 0
    (dbOk d f = true → (queue d f 0 lq).st ≠ .disabled → Lands (.txDb f lq) s (ask 0)) ∧
    (dbOk d f = true → (queue d f 1 lq).st ≠ .disabled → Lands (.rxDb f lq) s (ask 1)) ∧
    (dbOk d f = true → (queue d f 3 lq).st ≠ .disabled → Lands (.tcqDb f lq) s (ask 3)) ∧
    (dbOk d f = true → (queue d f 2 lq).exists_ = true → v.getLsbD 0 = false → Lands (.cqDb f lq v) s (ask 2)) ∧
    (dbOk d f = true → (queue d f 2 lq).exists_ = true → v.getLsbD 0 = true → Lands (.cqDb f lq v) s
      (cqSignal f lq (queueU f 2 lq (fun x => { x with armed := true }) (ask 2)))) ∧
    (dbOk d f = true → bitR d (fnKey f 0x11C) 31 = true → Lands (.aqDb f) s (fnU f (fun x => { x with aqRec := true }) d)) ∧
    (dbOk d f = true → bitR d (fnKey f 0x134) 31 = true → Lands (.eqDb f v) s
      (fnU f (fun x => { x with eqRec := true, eqArmed := x.eqArmed || v.getLsbD 0 }) d)) ∧
    (dbOk d f = false → Lands (.txDb f lq) s d ∧ Lands (.rxDb f lq) s d ∧ Lands (.cqDb f lq v) s d ∧ Lands (.tcqDb f lq) s d ∧
      Lands (.aqDb f) s d ∧ Lands (.eqDb f v) s d ∧ Lands (.pushCtl f lq v) s d) ∧
    (dbOk d f = true → 1 ≤ n → n ≤ 8 → (∀ i, i < 32 * n → i ∈ q.pushSeen) → (idx + 65536 - n) % 65536 = q.fetchPos → q.st = .running →
      (idx + 65536 - q.devIdx) % 65536 < qSize q → Runs (.pushCtl f lq v) s fun d' =>
        (queue d' f 0 lq).hostIdx = idx ∧ (queue d' f 0 lq).fetchPos = idx ∧ (queue d' f 0 lq).pushSeen = [] ∧
        (queue d' f 0 lq).asm.pushed.length = q.asm.pushed.length + n ∧
        ctrR d' 0x900108 = (ctrR d 0x900108 + 1) % 2 ^ 64 ∧ d' = { d with queues := d'.queues, ctrs := d'.ctrs }) ∧
    (dbOk d f = true → (n = 0 ∨ 8 < n ∨ (∃ i, i < 32 * n ∧ i ∉ q.pushSeen) ∨ (idx + 65536 - n) % 65536 ≠ q.fetchPos ∨ q.st ≠ .running) →
      q.st ≠ .disabled → Runs (.pushCtl f lq v) s fun d' =>
        (queue d' f 0 lq).hostIdx = q.hostIdx ∧ (queue d' f 0 lq).pushSeen = [] ∧ (queue d' f 0 lq).recPending = true ∧
        ctrR d' 0x900110 = (ctrR d 0x900110 + 1) % 2 ^ 64 ∧ d' = { d with queues := d'.queues, ctrs := d'.ctrs })) ∧
  (∀ (s : State) (f qt lq : Nat), s.dev.wr = [] →
    let d := s.dev
    let e := queueU f qt lq (fun q => { q with recPending := false }) d
    let q := queue d f qt lq
    let v := le (dmaRead d f q.recAddr 2) 0 2
    let asked : Prop := q.recPending = true ∧ mayDma d f = true
    (asked → qt = 0 ∨ qt = 1 → qSize q ≤ (v + 65536 - q.devIdx) % 65536 → Lands (.doorbellRecordRead f qt lq .ok) s (queueError f qt lq 4 q.devIdx e)) ∧
    (asked → qt = 0 ∨ qt = 1 → (v + 65536 - q.devIdx) % 65536 < qSize q → 32768 ≤ (v + 65536 - q.hostIdx) % 65536 →
      Lands (.doorbellRecordRead f qt lq .ok) s (ctrInc 0x900100 e)) ∧
    (asked → qt = 0 → (v + 65536 - q.devIdx) % 65536 < qSize q → (v + 65536 - q.hostIdx) % 65536 < 32768 → Runs (.doorbellRecordRead f 0 lq .ok) s fun d' =>
      queue d' f 0 lq = { q with recPending := false, hostIdx := v } ∧ d' = { d with queues := d'.queues }) ∧
    (asked → qt = 1 → q.st = .running → (v + 65536 - q.devIdx) % 65536 < qSize q → (v + 65536 - q.hostIdx) % 65536 < 32768 →
      Runs (.doorbellRecordRead f 1 lq .ok) s fun d' =>
        queue d' f 1 lq = { q with recPending := false, hostIdx := v, fetchPos := v } ∧ d' = { d with queues := d'.queues }) ∧
    (asked → qt = 2 → (v + 65536 - q.hostIdx) % 65536 < 32768 → Lands (.doorbellRecordRead f 2 lq .ok) s
      (drainCq f lq (queueU f 2 lq (fun x => { x with hostIdx := v }) e))) ∧
    ((fn d f).eqRec = true → mayDma d f = true → (fn d f).eqHeld = [] →
      (le (dmaRead d f (reg64 d (fnKey f 0x128)) 2) 0 2 + 65536 - (fn d f).eqHost) % 65536 < 32768 → Runs (.doorbellRecordRead f 5 lq .ok) s fun d' =>
        fn d' f = { fn d f with eqRec := false, eqHost := le (dmaRead d f (reg64 d (fnKey f 0x128)) 2) 0 2 } ∧ d' = { d with fns := d'.fns }) ∧
    (∀ res, mayDma d f = false → Lands (.doorbellRecordRead f qt lq res) s d))

/-- R287–R289, R290, R295, R302: the fetch of packets. The arbiter gives one turn per host port; a ring descriptor that opens and ends a
packet is taken into flight; poisoned data ends its packet; a moderated CQ signals when its condition holds. -/
def Obligations.FetchesBuildPackets : Prop :=
  ∀ (s : State) (f lq h : Nat) (b : Bytes), s.dev.wr = [] →
    let d := s.dev
    let q := queue d f 0 lq
    let cq := queue d f 2 lq
    (eligibles d h = [(f, lq)] → (∀ e ∈ d.queues, e.2.turn = none) → (hp d h).outerPos - 1 ≠ f ∨ (hp d h).outerLeft = 0 →
      (fn d f).innerPos - 1 ≠ lq ∨ (fn d f).innerLeft = 0 → Runs (.fetchTurn h) s fun d' =>
      (queue d' f 0 lq).turn = some 0 ∧ (hp d' h).outerPos = f + 1 ∧ (hp d' h).outerLeft = fnWeight d f - 1 ∧
      (fn d' f).innerPos = lq + 1 ∧ (fn d' f).innerLeft = q.weight - 1 ∧ d' = { d with queues := d'.queues, fns := d'.fns, hports := d'.hports }) ∧
    (eligibles d h = [] → Lands (.fetchTurn h) s d) ∧
    (q.turn ≠ none → q.st = .running → mayDma d f = true → q.fetchPos ≠ q.hostIdx → q.asm = {} → dmaRead d f (q.base + 32 * (q.fetchPos % qSize q)) 32 = b →
      dKind b = 0 → dEop b = true → le b 8 2 ≠ 0 → badHead q b = false → badTarget d f q b = false →
      oversize d (dTarget q b) (lenAsSent (segBytes [(le b 0 8, le b 8 2)])) = false → Runs (.txDescFetch f lq .ok) s fun d' =>
        (∃ p, d'.pkts = d.pkts ++ [p] ∧ p.fn = f ∧ p.lq = lq ∧ p.first = q.fetchPos % 65536 ∧ p.slots = 1 ∧
          p.head = patch b 12 (leBytes 2 (dTarget q b)) ∧
          p.segs = [(le b 0 8, le b 8 2)] ∧ p.gen = q.gen) ∧
        (queue d' f 0 lq).fetchPos = (q.fetchPos + 1) % 65536 ∧ (queue d' f 0 lq).asm.head = none ∧ regR d' 0x900018 = regR d 0x900018 + 1) ∧
    (∀ res, q.turn = none → Lands (.txDescFetch f lq res) s d) ∧
    (∀ k rest, d.pkts = k :: rest → k.fn = f → k.lq = lq → k.stage = 0 → k.gen = q.gen → mayDma d f = true → Lands (.txDataFetch f lq .poisoned) s
      (packetEnds k.id 9 (segBytes k.segs) d)) ∧
    (∀ k rest, d.pkts = k :: rest → k.fn = f → k.lq = lq → k.stage = 0 → k.gen = q.gen → mayDma d f = true → Lands (.txDataFetch f lq .ok) s (dataRead k d)) ∧
    (cq.armed = true → cqCond d cq = true → Lands (.modTimeExpiry f lq) s
      (signalVec f cq.vector (queueU f 2 lq (fun x => { x with armed := false, pend := 0 }) d))) ∧
    (cq.armed = false → Lands (.modTimeExpiry f lq) s d)

/-- R280, R297, R309, R310: creating queues. What passes its checks exists with what its command gave, STOPPED, its DEV_IDX 0
written to its record; what does not leaves the queue as it was. R280, R297, R299, R309–R311, R391: commands on queues. A
stopped queue starts from its DEV_IDX, a stop ends when its work is written, a query writes its snapshot, a destroyed queue is
as it was before it was created. -/
def Obligations.QueueCommandsCreateAndChangeTheirQueue : Prop :=
  (∀ (s : State) (c : Cmd),
    let d := s.dev
    let lq := c.f 18 2
    let cqSt := createStatus d c 3 2 [(40, 2), (44, 1), (46, 2)] (decide (4095 < c.f 46 2)) false (decide (grantLimit d c.fn 4 ≤ c.f 40 2))
    let txSt := createStatus d c 1 0 [(22, 2), (42, 1), (43, 1), (48, 2)]
        (decide (c.f 42 1 = 0) || decide (64 < c.f 43 1) || decide (c.f 48 2 = 0xFFFF) ||
          (isVf c.fn && decide (c.f 48 2 ≠ vfTarget d c.fn)) || decide (32768 ≤ c.f 48 2))
        (cqTaken d c.fn 0 (c.f 22 2)) (decide (grantLimit d c.fn 3 ≤ c.f 22 2))
    let rxSt := createStatus d c 2 1 [(21, 1), (22, 2)] (decide (c.f 21 1 < 9) || decide (14 < c.f 21 1))
        (cqTaken d c.fn 1 (c.f 22 2)) (decide (grantLimit d c.fn 3 ≤ c.f 22 2))
    let tcSt := createStatus d c 5 3 [(40, 2), (52, 8)] (decide (c.f 52 8 % 4096 ≠ 0)) false (decide (grantLimit d c.fn 4 ≤ c.f 40 2))
    Defers (.cqCreate c) c s cqSt (createQueue c 2 { exists_ := true, armed := true, vector := c.f 40 2, modCount := c.f 44 1, modTime := c.f 46 2 }) ∧
    Defers (.txqCreate c) c s txSt (createQueue c 0 { st := .stopped, cq := c.f 22 2, weight := c.f 42 1, burst := c.f 43 1, target := c.f 48 2 }) ∧
    Defers (.rxqCreate c) c s rxSt (createQueue c 1 { st := .stopped, cq := c.f 22 2, bufLog2 := c.f 21 1 }) ∧
    Defers (.tcqCreate c) c s tcSt (createQueue c 3 { st := .stopped, vector := c.f 40 2, cplBase := c.f 52 8 }) ∧
    (∀ qt q, c.tcq = none → let e := createQueue c qt q d
      queue e c.fn qt lq = { q with globalId := (queue e c.fn qt lq).globalId, pushWin := (queue d c.fn qt lq).pushWin,
                                    pushSeen := (queue d c.fn qt lq).pushSeen, gen := (fn d c.fn).gen, sizeLog2 := c.f 20 1, base := c.f 24 8,
                                    recAddr := c.f 32 8 })) ∧
  (∀ (s : State) (c : Cmd),
    let d := s.dev
    let f := qcmdFn d c
    let qt := c.f 16 1
    let lq := c.f 18 2
    let q := queue d f qt lq
    let m := c.f 17 1
    let startSt := qcmdStatus d c [] true false (fun f => decide ((queue d f qt lq).st ≠ .stopped))
    let stopSt := qcmdStatus d c [] true false (fun f => decide ((queue d f qt lq).st = .stopped) || decide ((queue d f qt lq).st = .disabled) ||
          (queue d f qt lq).stopping.isSome)
    let setSt := qcmdStatus d c [(17, 1), (40, 2), (42, 1), (43, 1), (44, 1), (46, 2)] false
        (decide (16 ≤ m) || (bitOf m 0 && decide (c.f 42 1 = 0)) || (bitOf m 1 && decide (64 < c.f 43 1)) ||
          (bitOf m 2 && decide (4095 < c.f 46 2)) || ((bitOf m 0 || bitOf m 1) && decide (qt ≠ 0)) ||
          (bitOf m 2 && decide (qt ≠ 2)) || (bitOf m 3 && decide (qt < 2)))
        (fun f => (decide ((queue d f qt lq).st = .disabled) && !(queue d f qt lq).exists_))
        (fun f => bitOf m 3 && decide (grantLimit d f 4 ≤ c.f 40 2))
    (startSt = 0 → (fn d f).bme = true → (fn d f).d3hot = false → isFrozen d (fnPort f) = false → isDraining d (fnPort f) = false →
      qt = 1 ∨ qt = 3 → c.tcq = none → Runs (.qstart c) s fun d' => queue d' f qt lq = { q with st := .running, fetchPos := q.devIdx, usedIdx := q.devIdx, recPending := true, turn := none, asm := {}, doneSlots := [], holdBme := false, holdFrz := false, holdOvf := false }) ∧
    (startSt = 0 → isFrozen d (fnPort f) = true → c.tcq = none → Runs (.qstart c) s fun d' =>
      (queue d' f qt lq).st = .held ∧ (queue d' f qt lq).back = .running ∧ (queue d' f qt lq).holdFrz = true) ∧
    (startSt ≠ 0 → Lands (.qstart c) s (completeSt c startSt d)) ∧
    (stopSt = 0 → q.st = .running → Lands (.qstop c) s
      (startStop f qt lq (noteHeld c (queueU f qt lq (fun x => { x with stopping := some (hold d c) }) d)))) ∧
    (stopSt = 0 → q.st = .held → Lands (.qstop c) s (noteHeld c (queueU f qt lq (fun x => { x with stopping := some (hold d c) }) d))) ∧
    (stopSt ≠ 0 → Lands (.qstop c) s (completeSt c stopSt d)) ∧
    Serves (.qdestroy c) c s (qcmdStatus d c [] false false (fun f =>
        if qt = 2 then !(queue d f qt lq).exists_ || !(boundTo d f 0 lq).isEmpty || !(boundTo d f 1 lq).isEmpty
        else decide ((queue d f qt lq).st ≠ .stopped) && decide ((queue d f qt lq).st ≠ .error)))
      (fun d => queueU f qt lq (fun x => { pushWin := x.pushWin, pushSeen := x.pushSeen }) (regW 0x900014 (regR d 0x900014 + BitVec.ofNat 32 q.parked.length) d)) ∧
    Serves (.qset c) c s setSt (queueU f qt lq (fun x => { x with
      weight := if bitOf m 0 then c.f 42 1 else x.weight
      burst := if bitOf m 1 then c.f 43 1 else x.burst
      modCount := if bitOf m 2 then c.f 44 1 else x.modCount
      modTime := if bitOf m 2 then c.f 46 2 else x.modTime
      vector := if bitOf m 3 then c.f 40 2 else x.vector })) ∧
    Serves (.qquery c) c s (qcmdStatus d c [(24, 8)] false (decide (c.f 24 8 % 32 ≠ 0)) (fun _ => false))
      (fun d => dma c.fn (c.f 24 8) (qSnapshot d f qt lq) d))

/-- R304, R315: the AQ and EQ of a function. Enabling one with a legal size and aligned bases starts it at index 0 with PHASE 1; an
illegal size sets CFG_ERR and leaves it disabled; disabling the AQ waits for its outstanding commands. -/
def Obligations.AdminAndEventQueuesAreConfigured : Prop :=
  ∀ (s : State) (f : Nat) (v : Word), s.dev.wr = [] →
    let d := s.dev
    let open_ : Prop := fnPresent d f = true ∧ isFrozen d (fnPort f) = false ∧ d.fatal = false
    (open_ → bitR d (fnKey f 0x11C) 31 = false → v.getLsbD 31 = true → 6 ≤ Word.fld v 4 0 → Word.fld v 4 0 ≤ 16 →
      reg64 d (fnKey f 0x100) % 4096 = 0 → reg64 d (fnKey f 0x108) % 4096 = 0 → reg64 d (fnKey f 0x110) % 8 = 0 →
      Runs (.aqCfgWrite f v) s fun d' => bitR d' (fnKey f 0x11C) 31 = true ∧ (fn d' f).aqIdx = 0 ∧ (fn d' f).aqHost = 0 ∧
        (fn d' f).aqCplIdx = 0 ∧ (fn d' f).aqPhase = true ∧ d' = { d with regs := d'.regs, fns := d'.fns }) ∧
    (open_ → bitR d (fnKey f 0x11C) 31 = false → v.getLsbD 31 = true → Word.fld v 4 0 < 6 ∨ 16 < Word.fld v 4 0 → Runs (.aqCfgWrite f v) s fun d' =>
      bitR d' (fnKey f 0x11C) 0 = true ∧ bitR d' (fnKey f 0x11C) 31 = false ∧ bitR d' (fnKey f 0x118) 31 = false ∧ d' = { d with regs := d'.regs }) ∧
    (open_ → bitR d (fnKey f 0x11C) 31 = true → v.getLsbD 31 = false → (fn d f).aqOut = 0 → Runs (.aqCfgWrite f v) s fun d' =>
      bitR d' (fnKey f 0x11C) 31 = false ∧ d' = { d with regs := d'.regs }) ∧
    (open_ → bitR d (fnKey f 0x11C) 31 = true → v.getLsbD 31 = false → (fn d f).aqOut ≠ 0 → Runs (.aqCfgWrite f v) s fun d' =>
      bitR d' (fnKey f 0x11C) 31 = true ∧ (fn d' f).aqClosing = true) ∧
    (open_ → bitR d (fnKey f 0x134) 31 = false → v.getLsbD 31 = true → 6 ≤ Word.fld v 4 0 → Word.fld v 4 0 ≤ 16 →
      reg64 d (fnKey f 0x120) % 4096 = 0 → reg64 d (fnKey f 0x128) % 8 = 0 → Runs (.eqCfgWrite f v) s fun d' =>
        bitR d' (fnKey f 0x134) 31 = true ∧ (fn d' f).eqIdx = 0 ∧ (fn d' f).eqHost = 0 ∧ (fn d' f).eqPhase = true ∧
        d' = { d with regs := d'.regs, fns := d'.fns }) ∧
    (open_ → v.getLsbD 31 = false → Runs (.eqCfgWrite f v) s fun d' => bitR d' (fnKey f 0x134) 31 = false ∧ d' = { d with regs := d'.regs })

/-! ### Host ports and functions (11) -/

/-- R363, R368, R372, R373, R390, R403: resets and states of functions. A function's reset takes it out of READY; when it has
drained, its generation has advanced and its queues are gone; VF Enable makes VFs present under a new generation and
takes them away; Bus Master Enable, D3hot and the fundamental reset stop DMA. -/
def Obligations.FunctionResetsAdvanceTheGeneration : Prop :=
  ∀ (s : State) (f h n : Nat) (v : Word),
    let d := s.dev
    let x := fn d f
    (fnPresent d f = true → isVf f = true → Runs (.flr f) s fun d' =>
      (fn d' f).resetBusy = true ∧ (fn d' f).ready = false ∧ (fn d' f).bme = false ∧ (fn d' f).gen = x.gen) ∧
    (fnPresent d f = true → isVf f = true → v.getLsbD 0 = true → isFrozen d (fnPort f) = false → Runs (.fnReset f v) s fun d' =>
      (fn d' f).resetBusy = true ∧ (fn d' f).ready = false ∧ (fn d' f).bme = x.bme) ∧
    (x.resetBusy = true → isVf f = true → d.clusters = [] → (hp d (fnPort f)).hold = [] → Runs (.flrDone f) s fun d' =>
      (fn d' f).gen = (x.gen + 1) % 256 ∧ (fn d' f).ready = true ∧ (fn d' f).resetBusy = false ∧ (fn d' f).frozen = false ∧
      ∀ qt lq, qt < 4 → lq < 65536 → queue d' f qt lq = {}) ∧
    (f = 0 ∨ f = 2 → fnPresent d f = true → x.vfEnable = false → Runs (.vfEnable f true n) s fun d' =>
      (fn d' f).vfEnable = true ∧ (fn d' f).numVfs = n ∧ (fn d' f).gen = x.gen) ∧
    (f = 0 ∨ f = 2 → fnPresent d f = true → x.vfEnable = true → d.clusters = [] → d.hports = [] → Runs (.vfEnable f false n) s fun d' =>
      (fn d' f).vfEnable = false ∧ ∀ g, isVf g = true → parentPf g = f → fnPresent d' g = false) ∧
    (isVf f = true → fnPresent d f = true → x.resetBusy = false → Runs (.vfReady f) s fun d' => (fn d' f).ready = true) ∧
    (fnPresent d f = true → Runs (.busMasterEnable f false) s fun d' => (fn d' f).bme = false ∧ mayDma d' f = false) ∧
    (fnPresent d f = true → f ≠ 1 → f ≠ 3 → x.d3hot = true → Runs (.busMasterEnable f true) s fun d' =>
      (fn d' f).bme = true ∧ mayDma d' f = false) ∧
    (fnPresent d f = true → isVf f = false → Runs (.d3hot f true) s fun d' => (fn d' f).d3hot = true ∧ mayDma d' f = false) ∧
    (h < numHosts d.variant → Runs (.perstN h false) s fun d' => d' = { d with hports := d'.hports, mem := d'.mem, wr := [] } ∧
      (hp d' h).perst = false) ∧
    (h < numHosts d.variant → Lands (.perstN h true) s (resetPortFns h (hostDown h (hpU h (fun p => { p with
      perst := true, aerCor := 0, aerUncor := 0, aerHdr := [] }) d)))) ∧
    ((hp d h).linkUp = true → Lands (.hotReset h) s (resetPortFns h (hostDown h d)))

/-- R362, R369, R371, R374, R375, R377, R383, R384, R388: links, containment and interrupts of host ports. -/
def Obligations.HostPortsContainAndRelease : Prop :=
  ∀ (s : State) (f h n w : Nat) (fl rv a b : Bool) (v : Word) (k : ReadKind),
    let d := s.dev
    let fk := frzStatKey h
    (h < numHosts d.variant → (hp d h).perst = false → islandOn d (hIsland h) = true → Runs (.hostLink h true false fl rv n w) s fun d' =>
      (hp d' h).linkUp = true ∧ (hp d' h).linkL0 = true ∧ bitR d' (0xD00010 + 4 * h) 31 = true) ∧
    (h < numHosts d.variant → (hp d h).linkUp = true → isFrozen d h = false → Runs (.hostLink h false true fl rv n w) s fun d' =>
      isFrozen d' h = true ∧ bitR d' fk 0 = true) ∧
    ((hp d h).linkL0 = true → (hp d h).aspmL1 = true → n ≤ 2 → Runs (.aspmL1Entry h true n) s fun d' =>
      (hp d' h).inL1 = true ∧ (hp d' h).l1sub = n ∧ (hp d' h).linkL0 = false) ∧
    ((hp d h).inL1 = true → Runs (.aspmL1Entry h false n) s fun d' => (hp d' h).inL1 = false ∧ (hp d' h).linkL0 = true) ∧
    (ctoPromote d (fnPort f) = true → isFrozen d (fnPort f) = false → Runs (.completionTimeout f k) s fun d' =>
      isFrozen d' (fnPort f) = true ∧ bitR d' (frzStatKey (fnPort f)) 3 = true) ∧
    (v.getLsbD 31 = true → isFrozen d h = true → (hp d h).linkL0 = true → fldR d fk 3 0 = 0 → d.fns = [] → d.queues = [] →
      Runs (.frzRelease h v) s fun d' => isFrozen d' h = false ∧ isDraining d' h = true ∧ (hp d' h).delivered = 0) ∧
    (v.getLsbD 31 = true → isFrozen d h = true → (hp d h).linkL0 = false → Runs (.frzRelease h v) s fun d' =>
      isFrozen d' h = true ∧ bitR d' fk 29 = true) ∧
    (isDraining d h = true → (hp d h).hold = [] → d.queues = [] → Lands (.hostReleased h) s
      (postDev 0xD1 (leBytes 1 h ++ leBytes 4 (hp d h).delivered ++ leBytes 4 (regR (bitW fk 30 false d) (cfgKey (2 * h) 0x2F4)).toNat)
        (bitW fk 30 false d))) ∧
    (rateDue d (rateKey 0xD3 f) = true → Lands (.peerClosed f) s
      (postDev 0xD3 (leBytes 1 f ++ leBytes 4 (rateOf d (rateKey 0xD3 f)).detail) (rateClear (rateKey 0xD3 f) d))) ∧
    (fnPresent d f = true → (fn d f).keptSigs = [] → (fn d f).intxOn = false → regR d (fnKey f 0x14) = 0 →
      Runs (.msiXEnable f a b) s fun d' => (fn d' f).msixEnable = a ∧ (fn d' f).intxDisable = (b && decide (f < 4))) ∧
    (fnPresent d f = true → isFrozen d (fnPort f) = false → isVf f = false → Runs (.fnIntxPendClear f v) s fun d' =>
      regR d' (fnKey f 0x14) = regR d (fnKey f 0x14) &&& ~~~ v) ∧
    (rateDue d (rateKey 0xD6 f) = true → Lands (.spoofDetected f) s
      (fnU f (fun x => { x with spoofMask := 0 }) (rateClear (rateKey 0xD6 f) (postEvent (parentPf f) 0xD6 f
        (leBytes 2 f ++ leBytes 1 (fn d f).spoofMask ++ leBytes 4 (rateOf d (rateKey 0xD6 f)).count) d)))) ∧
    (∀ it rest, d.xings = [] → d.fatal = false → islandOn d (hIsland h) = true → isFrozen d h = true → (hp d h).rx = it :: rest →
      (hp d h).holdBytes + holdCharge it.frame.bytes.length ≤ holdMib d h * 1048576 → Runs (.rxDelivery h) s fun d' =>
        (hp d' h).rx = rest ∧ (hp d' h).hold = (hp d h).hold ++ [it] ∧
        (hp d' h).holdBytes = (hp d h).holdBytes + holdCharge it.frame.bytes.length) ∧
    (∀ it rest, d.xings = [] → d.fatal = false → islandOn d (hIsland h) = true → isFrozen d h = false → isDraining d h = false →
      (hp d h).rx = it :: rest → Lands (.rxDelivery h) s (rxDeliver it.fn it.lq it.frame (hpU h (fun y => { y with rx := rest }) d))) ∧
    (∀ it rest, d.xings = [] → d.fatal = false → islandOn d (hIsland h) = true → isFrozen d h = false → isDraining d h = true →
      (hp d h).hold = it :: rest → (hp d h).rx = [] → d.dram.degraded = [] → Lands (.rxDelivery h) s
        (rxDeliver it.fn it.lq it.frame (hpU h (fun y => { y with delivered := y.delivered + 1 }) (hpU h (fun y => { y with
          hold := y.hold.drop 1, holdBytes := y.holdBytes - holdCharge it.frame.bytes.length })
            (hpU h (fun y => { y with rx := [] }) d)))))

/-! ### Tenants (12) -/

/-- R391–R398: grants. A GRANT_SET or GRANT_QUERY waits for earlier ones of its target; one that finds none runs at once; a
shrink ends when its last unit returns, or at its timeout with what is still held. R393, R394: a grant item that passes its
checks and holds back no unit in use sets the target's grant to what it names; one that asks for more than its pool is
NOT_GRANTED and one with a bad field BAD_ENTRY, with every grant as it was. -/
def Obligations.GrantsAreChangedInOrderItemByItem : Prop :=
  (∀ (s : State) (c : Cmd) (f : Nat),
    let d := s.dev
    let t := cmdTarget c
    let n := c.f 18 2
    let items := (List.range n).map fun i => dmaRead d c.fn (c.f 24 8 + 16 * i) 16
    let setSt := tenantStatus d c [(18, 2), (24, 8)] false false (decide (n = 0) || decide (16 < n) || decide (c.f 24 8 % 64 ≠ 0)) false
    let qSt := tenantStatus d c [(24, 8)] true false false false
    ((fn d t).jobs ≠ [] → Defers (.grantSet c) c s setSt
      (fun d => noteHeld c (fnU t (fun x => { x with jobs := x.jobs ++ [⟨hold d c, t, 0, items, none⟩] }) d))) ∧
    ((fn d t).jobs ≠ [] → Defers (.grantQuery c) c s qSt
      (fun d => noteHeld c (fnU t (fun x => { x with jobs := x.jobs ++ [⟨hold d c, t, 0, [], none⟩] }) d))) ∧
    ((fn d t).jobs = [] → Defers (.grantSet c) c s setSt
      (fun d => grantGo t (noteHeld c (fnU t (fun x => { x with jobs := x.jobs ++ [⟨hold d c, t, 0, items, none⟩] }) d)))) ∧
    ((fn d t).jobs = [] → Defers (.grantQuery c) c s qSt
      (fun d => grantGo t (noteHeld c (fnU t (fun x => { x with jobs := x.jobs ++ [⟨hold d c, t, 0, [], none⟩] }) d)))) ∧
    (∀ j rest it, (fn d f).jobs = j :: rest → j.held.cmd.opcode ≠ 0xD1 → j.items[j.index]? = some it → j.since.isSome = true → iScope it ≠ 1 →
      iValue it < heldTop d f (iRes it) (iValue it) → Runs (.grantShrinkDone f) s fun d' =>
        (fn d' f).jobs = j :: rest ∧ (∀ res, grant d' f res = grant d f res)) ∧
    (∀ j it, (fn d f).jobs = [j] → j.held.cmd.opcode ≠ 0xD1 → j.items = [it] → j.index = 0 → j.since.isSome = true → iScope it ≠ 1 →
      heldTop d f (iRes it) (iValue it) ≤ iValue it → Runs (.grantShrinkDone f) s fun d' =>
        (fn d' f).jobs = [] ∧ grant d' f (iRes it) = ⟨iValue it, iAux it⟩) ∧
    (∀ j rest it t0, (fn d f).jobs = j :: rest → j.items[j.index]? = some it → j.since = some t0 → le it 12 2 ≠ 0 →
      t0 + le it 12 2 * 1000000 ≤ now d → iValue it < heldTop d f (iRes it) (iValue it) → Lands (.shrinkTimeout f) s
        (grantGo f (jobEnd f 7 (grantTo f (iRes it) (min (grant d f (iRes it)).value (heldTop d f (iRes it) (iValue it))) (grant d f (iRes it)).aux d)))) ∧
    (∀ j rest it t0, (fn d f).jobs = j :: rest → j.items[j.index]? = some it → j.since = some t0 → now d < t0 + le it 12 2 * 1000000 →
      Lands (.shrinkTimeout f) s d)) ∧
  (∀ (d : Dev) (f : Nat) (j : GrantJob) (rest : List GrantJob) (it : Bytes) (n : Nat), (fn d f).jobs = j :: rest → j.held.cmd.opcode ≠ 0xD1 →
    j.items = [it] → j.index = 0 → j.since = none → iScope it = 0 → rest = [] →
    (grantCheck d j.held.cmd.fn f it = 0 → heldTop d f (iRes it) (iValue it) ≤ iValue it →
      grant (grantRun f (n + 2) d) f (iRes it) = ⟨iValue it, iAux it⟩ ∧
      ∀ g res, g ≠ f ∨ res ≠ iRes it → grant (grantRun f (n + 2) d) g res = grant d g res) ∧
    (grantCheck d j.held.cmd.fn f it ≠ 0 → ∀ g res, grant (grantRun f (n + 2) d) g res = grant d g res) ∧
    (iRes it ≤ 5 → 1 ≤ iRes it → (grant d f (iRes it)).value < iValue it →
      grantPool (iRes it) < (((granted d).filter fun g => decide (g ≠ f)).foldl (fun n g => n + heldValue d g (iRes it)) 0) + iValue it →
      grantCheck d j.held.cmd.fn f it = 4 ∨ grantCheck d j.held.cmd.fn f it = 5))

/-- R402, R405–R411: VF configuration, dirty logs, saving and restoring. A running log cannot be started again; a drain reports and
clears what fell outside; a stop ends the log; a save freezes the VF and writes its block; a resume ends the freeze. -/
def Obligations.VfsAreConfiguredLoggedAndMoved : Prop :=
  ∀ (s : State) (c : Cmd),
    let d := s.dev
    let f := cmdTarget c
    let b := dmaRead d c.fn (c.f 24 8) 320
    let len := c.f 44 4
    let blk := dmaRead d c.fn (c.f 24 8) (min len (le (dmaRead d c.fn (c.f 24 8) 64) 8 4))
    let frozen := fnU f (fun x => { x with frozen := true }) d
    let saveSt := tenantStatus d c [(24, 8), (44, 4)] false true (decide (c.f 24 8 % 64 ≠ 0))
        ([0, 1, 3].any fun qt => (liveQueues d f qt).any fun q => decide ((queue d f qt q).st ≠ .stopped))
    let drainSt := tenantStatus d c [(24, 8)] false true (decide (c.f 24 8 % 4096 ≠ 0)) ((fn d f).log.isNone)
    let stopSt := tenantStatus d c [] false true false ((fn d f).log.isNone)
    Serves (.vfConfig c) c s (tenantStatus d c [(24, 8)] false true (decide (c.f 24 8 % 64 ≠ 0) || !(vfBlockOk b)) false)
      (fun d => (liveQueues d f 0).foldl (fun d q => queueU f 0 q (fun x => { x with target := le b 4 2 }) d)
        (fnU f (fun x => { x with vfConfig := if allZero b then [] else b }) d)) ∧
    Serves (.logStart c) c s (tenantStatus d c [(24, 8), (32, 8), (40, 8)] false true
        (decide (c.f 24 8 % 4096 ≠ 0) || decide (c.f 32 8 % 4096 ≠ 0) || decide (c.f 40 8 = 0) || decide (2 ^ 40 < c.f 40 8))
        (match (fn d f).log with | some l => l.running | none => false))
      (fnU f (fun x => { x with log := some { bitmap := c.f 24 8, iovaBase := c.f 32 8, pages := c.f 40 8, pf := c.fn } })) ∧
    (∀ l, (fn d f).log = some l → drainSt = 0 → l.failed = false → c.f 24 8 ≠ 0 → Lands (.logDrain c) s (complete c 0 (b2n l.outOfRange)
      (fnU f (fun x => { x with log := some { l with outOfRange := false, bitmap := c.f 24 8 } }) d))) ∧
    (drainSt ≠ 0 → Lands (.logDrain c) s (completeSt c drainSt d)) ∧
    (∀ l, (fn d f).log = some l → stopSt = 0 → Lands (.logStop c) s (complete c 0 (drainDw l) (fnU f (fun x => { x with log := none }) d))) ∧
    (stopSt ≠ 0 → Lands (.logStop c) s (completeSt c stopSt d)) ∧
    (saveSt = 0 → (stateBlock frozen f).length ≤ len → Lands (.vfSave c) s
      (complete c 0 (stateBlock frozen f).length (dma c.fn (c.f 24 8) (stateBlock frozen f) frozen))) ∧
    (saveSt = 0 → len < (stateBlock frozen f).length → Lands (.vfSave c) s (complete c stBadParam (stateBlock frozen f).length frozen)) ∧
    (saveSt ≠ 0 → Lands (.vfSave c) s (completeSt c saveSt d)) ∧
    (mayDma (fnU f (fun x => { x with frozen := false }) d) f = false → Serves (.vfResume c) c s (tenantStatus d c [] false true false (!(fn d f).frozen))
      (fnU f (fun x => { x with frozen := false, aqRec := bitR d (fnKey f 0x11C) 31 }))) ∧
    (mayDma (fnU f (fun x => { x with frozen := false }) d) f = true → Serves (.vfResume c) c s (tenantStatus d c [] false true false (!(fn d f).frozen))
      (fun d => writeWaiting f (fnU f (fun x => { x with frozen := false, aqRec := bitR d (fnKey f 0x11C) 31 }) d))) ∧
    Serves (.vfRestore c) c s (tenantStatus d c [(24, 8), (44, 4)] false true (!(blockOk d f len blk))
        (!(fn d f).ready || ([0, 1, 2, 3].any fun qt => !(liveQueues d f qt).isEmpty) || bitR d (fnKey f 0x11C) 31 ||
          bitR d (fnKey f 0x134) 31 || ((List.range 5).any fun i => decide ((grant d f (i + 1)).value < blockNeed blk (i + 1))) ||
          decide (poolFree d < blockParked blk)))
      (restoreBlock f blk)

/-- R410: a state block names itself: its magic and format, its LENGTH by the formula of its own counts, and a CRC over the
rest. R405, R406: a logged write. A DMA write of a function whose log runs sets the page's bit in the bitmap and writes nothing
else but its data; outside the log's pages it writes its data alone and notes OUT_OF_RANGE. -/
def Obligations.StateBlocksAndDirtyLogsDescribeTheirFunction : Prop :=
  (∀ (d : Dev) (f : Nat), let b := stateBlock d f
    le b 0 4 = 0x53465642 ∧ le b 4 2 = 1 ∧ le b 8 4 = b.length % 2 ^ 32 ∧ le b 60 4 = crc32c (patch b 60 (zeros 4))) ∧
  (∀ (d : Dev) (f a : Nat) (v : Byte) (l : DirtyLog), d.wr = [] → (fn d f).log = some l → l.running = true → l.iovaBase ≤ a →
    let sp := hostSpace (fnPort f)
    let e := dmaRaw f a [v] d
    let p := (a - l.iovaBase) / 4096
    (p < l.pages → e.wr = [(spaceAddr sp (l.bitmap + p / 8), [rdByte { d with wr := [(spaceAddr sp a, [v])] } (spaceAddr sp (l.bitmap + p / 8)) ||| BitVec.ofNat 8 (2 ^ (p % 8))]),
      (spaceAddr sp a, [v])] ∧ (fn e f) = fn d f) ∧
    (l.pages ≤ p → e.wr = [(spaceAddr sp a, [v])] ∧ (fn e f).log = some { l with outOfRange := true }))

/-! ### The ledger (13) -/

/-- R416–R418, R425, R430: controllers and queues. CC.EN makes a controller ready with its admin queues, and its fall resets it;
doorbells move tail and head, and one out of range or of no queue is an error event; queues are created and deleted, and
what a deleted SQ has not completed ends aborted first; a command of another opcode than the queue's next changes nothing. -/
def Obligations.NvmeQueuesFollowTheirCommands : Prop :=
  ∀ (s : State) (pf n y : Nat) (q : NCmd) (v : Word),
    let d := s.dev
    let e := taken d pf n
    let id := cdw q 10 % 65536
    let size := cdw q 10 / 65536
    let cq := cdw q 11 / 65536
    let base := le q.bytes 24 8
    (pf = 1 ∨ pf = 3 → islandOn d 48 = true → bitR d (ccKey pf) 0 = true → v.getLsbD 0 = false → Lands (.ccEn pf v) s (ctrlReset pf false d)) ∧
    (pf = 1 ∨ pf = 3 → islandOn d 48 = true → bitR d (ccKey pf) 0 = false → v.getLsbD 0 = true → Word.fld v 15 14 = 0 → Lands (.ccEn pf v) s
      (adminQueues pf (regW (cstsKey pf) 1 (regW (ccKey pf) (v &&& 0x00FFFFF1) d)))) ∧
    (∀ w, ctrlReady d pf = true → nsq d pf y = some w → Word.fld v 15 0 < w.size → Lands (.sqTailDoorbell pf y v) s
      (fetchSq pf y (nsqW pf y (some { w with tail := Word.fld v 15 0 }) d))) ∧
    (∀ w, ctrlReady d pf = true → nsq d pf y = some w → w.size ≤ Word.fld v 15 0 → Lands (.sqTailDoorbell pf y v) s (asyncEvent pf 0x010100 d)) ∧
    (ctrlReady d pf = true → nsq d pf y = none → Lands (.sqTailDoorbell pf y v) s (asyncEvent pf 0x010000 d)) ∧
    (∀ w, ctrlReady d pf = true → ncq d pf y = some w → Word.fld v 15 0 < w.size → Lands (.cqHeadDoorbell pf y v) s
      (cqFlush pf y (ncqW pf y (some { w with head := Word.fld v 15 0 }) d))) ∧
    (1 ≤ id → id ≤ 256 → ncq e pf id = none → 1 ≤ size → size ≤ 4095 → bitOf (cdw q 11) 0 = true → base % 4096 = 0 → cq ≤ 256 →
      Ends (.createIoCq pf n) s pf n 0x05 false q 0 0
        (ncqW pf id (some { base := base, size := size + 1, ien := bitOf (cdw q 11) 1, vector := cq }))) ∧
    (id = 0 ∨ 256 < id ∨ (ncq e pf id).isSome = true → Ends (.createIoCq pf n) s pf n 0x05 false q 0 0x101 (fun d => d)) ∧
    (1 ≤ id → id ≤ 256 → nsq e pf id = none → 1 ≤ size → size ≤ 4095 → bitOf (cdw q 11) 0 = true → base % 4096 = 0 → cq ≠ 0 →
      (ncq e pf cq).isSome = true → Ends (.createIoSq pf n) s pf n 0x01 false q 0 0
        (nsqW pf id (some { base := base, size := size + 1, cq := cq }))) ∧
    (id ≠ 0 → (nsq e pf id).isSome = true → Ends (.deleteIoSq pf n) s pf n 0x00 false q 0 0 (fun d =>
      let cmds := ((ctrl d pf).outs.map fun o => o.cmd) ++ (ctrl d pf).fetched
      settle (nsqW pf id none ((cmds.filter fun x => decide (x.sq = id)).foldl (fun d x => nvmeEnd pf x 0 0x08 d)
        (ctrlU pf (fun c => { c with fetched := c.fetched.filter fun x => decide (x.sq ≠ id) }) (dropOuts (fun o => decide (o.cmd.sq = id)) pf d)))))) ∧
    (id ≠ 0 → (ncq e pf id).isSome = true → (∀ x ∈ (ctrl e pf).sqs, x.2.map (fun w => w.cq) ≠ some id) →
      Ends (.deleteIoCq pf n) s pf n 0x04 false q 0 0 (ncqW pf id none)) ∧
    ((ctrl (ctrlGo pf d) pf).fetched[n]? = none → Lands (.createIoCq pf n) s d)

/-- R416, R426, R429, R431–R434, R436: the other admin commands and the controllers' own events. R419, R420: namespaces. What
passes its checks is created, deleted, attached, detached or formatted over every pair; the journal is neither deleted, attached
nor formatted. -/
def Obligations.NvmeAdminCommandsAndNamespaces : Prop :=
  (∀ (s : State) (pf n : Nat) (q : NCmd),
    let d := s.dev
    let e := taken d pf n
    let ps := cdw q 11 % 32
    (∀ segs, cdw q 10 % 256 = 1 → dataSegs e pf q (identCtrl pf).length = .ok segs →
      Ends (.nvmeIdentify pf n) s pf n 0x06 false q 0 0 (scatter pf segs (identCtrl pf))) ∧
    (cdw q 10 % 256 = 0x14 → Ends (.nvmeIdentify pf n) s pf n 0x06 false q 0 nsInvalidField (fun d => d)) ∧
    Ends (.abort pf n) s pf n 0x08 false q 1 0 (fun d => d) ∧
    (cdw q 10 % 256 = 2 → bitOf (cdw q 10) 31 = false → ps ≤ 2 → Ends (.setFeatures pf n) s pf n 0x09 false q 0 0
      (ctrlU pf fun c => { c with ps := ps, opPs := if ps < 2 then ps else c.opPs })) ∧
    (cdw q 10 % 256 = 6 → bitOf (cdw q 10) 31 = false → Ends (.setFeatures pf n) s pf n 0x09 false q 0 0 (featW pf 6 (cdw q 11))) ∧
    (cdw q 10 % 256 = 6 → bitOf (cdw q 10) 31 = true → Ends (.setFeatures pf n) s pf n 0x09 false q 0 0x10D (fun d => d)) ∧
    (cdw q 10 % 256 = 6 → bitsOf (cdw q 10) 10 8 = 0 → Ends (.getFeatures pf n) s pf n 0x0A false q (feat e pf 6) 0 (fun d => d)) ∧
    (cdw q 10 % 256 = 2 → bitsOf (cdw q 10) 10 8 = 0 → Ends (.getFeatures pf n) s pf n 0x0A false q (ctrl e pf).ps 0 (fun d => d)) ∧
    (∀ v rest, (ctrl e pf).events = v :: rest → Ends (.asynchronousEventRequest pf n) s pf n 0x0C false q v 0
      (ctrlU pf fun c => { c with events := rest })) ∧
    ((ctrl e pf).events = [] → (ctrl e pf).aers = [] → Goes (.asynchronousEventRequest pf n) s pf n 0x0C false q
      (ctrlU pf fun c => { c with aers := [q] })) ∧
    (cdw q 10 % 16 = 1 → nNs q = 0 → e.ledger.test = none → Ends (.deviceSelfTest pf n) s pf n 0x14 false q 0 0
      (ledU fun l => { l with test := some { stc := 1, nsid := 0 } })) ∧
    (cdw q 10 % 16 = 2 → nNs q = 0 → e.ledger.test.isSome = true → Ends (.deviceSelfTest pf n) s pf n 0x14 false q 0 0x11D (fun d => d)) ∧
    (∀ t, d.ledger.test = some t → t.paused = true → ioOut d = false → d.ledger.ioSince + 10000000 ≤ now d → Lands .selfTestResume s
      (ledU (fun l => { l with test := some { t with paused := false } }) d)) ∧
    (∀ t, d.ledger.test = some t → t.paused = false → storageUp d = true → testDrives d (decide (t.stc = 2)) true = true → testAshlars d (decide (t.stc = 2)) = true → Lands (.selfTestDone true true) s (testResult 0 0 d)) ∧
    (∀ t, d.ledger.test = some t → t.paused = true → Lands (.selfTestDone true true) s d) ∧
    (let c := ctrl d pf
     let to_ := bitsOf (le c.apst (8 * c.ps) 8) 7 3
     let ms := bitsOf (le c.apst (8 * c.ps) 8) 31 8
     ctrlReady d pf = true → bitOf (feat d pf 0x0C) 0 = true → ms ≠ 0 → to_ ≤ 2 → c.fetched = [] → c.outs = [] → c.lastCmd + ms * 1000000 ≤ now d →
      Lands (.apstTransition pf) s (ctrlU pf (fun c => { c with ps := to_, opPs := if to_ < 2 then to_ else c.opPs }) d)) ∧
    (∀ t, d.ledger.downFrom = some t → storageUp d = false → islandOn d 48 = true → t + 10000000000 ≤ now d → Lands .cluster0Timeout s
      (bitW (cstsKey 3) 1 true (bitW (cstsKey 1) 1 true d)))) ∧
  (∀ (s : State) (pf n : Nat) (q : NCmd) (segs : List (Nat × Nat)),
    let d := s.dev
    let e := taken d pf n
    let ns := nNs q
    let bs := gather e pf segs
    let size := le bs 0 8
    let per := size / (numPairs e.variant * slabLbas)
    let ps := List.range (numPairs e.variant)
    let free := (List.range 34).filter fun i => decide (2 ≤ i) && !(nsExists e i)
    let ids := (List.range (min (le bs 0 2) 2047)).map fun i => le bs (2 + 2 * i) 2
    let mask := ids.foldl (fun (a : Nat) i => a ||| 2 ^ (i / 2)) 0
    (cdw q 10 % 16 = 0 → dataSegs e pf q 4096 = .ok segs → size ≠ 0 → size % (numPairs e.variant * slabLbas) = 0 → le bs 8 8 = size →
      u8 bs 29 = 0 → u8 bs 26 % 16 = 0 → allPairsUp e = true → free ≠ [] → (∀ p ∈ ps, per ≤ freeCount e p) →
      Ends (.namespaceManagement pf n) s pf n 0x0D false q (free.headD 2) 0
        (fun d => ps.foldl (fun d p => allocSlabs (free.headD 2) per p d) (attachW (free.headD 2) 0 d))) ∧
    (cdw q 10 % 16 = 1 → 2 ≤ ns → ns ≤ 33 → nsExists e ns = true → allPairsUp e = true → Ends (.namespaceManagement pf n) s pf n 0x0D false q 0 0
      (fun d => settle (nsChanged (attachMask d ns) (attachW ns 0 (wbufDrop (fun e => decide (e.nsid = ns)) (ps.foldl (fun d p => freeSlabs ns p d) d)))))) ∧
    (cdw q 10 % 16 = 1 → ns = 1 → Ends (.namespaceManagement pf n) s pf n 0x0D false q 0 nsInvalidField (fun d => d)) ∧
    (cdw q 10 % 16 = 0 → dataSegs e pf q 4096 = .ok segs → 2 ≤ ns → ns ≤ 33 → nsExists e ns = true → ids ≠ [] → (∀ i ∈ ids, isLedgerPf i = true) →
      attachMask e ns &&& mask = 0 → Ends (.namespaceAttachment pf n) s pf n 0x15 false q 0 0
        (fun d => nsChanged (attachMask d ns ||| (attachMask d ns ||| mask)) (attachW ns (attachMask d ns ||| mask) d))) ∧
    (cdw q 10 % 16 ≤ 1 → dataSegs e pf q 4096 = .ok segs → ns = 1 → Ends (.namespaceAttachment pf n) s pf n 0x15 false q 0 nsInvalidField (fun d => d)) ∧
    (ns ≠ 1 → ns ≠ 0xFFFFFFFF → nsAttached e pf ns = true → cdw q 10 % 16 = 0 → bitsOf (cdw q 10) 7 5 = 0 → allPairsUp e = true →
      Ends (.formatNvm pf n) s pf n 0x80 false q 0 0 (fun d =>
        let d := wbufDrop (fun e => decide (e.nsid = ns)) d
        let d := (List.range (numPairs d.variant)).foldl (fun d p =>
          ((pairMap d p).used.filter fun u => decide (u.2.1 = ns)).foldl (fun d u =>
            (targets d p).foldl (fun d t => drvZero t (256 + slabLbas * u.1) slabLbas d) d) d) d
        settle (nsChanged (attachMask d ns) d))) ∧
    (ns = 1 → Ends (.formatNvm pf n) s pf n 0x80 false q 0 nsProtected (fun d => d)))

/-- R419, R426, R427: reads and writes of a namespace. A write within its range is buffered and completes at once; one outside it,
or of the journal, is refused; a read of what is buffered gives it back; zeroes, flushes and deallocations likewise. -/
def Obligations.NvmeIoMovesData : Prop :=
  ∀ (s : State) (pf n : Nat) (q : NCmd) (segs : List (Nat × Nat)) (fails : List (Nat × Nat)),
    let d := s.dev
    let e := taken d pf n
    let ns := nNs q
    let a := le q.bytes 40 8
    let cnt := cdw q 12 % 65536 + 1
    let data := (List.range cnt).map fun i => slice (gather e pf segs) (4096 * i) 4096
    let inRange : Prop := nsAttached e pf ns = true ∧ a + cnt ≤ nsSize e ns ∧ ∀ i < cnt, pairDown e (lbaPair e (a + i)) = false
    let room : Prop := e.ledger.wbuf.length + cnt ≤ wbufCap e
    let buffered (ds : List Bytes) (d : Dev) : Dev := ledU (fun l => { l with
      wbuf := l.wbuf ++ ds.zipIdx.map fun (x : Bytes × Nat) => (⟨l.wseq + x.2, ns, a + x.2, x.1, true⟩ : WEnt), wseq := l.wseq + ds.length }) d
    let atOnce : Prop := bitOf (cdw q 12) 30 = false ∧ bitOf (feat e pf 6) 0 = true
    (inRange → ns ≠ 1 → bitsOf (cdw q 12) 29 26 = 0 → dataSegs e pf q (4096 * cnt) = .ok segs → room → atOnce →
      Ends (.nvmeWrite pf n) s pf n 0x01 true q 0 0 (buffered data)) ∧
    (nsAttached e pf ns = true → ns = 1 → bitsOf (cdw q 12) 29 26 = 0 → Ends (.nvmeWrite pf n) s pf n 0x01 true q 0 nsProtected (fun d => d)) ∧
    (nsAttached e pf ns = true → ns ≠ 1 → bitsOf (cdw q 12) 29 26 = 0 → nsSize e ns < a + cnt →
      Ends (.nvmeWrite pf n) s pf n 0x01 true q 0 0x80 (fun d => d)) ∧
    (inRange → ns ≠ 1 → room → atOnce → Ends (.writeZeroes pf n) s pf n 0x08 true q 0 0 (buffered (List.replicate cnt []))) ∧
    (∀ bs d', inRange → dataSegs e pf q (4096 * cnt) = .ok segs → readLbas fails ns cnt a e = (some bs, d') →
      Ends (.nvmeRead pf n fails) s pf n 0x02 true q 0 0 (fun _ => scatter pf segs bs d')) ∧
    (∀ d', inRange → dataSegs e pf q (4096 * cnt) = .ok segs → readLbas fails ns cnt a e = (none, d') →
      Ends (.nvmeRead pf n fails) s pf n 0x02 true q 0 0x281 (fun _ => d')) ∧
    (nsAttached e pf ns = true → (∀ x ∈ e.ledger.wbuf, x.done = true → x.nsid ≠ ns) → ns ≠ 0xFFFFFFFF →
      Ends (.nvmeFlush pf n) s pf n 0x00 true q 0 0 (fun d => d)) ∧
    (ns ≠ 1 → nsAttached e pf ns = true → dataSegs e pf q (16 * (cdw q 10 % 256 + 1)) = .ok segs → bitOf (cdw q 11) 2 = false →
      (∀ i ≤ cdw q 10 % 256, le (gather e pf segs) (16 * i + 8) 8 + le (gather e pf segs) (16 * i + 4) 4 ≤ nsSize e ns) →
      Ends (.datasetManagement pf n) s pf n 0x09 true q 0 0 (fun d => d)) ∧
    (∀ w, d.ledger.wbuf[n]? = some w → storageUp d = true → (∀ x ∈ d.ledger.wbuf.take n, ¬(x.nsid = w.nsid ∧ x.lba = w.lba)) →
      pairDown d (lbaPair d w.lba) = false → Lands (.writebackDurable n false) s
        (settle (pairWrite w.nsid w.lba (padTo 4096 w.data) (ledU (fun l => { l with wbuf := l.wbuf.eraseIdx n }) d)))) ∧
    (∀ w, d.ledger.wbuf[n]? = some w → pairDown d (lbaPair d w.lba) = true → Lands (.writebackDurable n false) s d)

/-- R426: what a write has put into the buffer, a read of the same LBAs gives back whole, whatever was buffered before, whatever the
drives hold and whichever of them fail. -/
def Obligations.ReadsSeeBufferedWrites : Prop :=
  ∀ (d d' : Dev) (pf a : Nat) (q : NCmd) (datas : List Bytes) (fails : List (Nat × Nat)), (∀ b ∈ datas, b.length = 4096) →
    bitOf (cdw q 12) 30 = false → bitOf (feat d pf 6) 0 = true → bufferWrite pf q a datas d = some d' →
    (readLbas fails (nNs q) datas.length a d').1 = some datas.flatten ∧
    ∀ b, b < a ∨ a + datas.length ≤ b → wbufFind d' (nNs q) b = wbufFind d (nNs q) b

/-- R437–R439, R442, R444: drive ports. Presence brings an empty port to LINK, a link in time to READY, one too late to FAILED; what a drive
holds decides what it becomes; a failed member or rebuilding drive leaves its pair; a rebuild copies chunk by chunk. -/
def Obligations.DrivePortsMoveThroughTheirStates : Prop :=
  ∀ (s : State) (n speed width : Nat),
    let d := s.dev
    let x := drv d n
    let slot : Prop := n < 4 ∧ islandPresent d.variant (dIsland n) = true
    (slot → x.present = false → x.st = 0 → drvOn d n = true → Lands (.drivePresence n true none) s
      (drvState n 1 0 (drvU n (fun x => { x with present := true }) d))) ∧
    (slot → x.present = true → x.st = 7 → Lands (.drivePresence n false none) s
      (leavePair pairLost n 0 0 (drvU n (fun x => { x with present := false }) d))) ∧
    (∀ on, slot → x.present = on → Lands (.drivePresence n on none) s d) ∧
    (x.st = 1 → x.released = false → x.since + 100000000 ≤ now d → Lands (.dperstRelease n) s
      (emit (.pin (pinDperst n) true) (drvU n (fun x => { x with released := true }) d))) ∧
    (x.st = 1 → x.released = true → now d ≤ x.since + 10000000000 → 1 ≤ speed → speed ≤ 5 → width = 1 ∨ width = 2 ∨ width = 4 →
      Lands (.driveLinkUp n speed width) s (drvState n 2 1 (drvU n (fun x => { x with up := true, speed := speed, width := width }) d))) ∧
    (x.st = 1 → x.since + 10000000000 ≤ now d → Lands (.driveLinkTimeout n) s (drvState n 8 3 d)) ∧
    (x.st = 2 → storageUp d = true → readLabel d n = none → drvMember d (partner n) = false → ∀ slabs, Lands (.driveIdentify n true slabs) s
      (let r := freeCause (drvU n (fun x => { x with slabs := slabs }) d)
       drvState n 3 r.1 r.2)) ∧
    (x.st = 2 → storageUp d = true → ∀ slabs, Lands (.driveIdentify n false slabs) s
      (let r := freeCause (drvU n (fun x => { x with slabs := slabs }) d)
       drvState n 5 r.1 r.2)) ∧
    (x.up = true → x.st = 7 → Lands (.driveWriteError n false) s (leavePair pairLost n 8 2 d)) ∧
    (x.up = true → x.st = 7 → Lands (.driveCommandTimeout n) s (leavePair pairLost n 8 3 (ctrInc (drvCtr n 0x20) d))) ∧
    (x.st = 6 → storageUp d = true → drvMember d (partner n) = true → rebuildNext d n = none → Lands (.rebuildChunk n []) s (rebuildDone n d)) ∧
    (∀ sl k, x.st = 6 → storageUp d = true → drvMember d (partner n) = true → rebuildNext d n = some (sl, k) → (drv d (partner n)).unread = [] →
      ((pairMap d (n / 2)).used.any fun u => decide (sl * 1024 + k + 1 < (u.1 + 1) * 1024)) = true → n < 4 → Runs (.rebuildChunk n []) s fun d' =>
        (drv d' n).rebuilt = sl * 1024 + k + 1 ∧ (drv d' n).st = 6 ∧ (drv d' n).marked = x.marked ∧
        ctrR d' (drvCtr n 0) = (ctrR d (drvCtr n 0) + 256) % 2 ^ 64)

/-- R441: the drive commands. ADOPT and RELEASE act on a drive in a state that allows them, FORMAT makes the present drives the
pairs' members, STATS reads and may clear the counters. -/
def Obligations.LedgerCommandsAreServed : Prop :=
  ∀ (s : State) (c : Cmd),
    let d := s.dev
    let n := c.f 16 1
    let p := n / 2
    let force := bitOf (c.f 17 1) 0
    let mate := drvMember d (partner n)
    let st := (drv d n).st
    let np := numPairs d.variant
    let there := fun n => [3, 4, 7].contains (drv d n).st
    let pairS := fun p => min 130048 (([2 * p, 2 * p + 1].filter there).foldl (fun (a : Option Nat) n =>
      some (match a with
        | none => (drv d n).slabs
        | some m => min m (drv d n).slabs)) (none : Option Nat) |>.getD 0)
    let fmtSt := ledgStatus d c [(20, 4)]
        (decide (c.f 20 4 % np ≠ 0) || decide (c.f 20 4 < np) || decide (np * (List.range np).foldl (fun (a : Nat) p => min a (pairS p)) 130048 < c.f 20 4))
        [(witEnAct d || anyIoSq d || (List.range (2 * np)).any (fun n => decide ((drv d n).st = 6)), stBadState)]
    let adoptSt := ledgStatus d c [(16, 1), (17, 1)] (decide (3 < n) || decide (1 < c.f 17 1))
        [(decide (unitStatus d (dIsland n) ≠ 0), unitStatus d (dIsland n)),
         (!([3, 4].contains st && (mate || force) && decide (d.ledger.volume ≠ [])), stBadState)]
    (mate = true → Serves (.driveAdopt c) c s adoptSt (fun d => startRebuild n 4 (nextEpoch p d))) ∧
    (mate = false → st = 4 → Serves (.driveAdopt c) c s adoptSt (fun d => nextEpoch p (drvState n 7 4 (adoptMap n d)))) ∧
    (mate = false → st = 3 → Serves (.driveAdopt c) c s adoptSt (fun d =>
      let m := otherMap d p (drv d n).slabs
      let d := drvState n 7 4 (pairMapW p m d)
      postDev 0xCA [BitVec.ofNat 8 p, 1] (m.used.foldl (fun d u => drvZero n (256 + slabLbas * u.1) slabLbas d) (writeMap n (writeLabel n d))))) ∧
    (adoptSt ≠ 0 → Lands (.driveAdopt c) s (completeSt c adoptSt d)) ∧
    Serves (.driveRelease c) c s (ledgStatus d c [(16, 1), (17, 1)] (decide (3 < n) || decide (1 < c.f 17 1))
        [(decide (unitStatus d (dIsland n) ≠ 0), unitStatus d (dIsland n)), (!(drvMember d n && (mate || force)), stBadState)])
      (leavePair pairLost n 9 4) ∧
    (fmtSt ≠ 0 → Lands (.ledgerFormat c) s (completeSt c fmtSt d)) ∧
    (c.fn = 0 → cmdSelf c ≠ none → reservedOk c [(20, 4)] = true → d.variant = .l → islandOn d 48 = true → c.tcq = none →
      (drv d 0).st = 3 → (drv d 1).st = 3 → 1 ≤ c.f 20 4 → c.f 20 4 ≤ min 130048 (min (drv d 0).slabs (drv d 1).slabs) →
      witEnAct d = false → anyIoSq d = false → Runs (.ledgerFormat c) s fun d' =>
        drvMember d' 0 = true ∧ drvMember d' 1 = true ∧ nsSlabs d' 1 = c.f 20 4 ∧ d'.ledger.wbuf = [] ∧ d'.ledger.volume.length = 16) ∧
    Serves (.ledgerStats c) c s (ledgStatus d c [(17, 1), (24, 8)] (decide (1 < c.f 17 1) || decide (c.f 24 8 % 64 ≠ 0)) [])
      (fun d => dma c.fn (c.f 24 8) (((List.range 4).flatMap fun n => (List.range 6).map fun i => drvCtr n (8 * i)).flatMap fun k => leBytes 8 (ctrR d k))
        (if bitOf (c.f 17 1) 0 then ((List.range 4).flatMap fun n => (List.range 6).map fun i => drvCtr n (8 * i)).foldl (fun d k => ctrW k 0 d) d else d))

/-! ### The Givik instruction set (16) -/

/-- R502, R513: each integer, multiply, compare and select instruction that issues writes its result, reading its operands
before it writes, and goes on to the next instruction. The result is given by the integers the operands stand for. R503, R513:
each immediate instruction that issues writes its result and goes on; arithmetic and comparisons extend the immediate with its
sign, logic with zeros. -/
def Obligations.AluAndImmediateInstructionsWriteTheirResult : Prop :=
  (∀ (s : State) (c t : Nat) (D A B C : BitVec 5), s.dev.wr = [] →
    let a := greg s.dev c t A
    let b := greg s.dev c t B
    let x := greg s.dev c t C
    Computes (.add c t D A B) s c t (encA 0 D A B 0) D (BitVec.ofNat 64 (a.toNat + b.toNat)) ∧
    Computes (.sub c t D A B) s c t (encA 1 D A B 0) D (BitVec.ofInt 64 ((a.toNat : Int) - b.toNat)) ∧
    Computes (.and c t D A B) s c t (encA 2 D A B 0) D (a &&& b) ∧
    Computes (.or c t D A B) s c t (encA 3 D A B 0) D (a ||| b) ∧
    Computes (.xor c t D A B) s c t (encA 4 D A B 0) D (a ^^^ b) ∧
    Computes (.sll c t D A B) s c t (encA 5 D A B 0) D (BitVec.ofNat 64 (a.toNat * 2 ^ (b.toNat % 64))) ∧
    Computes (.srl c t D A B) s c t (encA 6 D A B 0) D (BitVec.ofNat 64 (a.toNat / 2 ^ (b.toNat % 64))) ∧
    Computes (.sra c t D A B) s c t (encA 7 D A B 0) D (BitVec.ofInt 64 (a.toInt / 2 ^ (b.toNat % 64))) ∧
    Computes (.slt c t D A B) s c t (encA 8 D A B 0) D (if a.toInt < b.toInt then 1 else 0) ∧
    Computes (.sltu c t D A B) s c t (encA 9 D A B 0) D (if a.toNat < b.toNat then 1 else 0) ∧
    Computes (.seq c t D A B) s c t (encA 10 D A B 0) D (if a = b then 1 else 0) ∧
    Computes (.sne c t D A B) s c t (encA 11 D A B 0) D (if a = b then 0 else 1) ∧
    Computes (.min c t D A B) s c t (encA 12 D A B 0) D (if a.toInt ≤ b.toInt then a else b) ∧
    Computes (.max c t D A B) s c t (encA 13 D A B 0) D (if b.toInt ≤ a.toInt then a else b) ∧
    Computes (.minu c t D A B) s c t (encA 14 D A B 0) D (if a.toNat ≤ b.toNat then a else b) ∧
    Computes (.maxu c t D A B) s c t (encA 15 D A B 0) D (if b.toNat ≤ a.toNat then a else b) ∧
    (∀ n, (a = 0 → n = 64) → (a ≠ 0 → n < 64 ∧ 2 ^ (63 - n) ≤ a.toNat ∧ a.toNat < 2 ^ (64 - n)) →
      Computes (.clz c t D A) s c t (encA 16 D A 0 0) D (BitVec.ofNat 64 n)) ∧
    Computes (.popc c t D A) s c t (encA 17 D A 0 0) D
      (BitVec.ofNat 64 ((List.range 64).filter fun i => a.getLsbD i).length) ∧
    Computes (.sel c t D A B C) s c t (encA 0x12 D A B C) D (if x = 0 then b else a) ∧
    Computes (.mul c t D A B) s c t (encA 24 D A B 0) D (BitVec.ofNat 64 (a.toNat * b.toNat)) ∧
    Computes (.mulhs c t D A B) s c t (encA 25 D A B 0) D (BitVec.ofInt 64 (a.toInt * b.toInt / 2 ^ 64)) ∧
    Computes (.mulhu c t D A B) s c t (encA 26 D A B 0) D (BitVec.ofNat 64 (a.toNat * b.toNat / 2 ^ 64))) ∧
  (∀ (s : State) (c t : Nat) (D A : BitVec 5) (imm : BitVec 16) (sh : BitVec 6), s.dev.wr = [] →
    let a := greg s.dev c t A
    Computes (.addi c t D A imm) s c t (encI 2 D A imm) D (BitVec.ofInt 64 (a.toInt + imm.toInt)) ∧
    Computes (.andi c t D A imm) s c t (encI 3 D A imm) D (a &&& BitVec.ofNat 64 imm.toNat) ∧
    Computes (.ori c t D A imm) s c t (encI 4 D A imm) D (a ||| BitVec.ofNat 64 imm.toNat) ∧
    Computes (.xori c t D A imm) s c t (encI 5 D A imm) D (a ^^^ BitVec.ofNat 64 imm.toNat) ∧
    Computes (.slti c t D A imm) s c t (encI 6 D A imm) D (if a.toInt < imm.toInt then 1 else 0) ∧
    Computes (.sltui c t D A imm) s c t (encI 7 D A imm) D (if a.toNat < (BitVec.ofInt 64 imm.toInt).toNat then 1 else 0) ∧
    Computes (.lui c t D imm) s c t (encI 8 D 0 imm) D (BitVec.ofInt 64 (imm.toInt * 2 ^ 16)) ∧
    Computes (.slli c t D A sh) s c t (encI 9 D A (sh.setWidth 16)) D (BitVec.ofNat 64 (a.toNat * 2 ^ sh.toNat)) ∧
    Computes (.srli c t D A sh) s c t (encI 10 D A (sh.setWidth 16)) D (BitVec.ofNat 64 (a.toNat / 2 ^ sh.toNat)) ∧
    Computes (.srai c t D A sh) s c t (encI 11 D A (sh.setWidth 16)) D (BitVec.ofInt 64 (a.toInt / 2 ^ sh.toNat)))

/-- R504, R505: a load that issues at an aligned address inside one memory, on no poisoned DRAM line, reads its bytes least
significant first and extends them; a packet-window load inside the window reads network order at any alignment. Each goes on to
the next instruction and changes nothing else. R504: a store that issues at an aligned address inside a memory other than the
packet window, and in no REMOVED rank, writes the low bytes of its register least significant first; every other byte of memory,
every register and everything else of the device is as before, and the thread goes on. -/
def Obligations.LoadsAndStoresTouchTheirBytes : Prop :=
  (∀ (s : State) (c t : Nat) (D A : BitVec 5) (imm : BitVec 16), s.dev.wr = [] →
    let ea := (greg s.dev c t A + imm.signExtend 64).toNat % 2 ^ 32
    let good (n : Nat) (p : GPlace) : Prop := placeOf ea n = some p ∧ ea % n = 0 ∧
      ∀ a, p = .dram a → linePoisoned s.dev (placeAt s.dev c t p).2 = false
    let num (n : Nat) (p : GPlace) : Nat :=
      leNat ((List.range n).map fun i => Memory.read s.dev.mem (spaceAddr (placeAt s.dev c t p).1 ((placeAt s.dev c t p).2 + i)))
    let win (n : Nat) : Nat :=
      beNat ((List.range n).map fun i => Memory.read s.dev.mem (spaceAddr (spc s.dev (windowSpace c t)) (ea + i)))
    (∀ p, good 1 p → Computes (.lb c t D A imm) s c t (encI 0x10 D A imm) D ((BitVec.ofNat 8 (num 1 p)).signExtend 64)) ∧
    (∀ p, good 1 p → Computes (.lbu c t D A imm) s c t (encI 0x11 D A imm) D (BitVec.ofNat 64 (num 1 p))) ∧
    (∀ p, good 2 p → Computes (.lh c t D A imm) s c t (encI 0x12 D A imm) D ((BitVec.ofNat 16 (num 2 p)).signExtend 64)) ∧
    (∀ p, good 2 p → Computes (.lhu c t D A imm) s c t (encI 0x13 D A imm) D (BitVec.ofNat 64 (num 2 p))) ∧
    (∀ p, good 4 p → Computes (.lw c t D A imm) s c t (encI 0x14 D A imm) D ((BitVec.ofNat 32 (num 4 p)).signExtend 64)) ∧
    (∀ p, good 4 p → Computes (.lwu c t D A imm) s c t (encI 0x15 D A imm) D (BitVec.ofNat 64 (num 4 p))) ∧
    (∀ p, good 8 p → Computes (.ld c t D A imm) s c t (encI 0x16 D A imm) D (BitVec.ofNat 64 (num 8 p))) ∧
    (ea + 1 ≤ 256 → Computes (.plb c t D A imm) s c t (encI 0xC D A imm) D (BitVec.ofNat 64 (win 1))) ∧
    (ea + 2 ≤ 256 → Computes (.plh c t D A imm) s c t (encI 0xD D A imm) D (BitVec.ofNat 64 (win 2))) ∧
    (ea + 4 ≤ 256 → Computes (.plw c t D A imm) s c t (encI 0xE D A imm) D (BitVec.ofNat 64 (win 4))) ∧
    (ea + 8 ≤ 256 → Computes (.pld c t D A imm) s c t (encI 0xF D A imm) D (BitVec.ofNat 64 (win 8)))) ∧
  (∀ (s : State) (c t : Nat) (S A : BitVec 5) (imm : BitVec 16) (p : GPlace), s.dev.wr = [] →
    let ea := (greg s.dev c t A + imm.signExtend 64).toNat % 2 ^ 32
    let good (n : Nat) : Prop := placeOf ea n = some p ∧ ea % n = 0 ∧ (∀ a, p ≠ .window a) ∧
      ∀ a, p = .dram a → ∃ r o, dramLoc s.dev (placeAt s.dev c t p).2 = some (r, o) ∧ rankSt s.dev r ≠ 6
    let at_ : Nat := spaceAddr (placeAt s.dev c t p).1 (placeAt s.dev c t p).2
    let stored (i : Instr) (w n : Nat) : Prop :=
      IssuesSeq s.dev c t w → Runs i s fun d' =>
        RegAt { s.dev with mem := d'.mem } d' c t 0 0 ((thr s.dev c t).pc + 4) ∧
        ∀ x, Memory.read d'.mem x =
          if at_ ≤ x ∧ x < at_ + n then BitVec.ofNat 8 ((greg s.dev c t S).toNat / 256 ^ (x - at_)) else Memory.read s.dev.mem x
    (good 1 → stored (.sb c t S A imm) (encI 0x18 S A imm) 1) ∧
    (good 2 → stored (.sh c t S A imm) (encI 0x19 S A imm) 2) ∧
    (good 4 → stored (.sw c t S A imm) (encI 0x1A S A imm) 4) ∧
    (good 8 → stored (.sd c t S A imm) (encI 0x1B S A imm) 8))

/-- R506: a branch or jump that issues, with its target inside instruction memory, goes to the target; JAL and JALR write
the address of the following instruction; nothing else changes. -/
def Obligations.BranchesAndJumpsSetThePc : Prop :=
  ∀ (s : State) (c t : Nat) (D A B : BitVec 5) (off : BitVec 16) (far : BitVec 26) (n : Nat), s.dev.wr = [] → n ≤ 0x1FFFC →
    let a := greg s.dev c t A
    let b := greg s.dev c t B
    let pc := (thr s.dev c t).pc
    let goes (i : Instr) (w : Nat) (D : BitVec 5) (v : BitVec 64) (target : Int) : Prop :=
      target = n → Issues s.dev c t w → Runs i s fun d' => RegAt s.dev d' c t D v n
    let rel (taken : Prop) [Decidable taken] : Int := if taken then pc + 4 * off.toInt else pc + 4
    goes (.beq c t A B off) (encI 0x20 A B off) 0 0 (rel (a = b)) ∧
    goes (.bne c t A B off) (encI 0x21 A B off) 0 0 (rel (a ≠ b)) ∧
    goes (.blt c t A B off) (encI 0x22 A B off) 0 0 (rel (a.toInt < b.toInt)) ∧
    goes (.bge c t A B off) (encI 0x23 A B off) 0 0 (rel (b.toInt ≤ a.toInt)) ∧
    goes (.bltu c t A B off) (encI 0x24 A B off) 0 0 (rel (a.toNat < b.toNat)) ∧
    goes (.bgeu c t A B off) (encI 0x25 A B off) 0 0 (rel (b.toNat ≤ a.toNat)) ∧
    goes (.j c t far) (encJ 0x26 far) 0 0 (pc + 4 * far.toInt) ∧
    goes (.jal c t far) (encJ 0x27 far) 31 (BitVec.ofNat 64 (pc + 4)) (pc + 4 * far.toInt) ∧
    goes (.jalr c t D A off) (encI 0x28 D A off) D (BitVec.ofNat 64 (pc + 4))
      ((a + off.signExtend 64) &&& ~~~(3#64)).toInt

/-- R482–R484, R508: the lock, event and timer instructions on a number in range. A free lock is taken and tells whether it was
broken; a lock held by another makes ACQ wait (where no wait-for cycle closes) and TACQ answer 0; REL frees a lock nobody waits
for; WAIT takes a count or waits; SIG on an event nobody waits for counts; a timer is armed with its deadline. R487, R509:
channels. The first word makes the writer owner, the owner appends up to 16, CHC commits and clears CH_ABANDONED, CHR and CHRL
read a committed message, and CHRL frees a channel no writer waits for; a reader of an uncommitted message and a writer of
another's channel wait. R482, R483, R487: a thread whose wait has ended goes on. -/
def Obligations.KeystoneAndChannelInstructionsActOnTheirUnit : Prop :=
  (∀ (s : State) (c t : Nat) (D A : BitVec 5) (k : BitVec 12) (n : Nat), s.dev.wr = [] →
    n = ((greg s.dev c t A).toNat + k.toNat) % 2 ^ 32 →
    let d := s.dev
    let x := thr d c t
    let l := glock d c n
    let e := gevent d c n
    let sec := (greg d c t D).toNat % 2 ^ 48
    let ns := (greg d c t (D + 1)).toNat % 2 ^ 32
    let v2 := (greg d c t (D + 2)).toNat
    let dl := (sec * 1000000000 + ns) * 2 ^ 48 + v2 % 2 ^ 16 * 2 ^ 32
    let v := (greg d c t D).toNat
    (n < 1024 → l.owner = none → IssuesSeq d c t (encK 0x31 0 A 0 k) → Runs (.acq c t A k) s fun d' =>
      glock d' c n = { l with owner := some t, broken := false } ∧
      thr d' c t = { x with broken := l.broken, pc := x.pc + 4, step := false }) ∧
    (∀ o, n < 1024 → l.owner = some o → o ≠ t → (thr d c o).st = .running →
      IssuesSeq d c t (encK 0x31 0 A 0 k) → Runs (.acq c t A k) s fun d' =>
        glock d' c n = { l with waiters := l.waiters ++ [t] } ∧ thr d' c t = { x with st := .waiting (.lock n), step := false }) ∧
    (n < 1024 → l.owner = none → IssuesSeq d c t (encK 0x31 D A 1 k) → Runs (.tacq c t D A k) s fun d' =>
      glock d' c n = { l with owner := some t, broken := false } ∧ (D ≠ 0 → greg d' c t D = 1) ∧ (thr d' c t).broken = l.broken ∧
      (thr d' c t).pc = x.pc + 4) ∧
    (∀ o, n < 1024 → l.owner = some o → o ≠ t → IssuesSeq d c t (encK 0x31 D A 1 k) → Runs (.tacq c t D A k) s fun d' =>
      glock d' c n = l ∧ (D ≠ 0 → greg d' c t D = 0) ∧ (thr d' c t).broken = false ∧ (thr d' c t).pc = x.pc + 4) ∧
    (n < 1024 → l.owner = some t → l.waiters = [] → IssuesSeq d c t (encK 0x31 0 A 2 k) → Runs (.rel c t A k) s fun d' =>
      glock d' c n = { l with owner := none } ∧ (thr d' c t).pc = x.pc + 4) ∧
    (∀ w rest, n < 1024 → l.owner = some t → l.waiters = w :: rest → w ≠ t → IssuesSeq d c t (encK 0x31 0 A 2 k) →
      Runs (.rel c t A k) s fun d' =>
        glock d' c n = { l with owner := some w, waiters := rest } ∧ (thr d' c w).granted = some false ∧ (thr d' c t).pc = x.pc + 4) ∧
    (n < 256 → 0 < e.count → IssuesSeq d c t (encK 0x31 0 A 3 k) → Runs (.wait c t A k) s fun d' =>
      gevent d' c n = { e with count := e.count - 1 } ∧ (thr d' c t).pc = x.pc + 4) ∧
    (n < 256 → e.count = 0 → IssuesSeq d c t (encK 0x31 0 A 3 k) → Runs (.wait c t A k) s fun d' =>
      gevent d' c n = { e with waiters := e.waiters ++ [t] } ∧ thr d' c t = { x with st := .waiting (.event n), step := false }) ∧
    (n < 256 → e.waiters = [] → e.count < 65535 → IssuesSeq d c t (encK 0x31 0 A 4 k) → Runs (.sig c t A k) s fun d' =>
      gevent d' c n = { e with count := e.count + 1 } ∧ (thr d' c t).pc = x.pc + 4) ∧
    (n < 32 → strPresent d (bitsOf v2 26 24) = true → ns < 1000000000 → (rep d (gIsland c) (bitsOf v2 26 24)).t < dl →
      IssuesSeq d c t (encK 0x31 D A 5 k) → Runs (.tmrs c t D A k) s fun d' =>
        gtimer d' c n = some ⟨bitsOf v2 23 16, .time (bitsOf v2 26 24) dl⟩ ∧ (thr d' c t).pc = x.pc + 4) ∧
    (n < 32 → v % 2 ^ 32 ≠ 0 → IssuesSeq d c t (encK 0x31 D A 6 k) → Runs (.tmrc c t D A k) s fun d' =>
      gtimer d' c n = some ⟨bitsOf v 39 32, .cycle (gCycle d + v % 2 ^ 32)⟩ ∧ (thr d' c t).pc = x.pc + 4)) ∧
  (∀ (s : State) (c t : Nat) (D A : BitVec 5) (w : BitVec 4) (k : BitVec 8) (n : Nat), s.dev.wr = [] →
    n = ((greg s.dev c t A).toNat + k.toNat) % 2 ^ 32 → n < 256 →
    let d := s.dev
    let x := thr d c t
    let h := gchan d c n
    let v := greg d c t D
    (h.lost = [] → h.owner = none → h.committed = false → h.writers = [] → IssuesSeq d c t (encK 0x32 D A 0 (k.setWidth 12)) →
      Runs (.chw c t D A k) s fun d' =>
        gchan d' c n = { h with owner := some t, since := now d, words := [v] } ∧ (thr d' c t).pc = x.pc + 4) ∧
    (h.lost = [] → h.owner = some t → h.words.length < 16 → IssuesSeq d c t (encK 0x32 D A 0 (k.setWidth 12)) →
      Runs (.chw c t D A k) s fun d' => gchan d' c n = { h with words := h.words ++ [v] } ∧ (thr d' c t).pc = x.pc + 4) ∧
    (∀ o, h.lost = [] → h.owner = some o → o ≠ t → IssuesSeq d c t (encK 0x32 D A 0 (k.setWidth 12)) →
      Runs (.chw c t D A k) s fun d' =>
        gchan d' c n = { h with writers := h.writers ++ [t] } ∧ thr d' c t = { x with st := .waiting (.write n), step := false }) ∧
    (h.lost = [] → h.owner = some t → IssuesSeq d c t (encK 0x32 0 A 1 (k.setWidth 12)) → Runs (.chc c t A k) s fun d' =>
      gchan d' c n = { h with owner := none, committed := true } ∧
      thr d' c t = { x with abandoned := false, pc := x.pc + 4, step := false }) ∧
    (h.lost = [t] → IssuesSeq d c t (encK 0x32 0 A 1 (k.setWidth 12)) → Runs (.chc c t A k) s fun d' =>
      gchan d' c n = { h with lost := [] } ∧ thr d' c t = { x with abandoned := true, pc := x.pc + 4, step := false }) ∧
    (h.committed = true → IssuesSeq d c t (encK 0x32 D A 2 (w ++ k)) → Runs (.chr c t D A w k) s fun d' =>
      RegAt d d' c t D (h.words.getD w.toNat 0) (x.pc + 4)) ∧
    (h.committed = false → IssuesSeq d c t (encK 0x32 D A 2 (w ++ k)) → Runs (.chr c t D A w k) s fun d' =>
      thr d' c t = { x with st := .waiting (.read n), step := false }) ∧
    (h.committed = true → h.writers = [] → IssuesSeq d c t (encK 0x32 D A 3 (w ++ k)) → Runs (.chrl c t D A w k) s fun d' =>
      gchan d' c n = { h with owner := none, words := [], committed := false } ∧
      (D ≠ 0 → greg d' c t D = h.words.getD w.toNat 0) ∧ (thr d' c t).pc = x.pc + 4) ∧
    (∀ m b, x.st = .waiting (.lock m) → x.granted = some b → (x.halted = false ∨ x.step = true) → coreStopped d c (t / 8) = false →
      islandOn d (gIsland c) = true → overdue d x = false → Runs (.keystoneWake c t) s fun d' =>
        OnlyThread d d' c t ∧
        thr d' c t = { x with broken := b, st := .running, granted := none, step := false, pc := x.pc + 4 }))

/-- R507, R510–R512, R477: lookup, time, work and special-register instructions. A disabled table gives 0 and 0, one in table
memory the entry's action; TRD reads a present string's seconds, nanoseconds and fraction with its quality; RECD sets the record
value of the work item; WNEXT without a work item parks; WDONE decides a work item within its budget, by its verdict. MFS gives
the special register; a cycle count is exact but for its last cycle, free (log entry 45). R488, R489, R500, R512, R513: TRAP,
BRK outside debug and a word outside the tables fault: the core stops, and its fault counter rises. BRK of a core under debug,
and a breakpoint hit, halt the thread (R492). -/
def Obligations.LookupTimeWorkAndFaultingInstructions : Prop :=
  (∀ (s : State) (c t : Nat) (D A : BitVec 5) (tbl st : BitVec 3) (po : Bool) (ch : Nat) (k : BitVec 12), s.dev.wr = [] →
    let d := s.dev
    let x := thr d c t
    let a := (greg d c t A).toNat
    let q := a % 2 ^ 32
    let key (p : GPlace) := rd d (placeAt d c t p).1 (placeAt d c t p).2 48
    let ready (p : GPlace) : Prop := placeOf a 48 = some p ∧ a % 64 = 0 ∧ (p = .data a ∨ p = .cluster (a - 0x1000000))
    let pair (d' : Dev) (lo hi : BitVec 64) : Prop :=
      greg d' c t D = lo ∧ greg d' c t (D + 1) = hi ∧ (thr d' c t).shed = false ∧ (thr d' c t).lpoison = false ∧
      (thr d' c t).pc = x.pc + 4 ∧ OnlyThread d d' c t
    let y := rep d (gIsland c) st.toNat
    let v := toR17 y.t
    (∀ p, ready p → (tblEn d tbl.toNat = false ∨ tablesOn d = false) → IssuesSeq d c t (encK 0x30 D A 0 (tbl.setWidth 12)) →
      Runs (.lkup c t D A tbl po ch) s fun d' => pair d' 0 0) ∧
    (∀ p e, ready p → tblEn d tbl.toNat = true → tablesOn d = true → tblDram d tbl.toNat = false →
      lookup d tbl.toNat (key p) = some e → IssuesSeq d c t (encK 0x30 D A 0 (tbl.setWidth 12)) →
      Runs (.lkup c t D A tbl po ch) s fun d' => pair d' (BitVec.ofNat 64 (le e 48 8)) (BitVec.ofNat 64 (le e 56 8))) ∧
    (strPresent d st.toNat = true → IssuesSeq d c t (encK 0x33 D 0 0 (st.setWidth 12)) → Runs (.trd c t D st) s fun d' =>
      greg d' c t D = BitVec.ofNat 64 (v / 2 ^ 48) ∧ greg d' c t (D + 1) = BitVec.ofNat 64 (v / 2 ^ 16 % 2 ^ 32) ∧
      greg d' c t (D + 2) = BitVec.ofNat 64 (v % 2 ^ 16 + stCode y.st * 2 ^ 16 + b2n (outOfBound d st.toNat y.u) * 2 ^ 19 + y.u * 2 ^ 32) ∧
      (thr d' c t).pc = x.pc + 4 ∧ OnlyThread d d' c t) ∧
    (strPresent d st.toNat = false → IssuesSeq d c t (encK 0x33 D 0 0 (st.setWidth 12)) → Runs (.trd c t D st) s fun d' =>
      greg d' c t D = 0 ∧ greg d' c t (D + 1) = 0 ∧ greg d' c t (D + 2) = 0 ∧ (thr d' c t).pc = x.pc + 4) ∧
    (x.item = none → x.moved = false → IssuesSeq d c t (encK 0x34 D A 0 k) → Runs (.wnext c t D A k) s fun d' =>
      OnlyThread d d' c t ∧ thr d' c t = { x with st := .parked, step := false }) ∧
    (IssuesSeq d c t (encK 0x34 0 A 2 k) → Runs (.recd c t A k) s fun d' =>
      OnlyThread d d' c t ∧
      thr d' c t = { x with item := x.item.map fun i => { i with recd := some (greg d c t A) }, pc := x.pc + 4, step := false }) ∧
    (∀ i (vd : BitVec 2) (r : Bool), x.item = some i → itemCycles d x + (if (gcore d c (t / 8)).paired then 1 else 8) ≤ i.budget →
      vd ≠ 3 → (vd = 2 → q = discardQ ∨ qKind q = 0 ∨ qKind q = 3) →
      IssuesSeq d c t (encK 0x34 0 A 1 (BitVec.ofNat 12 (vd.toNat + 4 * b2n r))) →
      Lands (.wdone c t A vd r) s
        (let d1 := retire c t id (thrU c t (fun x => { x with step := false }) d)
         let cyc := itemCycles d x + (if (gcore d c (t / 8)).paired then 1 else 8)
         let d2 := if ctrR d1 (gateCtr i.gate 0x48) < cyc then ctrW (gateCtr i.gate 0x48) cyc d1 else d1
         let d3 := if r = true then (writeRec (decisionRec d2 c vd.toNat i) c d2).2 else d2
         let f := { i.frame with gated := true }
         let done (off : Nat) := ctrInc (gateCtr i.gate off) (dropItem c t d3)
         let g := { f with slotOf := none, dest := destOf (freeSlot f (done 0x18)) f q }
         if vd = 0 then gatePass (gIsland c) i.gate f (done 8)
         else if vd = 1 then gateDrop f (done 0x10)
         else deliver (gIsland c) g (finishRec g (decide (g.dest = .discard)) (freeSlot f (done 0x18))))) ∧
    (IssuesSeq d c t (encK 0x35 D 0 0 1) → Runs (.mfs c t D 1) s fun d' =>
      greg d' c t D = (if D = 0 then 0 else BitVec.ofNat 64 (t % 64 + c % 8 * 256)) ∧ (thr d' c t).pc = x.pc + 4) ∧
    (IssuesSeq d c t (encK 0x35 D 0 0 0) → Runs (.mfs c t D 0) s fun d' =>
      greg d' c t D = (if D = 0 then 0 else BitVec.ofNat 64 (statusWord d c t)) ∧ (thr d' c t).pc = x.pc + 4) ∧
    (IssuesSeq d c t (encK 0x35 D 0 0 2) → Runs (.mfs c t D 2) s fun d' => (thr d' c t).pc = x.pc + 4 ∧
      ∃ h < 2, greg d' c t D = (if D = 0 then 0 else BitVec.ofNat 64 (gCycle d - (gcore d c (t / 8)).start + h))) ∧
    (IssuesSeq d c t (encK 0x35 D 0 0 3) → Runs (.mfs c t D 3) s fun d' => (thr d' c t).pc = x.pc + 4 ∧
      ∃ h < 2, greg d' c t D = (if D = 0 ∨ x.item = none then 0 else BitVec.ofNat 64 (itemCycles d x + h))) ∧
    (IssuesSeq d c t (encK 0x35 D 0 0 4) → Runs (.mfs c t D 4) s fun d' => (thr d' c t).pc = x.pc + 4 ∧
      greg d' c t D = (if D = 0 then 0 else BitVec.ofNat 64 ((x.item.map GItem.budget).getD 0)))) ∧
  (∀ (s : State) (c t : Nat) (code : BitVec 16) (bits : BitVec 26), s.dev.wr = [] →
    let d := s.dev
    let k := t / 8
    let stops (d' : Dev) : Prop := coreStopped d' c k = true ∧ (gcore d' c k).faults = (gcore d c k).faults + 1
    (Issues d c t (encI 0x3E 0 0 code) → Runs (.trap c t code) s stops) ∧
    (debugEn d c k = false → Issues d c t (encJ 0x3F bits) → Runs (.brk c t bits) s stops) ∧
    (debugEn d c k = true → (thr d c t).halted = false → Issues d c t (encJ 0x3F bits) → Runs (.brk c t bits) s fun d' =>
      (thr d' c t).halted = true ∧ (thr d' c t).pc = (thr d c t).pc ∧ bitR d' (dbgKey c k 4) (8 + t % 8) = true) ∧
    (mayIssue d c t = true → (bpMatch d c t = false ∨ (thr d c t).step = true) → legalWord (fetchWord d c t) = false →
      Runs (.illegal c t) s stops) ∧
    (mayIssue d c t = true → bpMatch d c t = true → (thr d c t).halted = false → Runs (.breakpointHit c t) s fun d' =>
      (thr d' c t).halted = true ∧ (thr d' c t).pc = (thr d c t).pc ∧ bitR d' (dbgKey c k 4) (8 + t % 8) = true))

/-! ### Givik clusters (15) -/

/-- R477, R478, R481, R484, R486, R487, R497: what the device itself does in a cluster. A parked thread of the gate takes the
frame; a budget that runs out restarts the thread without its work item; a timer that is due signals and disarms; a channel held
too long passes to the first writer that waits; quiescence stops the waiting cores; refusals are reported. R475, R492: debug.
DEBUG_EN follows its write where debug of the core is allowed; halt, resume and step act on the threads named; a halted thread's
selected register takes the word written. -/
def Obligations.ClusterEventsAndDebugActOnThreads : Prop :=
  (∀ (s : State) (c t n g : Nat), s.dev.wr = [] →
    let d := s.dev
    (∀ f d1 alt, receive (gIsland c) (fun i => match i with | .gate _ _ => true | _ => false) d = some (.gate g f, d1) →
      gateServer d1 g = some (c, alt) → gateOn d1 g = true → (clu d1 c).image = true → islandOn d1 (gIsland c) = true →
      (rotation d1 g c alt).find? (isParked d1 c) = some t → (thr d1 c t).halted = false →
      Runs (.gateIntake c) s fun d' =>
        (thr d' c t).item = some { gate := g, number := (ggate d1 g).item, frame := f, start := some (gCycle d1), budget := if Word.fld f.clsB 19 0 = 0 then gateBudget d1 g else Word.fld f.clsB 19 0 } ∧
        (thr d' c t).st = .running ∧ (thr d' c t).pc = (thr d1 c t).pc + 4 ∧
        ggate d' g = { last := some (c * 64 + t), item := ((ggate d1 g).item + 1) % 2 ^ 32 } ∧
        ctrR d' (gateCtr g 0) = (ctrR d1 (gateCtr g 0) + 1) % 2 ^ 64) ∧
    (∀ i b, (thr d c t).item = some i → i.start = some b → (thr d c t).halted = false → coreStopped d c (t / 8) = false →
      i.budget ≤ itemCycles d (thr d c t) → locksOf d c t = [] → chansOf d c t = [] →
      Runs (.budgetExpiry c t) s fun d' => (thr d' c t).item = none ∧ (thr d' c t).regs = []) ∧
    (rateDue d (rateKey 0xAB g) = true → Lands (.gateBusy g) s
      (postDev 0xAB (leBytes 1 g ++ leBytes 4 (rateOf d (rateKey 0xAB g)).count) (rateClear (rateKey 0xAB g) d))) ∧
    (∀ e k, gtimer d c n = some ⟨e, .cycle k⟩ → k ≤ gCycle d → islandOn d (gIsland c) = true → (gevent d c e).waiters = [] →
      (gevent d c e).count < 65535 → Runs (.keystoneTimer c n) s fun d' =>
        gtimer d' c n = none ∧ gevent d' c e = { gevent d c e with count := (gevent d c e).count + 1 }) ∧
    (∀ e st k, gtimer d c n = some ⟨e, .time st k⟩ → k ≤ (rep d (gIsland c) st).t → islandOn d (gIsland c) = true →
      (gevent d c e).waiters = [] → (gevent d c e).count < 65535 → Runs (.keystoneTimer c n) s fun d' =>
        gtimer d' c n = none ∧ gevent d' c e = { gevent d c e with count := (gevent d c e).count + 1 }) ∧
    (effF d (gvKey c 0x14) 15 0 ≠ 0 → (List.range 64).filter (keystoneWaits d c) ≠ [] →
      (∀ u < 64, coreStopped d c (u / 8) = true ∨
        ((thr d c u).halted = false ∧ (thr d c u).granted = none ∧ (countsIdle d c u = true ∨ keystoneWaits d c u = true))) →
      (∀ u < 64, ∀ m, (thr d c u).st = .waiting (.event m) → effB d (gvKey c (0x20 + 4 * (m / 32))) (m % 32) = false) →
      (clu d c).timers = [] → d.xings = [] → islandOn d (gIsland c) = true →
      (clu d c).lastAct + effF d (gvKey c 0x14) 15 0 * 1000 ≤ now d →
      Lands (.quiescentDeadlock c) s (deadlock c 11 0 ((List.range 64).filter (keystoneWaits d c)) d)) ∧
    (∀ o w rest, (gchan d c n).owner = some o → effF d (gvKey c 0x18) 19 0 ≠ 0 → (gchan d c n).writers = w :: rest →
      islandOn d (gIsland c) = true → (gchan d c n).since + effF d (gvKey c 0x18) 19 0 * 1000 ≤ now d →
      Runs (.channelAbandon c n) s fun d' =>
        gchan d' c n = { owner := some w, since := now d, words := [], committed := false, writers := rest, lost := (gchan d c n).lost ++ [o] } ∧
        (thr d' c w).granted = some false ∧ ctrR d' (gvKey c 0xC08) = (ctrR d (gvKey c 0xC08) + 1) % 2 ^ 64)) ∧
  (∀ (s : State) (c k mask i : Nat) (on : Bool) (v : Word), s.dev.wr = [] → k < 8 → i < 8 →
    let d := s.dev
    let w := regR d (dbgKey c k 0x18)
    let t := k * 8 + Word.fld w 26 24
    let r := Word.fld w 5 0
    ((on = false ∨ coreReserved d.variant c k = false ∨ d.dbgCores = true) →
      Runs (.dbgCtlDebugEn c k on) s fun d' => debugEn d' c k = on) ∧
    (debugEn d c k = true → mask.testBit i = true → (thr d c (k * 8 + i)).st ≠ .idle →
      Runs (.dbgHalt c k mask) s fun d' => (thr d' c (k * 8 + i)).halted = true) ∧
    (debugEn d c k = true → mask.testBit i = true →
      Runs (.dbgResume c k mask) s fun d' => (thr d' c (k * 8 + i)).halted = false) ∧
    (debugEn d c k = true → (thr d c (k * 8 + i)).halted = true →
      Runs (.dbgStep c k i) s fun d' => (thr d' c (k * 8 + i)).step = true) ∧
    (debugEn d c k = true → (thr d c t).halted = true → 0 < r → r < 32 →
      Runs (.dbgDataWrite c k false v) s fun d' => greg d' c t (BitVec.ofNat 5 r) =
        BitVec.ofNat 64 ((greg d c t (BitVec.ofNat 5 r)).toNat / 2 ^ 32 * 2 ^ 32 + v.toNat)) ∧
    (debugEn d c k = true → (thr d c t).halted = true → 0 < r → r < 32 →
      Runs (.dbgDataWrite c k true v) s fun d' => greg d' c t (BitVec.ofNat 5 r) =
        BitVec.ofNat 64 ((greg d c t (BitVec.ofNat 5 r)).toNat % 2 ^ 32 + v.toNat * 2 ^ 32)) ∧
    (debugEn d c k = true → (thr d c t).halted = true → r = 32 →
      Runs (.dbgDataWrite c k false v) s fun d' => (thr d' c t).pc = ((thr d c t).pc / 2 ^ 32 * 2 ^ 32 + v.toNat) % 2 ^ 17 / 4 * 4))

/-- R483, R490, R491, R493, R495, R496: the Givik commands. -/
def Obligations.GivikCommandsAreServed : Prop :=
  ∀ (s : State) (c : Cmd),
    let d := s.dev
    let cl := c.f 16 1
    let k := c.f 17 1
    let stRel := givikStatus d c [(17, 1)] (decide (1 < k)) []
    Serves (.givikCoreRestart c) c s
      (givikStatus d c [(17, 1), (18, 1)] (decide (7 < k) || decide (1 < c.f 18 1)) [(!(coreStopped d cl k), stBadState)])
      (restartCore cl k (bitOf (c.f 18 1) 0)) ∧
    Serves (.givikSignal c) c s
      (givikStatus d c [(17, 1), (18, 2)] (decide (c.f 18 2 = 0)) [(!(effB d (gvKey cl (0x20 + 4 * (k / 32))) (k % 32)), stBadState)])
      (loopN (c.f 18 2) (fun _ => signalEvent cl k)) ∧
    ((clu d cl).relJobs = [] → k = 0 → d.released.contains cl = true → Serves (.givikClusterRelease c) c s stRel id) ∧
    (stRel = 0 → (clu d cl).relJobs = [] → k = 0 → d.released.contains cl = false → Runs (.givikClusterRelease c) s fun d' =>
      d'.released = d.released ++ [cl] ∧ (clu d' cl).relJobs = [hold d c]) ∧
    (stRel = 0 → (clu d cl).relJobs = [] → k = 1 → d.released.contains cl = true → Lands (.givikClusterRelease c) s
      (postDev 0xAA (leBytes 1 cl ++ leBytes 1 1) (completeSt c 0 (returnCluster cl d)))) ∧
    Serves (.givikStats c) c s
      (givikStatus d c [(17, 1), (18, 1), (24, 8)] (decide (63 < k) || decide (1 < c.f 18 1) || decide (c.f 24 8 % 64 ≠ 0)) [])
      (fun d => dma c.fn (c.f 24 8) (ctrBytes d (gateCtr k 0) 10) (if c.f 18 1 = 1 then ctrClear (gateCtr k 0) 10 d else d)) ∧
    Serves (.givikFaultRead c) c s (givikStatus d c [(17, 1), (24, 8)] (decide (7 < k)) [])
      (fun d => dma c.fn (c.f 24 8) (padTo 64 (gcore d cl k).fault) d)

/-! ### Memory (14) -/

/-- R456–R464, R466, R467: the memory system. The scrub counts a line and reports what it finds; an uncorrectable line stays poisoned;
a copy goes line by line and its last line switches the map; parity errors are counted and a fourth failure is uncorrectable on the whole
DIMM; refresh takes the next bank; a reading above 95 °C makes the channel hot; PF0 retires a rank and reads the counters. -/
def Obligations.MemoryIsScrubbedCopiedAndWatched : Prop :=
  ∀ (s : State) (ch rank line victim : Nat) (c : Cmd),
    let d := s.dev
    let x := dch d ch
    let r := ch * 4 + rank
    let reachable : Prop := x.inService = true ∧ rank < 4 ∧ line < rankLines d ∧ rankSt d r ∈ [1, 2, 3, 4]
    let read := ctrInc (rankCtr ch rank 0x18) (dchU ch (fun x => { x with scrub := (rank * rankLines d + line + 1) % (4 * rankLines d) }) d)
    (x.inService = true → effF d 0xB00010 23 16 ≠ 0 → scrubPlace d ch = some (rank, line) →
      Lands (.scrubStep ch rank line .good victim) s read ∧
      Lands (.scrubStep ch rank line .corrected victim) s (lineCe r read) ∧
      Lands (.scrubStep ch rank line .uncorrectable victim) s (lineUe r line victim read)) ∧
    (x.scrub = rank * rankLines d + line → reachable → scrubPlace d ch = some (rank, line)) ∧
    (effF d 0xB00010 23 16 = 0 ∨ x.inService = false ∨ scrubPlace d ch ≠ some (rank, line) → ∀ res, Lands (.scrubStep ch rank line res victim) s d) ∧
    (∀ a, lineAddr d r line = some a → regionOf d a = none → linePoisoned (lineUe r line victim d) a = true) ∧
    (reachable → ∀ retries, retries ≤ 3 → Lands (.caParityError ch rank line retries) s (ctrAdd (rankCtr ch rank 0x10) retries d)) ∧
    (reachable → Lands (.caParityError ch rank line 4) s
      ((dimmRanks d r).foldl (fun d x => lineUe x line 0 d) (ctrAdd (rankCtr ch rank 0x10) 3 d))) ∧
    (∀ p, d.dram.copy = some p → p.pos + 1 < rankLines d → Lands (.spareCopyStep .good false) s
      (dramU (fun x => { x with copy := some { p with pos := p.pos + 1 } }) d)) ∧
    (∀ p, d.dram.copy = some p → rankLines d ≤ p.pos + 1 → d.dram.waiting = [] → p.dst < 32 → p.src < 32 → p.src ≠ p.dst →
      (dch d (p.src / 4)).ranks.length = 4 → (dch d (p.dst / 4)).ranks.length = 4 →
      Runs (.spareCopyStep .good false) s fun d' => d'.dram.copy = none ∧ rankSt d' p.dst = 1 ∧ rankSt d' p.src = 5 ∧
        d'.dram.slots = d.dram.slots.map fun l => l.map fun r => if r = p.src then p.dst else r) ∧
    (x.inService = true → Lands (.dramRefresh ch) s (dchU ch (fun x => { x with refBank := (x.refBank + 1) % 4, refFast := x.refNext }) d)) ∧
    (∀ t, x.inService = true → x.dimms = 1 → t ≤ 95 → x.hot = false → Lands (.dramTempPoll ch [some t]) s
      (dchU ch (fun x => { x with miss := [0, 0], temp := satSigned 8 t, hot := false, refNext := decide (85 < t) }) d)) ∧
    (∀ t, x.inService = true → x.dimms = 1 → 95 < t → x.hot = false → Lands (.dramTempPoll ch [some t]) s
      (postDev 0xBC (leBytes 1 ch ++ leBytes 1 1 ++ leBytes 1 (ofSigned 8 (satSigned 8 t)))
        (dchU ch (fun x => { x with miss := [0, 0], temp := satSigned 8 t, hot := true, refNext := true }) d))) ∧
    (let n := c.f 16 1
     let r := n * 4 + c.f 17 1
     let keys := (List.range 4).flatMap fun r => (List.range 6).map fun i => rankCtr n r (8 * i)
     Serves (.dramRankRetire c) c s (dramStatus c [] (decide (7 < n) || decide (3 < c.f 17 1)) (chanStatus d n ++ [(decide (rankSt d r ≠ 1), stBadState)]))
       (retireRank r) ∧
     Serves (.dramStats c) c s (dramStatus c [(18, 1), (24, 8)] (decide (7 < n) || decide (3 < c.f 17 1) || decide (1 < c.f 18 1) ||
         decide (c.f 24 8 % 64 ≠ 0)) (chanStatus d n))
       (fun d => dma c.fn (c.f 24 8) (keys.flatMap fun k => leBytes 8 (ctrR d k)) (if bitOf (c.f 18 1) 0 then keys.foldl (fun d k => ctrW k 0 d) d else d)))

/-! ### Footing (17) -/

/-- R519, R532, R537, R538, R544, R548, R584, R585: the boot. A failing self-test or fuse check halts with its code, good ones without
main power wait for it; power brings the confirmed slot up, or halts where the flash fails; recovery takes no refused carrier and ends after
600 s; a fall of main power after handover stops every switchable domain; the bridge then brings up the islands. -/
def Obligations.FootingBootsRecoversAndBringsUp : Prop :=
  ∀ (s : State) (src : Nat) (tagBad calBad : List Nat) (recovery : Bytes),
    let d := s.dev
    let held := footU (fun x => { x with src := src % 4, boots := (x.boots + 1) % 2 ^ 32 }) d
    (d.foot.boot = .held → ∀ r f k, Lands (.coldBoot src false r f k tagBad recovery calBad) s (halt 1 held)) ∧
    (d.foot.boot = .held → ∀ f k, Lands (.coldBoot src true false f k tagBad recovery calBad) s (halt 13 held)) ∧
    (d.foot.boot = .held → ∀ k, Lands (.coldBoot src true true false k tagBad recovery calBad) s (halt 2 held)) ∧
    (d.foot.boot = .held → d.foot.lcNext = none → d.foot.lifecycle ≤ 2 → d.foot.pg = false → ∀ k,
      Runs (.coldBoot src true true true k tagBad recovery calBad) s fun d' => d'.foot.boot = .waitPg ∧ d'.foot.boots = (d.foot.boots + 1) % 2 ^ 32 ∧
        (d.foot.lifecycle ≠ 1 → d'.dbgPort = true ∧ d'.dbgCores = true)) ∧
    (d.foot.boot = .held → d.foot.lcNext = some 3 → ∀ k, Runs (.coldBoot src true true true k tagBad recovery calBad) s fun d' =>
      d'.foot.boot = .halted 10 ∧ d'.foot.lifecycle = 3) ∧
    (d.foot.boot = .waitPg → d.foot.pg = false → d.tripped = false → d.foot.lifecycle ≠ 2 →
      Runs (.pgRise false tagBad recovery) s fun d' => d'.foot.pg = true ∧ d'.foot.boot = .halted 3) ∧
    (∀ i rest r, d.foot.boot = .waitPg → d.foot.pg = false → d.tripped = false → d.foot.lifecycle ≠ 2 → d.foot.src = 0 →
      candidates d = i :: rest → (slot d i).rec_ = some r → r.st = 1 → slotCause d tagBad i r = none → (testedEntry (slot d i).comps).isSome = true →
      Runs (.pgRise true tagBad recovery) s fun d' => d'.foot.boot = .running ∧ d'.foot.runSlot = i ∧ d'.foot.running = (slot d i).comps ∧
        d'.foot.slots = d.foot.slots ∧ d'.untested = false) ∧
    (∀ b, d.foot.boot = .recovery → Runs (.recoveryCarrier b) s fun d' =>
      (∀ x, carrierRefusal d b = some x → d' = (landed s (footU (fun y => { y with refused := y.refused + 1, lastRefusal := some x }) d)).dev) ∧
      (carrierRefusal d b = none → (carrierComps b).length = 4 → (testedEntry (carrierComps b)).isSome = true →
        d.foot.slots.length = 2 → d'.foot.boot = .running ∧ d'.foot.running = carrierComps b ∧
        (d.foot.lifecycle ≠ 2 → d'.foot.recovered = true ∧ slotSt d' d'.foot.runSlot = 1))) ∧
    (∀ x, d.foot.boot = .recovery → d.foot.waitFrom + 600000000000 ≤ now d → d.foot.lastRefusal = some x → Lands .recoveryTimeout s (halt x d)) ∧
    (d.foot.boot = .recovery → d.foot.waitFrom + 600000000000 ≤ now d → d.foot.lastRefusal = none → d.foot.forced = true →
      Lands .recoveryTimeout s (halt 12 d)) ∧
    (∀ cause, d.foot.pg = true → cause ≤ 2 → d.foot.boot = .recovery → Lands (.pgFall cause) s
      (bootPins 0 false (footU (fun x => { x with pg := false, boot := .waitPg }) d))) ∧
    (∀ cause, d.foot.pg = true → cause ≤ 2 → d.foot.boot = .running → Lands (.pgFall cause) s
        (logErr 2 0xFE (0xFC00 + cause) [] (powerLost (footU (fun x => { x with pg := false }) d))) ∧
      Runs (.pgFall cause) s fun d' => d'.power = false ∧ d'.foot.pg = false ∧ d'.xings = [] ∧ d'.ledger.wbuf = []) ∧
    (∀ tr, d.foot.boot = .running → d.foot.pg = true → d.power = false → d.fatal = false → d.foot.needReset = false → Runs (.bridgeBringup tr) s fun d' =>
      d'.power = true ∧ d'.foot.running = d.foot.running ∧ (islandOn d' (gIsland 0) = true → chanCount d' ≠ 0 → d'.foot.healthy = true))

/-- R528, R533–R536, R542–R544, R546, R549: the footing commands of PF0's admin queue, and the driver's ABI check. -/
def Obligations.FootingCommandsAreServed : Prop :=
  ∀ (s : State) (c : Cmd),
    let d := s.dev
    let i := d.foot.runSlot
    let e := d.foot.epoch
    let k := c.f 17 1
    let len := c.f 40 4
    let image := rd d (spc d dramSpace) (dlBase d) len
    let bindSt := footStatus c [(17, 1), (18, 1), (40, 4)] (decide (1 < k) || decide (24 * 2 ^ 20 - 65536 < len) ||
        (decide (k = 0) && decide (c.f 18 1 ≠ 0)) || (decide (k = 1) && (decide (5 < c.f 18 1) || decide (2 ^ 21 < len))))
      [(decide (k = 1) && decide (numClusters d.variant ≤ c.f 18 1), stAbsent), (decide (chanCount d = 0), stUnitOff),
       (runTrial d || decide (d.foot.lifecycle = 2), stBadState)]
    let retag (bad : List Nat) (i : Nat) (s : FwSlot) : FwSlot :=
      match s.rec_ with
      | some r => if [1, 2].contains r.st && !(bad.contains i) && decide (r.epoch = e) then
          tagSlot i (recU (fun r => { r with epoch := e + 1, table := !r.table }) s) else s
      | none => s
    let runSvn := match (slot d i).rec_ with
      | some r => min r.svn 63
      | none => 0
    let users := [0, 1].filter fun i => [1, 2].contains (slotSt d i)
    let last := decide (users ≠ []) && users.all fun i => match (slot d i).rec_ with
      | some r => decide (r.key = k)
      | none => false
    Serves (.fwDownload c) c s (footStatus c [(20, 4), (24, 8), (40, 4)]
        (decide (c.f 20 4 % 4096 ≠ 0) || decide (len < 4 ∨ 2 ^ 20 < len) || decide (2 ^ 25 < c.f 20 4 + len)) [(decide (chanCount d = 0), stUnitOff)])
      (fun d => wrt (spc d dramSpace) (dlBase d + c.f 20 4) (dmaRead d 0 (c.f 24 8) len) d) ∧
    (bindSt = 0 → k = 0 → ∀ copyBad, Lands (.fwBind c copyBad) s
      (complete c (bindFirmware image copyBad d).1 (bindFirmware image copyBad d).2.1 (bindFirmware image copyBad d).2.2)) ∧
    (bindSt = 0 → k = 1 → ∀ copyBad, Lands (.fwBind c copyBad) s
      (complete c (bindGate image (c.f 18 1) d).1 (bindGate image (c.f 18 1) d).2.1 (bindGate image (c.f 18 1) d).2.2)) ∧
    (bindSt ≠ 0 → ∀ copyBad, Lands (.fwBind c copyBad) s (completeSt c bindSt d)) ∧
    Serves (.fwConfirm c) c s (footStatus c [] false [(!(runTrial d), stBadState)]) (fun d =>
      let d := slotU i (recU fun r => { r with st := 1 }) d
      if slotSt d (1 - i) = 1 then slotU (1 - i) (recU fun r => { r with st := 3 }) d else d) ∧
    Serves (.fwSvnCommit c) c s (footStatus c [] false [(decide (d.foot.lifecycle = 2) || decide (slotSt d i ≠ 1), stBadState)])
      (fun d => if d.foot.svn < runSvn then fuseChanged 0 runSvn (footU (fun x => { x with svn := runSvn }) d) else d) ∧
    (∀ bad, Serves (.footEpochAdvance c bad) c s
      (footStatus c [(20, 4)] (decide (c.f 20 4 ≠ e + 1)) [(decide (15 ≤ e) || decide (d.foot.lifecycle = 2), stBadState)])
      (fun d => fuseChanged 1 (e + 1) (footU (fun x => { x with epoch := e + 1 })
        (loopN (numClusters d.variant) (fun g d => gateAreaU g (retag bad (2 + g)) d) (slotU 1 (retag bad 1) (slotU 0 (retag bad 0) d)))))) ∧
    Serves (.footKeyRevoke c) c s (footStatus c [(17, 1), (20, 4)]
        (decide (3 < k) || decide (c.f 20 4 ≠ le ((List.range 4).map (Config.vendorKeyHash k)) 0 4))
        [(decide ((d.foot.revoked ||| 2 ^ k) % 16 = 15) || last, stBadState)])
      (fun d => if bitOf d.foot.revoked k then d else fuseChanged 2 k (footU (fun x => { x with revoked := d.foot.revoked ||| 2 ^ k }) d)) ∧
    Serves (.footLifecycle c) c s (footStatus c [(17, 1), (20, 4), (24, 8)]
        (decide (k = 0 ∨ 3 < k) || (decide (k = 3) && decide (c.f 20 4 ≠ 0x4D434544)))
        [(decide (k ≠ 3) && !(Config.lifecycleToken k (dmaRead d 0 (c.f 24 8) 5536)), 0x29),
         (!((decide (k = 1) && decide (d.foot.lifecycle = 0)) || (decide (k = 2) && decide (d.foot.lifecycle = 1)) ||
            (decide (k = 3) && decide (d.foot.lifecycle ≤ 2))), stBadState)])
      (fun d => fuseChanged 3 k (footU (fun x => { x with lcNext := some k }) d)) ∧
    Serves (.footDebugToken c) c s (footStatus c [(17, 1), (24, 8)] (decide (1 < k)) [])
      (footU fun x => { x with token := if k = 0 then dmaRead d 0 (c.f 24 8) 5536 else [] }) ∧
    Serves (.fwDriverAbi c) c s (firstStatus [((cmdSelf c).isNone, stNotPermitted), (!(reservedOk c [(20, 2)]), stBadParam),
        (!d.untested && decide (c.f 20 2 < d.foot.abiMin ∨ d.foot.abiMax < c.f 20 2), 0x28)]) (fun d => d)

/-- R534–R536, R561: the fuses only ever advance. Through every footing command, a failing boot, a timeout of recovery, a fall of main power and
every reset of the device, SVN_MIN and the epoch do not fall and a revoked key slot stays revoked; and a cold reset keeps the slots. -/
def Obligations.FusesOnlyAdvance : Prop :=
  ∀ (s t : State) (c : Cmd) (b : Bool) (n : Nat) (l : List Nat) (i : Instr),
    i ∈ ([.fwDownload c, .fwBind c b, .fwConfirm c, .fwSvnCommit c, .footEpochAdvance c l, .footKeyRevoke c, .footLifecycle c, .footDebugToken c,
      .fwDriverAbi c, .recoveryTimeout, .pgFall n, .thermtrip, .deviceReset c, .resetN n, .powerOnReset, .aonPower, .readStatus, .ackLog n,
      .recoveryCarrier []] : List Instr) → exec i s = .next t →
    s.dev.foot.svn ≤ t.dev.foot.svn ∧ s.dev.foot.epoch ≤ t.dev.foot.epoch ∧
    (∀ k, bitOf s.dev.foot.revoked k = true → bitOf t.dev.foot.revoked k = true) ∧
    (s.dev.foot.svn ≤ 63 → t.dev.foot.svn ≤ 63) ∧ (s.dev.foot.epoch ≤ 15 → t.dev.foot.epoch ≤ 15) ∧
    (i = .powerOnReset → t.dev.foot.slots = s.dev.foot.slots ∧ t.dev.foot.gates = s.dev.foot.gates)

/-- R435, R436, R493, R541, R543, R549: activation. With AT_RESET a tested slot only has its record written; a gate image waits for its
cluster, and a released cluster that holds no work item takes it and returns; over NVMe, a download writes the buffer, a commit of the
running slot is refused and a log page is returned. -/
def Obligations.ActivationFollowsItsCommands : Prop :=
  ∀ (s : State) (c : Cmd) (n : Nat) (q : NCmd) (segs : List (Nat × Nat)),
    let d := s.dev
    let gate := decide (c.f 17 1 = 1)
    let i := c.f 18 1
    let st := footStatus c [(17, 1), (18, 1), (19, 1)]
        (decide (1 < c.f 17 1) || decide (3 < c.f 19 1) || (!gate && decide (1 < i)) || (gate && decide (5 < i)))
        [(gate && decide (unitStatus d (gIsland i) ≠ 0), unitStatus d (gIsland i))]
    let e := taken d 1 n
    let fs := cdw q 10 % 8
    (st ≠ 0 → ∀ fail, Lands (.fwActivate c fail) s (completeSt c st d)) ∧
    (st = 0 → c.f 17 1 = 0 → bitOf (c.f 19 1) 1 = true → d.foot.act = none → d.foot.actQ = [] → actStatus d i (bitOf (c.f 19 1) 0) = 0 →
      ∀ fail, Lands (.fwActivate c fail) s
        (completeHeld (hold d c) 0 0 (actRecords i (testedEntry (slot d i).comps).isNone (noteHeld c d)))) ∧
    (st = 0 → c.f 17 1 = 0 → d.foot.act = none → d.foot.actQ = [] → actStatus d i (bitOf (c.f 19 1) 0) ≠ 0 →
      ∀ fail, Lands (.fwActivate c fail) s (completeHeld (hold d c) (actStatus d i (bitOf (c.f 19 1) 0)) 0 (noteHeld c d))) ∧
    (∀ k, d.foot.act = none → Lands (.givikReleased k) s (clusterEmpty k d)) ∧
    (∀ j, d.foot.act = some j → j.phase ≠ 0 → (clusterEmpty j.cl d).foot = d.foot → holdsItem (clusterEmpty j.cl d) j.cl = false →
      (actLoad j (clusterEmpty j.cl d)).foot.actQ = [] → Lands (.givikReleased j.cl) s (actLoad j (clusterEmpty j.cl d))) ∧
    (4 * cdw q 11 % 4096 = 0 → 4 * (cdw q 10 + 1) ≤ 2 ^ 20 → 4 * cdw q 11 + 4 * (cdw q 10 + 1) ≤ 2 ^ 25 → chanCount e ≠ 0 →
      dataSegs e 1 q (4 * (cdw q 10 + 1)) = .ok segs → Ends (.firmwareImageDownload 1 n) s 1 n 0x11 false q 0 0 (fun d =>
        wrt (spc d dramSpace) (dlBase d + 4 * cdw q 11) (gather d 1 segs) d)) ∧
    (Ends (.firmwareImageDownload 3 n) s 3 n 0x11 false q 0 nsInvalidField (fun d => d)) ∧
    (bitsOf (cdw q 10) 5 3 ≤ 3 → 2 < fs ∨ fs = e.foot.runSlot + 1 → ∀ copyBad fail,
      Ends (.firmwareCommit 1 n copyBad fail) s 1 n 0x10 false q 0 0x106 (fun d => d)) ∧
    (∀ copyBad fail,
      let bind := bindFirmware (rd e (spc e dramSpace) (dlBase e) (min (le (rd e (spc e dramSpace) (dlBase e) 12) 8 4) (24 * 2 ^ 20 - 65536))) copyBad e
      bitsOf (cdw q 10) 5 3 = 0 → fs ≤ 2 → fs ≠ e.foot.runSlot + 1 → runTrial e = false → e.foot.lifecycle ≠ 2 → e.foot.act = none →
      chanCount e ≠ 0 → Ends (.firmwareCommit 1 n copyBad fail) s 1 n 0x10 false q 0 (if bind.1 = 0 then 0 else nvmeOfFoot bind.1)
        (fun _ => bind.2.2)) ∧
    (let page := padTo 4096 (ctrl e 1).errLog.flatten
     let part := slice page (le q.bytes 48 8) (min (4 * (cdw q 10 / 65536 + 65536 * (cdw q 11 % 65536) + 1)) 65536)
     cdw q 10 % 256 = 1 → le q.bytes 48 8 % 4 = 0 → le q.bytes 48 8 ≤ page.length → dataSegs e 1 q part.length = .ok segs →
       Ends (.getLogPage 1 n) s 1 n 0x02 false q 0 0 (scatter 1 segs part))

/-! ### Domains, unit resets, errors and temperature (18) -/

/-- R554–R560, R567, R572, R574: domains, unit resets and remaps are asked for by PF0 (a domain also over the management bus), take their turn, and complete when the
transition does: DOMAIN_CHANGED with the old and new state, UNIT_RESET_DONE, PIPE_REMAPPED. One that is already in the state completes at once. -/
def Obligations.DomainsResetsAndRemapsTakeTheirTurn : Prop :=
  ∀ (s : State) (c : Cmd) (n st : Nat),
    let d := s.dev
    let i := c.f 16 1
    Defers (.domainSet c) c s (firstStatus ([(decide (c.fn ≠ 0) || (cmdSelf c).isNone, stNotPermitted), (!(reservedOk c [(16, 1), (17, 1)]), stBadParam)] ++
        domStatus d i (c.f 17 1)))
      (fun d => domRun (d.domJobs.length + 1)
        (noteHeld c { d with domJobs := d.domJobs ++ [{ island := i, st := domSt (c.f 17 1), held := some (hold d c) }] })) ∧
    (d.domJobs = [] → d.rstJobs = [] → bridgeUp d = true → firstStatus (domStatus d n st) = 0 → (dom d n).st = domSt st →
      Lands (.mctpDomainSet n st) s (mgmtReply 4 0 [] d)) ∧
    (bridgeUp d = true → firstStatus (domStatus d n st) ≠ 0 → Lands (.mctpDomainSet n st) s (mgmtReply 4 (firstStatus (domStatus d n st)) [] d)) ∧
    (d.domJobs = [] → d.rstJobs = [] → bridgeUp d = true → firstStatus (domStatus d n st) = 0 → (dom d n).st = .on → islandOn d n = false →
      domSt st ≠ .on → mayLeave d n true = true → Lands (.mctpDomainSet n st) s { d with
        domJobs := [{ island := n, st := domSt st, started := true }]
        doms := Tbl.upd (fun _ => {}) d.doms n fun x => { x with target := domSt st, busy := true } }) ∧
    (∀ j pass ok, d.domJobs = [j] → j.started = true → d.rstJobs = [] → j.st = .retain → Runs (.domainState pass ok) s fun d' =>
      (dom d' j.island).st = .retain ∧ (dom d' j.island).busy = false ∧ d'.domJobs = [] ∧ d'.doms = Tbl.upd (fun _ => {}) d.doms j.island
        (fun x => { x with st := .retain, busy := false }) ∧ d'.clusters = d.clusters) ∧
    Defers (.unitReset c) c s (firstStatus [(decide (c.fn ≠ 0) || (cmdSelf c).isNone, stNotPermitted),
        (!(reservedOk c [(16, 1)]) || decide (i = 0) || decide (48 < i), stBadParam), (!(islandPresent d.variant i), stAbsent)])
      (fun d => serviceRun (noteHeld c { d with rstJobs := d.rstJobs ++ [{ island := i, held := hold d c }] })) ∧
    (∀ r, d.rstJobs = [r] → r.started = true → r.island = n → d.domJobs = [] → 9 ≤ n → n ≤ 27 →
      Lands (.unitResetDone n true) s (postDev 0x05 (leBytes 1 n ++ leBytes 1 0) (completeHeld r.held 0 0 { d with
        doms := Tbl.upd (fun _ => {}) d.doms n fun x => { x with resetting := false, failed := false }, rstJobs := [] }))) ∧
    (∀ pass, d.rstJobs = [] → Lands (.unitResetDone n pass) s d) ∧
    Defers (.pipeRemap c) c s (firstStatus [(decide (c.fn ≠ 0) || (cmdSelf c).isNone, stNotPermitted),
        (!(reservedOk c [(16, 1), (17, 1), (18, 1)]) || decide (i = 0) || decide (8 < i) || decide (5 < c.f 17 1) || decide (5 < c.f 18 1), stBadParam),
        (!(islandPresent d.variant i) || !(islandPresent d.variant (ipIsland (c.f 17 1))) || !(islandPresent d.variant (epIsland (c.f 18 1))), stAbsent)])
      (fun d => mapRun (d.mapJobs ++ [{ island := i, ip := c.f 17 1, ep := c.f 18 1, held := hold d c }]) []
        (noteHeld c { d with mapJobs := d.mapJobs ++ [{ island := i, ip := c.f 17 1, ep := c.f 18 1, held := hold d c }] })) ∧
    (∀ j, d.mapJobs = [j] → j.started = true → j.holds = true → pipeBusy d j.island = true → Lands (.pipeRemapped j.island) s d) ∧
    (∀ j, d.mapJobs = [j] → j.started = true → j.island = n → j.holds = false → j.frames = [] →
      islandOn d (epIsland (egressPipe d ((islandPorts n).headD 0))) = true →
      Lands (.pipeRemapped n) s (coursesUpdate (postDev 0x04 (leBytes 1 n ++ leBytes 1 j.ip ++ leBytes 1 j.ep) (completeHeld j.held 0 0
        (let m := mapOut n j.ep (mapIn n j.ip { d with mapJobs := [] })
         if egressPipe d ((islandPorts n).headD 0) = j.ep then m
         else ((islandPorts n).filter fun p => portPresent d.variant p).foldl (fun d p => egressSwitch p d) m))))) ∧
    (∀ ip ep, 1 ≤ n → n ≤ 8 → ip < 8 → ep < 8 →
      fldR (mapOut n ep (mapIn n ip d)) (0x700 + 4 * ((n - 1) / 4)) (8 * ((n - 1) % 4) + 2) (8 * ((n - 1) % 4)) = ip ∧
      fldR (mapOut n ep (mapIn n ip d)) (0x700 + 4 * ((n - 1) / 4)) (8 * ((n - 1) % 4) + 6) (8 * ((n - 1) % 4) + 4) = ep)

/-- R563, R564, R566–R570, R574: errors and temperature. A corrected error is logged; an uncorrectable one, a crossing fault or a warden's
timeout fails the island, which is isolated; a device-fatal error marks the device fatal and takes HEALTHY down; the log is read and
acknowledged; a reading above a threshold is noted and shown; THERMTRIP takes main power. -/
def Obligations.ErrorsFailTheirUnitOrTheDevice : Prop :=
  ∀ (s : State) (c : Cmd) (n addr : Nat) (v : Word) (t : Int),
    let d := s.dev
    let broken := { d with doms := Tbl.upd (fun _ => {}) d.doms n fun x => { x with failed := true } }
    let failed (code addr : Nat) : Dev := logErr 2 n code (leBytes 8 addr) (if holdsWork d n then stopIsland n broken else broken)
    (islandOn d n = true → Lands (.sramCe n addr) s (logErr 0 n 0xF100 (leBytes 8 addr) d)) ∧
    (islandOn d n = false → Lands (.sramCe n addr) s d) ∧
    (n ≠ 0 → islandPresent d.variant n = true →
      Lands (.sramUe n addr) s (failed 0xF200 addr) ∧ Lands (.xingFault n) s (failed 0xF300 0) ∧ Lands (.wardenTimeout n) s (failed 0xF400 0)) ∧
    (n ≠ 0 → islandOn broken n = false) ∧
    (Lands .aonPower s (deviceFatal 0xF700 d) ∧ Lands .ringFault s (deviceFatal 0xF800 d) ∧ Lands .bridgeWdt s (deviceFatal 0xF900 d) ∧
      Lands .keyvault s (deviceFatal 0xFA00 d)) ∧
    (∀ code, (deviceFatal code d).fatal = true ∧ (deviceFatal code d).foot.healthy = false ∧ (deviceFatal code d).strs = d.strs ∧
      (deviceFatal code d).clusters = d.clusters) ∧
    (Runs .timeIsland s fun d' => d'.timeDead = true ∧ d'.fatal = true ∧ d'.foot.healthy = false ∧ d'.time.ppsOn = [false, false, false, false]) ∧
    Serves (.errlogRead c) c s (firstStatus [(decide (c.fn ≠ 0) || (cmdSelf c).isNone, stNotPermitted),
        (!(reservedOk c [(16, 1), (17, 1), (24, 8)]) || decide (c.f 17 1 = 0) || decide (128 < c.f 17 1) || decide (256 < c.f 16 1 + c.f 17 1) ||
          decide (c.f 24 8 % 64 ≠ 0), stBadParam)])
      (fun d => dma c.fn (c.f 24 8) ((List.range (c.f 17 1)).flatMap fun i => match d.errs[c.f 16 1 + i]? with
        | some e => errBytes e
        | none => zeros 32) d) ∧
    (isFrozen d 0 = false → Lands (.brgErrAck v) s (ackErr v.toNat d)) ∧
    (n ≤ 48 → n = 0 ∨ islandPresent d.variant n = true → n ∉ d.hotWarn → n ∉ d.hotCrit → t ≤ (effF d 0x800 31 24 : Int) → t ≤ (effF d 0x800 23 16 : Int) →
      Lands (.tempSensorRead [(n, t)]) s (showTemp (fldW (0x900 + 4 * n) 7 0 (ofSigned 8 t) d))) ∧
    (n ≤ 48 → n = 0 ∨ islandPresent d.variant n = true → n ∉ d.hotWarn → (effF d 0x800 31 24 : Int) < t →
      Runs (.tempSensorRead [(n, t)]) s fun d' => n ∈ d'.hotWarn) ∧
    (d.tripped = false → Runs .thermtrip s fun d' => d'.tripped = true ∧ d'.power = false ∧ d'.foot.pg = false ∧ d'.ledger.wbuf = [])

/-- R520, R561, R562, R586: resets. DEVICE_RESET schedules the warm reset for 1 ms later; it is taken when due and not before; a warm reset keeps
the always-on island's registers and counters and returns every other register to its reset value; a cold reset returns them all and keeps
flash and fuses. -/
def Obligations.ResetsKeepWhatTheyKeep : Prop :=
  ∀ (s : State) (c : Cmd) (tagBad : List Nat) (recovery : Bytes),
    let d := s.dev
    let st := firstStatus [(decide (c.fn ≠ 0) || (cmdSelf c).isNone, stNotPermitted),
        (!(reservedOk c [(20, 4)]) || decide (c.f 20 4 ≠ 0x4D524157), stBadParam), (!d.foot.pg, stBadState)]
    (st = 0 → Lands (.deviceReset c) s { completeSt c 0 d with resetAt := some (now (completeSt c 0 d) + 1000000) }) ∧
    (st ≠ 0 → Lands (.deviceReset c) s (completeSt c st d)) ∧
    (∀ t, d.resetAt = some t → now d < t → Lands (.warmReset tagBad recovery) s d) ∧
    (∀ t, d.resetAt = some t → t ≤ now d → d.foot.boot ≠ .running → Lands (.warmReset tagBad recovery) s (warmDev d)) ∧
    (∀ t, d.resetAt = some t → t ≤ now d → d.foot.boot = .running → d.foot.lifecycle ≠ 2 → d.foot.runSlot ∉ tagBad →
      Lands (.warmReset tagBad recovery) s (bootGates tagBad (warmDev d))) ∧
    (∀ k, warmKept k = true → regR (warmDev d) k = regR d k ∧ ctrR (warmDev d) k = ctrR d k) ∧
    (∀ k, warmKept k = false → regR (warmDev d) k = regReset k ∧ ctrR (warmDev d) k = 0) ∧
    ((warmDev d).power = false ∧ (warmDev d).strs = d.strs ∧ (warmDev d).errs = d.errs ∧ (warmDev d).resetAt = none ∧ (warmDev d).fns = [] ∧
      (warmDev d).queues = [] ∧ (warmDev d).foot.healthy = false) ∧
    Lands .powerOnReset s (coldDev d) ∧ (∀ ns, 10000 ≤ ns → Lands (.resetN ns) s (coldDev d)) ∧
    (∀ k, regR (coldDev d) k = regReset k ∧ ctrR (coldDev d) k = 0) ∧
    ((coldDev d).foot.boot = .held ∧ (coldDev d).fatal = false ∧ (coldDev d).errs = [] ∧ (coldDev d).strs = [] ∧
      (coldDev d).foot.slots = d.foot.slots ∧ (coldDev d).foot.gates = d.foot.gates ∧ (coldDev d).foot.svn = d.foot.svn ∧
      (coldDev d).foot.epoch = d.foot.epoch ∧ (coldDev d).foot.revoked = d.foot.revoked ∧ (coldDev d).foot.lifecycle = d.foot.lifecycle ∧
      (coldDev d).calSect = d.calSect ∧ (coldDev d).ledger.volume = d.ledger.volume)

/-! ### SPDM and the management bus (11, 17, 18) -/

/-- R385: the SPDM responder answers a request of the version agreed in the order of the connection, VERSION first, and anything else with
an ERROR. The messages' layouts are the standard's (log entry 52). -/
def Obligations.SpdmRequestsAreAnsweredInOrder : Prop :=
  ∀ (s : State) (c : Carrier) (req : Bytes), spdmServes s.dev c = true → 4 ≤ req.length → req.length ≤ 16384 →
    let d := s.dev
    (Lands (.getVersion c req) s (emit (.spdm c [0x10, 0x04, 0, 0, 0, 1, 0x00, 0x13]) (spdmStW c 1 d))) ∧
    (u8 req 0 ≠ 0x13 → Lands (.getCapabilities c req) s (emit (.spdm c [0x13, 0x7F, 0x41, 0]) d) ∧
      Lands (.challenge c req) s (emit (.spdm c [0x13, 0x7F, 0x41, 0]) d)) ∧
    (u8 req 0 = 0x13 → 1 ≤ spdmSt d c → Lands (.getCapabilities c req) s (spdmCapabilities c d)) ∧
    (u8 req 0 = 0x13 → spdmSt d c = 0 → Lands (.getCapabilities c req) s (emit (.spdm c [0x13, 0x7F, 0x04, 0]) d)) ∧
    (u8 req 0 = 0x13 → 2 ≤ spdmSt d c → Lands (.negotiateAlgorithms c req) s (spdmAlgorithms c req d)) ∧
    (u8 req 0 = 0x13 → 3 ≤ spdmSt d c →
      Lands (.getDigests c req) s (spdmDigests c d) ∧ Lands (.getCertificate c req) s (spdmCertificate c req d) ∧
      Lands (.challenge c req) s (spdmChallenge c req d) ∧ Lands (.getMeasurements c req) s (spdmMeasurements c req d)) ∧
    (u8 req 0 = 0x13 → spdmSt d c < 3 → Lands (.getMeasurements c req) s (emit (.spdm c [0x13, 0x7F, 0x04, 0]) d)) ∧
    (u8 req 1 = 0x84 → Lands (.spdmRequest c req) s (spdmVersion c d)) ∧
    (u8 req 0 = 0x13 → u8 req 1 ∉ [0x81, 0x82, 0x83, 0x84, 0xE0, 0xE1, 0xE3] → Lands (.spdmRequest c req) s
      (emit (.spdm c [0x13, 0x7F, 0x07, BitVec.ofNat 8 (u8 req 1)]) d)) ∧
    (d.foot.lifecycle = 2 → u8 req 0 = 0x13 → 3 ≤ spdmSt d c → Lands (.challenge c req) s (emit (.spdm c [0x13, 0x7F, 0x01, 0]) d)) ∧
    (∀ i x, d.comps[i]? = some x → i < 254 → u8 req 0 = 0x13 → 3 ≤ spdmSt d c → u8 req 2 = 0 → u8 req 3 = i + 1 →
      Runs (.getMeasurements c req) s fun d' => ∃ tail, d'.out = .spdm c ([0x13, 0x60, 0, 0, 1] ++ leBytes 3 (measureBlock i x).length ++
        measureBlock i x ++ tail) :: d.out)

/-- R548, R566, R571, R572: the management bus. It answers READ_STATUS and READ_LOG once footing runs, and the rest while the device is neither
halted nor fatal; DEVICE_RESET needs its confirmation and main power; endpoints keep the ID they are given; sensors show
temperature, HEALTHY and domain states. Layouts and codes of MCTP and PLDM are their standards' (log entry 53). -/
def Obligations.ManagementBusAnswersItsMessages : Prop :=
  ∀ (s : State) (a b ep : Nat),
    let d := s.dev
    (d.foot.boot ≠ .held → Lands .readStatus s (emit (.mctp (leBytes 1 1 ++ leBytes 1 0 ++ (leBytes 1 (bootCode d) ++ leBytes 1 (b2n d.foot.healthy) ++
      leBytes 1 d.foot.lifecycle ++ leBytes 1 (fldR d 0x820 7 0) ++ leBytes 1 (worstClass d)))) d)) ∧
    (d.foot.boot = .held → Lands .readStatus s d) ∧
    (d.foot.boot ≠ .held → 1 ≤ b → b ≤ 8 → a + b ≤ 256 → Lands (.readLog a b) s (mgmtReply 2 0 ((List.range b).flatMap fun i =>
      match d.errs[a + i]? with
      | some e => errBytes e
      | none => zeros 32) d)) ∧
    (d.foot.boot ≠ .held → b = 0 ∨ 8 < b ∨ 256 < a + b → Lands (.readLog a b) s (mgmtReply 2 stBadParam [] d)) ∧
    (busFull d = true → Lands (.ackLog a) s (mgmtReply 3 0 [] (ackErr (a % 2 ^ 32) d))) ∧
    (d.fatal = true → Lands (.ackLog a) s d) ∧
    (bridgeUp d = true → d.foot.pg = true → Lands (.mctpDeviceReset 0x4D524157) s
      { mgmtReply 5 0 [] d with resetAt := some (now d + 1000000) }) ∧
    (bridgeUp d = true → a ≠ 0x4D524157 → Lands (.mctpDeviceReset a) s (mgmtReply 5 stBadParam [] d)) ∧
    (epUp d ep = true → b ≤ 1 → 1 ≤ a → a ≤ 0xFE → Lands (.setEndpointId ep b a) s
      (ctlReply 1 0 ([0] ++ leBytes 1 a ++ [0]) { d with eids := setAt d.eids ep a })) ∧
    (epUp d ep = true → Lands (.getEndpointId ep) s (ctlReply 2 0 (leBytes 1 (d.eids.getD ep 0) ++ [0, Config.freeByte 11 0]) d)) ∧
    (busFull d = true →
      (a ∈ [0xFF, 0, 1, 5, 0x7E] → Lands (.getMctpVersionSupport a) s
        (ctlReply 4 0 ([1] ++ (List.range 4).map fun i => Config.freeByte 12 (4 * a + i)) d)) ∧
      (a ∉ [0xFF, 0, 1, 5, 0x7E] → Lands (.getMctpVersionSupport a) s (ctlReply 4 0x80 [] d)) ∧
      Lands .getMessageTypeSupport s (ctlReply 5 0 [4, 0, 1, 5, 0x7E] d) ∧
      Lands (.getVendorDefinedMessageSupport 0) s (ctlReply 6 0 ([0xFF, 0] ++ beBytes 2 0x1F5A ++ [Config.freeByte 13 0, Config.freeByte 13 1]) d) ∧
      Lands .getTid s (pldmReply 0 2 0 [0] d) ∧
      (a ∈ [0, 2, 5] → Lands (.getPldmVersion a) s
        (pldmReply 0 3 0 (leBytes 4 0 ++ [5] ++ (List.range 8).map fun i => Config.freeByte 14 (8 * a + i)) d)) ∧
      Lands .getPldmTypes s (pldmReply 0 4 0 [0x25, 0, 0, 0, 0, 0, 0, 0] d) ∧
      (∃ m, Lands (.getPldmCommands 5) s (pldmReply 0 5 0 m d) ∧ m.length = 32 ∧
        ∀ k < 256, bitOf (u8 m (k / 8)) (k % 8) = decide (k ∈ [0x01, 0x02, 0x10, 0x13, 0x14, 0x15, 0x16, 0x17, 0x18, 0x1A, 0x1B, 0x1D])) ∧
      (6 < a → a ∉ sensors d → Lands (.getStateSensorReadings a) s (pldmReply 2 0x21 0x80 [] d)) ∧
      Lands (.getSensorReading 1) s (pldmReply 2 0x11 0 ([1, 0, 0, 0, 0, 0] ++ leBytes 1 (fldR d 0x820 7 0)) d) ∧
      (d.wr = [] → 2 ≤ a → a ≤ 4 → Runs (.getSensorReading a) s fun d' => ∃ v, d' = pldmReply 2 0x11 0 ([4, 0, 0, 0, 0, 0] ++ leBytes 4 v)
        { d with freeIdx := d.freeIdx + 1 }) ∧
      Lands (.getStateSensorReadings 5) s (pldmReply 2 0x21 0 ([1, 0] ++ leBytes 1 (b2n d.foot.healthy)) d) ∧
      (1 ≤ a → a < 49 → islandPresent d.variant a = true → Lands (.getStateSensorReadings (0x100 + a)) s
        (pldmReply 2 0x21 0 ([1, 0] ++ leBytes 1 (domCode (dom d a).st)) d)) ∧
      Lands .getPdrRepositoryInfo s (pldmReply 2 0x50 0 ([0] ++ (List.range 26).map (Config.freeByte 16) ++ leBytes 4 (sensors d).length ++
        (List.range 9).map fun k => Config.freeByte 16 (64 + k)) d) ∧
      (∀ x, a ≠ 0 → (sensors d)[a - 1]? = some x → Lands (.getPdr a) s (pldmReply 2 0x51 0
        (leBytes 4 (if a < (sensors d).length then a + 1 else 0) ++ leBytes 4 0 ++ [5] ++ leBytes 2 46 ++ leBytes 4 a ++
          (List.range 8).map (fun k => Config.freeByte 15 (64 * x + k)) ++ leBytes 2 x ++
          (List.range 32).map fun k => Config.freeByte 15 (64 * x + 8 + k)) d)) ∧
      ((sensors d).length < a → Lands (.getPdr a) s (pldmReply 2 0x51 0x82 [] d)))

/-- R539, R571: a firmware update over PLDM goes from idle through learning, ready, download, verify and apply back to ready and on to
activation, each command in its state alone; the device asks for the carrier's bytes in order and keeps them. -/
def Obligations.FirmwareUpdateFollowsItsStates : Prop :=
  ∀ (s : State) (size ask : Nat) (data : Bytes), fwServes s.dev = true →
    let d := s.dev
    let p := d.pldm
    let goes (st : Nat) (f : Pldm → Pldm) (d : Dev) : Dev := { d with pldm := { f d.pldm with prev := (f d.pldm).st, st := st } }
    Lands .queryDeviceIdentifiers s (pldmReply 5 1 0 (leBytes 4 6 ++ [1] ++ leBytes 2 0 ++ leBytes 2 2 ++ leBytes 2 0x1F5A) d) ∧
    Lands .getFirmwareParameters s (pldmReply 5 2 0 (leBytes 4 (Config.freeByte 17 0).toNat ++ leBytes 2 1 ++ leBytes 8 (versionOf d.foot.running 1) ++
      leBytes 8 (versionOf (slot d (1 - d.foot.runSlot)).comps 1)) d) ∧
    (p.st = 0 → 64 ≤ size → Lands (.requestUpdate size 1 0) s
      (pldmReply 5 0x10 0 (leBytes 2 0 ++ [0]) { d with pldm := { maxXfer := min size 1024, prev := 0, st := 1 } })) ∧
    (p.st ≠ 0 → Lands (.requestUpdate size 1 0) s (pldmReply 5 0x10 0x81 [] d)) ∧
    (p.st = 1 → Lands .passComponentTable s (pldmReply 5 0x13 0 [0, 0] (goes 2 id d))) ∧
    (p.st ≠ 1 → Lands .passComponentTable s (pldmReply 5 0x13 0x84 [] d)) ∧
    (p.st = 2 → 1 ≤ size → size ≤ 24 * 2 ^ 20 - 65536 → Lands (.updateComponent size) s (pldmReply 5 0x14 0 ([0, 0] ++ leBytes 4 0 ++ leBytes 2 0)
      (goes 3 (fun x => { x with size := size, data := [], applied := false }) d))) ∧
    (p.st = 3 → 64 ≤ ask → ask ≤ p.maxXfer → p.data.length < p.size → data.length = ask → Lands (.requestFirmwareData ask data) s
      { emit (.mctp ([0x01, 0x05, 0x15] ++ leBytes 4 p.data.length ++ leBytes 4 ask)) d with
        pldm := { p with data := p.data ++ data.take (p.size - p.data.length) } }) ∧
    (p.st = 3 → p.data.length = p.size → Lands .transferComplete s (goes 4 id (emit (.mctp [0x01, 0x05, 0x16, 0x00]) d))) ∧
    (p.st = 3 → p.data.length ≠ p.size → Lands .transferComplete s d) ∧
    (p.st = 4 → Runs .verifyComplete s fun d' =>
      (fwRefusal d p.data = none → d' = (landed s (goes 5 id (emit (.mctp [0x01, 0x05, 0x17, 0x00]) d))).dev) ∧
      (∀ x, fwRefusal d p.data = some x → d' = (landed s
        (let e := goes 2 id (emit (.mctp ([0x01, 0x05, 0x17] ++ leBytes 1 (0x90 + x))) d)
         if d.foot.boot = .recovery then footU (fun y => { y with refused := y.refused + 1, lastRefusal := some x }) e else e)).dev)) ∧
    (p.st = 5 → Lands .applyComplete s (goes 2 (fun x => { x with applied := true }) (emit (.mctp ([0x01, 0x05, 0x18, 0x00] ++ leBytes 2 0)) d))) ∧
    (∀ copyBad fail, p.st = 2 → p.applied = true → d.foot.boot = .recovery → Lands (.activateFirmware false copyBad fail) s
      (recoveryTake p.data false d.foot.gateBad (pldmReply 5 0x1A 0 (leBytes 2 0) { d with pldm := { prev := 2 } }))) ∧
    (∀ copyBad fail, p.st = 2 → p.applied = false → Lands (.activateFirmware false copyBad fail) s (pldmReply 5 0x1A 0x86 [] d)) ∧
    (p.st ≠ 3 → Lands .getStatus s (pldmReply 5 0x1B 0 (leBytes 1 p.st ++ leBytes 1 p.prev ++ [3, 0] ++ leBytes 1 0x65 ++ [0] ++ leBytes 4 0) d)) ∧
    (p.st = 3 → p.size ≠ 0 → Lands .getStatus s
      (pldmReply 5 0x1B 0 (leBytes 1 3 ++ leBytes 1 p.prev ++ [3, 0] ++ leBytes 1 (p.data.length * 100 / p.size) ++ [0] ++ leBytes 4 0) d)) ∧
    (1 ≤ p.st → p.st ≤ 5 → Lands .cancelUpdate s (pldmReply 5 0x1D 0 ([0] ++ leBytes 8 0) { d with pldm := { prev := p.st } })) ∧
    (p.st = 0 → Lands .cancelUpdate s (pldmReply 5 0x1D 0x80 [] d))
end

