-- ==== Sys2Proof/Laws/Exec.lean ====
section
/-! SUPPORT. Which meaning each command runs: one equation per command, so that no proof unfolds the dispatch. -/

namespace Sys2Proof.Machine

@[simp] theorem exec_registerWrite (fn bar off : Nat) (v : Word) (s : State) :
    exec (.registerWrite fn bar off v) s = execRegisterWrite fn bar off v s := rfl
@[simp] theorem exec_counterLowRead (fn off : Nat) (s : State) :
    exec (.counterLowRead fn off) s = execCounterLowRead fn off s := rfl
@[simp] theorem exec_commit (base : Nat) (s : State) :
    exec (.commit base) s = execCommit base s := rfl
@[simp] theorem exec_lock (base : Nat) (s : State) :
    exec (.lock base) s = execLock base s := rfl
@[simp] theorem exec_commitPoint (base : Nat) (dir : Nat) (s : State) :
    exec (.commitPoint base dir) s = execCommitPoint base dir s := rfl
@[simp] theorem exec_xingDeliver (src dst : Nat) (s : State) :
    exec (.xingDeliver src dst) s = execXingDeliver src dst s := rfl
@[simp] theorem exec_timeTick (s : State) :
    exec (.timeTick) s = execTimeTick s := rfl
@[simp] theorem exec_codeCycle (badCrc : List Nat) (drifts : List (Nat × Int)) (s : State) :
    exec (.codeCycle badCrc drifts) s = execCodeCycle badCrc drifts s := rfl
@[simp] theorem exec_scheduledApply (str : Nat) (s : State) :
    exec (.scheduledApply str) s = execScheduledApply str s := rfl
@[simp] theorem exec_timeBusDelayMeasure (island delay : Nat) (s : State) :
    exec (.timeBusDelayMeasure island delay) s = execTimeBusDelayMeasure island delay s := rfl
@[simp] theorem exec_fretValid (island : Nat) (s : State) :
    exec (.fretValid island) s = execFretValid island s := rfl
@[simp] theorem exec_trefLost (s : State) :
    exec (.trefLost) s = execTrefLost s := rfl
@[simp] theorem exec_tpllRelock (s : State) :
    exec (.tpllRelock) s = execTpllRelock s := rfl
@[simp] theorem exec_trefSelWrite (v : Word) (s : State) :
    exec (.trefSelWrite v) s = execTrefSelWrite v s := rfl
@[simp] theorem exec_slewEnd (str : Nat) (s : State) :
    exec (.slewEnd str) s = execSlewEnd str s := rfl
@[simp] theorem exec_acceptedOffset (str port : Nat) (o : Int) (rxTick txTick : Nat) (s : State) :
    exec (.acceptedOffset str port o rxTick txTick) s = execAcceptedOffset str port o rxTick txTick s := rfl
@[simp] theorem exec_sourceLost (str : Nat) (why : LossCause) (s : State) :
    exec (.sourceLost str why) s = execSourceLost str why s := rfl
@[simp] theorem exec_disputeTimerExpiry (str : Nat) (s : State) :
    exec (.disputeTimerExpiry str) s = execDisputeTimerExpiry str s := rfl
@[simp] theorem exec_leapApply (str : Nat) (s : State) :
    exec (.leapApply str) s = execLeapApply str s := rfl
@[simp] theorem exec_ppsInPulse (i : Nat) (rising : Bool) (sub : Nat) (s : State) :
    exec (.ppsInPulse idx rising sub) s = execPpsInPulse idx rising sub s := rfl
@[simp] theorem exec_ppsOutEdge (i : Nat) (active : Bool) (s : State) :
    exec (.ppsOutEdge idx active) s = execPpsOutEdge idx active s := rfl
@[simp] theorem exec_ptpMessage (port cls : Nat) (rx : PtpRx) (msg : Bytes) (s : State) :
    exec (.ptpMessage port cls rx msg) s = execPtpMessage port cls rx msg s := rfl
@[simp] theorem exec_ptpMessageTx (str port : Nat) (m : PtpSend) (s : State) :
    exec (.ptpMessageTx str port m) s = execPtpMessageTx str port m s := rfl
@[simp] theorem exec_esmcPduRx (port : Nat) (pdu : Bytes) (s : State) :
    exec (.esmcPduRx port pdu) s = execEsmcPduRx port pdu s := rfl
@[simp] theorem exec_esmcPduTx (port : Nat) (event : Bool) (s : State) :
    exec (.esmcPduTx port event) s = execEsmcPduTx port event s := rfl
@[simp] theorem exec_esmcQlFailed (port : Nat) (s : State) :
    exec (.esmcQlFailed port) s = execEsmcQlFailed port s := rfl
@[simp] theorem exec_timeSetSource (c : Cmd) (s : State) :
    exec (.timeSetSource c) s = execTimeSetSource c s := rfl
@[simp] theorem exec_timeLoad (c : Cmd) (s : State) :
    exec (.timeLoad c) s = execTimeLoad c s := rfl
@[simp] theorem exec_timeSetIncr (c : Cmd) (s : State) :
    exec (.timeSetIncr c) s = execTimeSetIncr c s := rfl
@[simp] theorem exec_timeSetDrone (c : Cmd) (s : State) :
    exec (.timeSetDrone c) s = execTimeSetDrone c s := rfl
@[simp] theorem exec_timeReanchor (c : Cmd) (s : State) :
    exec (.timeReanchor c) s = execTimeReanchor c s := rfl
@[simp] theorem exec_timeHostOffset (c : Cmd) (s : State) :
    exec (.timeHostOffset c) s = execTimeHostOffset c s := rfl
@[simp] theorem exec_timeHostFreq (c : Cmd) (s : State) :
    exec (.timeHostFreq c) s = execTimeHostFreq c s := rfl
@[simp] theorem exec_timeSetUtc (c : Cmd) (s : State) :
    exec (.timeSetUtc c) s = execTimeSetUtc c s := rfl
@[simp] theorem exec_timeRead (c : Cmd) (s : State) :
    exec (.timeRead c) s = execTimeRead c s := rfl
@[simp] theorem exec_timePtpClock (c : Cmd) (s : State) :
    exec (.timePtpClock c) s = execTimePtpClock c s := rfl
@[simp] theorem exec_timePtpPort (c : Cmd) (s : State) :
    exec (.timePtpPort c) s = execTimePtpPort c s := rfl
@[simp] theorem exec_timeNowRead (str : Nat) (s : State) :
    exec (.timeNowRead str) s = execTimeNowRead str s := rfl
@[simp] theorem exec_frameRx (port_ : Nat) (bytes : Bytes) (badFcs : Bool) (sub q corr uncorr syms : Nat) (s : State) :
    exec (.frameRx port_ bytes badFcs sub q corr uncorr syms) s = execFrameRx port_ bytes badFcs sub q corr uncorr syms s := rfl
@[simp] theorem exec_pauseExpiry (port_ : Nat) (s : State) :
    exec (.pauseExpiry port_) s = execPauseExpiry port_ s := rfl
@[simp] theorem exec_pauseRepeat (port_ : Nat) (s : State) :
    exec (.pauseRepeat port_) s = execPauseRepeat port_ s := rfl
@[simp] theorem exec_negotiationResolved (port_ tech fec : Nat) (c0 c1 : Bool) (ext : Nat) (s : State) :
    exec (.negotiationResolved port_ tech fec c0 c1 ext) s = execNegotiationResolved port_ tech fec c0 c1 ext s := rfl
@[simp] theorem exec_linkTrainingDone (port_ ok : Nat) (s : State) :
    exec (.linkTrainingDone port_ ok) s = execLinkTrainingDone port_ ok s := rfl
@[simp] theorem exec_linkUp (port_ : Nat) (lrx ltx : Int) (s : State) :
    exec (.linkUp port_ lrx ltx) s = execLinkUp port_ lrx ltx s := rfl
@[simp] theorem exec_linkSignalLoss (port_ cause : Nat) (midRx : Bool) (s : State) :
    exec (.linkSignalLoss port_ cause midRx) s = execLinkSignalLoss port_ cause midRx s := rfl
@[simp] theorem exec_holdDownExpiry (port_ : Nat) (s : State) :
    exec (.holdDownExpiry port_) s = execHoldDownExpiry port_ s := rfl
@[simp] theorem exec_holdRecovered (port_ : Nat) (lrx ltx : Int) (s : State) :
    exec (.holdRecovered port_ lrx ltx) s = execHoldRecovered port_ lrx ltx s := rfl
@[simp] theorem exec_remoteFault (port_ : Nat) (on : Bool) (s : State) :
    exec (.remoteFault port_ on) s = execRemoteFault port_ on s := rfl
@[simp] theorem exec_portLinkRestart (c : Cmd) (s : State) :
    exec (.portLinkRestart c) s = execPortLinkRestart c s := rfl
@[simp] theorem exec_portIslandReset (c : Cmd) (s : State) :
    exec (.portIslandReset c) s = execPortIslandReset c s := rfl
@[simp] theorem exec_islandReady (island : Nat) (s : State) :
    exec (.islandReady island) s = execIslandReady island s := rfl
@[simp] theorem exec_portStats (c : Cmd) (s : State) :
    exec (.portStats c) s = execPortStats c s := rfl
@[simp] theorem exec_txLaunch (port_ : Nat) (s : State) :
    exec (.txLaunch port_) s = execTxLaunch port_ s := rfl
@[simp] theorem exec_calUpdate (c : Cmd) (flash : Nat) (s : State) :
    exec (.calUpdate c flash) s = execCalUpdate c flash s := rfl
@[simp] theorem exec_calEntryApply (port_ : Nat) (tx : Bool) (s : State) :
    exec (.calEntryApply port_ tx) s = execCalEntryApply port_ tx s := rfl
@[simp] theorem exec_calMeasure (c : Cmd) (s : State) :
    exec (.calMeasure c) s = execCalMeasure c s := rfl
@[simp] theorem exec_calFrameTx (port_ sub a : Nat) (s : State) :
    exec (.calFrameTx port_ sub a) s = execCalFrameTx port_ sub a s := rfl
@[simp] theorem exec_calFrameLost (port_ : Nat) (s : State) :
    exec (.calFrameLost port_) s = execCalFrameLost port_ s := rfl
@[simp] theorem exec_calRead (c : Cmd) (s : State) :
    exec (.calRead c) s = execCalRead c s := rfl
@[simp] theorem exec_ingressFrame (pipe : Nat) (s : State) :
    exec (.ingressFrame pipe) s = execIngressFrame pipe s := rfl
@[simp] theorem exec_deepParse (j : Nat) (s : State) :
    exec (.deepParse j) s = execDeepParse j s := rfl
@[simp] theorem exec_dramLookupDone (pipe : Nat) (poisoned : Bool) (chan : Nat) (s : State) :
    exec (.dramLookupDone pipe poisoned chan) s = execDramLookupDone pipe poisoned chan s := rfl
@[simp] theorem exec_dramShed (s : State) :
    exec (.dramShed) s = execDramShed s := rfl
@[simp] theorem exec_tblInsert (c : Cmd) (s : State) :
    exec (.tblInsert c) s = execTblInsert c s := rfl
@[simp] theorem exec_tblModify (c : Cmd) (s : State) :
    exec (.tblModify c) s = execTblModify c s := rfl
@[simp] theorem exec_tblDelete (c : Cmd) (s : State) :
    exec (.tblDelete c) s = execTblDelete c s := rfl
@[simp] theorem exec_tblRead (c : Cmd) (s : State) :
    exec (.tblRead c) s = execTblRead c s := rfl
@[simp] theorem exec_tblClear (c : Cmd) (s : State) :
    exec (.tblClear c) s = execTblClear c s := rfl
@[simp] theorem exec_sessionSet (c : Cmd) (s : State) :
    exec (.sessionSet c) s = execSessionSet c s := rfl
@[simp] theorem exec_sessionRead (c : Cmd) (s : State) :
    exec (.sessionRead c) s = execSessionRead c s := rfl
@[simp] theorem exec_policerSet (c : Cmd) (s : State) :
    exec (.policerSet c) s = execPolicerSet c s := rfl
@[simp] theorem exec_policerRead (c : Cmd) (s : State) :
    exec (.policerRead c) s = execPolicerRead c s := rfl
@[simp] theorem exec_rssSet (c : Cmd) (s : State) :
    exec (.rssSet c) s = execRssSet c s := rfl
@[simp] theorem exec_courseIntake (course_ : Nat) (s : State) :
    exec (.courseIntake course_) s = execCourseIntake course_ s := rfl
@[simp] theorem exec_courseRelease (course_ : Nat) (s : State) :
    exec (.courseRelease course_) s = execCourseRelease course_ s := rfl
@[simp] theorem exec_epochWindowEnd (course_ : Nat) (s : State) :
    exec (.epochWindowEnd course_) s = execEpochWindowEnd course_ s := rfl
@[simp] theorem exec_wShrink (course_ : Nat) (s : State) :
    exec (.wShrink course_) s = execWShrink course_ s := rfl
@[simp] theorem exec_courseLate (course_ : Nat) (s : State) :
    exec (.courseLate course_) s = execCourseLate course_ s := rfl
@[simp] theorem exec_courseEarly (course_ : Nat) (s : State) :
    exec (.courseEarly course_) s = execCourseEarly course_ s := rfl
@[simp] theorem exec_courseSeqSet (c : Cmd) (s : State) :
    exec (.courseSeqSet c) s = execCourseSeqSet c s := rfl
@[simp] theorem exec_courseDrain (c : Cmd) (s : State) :
    exec (.courseDrain c) s = execCourseDrain c s := rfl
@[simp] theorem exec_courseStats (c : Cmd) (s : State) :
    exec (.courseStats c) s = execCourseStats c s := rfl
@[simp] theorem exec_orphanTimeout (id : Nat) (s : State) :
    exec (.orphanTimeout id) s = execOrphanTimeout id s := rfl
@[simp] theorem exec_epochBoundary (s : State) :
    exec (.epochBoundary) s = execEpochBoundary s := rfl
@[simp] theorem exec_longClose (s : State) :
    exec (.longClose) s = execLongClose s := rfl
@[simp] theorem exec_ashlarSealed (lost : List Nat) (s : State) :
    exec (.ashlarSealed lost) s = execAshlarSealed lost s := rfl
@[simp] theorem exec_capstoneBoundary (s : State) :
    exec (.capstoneBoundary) s = execCapstoneBoundary s := rfl
@[simp] theorem exec_capstoneSigned (s : State) :
    exec (.capstoneSigned) s = execCapstoneSigned s := rfl
@[simp] theorem exec_extentDurable (poisoned : Bool) (s : State) :
    exec (.extentDurable poisoned) s = execExtentDurable poisoned s := rfl
@[simp] theorem exec_superblockWrite (s : State) :
    exec (.superblockWrite) s = execSuperblockWrite s := rfl
@[simp] theorem exec_journalOpeningDone (s : State) :
    exec (.journalOpeningDone) s = execJournalOpeningDone s := rfl
@[simp] theorem exec_journalClosed (s : State) :
    exec (.journalClosed) s = execJournalClosed s := rfl
@[simp] theorem exec_witMark (c : Cmd) (s : State) :
    exec (.witMark c) s = execWitMark c s := rfl
@[simp] theorem exec_evidenceRead (c : Cmd) (s : State) :
    exec (.evidenceRead c) s = execEvidenceRead c s := rfl
@[simp] theorem exec_witRelease (c : Cmd) (s : State) :
    exec (.witRelease c) s = execWitRelease c s := rfl
@[simp] theorem exec_witCerts (c : Cmd) (s : State) :
    exec (.witCerts c) s = execWitCerts c s := rfl
@[simp] theorem exec_witCapRing (c : Cmd) (s : State) :
    exec (.witCapRing c) s = execWitCapRing c s := rfl
@[simp] theorem exec_witHalf (c : Cmd) (s : State) :
    exec (.witHalf c) s = execWitHalf c s := rfl
@[simp] theorem exec_witHalfDone (h : Nat) (s : State) :
    exec (.witHalfDone h) s = execWitHalfDone h s := rfl
@[simp] theorem exec_witStats (c : Cmd) (s : State) :
    exec (.witStats c) s = execWitStats c s := rfl
@[simp] theorem exec_txDb (fn lq : Nat) (s : State) :
    exec (.txDb fn lq) s = execTxDb fn lq s := rfl
@[simp] theorem exec_rxDb (fn lq : Nat) (s : State) :
    exec (.rxDb fn lq) s = execRxDb fn lq s := rfl
@[simp] theorem exec_cqDb (fn lq : Nat) (v : Word) (s : State) :
    exec (.cqDb fn lq v) s = execCqDb fn lq v s := rfl
@[simp] theorem exec_aqDb (fn : Nat) (s : State) :
    exec (.aqDb fn) s = execAqDb fn s := rfl
@[simp] theorem exec_eqDb (fn : Nat) (v : Word) (s : State) :
    exec (.eqDb fn v) s = execEqDb fn v s := rfl
@[simp] theorem exec_tcqDb (fn j : Nat) (s : State) :
    exec (.tcqDb fn j) s = execTcqDb fn j s := rfl
@[simp] theorem exec_pushCtl (fn lq : Nat) (v : Word) (s : State) :
    exec (.pushCtl fn lq v) s = execPushCtl fn lq v s := rfl
@[simp] theorem exec_doorbellRecordRead (fn qtype lq : Nat) (res : ReadRes) (s : State) :
    exec (.doorbellRecordRead fn qtype lq res) s = execDoorbellRecordRead fn qtype lq res s := rfl
@[simp] theorem exec_fetchTurn (h : Nat) (s : State) :
    exec (.fetchTurn h) s = execFetchTurn h s := rfl
@[simp] theorem exec_txDescFetch (fn lq : Nat) (res : ReadRes) (s : State) :
    exec (.txDescFetch fn lq res) s = execTxDescFetch fn lq res s := rfl
@[simp] theorem exec_txDataFetch (fn lq : Nat) (res : ReadRes) (s : State) :
    exec (.txDataFetch fn lq res) s = execTxDataFetch fn lq res s := rfl
@[simp] theorem exec_spoofDetected (vf : Nat) (s : State) :
    exec (.spoofDetected vf) s = execSpoofDetected vf s := rfl
@[simp] theorem exec_rxDelivery (h : Nat) (s : State) :
    exec (.rxDelivery h) s = execRxDelivery h s := rfl
@[simp] theorem exec_modTimeExpiry (fn lq : Nat) (s : State) :
    exec (.modTimeExpiry fn lq) s = execModTimeExpiry fn lq s := rfl
@[simp] theorem exec_identify (c : Cmd) (s : State) :
    exec (.identify c) s = execIdentify c s := rfl
@[simp] theorem exec_cqCreate (c : Cmd) (s : State) :
    exec (.cqCreate c) s = execCqCreate c s := rfl
@[simp] theorem exec_txqCreate (c : Cmd) (s : State) :
    exec (.txqCreate c) s = execTxqCreate c s := rfl
@[simp] theorem exec_rxqCreate (c : Cmd) (s : State) :
    exec (.rxqCreate c) s = execRxqCreate c s := rfl
@[simp] theorem exec_tcqCreate (c : Cmd) (s : State) :
    exec (.tcqCreate c) s = execTcqCreate c s := rfl
@[simp] theorem exec_qstart (c : Cmd) (s : State) :
    exec (.qstart c) s = execQstart c s := rfl
@[simp] theorem exec_qstop (c : Cmd) (s : State) :
    exec (.qstop c) s = execQstop c s := rfl
@[simp] theorem exec_qdestroy (c : Cmd) (s : State) :
    exec (.qdestroy c) s = execQdestroy c s := rfl
@[simp] theorem exec_qset (c : Cmd) (s : State) :
    exec (.qset c) s = execQset c s := rfl
@[simp] theorem exec_qquery (c : Cmd) (s : State) :
    exec (.qquery c) s = execQquery c s := rfl
@[simp] theorem exec_aqCfgWrite (fn : Nat) (v : Word) (s : State) :
    exec (.aqCfgWrite fn v) s = execAqCfgWrite fn v s := rfl
@[simp] theorem exec_eqCfgWrite (fn : Nat) (v : Word) (s : State) :
    exec (.eqCfgWrite fn v) s = execEqCfgWrite fn v s := rfl
@[simp] theorem exec_egressEnqueue (pipe : Nat) (s : State) :
    exec (.egressEnqueue pipe) s = execEgressEnqueue pipe s := rfl
@[simp] theorem exec_admissionDrop (s : State) :
    exec (.admissionDrop) s = execAdmissionDrop s := rfl
@[simp] theorem exec_schedulerSelect (port_ lead a : Nat) (s : State) :
    exec (.schedulerSelect port_ lead a) s = execSchedulerSelect port_ lead a s := rfl
@[simp] theorem exec_gateEntryChange (port_ : Nat) (s : State) :
    exec (.gateEntryChange port_) s = execGateEntryChange port_ s := rfl
@[simp] theorem exec_configChangeTime (port_ : Nat) (s : State) :
    exec (.configChangeTime port_) s = execConfigChangeTime port_ s := rfl
@[simp] theorem exec_gateOverrun (port_ : Nat) (s : State) :
    exec (.gateOverrun port_) s = execGateOverrun port_ s := rfl
@[simp] theorem exec_schedStats (c : Cmd) (s : State) :
    exec (.schedStats c) s = execSchedStats c s := rfl
@[simp] theorem exec_plumbEnqueue (g : Nat) (phase : Int) (am : List (Nat × Nat)) (s : State) :
    exec (.plumbEnqueue g phase am) s = execPlumbEnqueue g phase am s := rfl
@[simp] theorem exec_plumbLaunch (port_ : Nat) (s : State) :
    exec (.plumbLaunch port_) s = execPlumbLaunch port_ s := rfl
@[simp] theorem exec_plumbCopyTimeout (g : Nat) (s : State) :
    exec (.plumbCopyTimeout g) s = execPlumbCopyTimeout g s := rfl
@[simp] theorem exec_plumbMissed (g : Nat) (s : State) :
    exec (.plumbMissed g) s = execPlumbMissed g s := rfl
@[simp] theorem exec_plumbStats (c : Cmd) (s : State) :
    exec (.plumbStats c) s = execPlumbStats c s := rfl
@[simp] theorem exec_perstN (h : Nat) (asserted : Bool) (s : State) :
    exec (.perstN h asserted) s = execPerstN h asserted s := rfl
@[simp] theorem exec_hotReset (h : Nat) (s : State) :
    exec (.hotReset h) s = execHotReset h s := rfl
@[simp] theorem exec_hostLink (h : Nat) (up surprise flit reversed : Bool) (speed width : Nat) (s : State) :
    exec (.hostLink h up surprise flit reversed speed width) s = execHostLink h up surprise flit reversed speed width s := rfl
@[simp] theorem exec_busMasterEnable (fn : Nat) (on : Bool) (s : State) :
    exec (.busMasterEnable fn on) s = execBusMasterEnable fn on s := rfl
@[simp] theorem exec_d3hot (fn : Nat) (enter : Bool) (s : State) :
    exec (.d3hot fn enter) s = execD3hot fn enter s := rfl
@[simp] theorem exec_flr (fn : Nat) (s : State) :
    exec (.flr fn) s = execFlr fn s := rfl
@[simp] theorem exec_fnReset (fn : Nat) (v : Word) (s : State) :
    exec (.fnReset fn v) s = execFnReset fn v s := rfl
@[simp] theorem exec_flrDone (fn : Nat) (s : State) :
    exec (.flrDone fn) s = execFlrDone fn s := rfl
@[simp] theorem exec_inboundTlp (h : Nat) (t : Tlp) (s : State) :
    exec (.inboundTlp h t) s = execInboundTlp h t s := rfl
@[simp] theorem exec_peerClosed (pf : Nat) (s : State) :
    exec (.peerClosed pf) s = execPeerClosed pf s := rfl
@[simp] theorem exec_completionTimeout (fn : Nat) (k : ReadKind) (s : State) :
    exec (.completionTimeout fn k) s = execCompletionTimeout fn k s := rfl
@[simp] theorem exec_frzRelease (h : Nat) (v : Word) (s : State) :
    exec (.frzRelease h v) s = execFrzRelease h v s := rfl
@[simp] theorem exec_hostReleased (h : Nat) (s : State) :
    exec (.hostReleased h) s = execHostReleased h s := rfl
@[simp] theorem exec_vfEnable (pf : Nat) (on : Bool) (numVfs : Nat) (s : State) :
    exec (.vfEnable pf on numVfs) s = execVfEnable pf on numVfs s := rfl
@[simp] theorem exec_vfReady (vf : Nat) (s : State) :
    exec (.vfReady vf) s = execVfReady vf s := rfl
@[simp] theorem exec_spdmRequest (c : Carrier) (req : Bytes) (s : State) :
    exec (.spdmRequest c req) s = execSpdmRequest c req s := rfl
@[simp] theorem exec_getVersion (c : Carrier) (req : Bytes) (s : State) :
    exec (.getVersion c req) s = execGetVersion c req s := rfl
@[simp] theorem exec_getCapabilities (c : Carrier) (req : Bytes) (s : State) :
    exec (.getCapabilities c req) s = execGetCapabilities c req s := rfl
@[simp] theorem exec_negotiateAlgorithms (c : Carrier) (req : Bytes) (s : State) :
    exec (.negotiateAlgorithms c req) s = execNegotiateAlgorithms c req s := rfl
@[simp] theorem exec_getDigests (c : Carrier) (req : Bytes) (s : State) :
    exec (.getDigests c req) s = execGetDigests c req s := rfl
@[simp] theorem exec_getCertificate (c : Carrier) (req : Bytes) (s : State) :
    exec (.getCertificate c req) s = execGetCertificate c req s := rfl
@[simp] theorem exec_challenge (c : Carrier) (req : Bytes) (s : State) :
    exec (.challenge c req) s = execChallenge c req s := rfl
@[simp] theorem exec_getMeasurements (c : Carrier) (req : Bytes) (s : State) :
    exec (.getMeasurements c req) s = execGetMeasurements c req s := rfl
@[simp] theorem exec_grantSet (c : Cmd) (s : State) :
    exec (.grantSet c) s = execGrantSet c s := rfl
@[simp] theorem exec_grantShrinkDone (fn : Nat) (s : State) :
    exec (.grantShrinkDone fn) s = execGrantShrinkDone fn s := rfl
@[simp] theorem exec_shrinkTimeout (fn : Nat) (s : State) :
    exec (.shrinkTimeout fn) s = execShrinkTimeout fn s := rfl
@[simp] theorem exec_grantQuery (c : Cmd) (s : State) :
    exec (.grantQuery c) s = execGrantQuery c s := rfl
@[simp] theorem exec_vfConfig (c : Cmd) (s : State) :
    exec (.vfConfig c) s = execVfConfig c s := rfl
@[simp] theorem exec_logStart (c : Cmd) (s : State) :
    exec (.logStart c) s = execLogStart c s := rfl
@[simp] theorem exec_logDrain (c : Cmd) (s : State) :
    exec (.logDrain c) s = execLogDrain c s := rfl
@[simp] theorem exec_logStop (c : Cmd) (s : State) :
    exec (.logStop c) s = execLogStop c s := rfl
@[simp] theorem exec_vfSave (c : Cmd) (s : State) :
    exec (.vfSave c) s = execVfSave c s := rfl
@[simp] theorem exec_vfRestore (c : Cmd) (s : State) :
    exec (.vfRestore c) s = execVfRestore c s := rfl
@[simp] theorem exec_vfResume (c : Cmd) (s : State) :
    exec (.vfResume c) s = execVfResume c s := rfl
@[simp] theorem exec_ccEn (pf : Nat) (v : Word) (s : State) :
    exec (.ccEn pf v) s = execCcEn pf v s := rfl
@[simp] theorem exec_sqTailDoorbell (pf y : Nat) (v : Word) (s : State) :
    exec (.sqTailDoorbell pf y v) s = execSqTailDoorbell pf y v s := rfl
@[simp] theorem exec_cqHeadDoorbell (pf y : Nat) (v : Word) (s : State) :
    exec (.cqHeadDoorbell pf y v) s = execCqHeadDoorbell pf y v s := rfl
@[simp] theorem exec_createIoSq (pf n : Nat) (s : State) :
    exec (.createIoSq pf n) s = execCreateIoSq pf n s := rfl
@[simp] theorem exec_deleteIoSq (pf n : Nat) (s : State) :
    exec (.deleteIoSq pf n) s = execDeleteIoSq pf n s := rfl
@[simp] theorem exec_createIoCq (pf n : Nat) (s : State) :
    exec (.createIoCq pf n) s = execCreateIoCq pf n s := rfl
@[simp] theorem exec_deleteIoCq (pf n : Nat) (s : State) :
    exec (.deleteIoCq pf n) s = execDeleteIoCq pf n s := rfl
@[simp] theorem exec_getLogPage (pf n : Nat) (s : State) :
    exec (.getLogPage pf n) s = execGetLogPage pf n s := rfl
@[simp] theorem exec_nvmeIdentify (pf n : Nat) (s : State) :
    exec (.nvmeIdentify pf n) s = execNvmeIdentify pf n s := rfl
@[simp] theorem exec_abort (pf n : Nat) (s : State) :
    exec (.abort pf n) s = execAbort pf n s := rfl
@[simp] theorem exec_setFeatures (pf n : Nat) (s : State) :
    exec (.setFeatures pf n) s = execSetFeatures pf n s := rfl
@[simp] theorem exec_getFeatures (pf n : Nat) (s : State) :
    exec (.getFeatures pf n) s = execGetFeatures pf n s := rfl
@[simp] theorem exec_asynchronousEventRequest (pf n : Nat) (s : State) :
    exec (.asynchronousEventRequest pf n) s = execAsynchronousEventRequest pf n s := rfl
@[simp] theorem exec_namespaceManagement (pf n : Nat) (s : State) :
    exec (.namespaceManagement pf n) s = execNamespaceManagement pf n s := rfl
@[simp] theorem exec_namespaceAttachment (pf n : Nat) (s : State) :
    exec (.namespaceAttachment pf n) s = execNamespaceAttachment pf n s := rfl
@[simp] theorem exec_formatNvm (pf n : Nat) (s : State) :
    exec (.formatNvm pf n) s = execFormatNvm pf n s := rfl
@[simp] theorem exec_firmwareImageDownload (pf n : Nat) (s : State) :
    exec (.firmwareImageDownload pf n) s = execFirmwareImageDownload pf n s := rfl
@[simp] theorem exec_firmwareCommit (pf n : Nat) (copyBad : Bool) (fail : Option Nat) (s : State) :
    exec (.firmwareCommit pf n copyBad fail) s = execFirmwareCommit pf n copyBad fail s := rfl
@[simp] theorem exec_deviceSelfTest (pf n : Nat) (s : State) :
    exec (.deviceSelfTest pf n) s = execDeviceSelfTest pf n s := rfl
@[simp] theorem exec_selfTestResume (s : State) :
    exec (.selfTestResume) s = execSelfTestResume s := rfl
@[simp] theorem exec_selfTestDone (health dram : Bool) (s : State) :
    exec (.selfTestDone health dram) s = execSelfTestDone health dram s := rfl
@[simp] theorem exec_nvmeFlush (pf n : Nat) (s : State) :
    exec (.nvmeFlush pf n) s = execNvmeFlush pf n s := rfl
@[simp] theorem exec_nvmeWrite (pf n : Nat) (s : State) :
    exec (.nvmeWrite pf n) s = execNvmeWrite pf n s := rfl
@[simp] theorem exec_nvmeRead (pf n : Nat) (fails : List (Nat × Nat)) (s : State) :
    exec (.nvmeRead pf n fails) s = execNvmeRead pf n fails s := rfl
@[simp] theorem exec_writeZeroes (pf n : Nat) (s : State) :
    exec (.writeZeroes pf n) s = execWriteZeroes pf n s := rfl
@[simp] theorem exec_datasetManagement (pf n : Nat) (s : State) :
    exec (.datasetManagement pf n) s = execDatasetManagement pf n s := rfl
@[simp] theorem exec_writebackDurable (n : Nat) (poisoned : Bool) (s : State) :
    exec (.writebackDurable n poisoned) s = execWritebackDurable n poisoned s := rfl
@[simp] theorem exec_apstTransition (pf : Nat) (s : State) :
    exec (.apstTransition pf) s = execApstTransition pf s := rfl
@[simp] theorem exec_cluster0Timeout (s : State) :
    exec (.cluster0Timeout) s = execCluster0Timeout s := rfl
@[simp] theorem exec_drivePresence (n : Nat) (on : Bool) (other : Option (List (Nat × Bytes))) (s : State) :
    exec (.drivePresence n on other) s = execDrivePresence n on other s := rfl
@[simp] theorem exec_dperstRelease (n : Nat) (s : State) :
    exec (.dperstRelease n) s = execDperstRelease n s := rfl
@[simp] theorem exec_driveLinkUp (n speed width : Nat) (s : State) :
    exec (.driveLinkUp n speed width) s = execDriveLinkUp n speed width s := rfl
@[simp] theorem exec_driveLinkTimeout (n : Nat) (s : State) :
    exec (.driveLinkTimeout n) s = execDriveLinkTimeout n s := rfl
@[simp] theorem exec_driveIdentify (n : Nat) (usable : Bool) (slabs : Nat) (s : State) :
    exec (.driveIdentify n usable slabs) s = execDriveIdentify n usable slabs s := rfl
@[simp] theorem exec_driveWriteError (n : Nat) (link : Bool) (s : State) :
    exec (.driveWriteError n link) s = execDriveWriteError n link s := rfl
@[simp] theorem exec_driveCommandTimeout (n : Nat) (s : State) :
    exec (.driveCommandTimeout n) s = execDriveCommandTimeout n s := rfl
@[simp] theorem exec_rebuildChunk (n : Nat) (bad : List Nat) (s : State) :
    exec (.rebuildChunk n bad) s = execRebuildChunk n bad s := rfl
@[simp] theorem exec_ledgerFormat (c : Cmd) (s : State) :
    exec (.ledgerFormat c) s = execLedgerFormat c s := rfl
@[simp] theorem exec_driveAdopt (c : Cmd) (s : State) :
    exec (.driveAdopt c) s = execDriveAdopt c s := rfl
@[simp] theorem exec_driveRelease (c : Cmd) (s : State) :
    exec (.driveRelease c) s = execDriveRelease c s := rfl
@[simp] theorem exec_ledgerStats (c : Cmd) (s : State) :
    exec (.ledgerStats c) s = execLedgerStats c s := rfl
@[simp] theorem exec_dramRefresh (ch : Nat) (s : State) :
    exec (.dramRefresh ch) s = execDramRefresh ch s := rfl
@[simp] theorem exec_dramTempPoll (ch : Nat) (readings : List (Option Int)) (s : State) :
    exec (.dramTempPoll ch readings) s = execDramTempPoll ch readings s := rfl
@[simp] theorem exec_scrubStep (ch rank line : Nat) (res : LineRes) (victim : Nat) (s : State) :
    exec (.scrubStep ch rank line res victim) s = execScrubStep ch rank line res victim s := rfl
@[simp] theorem exec_caParityError (ch rank line retries : Nat) (s : State) :
    exec (.caParityError ch rank line retries) s = execCaParityError ch rank line retries s := rfl
@[simp] theorem exec_spareCopyStep (src : LineRes) (targetBad : Bool) (s : State) :
    exec (.spareCopyStep src targetBad) s = execSpareCopyStep src targetBad s := rfl
@[simp] theorem exec_dramRankRetire (c : Cmd) (s : State) :
    exec (.dramRankRetire c) s = execDramRankRetire c s := rfl
@[simp] theorem exec_dramStats (c : Cmd) (s : State) :
    exec (.dramStats c) s = execDramStats c s := rfl
@[simp] theorem exec_gateIntake (c : Nat) (s : State) :
    exec (.gateIntake c) s = execGateIntake c s := rfl
@[simp] theorem exec_budgetExpiry (c t : Nat) (s : State) :
    exec (.budgetExpiry c t) s = execBudgetExpiry c t s := rfl
@[simp] theorem exec_gateBusy (g : Nat) (s : State) :
    exec (.gateBusy g) s = execGateBusy g s := rfl
@[simp] theorem exec_keystoneWake (c t : Nat) (s : State) :
    exec (.keystoneWake c t) s = execKeystoneWake c t s := rfl
@[simp] theorem exec_keystoneTimer (c n : Nat) (s : State) :
    exec (.keystoneTimer c n) s = execKeystoneTimer c n s := rfl
@[simp] theorem exec_quiescentDeadlock (c : Nat) (s : State) :
    exec (.quiescentDeadlock c) s = execQuiescentDeadlock c s := rfl
@[simp] theorem exec_channelAbandon (c n : Nat) (s : State) :
    exec (.channelAbandon c n) s = execChannelAbandon c n s := rfl
@[simp] theorem exec_breakpointHit (c t : Nat) (s : State) :
    exec (.breakpointHit c t) s = execBreakpointHit c t s := rfl
@[simp] theorem exec_dbgHalt (c k mask : Nat) (s : State) :
    exec (.dbgHalt c k mask) s = execDbgHalt c k mask s := rfl
@[simp] theorem exec_dbgStep (c k i : Nat) (s : State) :
    exec (.dbgStep c k idx) s = execDbgStep c k idx s := rfl
@[simp] theorem exec_dbgResume (c k mask : Nat) (s : State) :
    exec (.dbgResume c k mask) s = execDbgResume c k mask s := rfl
@[simp] theorem exec_dbgDataWrite (c k : Nat) (hi : Bool) (v : Word) (s : State) :
    exec (.dbgDataWrite c k hi v) s = execDbgDataWrite c k hi v s := rfl
@[simp] theorem exec_dbgCtlDebugEn (c k : Nat) (on : Bool) (s : State) :
    exec (.dbgCtlDebugEn c k on) s = execDbgCtlDebugEn c k on s := rfl
@[simp] theorem exec_givikCoreRestart (c : Cmd) (s : State) :
    exec (.givikCoreRestart c) s = execGivikCoreRestart c s := rfl
@[simp] theorem exec_givikSignal (c : Cmd) (s : State) :
    exec (.givikSignal c) s = execGivikSignal c s := rfl
@[simp] theorem exec_givikClusterRelease (c : Cmd) (s : State) :
    exec (.givikClusterRelease c) s = execGivikClusterRelease c s := rfl
@[simp] theorem exec_givikReleased (c : Nat) (s : State) :
    exec (.givikReleased c) s = execGivikReleased c s := rfl
@[simp] theorem exec_givikStats (c : Cmd) (s : State) :
    exec (.givikStats c) s = execGivikStats c s := rfl
@[simp] theorem exec_givikFaultRead (c : Cmd) (s : State) :
    exec (.givikFaultRead c) s = execGivikFaultRead c s := rfl
@[simp] theorem exec_add (c t : Nat) (D A B : BitVec 5) (s : State) :
    exec (.add c t D A B) s = execAdd c t D A B s := rfl
@[simp] theorem exec_sub (c t : Nat) (D A B : BitVec 5) (s : State) :
    exec (.sub c t D A B) s = execSub c t D A B s := rfl
@[simp] theorem exec_and (c t : Nat) (D A B : BitVec 5) (s : State) :
    exec (.and c t D A B) s = execAnd c t D A B s := rfl
@[simp] theorem exec_or (c t : Nat) (D A B : BitVec 5) (s : State) :
    exec (.or c t D A B) s = execOr c t D A B s := rfl
@[simp] theorem exec_xor (c t : Nat) (D A B : BitVec 5) (s : State) :
    exec (.xor c t D A B) s = execXor c t D A B s := rfl
@[simp] theorem exec_sll (c t : Nat) (D A B : BitVec 5) (s : State) :
    exec (.sll c t D A B) s = execSll c t D A B s := rfl
@[simp] theorem exec_srl (c t : Nat) (D A B : BitVec 5) (s : State) :
    exec (.srl c t D A B) s = execSrl c t D A B s := rfl
@[simp] theorem exec_sra (c t : Nat) (D A B : BitVec 5) (s : State) :
    exec (.sra c t D A B) s = execSra c t D A B s := rfl
@[simp] theorem exec_slt (c t : Nat) (D A B : BitVec 5) (s : State) :
    exec (.slt c t D A B) s = execSlt c t D A B s := rfl
@[simp] theorem exec_sltu (c t : Nat) (D A B : BitVec 5) (s : State) :
    exec (.sltu c t D A B) s = execSltu c t D A B s := rfl
@[simp] theorem exec_seq (c t : Nat) (D A B : BitVec 5) (s : State) :
    exec (.seq c t D A B) s = execSeq c t D A B s := rfl
@[simp] theorem exec_sne (c t : Nat) (D A B : BitVec 5) (s : State) :
    exec (.sne c t D A B) s = execSne c t D A B s := rfl
@[simp] theorem exec_min (c t : Nat) (D A B : BitVec 5) (s : State) :
    exec (.min c t D A B) s = execMin c t D A B s := rfl
@[simp] theorem exec_max (c t : Nat) (D A B : BitVec 5) (s : State) :
    exec (.max c t D A B) s = execMax c t D A B s := rfl
@[simp] theorem exec_minu (c t : Nat) (D A B : BitVec 5) (s : State) :
    exec (.minu c t D A B) s = execMinu c t D A B s := rfl
@[simp] theorem exec_maxu (c t : Nat) (D A B : BitVec 5) (s : State) :
    exec (.maxu c t D A B) s = execMaxu c t D A B s := rfl
@[simp] theorem exec_clz (c t : Nat) (D A : BitVec 5) (s : State) :
    exec (.clz c t D A) s = execClz c t D A s := rfl
@[simp] theorem exec_popc (c t : Nat) (D A : BitVec 5) (s : State) :
    exec (.popc c t D A) s = execPopc c t D A s := rfl
@[simp] theorem exec_sel (c t : Nat) (D A B C : BitVec 5) (s : State) :
    exec (.sel c t D A B C) s = execSel c t D A B C s := rfl
@[simp] theorem exec_mul (c t : Nat) (D A B : BitVec 5) (s : State) :
    exec (.mul c t D A B) s = execMul c t D A B s := rfl
@[simp] theorem exec_mulhs (c t : Nat) (D A B : BitVec 5) (s : State) :
    exec (.mulhs c t D A B) s = execMulhs c t D A B s := rfl
@[simp] theorem exec_mulhu (c t : Nat) (D A B : BitVec 5) (s : State) :
    exec (.mulhu c t D A B) s = execMulhu c t D A B s := rfl
@[simp] theorem exec_addi (c t : Nat) (D A : BitVec 5) (imm : BitVec 16) (s : State) :
    exec (.addi c t D A imm) s = execAddi c t D A imm s := rfl
@[simp] theorem exec_andi (c t : Nat) (D A : BitVec 5) (imm : BitVec 16) (s : State) :
    exec (.andi c t D A imm) s = execAndi c t D A imm s := rfl
@[simp] theorem exec_ori (c t : Nat) (D A : BitVec 5) (imm : BitVec 16) (s : State) :
    exec (.ori c t D A imm) s = execOri c t D A imm s := rfl
@[simp] theorem exec_xori (c t : Nat) (D A : BitVec 5) (imm : BitVec 16) (s : State) :
    exec (.xori c t D A imm) s = execXori c t D A imm s := rfl
@[simp] theorem exec_slti (c t : Nat) (D A : BitVec 5) (imm : BitVec 16) (s : State) :
    exec (.slti c t D A imm) s = execSlti c t D A imm s := rfl
@[simp] theorem exec_sltui (c t : Nat) (D A : BitVec 5) (imm : BitVec 16) (s : State) :
    exec (.sltui c t D A imm) s = execSltui c t D A imm s := rfl
@[simp] theorem exec_lui (c t : Nat) (D : BitVec 5) (imm : BitVec 16) (s : State) :
    exec (.lui c t D imm) s = execLui c t D imm s := rfl
@[simp] theorem exec_slli (c t : Nat) (D A : BitVec 5) (sh : BitVec 6) (s : State) :
    exec (.slli c t D A sh) s = execSlli c t D A sh s := rfl
@[simp] theorem exec_srli (c t : Nat) (D A : BitVec 5) (sh : BitVec 6) (s : State) :
    exec (.srli c t D A sh) s = execSrli c t D A sh s := rfl
@[simp] theorem exec_srai (c t : Nat) (D A : BitVec 5) (sh : BitVec 6) (s : State) :
    exec (.srai c t D A sh) s = execSrai c t D A sh s := rfl
@[simp] theorem exec_lb (c t : Nat) (D A : BitVec 5) (imm : BitVec 16) (s : State) :
    exec (.lb c t D A imm) s = execLb c t D A imm s := rfl
@[simp] theorem exec_lbu (c t : Nat) (D A : BitVec 5) (imm : BitVec 16) (s : State) :
    exec (.lbu c t D A imm) s = execLbu c t D A imm s := rfl
@[simp] theorem exec_lh (c t : Nat) (D A : BitVec 5) (imm : BitVec 16) (s : State) :
    exec (.lh c t D A imm) s = execLh c t D A imm s := rfl
@[simp] theorem exec_lhu (c t : Nat) (D A : BitVec 5) (imm : BitVec 16) (s : State) :
    exec (.lhu c t D A imm) s = execLhu c t D A imm s := rfl
@[simp] theorem exec_lw (c t : Nat) (D A : BitVec 5) (imm : BitVec 16) (s : State) :
    exec (.lw c t D A imm) s = execLw c t D A imm s := rfl
@[simp] theorem exec_lwu (c t : Nat) (D A : BitVec 5) (imm : BitVec 16) (s : State) :
    exec (.lwu c t D A imm) s = execLwu c t D A imm s := rfl
@[simp] theorem exec_ld (c t : Nat) (D A : BitVec 5) (imm : BitVec 16) (s : State) :
    exec (.ld c t D A imm) s = execLd c t D A imm s := rfl
@[simp] theorem exec_sb (c t : Nat) (S A : BitVec 5) (imm : BitVec 16) (s : State) :
    exec (.sb c t S A imm) s = execSb c t S A imm s := rfl
@[simp] theorem exec_sh (c t : Nat) (S A : BitVec 5) (imm : BitVec 16) (s : State) :
    exec (.sh c t S A imm) s = execSh c t S A imm s := rfl
@[simp] theorem exec_sw (c t : Nat) (S A : BitVec 5) (imm : BitVec 16) (s : State) :
    exec (.sw c t S A imm) s = execSw c t S A imm s := rfl
@[simp] theorem exec_sd (c t : Nat) (S A : BitVec 5) (imm : BitVec 16) (s : State) :
    exec (.sd c t S A imm) s = execSd c t S A imm s := rfl
@[simp] theorem exec_plb (c t : Nat) (D A : BitVec 5) (imm : BitVec 16) (s : State) :
    exec (.plb c t D A imm) s = execPlb c t D A imm s := rfl
@[simp] theorem exec_plh (c t : Nat) (D A : BitVec 5) (imm : BitVec 16) (s : State) :
    exec (.plh c t D A imm) s = execPlh c t D A imm s := rfl
@[simp] theorem exec_plw (c t : Nat) (D A : BitVec 5) (imm : BitVec 16) (s : State) :
    exec (.plw c t D A imm) s = execPlw c t D A imm s := rfl
@[simp] theorem exec_pld (c t : Nat) (D A : BitVec 5) (imm : BitVec 16) (s : State) :
    exec (.pld c t D A imm) s = execPld c t D A imm s := rfl
@[simp] theorem exec_beq (c t : Nat) (A B : BitVec 5) (off : BitVec 16) (s : State) :
    exec (.beq c t A B off) s = execBeq c t A B off s := rfl
@[simp] theorem exec_bne (c t : Nat) (A B : BitVec 5) (off : BitVec 16) (s : State) :
    exec (.bne c t A B off) s = execBne c t A B off s := rfl
@[simp] theorem exec_blt (c t : Nat) (A B : BitVec 5) (off : BitVec 16) (s : State) :
    exec (.blt c t A B off) s = execBlt c t A B off s := rfl
@[simp] theorem exec_bge (c t : Nat) (A B : BitVec 5) (off : BitVec 16) (s : State) :
    exec (.bge c t A B off) s = execBge c t A B off s := rfl
@[simp] theorem exec_bltu (c t : Nat) (A B : BitVec 5) (off : BitVec 16) (s : State) :
    exec (.bltu c t A B off) s = execBltu c t A B off s := rfl
@[simp] theorem exec_bgeu (c t : Nat) (A B : BitVec 5) (off : BitVec 16) (s : State) :
    exec (.bgeu c t A B off) s = execBgeu c t A B off s := rfl
@[simp] theorem exec_j (c t : Nat) (off : BitVec 26) (s : State) :
    exec (.j c t off) s = execJ c t off s := rfl
@[simp] theorem exec_jal (c t : Nat) (off : BitVec 26) (s : State) :
    exec (.jal c t off) s = execJal c t off s := rfl
@[simp] theorem exec_jalr (c t : Nat) (D A : BitVec 5) (imm : BitVec 16) (s : State) :
    exec (.jalr c t D A imm) s = execJalr c t D A imm s := rfl
@[simp] theorem exec_lkup (c t : Nat) (D A : BitVec 5) (tbl : BitVec 3) (poisoned : Bool) (chan : Nat) (s : State) :
    exec (.lkup c t D A tbl poisoned chan) s = execLkup c t D A tbl poisoned chan s := rfl
@[simp] theorem exec_acq (c t : Nat) (A : BitVec 5) (k : BitVec 12) (s : State) :
    exec (.acq c t A k) s = execAcq c t A k s := rfl
@[simp] theorem exec_tacq (c t : Nat) (D A : BitVec 5) (k : BitVec 12) (s : State) :
    exec (.tacq c t D A k) s = execTacq c t D A k s := rfl
@[simp] theorem exec_rel (c t : Nat) (A : BitVec 5) (k : BitVec 12) (s : State) :
    exec (.rel c t A k) s = execRel c t A k s := rfl
@[simp] theorem exec_wait (c t : Nat) (A : BitVec 5) (k : BitVec 12) (s : State) :
    exec (.wait c t A k) s = execWait c t A k s := rfl
@[simp] theorem exec_sig (c t : Nat) (A : BitVec 5) (k : BitVec 12) (s : State) :
    exec (.sig c t A k) s = execSig c t A k s := rfl
@[simp] theorem exec_tmrs (c t : Nat) (D A : BitVec 5) (k : BitVec 12) (s : State) :
    exec (.tmrs c t D A k) s = execTmrs c t D A k s := rfl
@[simp] theorem exec_tmrc (c t : Nat) (D A : BitVec 5) (k : BitVec 12) (s : State) :
    exec (.tmrc c t D A k) s = execTmrc c t D A k s := rfl
@[simp] theorem exec_chw (c t : Nat) (D A : BitVec 5) (k : BitVec 8) (s : State) :
    exec (.chw c t D A k) s = execChw c t D A k s := rfl
@[simp] theorem exec_chc (c t : Nat) (A : BitVec 5) (k : BitVec 8) (s : State) :
    exec (.chc c t A k) s = execChc c t A k s := rfl
@[simp] theorem exec_chr (c t : Nat) (D A : BitVec 5) (w : BitVec 4) (k : BitVec 8) (s : State) :
    exec (.chr c t D A w k) s = execChr c t D A w k s := rfl
@[simp] theorem exec_chrl (c t : Nat) (D A : BitVec 5) (w : BitVec 4) (k : BitVec 8) (s : State) :
    exec (.chrl c t D A w k) s = execChrl c t D A w k s := rfl
@[simp] theorem exec_trd (c t : Nat) (D : BitVec 5) (st : BitVec 3) (s : State) :
    exec (.trd c t D st) s = execTrd c t D st s := rfl
@[simp] theorem exec_wnext (c t : Nat) (D A : BitVec 5) (k : BitVec 12) (s : State) :
    exec (.wnext c t D A k) s = execWnext c t D A k s := rfl
@[simp] theorem exec_wdone (c t : Nat) (A : BitVec 5) (verdict : BitVec 2) (record : Bool) (s : State) :
    exec (.wdone c t A verdict record) s = execWdone c t A verdict record s := rfl
@[simp] theorem exec_recd (c t : Nat) (A : BitVec 5) (k : BitVec 12) (s : State) :
    exec (.recd c t A k) s = execRecd c t A k s := rfl
@[simp] theorem exec_mfs (c t : Nat) (D : BitVec 5) (idx : BitVec 5) (s : State) :
    exec (.mfs c t D idx) s = execMfs c t D idx s := rfl
@[simp] theorem exec_trap (c t : Nat) (code : BitVec 16) (s : State) :
    exec (.trap c t code) s = execTrap c t code s := rfl
@[simp] theorem exec_brk (c t : Nat) (bits : BitVec 26) (s : State) :
    exec (.brk c t bits) s = execBrk c t bits s := rfl
@[simp] theorem exec_coldBoot (src : Nat) (aonOk romOk fuseOk flashOk : Bool) (tagBad : List Nat) (recovery : Bytes) (calBad : List Nat) (s : State) :
    exec (.coldBoot src aonOk romOk fuseOk flashOk tagBad recovery calBad) s = execColdBoot src aonOk romOk fuseOk flashOk tagBad recovery calBad s := rfl
@[simp] theorem exec_pgRise (flashOk : Bool) (tagBad : List Nat) (recovery : Bytes) (s : State) :
    exec (.pgRise flashOk tagBad recovery) s = execPgRise flashOk tagBad recovery s := rfl
@[simp] theorem exec_pgFall (cause : Nat) (s : State) :
    exec (.pgFall cause) s = execPgFall cause s := rfl
@[simp] theorem exec_bridgeBringup (tr : List ChTrain) (s : State) :
    exec (.bridgeBringup tr) s = execBridgeBringup tr s := rfl
@[simp] theorem exec_recoveryCarrier (bytes : Bytes) (s : State) :
    exec (.recoveryCarrier bytes) s = execRecoveryCarrier bytes s := rfl
@[simp] theorem exec_recoveryTimeout (s : State) :
    exec (.recoveryTimeout) s = execRecoveryTimeout s := rfl
@[simp] theorem exec_fwDownload (c : Cmd) (s : State) :
    exec (.fwDownload c) s = execFwDownload c s := rfl
@[simp] theorem exec_fwBind (c : Cmd) (copyBad : Bool) (s : State) :
    exec (.fwBind c copyBad) s = execFwBind c copyBad s := rfl
@[simp] theorem exec_fwActivate (c : Cmd) (fail : Option Nat) (s : State) :
    exec (.fwActivate c fail) s = execFwActivate c fail s := rfl
@[simp] theorem exec_fwConfirm (c : Cmd) (s : State) :
    exec (.fwConfirm c) s = execFwConfirm c s := rfl
@[simp] theorem exec_fwSvnCommit (c : Cmd) (s : State) :
    exec (.fwSvnCommit c) s = execFwSvnCommit c s := rfl
@[simp] theorem exec_footEpochAdvance (c : Cmd) (bad : List Nat) (s : State) :
    exec (.footEpochAdvance c bad) s = execFootEpochAdvance c bad s := rfl
@[simp] theorem exec_footKeyRevoke (c : Cmd) (s : State) :
    exec (.footKeyRevoke c) s = execFootKeyRevoke c s := rfl
@[simp] theorem exec_footLifecycle (c : Cmd) (s : State) :
    exec (.footLifecycle c) s = execFootLifecycle c s := rfl
@[simp] theorem exec_footDebugToken (c : Cmd) (s : State) :
    exec (.footDebugToken c) s = execFootDebugToken c s := rfl
@[simp] theorem exec_fwDriverAbi (c : Cmd) (s : State) :
    exec (.fwDriverAbi c) s = execFwDriverAbi c s := rfl
@[simp] theorem exec_domainSet (c : Cmd) (s : State) :
    exec (.domainSet c) s = execDomainSet c s := rfl
@[simp] theorem exec_domainState (pass imageOk : Bool) (s : State) :
    exec (.domainState pass imageOk) s = execDomainState pass imageOk s := rfl
@[simp] theorem exec_unitReset (c : Cmd) (s : State) :
    exec (.unitReset c) s = execUnitReset c s := rfl
@[simp] theorem exec_unitResetDone (n : Nat) (pass : Bool) (s : State) :
    exec (.unitResetDone n pass) s = execUnitResetDone n pass s := rfl
@[simp] theorem exec_pipeRemap (c : Cmd) (s : State) :
    exec (.pipeRemap c) s = execPipeRemap c s := rfl
@[simp] theorem exec_pipeRemapped (island : Nat) (s : State) :
    exec (.pipeRemapped island) s = execPipeRemapped island s := rfl
@[simp] theorem exec_deviceReset (c : Cmd) (s : State) :
    exec (.deviceReset c) s = execDeviceReset c s := rfl
@[simp] theorem exec_warmReset (tagBad : List Nat) (recovery : Bytes) (s : State) :
    exec (.warmReset tagBad recovery) s = execWarmReset tagBad recovery s := rfl
@[simp] theorem exec_errlogRead (c : Cmd) (s : State) :
    exec (.errlogRead c) s = execErrlogRead c s := rfl
@[simp] theorem exec_sramCe (n addr : Nat) (s : State) :
    exec (.sramCe n addr) s = execSramCe n addr s := rfl
@[simp] theorem exec_sramUe (n addr : Nat) (s : State) :
    exec (.sramUe n addr) s = execSramUe n addr s := rfl
@[simp] theorem exec_xingFault (n : Nat) (s : State) :
    exec (.xingFault n) s = execXingFault n s := rfl
@[simp] theorem exec_wardenTimeout (n : Nat) (s : State) :
    exec (.wardenTimeout n) s = execWardenTimeout n s := rfl
@[simp] theorem exec_tempSensorRead (temps : List (Nat × Int)) (s : State) :
    exec (.tempSensorRead temps) s = execTempSensorRead temps s := rfl
@[simp] theorem exec_thermtrip (s : State) :
    exec (.thermtrip) s = execThermtrip s := rfl
@[simp] theorem exec_aonPower (s : State) :
    exec (.aonPower) s = execAonPower s := rfl
@[simp] theorem exec_ringFault (s : State) :
    exec (.ringFault) s = execRingFault s := rfl
@[simp] theorem exec_bridgeWdt (s : State) :
    exec (.bridgeWdt) s = execBridgeWdt s := rfl
@[simp] theorem exec_keyvault (s : State) :
    exec (.keyvault) s = execKeyvault s := rfl
@[simp] theorem exec_timeIsland (s : State) :
    exec (.timeIsland) s = execTimeIsland s := rfl
@[simp] theorem exec_brgErrAck (v : Word) (s : State) :
    exec (.brgErrAck v) s = execBrgErrAck v s := rfl
@[simp] theorem exec_resetN (ns : Nat) (s : State) :
    exec (.resetN ns) s = execResetN ns s := rfl
@[simp] theorem exec_powerOnReset (s : State) :
    exec (.powerOnReset) s = execPowerOnReset s := rfl
@[simp] theorem exec_readStatus (s : State) :
    exec (.readStatus) s = execReadStatus s := rfl
@[simp] theorem exec_readLog (slot count : Nat) (s : State) :
    exec (.readLog slot count) s = execReadLog slot count s := rfl
@[simp] theorem exec_ackLog (seq : Nat) (s : State) :
    exec (.ackLog seq) s = execAckLog seq s := rfl
@[simp] theorem exec_mctpDomainSet (island st : Nat) (s : State) :
    exec (.mctpDomainSet island st) s = execMctpDomainSet island st s := rfl
@[simp] theorem exec_mctpDeviceReset (confirm : Nat) (s : State) :
    exec (.mctpDeviceReset confirm) s = execMctpDeviceReset confirm s := rfl
@[simp] theorem exec_setEndpointId (ep op eid : Nat) (s : State) :
    exec (.setEndpointId ep op eid) s = execSetEndpointId ep op eid s := rfl
@[simp] theorem exec_getEndpointId (ep : Nat) (s : State) :
    exec (.getEndpointId ep) s = execGetEndpointId ep s := rfl
@[simp] theorem exec_getMctpVersionSupport (type : Nat) (s : State) :
    exec (.getMctpVersionSupport type) s = execGetMctpVersionSupport type s := rfl
@[simp] theorem exec_getMessageTypeSupport (s : State) :
    exec (.getMessageTypeSupport) s = execGetMessageTypeSupport s := rfl
@[simp] theorem exec_getVendorDefinedMessageSupport (selector : Nat) (s : State) :
    exec (.getVendorDefinedMessageSupport selector) s = execGetVendorDefinedMessageSupport selector s := rfl
@[simp] theorem exec_getTid (s : State) :
    exec (.getTid) s = execGetTid s := rfl
@[simp] theorem exec_getPldmVersion (type : Nat) (s : State) :
    exec (.getPldmVersion type) s = execGetPldmVersion type s := rfl
@[simp] theorem exec_getPldmTypes (s : State) :
    exec (.getPldmTypes) s = execGetPldmTypes s := rfl
@[simp] theorem exec_getPldmCommands (type : Nat) (s : State) :
    exec (.getPldmCommands type) s = execGetPldmCommands type s := rfl
@[simp] theorem exec_getPdr (handle : Nat) (s : State) :
    exec (.getPdr handle) s = execGetPdr handle s := rfl
@[simp] theorem exec_getSensorReading (sensor : Nat) (s : State) :
    exec (.getSensorReading sensor) s = execGetSensorReading sensor s := rfl
@[simp] theorem exec_getStateSensorReadings (sensor : Nat) (s : State) :
    exec (.getStateSensorReadings sensor) s = execGetStateSensorReadings sensor s := rfl
@[simp] theorem exec_getPdrRepositoryInfo (s : State) :
    exec (.getPdrRepositoryInfo) s = execGetPdrRepositoryInfo s := rfl
@[simp] theorem exec_queryDeviceIdentifiers (s : State) :
    exec (.queryDeviceIdentifiers) s = execQueryDeviceIdentifiers s := rfl
@[simp] theorem exec_getFirmwareParameters (s : State) :
    exec (.getFirmwareParameters) s = execGetFirmwareParameters s := rfl
@[simp] theorem exec_requestUpdate (maxXfer comps pkgData : Nat) (s : State) :
    exec (.requestUpdate maxXfer comps pkgData) s = execRequestUpdate maxXfer comps pkgData s := rfl
@[simp] theorem exec_passComponentTable (s : State) :
    exec (.passComponentTable) s = execPassComponentTable s := rfl
@[simp] theorem exec_updateComponent (size : Nat) (s : State) :
    exec (.updateComponent size) s = execUpdateComponent size s := rfl
@[simp] theorem exec_requestFirmwareData (ask : Nat) (data : Bytes) (s : State) :
    exec (.requestFirmwareData ask data) s = execRequestFirmwareData ask data s := rfl
@[simp] theorem exec_transferComplete (s : State) :
    exec (.transferComplete) s = execTransferComplete s := rfl
@[simp] theorem exec_verifyComplete (s : State) :
    exec (.verifyComplete) s = execVerifyComplete s := rfl
@[simp] theorem exec_applyComplete (s : State) :
    exec (.applyComplete) s = execApplyComplete s := rfl
@[simp] theorem exec_activateFirmware (selfContained copyBad : Bool) (fail : Option Nat) (s : State) :
    exec (.activateFirmware selfContained copyBad fail) s = execActivateFirmware selfContained copyBad fail s := rfl
@[simp] theorem exec_getStatus (s : State) :
    exec (.getStatus) s = execGetStatus s := rfl
@[simp] theorem exec_cancelUpdate (s : State) :
    exec (.cancelUpdate) s = execCancelUpdate s := rfl
@[simp] theorem exec_eecStateChange (state : Nat) (freq : Int) (s : State) :
    exec (.eecStateChange state freq) s = execEecStateChange state freq s := rfl
@[simp] theorem exec_aspmL1Entry (h : Nat) (enter : Bool) (sub : Nat) (s : State) :
    exec (.aspmL1Entry h enter sub) s = execAspmL1Entry h enter sub s := rfl
@[simp] theorem exec_msiXEnable (fn : Nat) (msix intxDisable : Bool) (s : State) :
    exec (.msiXEnable fn msix intxDisable) s = execMsiXEnable fn msix intxDisable s := rfl
@[simp] theorem exec_fnIntxPendClear (fn : Nat) (v : Word) (s : State) :
    exec (.fnIntxPendClear fn v) s = execFnIntxPendClear fn v s := rfl
@[simp] theorem exec_frzHoldWrite (h : Nat) (v : Word) (s : State) :
    exec (.frzHoldWrite h v) s = execFrzHoldWrite h v s := rfl
@[simp] theorem exec_illegal (c t : Nat) (s : State) :
    exec (.illegal c t) s = execIllegal c t s := rfl

end Sys2Proof.Machine
end

