-- ==== Sys2Proof/Laws/Tbl.lean ====
section
/-! SUPPORT. Laws of sparse tables and byte memory: a read after a write, writes elsewhere, the canonical form. -/

namespace Sys2Proof

theorem Tbl.get_insert_self {α : Type} (d : Nat → α) (t : Tbl α) (k : Nat) (v : α) :
    Tbl.get d (Tbl.insert t k v) k = v := by
  induction t with
  | nil => simp [Tbl.insert, Tbl.get]
  | cons e t ih =>
    obtain ⟨k', v'⟩ := e
    simp only [Tbl.insert]
    split
    · simp [Tbl.get]
    · split
      · simp [Tbl.get]
      · rename_i h _
        simp [Tbl.get, h, ih]

theorem Tbl.get_insert_ne {α : Type} (d : Nat → α) (t : Tbl α) (k j : Nat) (v : α) (h : j ≠ k) :
    Tbl.get d (Tbl.insert t k v) j = Tbl.get d t j := by
  induction t with
  | nil => simp [Tbl.insert, Tbl.get, h]
  | cons e t ih =>
    obtain ⟨k', v'⟩ := e
    simp only [Tbl.insert]
    split
    · subst_vars; simp [Tbl.get, h]
    · split
      · simp [Tbl.get, h]
      · simp [Tbl.get, ih]

theorem Tbl.get_erase_self {α : Type} (d : Nat → α) (t : Tbl α) (k : Nat) :
    Tbl.get d (Tbl.erase t k) k = d k := by
  induction t with
  | nil => rfl
  | cons e t ih =>
    obtain ⟨k', v'⟩ := e
    by_cases h : k' = k
    · subst h; simpa [Tbl.erase, List.filter] using ih
    · have hk : k ≠ k' := fun x => h x.symm
      simpa [Tbl.erase, List.filter, h, Tbl.get, hk] using ih

theorem Tbl.get_erase_ne {α : Type} (d : Nat → α) (t : Tbl α) (k j : Nat) (hj : j ≠ k) :
    Tbl.get d (Tbl.erase t k) j = Tbl.get d t j := by
  induction t with
  | nil => rfl
  | cons e t ih =>
    obtain ⟨k', v'⟩ := e
    by_cases h : k' = k
    · subst h; simpa [Tbl.erase, List.filter, Tbl.get, hj] using ih
    · have : Tbl.erase ((k', v') :: t) k = (k', v') :: Tbl.erase t k := by simp [Tbl.erase, List.filter, h]
      rw [this]
      simp [Tbl.get, ih]

/-- A read after a write of the same key gives the value written. -/
@[simp] theorem Tbl.get_set_self {α : Type} [DecidableEq α] (d : Nat → α) (t : Tbl α) (k : Nat) (v : α) :
    Tbl.get d (Tbl.set d t k v) k = v := by
  unfold Tbl.set
  split
  · rename_i h; rw [Tbl.get_erase_self, h]
  · exact Tbl.get_insert_self d t k v

/-- A write leaves every other key alone. -/
theorem Tbl.get_set_ne {α : Type} [DecidableEq α] (d : Nat → α) (t : Tbl α) (k j : Nat) (v : α) (h : j ≠ k) :
    Tbl.get d (Tbl.set d t k v) j = Tbl.get d t j := by
  unfold Tbl.set
  split
  · exact Tbl.get_erase_ne d t k j h
  · exact Tbl.get_insert_ne d t k j v h

theorem Tbl.get_set {α : Type} [DecidableEq α] (d : Nat → α) (t : Tbl α) (k j : Nat) (v : α) :
    Tbl.get d (Tbl.set d t k v) j = if j = k then v else Tbl.get d t j := by
  by_cases h : j = k
  · subst h; simp
  · simp [h, Tbl.get_set_ne d t k j v h]

@[simp] theorem Tbl.get_upd_self {α : Type} [DecidableEq α] (d : Nat → α) (t : Tbl α) (k : Nat) (f : α → α) :
    Tbl.get d (Tbl.upd d t k f) k = f (Tbl.get d t k) := by
  simp [Tbl.upd]

theorem Tbl.get_upd_ne {α : Type} [DecidableEq α] (d : Nat → α) (t : Tbl α) (k j : Nat) (f : α → α) (h : j ≠ k) :
    Tbl.get d (Tbl.upd d t k f) j = Tbl.get d t j := by
  simp [Tbl.upd, Tbl.get_set_ne d t k j _ h]

/-! ### The canonical form -/

/-- The canonical form as a chain: keys strictly rising and no entry at its reset value. -/
theorem Tbl.wf_iff {α : Type} [DecidableEq α] (d : Nat → α) (t : Tbl α) :
    Tbl.wf d t = true ↔ List.Pairwise (fun a b : Nat × α => a.1 < b.1) t ∧ ∀ e ∈ t, e.2 ≠ d e.1 := by
  induction t with
  | nil => simp [Tbl.wf]
  | cons e t ih =>
    obtain ⟨k, v⟩ := e
    cases t with
    | nil => simp [Tbl.wf]
    | cons e' t' =>
      obtain ⟨k', v'⟩ := e'
      simp only [Tbl.wf, Bool.and_eq_true, decide_eq_true_eq, ih]
      constructor
      · rintro ⟨⟨h1, h2⟩, hp, hv⟩
        refine ⟨List.pairwise_cons.mpr ⟨?_, hp⟩, ?_⟩
        · intro a ha
          rcases List.mem_cons.mp ha with rfl | ha
          · exact h2
          · exact lt_trans h2 ((List.pairwise_cons.mp hp).1 a ha)
        · intro a ha
          rcases List.mem_cons.mp ha with rfl | ha
          · exact h1
          · exact hv a ha
      · rintro ⟨hp, hv⟩
        have hc := List.pairwise_cons.mp hp
        exact ⟨⟨hv (k, v) (by simp), hc.1 (k', v') (by simp)⟩, hc.2, fun a ha => hv a (List.mem_cons_of_mem _ ha)⟩

theorem Tbl.mem_insert {α : Type} (t : Tbl α) (k : Nat) (v : α) (e : Nat × α) (h : e ∈ Tbl.insert t k v) :
    e = (k, v) ∨ e ∈ t := by
  induction t with
  | nil => simpa [Tbl.insert] using h
  | cons x t ih =>
    obtain ⟨k', v'⟩ := x
    simp only [Tbl.insert] at h
    split at h
    · rcases List.mem_cons.mp h with h | h
      · exact .inl h
      · exact .inr (List.mem_cons_of_mem _ h)
    · split at h
      · rcases List.mem_cons.mp h with h | h
        · exact .inl h
        · exact .inr h
      · rcases List.mem_cons.mp h with h | h
        · exact .inr (h ▸ List.mem_cons_self)
        · rcases ih h with h | h
          · exact .inl h
          · exact .inr (List.mem_cons_of_mem _ h)

theorem Tbl.pairwise_insert {α : Type} (t : Tbl α) (k : Nat) (v : α)
    (h : List.Pairwise (fun a b : Nat × α => a.1 < b.1) t) :
    List.Pairwise (fun a b : Nat × α => a.1 < b.1) (Tbl.insert t k v) := by
  induction t with
  | nil => simp [Tbl.insert]
  | cons x t ih =>
    obtain ⟨k', v'⟩ := x
    have hc := List.pairwise_cons.mp h
    simp only [Tbl.insert]
    split
    · subst_vars; exact List.pairwise_cons.mpr ⟨hc.1, hc.2⟩
    · split
      · rename_i hlt
        refine List.pairwise_cons.mpr ⟨?_, h⟩
        intro a ha
        rcases List.mem_cons.mp ha with rfl | ha
        · exact hlt
        · exact lt_trans hlt (hc.1 a ha)
      · rename_i hne hnl
        refine List.pairwise_cons.mpr ⟨?_, ih hc.2⟩
        intro a ha
        rcases Tbl.mem_insert t k v a ha with rfl | ha
        · simp only; omega
        · exact hc.1 a ha

/-- A write keeps the canonical form. -/
theorem Tbl.wf_set {α : Type} [DecidableEq α] (d : Nat → α) (t : Tbl α) (k : Nat) (v : α) (h : Tbl.wf d t = true) :
    Tbl.wf d (Tbl.set d t k v) = true := by
  obtain ⟨hp, hv⟩ := (Tbl.wf_iff d t).mp h
  rw [Tbl.wf_iff]
  unfold Tbl.set
  split
  · exact ⟨hp.filter _, fun e he => hv e (List.mem_of_mem_filter he)⟩
  · rename_i hne
    refine ⟨Tbl.pairwise_insert t k v hp, fun e he => ?_⟩
    rcases Tbl.mem_insert t k v e he with rfl | he
    · exact hne
    · exact hv e he

/-! ### Byte memory -/

@[simp] theorem Memory.read_write_self (m : Memory) (a : Nat) (b : BitVec 8) : (Memory.write m a b).read a = b :=
  Tbl.get_set_self _ m a b

theorem Memory.read_write_ne (m : Memory) (a x : Nat) (b : BitVec 8) (h : x ≠ a) :
    (Memory.write m a b).read x = Memory.read m x :=
  Tbl.get_set_ne _ m a x b h

/-- Writing consecutive bytes leaves every byte outside them alone. -/
theorem Memory.read_writeBytes_outside (m : Memory) (a x : Nat) (bs : Bytes) (h : x < a ∨ a + bs.length ≤ x) :
    (Memory.writeBytes m a bs).read x = Memory.read m x := by
  induction bs generalizing m a with
  | nil => rfl
  | cons b bs ih =>
    simp only [List.length_cons] at h
    rw [Memory.writeBytes, ih _ _ (by omega), Memory.read_write_ne _ _ _ _ (by omega)]

/-- A byte inside the ones written reads as what was written there. -/
theorem Memory.read_writeBytes_inside (m : Memory) (a : Nat) (bs : Bytes) (i : Nat) (h : i < bs.length) :
    (Memory.writeBytes m a bs).read (a + i) = bs.getD i 0 := by
  induction bs generalizing m a i with
  | nil => simp at h
  | cons b bs ih =>
    cases i with
    | zero => rw [Memory.writeBytes, Memory.read_writeBytes_outside _ _ _ _ (by omega)]; simp
    | succ i =>
      have := ih (Memory.write m a b) (a + 1) i (by simpa using h)
      rw [Memory.writeBytes, show a + (i + 1) = a + 1 + i by omega, this]; simp

theorem Memory.wf_write (m : Memory) (a : Nat) (b : BitVec 8) (h : m.wf = true) : (Memory.write m a b).wf = true :=
  Tbl.wf_set _ m a b h

theorem Memory.wf_writeBytes (m : Memory) (a : Nat) (bs : Bytes) (h : m.wf = true) :
    (Memory.writeBytes m a bs).wf = true := by
  induction bs generalizing m a with
  | nil => exact h
  | cons b bs ih => exact ih _ _ (Memory.wf_write m a b h)

end Sys2Proof
end

