-- ==== Sys2Proof/Laws/Ops.lean ====
section
/-! SUPPORT. Laws of the shared operations: what each can do, said once. -/

namespace Sys2Proof.Machine

theorem wf_applyWrites (m : Memory) (wr : List (Nat × Bytes)) (h : Memory.wf m = true) :
    Memory.wf (applyWrites m wr) = true := by
  induction wr with
  | nil => exact h
  | cons w wr ih => exact Memory.wf_writeBytes _ _ _ ih

/-- Whatever a lifted command does, it answers a next state that keeps the queue and the invariant. -/
theorem landed_inv (s : State) (d : Dev) (h : Memory.wf s.dev.mem = true) : Inv (landed s d) :=
  ⟨wf_applyWrites _ _ h, rfl⟩

@[simp] theorem landed_pending (s : State) (d : Dev) : (landed s d).pending = s.pending := rfl

theorem lift_next (f : Dev → Dev) (s : State) : lift f s = .next (landed s (f s.dev)) := rfl

/-- Outside the writes it logged, a command leaves memory as it was. -/
theorem read_applyWrites_outside (m : Memory) (wr : List (Nat × Bytes)) (x : Nat)
    (h : ∀ w ∈ wr, x < w.1 ∨ w.1 + w.2.length ≤ x) : Memory.read (applyWrites m wr) x = Memory.read m x := by
  induction wr with
  | nil => rfl
  | cons w wr ih =>
    have : applyWrites m (w :: wr) = Memory.writeBytes (applyWrites m wr) w.1 w.2 := rfl
    rw [this, Memory.read_writeBytes_outside _ _ _ _ (h w (by simp)), ih fun v hv => h v (by simp [hv])]

/-- A byte as a running command sees it is the byte memory will hold when its writes have landed. -/
theorem readLogged_eq (m : Memory) (wr : List (Nat × Bytes)) (x : Nat) :
    readLogged m wr x = Memory.read (applyWrites m wr) x := by
  induction wr with
  | nil => rfl
  | cons w wr ih =>
    obtain ⟨a, bs⟩ := w
    have : applyWrites m ((a, bs) :: wr) = Memory.writeBytes (applyWrites m wr) a bs := rfl
    rw [this, readLogged]
    split
    · rename_i h
      obtain ⟨i, rfl⟩ := Nat.exists_eq_add_of_le h.1
      rw [Memory.read_writeBytes_inside _ _ _ _ (by omega)]
      congr 1; omega
    · rename_i h
      rw [Memory.read_writeBytes_outside _ _ _ _ (by omega), ih]

/-- With nothing logged, a device that has landed is the device itself. -/
theorem landed_clean (s : State) (d : Dev) (hm : d.mem = s.dev.mem) (hw : d.wr = []) : (landed s d).dev = d := by
  unfold landed
  rw [hw]
  cases d
  simp_all [applyWrites]

/-! ### Registers -/

@[simp] theorem regR_regW_self (k : Nat) (v : Word) (d : Dev) : regR (regW k v d) k = v := Tbl.get_set_self _ _ _ _

theorem regR_regW_ne (k j : Nat) (v : Word) (d : Dev) (h : j ≠ k) : regR (regW k v d) j = regR d j :=
  Tbl.get_set_ne _ _ _ _ _ h

@[simp] theorem ctrR_ctrAdd_self (k n : Nat) (d : Dev) : ctrR (ctrAdd k n d) k = (ctrR d k + n) % 2 ^ 64 :=
  Tbl.get_set_self _ _ _ _

theorem ctrR_ctrAdd_ne (k j n : Nat) (d : Dev) (h : j ≠ k) : ctrR (ctrAdd k n d) j = ctrR d j :=
  Tbl.get_set_ne _ _ _ _ _ h

@[simp] theorem fn_fnU_self (f : Nat) (g : Fn → Fn) (d : Dev) : fn (fnU f g d) f = g (fn d f) := Tbl.get_upd_self _ _ _ _

theorem fn_fnU_ne (f j : Nat) (g : Fn → Fn) (d : Dev) (h : j ≠ f) : fn (fnU f g d) j = fn d j :=
  Tbl.get_upd_ne _ _ _ _ _ h

@[simp] theorem dom_domU_self (n : Nat) (g : Dom → Dom) (d : Dev) : dom (domU n g d) n = g (dom d n) :=
  Tbl.get_upd_self _ _ _ _

theorem dom_domU_ne (n j : Nat) (g : Dom → Dom) (d : Dev) (h : j ≠ n) : dom (domU n g d) j = dom d j :=
  Tbl.get_upd_ne _ _ _ _ _ h

end Sys2Proof.Machine
end

