-- ==== Sys2Proof/Laws/Givik.lean ====
section
/-! SUPPORT. Laws of Givik threads and registers. -/

namespace Sys2Proof.Machine

@[simp] theorem clu_cluU_self (c : Nat) (f : GClu → GClu) (d : Dev) : clu (cluU c f d) c = f (clu d c) :=
  Tbl.get_upd_self _ _ _ _

theorem clu_cluU_ne (c j : Nat) (f : GClu → GClu) (d : Dev) (h : j ≠ c) : clu (cluU c f d) j = clu d j :=
  Tbl.get_upd_ne _ _ _ _ _ h

@[simp] theorem thr_thrU_self (c t : Nat) (f : GThr → GThr) (d : Dev) : thr (thrU c t f d) c t = f (thr d c t) := by
  simp [thr, thrU]

theorem thr_thrU_ne (c t u : Nat) (f : GThr → GThr) (d : Dev) (h : u ≠ t) : thr (thrU c t f d) c u = thr d c u := by
  simp [thr, thrU, Tbl.get_upd_ne _ _ _ _ _ h]

theorem clu_thrU_ne (c j t : Nat) (f : GThr → GThr) (d : Dev) (h : j ≠ c) : clu (thrU c t f d) j = clu d j :=
  clu_cluU_ne _ _ _ _ h

/-- A change of one thread touches nothing else. -/
theorem thrU_only (c t : Nat) (f : GThr → GThr) (d : Dev) : OnlyThread d (thrU c t f d) c t := by
  refine ⟨rfl, fun c' h => clu_thrU_ne _ _ _ _ _ h, fun t' h => thr_thrU_ne _ _ _ _ _ h, ?_⟩
  simp [thrU]

theorem OnlyThread.trans {d e f : Dev} {c t : Nat} (h : OnlyThread d e c t) (k : OnlyThread e f c t) : OnlyThread d f c t := by
  obtain ⟨h1, h2, h3, h4⟩ := h
  obtain ⟨k1, k2, k3, k4⟩ := k
  refine ⟨?_, fun c' hc => (k2 c' hc).trans (h2 c' hc), fun t' ht => (k3 t' ht).trans (h3 t' ht), ?_⟩
  · rw [k1, h1]
  · rw [k4, h4]

/-- A device in which only one thread has changed lands as it is. -/
theorem OnlyThread.landed {s : State} {d : Dev} {c t : Nat} (h : OnlyThread s.dev d c t) (hw : s.dev.wr = []) :
    (landed s d).dev = d := by
  obtain ⟨h, -⟩ := h
  exact landed_clean s d (by rw [h]) (by rw [h]; exact hw)

/-- A register read after a register write: the value, unless the register is g0. -/
theorem gset_get (r q : BitVec 5) (v : BitVec 64) (x : GThr) :
    (if q = 0 then 0 else Tbl.get (fun _ => 0) (gset r v x).regs q.toNat) =
      if q = r ∧ r ≠ 0 then v else if q = 0 then 0 else Tbl.get (fun _ => 0) x.regs q.toNat := by
  unfold gset
  by_cases hr : r = 0
  · subst hr; simp
  · rw [if_neg hr]
    by_cases hq : q = r
    · subst hq; rw [if_neg hr, if_pos ⟨rfl, hr⟩, Tbl.get_set_self]
    · have : q.toNat ≠ r.toNat := fun h => hq (BitVec.eq_of_toNat_eq h)
      rw [if_neg (c := q = r ∧ r ≠ 0) (fun h => hq h.1), Tbl.get_set_ne _ _ _ _ _ this]

theorem gset_thr (r : BitVec 5) (v : BitVec 64) (x : GThr) : gset r v x = { x with regs := (gset r v x).regs } := by
  unfold gset; split <;> rfl

/-- What an instruction that issues runs: its effect on the device with the step consumed. -/
theorem issue_runs {s : State} {c t w : Nat} (f : Dev → Dev) (h : Issues s.dev c t w) :
    issue c t w f s = .next (landed s (f (thrU c t (fun x => { x with step := false }) s.dev))) := by
  obtain ⟨h1, h2, h3, h4⟩ := h
  have hb : (!(bpMatch s.dev c t) || (thr s.dev c t).step) = true := by
    rcases h2 with h | h <;> simp [h]
  simp [issue, lift, h1, hb, h3, h4]

/-- A sequential instruction with a next one behind it runs its effect. -/
theorem issueSeq_runs {s : State} {c t w : Nat} (f : Dev → Dev) (h : IssuesSeq s.dev c t w) :
    issueSeq c t w f s = .next (landed s (f (thrU c t (fun x => { x with step := false }) s.dev))) := by
  rw [issueSeq, issue_runs _ h.1]
  simp [Nat.not_le.mpr h.2]

@[simp] theorem greg_step (c t : Nat) (r : BitVec 5) (b : Bool) (d : Dev) :
    greg (thrU c t (fun x => { x with step := b }) d) c t r = greg d c t r := by
  simp [greg]

/-- The thread moves on with a register written: nothing else changes. -/
theorem thrU_gset_regAt (c t : Nat) (D : BitVec 5) (v : BitVec 64) (pc : Nat) (d : Dev) :
    RegAt d (thrU c t (fun x => { gset D v x with pc := pc }) (thrU c t (fun x => { x with step := false }) d)) c t D v pc := by
  refine ⟨(thrU_only _ _ _ _).trans (thrU_only _ _ _ _), fun r => ?_, ?_⟩
  · simp only [greg, thr_thrU_self]
    exact gset_get D r _ _
  · simp only [thr_thrU_self]
    rw [gset_thr]

/-- A device in which one thread has gone on lands as it is. -/
theorem RegAt.landed {s : State} {d : Dev} {c t pc : Nat} {D : BitVec 5} {v : BitVec 64} (h : RegAt s.dev d c t D v pc)
    (hw : s.dev.wr = []) : RegAt s.dev (landed s d).dev c t D v pc := by
  rw [h.1.landed hw]; exact h

theorem retire_eq (c t : Nat) (g : GThr → GThr) (d : Dev) :
    retire c t g (thrU c t (fun x => { x with step := false }) d) =
      thrU c t (fun x => { g x with pc := (thr d c t).pc + 4 }) (thrU c t (fun x => { x with step := false }) d) := by
  have h : ∀ (e : Dev) (f k : GThr → GThr), f (thr e c t) = k (thr e c t) → thrU c t f e = thrU c t k e := by
    intro e f k hfk
    unfold thrU cluU Tbl.upd
    simp only
    have : f (Tbl.get (fun _ => {}) (Tbl.get (fun _ => ({} : GClu)) e.clusters c).thrs t) =
        k (Tbl.get (fun _ => {}) (Tbl.get (fun _ => ({} : GClu)) e.clusters c).thrs t) := hfk
    rw [this]
  exact h _ _ _ (by simp)

/-- An instruction whose whole effect is a register's new value. -/
theorem alu_runs {s : State} {c t w : Nat} {D : BitVec 5} {v : (BitVec 5 → BitVec 64) → BitVec 64}
    (h : IssuesSeq s.dev c t w) (hw : s.dev.wr = []) :
    ∃ u, alu c t w D v s = .next u ∧ u.pending = s.pending ∧
      RegAt s.dev u.dev c t D (v (greg s.dev c t)) ((thr s.dev c t).pc + 4) := by
  refine ⟨_, issueSeq_runs _ h, rfl, ?_⟩
  have hg : greg (thrU c t (fun x => { x with step := false }) s.dev) c t = greg s.dev c t := by
    funext r; simp
  rw [hg, retire_eq]
  exact (thrU_gset_regAt c t D _ _ s.dev).landed hw

/-! ### Instructions on a numbered unit -/

theorem unitOp_lands {s : State} {c t w lim k n : Nat} {A : BitVec 5} (f : Nat → Dev → Dev) (h : IssuesSeq s.dev c t w)
   (hn : n = ((greg s.dev c t A).toNat + k) % 2 ^ 32) (hl : n < lim) :
   unitOp c t w lim A k f s = .next (landed s (f n (thrU c t (fun x => { x with step := false }) s.dev))) := by
  rw [unitOp, issueSeq_runs _ h]
  simp only [greg_step, ← hn, if_neg (not_le.mpr hl)]

@[simp] theorem glock_landed (s : State) (d : Dev) (c n) : glock (landed s d).dev c n = glock d c n := rfl
@[simp] theorem gevent_landed (s : State) (d : Dev) (c n) : gevent (landed s d).dev c n = gevent d c n := rfl
@[simp] theorem gtimer_landed (s : State) (d : Dev) (c n) : gtimer (landed s d).dev c n = gtimer d c n := rfl
@[simp] theorem gchan_landed (s : State) (d : Dev) (c n) : gchan (landed s d).dev c n = gchan d c n := rfl
@[simp] theorem thr_landed (s : State) (d : Dev) (c n) : thr (landed s d).dev c n = thr d c n := rfl
@[simp] theorem greg_landed (s : State) (d : Dev) (c n r) : greg (landed s d).dev c n r = greg d c n r := rfl
@[simp] theorem glock_thrU (c t f d c' n) : glock (thrU c t f d) c' n = glock d c' n := by
  by_cases h : c' = c
  · subst h; simp [glock, thrU]
  · simp [glock, clu_thrU_ne _ _ _ _ _ h]
@[simp] theorem gevent_thrU (c t f d c' n) : gevent (thrU c t f d) c' n = gevent d c' n := by
  by_cases h : c' = c
  · subst h; simp [gevent, thrU]
  · simp [gevent, clu_thrU_ne _ _ _ _ _ h]
@[simp] theorem gtimer_thrU (c t f d c' n) : gtimer (thrU c t f d) c' n = gtimer d c' n := by
  by_cases h : c' = c
  · subst h; simp [gtimer, thrU]
  · simp [gtimer, clu_thrU_ne _ _ _ _ _ h]
@[simp] theorem gchan_thrU (c t f d c' n) : gchan (thrU c t f d) c' n = gchan d c' n := by
  by_cases h : c' = c
  · subst h; simp [gchan, thrU]
  · simp [gchan, clu_thrU_ne _ _ _ _ _ h]
@[simp] theorem glock_self (c n f d) : glock (glockU c n f d) c n = f (glock d c n) := by simp [glock, glockU]
@[simp] theorem gevent_self (c n f d) : gevent (geventU c n f d) c n = f (gevent d c n) := by simp [gevent, geventU]
@[simp] theorem gchan_self (c n f d) : gchan (gchanU c n f d) c n = f (gchan d c n) := by simp [gchan, gchanU]
@[simp] theorem gtimer_self (c n v d) : gtimer (gtimerW c n v d) c n = v := by simp [gtimer, gtimerW]
@[simp] theorem thr_glockU (c n f d c' t) : thr (glockU c n f d) c' t = thr d c' t := by
  by_cases h : c' = c
  · subst h; simp [thr, glockU]
  · simp [thr, glockU, clu_cluU_ne _ _ _ _ h]
@[simp] theorem thr_geventU (c n f d c' t) : thr (geventU c n f d) c' t = thr d c' t := by
  by_cases h : c' = c
  · subst h; simp [thr, geventU]
  · simp [thr, geventU, clu_cluU_ne _ _ _ _ h]
@[simp] theorem thr_gchanU (c n f d c' t) : thr (gchanU c n f d) c' t = thr d c' t := by
  by_cases h : c' = c
  · subst h; simp [thr, gchanU]
  · simp [thr, gchanU, clu_cluU_ne _ _ _ _ h]
@[simp] theorem thr_gtimerW (c n f d c' t) : thr (gtimerW c n f d) c' t = thr d c' t := by
  by_cases h : c' = c
  · subst h; simp [thr, gtimerW]
  · simp [thr, gtimerW, clu_cluU_ne _ _ _ _ h]

theorem unitOp_runs {i : Instr} {s : State} {c t w lim k n : Nat} {A : BitVec 5} (f : Nat → Dev → Dev) {P : Dev → Prop} (he : exec i s = unitOp c t w lim A k f s) (h : IssuesSeq s.dev c t w)
   (hn : n = ((greg s.dev c t A).toNat + k) % 2 ^ 32) (hl : n < lim) 
   (hp : P (landed s (f n (thrU c t (fun x => { x with step := false }) s.dev))).dev) : Runs i s P := 
  ⟨_, he.trans (unitOp_lands f h hn hl), rfl, hp⟩

theorem gset_nz (D : BitVec 5) (v x) (h : D ≠ 0) : Tbl.get (fun _ => 0) (gset D v x).regs D.toNat = v := by
  unfold gset; rw [if_neg h]; simp
@[simp] theorem gset_pc (D : BitVec 5) (v x) : (gset D v x).pc = x.pc := by unfold gset; split <;> rfl
@[simp] theorem gset_broken (D : BitVec 5) (v x) : (gset D v x).broken = x.broken := by unfold gset; split <;> rfl

end Sys2Proof.Machine
end

