-- ==== Sys2Proof/Laws/State.lean ====
section
/-! SUPPORT. What each named update of the device leaves and what it changes: one lemma per field per update. -/

namespace Sys2Proof.Machine

@[simp] theorem emit_variant (o : Out) (d : Dev) : (emit o d).variant = d.variant := rfl
@[simp] theorem emit_regs (o : Out) (d : Dev) : (emit o d).regs = d.regs := rfl
@[simp] theorem emit_eff (o : Out) (d : Dev) : (emit o d).eff = d.eff := rfl
@[simp] theorem emit_cap (o : Out) (d : Dev) : (emit o d).cap = d.cap := rfl
@[simp] theorem emit_halfRx (o : Out) (d : Dev) : (emit o d).halfRx = d.halfRx := rfl
@[simp] theorem emit_halfTx (o : Out) (d : Dev) : (emit o d).halfTx = d.halfTx := rfl
@[simp] theorem emit_took (o : Out) (d : Dev) : (emit o d).took = d.took := rfl
@[simp] theorem emit_ctrs (o : Out) (d : Dev) : (emit o d).ctrs = d.ctrs := rfl
@[simp] theorem emit_latch (o : Out) (d : Dev) : (emit o d).latch = d.latch := rfl
@[simp] theorem emit_mem (o : Out) (d : Dev) : (emit o d).mem = d.mem := rfl
@[simp] theorem emit_wr (o : Out) (d : Dev) : (emit o d).wr = d.wr := rfl
@[simp] theorem emit_freeIdx (o : Out) (d : Dev) : (emit o d).freeIdx = d.freeIdx := rfl
@[simp] theorem emit_out (o : Out) (d : Dev) : (emit o d).out = o :: d.out := rfl
@[simp] theorem emit_fns (o : Out) (d : Dev) : (emit o d).fns = d.fns := rfl
@[simp] theorem emit_queues (o : Out) (d : Dev) : (emit o d).queues = d.queues := rfl
@[simp] theorem emit_pkts (o : Out) (d : Dev) : (emit o d).pkts = d.pkts := rfl
@[simp] theorem emit_pktSeq (o : Out) (d : Dev) : (emit o d).pktSeq = d.pktSeq := rfl
@[simp] theorem emit_hports (o : Out) (d : Dev) : (emit o d).hports = d.hports := rfl
@[simp] theorem emit_doms (o : Out) (d : Dev) : (emit o d).doms = d.doms := rfl
@[simp] theorem emit_fatal (o : Out) (d : Dev) : (emit o d).fatal = d.fatal := rfl
@[simp] theorem emit_strs (o : Out) (d : Dev) : (emit o d).strs = d.strs := rfl
@[simp] theorem emit_time (o : Out) (d : Dev) : (emit o d).time = d.time := rfl
@[simp] theorem emit_taps (o : Out) (d : Dev) : (emit o d).taps = d.taps := rfl
@[simp] theorem emit_stopped (o : Out) (d : Dev) : (emit o d).stopped = d.stopped := rfl
@[simp] theorem emit_released (o : Out) (d : Dev) : (emit o d).released = d.released := rfl
@[simp] theorem emit_errs (o : Out) (d : Dev) : (emit o d).errs = d.errs := rfl
@[simp] theorem emit_errSeq (o : Out) (d : Dev) : (emit o d).errSeq = d.errSeq := rfl
@[simp] theorem emit_errAck (o : Out) (d : Dev) : (emit o d).errAck = d.errAck := rfl
@[simp] theorem emit_xings (o : Out) (d : Dev) : (emit o d).xings = d.xings := rfl
@[simp] theorem emit_egqs (o : Out) (d : Dev) : (emit o d).egqs = d.egqs := rfl
@[simp] theorem emit_rates (o : Out) (d : Dev) : (emit o d).rates = d.rates := rfl
@[simp] theorem emit_ports (o : Out) (d : Dev) : (emit o d).ports = d.ports := rfl
@[simp] theorem emit_cal (o : Out) (d : Dev) : (emit o d).cal = d.cal := rfl
@[simp] theorem emit_calSect (o : Out) (d : Dev) : (emit o d).calSect = d.calSect := rfl
@[simp] theorem emit_calRuns (o : Out) (d : Dev) : (emit o d).calRuns = d.calRuns := rfl
@[simp] theorem emit_tables (o : Out) (d : Dev) : (emit o d).tables = d.tables := rfl
@[simp] theorem emit_sessions (o : Out) (d : Dev) : (emit o d).sessions = d.sessions := rfl
@[simp] theorem emit_policers (o : Out) (d : Dev) : (emit o d).policers = d.policers := rfl
@[simp] theorem emit_rss (o : Out) (d : Dev) : (emit o d).rss = d.rss := rfl
@[simp] theorem emit_deepQ (o : Out) (d : Dev) : (emit o d).deepQ = d.deepQ := rfl
@[simp] theorem emit_dramQ (o : Out) (d : Dev) : (emit o d).dramQ = d.dramQ := rfl
@[simp] theorem emit_dramLevel (o : Out) (d : Dev) : (emit o d).dramLevel = d.dramLevel := rfl
@[simp] theorem emit_dramTick (o : Out) (d : Dev) : (emit o d).dramTick = d.dramTick := rfl
@[simp] theorem emit_courses (o : Out) (d : Dev) : (emit o d).courses = d.courses := rfl
@[simp] theorem emit_wit (o : Out) (d : Dev) : (emit o d).wit = d.wit := rfl
@[simp] theorem emit_scheds (o : Out) (d : Dev) : (emit o d).scheds = d.scheds := rfl
@[simp] theorem emit_copies (o : Out) (d : Dev) : (emit o d).copies = d.copies := rfl
@[simp] theorem emit_islJobs (o : Out) (d : Dev) : (emit o d).islJobs = d.islJobs := rfl
@[simp] theorem emit_comps (o : Out) (d : Dev) : (emit o d).comps = d.comps := rfl
@[simp] theorem emit_untested (o : Out) (d : Dev) : (emit o d).untested = d.untested := rfl
@[simp] theorem emit_calQ (o : Out) (d : Dev) : (emit o d).calQ = d.calQ := rfl
@[simp] theorem emit_dram (o : Out) (d : Dev) : (emit o d).dram = d.dram := rfl
@[simp] theorem emit_clusters (o : Out) (d : Dev) : (emit o d).clusters = d.clusters := rfl
@[simp] theorem emit_gates (o : Out) (d : Dev) : (emit o d).gates = d.gates := rfl
@[simp] theorem emit_spEpoch (o : Out) (d : Dev) : (emit o d).spEpoch = d.spEpoch := rfl
@[simp] theorem emit_dbgPort (o : Out) (d : Dev) : (emit o d).dbgPort = d.dbgPort := rfl
@[simp] theorem emit_dbgCores (o : Out) (d : Dev) : (emit o d).dbgCores = d.dbgCores := rfl
@[simp] theorem emit_ledger (o : Out) (d : Dev) : (emit o d).ledger = d.ledger := rfl
@[simp] theorem emit_power (o : Out) (d : Dev) : (emit o d).power = d.power := rfl
@[simp] theorem emit_foot (o : Out) (d : Dev) : (emit o d).foot = d.foot := rfl
@[simp] theorem emit_domJobs (o : Out) (d : Dev) : (emit o d).domJobs = d.domJobs := rfl
@[simp] theorem emit_rstJobs (o : Out) (d : Dev) : (emit o d).rstJobs = d.rstJobs := rfl
@[simp] theorem emit_mapJobs (o : Out) (d : Dev) : (emit o d).mapJobs = d.mapJobs := rfl
@[simp] theorem emit_resetAt (o : Out) (d : Dev) : (emit o d).resetAt = d.resetAt := rfl
@[simp] theorem emit_tripped (o : Out) (d : Dev) : (emit o d).tripped = d.tripped := rfl
@[simp] theorem emit_timeDead (o : Out) (d : Dev) : (emit o d).timeDead = d.timeDead := rfl
@[simp] theorem emit_hotWarn (o : Out) (d : Dev) : (emit o d).hotWarn = d.hotWarn := rfl
@[simp] theorem emit_hotCrit (o : Out) (d : Dev) : (emit o d).hotCrit = d.hotCrit := rfl
@[simp] theorem emit_spdmMctp (o : Out) (d : Dev) : (emit o d).spdmMctp = d.spdmMctp := rfl
@[simp] theorem emit_eids (o : Out) (d : Dev) : (emit o d).eids = d.eids := rfl
@[simp] theorem emit_pldm (o : Out) (d : Dev) : (emit o d).pldm = d.pldm := rfl

@[simp] theorem wrt_variant (sp a : Nat) (bs : Bytes) (d : Dev) : (wrt sp a bs d).variant = d.variant := rfl
@[simp] theorem wrt_regs (sp a : Nat) (bs : Bytes) (d : Dev) : (wrt sp a bs d).regs = d.regs := rfl
@[simp] theorem wrt_eff (sp a : Nat) (bs : Bytes) (d : Dev) : (wrt sp a bs d).eff = d.eff := rfl
@[simp] theorem wrt_cap (sp a : Nat) (bs : Bytes) (d : Dev) : (wrt sp a bs d).cap = d.cap := rfl
@[simp] theorem wrt_halfRx (sp a : Nat) (bs : Bytes) (d : Dev) : (wrt sp a bs d).halfRx = d.halfRx := rfl
@[simp] theorem wrt_halfTx (sp a : Nat) (bs : Bytes) (d : Dev) : (wrt sp a bs d).halfTx = d.halfTx := rfl
@[simp] theorem wrt_took (sp a : Nat) (bs : Bytes) (d : Dev) : (wrt sp a bs d).took = d.took := rfl
@[simp] theorem wrt_ctrs (sp a : Nat) (bs : Bytes) (d : Dev) : (wrt sp a bs d).ctrs = d.ctrs := rfl
@[simp] theorem wrt_latch (sp a : Nat) (bs : Bytes) (d : Dev) : (wrt sp a bs d).latch = d.latch := rfl
@[simp] theorem wrt_mem (sp a : Nat) (bs : Bytes) (d : Dev) : (wrt sp a bs d).mem = d.mem := rfl
@[simp] theorem wrt_wr (sp a : Nat) (bs : Bytes) (d : Dev) : (wrt sp a bs d).wr = (spaceAddr sp a, bs) :: d.wr := rfl
@[simp] theorem wrt_freeIdx (sp a : Nat) (bs : Bytes) (d : Dev) : (wrt sp a bs d).freeIdx = d.freeIdx := rfl
@[simp] theorem wrt_out (sp a : Nat) (bs : Bytes) (d : Dev) : (wrt sp a bs d).out = d.out := rfl
@[simp] theorem wrt_fns (sp a : Nat) (bs : Bytes) (d : Dev) : (wrt sp a bs d).fns = d.fns := rfl
@[simp] theorem wrt_queues (sp a : Nat) (bs : Bytes) (d : Dev) : (wrt sp a bs d).queues = d.queues := rfl
@[simp] theorem wrt_pkts (sp a : Nat) (bs : Bytes) (d : Dev) : (wrt sp a bs d).pkts = d.pkts := rfl
@[simp] theorem wrt_pktSeq (sp a : Nat) (bs : Bytes) (d : Dev) : (wrt sp a bs d).pktSeq = d.pktSeq := rfl
@[simp] theorem wrt_hports (sp a : Nat) (bs : Bytes) (d : Dev) : (wrt sp a bs d).hports = d.hports := rfl
@[simp] theorem wrt_doms (sp a : Nat) (bs : Bytes) (d : Dev) : (wrt sp a bs d).doms = d.doms := rfl
@[simp] theorem wrt_fatal (sp a : Nat) (bs : Bytes) (d : Dev) : (wrt sp a bs d).fatal = d.fatal := rfl
@[simp] theorem wrt_strs (sp a : Nat) (bs : Bytes) (d : Dev) : (wrt sp a bs d).strs = d.strs := rfl
@[simp] theorem wrt_time (sp a : Nat) (bs : Bytes) (d : Dev) : (wrt sp a bs d).time = d.time := rfl
@[simp] theorem wrt_taps (sp a : Nat) (bs : Bytes) (d : Dev) : (wrt sp a bs d).taps = d.taps := rfl
@[simp] theorem wrt_stopped (sp a : Nat) (bs : Bytes) (d : Dev) : (wrt sp a bs d).stopped = d.stopped := rfl
@[simp] theorem wrt_released (sp a : Nat) (bs : Bytes) (d : Dev) : (wrt sp a bs d).released = d.released := rfl
@[simp] theorem wrt_errs (sp a : Nat) (bs : Bytes) (d : Dev) : (wrt sp a bs d).errs = d.errs := rfl
@[simp] theorem wrt_errSeq (sp a : Nat) (bs : Bytes) (d : Dev) : (wrt sp a bs d).errSeq = d.errSeq := rfl
@[simp] theorem wrt_errAck (sp a : Nat) (bs : Bytes) (d : Dev) : (wrt sp a bs d).errAck = d.errAck := rfl
@[simp] theorem wrt_xings (sp a : Nat) (bs : Bytes) (d : Dev) : (wrt sp a bs d).xings = d.xings := rfl
@[simp] theorem wrt_egqs (sp a : Nat) (bs : Bytes) (d : Dev) : (wrt sp a bs d).egqs = d.egqs := rfl
@[simp] theorem wrt_rates (sp a : Nat) (bs : Bytes) (d : Dev) : (wrt sp a bs d).rates = d.rates := rfl
@[simp] theorem wrt_ports (sp a : Nat) (bs : Bytes) (d : Dev) : (wrt sp a bs d).ports = d.ports := rfl
@[simp] theorem wrt_cal (sp a : Nat) (bs : Bytes) (d : Dev) : (wrt sp a bs d).cal = d.cal := rfl
@[simp] theorem wrt_calSect (sp a : Nat) (bs : Bytes) (d : Dev) : (wrt sp a bs d).calSect = d.calSect := rfl
@[simp] theorem wrt_calRuns (sp a : Nat) (bs : Bytes) (d : Dev) : (wrt sp a bs d).calRuns = d.calRuns := rfl
@[simp] theorem wrt_tables (sp a : Nat) (bs : Bytes) (d : Dev) : (wrt sp a bs d).tables = d.tables := rfl
@[simp] theorem wrt_sessions (sp a : Nat) (bs : Bytes) (d : Dev) : (wrt sp a bs d).sessions = d.sessions := rfl
@[simp] theorem wrt_policers (sp a : Nat) (bs : Bytes) (d : Dev) : (wrt sp a bs d).policers = d.policers := rfl
@[simp] theorem wrt_rss (sp a : Nat) (bs : Bytes) (d : Dev) : (wrt sp a bs d).rss = d.rss := rfl
@[simp] theorem wrt_deepQ (sp a : Nat) (bs : Bytes) (d : Dev) : (wrt sp a bs d).deepQ = d.deepQ := rfl
@[simp] theorem wrt_dramQ (sp a : Nat) (bs : Bytes) (d : Dev) : (wrt sp a bs d).dramQ = d.dramQ := rfl
@[simp] theorem wrt_dramLevel (sp a : Nat) (bs : Bytes) (d : Dev) : (wrt sp a bs d).dramLevel = d.dramLevel := rfl
@[simp] theorem wrt_dramTick (sp a : Nat) (bs : Bytes) (d : Dev) : (wrt sp a bs d).dramTick = d.dramTick := rfl
@[simp] theorem wrt_courses (sp a : Nat) (bs : Bytes) (d : Dev) : (wrt sp a bs d).courses = d.courses := rfl
@[simp] theorem wrt_wit (sp a : Nat) (bs : Bytes) (d : Dev) : (wrt sp a bs d).wit = d.wit := rfl
@[simp] theorem wrt_scheds (sp a : Nat) (bs : Bytes) (d : Dev) : (wrt sp a bs d).scheds = d.scheds := rfl
@[simp] theorem wrt_copies (sp a : Nat) (bs : Bytes) (d : Dev) : (wrt sp a bs d).copies = d.copies := rfl
@[simp] theorem wrt_islJobs (sp a : Nat) (bs : Bytes) (d : Dev) : (wrt sp a bs d).islJobs = d.islJobs := rfl
@[simp] theorem wrt_comps (sp a : Nat) (bs : Bytes) (d : Dev) : (wrt sp a bs d).comps = d.comps := rfl
@[simp] theorem wrt_untested (sp a : Nat) (bs : Bytes) (d : Dev) : (wrt sp a bs d).untested = d.untested := rfl
@[simp] theorem wrt_calQ (sp a : Nat) (bs : Bytes) (d : Dev) : (wrt sp a bs d).calQ = d.calQ := rfl
@[simp] theorem wrt_dram (sp a : Nat) (bs : Bytes) (d : Dev) : (wrt sp a bs d).dram = d.dram := rfl
@[simp] theorem wrt_clusters (sp a : Nat) (bs : Bytes) (d : Dev) : (wrt sp a bs d).clusters = d.clusters := rfl
@[simp] theorem wrt_gates (sp a : Nat) (bs : Bytes) (d : Dev) : (wrt sp a bs d).gates = d.gates := rfl
@[simp] theorem wrt_spEpoch (sp a : Nat) (bs : Bytes) (d : Dev) : (wrt sp a bs d).spEpoch = d.spEpoch := rfl
@[simp] theorem wrt_dbgPort (sp a : Nat) (bs : Bytes) (d : Dev) : (wrt sp a bs d).dbgPort = d.dbgPort := rfl
@[simp] theorem wrt_dbgCores (sp a : Nat) (bs : Bytes) (d : Dev) : (wrt sp a bs d).dbgCores = d.dbgCores := rfl
@[simp] theorem wrt_ledger (sp a : Nat) (bs : Bytes) (d : Dev) : (wrt sp a bs d).ledger = d.ledger := rfl
@[simp] theorem wrt_power (sp a : Nat) (bs : Bytes) (d : Dev) : (wrt sp a bs d).power = d.power := rfl
@[simp] theorem wrt_foot (sp a : Nat) (bs : Bytes) (d : Dev) : (wrt sp a bs d).foot = d.foot := rfl
@[simp] theorem wrt_domJobs (sp a : Nat) (bs : Bytes) (d : Dev) : (wrt sp a bs d).domJobs = d.domJobs := rfl
@[simp] theorem wrt_rstJobs (sp a : Nat) (bs : Bytes) (d : Dev) : (wrt sp a bs d).rstJobs = d.rstJobs := rfl
@[simp] theorem wrt_mapJobs (sp a : Nat) (bs : Bytes) (d : Dev) : (wrt sp a bs d).mapJobs = d.mapJobs := rfl
@[simp] theorem wrt_resetAt (sp a : Nat) (bs : Bytes) (d : Dev) : (wrt sp a bs d).resetAt = d.resetAt := rfl
@[simp] theorem wrt_tripped (sp a : Nat) (bs : Bytes) (d : Dev) : (wrt sp a bs d).tripped = d.tripped := rfl
@[simp] theorem wrt_timeDead (sp a : Nat) (bs : Bytes) (d : Dev) : (wrt sp a bs d).timeDead = d.timeDead := rfl
@[simp] theorem wrt_hotWarn (sp a : Nat) (bs : Bytes) (d : Dev) : (wrt sp a bs d).hotWarn = d.hotWarn := rfl
@[simp] theorem wrt_hotCrit (sp a : Nat) (bs : Bytes) (d : Dev) : (wrt sp a bs d).hotCrit = d.hotCrit := rfl
@[simp] theorem wrt_spdmMctp (sp a : Nat) (bs : Bytes) (d : Dev) : (wrt sp a bs d).spdmMctp = d.spdmMctp := rfl
@[simp] theorem wrt_eids (sp a : Nat) (bs : Bytes) (d : Dev) : (wrt sp a bs d).eids = d.eids := rfl
@[simp] theorem wrt_pldm (sp a : Nat) (bs : Bytes) (d : Dev) : (wrt sp a bs d).pldm = d.pldm := rfl

@[simp] theorem regW_variant (k : Nat) (v : Word) (d : Dev) : (regW k v d).variant = d.variant := rfl
@[simp] theorem regW_regs (k : Nat) (v : Word) (d : Dev) : (regW k v d).regs = Tbl.set regReset d.regs k v := rfl
@[simp] theorem regW_eff (k : Nat) (v : Word) (d : Dev) : (regW k v d).eff = d.eff := rfl
@[simp] theorem regW_cap (k : Nat) (v : Word) (d : Dev) : (regW k v d).cap = d.cap := rfl
@[simp] theorem regW_halfRx (k : Nat) (v : Word) (d : Dev) : (regW k v d).halfRx = d.halfRx := rfl
@[simp] theorem regW_halfTx (k : Nat) (v : Word) (d : Dev) : (regW k v d).halfTx = d.halfTx := rfl
@[simp] theorem regW_took (k : Nat) (v : Word) (d : Dev) : (regW k v d).took = d.took := rfl
@[simp] theorem regW_ctrs (k : Nat) (v : Word) (d : Dev) : (regW k v d).ctrs = d.ctrs := rfl
@[simp] theorem regW_latch (k : Nat) (v : Word) (d : Dev) : (regW k v d).latch = d.latch := rfl
@[simp] theorem regW_mem (k : Nat) (v : Word) (d : Dev) : (regW k v d).mem = d.mem := rfl
@[simp] theorem regW_wr (k : Nat) (v : Word) (d : Dev) : (regW k v d).wr = d.wr := rfl
@[simp] theorem regW_freeIdx (k : Nat) (v : Word) (d : Dev) : (regW k v d).freeIdx = d.freeIdx := rfl
@[simp] theorem regW_out (k : Nat) (v : Word) (d : Dev) : (regW k v d).out = d.out := rfl
@[simp] theorem regW_fns (k : Nat) (v : Word) (d : Dev) : (regW k v d).fns = d.fns := rfl
@[simp] theorem regW_queues (k : Nat) (v : Word) (d : Dev) : (regW k v d).queues = d.queues := rfl
@[simp] theorem regW_pkts (k : Nat) (v : Word) (d : Dev) : (regW k v d).pkts = d.pkts := rfl
@[simp] theorem regW_pktSeq (k : Nat) (v : Word) (d : Dev) : (regW k v d).pktSeq = d.pktSeq := rfl
@[simp] theorem regW_hports (k : Nat) (v : Word) (d : Dev) : (regW k v d).hports = d.hports := rfl
@[simp] theorem regW_doms (k : Nat) (v : Word) (d : Dev) : (regW k v d).doms = d.doms := rfl
@[simp] theorem regW_fatal (k : Nat) (v : Word) (d : Dev) : (regW k v d).fatal = d.fatal := rfl
@[simp] theorem regW_strs (k : Nat) (v : Word) (d : Dev) : (regW k v d).strs = d.strs := rfl
@[simp] theorem regW_time (k : Nat) (v : Word) (d : Dev) : (regW k v d).time = d.time := rfl
@[simp] theorem regW_taps (k : Nat) (v : Word) (d : Dev) : (regW k v d).taps = d.taps := rfl
@[simp] theorem regW_stopped (k : Nat) (v : Word) (d : Dev) : (regW k v d).stopped = d.stopped := rfl
@[simp] theorem regW_released (k : Nat) (v : Word) (d : Dev) : (regW k v d).released = d.released := rfl
@[simp] theorem regW_errs (k : Nat) (v : Word) (d : Dev) : (regW k v d).errs = d.errs := rfl
@[simp] theorem regW_errSeq (k : Nat) (v : Word) (d : Dev) : (regW k v d).errSeq = d.errSeq := rfl
@[simp] theorem regW_errAck (k : Nat) (v : Word) (d : Dev) : (regW k v d).errAck = d.errAck := rfl
@[simp] theorem regW_xings (k : Nat) (v : Word) (d : Dev) : (regW k v d).xings = d.xings := rfl
@[simp] theorem regW_egqs (k : Nat) (v : Word) (d : Dev) : (regW k v d).egqs = d.egqs := rfl
@[simp] theorem regW_rates (k : Nat) (v : Word) (d : Dev) : (regW k v d).rates = d.rates := rfl
@[simp] theorem regW_ports (k : Nat) (v : Word) (d : Dev) : (regW k v d).ports = d.ports := rfl
@[simp] theorem regW_cal (k : Nat) (v : Word) (d : Dev) : (regW k v d).cal = d.cal := rfl
@[simp] theorem regW_calSect (k : Nat) (v : Word) (d : Dev) : (regW k v d).calSect = d.calSect := rfl
@[simp] theorem regW_calRuns (k : Nat) (v : Word) (d : Dev) : (regW k v d).calRuns = d.calRuns := rfl
@[simp] theorem regW_tables (k : Nat) (v : Word) (d : Dev) : (regW k v d).tables = d.tables := rfl
@[simp] theorem regW_sessions (k : Nat) (v : Word) (d : Dev) : (regW k v d).sessions = d.sessions := rfl
@[simp] theorem regW_policers (k : Nat) (v : Word) (d : Dev) : (regW k v d).policers = d.policers := rfl
@[simp] theorem regW_rss (k : Nat) (v : Word) (d : Dev) : (regW k v d).rss = d.rss := rfl
@[simp] theorem regW_deepQ (k : Nat) (v : Word) (d : Dev) : (regW k v d).deepQ = d.deepQ := rfl
@[simp] theorem regW_dramQ (k : Nat) (v : Word) (d : Dev) : (regW k v d).dramQ = d.dramQ := rfl
@[simp] theorem regW_dramLevel (k : Nat) (v : Word) (d : Dev) : (regW k v d).dramLevel = d.dramLevel := rfl
@[simp] theorem regW_dramTick (k : Nat) (v : Word) (d : Dev) : (regW k v d).dramTick = d.dramTick := rfl
@[simp] theorem regW_courses (k : Nat) (v : Word) (d : Dev) : (regW k v d).courses = d.courses := rfl
@[simp] theorem regW_wit (k : Nat) (v : Word) (d : Dev) : (regW k v d).wit = d.wit := rfl
@[simp] theorem regW_scheds (k : Nat) (v : Word) (d : Dev) : (regW k v d).scheds = d.scheds := rfl
@[simp] theorem regW_copies (k : Nat) (v : Word) (d : Dev) : (regW k v d).copies = d.copies := rfl
@[simp] theorem regW_islJobs (k : Nat) (v : Word) (d : Dev) : (regW k v d).islJobs = d.islJobs := rfl
@[simp] theorem regW_comps (k : Nat) (v : Word) (d : Dev) : (regW k v d).comps = d.comps := rfl
@[simp] theorem regW_untested (k : Nat) (v : Word) (d : Dev) : (regW k v d).untested = d.untested := rfl
@[simp] theorem regW_calQ (k : Nat) (v : Word) (d : Dev) : (regW k v d).calQ = d.calQ := rfl
@[simp] theorem regW_dram (k : Nat) (v : Word) (d : Dev) : (regW k v d).dram = d.dram := rfl
@[simp] theorem regW_clusters (k : Nat) (v : Word) (d : Dev) : (regW k v d).clusters = d.clusters := rfl
@[simp] theorem regW_gates (k : Nat) (v : Word) (d : Dev) : (regW k v d).gates = d.gates := rfl
@[simp] theorem regW_spEpoch (k : Nat) (v : Word) (d : Dev) : (regW k v d).spEpoch = d.spEpoch := rfl
@[simp] theorem regW_dbgPort (k : Nat) (v : Word) (d : Dev) : (regW k v d).dbgPort = d.dbgPort := rfl
@[simp] theorem regW_dbgCores (k : Nat) (v : Word) (d : Dev) : (regW k v d).dbgCores = d.dbgCores := rfl
@[simp] theorem regW_ledger (k : Nat) (v : Word) (d : Dev) : (regW k v d).ledger = d.ledger := rfl
@[simp] theorem regW_power (k : Nat) (v : Word) (d : Dev) : (regW k v d).power = d.power := rfl
@[simp] theorem regW_foot (k : Nat) (v : Word) (d : Dev) : (regW k v d).foot = d.foot := rfl
@[simp] theorem regW_domJobs (k : Nat) (v : Word) (d : Dev) : (regW k v d).domJobs = d.domJobs := rfl
@[simp] theorem regW_rstJobs (k : Nat) (v : Word) (d : Dev) : (regW k v d).rstJobs = d.rstJobs := rfl
@[simp] theorem regW_mapJobs (k : Nat) (v : Word) (d : Dev) : (regW k v d).mapJobs = d.mapJobs := rfl
@[simp] theorem regW_resetAt (k : Nat) (v : Word) (d : Dev) : (regW k v d).resetAt = d.resetAt := rfl
@[simp] theorem regW_tripped (k : Nat) (v : Word) (d : Dev) : (regW k v d).tripped = d.tripped := rfl
@[simp] theorem regW_timeDead (k : Nat) (v : Word) (d : Dev) : (regW k v d).timeDead = d.timeDead := rfl
@[simp] theorem regW_hotWarn (k : Nat) (v : Word) (d : Dev) : (regW k v d).hotWarn = d.hotWarn := rfl
@[simp] theorem regW_hotCrit (k : Nat) (v : Word) (d : Dev) : (regW k v d).hotCrit = d.hotCrit := rfl
@[simp] theorem regW_spdmMctp (k : Nat) (v : Word) (d : Dev) : (regW k v d).spdmMctp = d.spdmMctp := rfl
@[simp] theorem regW_eids (k : Nat) (v : Word) (d : Dev) : (regW k v d).eids = d.eids := rfl
@[simp] theorem regW_pldm (k : Nat) (v : Word) (d : Dev) : (regW k v d).pldm = d.pldm := rfl

@[simp] theorem fldW_variant (k hi lo v : Nat) (d : Dev) : (fldW k hi lo v d).variant = d.variant := rfl
@[simp] theorem fldW_eff (k hi lo v : Nat) (d : Dev) : (fldW k hi lo v d).eff = d.eff := rfl
@[simp] theorem fldW_cap (k hi lo v : Nat) (d : Dev) : (fldW k hi lo v d).cap = d.cap := rfl
@[simp] theorem fldW_halfRx (k hi lo v : Nat) (d : Dev) : (fldW k hi lo v d).halfRx = d.halfRx := rfl
@[simp] theorem fldW_halfTx (k hi lo v : Nat) (d : Dev) : (fldW k hi lo v d).halfTx = d.halfTx := rfl
@[simp] theorem fldW_took (k hi lo v : Nat) (d : Dev) : (fldW k hi lo v d).took = d.took := rfl
@[simp] theorem fldW_ctrs (k hi lo v : Nat) (d : Dev) : (fldW k hi lo v d).ctrs = d.ctrs := rfl
@[simp] theorem fldW_latch (k hi lo v : Nat) (d : Dev) : (fldW k hi lo v d).latch = d.latch := rfl
@[simp] theorem fldW_mem (k hi lo v : Nat) (d : Dev) : (fldW k hi lo v d).mem = d.mem := rfl
@[simp] theorem fldW_wr (k hi lo v : Nat) (d : Dev) : (fldW k hi lo v d).wr = d.wr := rfl
@[simp] theorem fldW_freeIdx (k hi lo v : Nat) (d : Dev) : (fldW k hi lo v d).freeIdx = d.freeIdx := rfl
@[simp] theorem fldW_out (k hi lo v : Nat) (d : Dev) : (fldW k hi lo v d).out = d.out := rfl
@[simp] theorem fldW_fns (k hi lo v : Nat) (d : Dev) : (fldW k hi lo v d).fns = d.fns := rfl
@[simp] theorem fldW_queues (k hi lo v : Nat) (d : Dev) : (fldW k hi lo v d).queues = d.queues := rfl
@[simp] theorem fldW_pkts (k hi lo v : Nat) (d : Dev) : (fldW k hi lo v d).pkts = d.pkts := rfl
@[simp] theorem fldW_pktSeq (k hi lo v : Nat) (d : Dev) : (fldW k hi lo v d).pktSeq = d.pktSeq := rfl
@[simp] theorem fldW_hports (k hi lo v : Nat) (d : Dev) : (fldW k hi lo v d).hports = d.hports := rfl
@[simp] theorem fldW_doms (k hi lo v : Nat) (d : Dev) : (fldW k hi lo v d).doms = d.doms := rfl
@[simp] theorem fldW_fatal (k hi lo v : Nat) (d : Dev) : (fldW k hi lo v d).fatal = d.fatal := rfl
@[simp] theorem fldW_strs (k hi lo v : Nat) (d : Dev) : (fldW k hi lo v d).strs = d.strs := rfl
@[simp] theorem fldW_time (k hi lo v : Nat) (d : Dev) : (fldW k hi lo v d).time = d.time := rfl
@[simp] theorem fldW_taps (k hi lo v : Nat) (d : Dev) : (fldW k hi lo v d).taps = d.taps := rfl
@[simp] theorem fldW_stopped (k hi lo v : Nat) (d : Dev) : (fldW k hi lo v d).stopped = d.stopped := rfl
@[simp] theorem fldW_released (k hi lo v : Nat) (d : Dev) : (fldW k hi lo v d).released = d.released := rfl
@[simp] theorem fldW_errs (k hi lo v : Nat) (d : Dev) : (fldW k hi lo v d).errs = d.errs := rfl
@[simp] theorem fldW_errSeq (k hi lo v : Nat) (d : Dev) : (fldW k hi lo v d).errSeq = d.errSeq := rfl
@[simp] theorem fldW_errAck (k hi lo v : Nat) (d : Dev) : (fldW k hi lo v d).errAck = d.errAck := rfl
@[simp] theorem fldW_xings (k hi lo v : Nat) (d : Dev) : (fldW k hi lo v d).xings = d.xings := rfl
@[simp] theorem fldW_egqs (k hi lo v : Nat) (d : Dev) : (fldW k hi lo v d).egqs = d.egqs := rfl
@[simp] theorem fldW_rates (k hi lo v : Nat) (d : Dev) : (fldW k hi lo v d).rates = d.rates := rfl
@[simp] theorem fldW_ports (k hi lo v : Nat) (d : Dev) : (fldW k hi lo v d).ports = d.ports := rfl
@[simp] theorem fldW_cal (k hi lo v : Nat) (d : Dev) : (fldW k hi lo v d).cal = d.cal := rfl
@[simp] theorem fldW_calSect (k hi lo v : Nat) (d : Dev) : (fldW k hi lo v d).calSect = d.calSect := rfl
@[simp] theorem fldW_calRuns (k hi lo v : Nat) (d : Dev) : (fldW k hi lo v d).calRuns = d.calRuns := rfl
@[simp] theorem fldW_tables (k hi lo v : Nat) (d : Dev) : (fldW k hi lo v d).tables = d.tables := rfl
@[simp] theorem fldW_sessions (k hi lo v : Nat) (d : Dev) : (fldW k hi lo v d).sessions = d.sessions := rfl
@[simp] theorem fldW_policers (k hi lo v : Nat) (d : Dev) : (fldW k hi lo v d).policers = d.policers := rfl
@[simp] theorem fldW_rss (k hi lo v : Nat) (d : Dev) : (fldW k hi lo v d).rss = d.rss := rfl
@[simp] theorem fldW_deepQ (k hi lo v : Nat) (d : Dev) : (fldW k hi lo v d).deepQ = d.deepQ := rfl
@[simp] theorem fldW_dramQ (k hi lo v : Nat) (d : Dev) : (fldW k hi lo v d).dramQ = d.dramQ := rfl
@[simp] theorem fldW_dramLevel (k hi lo v : Nat) (d : Dev) : (fldW k hi lo v d).dramLevel = d.dramLevel := rfl
@[simp] theorem fldW_dramTick (k hi lo v : Nat) (d : Dev) : (fldW k hi lo v d).dramTick = d.dramTick := rfl
@[simp] theorem fldW_courses (k hi lo v : Nat) (d : Dev) : (fldW k hi lo v d).courses = d.courses := rfl
@[simp] theorem fldW_wit (k hi lo v : Nat) (d : Dev) : (fldW k hi lo v d).wit = d.wit := rfl
@[simp] theorem fldW_scheds (k hi lo v : Nat) (d : Dev) : (fldW k hi lo v d).scheds = d.scheds := rfl
@[simp] theorem fldW_copies (k hi lo v : Nat) (d : Dev) : (fldW k hi lo v d).copies = d.copies := rfl
@[simp] theorem fldW_islJobs (k hi lo v : Nat) (d : Dev) : (fldW k hi lo v d).islJobs = d.islJobs := rfl
@[simp] theorem fldW_comps (k hi lo v : Nat) (d : Dev) : (fldW k hi lo v d).comps = d.comps := rfl
@[simp] theorem fldW_untested (k hi lo v : Nat) (d : Dev) : (fldW k hi lo v d).untested = d.untested := rfl
@[simp] theorem fldW_calQ (k hi lo v : Nat) (d : Dev) : (fldW k hi lo v d).calQ = d.calQ := rfl
@[simp] theorem fldW_dram (k hi lo v : Nat) (d : Dev) : (fldW k hi lo v d).dram = d.dram := rfl
@[simp] theorem fldW_clusters (k hi lo v : Nat) (d : Dev) : (fldW k hi lo v d).clusters = d.clusters := rfl
@[simp] theorem fldW_gates (k hi lo v : Nat) (d : Dev) : (fldW k hi lo v d).gates = d.gates := rfl
@[simp] theorem fldW_spEpoch (k hi lo v : Nat) (d : Dev) : (fldW k hi lo v d).spEpoch = d.spEpoch := rfl
@[simp] theorem fldW_dbgPort (k hi lo v : Nat) (d : Dev) : (fldW k hi lo v d).dbgPort = d.dbgPort := rfl
@[simp] theorem fldW_dbgCores (k hi lo v : Nat) (d : Dev) : (fldW k hi lo v d).dbgCores = d.dbgCores := rfl
@[simp] theorem fldW_ledger (k hi lo v : Nat) (d : Dev) : (fldW k hi lo v d).ledger = d.ledger := rfl
@[simp] theorem fldW_power (k hi lo v : Nat) (d : Dev) : (fldW k hi lo v d).power = d.power := rfl
@[simp] theorem fldW_foot (k hi lo v : Nat) (d : Dev) : (fldW k hi lo v d).foot = d.foot := rfl
@[simp] theorem fldW_domJobs (k hi lo v : Nat) (d : Dev) : (fldW k hi lo v d).domJobs = d.domJobs := rfl
@[simp] theorem fldW_rstJobs (k hi lo v : Nat) (d : Dev) : (fldW k hi lo v d).rstJobs = d.rstJobs := rfl
@[simp] theorem fldW_mapJobs (k hi lo v : Nat) (d : Dev) : (fldW k hi lo v d).mapJobs = d.mapJobs := rfl
@[simp] theorem fldW_resetAt (k hi lo v : Nat) (d : Dev) : (fldW k hi lo v d).resetAt = d.resetAt := rfl
@[simp] theorem fldW_tripped (k hi lo v : Nat) (d : Dev) : (fldW k hi lo v d).tripped = d.tripped := rfl
@[simp] theorem fldW_timeDead (k hi lo v : Nat) (d : Dev) : (fldW k hi lo v d).timeDead = d.timeDead := rfl
@[simp] theorem fldW_hotWarn (k hi lo v : Nat) (d : Dev) : (fldW k hi lo v d).hotWarn = d.hotWarn := rfl
@[simp] theorem fldW_hotCrit (k hi lo v : Nat) (d : Dev) : (fldW k hi lo v d).hotCrit = d.hotCrit := rfl
@[simp] theorem fldW_spdmMctp (k hi lo v : Nat) (d : Dev) : (fldW k hi lo v d).spdmMctp = d.spdmMctp := rfl
@[simp] theorem fldW_eids (k hi lo v : Nat) (d : Dev) : (fldW k hi lo v d).eids = d.eids := rfl
@[simp] theorem fldW_pldm (k hi lo v : Nat) (d : Dev) : (fldW k hi lo v d).pldm = d.pldm := rfl

@[simp] theorem bitW_variant (k i : Nat) (b : Bool) (d : Dev) : (bitW k i b d).variant = d.variant := rfl
@[simp] theorem bitW_eff (k i : Nat) (b : Bool) (d : Dev) : (bitW k i b d).eff = d.eff := rfl
@[simp] theorem bitW_cap (k i : Nat) (b : Bool) (d : Dev) : (bitW k i b d).cap = d.cap := rfl
@[simp] theorem bitW_halfRx (k i : Nat) (b : Bool) (d : Dev) : (bitW k i b d).halfRx = d.halfRx := rfl
@[simp] theorem bitW_halfTx (k i : Nat) (b : Bool) (d : Dev) : (bitW k i b d).halfTx = d.halfTx := rfl
@[simp] theorem bitW_took (k i : Nat) (b : Bool) (d : Dev) : (bitW k i b d).took = d.took := rfl
@[simp] theorem bitW_ctrs (k i : Nat) (b : Bool) (d : Dev) : (bitW k i b d).ctrs = d.ctrs := rfl
@[simp] theorem bitW_latch (k i : Nat) (b : Bool) (d : Dev) : (bitW k i b d).latch = d.latch := rfl
@[simp] theorem bitW_mem (k i : Nat) (b : Bool) (d : Dev) : (bitW k i b d).mem = d.mem := rfl
@[simp] theorem bitW_wr (k i : Nat) (b : Bool) (d : Dev) : (bitW k i b d).wr = d.wr := rfl
@[simp] theorem bitW_freeIdx (k i : Nat) (b : Bool) (d : Dev) : (bitW k i b d).freeIdx = d.freeIdx := rfl
@[simp] theorem bitW_out (k i : Nat) (b : Bool) (d : Dev) : (bitW k i b d).out = d.out := rfl
@[simp] theorem bitW_fns (k i : Nat) (b : Bool) (d : Dev) : (bitW k i b d).fns = d.fns := rfl
@[simp] theorem bitW_queues (k i : Nat) (b : Bool) (d : Dev) : (bitW k i b d).queues = d.queues := rfl
@[simp] theorem bitW_pkts (k i : Nat) (b : Bool) (d : Dev) : (bitW k i b d).pkts = d.pkts := rfl
@[simp] theorem bitW_pktSeq (k i : Nat) (b : Bool) (d : Dev) : (bitW k i b d).pktSeq = d.pktSeq := rfl
@[simp] theorem bitW_hports (k i : Nat) (b : Bool) (d : Dev) : (bitW k i b d).hports = d.hports := rfl
@[simp] theorem bitW_doms (k i : Nat) (b : Bool) (d : Dev) : (bitW k i b d).doms = d.doms := rfl
@[simp] theorem bitW_fatal (k i : Nat) (b : Bool) (d : Dev) : (bitW k i b d).fatal = d.fatal := rfl
@[simp] theorem bitW_strs (k i : Nat) (b : Bool) (d : Dev) : (bitW k i b d).strs = d.strs := rfl
@[simp] theorem bitW_time (k i : Nat) (b : Bool) (d : Dev) : (bitW k i b d).time = d.time := rfl
@[simp] theorem bitW_taps (k i : Nat) (b : Bool) (d : Dev) : (bitW k i b d).taps = d.taps := rfl
@[simp] theorem bitW_stopped (k i : Nat) (b : Bool) (d : Dev) : (bitW k i b d).stopped = d.stopped := rfl
@[simp] theorem bitW_released (k i : Nat) (b : Bool) (d : Dev) : (bitW k i b d).released = d.released := rfl
@[simp] theorem bitW_errs (k i : Nat) (b : Bool) (d : Dev) : (bitW k i b d).errs = d.errs := rfl
@[simp] theorem bitW_errSeq (k i : Nat) (b : Bool) (d : Dev) : (bitW k i b d).errSeq = d.errSeq := rfl
@[simp] theorem bitW_errAck (k i : Nat) (b : Bool) (d : Dev) : (bitW k i b d).errAck = d.errAck := rfl
@[simp] theorem bitW_xings (k i : Nat) (b : Bool) (d : Dev) : (bitW k i b d).xings = d.xings := rfl
@[simp] theorem bitW_egqs (k i : Nat) (b : Bool) (d : Dev) : (bitW k i b d).egqs = d.egqs := rfl
@[simp] theorem bitW_rates (k i : Nat) (b : Bool) (d : Dev) : (bitW k i b d).rates = d.rates := rfl
@[simp] theorem bitW_ports (k i : Nat) (b : Bool) (d : Dev) : (bitW k i b d).ports = d.ports := rfl
@[simp] theorem bitW_cal (k i : Nat) (b : Bool) (d : Dev) : (bitW k i b d).cal = d.cal := rfl
@[simp] theorem bitW_calSect (k i : Nat) (b : Bool) (d : Dev) : (bitW k i b d).calSect = d.calSect := rfl
@[simp] theorem bitW_calRuns (k i : Nat) (b : Bool) (d : Dev) : (bitW k i b d).calRuns = d.calRuns := rfl
@[simp] theorem bitW_tables (k i : Nat) (b : Bool) (d : Dev) : (bitW k i b d).tables = d.tables := rfl
@[simp] theorem bitW_sessions (k i : Nat) (b : Bool) (d : Dev) : (bitW k i b d).sessions = d.sessions := rfl
@[simp] theorem bitW_policers (k i : Nat) (b : Bool) (d : Dev) : (bitW k i b d).policers = d.policers := rfl
@[simp] theorem bitW_rss (k i : Nat) (b : Bool) (d : Dev) : (bitW k i b d).rss = d.rss := rfl
@[simp] theorem bitW_deepQ (k i : Nat) (b : Bool) (d : Dev) : (bitW k i b d).deepQ = d.deepQ := rfl
@[simp] theorem bitW_dramQ (k i : Nat) (b : Bool) (d : Dev) : (bitW k i b d).dramQ = d.dramQ := rfl
@[simp] theorem bitW_dramLevel (k i : Nat) (b : Bool) (d : Dev) : (bitW k i b d).dramLevel = d.dramLevel := rfl
@[simp] theorem bitW_dramTick (k i : Nat) (b : Bool) (d : Dev) : (bitW k i b d).dramTick = d.dramTick := rfl
@[simp] theorem bitW_courses (k i : Nat) (b : Bool) (d : Dev) : (bitW k i b d).courses = d.courses := rfl
@[simp] theorem bitW_wit (k i : Nat) (b : Bool) (d : Dev) : (bitW k i b d).wit = d.wit := rfl
@[simp] theorem bitW_scheds (k i : Nat) (b : Bool) (d : Dev) : (bitW k i b d).scheds = d.scheds := rfl
@[simp] theorem bitW_copies (k i : Nat) (b : Bool) (d : Dev) : (bitW k i b d).copies = d.copies := rfl
@[simp] theorem bitW_islJobs (k i : Nat) (b : Bool) (d : Dev) : (bitW k i b d).islJobs = d.islJobs := rfl
@[simp] theorem bitW_comps (k i : Nat) (b : Bool) (d : Dev) : (bitW k i b d).comps = d.comps := rfl
@[simp] theorem bitW_untested (k i : Nat) (b : Bool) (d : Dev) : (bitW k i b d).untested = d.untested := rfl
@[simp] theorem bitW_calQ (k i : Nat) (b : Bool) (d : Dev) : (bitW k i b d).calQ = d.calQ := rfl
@[simp] theorem bitW_dram (k i : Nat) (b : Bool) (d : Dev) : (bitW k i b d).dram = d.dram := rfl
@[simp] theorem bitW_clusters (k i : Nat) (b : Bool) (d : Dev) : (bitW k i b d).clusters = d.clusters := rfl
@[simp] theorem bitW_gates (k i : Nat) (b : Bool) (d : Dev) : (bitW k i b d).gates = d.gates := rfl
@[simp] theorem bitW_spEpoch (k i : Nat) (b : Bool) (d : Dev) : (bitW k i b d).spEpoch = d.spEpoch := rfl
@[simp] theorem bitW_dbgPort (k i : Nat) (b : Bool) (d : Dev) : (bitW k i b d).dbgPort = d.dbgPort := rfl
@[simp] theorem bitW_dbgCores (k i : Nat) (b : Bool) (d : Dev) : (bitW k i b d).dbgCores = d.dbgCores := rfl
@[simp] theorem bitW_ledger (k i : Nat) (b : Bool) (d : Dev) : (bitW k i b d).ledger = d.ledger := rfl
@[simp] theorem bitW_power (k i : Nat) (b : Bool) (d : Dev) : (bitW k i b d).power = d.power := rfl
@[simp] theorem bitW_foot (k i : Nat) (b : Bool) (d : Dev) : (bitW k i b d).foot = d.foot := rfl
@[simp] theorem bitW_domJobs (k i : Nat) (b : Bool) (d : Dev) : (bitW k i b d).domJobs = d.domJobs := rfl
@[simp] theorem bitW_rstJobs (k i : Nat) (b : Bool) (d : Dev) : (bitW k i b d).rstJobs = d.rstJobs := rfl
@[simp] theorem bitW_mapJobs (k i : Nat) (b : Bool) (d : Dev) : (bitW k i b d).mapJobs = d.mapJobs := rfl
@[simp] theorem bitW_resetAt (k i : Nat) (b : Bool) (d : Dev) : (bitW k i b d).resetAt = d.resetAt := rfl
@[simp] theorem bitW_tripped (k i : Nat) (b : Bool) (d : Dev) : (bitW k i b d).tripped = d.tripped := rfl
@[simp] theorem bitW_timeDead (k i : Nat) (b : Bool) (d : Dev) : (bitW k i b d).timeDead = d.timeDead := rfl
@[simp] theorem bitW_hotWarn (k i : Nat) (b : Bool) (d : Dev) : (bitW k i b d).hotWarn = d.hotWarn := rfl
@[simp] theorem bitW_hotCrit (k i : Nat) (b : Bool) (d : Dev) : (bitW k i b d).hotCrit = d.hotCrit := rfl
@[simp] theorem bitW_spdmMctp (k i : Nat) (b : Bool) (d : Dev) : (bitW k i b d).spdmMctp = d.spdmMctp := rfl
@[simp] theorem bitW_eids (k i : Nat) (b : Bool) (d : Dev) : (bitW k i b d).eids = d.eids := rfl
@[simp] theorem bitW_pldm (k i : Nat) (b : Bool) (d : Dev) : (bitW k i b d).pldm = d.pldm := rfl

@[simp] theorem ctrInc_variant (k : Nat) (d : Dev) : (ctrInc k d).variant = d.variant := rfl
@[simp] theorem ctrInc_regs (k : Nat) (d : Dev) : (ctrInc k d).regs = d.regs := rfl
@[simp] theorem ctrInc_eff (k : Nat) (d : Dev) : (ctrInc k d).eff = d.eff := rfl
@[simp] theorem ctrInc_cap (k : Nat) (d : Dev) : (ctrInc k d).cap = d.cap := rfl
@[simp] theorem ctrInc_halfRx (k : Nat) (d : Dev) : (ctrInc k d).halfRx = d.halfRx := rfl
@[simp] theorem ctrInc_halfTx (k : Nat) (d : Dev) : (ctrInc k d).halfTx = d.halfTx := rfl
@[simp] theorem ctrInc_took (k : Nat) (d : Dev) : (ctrInc k d).took = d.took := rfl
@[simp] theorem ctrInc_latch (k : Nat) (d : Dev) : (ctrInc k d).latch = d.latch := rfl
@[simp] theorem ctrInc_mem (k : Nat) (d : Dev) : (ctrInc k d).mem = d.mem := rfl
@[simp] theorem ctrInc_wr (k : Nat) (d : Dev) : (ctrInc k d).wr = d.wr := rfl
@[simp] theorem ctrInc_freeIdx (k : Nat) (d : Dev) : (ctrInc k d).freeIdx = d.freeIdx := rfl
@[simp] theorem ctrInc_out (k : Nat) (d : Dev) : (ctrInc k d).out = d.out := rfl
@[simp] theorem ctrInc_fns (k : Nat) (d : Dev) : (ctrInc k d).fns = d.fns := rfl
@[simp] theorem ctrInc_queues (k : Nat) (d : Dev) : (ctrInc k d).queues = d.queues := rfl
@[simp] theorem ctrInc_pkts (k : Nat) (d : Dev) : (ctrInc k d).pkts = d.pkts := rfl
@[simp] theorem ctrInc_pktSeq (k : Nat) (d : Dev) : (ctrInc k d).pktSeq = d.pktSeq := rfl
@[simp] theorem ctrInc_hports (k : Nat) (d : Dev) : (ctrInc k d).hports = d.hports := rfl
@[simp] theorem ctrInc_doms (k : Nat) (d : Dev) : (ctrInc k d).doms = d.doms := rfl
@[simp] theorem ctrInc_fatal (k : Nat) (d : Dev) : (ctrInc k d).fatal = d.fatal := rfl
@[simp] theorem ctrInc_strs (k : Nat) (d : Dev) : (ctrInc k d).strs = d.strs := rfl
@[simp] theorem ctrInc_time (k : Nat) (d : Dev) : (ctrInc k d).time = d.time := rfl
@[simp] theorem ctrInc_taps (k : Nat) (d : Dev) : (ctrInc k d).taps = d.taps := rfl
@[simp] theorem ctrInc_stopped (k : Nat) (d : Dev) : (ctrInc k d).stopped = d.stopped := rfl
@[simp] theorem ctrInc_released (k : Nat) (d : Dev) : (ctrInc k d).released = d.released := rfl
@[simp] theorem ctrInc_errs (k : Nat) (d : Dev) : (ctrInc k d).errs = d.errs := rfl
@[simp] theorem ctrInc_errSeq (k : Nat) (d : Dev) : (ctrInc k d).errSeq = d.errSeq := rfl
@[simp] theorem ctrInc_errAck (k : Nat) (d : Dev) : (ctrInc k d).errAck = d.errAck := rfl
@[simp] theorem ctrInc_xings (k : Nat) (d : Dev) : (ctrInc k d).xings = d.xings := rfl
@[simp] theorem ctrInc_egqs (k : Nat) (d : Dev) : (ctrInc k d).egqs = d.egqs := rfl
@[simp] theorem ctrInc_rates (k : Nat) (d : Dev) : (ctrInc k d).rates = d.rates := rfl
@[simp] theorem ctrInc_ports (k : Nat) (d : Dev) : (ctrInc k d).ports = d.ports := rfl
@[simp] theorem ctrInc_cal (k : Nat) (d : Dev) : (ctrInc k d).cal = d.cal := rfl
@[simp] theorem ctrInc_calSect (k : Nat) (d : Dev) : (ctrInc k d).calSect = d.calSect := rfl
@[simp] theorem ctrInc_calRuns (k : Nat) (d : Dev) : (ctrInc k d).calRuns = d.calRuns := rfl
@[simp] theorem ctrInc_tables (k : Nat) (d : Dev) : (ctrInc k d).tables = d.tables := rfl
@[simp] theorem ctrInc_sessions (k : Nat) (d : Dev) : (ctrInc k d).sessions = d.sessions := rfl
@[simp] theorem ctrInc_policers (k : Nat) (d : Dev) : (ctrInc k d).policers = d.policers := rfl
@[simp] theorem ctrInc_rss (k : Nat) (d : Dev) : (ctrInc k d).rss = d.rss := rfl
@[simp] theorem ctrInc_deepQ (k : Nat) (d : Dev) : (ctrInc k d).deepQ = d.deepQ := rfl
@[simp] theorem ctrInc_dramQ (k : Nat) (d : Dev) : (ctrInc k d).dramQ = d.dramQ := rfl
@[simp] theorem ctrInc_dramLevel (k : Nat) (d : Dev) : (ctrInc k d).dramLevel = d.dramLevel := rfl
@[simp] theorem ctrInc_dramTick (k : Nat) (d : Dev) : (ctrInc k d).dramTick = d.dramTick := rfl
@[simp] theorem ctrInc_courses (k : Nat) (d : Dev) : (ctrInc k d).courses = d.courses := rfl
@[simp] theorem ctrInc_wit (k : Nat) (d : Dev) : (ctrInc k d).wit = d.wit := rfl
@[simp] theorem ctrInc_scheds (k : Nat) (d : Dev) : (ctrInc k d).scheds = d.scheds := rfl
@[simp] theorem ctrInc_copies (k : Nat) (d : Dev) : (ctrInc k d).copies = d.copies := rfl
@[simp] theorem ctrInc_islJobs (k : Nat) (d : Dev) : (ctrInc k d).islJobs = d.islJobs := rfl
@[simp] theorem ctrInc_comps (k : Nat) (d : Dev) : (ctrInc k d).comps = d.comps := rfl
@[simp] theorem ctrInc_untested (k : Nat) (d : Dev) : (ctrInc k d).untested = d.untested := rfl
@[simp] theorem ctrInc_calQ (k : Nat) (d : Dev) : (ctrInc k d).calQ = d.calQ := rfl
@[simp] theorem ctrInc_dram (k : Nat) (d : Dev) : (ctrInc k d).dram = d.dram := rfl
@[simp] theorem ctrInc_clusters (k : Nat) (d : Dev) : (ctrInc k d).clusters = d.clusters := rfl
@[simp] theorem ctrInc_gates (k : Nat) (d : Dev) : (ctrInc k d).gates = d.gates := rfl
@[simp] theorem ctrInc_spEpoch (k : Nat) (d : Dev) : (ctrInc k d).spEpoch = d.spEpoch := rfl
@[simp] theorem ctrInc_dbgPort (k : Nat) (d : Dev) : (ctrInc k d).dbgPort = d.dbgPort := rfl
@[simp] theorem ctrInc_dbgCores (k : Nat) (d : Dev) : (ctrInc k d).dbgCores = d.dbgCores := rfl
@[simp] theorem ctrInc_ledger (k : Nat) (d : Dev) : (ctrInc k d).ledger = d.ledger := rfl
@[simp] theorem ctrInc_power (k : Nat) (d : Dev) : (ctrInc k d).power = d.power := rfl
@[simp] theorem ctrInc_foot (k : Nat) (d : Dev) : (ctrInc k d).foot = d.foot := rfl
@[simp] theorem ctrInc_domJobs (k : Nat) (d : Dev) : (ctrInc k d).domJobs = d.domJobs := rfl
@[simp] theorem ctrInc_rstJobs (k : Nat) (d : Dev) : (ctrInc k d).rstJobs = d.rstJobs := rfl
@[simp] theorem ctrInc_mapJobs (k : Nat) (d : Dev) : (ctrInc k d).mapJobs = d.mapJobs := rfl
@[simp] theorem ctrInc_resetAt (k : Nat) (d : Dev) : (ctrInc k d).resetAt = d.resetAt := rfl
@[simp] theorem ctrInc_tripped (k : Nat) (d : Dev) : (ctrInc k d).tripped = d.tripped := rfl
@[simp] theorem ctrInc_timeDead (k : Nat) (d : Dev) : (ctrInc k d).timeDead = d.timeDead := rfl
@[simp] theorem ctrInc_hotWarn (k : Nat) (d : Dev) : (ctrInc k d).hotWarn = d.hotWarn := rfl
@[simp] theorem ctrInc_hotCrit (k : Nat) (d : Dev) : (ctrInc k d).hotCrit = d.hotCrit := rfl
@[simp] theorem ctrInc_spdmMctp (k : Nat) (d : Dev) : (ctrInc k d).spdmMctp = d.spdmMctp := rfl
@[simp] theorem ctrInc_eids (k : Nat) (d : Dev) : (ctrInc k d).eids = d.eids := rfl
@[simp] theorem ctrInc_pldm (k : Nat) (d : Dev) : (ctrInc k d).pldm = d.pldm := rfl

@[simp] theorem ctrAdd_variant (k n : Nat) (d : Dev) : (ctrAdd k n d).variant = d.variant := rfl
@[simp] theorem ctrAdd_regs (k n : Nat) (d : Dev) : (ctrAdd k n d).regs = d.regs := rfl
@[simp] theorem ctrAdd_eff (k n : Nat) (d : Dev) : (ctrAdd k n d).eff = d.eff := rfl
@[simp] theorem ctrAdd_cap (k n : Nat) (d : Dev) : (ctrAdd k n d).cap = d.cap := rfl
@[simp] theorem ctrAdd_halfRx (k n : Nat) (d : Dev) : (ctrAdd k n d).halfRx = d.halfRx := rfl
@[simp] theorem ctrAdd_halfTx (k n : Nat) (d : Dev) : (ctrAdd k n d).halfTx = d.halfTx := rfl
@[simp] theorem ctrAdd_took (k n : Nat) (d : Dev) : (ctrAdd k n d).took = d.took := rfl
@[simp] theorem ctrAdd_ctrs (k n : Nat) (d : Dev) : (ctrAdd k n d).ctrs = Tbl.set (fun _ => 0) d.ctrs k ((ctrR d k + n) % 2 ^ 64) := rfl
@[simp] theorem ctrAdd_latch (k n : Nat) (d : Dev) : (ctrAdd k n d).latch = d.latch := rfl
@[simp] theorem ctrAdd_mem (k n : Nat) (d : Dev) : (ctrAdd k n d).mem = d.mem := rfl
@[simp] theorem ctrAdd_wr (k n : Nat) (d : Dev) : (ctrAdd k n d).wr = d.wr := rfl
@[simp] theorem ctrAdd_freeIdx (k n : Nat) (d : Dev) : (ctrAdd k n d).freeIdx = d.freeIdx := rfl
@[simp] theorem ctrAdd_out (k n : Nat) (d : Dev) : (ctrAdd k n d).out = d.out := rfl
@[simp] theorem ctrAdd_fns (k n : Nat) (d : Dev) : (ctrAdd k n d).fns = d.fns := rfl
@[simp] theorem ctrAdd_queues (k n : Nat) (d : Dev) : (ctrAdd k n d).queues = d.queues := rfl
@[simp] theorem ctrAdd_pkts (k n : Nat) (d : Dev) : (ctrAdd k n d).pkts = d.pkts := rfl
@[simp] theorem ctrAdd_pktSeq (k n : Nat) (d : Dev) : (ctrAdd k n d).pktSeq = d.pktSeq := rfl
@[simp] theorem ctrAdd_hports (k n : Nat) (d : Dev) : (ctrAdd k n d).hports = d.hports := rfl
@[simp] theorem ctrAdd_doms (k n : Nat) (d : Dev) : (ctrAdd k n d).doms = d.doms := rfl
@[simp] theorem ctrAdd_fatal (k n : Nat) (d : Dev) : (ctrAdd k n d).fatal = d.fatal := rfl
@[simp] theorem ctrAdd_strs (k n : Nat) (d : Dev) : (ctrAdd k n d).strs = d.strs := rfl
@[simp] theorem ctrAdd_time (k n : Nat) (d : Dev) : (ctrAdd k n d).time = d.time := rfl
@[simp] theorem ctrAdd_taps (k n : Nat) (d : Dev) : (ctrAdd k n d).taps = d.taps := rfl
@[simp] theorem ctrAdd_stopped (k n : Nat) (d : Dev) : (ctrAdd k n d).stopped = d.stopped := rfl
@[simp] theorem ctrAdd_released (k n : Nat) (d : Dev) : (ctrAdd k n d).released = d.released := rfl
@[simp] theorem ctrAdd_errs (k n : Nat) (d : Dev) : (ctrAdd k n d).errs = d.errs := rfl
@[simp] theorem ctrAdd_errSeq (k n : Nat) (d : Dev) : (ctrAdd k n d).errSeq = d.errSeq := rfl
@[simp] theorem ctrAdd_errAck (k n : Nat) (d : Dev) : (ctrAdd k n d).errAck = d.errAck := rfl
@[simp] theorem ctrAdd_xings (k n : Nat) (d : Dev) : (ctrAdd k n d).xings = d.xings := rfl
@[simp] theorem ctrAdd_egqs (k n : Nat) (d : Dev) : (ctrAdd k n d).egqs = d.egqs := rfl
@[simp] theorem ctrAdd_rates (k n : Nat) (d : Dev) : (ctrAdd k n d).rates = d.rates := rfl
@[simp] theorem ctrAdd_ports (k n : Nat) (d : Dev) : (ctrAdd k n d).ports = d.ports := rfl
@[simp] theorem ctrAdd_cal (k n : Nat) (d : Dev) : (ctrAdd k n d).cal = d.cal := rfl
@[simp] theorem ctrAdd_calSect (k n : Nat) (d : Dev) : (ctrAdd k n d).calSect = d.calSect := rfl
@[simp] theorem ctrAdd_calRuns (k n : Nat) (d : Dev) : (ctrAdd k n d).calRuns = d.calRuns := rfl
@[simp] theorem ctrAdd_tables (k n : Nat) (d : Dev) : (ctrAdd k n d).tables = d.tables := rfl
@[simp] theorem ctrAdd_sessions (k n : Nat) (d : Dev) : (ctrAdd k n d).sessions = d.sessions := rfl
@[simp] theorem ctrAdd_policers (k n : Nat) (d : Dev) : (ctrAdd k n d).policers = d.policers := rfl
@[simp] theorem ctrAdd_rss (k n : Nat) (d : Dev) : (ctrAdd k n d).rss = d.rss := rfl
@[simp] theorem ctrAdd_deepQ (k n : Nat) (d : Dev) : (ctrAdd k n d).deepQ = d.deepQ := rfl
@[simp] theorem ctrAdd_dramQ (k n : Nat) (d : Dev) : (ctrAdd k n d).dramQ = d.dramQ := rfl
@[simp] theorem ctrAdd_dramLevel (k n : Nat) (d : Dev) : (ctrAdd k n d).dramLevel = d.dramLevel := rfl
@[simp] theorem ctrAdd_dramTick (k n : Nat) (d : Dev) : (ctrAdd k n d).dramTick = d.dramTick := rfl
@[simp] theorem ctrAdd_courses (k n : Nat) (d : Dev) : (ctrAdd k n d).courses = d.courses := rfl
@[simp] theorem ctrAdd_wit (k n : Nat) (d : Dev) : (ctrAdd k n d).wit = d.wit := rfl
@[simp] theorem ctrAdd_scheds (k n : Nat) (d : Dev) : (ctrAdd k n d).scheds = d.scheds := rfl
@[simp] theorem ctrAdd_copies (k n : Nat) (d : Dev) : (ctrAdd k n d).copies = d.copies := rfl
@[simp] theorem ctrAdd_islJobs (k n : Nat) (d : Dev) : (ctrAdd k n d).islJobs = d.islJobs := rfl
@[simp] theorem ctrAdd_comps (k n : Nat) (d : Dev) : (ctrAdd k n d).comps = d.comps := rfl
@[simp] theorem ctrAdd_untested (k n : Nat) (d : Dev) : (ctrAdd k n d).untested = d.untested := rfl
@[simp] theorem ctrAdd_calQ (k n : Nat) (d : Dev) : (ctrAdd k n d).calQ = d.calQ := rfl
@[simp] theorem ctrAdd_dram (k n : Nat) (d : Dev) : (ctrAdd k n d).dram = d.dram := rfl
@[simp] theorem ctrAdd_clusters (k n : Nat) (d : Dev) : (ctrAdd k n d).clusters = d.clusters := rfl
@[simp] theorem ctrAdd_gates (k n : Nat) (d : Dev) : (ctrAdd k n d).gates = d.gates := rfl
@[simp] theorem ctrAdd_spEpoch (k n : Nat) (d : Dev) : (ctrAdd k n d).spEpoch = d.spEpoch := rfl
@[simp] theorem ctrAdd_dbgPort (k n : Nat) (d : Dev) : (ctrAdd k n d).dbgPort = d.dbgPort := rfl
@[simp] theorem ctrAdd_dbgCores (k n : Nat) (d : Dev) : (ctrAdd k n d).dbgCores = d.dbgCores := rfl
@[simp] theorem ctrAdd_ledger (k n : Nat) (d : Dev) : (ctrAdd k n d).ledger = d.ledger := rfl
@[simp] theorem ctrAdd_power (k n : Nat) (d : Dev) : (ctrAdd k n d).power = d.power := rfl
@[simp] theorem ctrAdd_foot (k n : Nat) (d : Dev) : (ctrAdd k n d).foot = d.foot := rfl
@[simp] theorem ctrAdd_domJobs (k n : Nat) (d : Dev) : (ctrAdd k n d).domJobs = d.domJobs := rfl
@[simp] theorem ctrAdd_rstJobs (k n : Nat) (d : Dev) : (ctrAdd k n d).rstJobs = d.rstJobs := rfl
@[simp] theorem ctrAdd_mapJobs (k n : Nat) (d : Dev) : (ctrAdd k n d).mapJobs = d.mapJobs := rfl
@[simp] theorem ctrAdd_resetAt (k n : Nat) (d : Dev) : (ctrAdd k n d).resetAt = d.resetAt := rfl
@[simp] theorem ctrAdd_tripped (k n : Nat) (d : Dev) : (ctrAdd k n d).tripped = d.tripped := rfl
@[simp] theorem ctrAdd_timeDead (k n : Nat) (d : Dev) : (ctrAdd k n d).timeDead = d.timeDead := rfl
@[simp] theorem ctrAdd_hotWarn (k n : Nat) (d : Dev) : (ctrAdd k n d).hotWarn = d.hotWarn := rfl
@[simp] theorem ctrAdd_hotCrit (k n : Nat) (d : Dev) : (ctrAdd k n d).hotCrit = d.hotCrit := rfl
@[simp] theorem ctrAdd_spdmMctp (k n : Nat) (d : Dev) : (ctrAdd k n d).spdmMctp = d.spdmMctp := rfl
@[simp] theorem ctrAdd_eids (k n : Nat) (d : Dev) : (ctrAdd k n d).eids = d.eids := rfl
@[simp] theorem ctrAdd_pldm (k n : Nat) (d : Dev) : (ctrAdd k n d).pldm = d.pldm := rfl

@[simp] theorem ctrW_variant (k v : Nat) (d : Dev) : (ctrW k v d).variant = d.variant := rfl
@[simp] theorem ctrW_regs (k v : Nat) (d : Dev) : (ctrW k v d).regs = d.regs := rfl
@[simp] theorem ctrW_eff (k v : Nat) (d : Dev) : (ctrW k v d).eff = d.eff := rfl
@[simp] theorem ctrW_cap (k v : Nat) (d : Dev) : (ctrW k v d).cap = d.cap := rfl
@[simp] theorem ctrW_halfRx (k v : Nat) (d : Dev) : (ctrW k v d).halfRx = d.halfRx := rfl
@[simp] theorem ctrW_halfTx (k v : Nat) (d : Dev) : (ctrW k v d).halfTx = d.halfTx := rfl
@[simp] theorem ctrW_took (k v : Nat) (d : Dev) : (ctrW k v d).took = d.took := rfl
@[simp] theorem ctrW_ctrs (k v : Nat) (d : Dev) : (ctrW k v d).ctrs = Tbl.set (fun _ => 0) d.ctrs k v := rfl
@[simp] theorem ctrW_latch (k v : Nat) (d : Dev) : (ctrW k v d).latch = d.latch := rfl
@[simp] theorem ctrW_mem (k v : Nat) (d : Dev) : (ctrW k v d).mem = d.mem := rfl
@[simp] theorem ctrW_wr (k v : Nat) (d : Dev) : (ctrW k v d).wr = d.wr := rfl
@[simp] theorem ctrW_freeIdx (k v : Nat) (d : Dev) : (ctrW k v d).freeIdx = d.freeIdx := rfl
@[simp] theorem ctrW_out (k v : Nat) (d : Dev) : (ctrW k v d).out = d.out := rfl
@[simp] theorem ctrW_fns (k v : Nat) (d : Dev) : (ctrW k v d).fns = d.fns := rfl
@[simp] theorem ctrW_queues (k v : Nat) (d : Dev) : (ctrW k v d).queues = d.queues := rfl
@[simp] theorem ctrW_pkts (k v : Nat) (d : Dev) : (ctrW k v d).pkts = d.pkts := rfl
@[simp] theorem ctrW_pktSeq (k v : Nat) (d : Dev) : (ctrW k v d).pktSeq = d.pktSeq := rfl
@[simp] theorem ctrW_hports (k v : Nat) (d : Dev) : (ctrW k v d).hports = d.hports := rfl
@[simp] theorem ctrW_doms (k v : Nat) (d : Dev) : (ctrW k v d).doms = d.doms := rfl
@[simp] theorem ctrW_fatal (k v : Nat) (d : Dev) : (ctrW k v d).fatal = d.fatal := rfl
@[simp] theorem ctrW_strs (k v : Nat) (d : Dev) : (ctrW k v d).strs = d.strs := rfl
@[simp] theorem ctrW_time (k v : Nat) (d : Dev) : (ctrW k v d).time = d.time := rfl
@[simp] theorem ctrW_taps (k v : Nat) (d : Dev) : (ctrW k v d).taps = d.taps := rfl
@[simp] theorem ctrW_stopped (k v : Nat) (d : Dev) : (ctrW k v d).stopped = d.stopped := rfl
@[simp] theorem ctrW_released (k v : Nat) (d : Dev) : (ctrW k v d).released = d.released := rfl
@[simp] theorem ctrW_errs (k v : Nat) (d : Dev) : (ctrW k v d).errs = d.errs := rfl
@[simp] theorem ctrW_errSeq (k v : Nat) (d : Dev) : (ctrW k v d).errSeq = d.errSeq := rfl
@[simp] theorem ctrW_errAck (k v : Nat) (d : Dev) : (ctrW k v d).errAck = d.errAck := rfl
@[simp] theorem ctrW_xings (k v : Nat) (d : Dev) : (ctrW k v d).xings = d.xings := rfl
@[simp] theorem ctrW_egqs (k v : Nat) (d : Dev) : (ctrW k v d).egqs = d.egqs := rfl
@[simp] theorem ctrW_rates (k v : Nat) (d : Dev) : (ctrW k v d).rates = d.rates := rfl
@[simp] theorem ctrW_ports (k v : Nat) (d : Dev) : (ctrW k v d).ports = d.ports := rfl
@[simp] theorem ctrW_cal (k v : Nat) (d : Dev) : (ctrW k v d).cal = d.cal := rfl
@[simp] theorem ctrW_calSect (k v : Nat) (d : Dev) : (ctrW k v d).calSect = d.calSect := rfl
@[simp] theorem ctrW_calRuns (k v : Nat) (d : Dev) : (ctrW k v d).calRuns = d.calRuns := rfl
@[simp] theorem ctrW_tables (k v : Nat) (d : Dev) : (ctrW k v d).tables = d.tables := rfl
@[simp] theorem ctrW_sessions (k v : Nat) (d : Dev) : (ctrW k v d).sessions = d.sessions := rfl
@[simp] theorem ctrW_policers (k v : Nat) (d : Dev) : (ctrW k v d).policers = d.policers := rfl
@[simp] theorem ctrW_rss (k v : Nat) (d : Dev) : (ctrW k v d).rss = d.rss := rfl
@[simp] theorem ctrW_deepQ (k v : Nat) (d : Dev) : (ctrW k v d).deepQ = d.deepQ := rfl
@[simp] theorem ctrW_dramQ (k v : Nat) (d : Dev) : (ctrW k v d).dramQ = d.dramQ := rfl
@[simp] theorem ctrW_dramLevel (k v : Nat) (d : Dev) : (ctrW k v d).dramLevel = d.dramLevel := rfl
@[simp] theorem ctrW_dramTick (k v : Nat) (d : Dev) : (ctrW k v d).dramTick = d.dramTick := rfl
@[simp] theorem ctrW_courses (k v : Nat) (d : Dev) : (ctrW k v d).courses = d.courses := rfl
@[simp] theorem ctrW_wit (k v : Nat) (d : Dev) : (ctrW k v d).wit = d.wit := rfl
@[simp] theorem ctrW_scheds (k v : Nat) (d : Dev) : (ctrW k v d).scheds = d.scheds := rfl
@[simp] theorem ctrW_copies (k v : Nat) (d : Dev) : (ctrW k v d).copies = d.copies := rfl
@[simp] theorem ctrW_islJobs (k v : Nat) (d : Dev) : (ctrW k v d).islJobs = d.islJobs := rfl
@[simp] theorem ctrW_comps (k v : Nat) (d : Dev) : (ctrW k v d).comps = d.comps := rfl
@[simp] theorem ctrW_untested (k v : Nat) (d : Dev) : (ctrW k v d).untested = d.untested := rfl
@[simp] theorem ctrW_calQ (k v : Nat) (d : Dev) : (ctrW k v d).calQ = d.calQ := rfl
@[simp] theorem ctrW_dram (k v : Nat) (d : Dev) : (ctrW k v d).dram = d.dram := rfl
@[simp] theorem ctrW_clusters (k v : Nat) (d : Dev) : (ctrW k v d).clusters = d.clusters := rfl
@[simp] theorem ctrW_gates (k v : Nat) (d : Dev) : (ctrW k v d).gates = d.gates := rfl
@[simp] theorem ctrW_spEpoch (k v : Nat) (d : Dev) : (ctrW k v d).spEpoch = d.spEpoch := rfl
@[simp] theorem ctrW_dbgPort (k v : Nat) (d : Dev) : (ctrW k v d).dbgPort = d.dbgPort := rfl
@[simp] theorem ctrW_dbgCores (k v : Nat) (d : Dev) : (ctrW k v d).dbgCores = d.dbgCores := rfl
@[simp] theorem ctrW_ledger (k v : Nat) (d : Dev) : (ctrW k v d).ledger = d.ledger := rfl
@[simp] theorem ctrW_power (k v : Nat) (d : Dev) : (ctrW k v d).power = d.power := rfl
@[simp] theorem ctrW_foot (k v : Nat) (d : Dev) : (ctrW k v d).foot = d.foot := rfl
@[simp] theorem ctrW_domJobs (k v : Nat) (d : Dev) : (ctrW k v d).domJobs = d.domJobs := rfl
@[simp] theorem ctrW_rstJobs (k v : Nat) (d : Dev) : (ctrW k v d).rstJobs = d.rstJobs := rfl
@[simp] theorem ctrW_mapJobs (k v : Nat) (d : Dev) : (ctrW k v d).mapJobs = d.mapJobs := rfl
@[simp] theorem ctrW_resetAt (k v : Nat) (d : Dev) : (ctrW k v d).resetAt = d.resetAt := rfl
@[simp] theorem ctrW_tripped (k v : Nat) (d : Dev) : (ctrW k v d).tripped = d.tripped := rfl
@[simp] theorem ctrW_timeDead (k v : Nat) (d : Dev) : (ctrW k v d).timeDead = d.timeDead := rfl
@[simp] theorem ctrW_hotWarn (k v : Nat) (d : Dev) : (ctrW k v d).hotWarn = d.hotWarn := rfl
@[simp] theorem ctrW_hotCrit (k v : Nat) (d : Dev) : (ctrW k v d).hotCrit = d.hotCrit := rfl
@[simp] theorem ctrW_spdmMctp (k v : Nat) (d : Dev) : (ctrW k v d).spdmMctp = d.spdmMctp := rfl
@[simp] theorem ctrW_eids (k v : Nat) (d : Dev) : (ctrW k v d).eids = d.eids := rfl
@[simp] theorem ctrW_pldm (k v : Nat) (d : Dev) : (ctrW k v d).pldm = d.pldm := rfl

@[simp] theorem fnU_variant (f : Nat) (g : Fn → Fn) (d : Dev) : (fnU f g d).variant = d.variant := rfl
@[simp] theorem fnU_regs (f : Nat) (g : Fn → Fn) (d : Dev) : (fnU f g d).regs = d.regs := rfl
@[simp] theorem fnU_eff (f : Nat) (g : Fn → Fn) (d : Dev) : (fnU f g d).eff = d.eff := rfl
@[simp] theorem fnU_cap (f : Nat) (g : Fn → Fn) (d : Dev) : (fnU f g d).cap = d.cap := rfl
@[simp] theorem fnU_halfRx (f : Nat) (g : Fn → Fn) (d : Dev) : (fnU f g d).halfRx = d.halfRx := rfl
@[simp] theorem fnU_halfTx (f : Nat) (g : Fn → Fn) (d : Dev) : (fnU f g d).halfTx = d.halfTx := rfl
@[simp] theorem fnU_took (f : Nat) (g : Fn → Fn) (d : Dev) : (fnU f g d).took = d.took := rfl
@[simp] theorem fnU_ctrs (f : Nat) (g : Fn → Fn) (d : Dev) : (fnU f g d).ctrs = d.ctrs := rfl
@[simp] theorem fnU_latch (f : Nat) (g : Fn → Fn) (d : Dev) : (fnU f g d).latch = d.latch := rfl
@[simp] theorem fnU_mem (f : Nat) (g : Fn → Fn) (d : Dev) : (fnU f g d).mem = d.mem := rfl
@[simp] theorem fnU_wr (f : Nat) (g : Fn → Fn) (d : Dev) : (fnU f g d).wr = d.wr := rfl
@[simp] theorem fnU_freeIdx (f : Nat) (g : Fn → Fn) (d : Dev) : (fnU f g d).freeIdx = d.freeIdx := rfl
@[simp] theorem fnU_out (f : Nat) (g : Fn → Fn) (d : Dev) : (fnU f g d).out = d.out := rfl
@[simp] theorem fnU_fns (f : Nat) (g : Fn → Fn) (d : Dev) : (fnU f g d).fns = Tbl.upd (fun _ => {}) d.fns f g := rfl
@[simp] theorem fnU_queues (f : Nat) (g : Fn → Fn) (d : Dev) : (fnU f g d).queues = d.queues := rfl
@[simp] theorem fnU_pkts (f : Nat) (g : Fn → Fn) (d : Dev) : (fnU f g d).pkts = d.pkts := rfl
@[simp] theorem fnU_pktSeq (f : Nat) (g : Fn → Fn) (d : Dev) : (fnU f g d).pktSeq = d.pktSeq := rfl
@[simp] theorem fnU_hports (f : Nat) (g : Fn → Fn) (d : Dev) : (fnU f g d).hports = d.hports := rfl
@[simp] theorem fnU_doms (f : Nat) (g : Fn → Fn) (d : Dev) : (fnU f g d).doms = d.doms := rfl
@[simp] theorem fnU_fatal (f : Nat) (g : Fn → Fn) (d : Dev) : (fnU f g d).fatal = d.fatal := rfl
@[simp] theorem fnU_strs (f : Nat) (g : Fn → Fn) (d : Dev) : (fnU f g d).strs = d.strs := rfl
@[simp] theorem fnU_time (f : Nat) (g : Fn → Fn) (d : Dev) : (fnU f g d).time = d.time := rfl
@[simp] theorem fnU_taps (f : Nat) (g : Fn → Fn) (d : Dev) : (fnU f g d).taps = d.taps := rfl
@[simp] theorem fnU_stopped (f : Nat) (g : Fn → Fn) (d : Dev) : (fnU f g d).stopped = d.stopped := rfl
@[simp] theorem fnU_released (f : Nat) (g : Fn → Fn) (d : Dev) : (fnU f g d).released = d.released := rfl
@[simp] theorem fnU_errs (f : Nat) (g : Fn → Fn) (d : Dev) : (fnU f g d).errs = d.errs := rfl
@[simp] theorem fnU_errSeq (f : Nat) (g : Fn → Fn) (d : Dev) : (fnU f g d).errSeq = d.errSeq := rfl
@[simp] theorem fnU_errAck (f : Nat) (g : Fn → Fn) (d : Dev) : (fnU f g d).errAck = d.errAck := rfl
@[simp] theorem fnU_xings (f : Nat) (g : Fn → Fn) (d : Dev) : (fnU f g d).xings = d.xings := rfl
@[simp] theorem fnU_egqs (f : Nat) (g : Fn → Fn) (d : Dev) : (fnU f g d).egqs = d.egqs := rfl
@[simp] theorem fnU_rates (f : Nat) (g : Fn → Fn) (d : Dev) : (fnU f g d).rates = d.rates := rfl
@[simp] theorem fnU_ports (f : Nat) (g : Fn → Fn) (d : Dev) : (fnU f g d).ports = d.ports := rfl
@[simp] theorem fnU_cal (f : Nat) (g : Fn → Fn) (d : Dev) : (fnU f g d).cal = d.cal := rfl
@[simp] theorem fnU_calSect (f : Nat) (g : Fn → Fn) (d : Dev) : (fnU f g d).calSect = d.calSect := rfl
@[simp] theorem fnU_calRuns (f : Nat) (g : Fn → Fn) (d : Dev) : (fnU f g d).calRuns = d.calRuns := rfl
@[simp] theorem fnU_tables (f : Nat) (g : Fn → Fn) (d : Dev) : (fnU f g d).tables = d.tables := rfl
@[simp] theorem fnU_sessions (f : Nat) (g : Fn → Fn) (d : Dev) : (fnU f g d).sessions = d.sessions := rfl
@[simp] theorem fnU_policers (f : Nat) (g : Fn → Fn) (d : Dev) : (fnU f g d).policers = d.policers := rfl
@[simp] theorem fnU_rss (f : Nat) (g : Fn → Fn) (d : Dev) : (fnU f g d).rss = d.rss := rfl
@[simp] theorem fnU_deepQ (f : Nat) (g : Fn → Fn) (d : Dev) : (fnU f g d).deepQ = d.deepQ := rfl
@[simp] theorem fnU_dramQ (f : Nat) (g : Fn → Fn) (d : Dev) : (fnU f g d).dramQ = d.dramQ := rfl
@[simp] theorem fnU_dramLevel (f : Nat) (g : Fn → Fn) (d : Dev) : (fnU f g d).dramLevel = d.dramLevel := rfl
@[simp] theorem fnU_dramTick (f : Nat) (g : Fn → Fn) (d : Dev) : (fnU f g d).dramTick = d.dramTick := rfl
@[simp] theorem fnU_courses (f : Nat) (g : Fn → Fn) (d : Dev) : (fnU f g d).courses = d.courses := rfl
@[simp] theorem fnU_wit (f : Nat) (g : Fn → Fn) (d : Dev) : (fnU f g d).wit = d.wit := rfl
@[simp] theorem fnU_scheds (f : Nat) (g : Fn → Fn) (d : Dev) : (fnU f g d).scheds = d.scheds := rfl
@[simp] theorem fnU_copies (f : Nat) (g : Fn → Fn) (d : Dev) : (fnU f g d).copies = d.copies := rfl
@[simp] theorem fnU_islJobs (f : Nat) (g : Fn → Fn) (d : Dev) : (fnU f g d).islJobs = d.islJobs := rfl
@[simp] theorem fnU_comps (f : Nat) (g : Fn → Fn) (d : Dev) : (fnU f g d).comps = d.comps := rfl
@[simp] theorem fnU_untested (f : Nat) (g : Fn → Fn) (d : Dev) : (fnU f g d).untested = d.untested := rfl
@[simp] theorem fnU_calQ (f : Nat) (g : Fn → Fn) (d : Dev) : (fnU f g d).calQ = d.calQ := rfl
@[simp] theorem fnU_dram (f : Nat) (g : Fn → Fn) (d : Dev) : (fnU f g d).dram = d.dram := rfl
@[simp] theorem fnU_clusters (f : Nat) (g : Fn → Fn) (d : Dev) : (fnU f g d).clusters = d.clusters := rfl
@[simp] theorem fnU_gates (f : Nat) (g : Fn → Fn) (d : Dev) : (fnU f g d).gates = d.gates := rfl
@[simp] theorem fnU_spEpoch (f : Nat) (g : Fn → Fn) (d : Dev) : (fnU f g d).spEpoch = d.spEpoch := rfl
@[simp] theorem fnU_dbgPort (f : Nat) (g : Fn → Fn) (d : Dev) : (fnU f g d).dbgPort = d.dbgPort := rfl
@[simp] theorem fnU_dbgCores (f : Nat) (g : Fn → Fn) (d : Dev) : (fnU f g d).dbgCores = d.dbgCores := rfl
@[simp] theorem fnU_ledger (f : Nat) (g : Fn → Fn) (d : Dev) : (fnU f g d).ledger = d.ledger := rfl
@[simp] theorem fnU_power (f : Nat) (g : Fn → Fn) (d : Dev) : (fnU f g d).power = d.power := rfl
@[simp] theorem fnU_foot (f : Nat) (g : Fn → Fn) (d : Dev) : (fnU f g d).foot = d.foot := rfl
@[simp] theorem fnU_domJobs (f : Nat) (g : Fn → Fn) (d : Dev) : (fnU f g d).domJobs = d.domJobs := rfl
@[simp] theorem fnU_rstJobs (f : Nat) (g : Fn → Fn) (d : Dev) : (fnU f g d).rstJobs = d.rstJobs := rfl
@[simp] theorem fnU_mapJobs (f : Nat) (g : Fn → Fn) (d : Dev) : (fnU f g d).mapJobs = d.mapJobs := rfl
@[simp] theorem fnU_resetAt (f : Nat) (g : Fn → Fn) (d : Dev) : (fnU f g d).resetAt = d.resetAt := rfl
@[simp] theorem fnU_tripped (f : Nat) (g : Fn → Fn) (d : Dev) : (fnU f g d).tripped = d.tripped := rfl
@[simp] theorem fnU_timeDead (f : Nat) (g : Fn → Fn) (d : Dev) : (fnU f g d).timeDead = d.timeDead := rfl
@[simp] theorem fnU_hotWarn (f : Nat) (g : Fn → Fn) (d : Dev) : (fnU f g d).hotWarn = d.hotWarn := rfl
@[simp] theorem fnU_hotCrit (f : Nat) (g : Fn → Fn) (d : Dev) : (fnU f g d).hotCrit = d.hotCrit := rfl
@[simp] theorem fnU_spdmMctp (f : Nat) (g : Fn → Fn) (d : Dev) : (fnU f g d).spdmMctp = d.spdmMctp := rfl
@[simp] theorem fnU_eids (f : Nat) (g : Fn → Fn) (d : Dev) : (fnU f g d).eids = d.eids := rfl
@[simp] theorem fnU_pldm (f : Nat) (g : Fn → Fn) (d : Dev) : (fnU f g d).pldm = d.pldm := rfl

@[simp] theorem hpU_variant (h : Nat) (g : HostPort → HostPort) (d : Dev) : (hpU h g d).variant = d.variant := rfl
@[simp] theorem hpU_regs (h : Nat) (g : HostPort → HostPort) (d : Dev) : (hpU h g d).regs = d.regs := rfl
@[simp] theorem hpU_eff (h : Nat) (g : HostPort → HostPort) (d : Dev) : (hpU h g d).eff = d.eff := rfl
@[simp] theorem hpU_cap (h : Nat) (g : HostPort → HostPort) (d : Dev) : (hpU h g d).cap = d.cap := rfl
@[simp] theorem hpU_halfRx (h : Nat) (g : HostPort → HostPort) (d : Dev) : (hpU h g d).halfRx = d.halfRx := rfl
@[simp] theorem hpU_halfTx (h : Nat) (g : HostPort → HostPort) (d : Dev) : (hpU h g d).halfTx = d.halfTx := rfl
@[simp] theorem hpU_took (h : Nat) (g : HostPort → HostPort) (d : Dev) : (hpU h g d).took = d.took := rfl
@[simp] theorem hpU_ctrs (h : Nat) (g : HostPort → HostPort) (d : Dev) : (hpU h g d).ctrs = d.ctrs := rfl
@[simp] theorem hpU_latch (h : Nat) (g : HostPort → HostPort) (d : Dev) : (hpU h g d).latch = d.latch := rfl
@[simp] theorem hpU_mem (h : Nat) (g : HostPort → HostPort) (d : Dev) : (hpU h g d).mem = d.mem := rfl
@[simp] theorem hpU_wr (h : Nat) (g : HostPort → HostPort) (d : Dev) : (hpU h g d).wr = d.wr := rfl
@[simp] theorem hpU_freeIdx (h : Nat) (g : HostPort → HostPort) (d : Dev) : (hpU h g d).freeIdx = d.freeIdx := rfl
@[simp] theorem hpU_out (h : Nat) (g : HostPort → HostPort) (d : Dev) : (hpU h g d).out = d.out := rfl
@[simp] theorem hpU_fns (h : Nat) (g : HostPort → HostPort) (d : Dev) : (hpU h g d).fns = d.fns := rfl
@[simp] theorem hpU_queues (h : Nat) (g : HostPort → HostPort) (d : Dev) : (hpU h g d).queues = d.queues := rfl
@[simp] theorem hpU_pkts (h : Nat) (g : HostPort → HostPort) (d : Dev) : (hpU h g d).pkts = d.pkts := rfl
@[simp] theorem hpU_pktSeq (h : Nat) (g : HostPort → HostPort) (d : Dev) : (hpU h g d).pktSeq = d.pktSeq := rfl
@[simp] theorem hpU_hports (h : Nat) (g : HostPort → HostPort) (d : Dev) : (hpU h g d).hports = Tbl.upd (fun _ => {}) d.hports h g := rfl
@[simp] theorem hpU_doms (h : Nat) (g : HostPort → HostPort) (d : Dev) : (hpU h g d).doms = d.doms := rfl
@[simp] theorem hpU_fatal (h : Nat) (g : HostPort → HostPort) (d : Dev) : (hpU h g d).fatal = d.fatal := rfl
@[simp] theorem hpU_strs (h : Nat) (g : HostPort → HostPort) (d : Dev) : (hpU h g d).strs = d.strs := rfl
@[simp] theorem hpU_time (h : Nat) (g : HostPort → HostPort) (d : Dev) : (hpU h g d).time = d.time := rfl
@[simp] theorem hpU_taps (h : Nat) (g : HostPort → HostPort) (d : Dev) : (hpU h g d).taps = d.taps := rfl
@[simp] theorem hpU_stopped (h : Nat) (g : HostPort → HostPort) (d : Dev) : (hpU h g d).stopped = d.stopped := rfl
@[simp] theorem hpU_released (h : Nat) (g : HostPort → HostPort) (d : Dev) : (hpU h g d).released = d.released := rfl
@[simp] theorem hpU_errs (h : Nat) (g : HostPort → HostPort) (d : Dev) : (hpU h g d).errs = d.errs := rfl
@[simp] theorem hpU_errSeq (h : Nat) (g : HostPort → HostPort) (d : Dev) : (hpU h g d).errSeq = d.errSeq := rfl
@[simp] theorem hpU_errAck (h : Nat) (g : HostPort → HostPort) (d : Dev) : (hpU h g d).errAck = d.errAck := rfl
@[simp] theorem hpU_xings (h : Nat) (g : HostPort → HostPort) (d : Dev) : (hpU h g d).xings = d.xings := rfl
@[simp] theorem hpU_egqs (h : Nat) (g : HostPort → HostPort) (d : Dev) : (hpU h g d).egqs = d.egqs := rfl
@[simp] theorem hpU_rates (h : Nat) (g : HostPort → HostPort) (d : Dev) : (hpU h g d).rates = d.rates := rfl
@[simp] theorem hpU_ports (h : Nat) (g : HostPort → HostPort) (d : Dev) : (hpU h g d).ports = d.ports := rfl
@[simp] theorem hpU_cal (h : Nat) (g : HostPort → HostPort) (d : Dev) : (hpU h g d).cal = d.cal := rfl
@[simp] theorem hpU_calSect (h : Nat) (g : HostPort → HostPort) (d : Dev) : (hpU h g d).calSect = d.calSect := rfl
@[simp] theorem hpU_calRuns (h : Nat) (g : HostPort → HostPort) (d : Dev) : (hpU h g d).calRuns = d.calRuns := rfl
@[simp] theorem hpU_tables (h : Nat) (g : HostPort → HostPort) (d : Dev) : (hpU h g d).tables = d.tables := rfl
@[simp] theorem hpU_sessions (h : Nat) (g : HostPort → HostPort) (d : Dev) : (hpU h g d).sessions = d.sessions := rfl
@[simp] theorem hpU_policers (h : Nat) (g : HostPort → HostPort) (d : Dev) : (hpU h g d).policers = d.policers := rfl
@[simp] theorem hpU_rss (h : Nat) (g : HostPort → HostPort) (d : Dev) : (hpU h g d).rss = d.rss := rfl
@[simp] theorem hpU_deepQ (h : Nat) (g : HostPort → HostPort) (d : Dev) : (hpU h g d).deepQ = d.deepQ := rfl
@[simp] theorem hpU_dramQ (h : Nat) (g : HostPort → HostPort) (d : Dev) : (hpU h g d).dramQ = d.dramQ := rfl
@[simp] theorem hpU_dramLevel (h : Nat) (g : HostPort → HostPort) (d : Dev) : (hpU h g d).dramLevel = d.dramLevel := rfl
@[simp] theorem hpU_dramTick (h : Nat) (g : HostPort → HostPort) (d : Dev) : (hpU h g d).dramTick = d.dramTick := rfl
@[simp] theorem hpU_courses (h : Nat) (g : HostPort → HostPort) (d : Dev) : (hpU h g d).courses = d.courses := rfl
@[simp] theorem hpU_wit (h : Nat) (g : HostPort → HostPort) (d : Dev) : (hpU h g d).wit = d.wit := rfl
@[simp] theorem hpU_scheds (h : Nat) (g : HostPort → HostPort) (d : Dev) : (hpU h g d).scheds = d.scheds := rfl
@[simp] theorem hpU_copies (h : Nat) (g : HostPort → HostPort) (d : Dev) : (hpU h g d).copies = d.copies := rfl
@[simp] theorem hpU_islJobs (h : Nat) (g : HostPort → HostPort) (d : Dev) : (hpU h g d).islJobs = d.islJobs := rfl
@[simp] theorem hpU_comps (h : Nat) (g : HostPort → HostPort) (d : Dev) : (hpU h g d).comps = d.comps := rfl
@[simp] theorem hpU_untested (h : Nat) (g : HostPort → HostPort) (d : Dev) : (hpU h g d).untested = d.untested := rfl
@[simp] theorem hpU_calQ (h : Nat) (g : HostPort → HostPort) (d : Dev) : (hpU h g d).calQ = d.calQ := rfl
@[simp] theorem hpU_dram (h : Nat) (g : HostPort → HostPort) (d : Dev) : (hpU h g d).dram = d.dram := rfl
@[simp] theorem hpU_clusters (h : Nat) (g : HostPort → HostPort) (d : Dev) : (hpU h g d).clusters = d.clusters := rfl
@[simp] theorem hpU_gates (h : Nat) (g : HostPort → HostPort) (d : Dev) : (hpU h g d).gates = d.gates := rfl
@[simp] theorem hpU_spEpoch (h : Nat) (g : HostPort → HostPort) (d : Dev) : (hpU h g d).spEpoch = d.spEpoch := rfl
@[simp] theorem hpU_dbgPort (h : Nat) (g : HostPort → HostPort) (d : Dev) : (hpU h g d).dbgPort = d.dbgPort := rfl
@[simp] theorem hpU_dbgCores (h : Nat) (g : HostPort → HostPort) (d : Dev) : (hpU h g d).dbgCores = d.dbgCores := rfl
@[simp] theorem hpU_ledger (h : Nat) (g : HostPort → HostPort) (d : Dev) : (hpU h g d).ledger = d.ledger := rfl
@[simp] theorem hpU_power (h : Nat) (g : HostPort → HostPort) (d : Dev) : (hpU h g d).power = d.power := rfl
@[simp] theorem hpU_foot (h : Nat) (g : HostPort → HostPort) (d : Dev) : (hpU h g d).foot = d.foot := rfl
@[simp] theorem hpU_domJobs (h : Nat) (g : HostPort → HostPort) (d : Dev) : (hpU h g d).domJobs = d.domJobs := rfl
@[simp] theorem hpU_rstJobs (h : Nat) (g : HostPort → HostPort) (d : Dev) : (hpU h g d).rstJobs = d.rstJobs := rfl
@[simp] theorem hpU_mapJobs (h : Nat) (g : HostPort → HostPort) (d : Dev) : (hpU h g d).mapJobs = d.mapJobs := rfl
@[simp] theorem hpU_resetAt (h : Nat) (g : HostPort → HostPort) (d : Dev) : (hpU h g d).resetAt = d.resetAt := rfl
@[simp] theorem hpU_tripped (h : Nat) (g : HostPort → HostPort) (d : Dev) : (hpU h g d).tripped = d.tripped := rfl
@[simp] theorem hpU_timeDead (h : Nat) (g : HostPort → HostPort) (d : Dev) : (hpU h g d).timeDead = d.timeDead := rfl
@[simp] theorem hpU_hotWarn (h : Nat) (g : HostPort → HostPort) (d : Dev) : (hpU h g d).hotWarn = d.hotWarn := rfl
@[simp] theorem hpU_hotCrit (h : Nat) (g : HostPort → HostPort) (d : Dev) : (hpU h g d).hotCrit = d.hotCrit := rfl
@[simp] theorem hpU_spdmMctp (h : Nat) (g : HostPort → HostPort) (d : Dev) : (hpU h g d).spdmMctp = d.spdmMctp := rfl
@[simp] theorem hpU_eids (h : Nat) (g : HostPort → HostPort) (d : Dev) : (hpU h g d).eids = d.eids := rfl
@[simp] theorem hpU_pldm (h : Nat) (g : HostPort → HostPort) (d : Dev) : (hpU h g d).pldm = d.pldm := rfl

@[simp] theorem domU_variant (n : Nat) (g : Dom → Dom) (d : Dev) : (domU n g d).variant = d.variant := rfl
@[simp] theorem domU_regs (n : Nat) (g : Dom → Dom) (d : Dev) : (domU n g d).regs = d.regs := rfl
@[simp] theorem domU_eff (n : Nat) (g : Dom → Dom) (d : Dev) : (domU n g d).eff = d.eff := rfl
@[simp] theorem domU_cap (n : Nat) (g : Dom → Dom) (d : Dev) : (domU n g d).cap = d.cap := rfl
@[simp] theorem domU_halfRx (n : Nat) (g : Dom → Dom) (d : Dev) : (domU n g d).halfRx = d.halfRx := rfl
@[simp] theorem domU_halfTx (n : Nat) (g : Dom → Dom) (d : Dev) : (domU n g d).halfTx = d.halfTx := rfl
@[simp] theorem domU_took (n : Nat) (g : Dom → Dom) (d : Dev) : (domU n g d).took = d.took := rfl
@[simp] theorem domU_ctrs (n : Nat) (g : Dom → Dom) (d : Dev) : (domU n g d).ctrs = d.ctrs := rfl
@[simp] theorem domU_latch (n : Nat) (g : Dom → Dom) (d : Dev) : (domU n g d).latch = d.latch := rfl
@[simp] theorem domU_mem (n : Nat) (g : Dom → Dom) (d : Dev) : (domU n g d).mem = d.mem := rfl
@[simp] theorem domU_wr (n : Nat) (g : Dom → Dom) (d : Dev) : (domU n g d).wr = d.wr := rfl
@[simp] theorem domU_freeIdx (n : Nat) (g : Dom → Dom) (d : Dev) : (domU n g d).freeIdx = d.freeIdx := rfl
@[simp] theorem domU_out (n : Nat) (g : Dom → Dom) (d : Dev) : (domU n g d).out = d.out := rfl
@[simp] theorem domU_fns (n : Nat) (g : Dom → Dom) (d : Dev) : (domU n g d).fns = d.fns := rfl
@[simp] theorem domU_queues (n : Nat) (g : Dom → Dom) (d : Dev) : (domU n g d).queues = d.queues := rfl
@[simp] theorem domU_pkts (n : Nat) (g : Dom → Dom) (d : Dev) : (domU n g d).pkts = d.pkts := rfl
@[simp] theorem domU_pktSeq (n : Nat) (g : Dom → Dom) (d : Dev) : (domU n g d).pktSeq = d.pktSeq := rfl
@[simp] theorem domU_hports (n : Nat) (g : Dom → Dom) (d : Dev) : (domU n g d).hports = d.hports := rfl
@[simp] theorem domU_doms (n : Nat) (g : Dom → Dom) (d : Dev) : (domU n g d).doms = Tbl.upd (fun _ => {}) d.doms n g := rfl
@[simp] theorem domU_fatal (n : Nat) (g : Dom → Dom) (d : Dev) : (domU n g d).fatal = d.fatal := rfl
@[simp] theorem domU_strs (n : Nat) (g : Dom → Dom) (d : Dev) : (domU n g d).strs = d.strs := rfl
@[simp] theorem domU_time (n : Nat) (g : Dom → Dom) (d : Dev) : (domU n g d).time = d.time := rfl
@[simp] theorem domU_taps (n : Nat) (g : Dom → Dom) (d : Dev) : (domU n g d).taps = d.taps := rfl
@[simp] theorem domU_stopped (n : Nat) (g : Dom → Dom) (d : Dev) : (domU n g d).stopped = d.stopped := rfl
@[simp] theorem domU_released (n : Nat) (g : Dom → Dom) (d : Dev) : (domU n g d).released = d.released := rfl
@[simp] theorem domU_errs (n : Nat) (g : Dom → Dom) (d : Dev) : (domU n g d).errs = d.errs := rfl
@[simp] theorem domU_errSeq (n : Nat) (g : Dom → Dom) (d : Dev) : (domU n g d).errSeq = d.errSeq := rfl
@[simp] theorem domU_errAck (n : Nat) (g : Dom → Dom) (d : Dev) : (domU n g d).errAck = d.errAck := rfl
@[simp] theorem domU_xings (n : Nat) (g : Dom → Dom) (d : Dev) : (domU n g d).xings = d.xings := rfl
@[simp] theorem domU_egqs (n : Nat) (g : Dom → Dom) (d : Dev) : (domU n g d).egqs = d.egqs := rfl
@[simp] theorem domU_rates (n : Nat) (g : Dom → Dom) (d : Dev) : (domU n g d).rates = d.rates := rfl
@[simp] theorem domU_ports (n : Nat) (g : Dom → Dom) (d : Dev) : (domU n g d).ports = d.ports := rfl
@[simp] theorem domU_cal (n : Nat) (g : Dom → Dom) (d : Dev) : (domU n g d).cal = d.cal := rfl
@[simp] theorem domU_calSect (n : Nat) (g : Dom → Dom) (d : Dev) : (domU n g d).calSect = d.calSect := rfl
@[simp] theorem domU_calRuns (n : Nat) (g : Dom → Dom) (d : Dev) : (domU n g d).calRuns = d.calRuns := rfl
@[simp] theorem domU_tables (n : Nat) (g : Dom → Dom) (d : Dev) : (domU n g d).tables = d.tables := rfl
@[simp] theorem domU_sessions (n : Nat) (g : Dom → Dom) (d : Dev) : (domU n g d).sessions = d.sessions := rfl
@[simp] theorem domU_policers (n : Nat) (g : Dom → Dom) (d : Dev) : (domU n g d).policers = d.policers := rfl
@[simp] theorem domU_rss (n : Nat) (g : Dom → Dom) (d : Dev) : (domU n g d).rss = d.rss := rfl
@[simp] theorem domU_deepQ (n : Nat) (g : Dom → Dom) (d : Dev) : (domU n g d).deepQ = d.deepQ := rfl
@[simp] theorem domU_dramQ (n : Nat) (g : Dom → Dom) (d : Dev) : (domU n g d).dramQ = d.dramQ := rfl
@[simp] theorem domU_dramLevel (n : Nat) (g : Dom → Dom) (d : Dev) : (domU n g d).dramLevel = d.dramLevel := rfl
@[simp] theorem domU_dramTick (n : Nat) (g : Dom → Dom) (d : Dev) : (domU n g d).dramTick = d.dramTick := rfl
@[simp] theorem domU_courses (n : Nat) (g : Dom → Dom) (d : Dev) : (domU n g d).courses = d.courses := rfl
@[simp] theorem domU_wit (n : Nat) (g : Dom → Dom) (d : Dev) : (domU n g d).wit = d.wit := rfl
@[simp] theorem domU_scheds (n : Nat) (g : Dom → Dom) (d : Dev) : (domU n g d).scheds = d.scheds := rfl
@[simp] theorem domU_copies (n : Nat) (g : Dom → Dom) (d : Dev) : (domU n g d).copies = d.copies := rfl
@[simp] theorem domU_islJobs (n : Nat) (g : Dom → Dom) (d : Dev) : (domU n g d).islJobs = d.islJobs := rfl
@[simp] theorem domU_comps (n : Nat) (g : Dom → Dom) (d : Dev) : (domU n g d).comps = d.comps := rfl
@[simp] theorem domU_untested (n : Nat) (g : Dom → Dom) (d : Dev) : (domU n g d).untested = d.untested := rfl
@[simp] theorem domU_calQ (n : Nat) (g : Dom → Dom) (d : Dev) : (domU n g d).calQ = d.calQ := rfl
@[simp] theorem domU_dram (n : Nat) (g : Dom → Dom) (d : Dev) : (domU n g d).dram = d.dram := rfl
@[simp] theorem domU_clusters (n : Nat) (g : Dom → Dom) (d : Dev) : (domU n g d).clusters = d.clusters := rfl
@[simp] theorem domU_gates (n : Nat) (g : Dom → Dom) (d : Dev) : (domU n g d).gates = d.gates := rfl
@[simp] theorem domU_spEpoch (n : Nat) (g : Dom → Dom) (d : Dev) : (domU n g d).spEpoch = d.spEpoch := rfl
@[simp] theorem domU_dbgPort (n : Nat) (g : Dom → Dom) (d : Dev) : (domU n g d).dbgPort = d.dbgPort := rfl
@[simp] theorem domU_dbgCores (n : Nat) (g : Dom → Dom) (d : Dev) : (domU n g d).dbgCores = d.dbgCores := rfl
@[simp] theorem domU_ledger (n : Nat) (g : Dom → Dom) (d : Dev) : (domU n g d).ledger = d.ledger := rfl
@[simp] theorem domU_power (n : Nat) (g : Dom → Dom) (d : Dev) : (domU n g d).power = d.power := rfl
@[simp] theorem domU_foot (n : Nat) (g : Dom → Dom) (d : Dev) : (domU n g d).foot = d.foot := rfl
@[simp] theorem domU_domJobs (n : Nat) (g : Dom → Dom) (d : Dev) : (domU n g d).domJobs = d.domJobs := rfl
@[simp] theorem domU_rstJobs (n : Nat) (g : Dom → Dom) (d : Dev) : (domU n g d).rstJobs = d.rstJobs := rfl
@[simp] theorem domU_mapJobs (n : Nat) (g : Dom → Dom) (d : Dev) : (domU n g d).mapJobs = d.mapJobs := rfl
@[simp] theorem domU_resetAt (n : Nat) (g : Dom → Dom) (d : Dev) : (domU n g d).resetAt = d.resetAt := rfl
@[simp] theorem domU_tripped (n : Nat) (g : Dom → Dom) (d : Dev) : (domU n g d).tripped = d.tripped := rfl
@[simp] theorem domU_timeDead (n : Nat) (g : Dom → Dom) (d : Dev) : (domU n g d).timeDead = d.timeDead := rfl
@[simp] theorem domU_hotWarn (n : Nat) (g : Dom → Dom) (d : Dev) : (domU n g d).hotWarn = d.hotWarn := rfl
@[simp] theorem domU_hotCrit (n : Nat) (g : Dom → Dom) (d : Dev) : (domU n g d).hotCrit = d.hotCrit := rfl
@[simp] theorem domU_spdmMctp (n : Nat) (g : Dom → Dom) (d : Dev) : (domU n g d).spdmMctp = d.spdmMctp := rfl
@[simp] theorem domU_eids (n : Nat) (g : Dom → Dom) (d : Dev) : (domU n g d).eids = d.eids := rfl
@[simp] theorem domU_pldm (n : Nat) (g : Dom → Dom) (d : Dev) : (domU n g d).pldm = d.pldm := rfl

@[simp] theorem queueU_variant (f qt lq : Nat) (g : Queue → Queue) (d : Dev) : (queueU f qt lq g d).variant = d.variant := rfl
@[simp] theorem queueU_regs (f qt lq : Nat) (g : Queue → Queue) (d : Dev) : (queueU f qt lq g d).regs = d.regs := rfl
@[simp] theorem queueU_eff (f qt lq : Nat) (g : Queue → Queue) (d : Dev) : (queueU f qt lq g d).eff = d.eff := rfl
@[simp] theorem queueU_cap (f qt lq : Nat) (g : Queue → Queue) (d : Dev) : (queueU f qt lq g d).cap = d.cap := rfl
@[simp] theorem queueU_halfRx (f qt lq : Nat) (g : Queue → Queue) (d : Dev) : (queueU f qt lq g d).halfRx = d.halfRx := rfl
@[simp] theorem queueU_halfTx (f qt lq : Nat) (g : Queue → Queue) (d : Dev) : (queueU f qt lq g d).halfTx = d.halfTx := rfl
@[simp] theorem queueU_took (f qt lq : Nat) (g : Queue → Queue) (d : Dev) : (queueU f qt lq g d).took = d.took := rfl
@[simp] theorem queueU_ctrs (f qt lq : Nat) (g : Queue → Queue) (d : Dev) : (queueU f qt lq g d).ctrs = d.ctrs := rfl
@[simp] theorem queueU_latch (f qt lq : Nat) (g : Queue → Queue) (d : Dev) : (queueU f qt lq g d).latch = d.latch := rfl
@[simp] theorem queueU_mem (f qt lq : Nat) (g : Queue → Queue) (d : Dev) : (queueU f qt lq g d).mem = d.mem := rfl
@[simp] theorem queueU_wr (f qt lq : Nat) (g : Queue → Queue) (d : Dev) : (queueU f qt lq g d).wr = d.wr := rfl
@[simp] theorem queueU_freeIdx (f qt lq : Nat) (g : Queue → Queue) (d : Dev) : (queueU f qt lq g d).freeIdx = d.freeIdx := rfl
@[simp] theorem queueU_out (f qt lq : Nat) (g : Queue → Queue) (d : Dev) : (queueU f qt lq g d).out = d.out := rfl
@[simp] theorem queueU_fns (f qt lq : Nat) (g : Queue → Queue) (d : Dev) : (queueU f qt lq g d).fns = d.fns := rfl
@[simp] theorem queueU_queues (f qt lq : Nat) (g : Queue → Queue) (d : Dev) : (queueU f qt lq g d).queues = Tbl.upd (fun _ => {}) d.queues (qKey f qt lq) g := rfl
@[simp] theorem queueU_pkts (f qt lq : Nat) (g : Queue → Queue) (d : Dev) : (queueU f qt lq g d).pkts = d.pkts := rfl
@[simp] theorem queueU_pktSeq (f qt lq : Nat) (g : Queue → Queue) (d : Dev) : (queueU f qt lq g d).pktSeq = d.pktSeq := rfl
@[simp] theorem queueU_hports (f qt lq : Nat) (g : Queue → Queue) (d : Dev) : (queueU f qt lq g d).hports = d.hports := rfl
@[simp] theorem queueU_doms (f qt lq : Nat) (g : Queue → Queue) (d : Dev) : (queueU f qt lq g d).doms = d.doms := rfl
@[simp] theorem queueU_fatal (f qt lq : Nat) (g : Queue → Queue) (d : Dev) : (queueU f qt lq g d).fatal = d.fatal := rfl
@[simp] theorem queueU_strs (f qt lq : Nat) (g : Queue → Queue) (d : Dev) : (queueU f qt lq g d).strs = d.strs := rfl
@[simp] theorem queueU_time (f qt lq : Nat) (g : Queue → Queue) (d : Dev) : (queueU f qt lq g d).time = d.time := rfl
@[simp] theorem queueU_taps (f qt lq : Nat) (g : Queue → Queue) (d : Dev) : (queueU f qt lq g d).taps = d.taps := rfl
@[simp] theorem queueU_stopped (f qt lq : Nat) (g : Queue → Queue) (d : Dev) : (queueU f qt lq g d).stopped = d.stopped := rfl
@[simp] theorem queueU_released (f qt lq : Nat) (g : Queue → Queue) (d : Dev) : (queueU f qt lq g d).released = d.released := rfl
@[simp] theorem queueU_errs (f qt lq : Nat) (g : Queue → Queue) (d : Dev) : (queueU f qt lq g d).errs = d.errs := rfl
@[simp] theorem queueU_errSeq (f qt lq : Nat) (g : Queue → Queue) (d : Dev) : (queueU f qt lq g d).errSeq = d.errSeq := rfl
@[simp] theorem queueU_errAck (f qt lq : Nat) (g : Queue → Queue) (d : Dev) : (queueU f qt lq g d).errAck = d.errAck := rfl
@[simp] theorem queueU_xings (f qt lq : Nat) (g : Queue → Queue) (d : Dev) : (queueU f qt lq g d).xings = d.xings := rfl
@[simp] theorem queueU_egqs (f qt lq : Nat) (g : Queue → Queue) (d : Dev) : (queueU f qt lq g d).egqs = d.egqs := rfl
@[simp] theorem queueU_rates (f qt lq : Nat) (g : Queue → Queue) (d : Dev) : (queueU f qt lq g d).rates = d.rates := rfl
@[simp] theorem queueU_ports (f qt lq : Nat) (g : Queue → Queue) (d : Dev) : (queueU f qt lq g d).ports = d.ports := rfl
@[simp] theorem queueU_cal (f qt lq : Nat) (g : Queue → Queue) (d : Dev) : (queueU f qt lq g d).cal = d.cal := rfl
@[simp] theorem queueU_calSect (f qt lq : Nat) (g : Queue → Queue) (d : Dev) : (queueU f qt lq g d).calSect = d.calSect := rfl
@[simp] theorem queueU_calRuns (f qt lq : Nat) (g : Queue → Queue) (d : Dev) : (queueU f qt lq g d).calRuns = d.calRuns := rfl
@[simp] theorem queueU_tables (f qt lq : Nat) (g : Queue → Queue) (d : Dev) : (queueU f qt lq g d).tables = d.tables := rfl
@[simp] theorem queueU_sessions (f qt lq : Nat) (g : Queue → Queue) (d : Dev) : (queueU f qt lq g d).sessions = d.sessions := rfl
@[simp] theorem queueU_policers (f qt lq : Nat) (g : Queue → Queue) (d : Dev) : (queueU f qt lq g d).policers = d.policers := rfl
@[simp] theorem queueU_rss (f qt lq : Nat) (g : Queue → Queue) (d : Dev) : (queueU f qt lq g d).rss = d.rss := rfl
@[simp] theorem queueU_deepQ (f qt lq : Nat) (g : Queue → Queue) (d : Dev) : (queueU f qt lq g d).deepQ = d.deepQ := rfl
@[simp] theorem queueU_dramQ (f qt lq : Nat) (g : Queue → Queue) (d : Dev) : (queueU f qt lq g d).dramQ = d.dramQ := rfl
@[simp] theorem queueU_dramLevel (f qt lq : Nat) (g : Queue → Queue) (d : Dev) : (queueU f qt lq g d).dramLevel = d.dramLevel := rfl
@[simp] theorem queueU_dramTick (f qt lq : Nat) (g : Queue → Queue) (d : Dev) : (queueU f qt lq g d).dramTick = d.dramTick := rfl
@[simp] theorem queueU_courses (f qt lq : Nat) (g : Queue → Queue) (d : Dev) : (queueU f qt lq g d).courses = d.courses := rfl
@[simp] theorem queueU_wit (f qt lq : Nat) (g : Queue → Queue) (d : Dev) : (queueU f qt lq g d).wit = d.wit := rfl
@[simp] theorem queueU_scheds (f qt lq : Nat) (g : Queue → Queue) (d : Dev) : (queueU f qt lq g d).scheds = d.scheds := rfl
@[simp] theorem queueU_copies (f qt lq : Nat) (g : Queue → Queue) (d : Dev) : (queueU f qt lq g d).copies = d.copies := rfl
@[simp] theorem queueU_islJobs (f qt lq : Nat) (g : Queue → Queue) (d : Dev) : (queueU f qt lq g d).islJobs = d.islJobs := rfl
@[simp] theorem queueU_comps (f qt lq : Nat) (g : Queue → Queue) (d : Dev) : (queueU f qt lq g d).comps = d.comps := rfl
@[simp] theorem queueU_untested (f qt lq : Nat) (g : Queue → Queue) (d : Dev) : (queueU f qt lq g d).untested = d.untested := rfl
@[simp] theorem queueU_calQ (f qt lq : Nat) (g : Queue → Queue) (d : Dev) : (queueU f qt lq g d).calQ = d.calQ := rfl
@[simp] theorem queueU_dram (f qt lq : Nat) (g : Queue → Queue) (d : Dev) : (queueU f qt lq g d).dram = d.dram := rfl
@[simp] theorem queueU_clusters (f qt lq : Nat) (g : Queue → Queue) (d : Dev) : (queueU f qt lq g d).clusters = d.clusters := rfl
@[simp] theorem queueU_gates (f qt lq : Nat) (g : Queue → Queue) (d : Dev) : (queueU f qt lq g d).gates = d.gates := rfl
@[simp] theorem queueU_spEpoch (f qt lq : Nat) (g : Queue → Queue) (d : Dev) : (queueU f qt lq g d).spEpoch = d.spEpoch := rfl
@[simp] theorem queueU_dbgPort (f qt lq : Nat) (g : Queue → Queue) (d : Dev) : (queueU f qt lq g d).dbgPort = d.dbgPort := rfl
@[simp] theorem queueU_dbgCores (f qt lq : Nat) (g : Queue → Queue) (d : Dev) : (queueU f qt lq g d).dbgCores = d.dbgCores := rfl
@[simp] theorem queueU_ledger (f qt lq : Nat) (g : Queue → Queue) (d : Dev) : (queueU f qt lq g d).ledger = d.ledger := rfl
@[simp] theorem queueU_power (f qt lq : Nat) (g : Queue → Queue) (d : Dev) : (queueU f qt lq g d).power = d.power := rfl
@[simp] theorem queueU_foot (f qt lq : Nat) (g : Queue → Queue) (d : Dev) : (queueU f qt lq g d).foot = d.foot := rfl
@[simp] theorem queueU_domJobs (f qt lq : Nat) (g : Queue → Queue) (d : Dev) : (queueU f qt lq g d).domJobs = d.domJobs := rfl
@[simp] theorem queueU_rstJobs (f qt lq : Nat) (g : Queue → Queue) (d : Dev) : (queueU f qt lq g d).rstJobs = d.rstJobs := rfl
@[simp] theorem queueU_mapJobs (f qt lq : Nat) (g : Queue → Queue) (d : Dev) : (queueU f qt lq g d).mapJobs = d.mapJobs := rfl
@[simp] theorem queueU_resetAt (f qt lq : Nat) (g : Queue → Queue) (d : Dev) : (queueU f qt lq g d).resetAt = d.resetAt := rfl
@[simp] theorem queueU_tripped (f qt lq : Nat) (g : Queue → Queue) (d : Dev) : (queueU f qt lq g d).tripped = d.tripped := rfl
@[simp] theorem queueU_timeDead (f qt lq : Nat) (g : Queue → Queue) (d : Dev) : (queueU f qt lq g d).timeDead = d.timeDead := rfl
@[simp] theorem queueU_hotWarn (f qt lq : Nat) (g : Queue → Queue) (d : Dev) : (queueU f qt lq g d).hotWarn = d.hotWarn := rfl
@[simp] theorem queueU_hotCrit (f qt lq : Nat) (g : Queue → Queue) (d : Dev) : (queueU f qt lq g d).hotCrit = d.hotCrit := rfl
@[simp] theorem queueU_spdmMctp (f qt lq : Nat) (g : Queue → Queue) (d : Dev) : (queueU f qt lq g d).spdmMctp = d.spdmMctp := rfl
@[simp] theorem queueU_eids (f qt lq : Nat) (g : Queue → Queue) (d : Dev) : (queueU f qt lq g d).eids = d.eids := rfl
@[simp] theorem queueU_pldm (f qt lq : Nat) (g : Queue → Queue) (d : Dev) : (queueU f qt lq g d).pldm = d.pldm := rfl

@[simp] theorem strU_variant (i : Nat) (g : Str → Str) (d : Dev) : (strU i g d).variant = d.variant := rfl
@[simp] theorem strU_regs (i : Nat) (g : Str → Str) (d : Dev) : (strU i g d).regs = d.regs := rfl
@[simp] theorem strU_eff (i : Nat) (g : Str → Str) (d : Dev) : (strU i g d).eff = d.eff := rfl
@[simp] theorem strU_cap (i : Nat) (g : Str → Str) (d : Dev) : (strU i g d).cap = d.cap := rfl
@[simp] theorem strU_halfRx (i : Nat) (g : Str → Str) (d : Dev) : (strU i g d).halfRx = d.halfRx := rfl
@[simp] theorem strU_halfTx (i : Nat) (g : Str → Str) (d : Dev) : (strU i g d).halfTx = d.halfTx := rfl
@[simp] theorem strU_took (i : Nat) (g : Str → Str) (d : Dev) : (strU i g d).took = d.took := rfl
@[simp] theorem strU_ctrs (i : Nat) (g : Str → Str) (d : Dev) : (strU i g d).ctrs = d.ctrs := rfl
@[simp] theorem strU_latch (i : Nat) (g : Str → Str) (d : Dev) : (strU i g d).latch = d.latch := rfl
@[simp] theorem strU_mem (i : Nat) (g : Str → Str) (d : Dev) : (strU i g d).mem = d.mem := rfl
@[simp] theorem strU_wr (i : Nat) (g : Str → Str) (d : Dev) : (strU i g d).wr = d.wr := rfl
@[simp] theorem strU_freeIdx (i : Nat) (g : Str → Str) (d : Dev) : (strU i g d).freeIdx = d.freeIdx := rfl
@[simp] theorem strU_out (i : Nat) (g : Str → Str) (d : Dev) : (strU i g d).out = d.out := rfl
@[simp] theorem strU_fns (i : Nat) (g : Str → Str) (d : Dev) : (strU i g d).fns = d.fns := rfl
@[simp] theorem strU_queues (i : Nat) (g : Str → Str) (d : Dev) : (strU i g d).queues = d.queues := rfl
@[simp] theorem strU_pkts (i : Nat) (g : Str → Str) (d : Dev) : (strU i g d).pkts = d.pkts := rfl
@[simp] theorem strU_pktSeq (i : Nat) (g : Str → Str) (d : Dev) : (strU i g d).pktSeq = d.pktSeq := rfl
@[simp] theorem strU_hports (i : Nat) (g : Str → Str) (d : Dev) : (strU i g d).hports = d.hports := rfl
@[simp] theorem strU_doms (i : Nat) (g : Str → Str) (d : Dev) : (strU i g d).doms = d.doms := rfl
@[simp] theorem strU_fatal (i : Nat) (g : Str → Str) (d : Dev) : (strU i g d).fatal = d.fatal := rfl
@[simp] theorem strU_time (i : Nat) (g : Str → Str) (d : Dev) : (strU i g d).time = d.time := rfl
@[simp] theorem strU_taps (i : Nat) (g : Str → Str) (d : Dev) : (strU i g d).taps = d.taps := rfl
@[simp] theorem strU_stopped (i : Nat) (g : Str → Str) (d : Dev) : (strU i g d).stopped = d.stopped := rfl
@[simp] theorem strU_released (i : Nat) (g : Str → Str) (d : Dev) : (strU i g d).released = d.released := rfl
@[simp] theorem strU_errs (i : Nat) (g : Str → Str) (d : Dev) : (strU i g d).errs = d.errs := rfl
@[simp] theorem strU_errSeq (i : Nat) (g : Str → Str) (d : Dev) : (strU i g d).errSeq = d.errSeq := rfl
@[simp] theorem strU_errAck (i : Nat) (g : Str → Str) (d : Dev) : (strU i g d).errAck = d.errAck := rfl
@[simp] theorem strU_xings (i : Nat) (g : Str → Str) (d : Dev) : (strU i g d).xings = d.xings := rfl
@[simp] theorem strU_egqs (i : Nat) (g : Str → Str) (d : Dev) : (strU i g d).egqs = d.egqs := rfl
@[simp] theorem strU_rates (i : Nat) (g : Str → Str) (d : Dev) : (strU i g d).rates = d.rates := rfl
@[simp] theorem strU_ports (i : Nat) (g : Str → Str) (d : Dev) : (strU i g d).ports = d.ports := rfl
@[simp] theorem strU_cal (i : Nat) (g : Str → Str) (d : Dev) : (strU i g d).cal = d.cal := rfl
@[simp] theorem strU_calSect (i : Nat) (g : Str → Str) (d : Dev) : (strU i g d).calSect = d.calSect := rfl
@[simp] theorem strU_calRuns (i : Nat) (g : Str → Str) (d : Dev) : (strU i g d).calRuns = d.calRuns := rfl
@[simp] theorem strU_tables (i : Nat) (g : Str → Str) (d : Dev) : (strU i g d).tables = d.tables := rfl
@[simp] theorem strU_sessions (i : Nat) (g : Str → Str) (d : Dev) : (strU i g d).sessions = d.sessions := rfl
@[simp] theorem strU_policers (i : Nat) (g : Str → Str) (d : Dev) : (strU i g d).policers = d.policers := rfl
@[simp] theorem strU_rss (i : Nat) (g : Str → Str) (d : Dev) : (strU i g d).rss = d.rss := rfl
@[simp] theorem strU_deepQ (i : Nat) (g : Str → Str) (d : Dev) : (strU i g d).deepQ = d.deepQ := rfl
@[simp] theorem strU_dramQ (i : Nat) (g : Str → Str) (d : Dev) : (strU i g d).dramQ = d.dramQ := rfl
@[simp] theorem strU_dramLevel (i : Nat) (g : Str → Str) (d : Dev) : (strU i g d).dramLevel = d.dramLevel := rfl
@[simp] theorem strU_dramTick (i : Nat) (g : Str → Str) (d : Dev) : (strU i g d).dramTick = d.dramTick := rfl
@[simp] theorem strU_courses (i : Nat) (g : Str → Str) (d : Dev) : (strU i g d).courses = d.courses := rfl
@[simp] theorem strU_wit (i : Nat) (g : Str → Str) (d : Dev) : (strU i g d).wit = d.wit := rfl
@[simp] theorem strU_scheds (i : Nat) (g : Str → Str) (d : Dev) : (strU i g d).scheds = d.scheds := rfl
@[simp] theorem strU_copies (i : Nat) (g : Str → Str) (d : Dev) : (strU i g d).copies = d.copies := rfl
@[simp] theorem strU_islJobs (i : Nat) (g : Str → Str) (d : Dev) : (strU i g d).islJobs = d.islJobs := rfl
@[simp] theorem strU_comps (i : Nat) (g : Str → Str) (d : Dev) : (strU i g d).comps = d.comps := rfl
@[simp] theorem strU_untested (i : Nat) (g : Str → Str) (d : Dev) : (strU i g d).untested = d.untested := rfl
@[simp] theorem strU_calQ (i : Nat) (g : Str → Str) (d : Dev) : (strU i g d).calQ = d.calQ := rfl
@[simp] theorem strU_dram (i : Nat) (g : Str → Str) (d : Dev) : (strU i g d).dram = d.dram := rfl
@[simp] theorem strU_clusters (i : Nat) (g : Str → Str) (d : Dev) : (strU i g d).clusters = d.clusters := rfl
@[simp] theorem strU_gates (i : Nat) (g : Str → Str) (d : Dev) : (strU i g d).gates = d.gates := rfl
@[simp] theorem strU_spEpoch (i : Nat) (g : Str → Str) (d : Dev) : (strU i g d).spEpoch = d.spEpoch := rfl
@[simp] theorem strU_dbgPort (i : Nat) (g : Str → Str) (d : Dev) : (strU i g d).dbgPort = d.dbgPort := rfl
@[simp] theorem strU_dbgCores (i : Nat) (g : Str → Str) (d : Dev) : (strU i g d).dbgCores = d.dbgCores := rfl
@[simp] theorem strU_ledger (i : Nat) (g : Str → Str) (d : Dev) : (strU i g d).ledger = d.ledger := rfl
@[simp] theorem strU_power (i : Nat) (g : Str → Str) (d : Dev) : (strU i g d).power = d.power := rfl
@[simp] theorem strU_foot (i : Nat) (g : Str → Str) (d : Dev) : (strU i g d).foot = d.foot := rfl
@[simp] theorem strU_domJobs (i : Nat) (g : Str → Str) (d : Dev) : (strU i g d).domJobs = d.domJobs := rfl
@[simp] theorem strU_rstJobs (i : Nat) (g : Str → Str) (d : Dev) : (strU i g d).rstJobs = d.rstJobs := rfl
@[simp] theorem strU_mapJobs (i : Nat) (g : Str → Str) (d : Dev) : (strU i g d).mapJobs = d.mapJobs := rfl
@[simp] theorem strU_resetAt (i : Nat) (g : Str → Str) (d : Dev) : (strU i g d).resetAt = d.resetAt := rfl
@[simp] theorem strU_tripped (i : Nat) (g : Str → Str) (d : Dev) : (strU i g d).tripped = d.tripped := rfl
@[simp] theorem strU_timeDead (i : Nat) (g : Str → Str) (d : Dev) : (strU i g d).timeDead = d.timeDead := rfl
@[simp] theorem strU_hotWarn (i : Nat) (g : Str → Str) (d : Dev) : (strU i g d).hotWarn = d.hotWarn := rfl
@[simp] theorem strU_hotCrit (i : Nat) (g : Str → Str) (d : Dev) : (strU i g d).hotCrit = d.hotCrit := rfl
@[simp] theorem strU_spdmMctp (i : Nat) (g : Str → Str) (d : Dev) : (strU i g d).spdmMctp = d.spdmMctp := rfl
@[simp] theorem strU_eids (i : Nat) (g : Str → Str) (d : Dev) : (strU i g d).eids = d.eids := rfl
@[simp] theorem strU_pldm (i : Nat) (g : Str → Str) (d : Dev) : (strU i g d).pldm = d.pldm := rfl

@[simp] theorem timeU_variant (g : TimeBlk → TimeBlk) (d : Dev) : (timeU g d).variant = d.variant := rfl
@[simp] theorem timeU_regs (g : TimeBlk → TimeBlk) (d : Dev) : (timeU g d).regs = d.regs := rfl
@[simp] theorem timeU_eff (g : TimeBlk → TimeBlk) (d : Dev) : (timeU g d).eff = d.eff := rfl
@[simp] theorem timeU_cap (g : TimeBlk → TimeBlk) (d : Dev) : (timeU g d).cap = d.cap := rfl
@[simp] theorem timeU_halfRx (g : TimeBlk → TimeBlk) (d : Dev) : (timeU g d).halfRx = d.halfRx := rfl
@[simp] theorem timeU_halfTx (g : TimeBlk → TimeBlk) (d : Dev) : (timeU g d).halfTx = d.halfTx := rfl
@[simp] theorem timeU_took (g : TimeBlk → TimeBlk) (d : Dev) : (timeU g d).took = d.took := rfl
@[simp] theorem timeU_ctrs (g : TimeBlk → TimeBlk) (d : Dev) : (timeU g d).ctrs = d.ctrs := rfl
@[simp] theorem timeU_latch (g : TimeBlk → TimeBlk) (d : Dev) : (timeU g d).latch = d.latch := rfl
@[simp] theorem timeU_mem (g : TimeBlk → TimeBlk) (d : Dev) : (timeU g d).mem = d.mem := rfl
@[simp] theorem timeU_wr (g : TimeBlk → TimeBlk) (d : Dev) : (timeU g d).wr = d.wr := rfl
@[simp] theorem timeU_freeIdx (g : TimeBlk → TimeBlk) (d : Dev) : (timeU g d).freeIdx = d.freeIdx := rfl
@[simp] theorem timeU_out (g : TimeBlk → TimeBlk) (d : Dev) : (timeU g d).out = d.out := rfl
@[simp] theorem timeU_fns (g : TimeBlk → TimeBlk) (d : Dev) : (timeU g d).fns = d.fns := rfl
@[simp] theorem timeU_queues (g : TimeBlk → TimeBlk) (d : Dev) : (timeU g d).queues = d.queues := rfl
@[simp] theorem timeU_pkts (g : TimeBlk → TimeBlk) (d : Dev) : (timeU g d).pkts = d.pkts := rfl
@[simp] theorem timeU_pktSeq (g : TimeBlk → TimeBlk) (d : Dev) : (timeU g d).pktSeq = d.pktSeq := rfl
@[simp] theorem timeU_hports (g : TimeBlk → TimeBlk) (d : Dev) : (timeU g d).hports = d.hports := rfl
@[simp] theorem timeU_doms (g : TimeBlk → TimeBlk) (d : Dev) : (timeU g d).doms = d.doms := rfl
@[simp] theorem timeU_fatal (g : TimeBlk → TimeBlk) (d : Dev) : (timeU g d).fatal = d.fatal := rfl
@[simp] theorem timeU_strs (g : TimeBlk → TimeBlk) (d : Dev) : (timeU g d).strs = d.strs := rfl
@[simp] theorem timeU_time (g : TimeBlk → TimeBlk) (d : Dev) : (timeU g d).time = g d.time := rfl
@[simp] theorem timeU_taps (g : TimeBlk → TimeBlk) (d : Dev) : (timeU g d).taps = d.taps := rfl
@[simp] theorem timeU_stopped (g : TimeBlk → TimeBlk) (d : Dev) : (timeU g d).stopped = d.stopped := rfl
@[simp] theorem timeU_released (g : TimeBlk → TimeBlk) (d : Dev) : (timeU g d).released = d.released := rfl
@[simp] theorem timeU_errs (g : TimeBlk → TimeBlk) (d : Dev) : (timeU g d).errs = d.errs := rfl
@[simp] theorem timeU_errSeq (g : TimeBlk → TimeBlk) (d : Dev) : (timeU g d).errSeq = d.errSeq := rfl
@[simp] theorem timeU_errAck (g : TimeBlk → TimeBlk) (d : Dev) : (timeU g d).errAck = d.errAck := rfl
@[simp] theorem timeU_xings (g : TimeBlk → TimeBlk) (d : Dev) : (timeU g d).xings = d.xings := rfl
@[simp] theorem timeU_egqs (g : TimeBlk → TimeBlk) (d : Dev) : (timeU g d).egqs = d.egqs := rfl
@[simp] theorem timeU_rates (g : TimeBlk → TimeBlk) (d : Dev) : (timeU g d).rates = d.rates := rfl
@[simp] theorem timeU_ports (g : TimeBlk → TimeBlk) (d : Dev) : (timeU g d).ports = d.ports := rfl
@[simp] theorem timeU_cal (g : TimeBlk → TimeBlk) (d : Dev) : (timeU g d).cal = d.cal := rfl
@[simp] theorem timeU_calSect (g : TimeBlk → TimeBlk) (d : Dev) : (timeU g d).calSect = d.calSect := rfl
@[simp] theorem timeU_calRuns (g : TimeBlk → TimeBlk) (d : Dev) : (timeU g d).calRuns = d.calRuns := rfl
@[simp] theorem timeU_tables (g : TimeBlk → TimeBlk) (d : Dev) : (timeU g d).tables = d.tables := rfl
@[simp] theorem timeU_sessions (g : TimeBlk → TimeBlk) (d : Dev) : (timeU g d).sessions = d.sessions := rfl
@[simp] theorem timeU_policers (g : TimeBlk → TimeBlk) (d : Dev) : (timeU g d).policers = d.policers := rfl
@[simp] theorem timeU_rss (g : TimeBlk → TimeBlk) (d : Dev) : (timeU g d).rss = d.rss := rfl
@[simp] theorem timeU_deepQ (g : TimeBlk → TimeBlk) (d : Dev) : (timeU g d).deepQ = d.deepQ := rfl
@[simp] theorem timeU_dramQ (g : TimeBlk → TimeBlk) (d : Dev) : (timeU g d).dramQ = d.dramQ := rfl
@[simp] theorem timeU_dramLevel (g : TimeBlk → TimeBlk) (d : Dev) : (timeU g d).dramLevel = d.dramLevel := rfl
@[simp] theorem timeU_dramTick (g : TimeBlk → TimeBlk) (d : Dev) : (timeU g d).dramTick = d.dramTick := rfl
@[simp] theorem timeU_courses (g : TimeBlk → TimeBlk) (d : Dev) : (timeU g d).courses = d.courses := rfl
@[simp] theorem timeU_wit (g : TimeBlk → TimeBlk) (d : Dev) : (timeU g d).wit = d.wit := rfl
@[simp] theorem timeU_scheds (g : TimeBlk → TimeBlk) (d : Dev) : (timeU g d).scheds = d.scheds := rfl
@[simp] theorem timeU_copies (g : TimeBlk → TimeBlk) (d : Dev) : (timeU g d).copies = d.copies := rfl
@[simp] theorem timeU_islJobs (g : TimeBlk → TimeBlk) (d : Dev) : (timeU g d).islJobs = d.islJobs := rfl
@[simp] theorem timeU_comps (g : TimeBlk → TimeBlk) (d : Dev) : (timeU g d).comps = d.comps := rfl
@[simp] theorem timeU_untested (g : TimeBlk → TimeBlk) (d : Dev) : (timeU g d).untested = d.untested := rfl
@[simp] theorem timeU_calQ (g : TimeBlk → TimeBlk) (d : Dev) : (timeU g d).calQ = d.calQ := rfl
@[simp] theorem timeU_dram (g : TimeBlk → TimeBlk) (d : Dev) : (timeU g d).dram = d.dram := rfl
@[simp] theorem timeU_clusters (g : TimeBlk → TimeBlk) (d : Dev) : (timeU g d).clusters = d.clusters := rfl
@[simp] theorem timeU_gates (g : TimeBlk → TimeBlk) (d : Dev) : (timeU g d).gates = d.gates := rfl
@[simp] theorem timeU_spEpoch (g : TimeBlk → TimeBlk) (d : Dev) : (timeU g d).spEpoch = d.spEpoch := rfl
@[simp] theorem timeU_dbgPort (g : TimeBlk → TimeBlk) (d : Dev) : (timeU g d).dbgPort = d.dbgPort := rfl
@[simp] theorem timeU_dbgCores (g : TimeBlk → TimeBlk) (d : Dev) : (timeU g d).dbgCores = d.dbgCores := rfl
@[simp] theorem timeU_ledger (g : TimeBlk → TimeBlk) (d : Dev) : (timeU g d).ledger = d.ledger := rfl
@[simp] theorem timeU_power (g : TimeBlk → TimeBlk) (d : Dev) : (timeU g d).power = d.power := rfl
@[simp] theorem timeU_foot (g : TimeBlk → TimeBlk) (d : Dev) : (timeU g d).foot = d.foot := rfl
@[simp] theorem timeU_domJobs (g : TimeBlk → TimeBlk) (d : Dev) : (timeU g d).domJobs = d.domJobs := rfl
@[simp] theorem timeU_rstJobs (g : TimeBlk → TimeBlk) (d : Dev) : (timeU g d).rstJobs = d.rstJobs := rfl
@[simp] theorem timeU_mapJobs (g : TimeBlk → TimeBlk) (d : Dev) : (timeU g d).mapJobs = d.mapJobs := rfl
@[simp] theorem timeU_resetAt (g : TimeBlk → TimeBlk) (d : Dev) : (timeU g d).resetAt = d.resetAt := rfl
@[simp] theorem timeU_tripped (g : TimeBlk → TimeBlk) (d : Dev) : (timeU g d).tripped = d.tripped := rfl
@[simp] theorem timeU_timeDead (g : TimeBlk → TimeBlk) (d : Dev) : (timeU g d).timeDead = d.timeDead := rfl
@[simp] theorem timeU_hotWarn (g : TimeBlk → TimeBlk) (d : Dev) : (timeU g d).hotWarn = d.hotWarn := rfl
@[simp] theorem timeU_hotCrit (g : TimeBlk → TimeBlk) (d : Dev) : (timeU g d).hotCrit = d.hotCrit := rfl
@[simp] theorem timeU_spdmMctp (g : TimeBlk → TimeBlk) (d : Dev) : (timeU g d).spdmMctp = d.spdmMctp := rfl
@[simp] theorem timeU_eids (g : TimeBlk → TimeBlk) (d : Dev) : (timeU g d).eids = d.eids := rfl
@[simp] theorem timeU_pldm (g : TimeBlk → TimeBlk) (d : Dev) : (timeU g d).pldm = d.pldm := rfl

@[simp] theorem witU_variant (g : Wit → Wit) (d : Dev) : (witU g d).variant = d.variant := rfl
@[simp] theorem witU_regs (g : Wit → Wit) (d : Dev) : (witU g d).regs = d.regs := rfl
@[simp] theorem witU_eff (g : Wit → Wit) (d : Dev) : (witU g d).eff = d.eff := rfl
@[simp] theorem witU_cap (g : Wit → Wit) (d : Dev) : (witU g d).cap = d.cap := rfl
@[simp] theorem witU_halfRx (g : Wit → Wit) (d : Dev) : (witU g d).halfRx = d.halfRx := rfl
@[simp] theorem witU_halfTx (g : Wit → Wit) (d : Dev) : (witU g d).halfTx = d.halfTx := rfl
@[simp] theorem witU_took (g : Wit → Wit) (d : Dev) : (witU g d).took = d.took := rfl
@[simp] theorem witU_ctrs (g : Wit → Wit) (d : Dev) : (witU g d).ctrs = d.ctrs := rfl
@[simp] theorem witU_latch (g : Wit → Wit) (d : Dev) : (witU g d).latch = d.latch := rfl
@[simp] theorem witU_mem (g : Wit → Wit) (d : Dev) : (witU g d).mem = d.mem := rfl
@[simp] theorem witU_wr (g : Wit → Wit) (d : Dev) : (witU g d).wr = d.wr := rfl
@[simp] theorem witU_freeIdx (g : Wit → Wit) (d : Dev) : (witU g d).freeIdx = d.freeIdx := rfl
@[simp] theorem witU_out (g : Wit → Wit) (d : Dev) : (witU g d).out = d.out := rfl
@[simp] theorem witU_fns (g : Wit → Wit) (d : Dev) : (witU g d).fns = d.fns := rfl
@[simp] theorem witU_queues (g : Wit → Wit) (d : Dev) : (witU g d).queues = d.queues := rfl
@[simp] theorem witU_pkts (g : Wit → Wit) (d : Dev) : (witU g d).pkts = d.pkts := rfl
@[simp] theorem witU_pktSeq (g : Wit → Wit) (d : Dev) : (witU g d).pktSeq = d.pktSeq := rfl
@[simp] theorem witU_hports (g : Wit → Wit) (d : Dev) : (witU g d).hports = d.hports := rfl
@[simp] theorem witU_doms (g : Wit → Wit) (d : Dev) : (witU g d).doms = d.doms := rfl
@[simp] theorem witU_fatal (g : Wit → Wit) (d : Dev) : (witU g d).fatal = d.fatal := rfl
@[simp] theorem witU_strs (g : Wit → Wit) (d : Dev) : (witU g d).strs = d.strs := rfl
@[simp] theorem witU_time (g : Wit → Wit) (d : Dev) : (witU g d).time = d.time := rfl
@[simp] theorem witU_taps (g : Wit → Wit) (d : Dev) : (witU g d).taps = d.taps := rfl
@[simp] theorem witU_stopped (g : Wit → Wit) (d : Dev) : (witU g d).stopped = d.stopped := rfl
@[simp] theorem witU_released (g : Wit → Wit) (d : Dev) : (witU g d).released = d.released := rfl
@[simp] theorem witU_errs (g : Wit → Wit) (d : Dev) : (witU g d).errs = d.errs := rfl
@[simp] theorem witU_errSeq (g : Wit → Wit) (d : Dev) : (witU g d).errSeq = d.errSeq := rfl
@[simp] theorem witU_errAck (g : Wit → Wit) (d : Dev) : (witU g d).errAck = d.errAck := rfl
@[simp] theorem witU_xings (g : Wit → Wit) (d : Dev) : (witU g d).xings = d.xings := rfl
@[simp] theorem witU_egqs (g : Wit → Wit) (d : Dev) : (witU g d).egqs = d.egqs := rfl
@[simp] theorem witU_rates (g : Wit → Wit) (d : Dev) : (witU g d).rates = d.rates := rfl
@[simp] theorem witU_ports (g : Wit → Wit) (d : Dev) : (witU g d).ports = d.ports := rfl
@[simp] theorem witU_cal (g : Wit → Wit) (d : Dev) : (witU g d).cal = d.cal := rfl
@[simp] theorem witU_calSect (g : Wit → Wit) (d : Dev) : (witU g d).calSect = d.calSect := rfl
@[simp] theorem witU_calRuns (g : Wit → Wit) (d : Dev) : (witU g d).calRuns = d.calRuns := rfl
@[simp] theorem witU_tables (g : Wit → Wit) (d : Dev) : (witU g d).tables = d.tables := rfl
@[simp] theorem witU_sessions (g : Wit → Wit) (d : Dev) : (witU g d).sessions = d.sessions := rfl
@[simp] theorem witU_policers (g : Wit → Wit) (d : Dev) : (witU g d).policers = d.policers := rfl
@[simp] theorem witU_rss (g : Wit → Wit) (d : Dev) : (witU g d).rss = d.rss := rfl
@[simp] theorem witU_deepQ (g : Wit → Wit) (d : Dev) : (witU g d).deepQ = d.deepQ := rfl
@[simp] theorem witU_dramQ (g : Wit → Wit) (d : Dev) : (witU g d).dramQ = d.dramQ := rfl
@[simp] theorem witU_dramLevel (g : Wit → Wit) (d : Dev) : (witU g d).dramLevel = d.dramLevel := rfl
@[simp] theorem witU_dramTick (g : Wit → Wit) (d : Dev) : (witU g d).dramTick = d.dramTick := rfl
@[simp] theorem witU_courses (g : Wit → Wit) (d : Dev) : (witU g d).courses = d.courses := rfl
@[simp] theorem witU_wit (g : Wit → Wit) (d : Dev) : (witU g d).wit = g d.wit := rfl
@[simp] theorem witU_scheds (g : Wit → Wit) (d : Dev) : (witU g d).scheds = d.scheds := rfl
@[simp] theorem witU_copies (g : Wit → Wit) (d : Dev) : (witU g d).copies = d.copies := rfl
@[simp] theorem witU_islJobs (g : Wit → Wit) (d : Dev) : (witU g d).islJobs = d.islJobs := rfl
@[simp] theorem witU_comps (g : Wit → Wit) (d : Dev) : (witU g d).comps = d.comps := rfl
@[simp] theorem witU_untested (g : Wit → Wit) (d : Dev) : (witU g d).untested = d.untested := rfl
@[simp] theorem witU_calQ (g : Wit → Wit) (d : Dev) : (witU g d).calQ = d.calQ := rfl
@[simp] theorem witU_dram (g : Wit → Wit) (d : Dev) : (witU g d).dram = d.dram := rfl
@[simp] theorem witU_clusters (g : Wit → Wit) (d : Dev) : (witU g d).clusters = d.clusters := rfl
@[simp] theorem witU_gates (g : Wit → Wit) (d : Dev) : (witU g d).gates = d.gates := rfl
@[simp] theorem witU_spEpoch (g : Wit → Wit) (d : Dev) : (witU g d).spEpoch = d.spEpoch := rfl
@[simp] theorem witU_dbgPort (g : Wit → Wit) (d : Dev) : (witU g d).dbgPort = d.dbgPort := rfl
@[simp] theorem witU_dbgCores (g : Wit → Wit) (d : Dev) : (witU g d).dbgCores = d.dbgCores := rfl
@[simp] theorem witU_ledger (g : Wit → Wit) (d : Dev) : (witU g d).ledger = d.ledger := rfl
@[simp] theorem witU_power (g : Wit → Wit) (d : Dev) : (witU g d).power = d.power := rfl
@[simp] theorem witU_foot (g : Wit → Wit) (d : Dev) : (witU g d).foot = d.foot := rfl
@[simp] theorem witU_domJobs (g : Wit → Wit) (d : Dev) : (witU g d).domJobs = d.domJobs := rfl
@[simp] theorem witU_rstJobs (g : Wit → Wit) (d : Dev) : (witU g d).rstJobs = d.rstJobs := rfl
@[simp] theorem witU_mapJobs (g : Wit → Wit) (d : Dev) : (witU g d).mapJobs = d.mapJobs := rfl
@[simp] theorem witU_resetAt (g : Wit → Wit) (d : Dev) : (witU g d).resetAt = d.resetAt := rfl
@[simp] theorem witU_tripped (g : Wit → Wit) (d : Dev) : (witU g d).tripped = d.tripped := rfl
@[simp] theorem witU_timeDead (g : Wit → Wit) (d : Dev) : (witU g d).timeDead = d.timeDead := rfl
@[simp] theorem witU_hotWarn (g : Wit → Wit) (d : Dev) : (witU g d).hotWarn = d.hotWarn := rfl
@[simp] theorem witU_hotCrit (g : Wit → Wit) (d : Dev) : (witU g d).hotCrit = d.hotCrit := rfl
@[simp] theorem witU_spdmMctp (g : Wit → Wit) (d : Dev) : (witU g d).spdmMctp = d.spdmMctp := rfl
@[simp] theorem witU_eids (g : Wit → Wit) (d : Dev) : (witU g d).eids = d.eids := rfl
@[simp] theorem witU_pldm (g : Wit → Wit) (d : Dev) : (witU g d).pldm = d.pldm := rfl

@[simp] theorem portU_variant (p : Nat) (g : Port → Port) (d : Dev) : (portU p g d).variant = d.variant := rfl
@[simp] theorem portU_regs (p : Nat) (g : Port → Port) (d : Dev) : (portU p g d).regs = d.regs := rfl
@[simp] theorem portU_eff (p : Nat) (g : Port → Port) (d : Dev) : (portU p g d).eff = d.eff := rfl
@[simp] theorem portU_cap (p : Nat) (g : Port → Port) (d : Dev) : (portU p g d).cap = d.cap := rfl
@[simp] theorem portU_halfRx (p : Nat) (g : Port → Port) (d : Dev) : (portU p g d).halfRx = d.halfRx := rfl
@[simp] theorem portU_halfTx (p : Nat) (g : Port → Port) (d : Dev) : (portU p g d).halfTx = d.halfTx := rfl
@[simp] theorem portU_took (p : Nat) (g : Port → Port) (d : Dev) : (portU p g d).took = d.took := rfl
@[simp] theorem portU_ctrs (p : Nat) (g : Port → Port) (d : Dev) : (portU p g d).ctrs = d.ctrs := rfl
@[simp] theorem portU_latch (p : Nat) (g : Port → Port) (d : Dev) : (portU p g d).latch = d.latch := rfl
@[simp] theorem portU_mem (p : Nat) (g : Port → Port) (d : Dev) : (portU p g d).mem = d.mem := rfl
@[simp] theorem portU_wr (p : Nat) (g : Port → Port) (d : Dev) : (portU p g d).wr = d.wr := rfl
@[simp] theorem portU_freeIdx (p : Nat) (g : Port → Port) (d : Dev) : (portU p g d).freeIdx = d.freeIdx := rfl
@[simp] theorem portU_out (p : Nat) (g : Port → Port) (d : Dev) : (portU p g d).out = d.out := rfl
@[simp] theorem portU_fns (p : Nat) (g : Port → Port) (d : Dev) : (portU p g d).fns = d.fns := rfl
@[simp] theorem portU_queues (p : Nat) (g : Port → Port) (d : Dev) : (portU p g d).queues = d.queues := rfl
@[simp] theorem portU_pkts (p : Nat) (g : Port → Port) (d : Dev) : (portU p g d).pkts = d.pkts := rfl
@[simp] theorem portU_pktSeq (p : Nat) (g : Port → Port) (d : Dev) : (portU p g d).pktSeq = d.pktSeq := rfl
@[simp] theorem portU_hports (p : Nat) (g : Port → Port) (d : Dev) : (portU p g d).hports = d.hports := rfl
@[simp] theorem portU_doms (p : Nat) (g : Port → Port) (d : Dev) : (portU p g d).doms = d.doms := rfl
@[simp] theorem portU_fatal (p : Nat) (g : Port → Port) (d : Dev) : (portU p g d).fatal = d.fatal := rfl
@[simp] theorem portU_strs (p : Nat) (g : Port → Port) (d : Dev) : (portU p g d).strs = d.strs := rfl
@[simp] theorem portU_time (p : Nat) (g : Port → Port) (d : Dev) : (portU p g d).time = d.time := rfl
@[simp] theorem portU_taps (p : Nat) (g : Port → Port) (d : Dev) : (portU p g d).taps = d.taps := rfl
@[simp] theorem portU_stopped (p : Nat) (g : Port → Port) (d : Dev) : (portU p g d).stopped = d.stopped := rfl
@[simp] theorem portU_released (p : Nat) (g : Port → Port) (d : Dev) : (portU p g d).released = d.released := rfl
@[simp] theorem portU_errs (p : Nat) (g : Port → Port) (d : Dev) : (portU p g d).errs = d.errs := rfl
@[simp] theorem portU_errSeq (p : Nat) (g : Port → Port) (d : Dev) : (portU p g d).errSeq = d.errSeq := rfl
@[simp] theorem portU_errAck (p : Nat) (g : Port → Port) (d : Dev) : (portU p g d).errAck = d.errAck := rfl
@[simp] theorem portU_xings (p : Nat) (g : Port → Port) (d : Dev) : (portU p g d).xings = d.xings := rfl
@[simp] theorem portU_egqs (p : Nat) (g : Port → Port) (d : Dev) : (portU p g d).egqs = d.egqs := rfl
@[simp] theorem portU_rates (p : Nat) (g : Port → Port) (d : Dev) : (portU p g d).rates = d.rates := rfl
@[simp] theorem portU_ports (p : Nat) (g : Port → Port) (d : Dev) : (portU p g d).ports = Tbl.upd (fun _ => {}) d.ports p g := rfl
@[simp] theorem portU_cal (p : Nat) (g : Port → Port) (d : Dev) : (portU p g d).cal = d.cal := rfl
@[simp] theorem portU_calSect (p : Nat) (g : Port → Port) (d : Dev) : (portU p g d).calSect = d.calSect := rfl
@[simp] theorem portU_calRuns (p : Nat) (g : Port → Port) (d : Dev) : (portU p g d).calRuns = d.calRuns := rfl
@[simp] theorem portU_tables (p : Nat) (g : Port → Port) (d : Dev) : (portU p g d).tables = d.tables := rfl
@[simp] theorem portU_sessions (p : Nat) (g : Port → Port) (d : Dev) : (portU p g d).sessions = d.sessions := rfl
@[simp] theorem portU_policers (p : Nat) (g : Port → Port) (d : Dev) : (portU p g d).policers = d.policers := rfl
@[simp] theorem portU_rss (p : Nat) (g : Port → Port) (d : Dev) : (portU p g d).rss = d.rss := rfl
@[simp] theorem portU_deepQ (p : Nat) (g : Port → Port) (d : Dev) : (portU p g d).deepQ = d.deepQ := rfl
@[simp] theorem portU_dramQ (p : Nat) (g : Port → Port) (d : Dev) : (portU p g d).dramQ = d.dramQ := rfl
@[simp] theorem portU_dramLevel (p : Nat) (g : Port → Port) (d : Dev) : (portU p g d).dramLevel = d.dramLevel := rfl
@[simp] theorem portU_dramTick (p : Nat) (g : Port → Port) (d : Dev) : (portU p g d).dramTick = d.dramTick := rfl
@[simp] theorem portU_courses (p : Nat) (g : Port → Port) (d : Dev) : (portU p g d).courses = d.courses := rfl
@[simp] theorem portU_wit (p : Nat) (g : Port → Port) (d : Dev) : (portU p g d).wit = d.wit := rfl
@[simp] theorem portU_scheds (p : Nat) (g : Port → Port) (d : Dev) : (portU p g d).scheds = d.scheds := rfl
@[simp] theorem portU_copies (p : Nat) (g : Port → Port) (d : Dev) : (portU p g d).copies = d.copies := rfl
@[simp] theorem portU_islJobs (p : Nat) (g : Port → Port) (d : Dev) : (portU p g d).islJobs = d.islJobs := rfl
@[simp] theorem portU_comps (p : Nat) (g : Port → Port) (d : Dev) : (portU p g d).comps = d.comps := rfl
@[simp] theorem portU_untested (p : Nat) (g : Port → Port) (d : Dev) : (portU p g d).untested = d.untested := rfl
@[simp] theorem portU_calQ (p : Nat) (g : Port → Port) (d : Dev) : (portU p g d).calQ = d.calQ := rfl
@[simp] theorem portU_dram (p : Nat) (g : Port → Port) (d : Dev) : (portU p g d).dram = d.dram := rfl
@[simp] theorem portU_clusters (p : Nat) (g : Port → Port) (d : Dev) : (portU p g d).clusters = d.clusters := rfl
@[simp] theorem portU_gates (p : Nat) (g : Port → Port) (d : Dev) : (portU p g d).gates = d.gates := rfl
@[simp] theorem portU_spEpoch (p : Nat) (g : Port → Port) (d : Dev) : (portU p g d).spEpoch = d.spEpoch := rfl
@[simp] theorem portU_dbgPort (p : Nat) (g : Port → Port) (d : Dev) : (portU p g d).dbgPort = d.dbgPort := rfl
@[simp] theorem portU_dbgCores (p : Nat) (g : Port → Port) (d : Dev) : (portU p g d).dbgCores = d.dbgCores := rfl
@[simp] theorem portU_ledger (p : Nat) (g : Port → Port) (d : Dev) : (portU p g d).ledger = d.ledger := rfl
@[simp] theorem portU_power (p : Nat) (g : Port → Port) (d : Dev) : (portU p g d).power = d.power := rfl
@[simp] theorem portU_foot (p : Nat) (g : Port → Port) (d : Dev) : (portU p g d).foot = d.foot := rfl
@[simp] theorem portU_domJobs (p : Nat) (g : Port → Port) (d : Dev) : (portU p g d).domJobs = d.domJobs := rfl
@[simp] theorem portU_rstJobs (p : Nat) (g : Port → Port) (d : Dev) : (portU p g d).rstJobs = d.rstJobs := rfl
@[simp] theorem portU_mapJobs (p : Nat) (g : Port → Port) (d : Dev) : (portU p g d).mapJobs = d.mapJobs := rfl
@[simp] theorem portU_resetAt (p : Nat) (g : Port → Port) (d : Dev) : (portU p g d).resetAt = d.resetAt := rfl
@[simp] theorem portU_tripped (p : Nat) (g : Port → Port) (d : Dev) : (portU p g d).tripped = d.tripped := rfl
@[simp] theorem portU_timeDead (p : Nat) (g : Port → Port) (d : Dev) : (portU p g d).timeDead = d.timeDead := rfl
@[simp] theorem portU_hotWarn (p : Nat) (g : Port → Port) (d : Dev) : (portU p g d).hotWarn = d.hotWarn := rfl
@[simp] theorem portU_hotCrit (p : Nat) (g : Port → Port) (d : Dev) : (portU p g d).hotCrit = d.hotCrit := rfl
@[simp] theorem portU_spdmMctp (p : Nat) (g : Port → Port) (d : Dev) : (portU p g d).spdmMctp = d.spdmMctp := rfl
@[simp] theorem portU_eids (p : Nat) (g : Port → Port) (d : Dev) : (portU p g d).eids = d.eids := rfl
@[simp] theorem portU_pldm (p : Nat) (g : Port → Port) (d : Dev) : (portU p g d).pldm = d.pldm := rfl

@[simp] theorem dramU_variant (g : Dram → Dram) (d : Dev) : (dramU g d).variant = d.variant := rfl
@[simp] theorem dramU_regs (g : Dram → Dram) (d : Dev) : (dramU g d).regs = d.regs := rfl
@[simp] theorem dramU_eff (g : Dram → Dram) (d : Dev) : (dramU g d).eff = d.eff := rfl
@[simp] theorem dramU_cap (g : Dram → Dram) (d : Dev) : (dramU g d).cap = d.cap := rfl
@[simp] theorem dramU_halfRx (g : Dram → Dram) (d : Dev) : (dramU g d).halfRx = d.halfRx := rfl
@[simp] theorem dramU_halfTx (g : Dram → Dram) (d : Dev) : (dramU g d).halfTx = d.halfTx := rfl
@[simp] theorem dramU_took (g : Dram → Dram) (d : Dev) : (dramU g d).took = d.took := rfl
@[simp] theorem dramU_ctrs (g : Dram → Dram) (d : Dev) : (dramU g d).ctrs = d.ctrs := rfl
@[simp] theorem dramU_latch (g : Dram → Dram) (d : Dev) : (dramU g d).latch = d.latch := rfl
@[simp] theorem dramU_mem (g : Dram → Dram) (d : Dev) : (dramU g d).mem = d.mem := rfl
@[simp] theorem dramU_wr (g : Dram → Dram) (d : Dev) : (dramU g d).wr = d.wr := rfl
@[simp] theorem dramU_freeIdx (g : Dram → Dram) (d : Dev) : (dramU g d).freeIdx = d.freeIdx := rfl
@[simp] theorem dramU_out (g : Dram → Dram) (d : Dev) : (dramU g d).out = d.out := rfl
@[simp] theorem dramU_fns (g : Dram → Dram) (d : Dev) : (dramU g d).fns = d.fns := rfl
@[simp] theorem dramU_queues (g : Dram → Dram) (d : Dev) : (dramU g d).queues = d.queues := rfl
@[simp] theorem dramU_pkts (g : Dram → Dram) (d : Dev) : (dramU g d).pkts = d.pkts := rfl
@[simp] theorem dramU_pktSeq (g : Dram → Dram) (d : Dev) : (dramU g d).pktSeq = d.pktSeq := rfl
@[simp] theorem dramU_hports (g : Dram → Dram) (d : Dev) : (dramU g d).hports = d.hports := rfl
@[simp] theorem dramU_doms (g : Dram → Dram) (d : Dev) : (dramU g d).doms = d.doms := rfl
@[simp] theorem dramU_fatal (g : Dram → Dram) (d : Dev) : (dramU g d).fatal = d.fatal := rfl
@[simp] theorem dramU_strs (g : Dram → Dram) (d : Dev) : (dramU g d).strs = d.strs := rfl
@[simp] theorem dramU_time (g : Dram → Dram) (d : Dev) : (dramU g d).time = d.time := rfl
@[simp] theorem dramU_taps (g : Dram → Dram) (d : Dev) : (dramU g d).taps = d.taps := rfl
@[simp] theorem dramU_stopped (g : Dram → Dram) (d : Dev) : (dramU g d).stopped = d.stopped := rfl
@[simp] theorem dramU_released (g : Dram → Dram) (d : Dev) : (dramU g d).released = d.released := rfl
@[simp] theorem dramU_errs (g : Dram → Dram) (d : Dev) : (dramU g d).errs = d.errs := rfl
@[simp] theorem dramU_errSeq (g : Dram → Dram) (d : Dev) : (dramU g d).errSeq = d.errSeq := rfl
@[simp] theorem dramU_errAck (g : Dram → Dram) (d : Dev) : (dramU g d).errAck = d.errAck := rfl
@[simp] theorem dramU_xings (g : Dram → Dram) (d : Dev) : (dramU g d).xings = d.xings := rfl
@[simp] theorem dramU_egqs (g : Dram → Dram) (d : Dev) : (dramU g d).egqs = d.egqs := rfl
@[simp] theorem dramU_rates (g : Dram → Dram) (d : Dev) : (dramU g d).rates = d.rates := rfl
@[simp] theorem dramU_ports (g : Dram → Dram) (d : Dev) : (dramU g d).ports = d.ports := rfl
@[simp] theorem dramU_cal (g : Dram → Dram) (d : Dev) : (dramU g d).cal = d.cal := rfl
@[simp] theorem dramU_calSect (g : Dram → Dram) (d : Dev) : (dramU g d).calSect = d.calSect := rfl
@[simp] theorem dramU_calRuns (g : Dram → Dram) (d : Dev) : (dramU g d).calRuns = d.calRuns := rfl
@[simp] theorem dramU_tables (g : Dram → Dram) (d : Dev) : (dramU g d).tables = d.tables := rfl
@[simp] theorem dramU_sessions (g : Dram → Dram) (d : Dev) : (dramU g d).sessions = d.sessions := rfl
@[simp] theorem dramU_policers (g : Dram → Dram) (d : Dev) : (dramU g d).policers = d.policers := rfl
@[simp] theorem dramU_rss (g : Dram → Dram) (d : Dev) : (dramU g d).rss = d.rss := rfl
@[simp] theorem dramU_deepQ (g : Dram → Dram) (d : Dev) : (dramU g d).deepQ = d.deepQ := rfl
@[simp] theorem dramU_dramQ (g : Dram → Dram) (d : Dev) : (dramU g d).dramQ = d.dramQ := rfl
@[simp] theorem dramU_dramLevel (g : Dram → Dram) (d : Dev) : (dramU g d).dramLevel = d.dramLevel := rfl
@[simp] theorem dramU_dramTick (g : Dram → Dram) (d : Dev) : (dramU g d).dramTick = d.dramTick := rfl
@[simp] theorem dramU_courses (g : Dram → Dram) (d : Dev) : (dramU g d).courses = d.courses := rfl
@[simp] theorem dramU_wit (g : Dram → Dram) (d : Dev) : (dramU g d).wit = d.wit := rfl
@[simp] theorem dramU_scheds (g : Dram → Dram) (d : Dev) : (dramU g d).scheds = d.scheds := rfl
@[simp] theorem dramU_copies (g : Dram → Dram) (d : Dev) : (dramU g d).copies = d.copies := rfl
@[simp] theorem dramU_islJobs (g : Dram → Dram) (d : Dev) : (dramU g d).islJobs = d.islJobs := rfl
@[simp] theorem dramU_comps (g : Dram → Dram) (d : Dev) : (dramU g d).comps = d.comps := rfl
@[simp] theorem dramU_untested (g : Dram → Dram) (d : Dev) : (dramU g d).untested = d.untested := rfl
@[simp] theorem dramU_calQ (g : Dram → Dram) (d : Dev) : (dramU g d).calQ = d.calQ := rfl
@[simp] theorem dramU_dram (g : Dram → Dram) (d : Dev) : (dramU g d).dram = g d.dram := rfl
@[simp] theorem dramU_clusters (g : Dram → Dram) (d : Dev) : (dramU g d).clusters = d.clusters := rfl
@[simp] theorem dramU_gates (g : Dram → Dram) (d : Dev) : (dramU g d).gates = d.gates := rfl
@[simp] theorem dramU_spEpoch (g : Dram → Dram) (d : Dev) : (dramU g d).spEpoch = d.spEpoch := rfl
@[simp] theorem dramU_dbgPort (g : Dram → Dram) (d : Dev) : (dramU g d).dbgPort = d.dbgPort := rfl
@[simp] theorem dramU_dbgCores (g : Dram → Dram) (d : Dev) : (dramU g d).dbgCores = d.dbgCores := rfl
@[simp] theorem dramU_ledger (g : Dram → Dram) (d : Dev) : (dramU g d).ledger = d.ledger := rfl
@[simp] theorem dramU_power (g : Dram → Dram) (d : Dev) : (dramU g d).power = d.power := rfl
@[simp] theorem dramU_foot (g : Dram → Dram) (d : Dev) : (dramU g d).foot = d.foot := rfl
@[simp] theorem dramU_domJobs (g : Dram → Dram) (d : Dev) : (dramU g d).domJobs = d.domJobs := rfl
@[simp] theorem dramU_rstJobs (g : Dram → Dram) (d : Dev) : (dramU g d).rstJobs = d.rstJobs := rfl
@[simp] theorem dramU_mapJobs (g : Dram → Dram) (d : Dev) : (dramU g d).mapJobs = d.mapJobs := rfl
@[simp] theorem dramU_resetAt (g : Dram → Dram) (d : Dev) : (dramU g d).resetAt = d.resetAt := rfl
@[simp] theorem dramU_tripped (g : Dram → Dram) (d : Dev) : (dramU g d).tripped = d.tripped := rfl
@[simp] theorem dramU_timeDead (g : Dram → Dram) (d : Dev) : (dramU g d).timeDead = d.timeDead := rfl
@[simp] theorem dramU_hotWarn (g : Dram → Dram) (d : Dev) : (dramU g d).hotWarn = d.hotWarn := rfl
@[simp] theorem dramU_hotCrit (g : Dram → Dram) (d : Dev) : (dramU g d).hotCrit = d.hotCrit := rfl
@[simp] theorem dramU_spdmMctp (g : Dram → Dram) (d : Dev) : (dramU g d).spdmMctp = d.spdmMctp := rfl
@[simp] theorem dramU_eids (g : Dram → Dram) (d : Dev) : (dramU g d).eids = d.eids := rfl
@[simp] theorem dramU_pldm (g : Dram → Dram) (d : Dev) : (dramU g d).pldm = d.pldm := rfl

@[simp] theorem footU_variant (g : Foot → Foot) (d : Dev) : (footU g d).variant = d.variant := rfl
@[simp] theorem footU_regs (g : Foot → Foot) (d : Dev) : (footU g d).regs = d.regs := rfl
@[simp] theorem footU_eff (g : Foot → Foot) (d : Dev) : (footU g d).eff = d.eff := rfl
@[simp] theorem footU_cap (g : Foot → Foot) (d : Dev) : (footU g d).cap = d.cap := rfl
@[simp] theorem footU_halfRx (g : Foot → Foot) (d : Dev) : (footU g d).halfRx = d.halfRx := rfl
@[simp] theorem footU_halfTx (g : Foot → Foot) (d : Dev) : (footU g d).halfTx = d.halfTx := rfl
@[simp] theorem footU_took (g : Foot → Foot) (d : Dev) : (footU g d).took = d.took := rfl
@[simp] theorem footU_ctrs (g : Foot → Foot) (d : Dev) : (footU g d).ctrs = d.ctrs := rfl
@[simp] theorem footU_latch (g : Foot → Foot) (d : Dev) : (footU g d).latch = d.latch := rfl
@[simp] theorem footU_mem (g : Foot → Foot) (d : Dev) : (footU g d).mem = d.mem := rfl
@[simp] theorem footU_wr (g : Foot → Foot) (d : Dev) : (footU g d).wr = d.wr := rfl
@[simp] theorem footU_freeIdx (g : Foot → Foot) (d : Dev) : (footU g d).freeIdx = d.freeIdx := rfl
@[simp] theorem footU_out (g : Foot → Foot) (d : Dev) : (footU g d).out = d.out := rfl
@[simp] theorem footU_fns (g : Foot → Foot) (d : Dev) : (footU g d).fns = d.fns := rfl
@[simp] theorem footU_queues (g : Foot → Foot) (d : Dev) : (footU g d).queues = d.queues := rfl
@[simp] theorem footU_pkts (g : Foot → Foot) (d : Dev) : (footU g d).pkts = d.pkts := rfl
@[simp] theorem footU_pktSeq (g : Foot → Foot) (d : Dev) : (footU g d).pktSeq = d.pktSeq := rfl
@[simp] theorem footU_hports (g : Foot → Foot) (d : Dev) : (footU g d).hports = d.hports := rfl
@[simp] theorem footU_doms (g : Foot → Foot) (d : Dev) : (footU g d).doms = d.doms := rfl
@[simp] theorem footU_fatal (g : Foot → Foot) (d : Dev) : (footU g d).fatal = d.fatal := rfl
@[simp] theorem footU_strs (g : Foot → Foot) (d : Dev) : (footU g d).strs = d.strs := rfl
@[simp] theorem footU_time (g : Foot → Foot) (d : Dev) : (footU g d).time = d.time := rfl
@[simp] theorem footU_taps (g : Foot → Foot) (d : Dev) : (footU g d).taps = d.taps := rfl
@[simp] theorem footU_stopped (g : Foot → Foot) (d : Dev) : (footU g d).stopped = d.stopped := rfl
@[simp] theorem footU_released (g : Foot → Foot) (d : Dev) : (footU g d).released = d.released := rfl
@[simp] theorem footU_errs (g : Foot → Foot) (d : Dev) : (footU g d).errs = d.errs := rfl
@[simp] theorem footU_errSeq (g : Foot → Foot) (d : Dev) : (footU g d).errSeq = d.errSeq := rfl
@[simp] theorem footU_errAck (g : Foot → Foot) (d : Dev) : (footU g d).errAck = d.errAck := rfl
@[simp] theorem footU_xings (g : Foot → Foot) (d : Dev) : (footU g d).xings = d.xings := rfl
@[simp] theorem footU_egqs (g : Foot → Foot) (d : Dev) : (footU g d).egqs = d.egqs := rfl
@[simp] theorem footU_rates (g : Foot → Foot) (d : Dev) : (footU g d).rates = d.rates := rfl
@[simp] theorem footU_ports (g : Foot → Foot) (d : Dev) : (footU g d).ports = d.ports := rfl
@[simp] theorem footU_cal (g : Foot → Foot) (d : Dev) : (footU g d).cal = d.cal := rfl
@[simp] theorem footU_calSect (g : Foot → Foot) (d : Dev) : (footU g d).calSect = d.calSect := rfl
@[simp] theorem footU_calRuns (g : Foot → Foot) (d : Dev) : (footU g d).calRuns = d.calRuns := rfl
@[simp] theorem footU_tables (g : Foot → Foot) (d : Dev) : (footU g d).tables = d.tables := rfl
@[simp] theorem footU_sessions (g : Foot → Foot) (d : Dev) : (footU g d).sessions = d.sessions := rfl
@[simp] theorem footU_policers (g : Foot → Foot) (d : Dev) : (footU g d).policers = d.policers := rfl
@[simp] theorem footU_rss (g : Foot → Foot) (d : Dev) : (footU g d).rss = d.rss := rfl
@[simp] theorem footU_deepQ (g : Foot → Foot) (d : Dev) : (footU g d).deepQ = d.deepQ := rfl
@[simp] theorem footU_dramQ (g : Foot → Foot) (d : Dev) : (footU g d).dramQ = d.dramQ := rfl
@[simp] theorem footU_dramLevel (g : Foot → Foot) (d : Dev) : (footU g d).dramLevel = d.dramLevel := rfl
@[simp] theorem footU_dramTick (g : Foot → Foot) (d : Dev) : (footU g d).dramTick = d.dramTick := rfl
@[simp] theorem footU_courses (g : Foot → Foot) (d : Dev) : (footU g d).courses = d.courses := rfl
@[simp] theorem footU_wit (g : Foot → Foot) (d : Dev) : (footU g d).wit = d.wit := rfl
@[simp] theorem footU_scheds (g : Foot → Foot) (d : Dev) : (footU g d).scheds = d.scheds := rfl
@[simp] theorem footU_copies (g : Foot → Foot) (d : Dev) : (footU g d).copies = d.copies := rfl
@[simp] theorem footU_islJobs (g : Foot → Foot) (d : Dev) : (footU g d).islJobs = d.islJobs := rfl
@[simp] theorem footU_comps (g : Foot → Foot) (d : Dev) : (footU g d).comps = d.comps := rfl
@[simp] theorem footU_untested (g : Foot → Foot) (d : Dev) : (footU g d).untested = d.untested := rfl
@[simp] theorem footU_calQ (g : Foot → Foot) (d : Dev) : (footU g d).calQ = d.calQ := rfl
@[simp] theorem footU_dram (g : Foot → Foot) (d : Dev) : (footU g d).dram = d.dram := rfl
@[simp] theorem footU_clusters (g : Foot → Foot) (d : Dev) : (footU g d).clusters = d.clusters := rfl
@[simp] theorem footU_gates (g : Foot → Foot) (d : Dev) : (footU g d).gates = d.gates := rfl
@[simp] theorem footU_spEpoch (g : Foot → Foot) (d : Dev) : (footU g d).spEpoch = d.spEpoch := rfl
@[simp] theorem footU_dbgPort (g : Foot → Foot) (d : Dev) : (footU g d).dbgPort = d.dbgPort := rfl
@[simp] theorem footU_dbgCores (g : Foot → Foot) (d : Dev) : (footU g d).dbgCores = d.dbgCores := rfl
@[simp] theorem footU_ledger (g : Foot → Foot) (d : Dev) : (footU g d).ledger = d.ledger := rfl
@[simp] theorem footU_power (g : Foot → Foot) (d : Dev) : (footU g d).power = d.power := rfl
@[simp] theorem footU_foot (g : Foot → Foot) (d : Dev) : (footU g d).foot = g d.foot := rfl
@[simp] theorem footU_domJobs (g : Foot → Foot) (d : Dev) : (footU g d).domJobs = d.domJobs := rfl
@[simp] theorem footU_rstJobs (g : Foot → Foot) (d : Dev) : (footU g d).rstJobs = d.rstJobs := rfl
@[simp] theorem footU_mapJobs (g : Foot → Foot) (d : Dev) : (footU g d).mapJobs = d.mapJobs := rfl
@[simp] theorem footU_resetAt (g : Foot → Foot) (d : Dev) : (footU g d).resetAt = d.resetAt := rfl
@[simp] theorem footU_tripped (g : Foot → Foot) (d : Dev) : (footU g d).tripped = d.tripped := rfl
@[simp] theorem footU_timeDead (g : Foot → Foot) (d : Dev) : (footU g d).timeDead = d.timeDead := rfl
@[simp] theorem footU_hotWarn (g : Foot → Foot) (d : Dev) : (footU g d).hotWarn = d.hotWarn := rfl
@[simp] theorem footU_hotCrit (g : Foot → Foot) (d : Dev) : (footU g d).hotCrit = d.hotCrit := rfl
@[simp] theorem footU_spdmMctp (g : Foot → Foot) (d : Dev) : (footU g d).spdmMctp = d.spdmMctp := rfl
@[simp] theorem footU_eids (g : Foot → Foot) (d : Dev) : (footU g d).eids = d.eids := rfl
@[simp] theorem footU_pldm (g : Foot → Foot) (d : Dev) : (footU g d).pldm = d.pldm := rfl

@[simp] theorem cluU_variant (c : Nat) (g : GClu → GClu) (d : Dev) : (cluU c g d).variant = d.variant := rfl
@[simp] theorem cluU_regs (c : Nat) (g : GClu → GClu) (d : Dev) : (cluU c g d).regs = d.regs := rfl
@[simp] theorem cluU_eff (c : Nat) (g : GClu → GClu) (d : Dev) : (cluU c g d).eff = d.eff := rfl
@[simp] theorem cluU_cap (c : Nat) (g : GClu → GClu) (d : Dev) : (cluU c g d).cap = d.cap := rfl
@[simp] theorem cluU_halfRx (c : Nat) (g : GClu → GClu) (d : Dev) : (cluU c g d).halfRx = d.halfRx := rfl
@[simp] theorem cluU_halfTx (c : Nat) (g : GClu → GClu) (d : Dev) : (cluU c g d).halfTx = d.halfTx := rfl
@[simp] theorem cluU_took (c : Nat) (g : GClu → GClu) (d : Dev) : (cluU c g d).took = d.took := rfl
@[simp] theorem cluU_ctrs (c : Nat) (g : GClu → GClu) (d : Dev) : (cluU c g d).ctrs = d.ctrs := rfl
@[simp] theorem cluU_latch (c : Nat) (g : GClu → GClu) (d : Dev) : (cluU c g d).latch = d.latch := rfl
@[simp] theorem cluU_mem (c : Nat) (g : GClu → GClu) (d : Dev) : (cluU c g d).mem = d.mem := rfl
@[simp] theorem cluU_wr (c : Nat) (g : GClu → GClu) (d : Dev) : (cluU c g d).wr = d.wr := rfl
@[simp] theorem cluU_freeIdx (c : Nat) (g : GClu → GClu) (d : Dev) : (cluU c g d).freeIdx = d.freeIdx := rfl
@[simp] theorem cluU_out (c : Nat) (g : GClu → GClu) (d : Dev) : (cluU c g d).out = d.out := rfl
@[simp] theorem cluU_fns (c : Nat) (g : GClu → GClu) (d : Dev) : (cluU c g d).fns = d.fns := rfl
@[simp] theorem cluU_queues (c : Nat) (g : GClu → GClu) (d : Dev) : (cluU c g d).queues = d.queues := rfl
@[simp] theorem cluU_pkts (c : Nat) (g : GClu → GClu) (d : Dev) : (cluU c g d).pkts = d.pkts := rfl
@[simp] theorem cluU_pktSeq (c : Nat) (g : GClu → GClu) (d : Dev) : (cluU c g d).pktSeq = d.pktSeq := rfl
@[simp] theorem cluU_hports (c : Nat) (g : GClu → GClu) (d : Dev) : (cluU c g d).hports = d.hports := rfl
@[simp] theorem cluU_doms (c : Nat) (g : GClu → GClu) (d : Dev) : (cluU c g d).doms = d.doms := rfl
@[simp] theorem cluU_fatal (c : Nat) (g : GClu → GClu) (d : Dev) : (cluU c g d).fatal = d.fatal := rfl
@[simp] theorem cluU_strs (c : Nat) (g : GClu → GClu) (d : Dev) : (cluU c g d).strs = d.strs := rfl
@[simp] theorem cluU_time (c : Nat) (g : GClu → GClu) (d : Dev) : (cluU c g d).time = d.time := rfl
@[simp] theorem cluU_taps (c : Nat) (g : GClu → GClu) (d : Dev) : (cluU c g d).taps = d.taps := rfl
@[simp] theorem cluU_stopped (c : Nat) (g : GClu → GClu) (d : Dev) : (cluU c g d).stopped = d.stopped := rfl
@[simp] theorem cluU_released (c : Nat) (g : GClu → GClu) (d : Dev) : (cluU c g d).released = d.released := rfl
@[simp] theorem cluU_errs (c : Nat) (g : GClu → GClu) (d : Dev) : (cluU c g d).errs = d.errs := rfl
@[simp] theorem cluU_errSeq (c : Nat) (g : GClu → GClu) (d : Dev) : (cluU c g d).errSeq = d.errSeq := rfl
@[simp] theorem cluU_errAck (c : Nat) (g : GClu → GClu) (d : Dev) : (cluU c g d).errAck = d.errAck := rfl
@[simp] theorem cluU_xings (c : Nat) (g : GClu → GClu) (d : Dev) : (cluU c g d).xings = d.xings := rfl
@[simp] theorem cluU_egqs (c : Nat) (g : GClu → GClu) (d : Dev) : (cluU c g d).egqs = d.egqs := rfl
@[simp] theorem cluU_rates (c : Nat) (g : GClu → GClu) (d : Dev) : (cluU c g d).rates = d.rates := rfl
@[simp] theorem cluU_ports (c : Nat) (g : GClu → GClu) (d : Dev) : (cluU c g d).ports = d.ports := rfl
@[simp] theorem cluU_cal (c : Nat) (g : GClu → GClu) (d : Dev) : (cluU c g d).cal = d.cal := rfl
@[simp] theorem cluU_calSect (c : Nat) (g : GClu → GClu) (d : Dev) : (cluU c g d).calSect = d.calSect := rfl
@[simp] theorem cluU_calRuns (c : Nat) (g : GClu → GClu) (d : Dev) : (cluU c g d).calRuns = d.calRuns := rfl
@[simp] theorem cluU_tables (c : Nat) (g : GClu → GClu) (d : Dev) : (cluU c g d).tables = d.tables := rfl
@[simp] theorem cluU_sessions (c : Nat) (g : GClu → GClu) (d : Dev) : (cluU c g d).sessions = d.sessions := rfl
@[simp] theorem cluU_policers (c : Nat) (g : GClu → GClu) (d : Dev) : (cluU c g d).policers = d.policers := rfl
@[simp] theorem cluU_rss (c : Nat) (g : GClu → GClu) (d : Dev) : (cluU c g d).rss = d.rss := rfl
@[simp] theorem cluU_deepQ (c : Nat) (g : GClu → GClu) (d : Dev) : (cluU c g d).deepQ = d.deepQ := rfl
@[simp] theorem cluU_dramQ (c : Nat) (g : GClu → GClu) (d : Dev) : (cluU c g d).dramQ = d.dramQ := rfl
@[simp] theorem cluU_dramLevel (c : Nat) (g : GClu → GClu) (d : Dev) : (cluU c g d).dramLevel = d.dramLevel := rfl
@[simp] theorem cluU_dramTick (c : Nat) (g : GClu → GClu) (d : Dev) : (cluU c g d).dramTick = d.dramTick := rfl
@[simp] theorem cluU_courses (c : Nat) (g : GClu → GClu) (d : Dev) : (cluU c g d).courses = d.courses := rfl
@[simp] theorem cluU_wit (c : Nat) (g : GClu → GClu) (d : Dev) : (cluU c g d).wit = d.wit := rfl
@[simp] theorem cluU_scheds (c : Nat) (g : GClu → GClu) (d : Dev) : (cluU c g d).scheds = d.scheds := rfl
@[simp] theorem cluU_copies (c : Nat) (g : GClu → GClu) (d : Dev) : (cluU c g d).copies = d.copies := rfl
@[simp] theorem cluU_islJobs (c : Nat) (g : GClu → GClu) (d : Dev) : (cluU c g d).islJobs = d.islJobs := rfl
@[simp] theorem cluU_comps (c : Nat) (g : GClu → GClu) (d : Dev) : (cluU c g d).comps = d.comps := rfl
@[simp] theorem cluU_untested (c : Nat) (g : GClu → GClu) (d : Dev) : (cluU c g d).untested = d.untested := rfl
@[simp] theorem cluU_calQ (c : Nat) (g : GClu → GClu) (d : Dev) : (cluU c g d).calQ = d.calQ := rfl
@[simp] theorem cluU_dram (c : Nat) (g : GClu → GClu) (d : Dev) : (cluU c g d).dram = d.dram := rfl
@[simp] theorem cluU_clusters (c : Nat) (g : GClu → GClu) (d : Dev) : (cluU c g d).clusters = Tbl.upd (fun _ => {}) d.clusters c g := rfl
@[simp] theorem cluU_gates (c : Nat) (g : GClu → GClu) (d : Dev) : (cluU c g d).gates = d.gates := rfl
@[simp] theorem cluU_spEpoch (c : Nat) (g : GClu → GClu) (d : Dev) : (cluU c g d).spEpoch = d.spEpoch := rfl
@[simp] theorem cluU_dbgPort (c : Nat) (g : GClu → GClu) (d : Dev) : (cluU c g d).dbgPort = d.dbgPort := rfl
@[simp] theorem cluU_dbgCores (c : Nat) (g : GClu → GClu) (d : Dev) : (cluU c g d).dbgCores = d.dbgCores := rfl
@[simp] theorem cluU_ledger (c : Nat) (g : GClu → GClu) (d : Dev) : (cluU c g d).ledger = d.ledger := rfl
@[simp] theorem cluU_power (c : Nat) (g : GClu → GClu) (d : Dev) : (cluU c g d).power = d.power := rfl
@[simp] theorem cluU_foot (c : Nat) (g : GClu → GClu) (d : Dev) : (cluU c g d).foot = d.foot := rfl
@[simp] theorem cluU_domJobs (c : Nat) (g : GClu → GClu) (d : Dev) : (cluU c g d).domJobs = d.domJobs := rfl
@[simp] theorem cluU_rstJobs (c : Nat) (g : GClu → GClu) (d : Dev) : (cluU c g d).rstJobs = d.rstJobs := rfl
@[simp] theorem cluU_mapJobs (c : Nat) (g : GClu → GClu) (d : Dev) : (cluU c g d).mapJobs = d.mapJobs := rfl
@[simp] theorem cluU_resetAt (c : Nat) (g : GClu → GClu) (d : Dev) : (cluU c g d).resetAt = d.resetAt := rfl
@[simp] theorem cluU_tripped (c : Nat) (g : GClu → GClu) (d : Dev) : (cluU c g d).tripped = d.tripped := rfl
@[simp] theorem cluU_timeDead (c : Nat) (g : GClu → GClu) (d : Dev) : (cluU c g d).timeDead = d.timeDead := rfl
@[simp] theorem cluU_hotWarn (c : Nat) (g : GClu → GClu) (d : Dev) : (cluU c g d).hotWarn = d.hotWarn := rfl
@[simp] theorem cluU_hotCrit (c : Nat) (g : GClu → GClu) (d : Dev) : (cluU c g d).hotCrit = d.hotCrit := rfl
@[simp] theorem cluU_spdmMctp (c : Nat) (g : GClu → GClu) (d : Dev) : (cluU c g d).spdmMctp = d.spdmMctp := rfl
@[simp] theorem cluU_eids (c : Nat) (g : GClu → GClu) (d : Dev) : (cluU c g d).eids = d.eids := rfl
@[simp] theorem cluU_pldm (c : Nat) (g : GClu → GClu) (d : Dev) : (cluU c g d).pldm = d.pldm := rfl

@[simp] theorem ledU_variant (g : Ledger → Ledger) (d : Dev) : (ledU g d).variant = d.variant := rfl
@[simp] theorem ledU_regs (g : Ledger → Ledger) (d : Dev) : (ledU g d).regs = d.regs := rfl
@[simp] theorem ledU_eff (g : Ledger → Ledger) (d : Dev) : (ledU g d).eff = d.eff := rfl
@[simp] theorem ledU_cap (g : Ledger → Ledger) (d : Dev) : (ledU g d).cap = d.cap := rfl
@[simp] theorem ledU_halfRx (g : Ledger → Ledger) (d : Dev) : (ledU g d).halfRx = d.halfRx := rfl
@[simp] theorem ledU_halfTx (g : Ledger → Ledger) (d : Dev) : (ledU g d).halfTx = d.halfTx := rfl
@[simp] theorem ledU_took (g : Ledger → Ledger) (d : Dev) : (ledU g d).took = d.took := rfl
@[simp] theorem ledU_ctrs (g : Ledger → Ledger) (d : Dev) : (ledU g d).ctrs = d.ctrs := rfl
@[simp] theorem ledU_latch (g : Ledger → Ledger) (d : Dev) : (ledU g d).latch = d.latch := rfl
@[simp] theorem ledU_mem (g : Ledger → Ledger) (d : Dev) : (ledU g d).mem = d.mem := rfl
@[simp] theorem ledU_wr (g : Ledger → Ledger) (d : Dev) : (ledU g d).wr = d.wr := rfl
@[simp] theorem ledU_freeIdx (g : Ledger → Ledger) (d : Dev) : (ledU g d).freeIdx = d.freeIdx := rfl
@[simp] theorem ledU_out (g : Ledger → Ledger) (d : Dev) : (ledU g d).out = d.out := rfl
@[simp] theorem ledU_fns (g : Ledger → Ledger) (d : Dev) : (ledU g d).fns = d.fns := rfl
@[simp] theorem ledU_queues (g : Ledger → Ledger) (d : Dev) : (ledU g d).queues = d.queues := rfl
@[simp] theorem ledU_pkts (g : Ledger → Ledger) (d : Dev) : (ledU g d).pkts = d.pkts := rfl
@[simp] theorem ledU_pktSeq (g : Ledger → Ledger) (d : Dev) : (ledU g d).pktSeq = d.pktSeq := rfl
@[simp] theorem ledU_hports (g : Ledger → Ledger) (d : Dev) : (ledU g d).hports = d.hports := rfl
@[simp] theorem ledU_doms (g : Ledger → Ledger) (d : Dev) : (ledU g d).doms = d.doms := rfl
@[simp] theorem ledU_fatal (g : Ledger → Ledger) (d : Dev) : (ledU g d).fatal = d.fatal := rfl
@[simp] theorem ledU_strs (g : Ledger → Ledger) (d : Dev) : (ledU g d).strs = d.strs := rfl
@[simp] theorem ledU_time (g : Ledger → Ledger) (d : Dev) : (ledU g d).time = d.time := rfl
@[simp] theorem ledU_taps (g : Ledger → Ledger) (d : Dev) : (ledU g d).taps = d.taps := rfl
@[simp] theorem ledU_stopped (g : Ledger → Ledger) (d : Dev) : (ledU g d).stopped = d.stopped := rfl
@[simp] theorem ledU_released (g : Ledger → Ledger) (d : Dev) : (ledU g d).released = d.released := rfl
@[simp] theorem ledU_errs (g : Ledger → Ledger) (d : Dev) : (ledU g d).errs = d.errs := rfl
@[simp] theorem ledU_errSeq (g : Ledger → Ledger) (d : Dev) : (ledU g d).errSeq = d.errSeq := rfl
@[simp] theorem ledU_errAck (g : Ledger → Ledger) (d : Dev) : (ledU g d).errAck = d.errAck := rfl
@[simp] theorem ledU_xings (g : Ledger → Ledger) (d : Dev) : (ledU g d).xings = d.xings := rfl
@[simp] theorem ledU_egqs (g : Ledger → Ledger) (d : Dev) : (ledU g d).egqs = d.egqs := rfl
@[simp] theorem ledU_rates (g : Ledger → Ledger) (d : Dev) : (ledU g d).rates = d.rates := rfl
@[simp] theorem ledU_ports (g : Ledger → Ledger) (d : Dev) : (ledU g d).ports = d.ports := rfl
@[simp] theorem ledU_cal (g : Ledger → Ledger) (d : Dev) : (ledU g d).cal = d.cal := rfl
@[simp] theorem ledU_calSect (g : Ledger → Ledger) (d : Dev) : (ledU g d).calSect = d.calSect := rfl
@[simp] theorem ledU_calRuns (g : Ledger → Ledger) (d : Dev) : (ledU g d).calRuns = d.calRuns := rfl
@[simp] theorem ledU_tables (g : Ledger → Ledger) (d : Dev) : (ledU g d).tables = d.tables := rfl
@[simp] theorem ledU_sessions (g : Ledger → Ledger) (d : Dev) : (ledU g d).sessions = d.sessions := rfl
@[simp] theorem ledU_policers (g : Ledger → Ledger) (d : Dev) : (ledU g d).policers = d.policers := rfl
@[simp] theorem ledU_rss (g : Ledger → Ledger) (d : Dev) : (ledU g d).rss = d.rss := rfl
@[simp] theorem ledU_deepQ (g : Ledger → Ledger) (d : Dev) : (ledU g d).deepQ = d.deepQ := rfl
@[simp] theorem ledU_dramQ (g : Ledger → Ledger) (d : Dev) : (ledU g d).dramQ = d.dramQ := rfl
@[simp] theorem ledU_dramLevel (g : Ledger → Ledger) (d : Dev) : (ledU g d).dramLevel = d.dramLevel := rfl
@[simp] theorem ledU_dramTick (g : Ledger → Ledger) (d : Dev) : (ledU g d).dramTick = d.dramTick := rfl
@[simp] theorem ledU_courses (g : Ledger → Ledger) (d : Dev) : (ledU g d).courses = d.courses := rfl
@[simp] theorem ledU_wit (g : Ledger → Ledger) (d : Dev) : (ledU g d).wit = d.wit := rfl
@[simp] theorem ledU_scheds (g : Ledger → Ledger) (d : Dev) : (ledU g d).scheds = d.scheds := rfl
@[simp] theorem ledU_copies (g : Ledger → Ledger) (d : Dev) : (ledU g d).copies = d.copies := rfl
@[simp] theorem ledU_islJobs (g : Ledger → Ledger) (d : Dev) : (ledU g d).islJobs = d.islJobs := rfl
@[simp] theorem ledU_comps (g : Ledger → Ledger) (d : Dev) : (ledU g d).comps = d.comps := rfl
@[simp] theorem ledU_untested (g : Ledger → Ledger) (d : Dev) : (ledU g d).untested = d.untested := rfl
@[simp] theorem ledU_calQ (g : Ledger → Ledger) (d : Dev) : (ledU g d).calQ = d.calQ := rfl
@[simp] theorem ledU_dram (g : Ledger → Ledger) (d : Dev) : (ledU g d).dram = d.dram := rfl
@[simp] theorem ledU_clusters (g : Ledger → Ledger) (d : Dev) : (ledU g d).clusters = d.clusters := rfl
@[simp] theorem ledU_gates (g : Ledger → Ledger) (d : Dev) : (ledU g d).gates = d.gates := rfl
@[simp] theorem ledU_spEpoch (g : Ledger → Ledger) (d : Dev) : (ledU g d).spEpoch = d.spEpoch := rfl
@[simp] theorem ledU_dbgPort (g : Ledger → Ledger) (d : Dev) : (ledU g d).dbgPort = d.dbgPort := rfl
@[simp] theorem ledU_dbgCores (g : Ledger → Ledger) (d : Dev) : (ledU g d).dbgCores = d.dbgCores := rfl
@[simp] theorem ledU_ledger (g : Ledger → Ledger) (d : Dev) : (ledU g d).ledger = g d.ledger := rfl
@[simp] theorem ledU_power (g : Ledger → Ledger) (d : Dev) : (ledU g d).power = d.power := rfl
@[simp] theorem ledU_foot (g : Ledger → Ledger) (d : Dev) : (ledU g d).foot = d.foot := rfl
@[simp] theorem ledU_domJobs (g : Ledger → Ledger) (d : Dev) : (ledU g d).domJobs = d.domJobs := rfl
@[simp] theorem ledU_rstJobs (g : Ledger → Ledger) (d : Dev) : (ledU g d).rstJobs = d.rstJobs := rfl
@[simp] theorem ledU_mapJobs (g : Ledger → Ledger) (d : Dev) : (ledU g d).mapJobs = d.mapJobs := rfl
@[simp] theorem ledU_resetAt (g : Ledger → Ledger) (d : Dev) : (ledU g d).resetAt = d.resetAt := rfl
@[simp] theorem ledU_tripped (g : Ledger → Ledger) (d : Dev) : (ledU g d).tripped = d.tripped := rfl
@[simp] theorem ledU_timeDead (g : Ledger → Ledger) (d : Dev) : (ledU g d).timeDead = d.timeDead := rfl
@[simp] theorem ledU_hotWarn (g : Ledger → Ledger) (d : Dev) : (ledU g d).hotWarn = d.hotWarn := rfl
@[simp] theorem ledU_hotCrit (g : Ledger → Ledger) (d : Dev) : (ledU g d).hotCrit = d.hotCrit := rfl
@[simp] theorem ledU_spdmMctp (g : Ledger → Ledger) (d : Dev) : (ledU g d).spdmMctp = d.spdmMctp := rfl
@[simp] theorem ledU_eids (g : Ledger → Ledger) (d : Dev) : (ledU g d).eids = d.eids := rfl
@[simp] theorem ledU_pldm (g : Ledger → Ledger) (d : Dev) : (ledU g d).pldm = d.pldm := rfl

@[simp] theorem courseU_variant (c : Nat) (g : Course → Course) (d : Dev) : (courseU c g d).variant = d.variant := rfl
@[simp] theorem courseU_regs (c : Nat) (g : Course → Course) (d : Dev) : (courseU c g d).regs = d.regs := rfl
@[simp] theorem courseU_eff (c : Nat) (g : Course → Course) (d : Dev) : (courseU c g d).eff = d.eff := rfl
@[simp] theorem courseU_cap (c : Nat) (g : Course → Course) (d : Dev) : (courseU c g d).cap = d.cap := rfl
@[simp] theorem courseU_halfRx (c : Nat) (g : Course → Course) (d : Dev) : (courseU c g d).halfRx = d.halfRx := rfl
@[simp] theorem courseU_halfTx (c : Nat) (g : Course → Course) (d : Dev) : (courseU c g d).halfTx = d.halfTx := rfl
@[simp] theorem courseU_took (c : Nat) (g : Course → Course) (d : Dev) : (courseU c g d).took = d.took := rfl
@[simp] theorem courseU_ctrs (c : Nat) (g : Course → Course) (d : Dev) : (courseU c g d).ctrs = d.ctrs := rfl
@[simp] theorem courseU_latch (c : Nat) (g : Course → Course) (d : Dev) : (courseU c g d).latch = d.latch := rfl
@[simp] theorem courseU_mem (c : Nat) (g : Course → Course) (d : Dev) : (courseU c g d).mem = d.mem := rfl
@[simp] theorem courseU_wr (c : Nat) (g : Course → Course) (d : Dev) : (courseU c g d).wr = d.wr := rfl
@[simp] theorem courseU_freeIdx (c : Nat) (g : Course → Course) (d : Dev) : (courseU c g d).freeIdx = d.freeIdx := rfl
@[simp] theorem courseU_out (c : Nat) (g : Course → Course) (d : Dev) : (courseU c g d).out = d.out := rfl
@[simp] theorem courseU_fns (c : Nat) (g : Course → Course) (d : Dev) : (courseU c g d).fns = d.fns := rfl
@[simp] theorem courseU_queues (c : Nat) (g : Course → Course) (d : Dev) : (courseU c g d).queues = d.queues := rfl
@[simp] theorem courseU_pkts (c : Nat) (g : Course → Course) (d : Dev) : (courseU c g d).pkts = d.pkts := rfl
@[simp] theorem courseU_pktSeq (c : Nat) (g : Course → Course) (d : Dev) : (courseU c g d).pktSeq = d.pktSeq := rfl
@[simp] theorem courseU_hports (c : Nat) (g : Course → Course) (d : Dev) : (courseU c g d).hports = d.hports := rfl
@[simp] theorem courseU_doms (c : Nat) (g : Course → Course) (d : Dev) : (courseU c g d).doms = d.doms := rfl
@[simp] theorem courseU_fatal (c : Nat) (g : Course → Course) (d : Dev) : (courseU c g d).fatal = d.fatal := rfl
@[simp] theorem courseU_strs (c : Nat) (g : Course → Course) (d : Dev) : (courseU c g d).strs = d.strs := rfl
@[simp] theorem courseU_time (c : Nat) (g : Course → Course) (d : Dev) : (courseU c g d).time = d.time := rfl
@[simp] theorem courseU_taps (c : Nat) (g : Course → Course) (d : Dev) : (courseU c g d).taps = d.taps := rfl
@[simp] theorem courseU_stopped (c : Nat) (g : Course → Course) (d : Dev) : (courseU c g d).stopped = d.stopped := rfl
@[simp] theorem courseU_released (c : Nat) (g : Course → Course) (d : Dev) : (courseU c g d).released = d.released := rfl
@[simp] theorem courseU_errs (c : Nat) (g : Course → Course) (d : Dev) : (courseU c g d).errs = d.errs := rfl
@[simp] theorem courseU_errSeq (c : Nat) (g : Course → Course) (d : Dev) : (courseU c g d).errSeq = d.errSeq := rfl
@[simp] theorem courseU_errAck (c : Nat) (g : Course → Course) (d : Dev) : (courseU c g d).errAck = d.errAck := rfl
@[simp] theorem courseU_xings (c : Nat) (g : Course → Course) (d : Dev) : (courseU c g d).xings = d.xings := rfl
@[simp] theorem courseU_egqs (c : Nat) (g : Course → Course) (d : Dev) : (courseU c g d).egqs = d.egqs := rfl
@[simp] theorem courseU_rates (c : Nat) (g : Course → Course) (d : Dev) : (courseU c g d).rates = d.rates := rfl
@[simp] theorem courseU_ports (c : Nat) (g : Course → Course) (d : Dev) : (courseU c g d).ports = d.ports := rfl
@[simp] theorem courseU_cal (c : Nat) (g : Course → Course) (d : Dev) : (courseU c g d).cal = d.cal := rfl
@[simp] theorem courseU_calSect (c : Nat) (g : Course → Course) (d : Dev) : (courseU c g d).calSect = d.calSect := rfl
@[simp] theorem courseU_calRuns (c : Nat) (g : Course → Course) (d : Dev) : (courseU c g d).calRuns = d.calRuns := rfl
@[simp] theorem courseU_tables (c : Nat) (g : Course → Course) (d : Dev) : (courseU c g d).tables = d.tables := rfl
@[simp] theorem courseU_sessions (c : Nat) (g : Course → Course) (d : Dev) : (courseU c g d).sessions = d.sessions := rfl
@[simp] theorem courseU_policers (c : Nat) (g : Course → Course) (d : Dev) : (courseU c g d).policers = d.policers := rfl
@[simp] theorem courseU_rss (c : Nat) (g : Course → Course) (d : Dev) : (courseU c g d).rss = d.rss := rfl
@[simp] theorem courseU_deepQ (c : Nat) (g : Course → Course) (d : Dev) : (courseU c g d).deepQ = d.deepQ := rfl
@[simp] theorem courseU_dramQ (c : Nat) (g : Course → Course) (d : Dev) : (courseU c g d).dramQ = d.dramQ := rfl
@[simp] theorem courseU_dramLevel (c : Nat) (g : Course → Course) (d : Dev) : (courseU c g d).dramLevel = d.dramLevel := rfl
@[simp] theorem courseU_dramTick (c : Nat) (g : Course → Course) (d : Dev) : (courseU c g d).dramTick = d.dramTick := rfl
@[simp] theorem courseU_courses (c : Nat) (g : Course → Course) (d : Dev) : (courseU c g d).courses = Tbl.upd (fun _ => {}) d.courses c g := rfl
@[simp] theorem courseU_wit (c : Nat) (g : Course → Course) (d : Dev) : (courseU c g d).wit = d.wit := rfl
@[simp] theorem courseU_scheds (c : Nat) (g : Course → Course) (d : Dev) : (courseU c g d).scheds = d.scheds := rfl
@[simp] theorem courseU_copies (c : Nat) (g : Course → Course) (d : Dev) : (courseU c g d).copies = d.copies := rfl
@[simp] theorem courseU_islJobs (c : Nat) (g : Course → Course) (d : Dev) : (courseU c g d).islJobs = d.islJobs := rfl
@[simp] theorem courseU_comps (c : Nat) (g : Course → Course) (d : Dev) : (courseU c g d).comps = d.comps := rfl
@[simp] theorem courseU_untested (c : Nat) (g : Course → Course) (d : Dev) : (courseU c g d).untested = d.untested := rfl
@[simp] theorem courseU_calQ (c : Nat) (g : Course → Course) (d : Dev) : (courseU c g d).calQ = d.calQ := rfl
@[simp] theorem courseU_dram (c : Nat) (g : Course → Course) (d : Dev) : (courseU c g d).dram = d.dram := rfl
@[simp] theorem courseU_clusters (c : Nat) (g : Course → Course) (d : Dev) : (courseU c g d).clusters = d.clusters := rfl
@[simp] theorem courseU_gates (c : Nat) (g : Course → Course) (d : Dev) : (courseU c g d).gates = d.gates := rfl
@[simp] theorem courseU_spEpoch (c : Nat) (g : Course → Course) (d : Dev) : (courseU c g d).spEpoch = d.spEpoch := rfl
@[simp] theorem courseU_dbgPort (c : Nat) (g : Course → Course) (d : Dev) : (courseU c g d).dbgPort = d.dbgPort := rfl
@[simp] theorem courseU_dbgCores (c : Nat) (g : Course → Course) (d : Dev) : (courseU c g d).dbgCores = d.dbgCores := rfl
@[simp] theorem courseU_ledger (c : Nat) (g : Course → Course) (d : Dev) : (courseU c g d).ledger = d.ledger := rfl
@[simp] theorem courseU_power (c : Nat) (g : Course → Course) (d : Dev) : (courseU c g d).power = d.power := rfl
@[simp] theorem courseU_foot (c : Nat) (g : Course → Course) (d : Dev) : (courseU c g d).foot = d.foot := rfl
@[simp] theorem courseU_domJobs (c : Nat) (g : Course → Course) (d : Dev) : (courseU c g d).domJobs = d.domJobs := rfl
@[simp] theorem courseU_rstJobs (c : Nat) (g : Course → Course) (d : Dev) : (courseU c g d).rstJobs = d.rstJobs := rfl
@[simp] theorem courseU_mapJobs (c : Nat) (g : Course → Course) (d : Dev) : (courseU c g d).mapJobs = d.mapJobs := rfl
@[simp] theorem courseU_resetAt (c : Nat) (g : Course → Course) (d : Dev) : (courseU c g d).resetAt = d.resetAt := rfl
@[simp] theorem courseU_tripped (c : Nat) (g : Course → Course) (d : Dev) : (courseU c g d).tripped = d.tripped := rfl
@[simp] theorem courseU_timeDead (c : Nat) (g : Course → Course) (d : Dev) : (courseU c g d).timeDead = d.timeDead := rfl
@[simp] theorem courseU_hotWarn (c : Nat) (g : Course → Course) (d : Dev) : (courseU c g d).hotWarn = d.hotWarn := rfl
@[simp] theorem courseU_hotCrit (c : Nat) (g : Course → Course) (d : Dev) : (courseU c g d).hotCrit = d.hotCrit := rfl
@[simp] theorem courseU_spdmMctp (c : Nat) (g : Course → Course) (d : Dev) : (courseU c g d).spdmMctp = d.spdmMctp := rfl
@[simp] theorem courseU_eids (c : Nat) (g : Course → Course) (d : Dev) : (courseU c g d).eids = d.eids := rfl
@[simp] theorem courseU_pldm (c : Nat) (g : Course → Course) (d : Dev) : (courseU c g d).pldm = d.pldm := rfl

@[simp] theorem schedU_variant (p : Nat) (g : SchedP → SchedP) (d : Dev) : (schedU p g d).variant = d.variant := rfl
@[simp] theorem schedU_regs (p : Nat) (g : SchedP → SchedP) (d : Dev) : (schedU p g d).regs = d.regs := rfl
@[simp] theorem schedU_eff (p : Nat) (g : SchedP → SchedP) (d : Dev) : (schedU p g d).eff = d.eff := rfl
@[simp] theorem schedU_cap (p : Nat) (g : SchedP → SchedP) (d : Dev) : (schedU p g d).cap = d.cap := rfl
@[simp] theorem schedU_halfRx (p : Nat) (g : SchedP → SchedP) (d : Dev) : (schedU p g d).halfRx = d.halfRx := rfl
@[simp] theorem schedU_halfTx (p : Nat) (g : SchedP → SchedP) (d : Dev) : (schedU p g d).halfTx = d.halfTx := rfl
@[simp] theorem schedU_took (p : Nat) (g : SchedP → SchedP) (d : Dev) : (schedU p g d).took = d.took := rfl
@[simp] theorem schedU_ctrs (p : Nat) (g : SchedP → SchedP) (d : Dev) : (schedU p g d).ctrs = d.ctrs := rfl
@[simp] theorem schedU_latch (p : Nat) (g : SchedP → SchedP) (d : Dev) : (schedU p g d).latch = d.latch := rfl
@[simp] theorem schedU_mem (p : Nat) (g : SchedP → SchedP) (d : Dev) : (schedU p g d).mem = d.mem := rfl
@[simp] theorem schedU_wr (p : Nat) (g : SchedP → SchedP) (d : Dev) : (schedU p g d).wr = d.wr := rfl
@[simp] theorem schedU_freeIdx (p : Nat) (g : SchedP → SchedP) (d : Dev) : (schedU p g d).freeIdx = d.freeIdx := rfl
@[simp] theorem schedU_out (p : Nat) (g : SchedP → SchedP) (d : Dev) : (schedU p g d).out = d.out := rfl
@[simp] theorem schedU_fns (p : Nat) (g : SchedP → SchedP) (d : Dev) : (schedU p g d).fns = d.fns := rfl
@[simp] theorem schedU_queues (p : Nat) (g : SchedP → SchedP) (d : Dev) : (schedU p g d).queues = d.queues := rfl
@[simp] theorem schedU_pkts (p : Nat) (g : SchedP → SchedP) (d : Dev) : (schedU p g d).pkts = d.pkts := rfl
@[simp] theorem schedU_pktSeq (p : Nat) (g : SchedP → SchedP) (d : Dev) : (schedU p g d).pktSeq = d.pktSeq := rfl
@[simp] theorem schedU_hports (p : Nat) (g : SchedP → SchedP) (d : Dev) : (schedU p g d).hports = d.hports := rfl
@[simp] theorem schedU_doms (p : Nat) (g : SchedP → SchedP) (d : Dev) : (schedU p g d).doms = d.doms := rfl
@[simp] theorem schedU_fatal (p : Nat) (g : SchedP → SchedP) (d : Dev) : (schedU p g d).fatal = d.fatal := rfl
@[simp] theorem schedU_strs (p : Nat) (g : SchedP → SchedP) (d : Dev) : (schedU p g d).strs = d.strs := rfl
@[simp] theorem schedU_time (p : Nat) (g : SchedP → SchedP) (d : Dev) : (schedU p g d).time = d.time := rfl
@[simp] theorem schedU_taps (p : Nat) (g : SchedP → SchedP) (d : Dev) : (schedU p g d).taps = d.taps := rfl
@[simp] theorem schedU_stopped (p : Nat) (g : SchedP → SchedP) (d : Dev) : (schedU p g d).stopped = d.stopped := rfl
@[simp] theorem schedU_released (p : Nat) (g : SchedP → SchedP) (d : Dev) : (schedU p g d).released = d.released := rfl
@[simp] theorem schedU_errs (p : Nat) (g : SchedP → SchedP) (d : Dev) : (schedU p g d).errs = d.errs := rfl
@[simp] theorem schedU_errSeq (p : Nat) (g : SchedP → SchedP) (d : Dev) : (schedU p g d).errSeq = d.errSeq := rfl
@[simp] theorem schedU_errAck (p : Nat) (g : SchedP → SchedP) (d : Dev) : (schedU p g d).errAck = d.errAck := rfl
@[simp] theorem schedU_xings (p : Nat) (g : SchedP → SchedP) (d : Dev) : (schedU p g d).xings = d.xings := rfl
@[simp] theorem schedU_egqs (p : Nat) (g : SchedP → SchedP) (d : Dev) : (schedU p g d).egqs = d.egqs := rfl
@[simp] theorem schedU_rates (p : Nat) (g : SchedP → SchedP) (d : Dev) : (schedU p g d).rates = d.rates := rfl
@[simp] theorem schedU_ports (p : Nat) (g : SchedP → SchedP) (d : Dev) : (schedU p g d).ports = d.ports := rfl
@[simp] theorem schedU_cal (p : Nat) (g : SchedP → SchedP) (d : Dev) : (schedU p g d).cal = d.cal := rfl
@[simp] theorem schedU_calSect (p : Nat) (g : SchedP → SchedP) (d : Dev) : (schedU p g d).calSect = d.calSect := rfl
@[simp] theorem schedU_calRuns (p : Nat) (g : SchedP → SchedP) (d : Dev) : (schedU p g d).calRuns = d.calRuns := rfl
@[simp] theorem schedU_tables (p : Nat) (g : SchedP → SchedP) (d : Dev) : (schedU p g d).tables = d.tables := rfl
@[simp] theorem schedU_sessions (p : Nat) (g : SchedP → SchedP) (d : Dev) : (schedU p g d).sessions = d.sessions := rfl
@[simp] theorem schedU_policers (p : Nat) (g : SchedP → SchedP) (d : Dev) : (schedU p g d).policers = d.policers := rfl
@[simp] theorem schedU_rss (p : Nat) (g : SchedP → SchedP) (d : Dev) : (schedU p g d).rss = d.rss := rfl
@[simp] theorem schedU_deepQ (p : Nat) (g : SchedP → SchedP) (d : Dev) : (schedU p g d).deepQ = d.deepQ := rfl
@[simp] theorem schedU_dramQ (p : Nat) (g : SchedP → SchedP) (d : Dev) : (schedU p g d).dramQ = d.dramQ := rfl
@[simp] theorem schedU_dramLevel (p : Nat) (g : SchedP → SchedP) (d : Dev) : (schedU p g d).dramLevel = d.dramLevel := rfl
@[simp] theorem schedU_dramTick (p : Nat) (g : SchedP → SchedP) (d : Dev) : (schedU p g d).dramTick = d.dramTick := rfl
@[simp] theorem schedU_courses (p : Nat) (g : SchedP → SchedP) (d : Dev) : (schedU p g d).courses = d.courses := rfl
@[simp] theorem schedU_wit (p : Nat) (g : SchedP → SchedP) (d : Dev) : (schedU p g d).wit = d.wit := rfl
@[simp] theorem schedU_scheds (p : Nat) (g : SchedP → SchedP) (d : Dev) : (schedU p g d).scheds = Tbl.upd (fun _ => {}) d.scheds p g := rfl
@[simp] theorem schedU_copies (p : Nat) (g : SchedP → SchedP) (d : Dev) : (schedU p g d).copies = d.copies := rfl
@[simp] theorem schedU_islJobs (p : Nat) (g : SchedP → SchedP) (d : Dev) : (schedU p g d).islJobs = d.islJobs := rfl
@[simp] theorem schedU_comps (p : Nat) (g : SchedP → SchedP) (d : Dev) : (schedU p g d).comps = d.comps := rfl
@[simp] theorem schedU_untested (p : Nat) (g : SchedP → SchedP) (d : Dev) : (schedU p g d).untested = d.untested := rfl
@[simp] theorem schedU_calQ (p : Nat) (g : SchedP → SchedP) (d : Dev) : (schedU p g d).calQ = d.calQ := rfl
@[simp] theorem schedU_dram (p : Nat) (g : SchedP → SchedP) (d : Dev) : (schedU p g d).dram = d.dram := rfl
@[simp] theorem schedU_clusters (p : Nat) (g : SchedP → SchedP) (d : Dev) : (schedU p g d).clusters = d.clusters := rfl
@[simp] theorem schedU_gates (p : Nat) (g : SchedP → SchedP) (d : Dev) : (schedU p g d).gates = d.gates := rfl
@[simp] theorem schedU_spEpoch (p : Nat) (g : SchedP → SchedP) (d : Dev) : (schedU p g d).spEpoch = d.spEpoch := rfl
@[simp] theorem schedU_dbgPort (p : Nat) (g : SchedP → SchedP) (d : Dev) : (schedU p g d).dbgPort = d.dbgPort := rfl
@[simp] theorem schedU_dbgCores (p : Nat) (g : SchedP → SchedP) (d : Dev) : (schedU p g d).dbgCores = d.dbgCores := rfl
@[simp] theorem schedU_ledger (p : Nat) (g : SchedP → SchedP) (d : Dev) : (schedU p g d).ledger = d.ledger := rfl
@[simp] theorem schedU_power (p : Nat) (g : SchedP → SchedP) (d : Dev) : (schedU p g d).power = d.power := rfl
@[simp] theorem schedU_foot (p : Nat) (g : SchedP → SchedP) (d : Dev) : (schedU p g d).foot = d.foot := rfl
@[simp] theorem schedU_domJobs (p : Nat) (g : SchedP → SchedP) (d : Dev) : (schedU p g d).domJobs = d.domJobs := rfl
@[simp] theorem schedU_rstJobs (p : Nat) (g : SchedP → SchedP) (d : Dev) : (schedU p g d).rstJobs = d.rstJobs := rfl
@[simp] theorem schedU_mapJobs (p : Nat) (g : SchedP → SchedP) (d : Dev) : (schedU p g d).mapJobs = d.mapJobs := rfl
@[simp] theorem schedU_resetAt (p : Nat) (g : SchedP → SchedP) (d : Dev) : (schedU p g d).resetAt = d.resetAt := rfl
@[simp] theorem schedU_tripped (p : Nat) (g : SchedP → SchedP) (d : Dev) : (schedU p g d).tripped = d.tripped := rfl
@[simp] theorem schedU_timeDead (p : Nat) (g : SchedP → SchedP) (d : Dev) : (schedU p g d).timeDead = d.timeDead := rfl
@[simp] theorem schedU_hotWarn (p : Nat) (g : SchedP → SchedP) (d : Dev) : (schedU p g d).hotWarn = d.hotWarn := rfl
@[simp] theorem schedU_hotCrit (p : Nat) (g : SchedP → SchedP) (d : Dev) : (schedU p g d).hotCrit = d.hotCrit := rfl
@[simp] theorem schedU_spdmMctp (p : Nat) (g : SchedP → SchedP) (d : Dev) : (schedU p g d).spdmMctp = d.spdmMctp := rfl
@[simp] theorem schedU_eids (p : Nat) (g : SchedP → SchedP) (d : Dev) : (schedU p g d).eids = d.eids := rfl
@[simp] theorem schedU_pldm (p : Nat) (g : SchedP → SchedP) (d : Dev) : (schedU p g d).pldm = d.pldm := rfl

@[simp] theorem pldmU_variant (g : Pldm → Pldm) (d : Dev) : (pldmU g d).variant = d.variant := rfl
@[simp] theorem pldmU_regs (g : Pldm → Pldm) (d : Dev) : (pldmU g d).regs = d.regs := rfl
@[simp] theorem pldmU_eff (g : Pldm → Pldm) (d : Dev) : (pldmU g d).eff = d.eff := rfl
@[simp] theorem pldmU_cap (g : Pldm → Pldm) (d : Dev) : (pldmU g d).cap = d.cap := rfl
@[simp] theorem pldmU_halfRx (g : Pldm → Pldm) (d : Dev) : (pldmU g d).halfRx = d.halfRx := rfl
@[simp] theorem pldmU_halfTx (g : Pldm → Pldm) (d : Dev) : (pldmU g d).halfTx = d.halfTx := rfl
@[simp] theorem pldmU_took (g : Pldm → Pldm) (d : Dev) : (pldmU g d).took = d.took := rfl
@[simp] theorem pldmU_ctrs (g : Pldm → Pldm) (d : Dev) : (pldmU g d).ctrs = d.ctrs := rfl
@[simp] theorem pldmU_latch (g : Pldm → Pldm) (d : Dev) : (pldmU g d).latch = d.latch := rfl
@[simp] theorem pldmU_mem (g : Pldm → Pldm) (d : Dev) : (pldmU g d).mem = d.mem := rfl
@[simp] theorem pldmU_wr (g : Pldm → Pldm) (d : Dev) : (pldmU g d).wr = d.wr := rfl
@[simp] theorem pldmU_freeIdx (g : Pldm → Pldm) (d : Dev) : (pldmU g d).freeIdx = d.freeIdx := rfl
@[simp] theorem pldmU_out (g : Pldm → Pldm) (d : Dev) : (pldmU g d).out = d.out := rfl
@[simp] theorem pldmU_fns (g : Pldm → Pldm) (d : Dev) : (pldmU g d).fns = d.fns := rfl
@[simp] theorem pldmU_queues (g : Pldm → Pldm) (d : Dev) : (pldmU g d).queues = d.queues := rfl
@[simp] theorem pldmU_pkts (g : Pldm → Pldm) (d : Dev) : (pldmU g d).pkts = d.pkts := rfl
@[simp] theorem pldmU_pktSeq (g : Pldm → Pldm) (d : Dev) : (pldmU g d).pktSeq = d.pktSeq := rfl
@[simp] theorem pldmU_hports (g : Pldm → Pldm) (d : Dev) : (pldmU g d).hports = d.hports := rfl
@[simp] theorem pldmU_doms (g : Pldm → Pldm) (d : Dev) : (pldmU g d).doms = d.doms := rfl
@[simp] theorem pldmU_fatal (g : Pldm → Pldm) (d : Dev) : (pldmU g d).fatal = d.fatal := rfl
@[simp] theorem pldmU_strs (g : Pldm → Pldm) (d : Dev) : (pldmU g d).strs = d.strs := rfl
@[simp] theorem pldmU_time (g : Pldm → Pldm) (d : Dev) : (pldmU g d).time = d.time := rfl
@[simp] theorem pldmU_taps (g : Pldm → Pldm) (d : Dev) : (pldmU g d).taps = d.taps := rfl
@[simp] theorem pldmU_stopped (g : Pldm → Pldm) (d : Dev) : (pldmU g d).stopped = d.stopped := rfl
@[simp] theorem pldmU_released (g : Pldm → Pldm) (d : Dev) : (pldmU g d).released = d.released := rfl
@[simp] theorem pldmU_errs (g : Pldm → Pldm) (d : Dev) : (pldmU g d).errs = d.errs := rfl
@[simp] theorem pldmU_errSeq (g : Pldm → Pldm) (d : Dev) : (pldmU g d).errSeq = d.errSeq := rfl
@[simp] theorem pldmU_errAck (g : Pldm → Pldm) (d : Dev) : (pldmU g d).errAck = d.errAck := rfl
@[simp] theorem pldmU_xings (g : Pldm → Pldm) (d : Dev) : (pldmU g d).xings = d.xings := rfl
@[simp] theorem pldmU_egqs (g : Pldm → Pldm) (d : Dev) : (pldmU g d).egqs = d.egqs := rfl
@[simp] theorem pldmU_rates (g : Pldm → Pldm) (d : Dev) : (pldmU g d).rates = d.rates := rfl
@[simp] theorem pldmU_ports (g : Pldm → Pldm) (d : Dev) : (pldmU g d).ports = d.ports := rfl
@[simp] theorem pldmU_cal (g : Pldm → Pldm) (d : Dev) : (pldmU g d).cal = d.cal := rfl
@[simp] theorem pldmU_calSect (g : Pldm → Pldm) (d : Dev) : (pldmU g d).calSect = d.calSect := rfl
@[simp] theorem pldmU_calRuns (g : Pldm → Pldm) (d : Dev) : (pldmU g d).calRuns = d.calRuns := rfl
@[simp] theorem pldmU_tables (g : Pldm → Pldm) (d : Dev) : (pldmU g d).tables = d.tables := rfl
@[simp] theorem pldmU_sessions (g : Pldm → Pldm) (d : Dev) : (pldmU g d).sessions = d.sessions := rfl
@[simp] theorem pldmU_policers (g : Pldm → Pldm) (d : Dev) : (pldmU g d).policers = d.policers := rfl
@[simp] theorem pldmU_rss (g : Pldm → Pldm) (d : Dev) : (pldmU g d).rss = d.rss := rfl
@[simp] theorem pldmU_deepQ (g : Pldm → Pldm) (d : Dev) : (pldmU g d).deepQ = d.deepQ := rfl
@[simp] theorem pldmU_dramQ (g : Pldm → Pldm) (d : Dev) : (pldmU g d).dramQ = d.dramQ := rfl
@[simp] theorem pldmU_dramLevel (g : Pldm → Pldm) (d : Dev) : (pldmU g d).dramLevel = d.dramLevel := rfl
@[simp] theorem pldmU_dramTick (g : Pldm → Pldm) (d : Dev) : (pldmU g d).dramTick = d.dramTick := rfl
@[simp] theorem pldmU_courses (g : Pldm → Pldm) (d : Dev) : (pldmU g d).courses = d.courses := rfl
@[simp] theorem pldmU_wit (g : Pldm → Pldm) (d : Dev) : (pldmU g d).wit = d.wit := rfl
@[simp] theorem pldmU_scheds (g : Pldm → Pldm) (d : Dev) : (pldmU g d).scheds = d.scheds := rfl
@[simp] theorem pldmU_copies (g : Pldm → Pldm) (d : Dev) : (pldmU g d).copies = d.copies := rfl
@[simp] theorem pldmU_islJobs (g : Pldm → Pldm) (d : Dev) : (pldmU g d).islJobs = d.islJobs := rfl
@[simp] theorem pldmU_comps (g : Pldm → Pldm) (d : Dev) : (pldmU g d).comps = d.comps := rfl
@[simp] theorem pldmU_untested (g : Pldm → Pldm) (d : Dev) : (pldmU g d).untested = d.untested := rfl
@[simp] theorem pldmU_calQ (g : Pldm → Pldm) (d : Dev) : (pldmU g d).calQ = d.calQ := rfl
@[simp] theorem pldmU_dram (g : Pldm → Pldm) (d : Dev) : (pldmU g d).dram = d.dram := rfl
@[simp] theorem pldmU_clusters (g : Pldm → Pldm) (d : Dev) : (pldmU g d).clusters = d.clusters := rfl
@[simp] theorem pldmU_gates (g : Pldm → Pldm) (d : Dev) : (pldmU g d).gates = d.gates := rfl
@[simp] theorem pldmU_spEpoch (g : Pldm → Pldm) (d : Dev) : (pldmU g d).spEpoch = d.spEpoch := rfl
@[simp] theorem pldmU_dbgPort (g : Pldm → Pldm) (d : Dev) : (pldmU g d).dbgPort = d.dbgPort := rfl
@[simp] theorem pldmU_dbgCores (g : Pldm → Pldm) (d : Dev) : (pldmU g d).dbgCores = d.dbgCores := rfl
@[simp] theorem pldmU_ledger (g : Pldm → Pldm) (d : Dev) : (pldmU g d).ledger = d.ledger := rfl
@[simp] theorem pldmU_power (g : Pldm → Pldm) (d : Dev) : (pldmU g d).power = d.power := rfl
@[simp] theorem pldmU_foot (g : Pldm → Pldm) (d : Dev) : (pldmU g d).foot = d.foot := rfl
@[simp] theorem pldmU_domJobs (g : Pldm → Pldm) (d : Dev) : (pldmU g d).domJobs = d.domJobs := rfl
@[simp] theorem pldmU_rstJobs (g : Pldm → Pldm) (d : Dev) : (pldmU g d).rstJobs = d.rstJobs := rfl
@[simp] theorem pldmU_mapJobs (g : Pldm → Pldm) (d : Dev) : (pldmU g d).mapJobs = d.mapJobs := rfl
@[simp] theorem pldmU_resetAt (g : Pldm → Pldm) (d : Dev) : (pldmU g d).resetAt = d.resetAt := rfl
@[simp] theorem pldmU_tripped (g : Pldm → Pldm) (d : Dev) : (pldmU g d).tripped = d.tripped := rfl
@[simp] theorem pldmU_timeDead (g : Pldm → Pldm) (d : Dev) : (pldmU g d).timeDead = d.timeDead := rfl
@[simp] theorem pldmU_hotWarn (g : Pldm → Pldm) (d : Dev) : (pldmU g d).hotWarn = d.hotWarn := rfl
@[simp] theorem pldmU_hotCrit (g : Pldm → Pldm) (d : Dev) : (pldmU g d).hotCrit = d.hotCrit := rfl
@[simp] theorem pldmU_spdmMctp (g : Pldm → Pldm) (d : Dev) : (pldmU g d).spdmMctp = d.spdmMctp := rfl
@[simp] theorem pldmU_eids (g : Pldm → Pldm) (d : Dev) : (pldmU g d).eids = d.eids := rfl
@[simp] theorem pldmU_pldm (g : Pldm → Pldm) (d : Dev) : (pldmU g d).pldm = g d.pldm := rfl

/-! ### Reads across updates -/

@[simp] theorem effR_emit (o : Out) (x0 : Nat) (d : Dev) : effR (emit o d) x0 = effR d x0 := rfl
@[simp] theorem effR_wrt (sp a : Nat) (bs : Bytes) (x0 : Nat) (d : Dev) : effR (wrt sp a bs d) x0 = effR d x0 := rfl
@[simp] theorem effR_regW (k : Nat) (v : Word) (x0 : Nat) (d : Dev) : effR (regW k v d) x0 = effR d x0 := rfl
@[simp] theorem effR_fldW (k hi lo v : Nat) (x0 : Nat) (d : Dev) : effR (fldW k hi lo v d) x0 = effR d x0 := rfl
@[simp] theorem effR_bitW (k i : Nat) (b : Bool) (x0 : Nat) (d : Dev) : effR (bitW k i b d) x0 = effR d x0 := rfl
@[simp] theorem effR_ctrInc (k : Nat) (x0 : Nat) (d : Dev) : effR (ctrInc k d) x0 = effR d x0 := rfl
@[simp] theorem effR_ctrAdd (k n : Nat) (x0 : Nat) (d : Dev) : effR (ctrAdd k n d) x0 = effR d x0 := rfl
@[simp] theorem effR_ctrW (k v : Nat) (x0 : Nat) (d : Dev) : effR (ctrW k v d) x0 = effR d x0 := rfl
@[simp] theorem effR_fnU (f : Nat) (g : Fn → Fn) (x0 : Nat) (d : Dev) : effR (fnU f g d) x0 = effR d x0 := rfl
@[simp] theorem effR_hpU (h : Nat) (g : HostPort → HostPort) (x0 : Nat) (d : Dev) : effR (hpU h g d) x0 = effR d x0 := rfl
@[simp] theorem effR_domU (n : Nat) (g : Dom → Dom) (x0 : Nat) (d : Dev) : effR (domU n g d) x0 = effR d x0 := rfl
@[simp] theorem effR_queueU (f qt lq : Nat) (g : Queue → Queue) (x0 : Nat) (d : Dev) : effR (queueU f qt lq g d) x0 = effR d x0 := rfl
@[simp] theorem effR_strU (i : Nat) (g : Str → Str) (x0 : Nat) (d : Dev) : effR (strU i g d) x0 = effR d x0 := rfl
@[simp] theorem effR_timeU (g : TimeBlk → TimeBlk) (x0 : Nat) (d : Dev) : effR (timeU g d) x0 = effR d x0 := rfl
@[simp] theorem effR_witU (g : Wit → Wit) (x0 : Nat) (d : Dev) : effR (witU g d) x0 = effR d x0 := rfl
@[simp] theorem effR_portU (p : Nat) (g : Port → Port) (x0 : Nat) (d : Dev) : effR (portU p g d) x0 = effR d x0 := rfl
@[simp] theorem effR_dramU (g : Dram → Dram) (x0 : Nat) (d : Dev) : effR (dramU g d) x0 = effR d x0 := rfl
@[simp] theorem effR_footU (g : Foot → Foot) (x0 : Nat) (d : Dev) : effR (footU g d) x0 = effR d x0 := rfl
@[simp] theorem effR_cluU (c : Nat) (g : GClu → GClu) (x0 : Nat) (d : Dev) : effR (cluU c g d) x0 = effR d x0 := rfl
@[simp] theorem effR_ledU (g : Ledger → Ledger) (x0 : Nat) (d : Dev) : effR (ledU g d) x0 = effR d x0 := rfl
@[simp] theorem effR_courseU (c : Nat) (g : Course → Course) (x0 : Nat) (d : Dev) : effR (courseU c g d) x0 = effR d x0 := rfl
@[simp] theorem effR_schedU (p : Nat) (g : SchedP → SchedP) (x0 : Nat) (d : Dev) : effR (schedU p g d) x0 = effR d x0 := rfl
@[simp] theorem effR_pldmU (g : Pldm → Pldm) (x0 : Nat) (d : Dev) : effR (pldmU g d) x0 = effR d x0 := rfl
@[simp] theorem effR_landed (x0 : Nat) (s : State) (d : Dev) : effR (landed s d).dev x0 = effR d x0 := rfl

@[simp] theorem effF_emit (o : Out) (x0 x1 x2 : Nat) (d : Dev) : effF (emit o d) x0 x1 x2 = effF d x0 x1 x2 := rfl
@[simp] theorem effF_wrt (sp a : Nat) (bs : Bytes) (x0 x1 x2 : Nat) (d : Dev) : effF (wrt sp a bs d) x0 x1 x2 = effF d x0 x1 x2 := rfl
@[simp] theorem effF_regW (k : Nat) (v : Word) (x0 x1 x2 : Nat) (d : Dev) : effF (regW k v d) x0 x1 x2 = effF d x0 x1 x2 := rfl
@[simp] theorem effF_fldW (k hi lo v : Nat) (x0 x1 x2 : Nat) (d : Dev) : effF (fldW k hi lo v d) x0 x1 x2 = effF d x0 x1 x2 := rfl
@[simp] theorem effF_bitW (k i : Nat) (b : Bool) (x0 x1 x2 : Nat) (d : Dev) : effF (bitW k i b d) x0 x1 x2 = effF d x0 x1 x2 := rfl
@[simp] theorem effF_ctrInc (k : Nat) (x0 x1 x2 : Nat) (d : Dev) : effF (ctrInc k d) x0 x1 x2 = effF d x0 x1 x2 := rfl
@[simp] theorem effF_ctrAdd (k n : Nat) (x0 x1 x2 : Nat) (d : Dev) : effF (ctrAdd k n d) x0 x1 x2 = effF d x0 x1 x2 := rfl
@[simp] theorem effF_ctrW (k v : Nat) (x0 x1 x2 : Nat) (d : Dev) : effF (ctrW k v d) x0 x1 x2 = effF d x0 x1 x2 := rfl
@[simp] theorem effF_fnU (f : Nat) (g : Fn → Fn) (x0 x1 x2 : Nat) (d : Dev) : effF (fnU f g d) x0 x1 x2 = effF d x0 x1 x2 := rfl
@[simp] theorem effF_hpU (h : Nat) (g : HostPort → HostPort) (x0 x1 x2 : Nat) (d : Dev) : effF (hpU h g d) x0 x1 x2 = effF d x0 x1 x2 := rfl
@[simp] theorem effF_domU (n : Nat) (g : Dom → Dom) (x0 x1 x2 : Nat) (d : Dev) : effF (domU n g d) x0 x1 x2 = effF d x0 x1 x2 := rfl
@[simp] theorem effF_queueU (f qt lq : Nat) (g : Queue → Queue) (x0 x1 x2 : Nat) (d : Dev) : effF (queueU f qt lq g d) x0 x1 x2 = effF d x0 x1 x2 := rfl
@[simp] theorem effF_strU (i : Nat) (g : Str → Str) (x0 x1 x2 : Nat) (d : Dev) : effF (strU i g d) x0 x1 x2 = effF d x0 x1 x2 := rfl
@[simp] theorem effF_timeU (g : TimeBlk → TimeBlk) (x0 x1 x2 : Nat) (d : Dev) : effF (timeU g d) x0 x1 x2 = effF d x0 x1 x2 := rfl
@[simp] theorem effF_witU (g : Wit → Wit) (x0 x1 x2 : Nat) (d : Dev) : effF (witU g d) x0 x1 x2 = effF d x0 x1 x2 := rfl
@[simp] theorem effF_portU (p : Nat) (g : Port → Port) (x0 x1 x2 : Nat) (d : Dev) : effF (portU p g d) x0 x1 x2 = effF d x0 x1 x2 := rfl
@[simp] theorem effF_dramU (g : Dram → Dram) (x0 x1 x2 : Nat) (d : Dev) : effF (dramU g d) x0 x1 x2 = effF d x0 x1 x2 := rfl
@[simp] theorem effF_footU (g : Foot → Foot) (x0 x1 x2 : Nat) (d : Dev) : effF (footU g d) x0 x1 x2 = effF d x0 x1 x2 := rfl
@[simp] theorem effF_cluU (c : Nat) (g : GClu → GClu) (x0 x1 x2 : Nat) (d : Dev) : effF (cluU c g d) x0 x1 x2 = effF d x0 x1 x2 := rfl
@[simp] theorem effF_ledU (g : Ledger → Ledger) (x0 x1 x2 : Nat) (d : Dev) : effF (ledU g d) x0 x1 x2 = effF d x0 x1 x2 := rfl
@[simp] theorem effF_courseU (c : Nat) (g : Course → Course) (x0 x1 x2 : Nat) (d : Dev) : effF (courseU c g d) x0 x1 x2 = effF d x0 x1 x2 := rfl
@[simp] theorem effF_schedU (p : Nat) (g : SchedP → SchedP) (x0 x1 x2 : Nat) (d : Dev) : effF (schedU p g d) x0 x1 x2 = effF d x0 x1 x2 := rfl
@[simp] theorem effF_pldmU (g : Pldm → Pldm) (x0 x1 x2 : Nat) (d : Dev) : effF (pldmU g d) x0 x1 x2 = effF d x0 x1 x2 := rfl
@[simp] theorem effF_landed (x0 x1 x2 : Nat) (s : State) (d : Dev) : effF (landed s d).dev x0 x1 x2 = effF d x0 x1 x2 := rfl

@[simp] theorem effB_emit (o : Out) (x0 x1 : Nat) (d : Dev) : effB (emit o d) x0 x1 = effB d x0 x1 := rfl
@[simp] theorem effB_wrt (sp a : Nat) (bs : Bytes) (x0 x1 : Nat) (d : Dev) : effB (wrt sp a bs d) x0 x1 = effB d x0 x1 := rfl
@[simp] theorem effB_regW (k : Nat) (v : Word) (x0 x1 : Nat) (d : Dev) : effB (regW k v d) x0 x1 = effB d x0 x1 := rfl
@[simp] theorem effB_fldW (k hi lo v : Nat) (x0 x1 : Nat) (d : Dev) : effB (fldW k hi lo v d) x0 x1 = effB d x0 x1 := rfl
@[simp] theorem effB_bitW (k i : Nat) (b : Bool) (x0 x1 : Nat) (d : Dev) : effB (bitW k i b d) x0 x1 = effB d x0 x1 := rfl
@[simp] theorem effB_ctrInc (k : Nat) (x0 x1 : Nat) (d : Dev) : effB (ctrInc k d) x0 x1 = effB d x0 x1 := rfl
@[simp] theorem effB_ctrAdd (k n : Nat) (x0 x1 : Nat) (d : Dev) : effB (ctrAdd k n d) x0 x1 = effB d x0 x1 := rfl
@[simp] theorem effB_ctrW (k v : Nat) (x0 x1 : Nat) (d : Dev) : effB (ctrW k v d) x0 x1 = effB d x0 x1 := rfl
@[simp] theorem effB_fnU (f : Nat) (g : Fn → Fn) (x0 x1 : Nat) (d : Dev) : effB (fnU f g d) x0 x1 = effB d x0 x1 := rfl
@[simp] theorem effB_hpU (h : Nat) (g : HostPort → HostPort) (x0 x1 : Nat) (d : Dev) : effB (hpU h g d) x0 x1 = effB d x0 x1 := rfl
@[simp] theorem effB_domU (n : Nat) (g : Dom → Dom) (x0 x1 : Nat) (d : Dev) : effB (domU n g d) x0 x1 = effB d x0 x1 := rfl
@[simp] theorem effB_queueU (f qt lq : Nat) (g : Queue → Queue) (x0 x1 : Nat) (d : Dev) : effB (queueU f qt lq g d) x0 x1 = effB d x0 x1 := rfl
@[simp] theorem effB_strU (i : Nat) (g : Str → Str) (x0 x1 : Nat) (d : Dev) : effB (strU i g d) x0 x1 = effB d x0 x1 := rfl
@[simp] theorem effB_timeU (g : TimeBlk → TimeBlk) (x0 x1 : Nat) (d : Dev) : effB (timeU g d) x0 x1 = effB d x0 x1 := rfl
@[simp] theorem effB_witU (g : Wit → Wit) (x0 x1 : Nat) (d : Dev) : effB (witU g d) x0 x1 = effB d x0 x1 := rfl
@[simp] theorem effB_portU (p : Nat) (g : Port → Port) (x0 x1 : Nat) (d : Dev) : effB (portU p g d) x0 x1 = effB d x0 x1 := rfl
@[simp] theorem effB_dramU (g : Dram → Dram) (x0 x1 : Nat) (d : Dev) : effB (dramU g d) x0 x1 = effB d x0 x1 := rfl
@[simp] theorem effB_footU (g : Foot → Foot) (x0 x1 : Nat) (d : Dev) : effB (footU g d) x0 x1 = effB d x0 x1 := rfl
@[simp] theorem effB_cluU (c : Nat) (g : GClu → GClu) (x0 x1 : Nat) (d : Dev) : effB (cluU c g d) x0 x1 = effB d x0 x1 := rfl
@[simp] theorem effB_ledU (g : Ledger → Ledger) (x0 x1 : Nat) (d : Dev) : effB (ledU g d) x0 x1 = effB d x0 x1 := rfl
@[simp] theorem effB_courseU (c : Nat) (g : Course → Course) (x0 x1 : Nat) (d : Dev) : effB (courseU c g d) x0 x1 = effB d x0 x1 := rfl
@[simp] theorem effB_schedU (p : Nat) (g : SchedP → SchedP) (x0 x1 : Nat) (d : Dev) : effB (schedU p g d) x0 x1 = effB d x0 x1 := rfl
@[simp] theorem effB_pldmU (g : Pldm → Pldm) (x0 x1 : Nat) (d : Dev) : effB (pldmU g d) x0 x1 = effB d x0 x1 := rfl
@[simp] theorem effB_landed (x0 x1 : Nat) (s : State) (d : Dev) : effB (landed s d).dev x0 x1 = effB d x0 x1 := rfl

@[simp] theorem regR_emit (o : Out) (x0 : Nat) (d : Dev) : regR (emit o d) x0 = regR d x0 := rfl
@[simp] theorem regR_wrt (sp a : Nat) (bs : Bytes) (x0 : Nat) (d : Dev) : regR (wrt sp a bs d) x0 = regR d x0 := rfl
@[simp] theorem regR_ctrInc (k : Nat) (x0 : Nat) (d : Dev) : regR (ctrInc k d) x0 = regR d x0 := rfl
@[simp] theorem regR_ctrAdd (k n : Nat) (x0 : Nat) (d : Dev) : regR (ctrAdd k n d) x0 = regR d x0 := rfl
@[simp] theorem regR_ctrW (k v : Nat) (x0 : Nat) (d : Dev) : regR (ctrW k v d) x0 = regR d x0 := rfl
@[simp] theorem regR_fnU (f : Nat) (g : Fn → Fn) (x0 : Nat) (d : Dev) : regR (fnU f g d) x0 = regR d x0 := rfl
@[simp] theorem regR_hpU (h : Nat) (g : HostPort → HostPort) (x0 : Nat) (d : Dev) : regR (hpU h g d) x0 = regR d x0 := rfl
@[simp] theorem regR_domU (n : Nat) (g : Dom → Dom) (x0 : Nat) (d : Dev) : regR (domU n g d) x0 = regR d x0 := rfl
@[simp] theorem regR_queueU (f qt lq : Nat) (g : Queue → Queue) (x0 : Nat) (d : Dev) : regR (queueU f qt lq g d) x0 = regR d x0 := rfl
@[simp] theorem regR_strU (i : Nat) (g : Str → Str) (x0 : Nat) (d : Dev) : regR (strU i g d) x0 = regR d x0 := rfl
@[simp] theorem regR_timeU (g : TimeBlk → TimeBlk) (x0 : Nat) (d : Dev) : regR (timeU g d) x0 = regR d x0 := rfl
@[simp] theorem regR_witU (g : Wit → Wit) (x0 : Nat) (d : Dev) : regR (witU g d) x0 = regR d x0 := rfl
@[simp] theorem regR_portU (p : Nat) (g : Port → Port) (x0 : Nat) (d : Dev) : regR (portU p g d) x0 = regR d x0 := rfl
@[simp] theorem regR_dramU (g : Dram → Dram) (x0 : Nat) (d : Dev) : regR (dramU g d) x0 = regR d x0 := rfl
@[simp] theorem regR_footU (g : Foot → Foot) (x0 : Nat) (d : Dev) : regR (footU g d) x0 = regR d x0 := rfl
@[simp] theorem regR_cluU (c : Nat) (g : GClu → GClu) (x0 : Nat) (d : Dev) : regR (cluU c g d) x0 = regR d x0 := rfl
@[simp] theorem regR_ledU (g : Ledger → Ledger) (x0 : Nat) (d : Dev) : regR (ledU g d) x0 = regR d x0 := rfl
@[simp] theorem regR_courseU (c : Nat) (g : Course → Course) (x0 : Nat) (d : Dev) : regR (courseU c g d) x0 = regR d x0 := rfl
@[simp] theorem regR_schedU (p : Nat) (g : SchedP → SchedP) (x0 : Nat) (d : Dev) : regR (schedU p g d) x0 = regR d x0 := rfl
@[simp] theorem regR_pldmU (g : Pldm → Pldm) (x0 : Nat) (d : Dev) : regR (pldmU g d) x0 = regR d x0 := rfl
@[simp] theorem regR_landed (x0 : Nat) (s : State) (d : Dev) : regR (landed s d).dev x0 = regR d x0 := rfl

@[simp] theorem fldR_emit (o : Out) (x0 x1 x2 : Nat) (d : Dev) : fldR (emit o d) x0 x1 x2 = fldR d x0 x1 x2 := rfl
@[simp] theorem fldR_wrt (sp a : Nat) (bs : Bytes) (x0 x1 x2 : Nat) (d : Dev) : fldR (wrt sp a bs d) x0 x1 x2 = fldR d x0 x1 x2 := rfl
@[simp] theorem fldR_ctrInc (k : Nat) (x0 x1 x2 : Nat) (d : Dev) : fldR (ctrInc k d) x0 x1 x2 = fldR d x0 x1 x2 := rfl
@[simp] theorem fldR_ctrAdd (k n : Nat) (x0 x1 x2 : Nat) (d : Dev) : fldR (ctrAdd k n d) x0 x1 x2 = fldR d x0 x1 x2 := rfl
@[simp] theorem fldR_ctrW (k v : Nat) (x0 x1 x2 : Nat) (d : Dev) : fldR (ctrW k v d) x0 x1 x2 = fldR d x0 x1 x2 := rfl
@[simp] theorem fldR_fnU (f : Nat) (g : Fn → Fn) (x0 x1 x2 : Nat) (d : Dev) : fldR (fnU f g d) x0 x1 x2 = fldR d x0 x1 x2 := rfl
@[simp] theorem fldR_hpU (h : Nat) (g : HostPort → HostPort) (x0 x1 x2 : Nat) (d : Dev) : fldR (hpU h g d) x0 x1 x2 = fldR d x0 x1 x2 := rfl
@[simp] theorem fldR_domU (n : Nat) (g : Dom → Dom) (x0 x1 x2 : Nat) (d : Dev) : fldR (domU n g d) x0 x1 x2 = fldR d x0 x1 x2 := rfl
@[simp] theorem fldR_queueU (f qt lq : Nat) (g : Queue → Queue) (x0 x1 x2 : Nat) (d : Dev) : fldR (queueU f qt lq g d) x0 x1 x2 = fldR d x0 x1 x2 := rfl
@[simp] theorem fldR_strU (i : Nat) (g : Str → Str) (x0 x1 x2 : Nat) (d : Dev) : fldR (strU i g d) x0 x1 x2 = fldR d x0 x1 x2 := rfl
@[simp] theorem fldR_timeU (g : TimeBlk → TimeBlk) (x0 x1 x2 : Nat) (d : Dev) : fldR (timeU g d) x0 x1 x2 = fldR d x0 x1 x2 := rfl
@[simp] theorem fldR_witU (g : Wit → Wit) (x0 x1 x2 : Nat) (d : Dev) : fldR (witU g d) x0 x1 x2 = fldR d x0 x1 x2 := rfl
@[simp] theorem fldR_portU (p : Nat) (g : Port → Port) (x0 x1 x2 : Nat) (d : Dev) : fldR (portU p g d) x0 x1 x2 = fldR d x0 x1 x2 := rfl
@[simp] theorem fldR_dramU (g : Dram → Dram) (x0 x1 x2 : Nat) (d : Dev) : fldR (dramU g d) x0 x1 x2 = fldR d x0 x1 x2 := rfl
@[simp] theorem fldR_footU (g : Foot → Foot) (x0 x1 x2 : Nat) (d : Dev) : fldR (footU g d) x0 x1 x2 = fldR d x0 x1 x2 := rfl
@[simp] theorem fldR_cluU (c : Nat) (g : GClu → GClu) (x0 x1 x2 : Nat) (d : Dev) : fldR (cluU c g d) x0 x1 x2 = fldR d x0 x1 x2 := rfl
@[simp] theorem fldR_ledU (g : Ledger → Ledger) (x0 x1 x2 : Nat) (d : Dev) : fldR (ledU g d) x0 x1 x2 = fldR d x0 x1 x2 := rfl
@[simp] theorem fldR_courseU (c : Nat) (g : Course → Course) (x0 x1 x2 : Nat) (d : Dev) : fldR (courseU c g d) x0 x1 x2 = fldR d x0 x1 x2 := rfl
@[simp] theorem fldR_schedU (p : Nat) (g : SchedP → SchedP) (x0 x1 x2 : Nat) (d : Dev) : fldR (schedU p g d) x0 x1 x2 = fldR d x0 x1 x2 := rfl
@[simp] theorem fldR_pldmU (g : Pldm → Pldm) (x0 x1 x2 : Nat) (d : Dev) : fldR (pldmU g d) x0 x1 x2 = fldR d x0 x1 x2 := rfl
@[simp] theorem fldR_landed (x0 x1 x2 : Nat) (s : State) (d : Dev) : fldR (landed s d).dev x0 x1 x2 = fldR d x0 x1 x2 := rfl

@[simp] theorem bitR_emit (o : Out) (x0 x1 : Nat) (d : Dev) : bitR (emit o d) x0 x1 = bitR d x0 x1 := rfl
@[simp] theorem bitR_wrt (sp a : Nat) (bs : Bytes) (x0 x1 : Nat) (d : Dev) : bitR (wrt sp a bs d) x0 x1 = bitR d x0 x1 := rfl
@[simp] theorem bitR_ctrInc (k : Nat) (x0 x1 : Nat) (d : Dev) : bitR (ctrInc k d) x0 x1 = bitR d x0 x1 := rfl
@[simp] theorem bitR_ctrAdd (k n : Nat) (x0 x1 : Nat) (d : Dev) : bitR (ctrAdd k n d) x0 x1 = bitR d x0 x1 := rfl
@[simp] theorem bitR_ctrW (k v : Nat) (x0 x1 : Nat) (d : Dev) : bitR (ctrW k v d) x0 x1 = bitR d x0 x1 := rfl
@[simp] theorem bitR_fnU (f : Nat) (g : Fn → Fn) (x0 x1 : Nat) (d : Dev) : bitR (fnU f g d) x0 x1 = bitR d x0 x1 := rfl
@[simp] theorem bitR_hpU (h : Nat) (g : HostPort → HostPort) (x0 x1 : Nat) (d : Dev) : bitR (hpU h g d) x0 x1 = bitR d x0 x1 := rfl
@[simp] theorem bitR_domU (n : Nat) (g : Dom → Dom) (x0 x1 : Nat) (d : Dev) : bitR (domU n g d) x0 x1 = bitR d x0 x1 := rfl
@[simp] theorem bitR_queueU (f qt lq : Nat) (g : Queue → Queue) (x0 x1 : Nat) (d : Dev) : bitR (queueU f qt lq g d) x0 x1 = bitR d x0 x1 := rfl
@[simp] theorem bitR_strU (i : Nat) (g : Str → Str) (x0 x1 : Nat) (d : Dev) : bitR (strU i g d) x0 x1 = bitR d x0 x1 := rfl
@[simp] theorem bitR_timeU (g : TimeBlk → TimeBlk) (x0 x1 : Nat) (d : Dev) : bitR (timeU g d) x0 x1 = bitR d x0 x1 := rfl
@[simp] theorem bitR_witU (g : Wit → Wit) (x0 x1 : Nat) (d : Dev) : bitR (witU g d) x0 x1 = bitR d x0 x1 := rfl
@[simp] theorem bitR_portU (p : Nat) (g : Port → Port) (x0 x1 : Nat) (d : Dev) : bitR (portU p g d) x0 x1 = bitR d x0 x1 := rfl
@[simp] theorem bitR_dramU (g : Dram → Dram) (x0 x1 : Nat) (d : Dev) : bitR (dramU g d) x0 x1 = bitR d x0 x1 := rfl
@[simp] theorem bitR_footU (g : Foot → Foot) (x0 x1 : Nat) (d : Dev) : bitR (footU g d) x0 x1 = bitR d x0 x1 := rfl
@[simp] theorem bitR_cluU (c : Nat) (g : GClu → GClu) (x0 x1 : Nat) (d : Dev) : bitR (cluU c g d) x0 x1 = bitR d x0 x1 := rfl
@[simp] theorem bitR_ledU (g : Ledger → Ledger) (x0 x1 : Nat) (d : Dev) : bitR (ledU g d) x0 x1 = bitR d x0 x1 := rfl
@[simp] theorem bitR_courseU (c : Nat) (g : Course → Course) (x0 x1 : Nat) (d : Dev) : bitR (courseU c g d) x0 x1 = bitR d x0 x1 := rfl
@[simp] theorem bitR_schedU (p : Nat) (g : SchedP → SchedP) (x0 x1 : Nat) (d : Dev) : bitR (schedU p g d) x0 x1 = bitR d x0 x1 := rfl
@[simp] theorem bitR_pldmU (g : Pldm → Pldm) (x0 x1 : Nat) (d : Dev) : bitR (pldmU g d) x0 x1 = bitR d x0 x1 := rfl
@[simp] theorem bitR_landed (x0 x1 : Nat) (s : State) (d : Dev) : bitR (landed s d).dev x0 x1 = bitR d x0 x1 := rfl

@[simp] theorem ctrR_emit (o : Out) (x0 : Nat) (d : Dev) : ctrR (emit o d) x0 = ctrR d x0 := rfl
@[simp] theorem ctrR_wrt (sp a : Nat) (bs : Bytes) (x0 : Nat) (d : Dev) : ctrR (wrt sp a bs d) x0 = ctrR d x0 := rfl
@[simp] theorem ctrR_regW (k : Nat) (v : Word) (x0 : Nat) (d : Dev) : ctrR (regW k v d) x0 = ctrR d x0 := rfl
@[simp] theorem ctrR_fldW (k hi lo v : Nat) (x0 : Nat) (d : Dev) : ctrR (fldW k hi lo v d) x0 = ctrR d x0 := rfl
@[simp] theorem ctrR_bitW (k i : Nat) (b : Bool) (x0 : Nat) (d : Dev) : ctrR (bitW k i b d) x0 = ctrR d x0 := rfl
@[simp] theorem ctrR_fnU (f : Nat) (g : Fn → Fn) (x0 : Nat) (d : Dev) : ctrR (fnU f g d) x0 = ctrR d x0 := rfl
@[simp] theorem ctrR_hpU (h : Nat) (g : HostPort → HostPort) (x0 : Nat) (d : Dev) : ctrR (hpU h g d) x0 = ctrR d x0 := rfl
@[simp] theorem ctrR_domU (n : Nat) (g : Dom → Dom) (x0 : Nat) (d : Dev) : ctrR (domU n g d) x0 = ctrR d x0 := rfl
@[simp] theorem ctrR_queueU (f qt lq : Nat) (g : Queue → Queue) (x0 : Nat) (d : Dev) : ctrR (queueU f qt lq g d) x0 = ctrR d x0 := rfl
@[simp] theorem ctrR_strU (i : Nat) (g : Str → Str) (x0 : Nat) (d : Dev) : ctrR (strU i g d) x0 = ctrR d x0 := rfl
@[simp] theorem ctrR_timeU (g : TimeBlk → TimeBlk) (x0 : Nat) (d : Dev) : ctrR (timeU g d) x0 = ctrR d x0 := rfl
@[simp] theorem ctrR_witU (g : Wit → Wit) (x0 : Nat) (d : Dev) : ctrR (witU g d) x0 = ctrR d x0 := rfl
@[simp] theorem ctrR_portU (p : Nat) (g : Port → Port) (x0 : Nat) (d : Dev) : ctrR (portU p g d) x0 = ctrR d x0 := rfl
@[simp] theorem ctrR_dramU (g : Dram → Dram) (x0 : Nat) (d : Dev) : ctrR (dramU g d) x0 = ctrR d x0 := rfl
@[simp] theorem ctrR_footU (g : Foot → Foot) (x0 : Nat) (d : Dev) : ctrR (footU g d) x0 = ctrR d x0 := rfl
@[simp] theorem ctrR_cluU (c : Nat) (g : GClu → GClu) (x0 : Nat) (d : Dev) : ctrR (cluU c g d) x0 = ctrR d x0 := rfl
@[simp] theorem ctrR_ledU (g : Ledger → Ledger) (x0 : Nat) (d : Dev) : ctrR (ledU g d) x0 = ctrR d x0 := rfl
@[simp] theorem ctrR_courseU (c : Nat) (g : Course → Course) (x0 : Nat) (d : Dev) : ctrR (courseU c g d) x0 = ctrR d x0 := rfl
@[simp] theorem ctrR_schedU (p : Nat) (g : SchedP → SchedP) (x0 : Nat) (d : Dev) : ctrR (schedU p g d) x0 = ctrR d x0 := rfl
@[simp] theorem ctrR_pldmU (g : Pldm → Pldm) (x0 : Nat) (d : Dev) : ctrR (pldmU g d) x0 = ctrR d x0 := rfl
@[simp] theorem ctrR_landed (x0 : Nat) (s : State) (d : Dev) : ctrR (landed s d).dev x0 = ctrR d x0 := rfl

@[simp] theorem fn_emit (o : Out) (x0 : Nat) (d : Dev) : fn (emit o d) x0 = fn d x0 := rfl
@[simp] theorem fn_wrt (sp a : Nat) (bs : Bytes) (x0 : Nat) (d : Dev) : fn (wrt sp a bs d) x0 = fn d x0 := rfl
@[simp] theorem fn_regW (k : Nat) (v : Word) (x0 : Nat) (d : Dev) : fn (regW k v d) x0 = fn d x0 := rfl
@[simp] theorem fn_fldW (k hi lo v : Nat) (x0 : Nat) (d : Dev) : fn (fldW k hi lo v d) x0 = fn d x0 := rfl
@[simp] theorem fn_bitW (k i : Nat) (b : Bool) (x0 : Nat) (d : Dev) : fn (bitW k i b d) x0 = fn d x0 := rfl
@[simp] theorem fn_ctrInc (k : Nat) (x0 : Nat) (d : Dev) : fn (ctrInc k d) x0 = fn d x0 := rfl
@[simp] theorem fn_ctrAdd (k n : Nat) (x0 : Nat) (d : Dev) : fn (ctrAdd k n d) x0 = fn d x0 := rfl
@[simp] theorem fn_ctrW (k v : Nat) (x0 : Nat) (d : Dev) : fn (ctrW k v d) x0 = fn d x0 := rfl
@[simp] theorem fn_hpU (h : Nat) (g : HostPort → HostPort) (x0 : Nat) (d : Dev) : fn (hpU h g d) x0 = fn d x0 := rfl
@[simp] theorem fn_domU (n : Nat) (g : Dom → Dom) (x0 : Nat) (d : Dev) : fn (domU n g d) x0 = fn d x0 := rfl
@[simp] theorem fn_queueU (f qt lq : Nat) (g : Queue → Queue) (x0 : Nat) (d : Dev) : fn (queueU f qt lq g d) x0 = fn d x0 := rfl
@[simp] theorem fn_strU (i : Nat) (g : Str → Str) (x0 : Nat) (d : Dev) : fn (strU i g d) x0 = fn d x0 := rfl
@[simp] theorem fn_timeU (g : TimeBlk → TimeBlk) (x0 : Nat) (d : Dev) : fn (timeU g d) x0 = fn d x0 := rfl
@[simp] theorem fn_witU (g : Wit → Wit) (x0 : Nat) (d : Dev) : fn (witU g d) x0 = fn d x0 := rfl
@[simp] theorem fn_portU (p : Nat) (g : Port → Port) (x0 : Nat) (d : Dev) : fn (portU p g d) x0 = fn d x0 := rfl
@[simp] theorem fn_dramU (g : Dram → Dram) (x0 : Nat) (d : Dev) : fn (dramU g d) x0 = fn d x0 := rfl
@[simp] theorem fn_footU (g : Foot → Foot) (x0 : Nat) (d : Dev) : fn (footU g d) x0 = fn d x0 := rfl
@[simp] theorem fn_cluU (c : Nat) (g : GClu → GClu) (x0 : Nat) (d : Dev) : fn (cluU c g d) x0 = fn d x0 := rfl
@[simp] theorem fn_ledU (g : Ledger → Ledger) (x0 : Nat) (d : Dev) : fn (ledU g d) x0 = fn d x0 := rfl
@[simp] theorem fn_courseU (c : Nat) (g : Course → Course) (x0 : Nat) (d : Dev) : fn (courseU c g d) x0 = fn d x0 := rfl
@[simp] theorem fn_schedU (p : Nat) (g : SchedP → SchedP) (x0 : Nat) (d : Dev) : fn (schedU p g d) x0 = fn d x0 := rfl
@[simp] theorem fn_pldmU (g : Pldm → Pldm) (x0 : Nat) (d : Dev) : fn (pldmU g d) x0 = fn d x0 := rfl
@[simp] theorem fn_landed (x0 : Nat) (s : State) (d : Dev) : fn (landed s d).dev x0 = fn d x0 := rfl

@[simp] theorem hp_emit (o : Out) (x0 : Nat) (d : Dev) : hp (emit o d) x0 = hp d x0 := rfl
@[simp] theorem hp_wrt (sp a : Nat) (bs : Bytes) (x0 : Nat) (d : Dev) : hp (wrt sp a bs d) x0 = hp d x0 := rfl
@[simp] theorem hp_regW (k : Nat) (v : Word) (x0 : Nat) (d : Dev) : hp (regW k v d) x0 = hp d x0 := rfl
@[simp] theorem hp_fldW (k hi lo v : Nat) (x0 : Nat) (d : Dev) : hp (fldW k hi lo v d) x0 = hp d x0 := rfl
@[simp] theorem hp_bitW (k i : Nat) (b : Bool) (x0 : Nat) (d : Dev) : hp (bitW k i b d) x0 = hp d x0 := rfl
@[simp] theorem hp_ctrInc (k : Nat) (x0 : Nat) (d : Dev) : hp (ctrInc k d) x0 = hp d x0 := rfl
@[simp] theorem hp_ctrAdd (k n : Nat) (x0 : Nat) (d : Dev) : hp (ctrAdd k n d) x0 = hp d x0 := rfl
@[simp] theorem hp_ctrW (k v : Nat) (x0 : Nat) (d : Dev) : hp (ctrW k v d) x0 = hp d x0 := rfl
@[simp] theorem hp_fnU (f : Nat) (g : Fn → Fn) (x0 : Nat) (d : Dev) : hp (fnU f g d) x0 = hp d x0 := rfl
@[simp] theorem hp_domU (n : Nat) (g : Dom → Dom) (x0 : Nat) (d : Dev) : hp (domU n g d) x0 = hp d x0 := rfl
@[simp] theorem hp_queueU (f qt lq : Nat) (g : Queue → Queue) (x0 : Nat) (d : Dev) : hp (queueU f qt lq g d) x0 = hp d x0 := rfl
@[simp] theorem hp_strU (i : Nat) (g : Str → Str) (x0 : Nat) (d : Dev) : hp (strU i g d) x0 = hp d x0 := rfl
@[simp] theorem hp_timeU (g : TimeBlk → TimeBlk) (x0 : Nat) (d : Dev) : hp (timeU g d) x0 = hp d x0 := rfl
@[simp] theorem hp_witU (g : Wit → Wit) (x0 : Nat) (d : Dev) : hp (witU g d) x0 = hp d x0 := rfl
@[simp] theorem hp_portU (p : Nat) (g : Port → Port) (x0 : Nat) (d : Dev) : hp (portU p g d) x0 = hp d x0 := rfl
@[simp] theorem hp_dramU (g : Dram → Dram) (x0 : Nat) (d : Dev) : hp (dramU g d) x0 = hp d x0 := rfl
@[simp] theorem hp_footU (g : Foot → Foot) (x0 : Nat) (d : Dev) : hp (footU g d) x0 = hp d x0 := rfl
@[simp] theorem hp_cluU (c : Nat) (g : GClu → GClu) (x0 : Nat) (d : Dev) : hp (cluU c g d) x0 = hp d x0 := rfl
@[simp] theorem hp_ledU (g : Ledger → Ledger) (x0 : Nat) (d : Dev) : hp (ledU g d) x0 = hp d x0 := rfl
@[simp] theorem hp_courseU (c : Nat) (g : Course → Course) (x0 : Nat) (d : Dev) : hp (courseU c g d) x0 = hp d x0 := rfl
@[simp] theorem hp_schedU (p : Nat) (g : SchedP → SchedP) (x0 : Nat) (d : Dev) : hp (schedU p g d) x0 = hp d x0 := rfl
@[simp] theorem hp_pldmU (g : Pldm → Pldm) (x0 : Nat) (d : Dev) : hp (pldmU g d) x0 = hp d x0 := rfl
@[simp] theorem hp_landed (x0 : Nat) (s : State) (d : Dev) : hp (landed s d).dev x0 = hp d x0 := rfl

@[simp] theorem dom_emit (o : Out) (x0 : Nat) (d : Dev) : dom (emit o d) x0 = dom d x0 := rfl
@[simp] theorem dom_wrt (sp a : Nat) (bs : Bytes) (x0 : Nat) (d : Dev) : dom (wrt sp a bs d) x0 = dom d x0 := rfl
@[simp] theorem dom_regW (k : Nat) (v : Word) (x0 : Nat) (d : Dev) : dom (regW k v d) x0 = dom d x0 := rfl
@[simp] theorem dom_fldW (k hi lo v : Nat) (x0 : Nat) (d : Dev) : dom (fldW k hi lo v d) x0 = dom d x0 := rfl
@[simp] theorem dom_bitW (k i : Nat) (b : Bool) (x0 : Nat) (d : Dev) : dom (bitW k i b d) x0 = dom d x0 := rfl
@[simp] theorem dom_ctrInc (k : Nat) (x0 : Nat) (d : Dev) : dom (ctrInc k d) x0 = dom d x0 := rfl
@[simp] theorem dom_ctrAdd (k n : Nat) (x0 : Nat) (d : Dev) : dom (ctrAdd k n d) x0 = dom d x0 := rfl
@[simp] theorem dom_ctrW (k v : Nat) (x0 : Nat) (d : Dev) : dom (ctrW k v d) x0 = dom d x0 := rfl
@[simp] theorem dom_fnU (f : Nat) (g : Fn → Fn) (x0 : Nat) (d : Dev) : dom (fnU f g d) x0 = dom d x0 := rfl
@[simp] theorem dom_hpU (h : Nat) (g : HostPort → HostPort) (x0 : Nat) (d : Dev) : dom (hpU h g d) x0 = dom d x0 := rfl
@[simp] theorem dom_queueU (f qt lq : Nat) (g : Queue → Queue) (x0 : Nat) (d : Dev) : dom (queueU f qt lq g d) x0 = dom d x0 := rfl
@[simp] theorem dom_strU (i : Nat) (g : Str → Str) (x0 : Nat) (d : Dev) : dom (strU i g d) x0 = dom d x0 := rfl
@[simp] theorem dom_timeU (g : TimeBlk → TimeBlk) (x0 : Nat) (d : Dev) : dom (timeU g d) x0 = dom d x0 := rfl
@[simp] theorem dom_witU (g : Wit → Wit) (x0 : Nat) (d : Dev) : dom (witU g d) x0 = dom d x0 := rfl
@[simp] theorem dom_portU (p : Nat) (g : Port → Port) (x0 : Nat) (d : Dev) : dom (portU p g d) x0 = dom d x0 := rfl
@[simp] theorem dom_dramU (g : Dram → Dram) (x0 : Nat) (d : Dev) : dom (dramU g d) x0 = dom d x0 := rfl
@[simp] theorem dom_footU (g : Foot → Foot) (x0 : Nat) (d : Dev) : dom (footU g d) x0 = dom d x0 := rfl
@[simp] theorem dom_cluU (c : Nat) (g : GClu → GClu) (x0 : Nat) (d : Dev) : dom (cluU c g d) x0 = dom d x0 := rfl
@[simp] theorem dom_ledU (g : Ledger → Ledger) (x0 : Nat) (d : Dev) : dom (ledU g d) x0 = dom d x0 := rfl
@[simp] theorem dom_courseU (c : Nat) (g : Course → Course) (x0 : Nat) (d : Dev) : dom (courseU c g d) x0 = dom d x0 := rfl
@[simp] theorem dom_schedU (p : Nat) (g : SchedP → SchedP) (x0 : Nat) (d : Dev) : dom (schedU p g d) x0 = dom d x0 := rfl
@[simp] theorem dom_pldmU (g : Pldm → Pldm) (x0 : Nat) (d : Dev) : dom (pldmU g d) x0 = dom d x0 := rfl
@[simp] theorem dom_landed (x0 : Nat) (s : State) (d : Dev) : dom (landed s d).dev x0 = dom d x0 := rfl

@[simp] theorem str_emit (o : Out) (x0 : Nat) (d : Dev) : str (emit o d) x0 = str d x0 := rfl
@[simp] theorem str_wrt (sp a : Nat) (bs : Bytes) (x0 : Nat) (d : Dev) : str (wrt sp a bs d) x0 = str d x0 := rfl
@[simp] theorem str_regW (k : Nat) (v : Word) (x0 : Nat) (d : Dev) : str (regW k v d) x0 = str d x0 := rfl
@[simp] theorem str_fldW (k hi lo v : Nat) (x0 : Nat) (d : Dev) : str (fldW k hi lo v d) x0 = str d x0 := rfl
@[simp] theorem str_bitW (k i : Nat) (b : Bool) (x0 : Nat) (d : Dev) : str (bitW k i b d) x0 = str d x0 := rfl
@[simp] theorem str_ctrInc (k : Nat) (x0 : Nat) (d : Dev) : str (ctrInc k d) x0 = str d x0 := rfl
@[simp] theorem str_ctrAdd (k n : Nat) (x0 : Nat) (d : Dev) : str (ctrAdd k n d) x0 = str d x0 := rfl
@[simp] theorem str_ctrW (k v : Nat) (x0 : Nat) (d : Dev) : str (ctrW k v d) x0 = str d x0 := rfl
@[simp] theorem str_fnU (f : Nat) (g : Fn → Fn) (x0 : Nat) (d : Dev) : str (fnU f g d) x0 = str d x0 := rfl
@[simp] theorem str_hpU (h : Nat) (g : HostPort → HostPort) (x0 : Nat) (d : Dev) : str (hpU h g d) x0 = str d x0 := rfl
@[simp] theorem str_domU (n : Nat) (g : Dom → Dom) (x0 : Nat) (d : Dev) : str (domU n g d) x0 = str d x0 := rfl
@[simp] theorem str_queueU (f qt lq : Nat) (g : Queue → Queue) (x0 : Nat) (d : Dev) : str (queueU f qt lq g d) x0 = str d x0 := rfl
@[simp] theorem str_timeU (g : TimeBlk → TimeBlk) (x0 : Nat) (d : Dev) : str (timeU g d) x0 = str d x0 := rfl
@[simp] theorem str_witU (g : Wit → Wit) (x0 : Nat) (d : Dev) : str (witU g d) x0 = str d x0 := rfl
@[simp] theorem str_portU (p : Nat) (g : Port → Port) (x0 : Nat) (d : Dev) : str (portU p g d) x0 = str d x0 := rfl
@[simp] theorem str_dramU (g : Dram → Dram) (x0 : Nat) (d : Dev) : str (dramU g d) x0 = str d x0 := rfl
@[simp] theorem str_footU (g : Foot → Foot) (x0 : Nat) (d : Dev) : str (footU g d) x0 = str d x0 := rfl
@[simp] theorem str_cluU (c : Nat) (g : GClu → GClu) (x0 : Nat) (d : Dev) : str (cluU c g d) x0 = str d x0 := rfl
@[simp] theorem str_ledU (g : Ledger → Ledger) (x0 : Nat) (d : Dev) : str (ledU g d) x0 = str d x0 := rfl
@[simp] theorem str_courseU (c : Nat) (g : Course → Course) (x0 : Nat) (d : Dev) : str (courseU c g d) x0 = str d x0 := rfl
@[simp] theorem str_schedU (p : Nat) (g : SchedP → SchedP) (x0 : Nat) (d : Dev) : str (schedU p g d) x0 = str d x0 := rfl
@[simp] theorem str_pldmU (g : Pldm → Pldm) (x0 : Nat) (d : Dev) : str (pldmU g d) x0 = str d x0 := rfl
@[simp] theorem str_landed (x0 : Nat) (s : State) (d : Dev) : str (landed s d).dev x0 = str d x0 := rfl

@[simp] theorem now_emit (o : Out) (d : Dev) : now (emit o d) = now d := rfl
@[simp] theorem now_wrt (sp a : Nat) (bs : Bytes) (d : Dev) : now (wrt sp a bs d) = now d := rfl
@[simp] theorem now_regW (k : Nat) (v : Word) (d : Dev) : now (regW k v d) = now d := rfl
@[simp] theorem now_fldW (k hi lo v : Nat) (d : Dev) : now (fldW k hi lo v d) = now d := rfl
@[simp] theorem now_bitW (k i : Nat) (b : Bool) (d : Dev) : now (bitW k i b d) = now d := rfl
@[simp] theorem now_ctrInc (k : Nat) (d : Dev) : now (ctrInc k d) = now d := rfl
@[simp] theorem now_ctrAdd (k n : Nat) (d : Dev) : now (ctrAdd k n d) = now d := rfl
@[simp] theorem now_ctrW (k v : Nat) (d : Dev) : now (ctrW k v d) = now d := rfl
@[simp] theorem now_fnU (f : Nat) (g : Fn → Fn) (d : Dev) : now (fnU f g d) = now d := rfl
@[simp] theorem now_hpU (h : Nat) (g : HostPort → HostPort) (d : Dev) : now (hpU h g d) = now d := rfl
@[simp] theorem now_domU (n : Nat) (g : Dom → Dom) (d : Dev) : now (domU n g d) = now d := rfl
@[simp] theorem now_queueU (f qt lq : Nat) (g : Queue → Queue) (d : Dev) : now (queueU f qt lq g d) = now d := rfl
@[simp] theorem now_strU (i : Nat) (g : Str → Str) (d : Dev) : now (strU i g d) = now d := rfl
@[simp] theorem now_witU (g : Wit → Wit) (d : Dev) : now (witU g d) = now d := rfl
@[simp] theorem now_portU (p : Nat) (g : Port → Port) (d : Dev) : now (portU p g d) = now d := rfl
@[simp] theorem now_dramU (g : Dram → Dram) (d : Dev) : now (dramU g d) = now d := rfl
@[simp] theorem now_footU (g : Foot → Foot) (d : Dev) : now (footU g d) = now d := rfl
@[simp] theorem now_cluU (c : Nat) (g : GClu → GClu) (d : Dev) : now (cluU c g d) = now d := rfl
@[simp] theorem now_ledU (g : Ledger → Ledger) (d : Dev) : now (ledU g d) = now d := rfl
@[simp] theorem now_courseU (c : Nat) (g : Course → Course) (d : Dev) : now (courseU c g d) = now d := rfl
@[simp] theorem now_schedU (p : Nat) (g : SchedP → SchedP) (d : Dev) : now (schedU p g d) = now d := rfl
@[simp] theorem now_pldmU (g : Pldm → Pldm) (d : Dev) : now (pldmU g d) = now d := rfl
@[simp] theorem now_landed (s : State) (d : Dev) : now (landed s d).dev = now d := rfl

@[simp] theorem port_emit (o : Out) (x0 : Nat) (d : Dev) : port (emit o d) x0 = port d x0 := rfl
@[simp] theorem port_wrt (sp a : Nat) (bs : Bytes) (x0 : Nat) (d : Dev) : port (wrt sp a bs d) x0 = port d x0 := rfl
@[simp] theorem port_regW (k : Nat) (v : Word) (x0 : Nat) (d : Dev) : port (regW k v d) x0 = port d x0 := rfl
@[simp] theorem port_fldW (k hi lo v : Nat) (x0 : Nat) (d : Dev) : port (fldW k hi lo v d) x0 = port d x0 := rfl
@[simp] theorem port_bitW (k i : Nat) (b : Bool) (x0 : Nat) (d : Dev) : port (bitW k i b d) x0 = port d x0 := rfl
@[simp] theorem port_ctrInc (k : Nat) (x0 : Nat) (d : Dev) : port (ctrInc k d) x0 = port d x0 := rfl
@[simp] theorem port_ctrAdd (k n : Nat) (x0 : Nat) (d : Dev) : port (ctrAdd k n d) x0 = port d x0 := rfl
@[simp] theorem port_ctrW (k v : Nat) (x0 : Nat) (d : Dev) : port (ctrW k v d) x0 = port d x0 := rfl
@[simp] theorem port_fnU (f : Nat) (g : Fn → Fn) (x0 : Nat) (d : Dev) : port (fnU f g d) x0 = port d x0 := rfl
@[simp] theorem port_hpU (h : Nat) (g : HostPort → HostPort) (x0 : Nat) (d : Dev) : port (hpU h g d) x0 = port d x0 := rfl
@[simp] theorem port_domU (n : Nat) (g : Dom → Dom) (x0 : Nat) (d : Dev) : port (domU n g d) x0 = port d x0 := rfl
@[simp] theorem port_queueU (f qt lq : Nat) (g : Queue → Queue) (x0 : Nat) (d : Dev) : port (queueU f qt lq g d) x0 = port d x0 := rfl
@[simp] theorem port_strU (i : Nat) (g : Str → Str) (x0 : Nat) (d : Dev) : port (strU i g d) x0 = port d x0 := rfl
@[simp] theorem port_timeU (g : TimeBlk → TimeBlk) (x0 : Nat) (d : Dev) : port (timeU g d) x0 = port d x0 := rfl
@[simp] theorem port_witU (g : Wit → Wit) (x0 : Nat) (d : Dev) : port (witU g d) x0 = port d x0 := rfl
@[simp] theorem port_dramU (g : Dram → Dram) (x0 : Nat) (d : Dev) : port (dramU g d) x0 = port d x0 := rfl
@[simp] theorem port_footU (g : Foot → Foot) (x0 : Nat) (d : Dev) : port (footU g d) x0 = port d x0 := rfl
@[simp] theorem port_cluU (c : Nat) (g : GClu → GClu) (x0 : Nat) (d : Dev) : port (cluU c g d) x0 = port d x0 := rfl
@[simp] theorem port_ledU (g : Ledger → Ledger) (x0 : Nat) (d : Dev) : port (ledU g d) x0 = port d x0 := rfl
@[simp] theorem port_courseU (c : Nat) (g : Course → Course) (x0 : Nat) (d : Dev) : port (courseU c g d) x0 = port d x0 := rfl
@[simp] theorem port_schedU (p : Nat) (g : SchedP → SchedP) (x0 : Nat) (d : Dev) : port (schedU p g d) x0 = port d x0 := rfl
@[simp] theorem port_pldmU (g : Pldm → Pldm) (x0 : Nat) (d : Dev) : port (pldmU g d) x0 = port d x0 := rfl
@[simp] theorem port_landed (x0 : Nat) (s : State) (d : Dev) : port (landed s d).dev x0 = port d x0 := rfl

@[simp] theorem islandOn_emit (o : Out) (x0 : Nat) (d : Dev) : islandOn (emit o d) x0 = islandOn d x0 := rfl
@[simp] theorem islandOn_wrt (sp a : Nat) (bs : Bytes) (x0 : Nat) (d : Dev) : islandOn (wrt sp a bs d) x0 = islandOn d x0 := rfl
@[simp] theorem islandOn_regW (k : Nat) (v : Word) (x0 : Nat) (d : Dev) : islandOn (regW k v d) x0 = islandOn d x0 := rfl
@[simp] theorem islandOn_fldW (k hi lo v : Nat) (x0 : Nat) (d : Dev) : islandOn (fldW k hi lo v d) x0 = islandOn d x0 := rfl
@[simp] theorem islandOn_bitW (k i : Nat) (b : Bool) (x0 : Nat) (d : Dev) : islandOn (bitW k i b d) x0 = islandOn d x0 := rfl
@[simp] theorem islandOn_ctrInc (k : Nat) (x0 : Nat) (d : Dev) : islandOn (ctrInc k d) x0 = islandOn d x0 := rfl
@[simp] theorem islandOn_ctrAdd (k n : Nat) (x0 : Nat) (d : Dev) : islandOn (ctrAdd k n d) x0 = islandOn d x0 := rfl
@[simp] theorem islandOn_ctrW (k v : Nat) (x0 : Nat) (d : Dev) : islandOn (ctrW k v d) x0 = islandOn d x0 := rfl
@[simp] theorem islandOn_fnU (f : Nat) (g : Fn → Fn) (x0 : Nat) (d : Dev) : islandOn (fnU f g d) x0 = islandOn d x0 := rfl
@[simp] theorem islandOn_hpU (h : Nat) (g : HostPort → HostPort) (x0 : Nat) (d : Dev) : islandOn (hpU h g d) x0 = islandOn d x0 := rfl
@[simp] theorem islandOn_queueU (f qt lq : Nat) (g : Queue → Queue) (x0 : Nat) (d : Dev) : islandOn (queueU f qt lq g d) x0 = islandOn d x0 := rfl
@[simp] theorem islandOn_strU (i : Nat) (g : Str → Str) (x0 : Nat) (d : Dev) : islandOn (strU i g d) x0 = islandOn d x0 := rfl
@[simp] theorem islandOn_timeU (g : TimeBlk → TimeBlk) (x0 : Nat) (d : Dev) : islandOn (timeU g d) x0 = islandOn d x0 := rfl
@[simp] theorem islandOn_witU (g : Wit → Wit) (x0 : Nat) (d : Dev) : islandOn (witU g d) x0 = islandOn d x0 := rfl
@[simp] theorem islandOn_portU (p : Nat) (g : Port → Port) (x0 : Nat) (d : Dev) : islandOn (portU p g d) x0 = islandOn d x0 := rfl
@[simp] theorem islandOn_dramU (g : Dram → Dram) (x0 : Nat) (d : Dev) : islandOn (dramU g d) x0 = islandOn d x0 := rfl
@[simp] theorem islandOn_footU (g : Foot → Foot) (x0 : Nat) (d : Dev) : islandOn (footU g d) x0 = islandOn d x0 := rfl
@[simp] theorem islandOn_cluU (c : Nat) (g : GClu → GClu) (x0 : Nat) (d : Dev) : islandOn (cluU c g d) x0 = islandOn d x0 := rfl
@[simp] theorem islandOn_ledU (g : Ledger → Ledger) (x0 : Nat) (d : Dev) : islandOn (ledU g d) x0 = islandOn d x0 := rfl
@[simp] theorem islandOn_courseU (c : Nat) (g : Course → Course) (x0 : Nat) (d : Dev) : islandOn (courseU c g d) x0 = islandOn d x0 := rfl
@[simp] theorem islandOn_schedU (p : Nat) (g : SchedP → SchedP) (x0 : Nat) (d : Dev) : islandOn (schedU p g d) x0 = islandOn d x0 := rfl
@[simp] theorem islandOn_pldmU (g : Pldm → Pldm) (x0 : Nat) (d : Dev) : islandOn (pldmU g d) x0 = islandOn d x0 := rfl
@[simp] theorem islandOn_landed (x0 : Nat) (s : State) (d : Dev) : islandOn (landed s d).dev x0 = islandOn d x0 := rfl

@[simp] theorem clu_emit (o : Out) (x0 : Nat) (d : Dev) : clu (emit o d) x0 = clu d x0 := rfl
@[simp] theorem clu_wrt (sp a : Nat) (bs : Bytes) (x0 : Nat) (d : Dev) : clu (wrt sp a bs d) x0 = clu d x0 := rfl
@[simp] theorem clu_regW (k : Nat) (v : Word) (x0 : Nat) (d : Dev) : clu (regW k v d) x0 = clu d x0 := rfl
@[simp] theorem clu_fldW (k hi lo v : Nat) (x0 : Nat) (d : Dev) : clu (fldW k hi lo v d) x0 = clu d x0 := rfl
@[simp] theorem clu_bitW (k i : Nat) (b : Bool) (x0 : Nat) (d : Dev) : clu (bitW k i b d) x0 = clu d x0 := rfl
@[simp] theorem clu_ctrInc (k : Nat) (x0 : Nat) (d : Dev) : clu (ctrInc k d) x0 = clu d x0 := rfl
@[simp] theorem clu_ctrAdd (k n : Nat) (x0 : Nat) (d : Dev) : clu (ctrAdd k n d) x0 = clu d x0 := rfl
@[simp] theorem clu_ctrW (k v : Nat) (x0 : Nat) (d : Dev) : clu (ctrW k v d) x0 = clu d x0 := rfl
@[simp] theorem clu_fnU (f : Nat) (g : Fn → Fn) (x0 : Nat) (d : Dev) : clu (fnU f g d) x0 = clu d x0 := rfl
@[simp] theorem clu_hpU (h : Nat) (g : HostPort → HostPort) (x0 : Nat) (d : Dev) : clu (hpU h g d) x0 = clu d x0 := rfl
@[simp] theorem clu_domU (n : Nat) (g : Dom → Dom) (x0 : Nat) (d : Dev) : clu (domU n g d) x0 = clu d x0 := rfl
@[simp] theorem clu_queueU (f qt lq : Nat) (g : Queue → Queue) (x0 : Nat) (d : Dev) : clu (queueU f qt lq g d) x0 = clu d x0 := rfl
@[simp] theorem clu_strU (i : Nat) (g : Str → Str) (x0 : Nat) (d : Dev) : clu (strU i g d) x0 = clu d x0 := rfl
@[simp] theorem clu_timeU (g : TimeBlk → TimeBlk) (x0 : Nat) (d : Dev) : clu (timeU g d) x0 = clu d x0 := rfl
@[simp] theorem clu_witU (g : Wit → Wit) (x0 : Nat) (d : Dev) : clu (witU g d) x0 = clu d x0 := rfl
@[simp] theorem clu_portU (p : Nat) (g : Port → Port) (x0 : Nat) (d : Dev) : clu (portU p g d) x0 = clu d x0 := rfl
@[simp] theorem clu_dramU (g : Dram → Dram) (x0 : Nat) (d : Dev) : clu (dramU g d) x0 = clu d x0 := rfl
@[simp] theorem clu_footU (g : Foot → Foot) (x0 : Nat) (d : Dev) : clu (footU g d) x0 = clu d x0 := rfl
@[simp] theorem clu_ledU (g : Ledger → Ledger) (x0 : Nat) (d : Dev) : clu (ledU g d) x0 = clu d x0 := rfl
@[simp] theorem clu_courseU (c : Nat) (g : Course → Course) (x0 : Nat) (d : Dev) : clu (courseU c g d) x0 = clu d x0 := rfl
@[simp] theorem clu_schedU (p : Nat) (g : SchedP → SchedP) (x0 : Nat) (d : Dev) : clu (schedU p g d) x0 = clu d x0 := rfl
@[simp] theorem clu_pldmU (g : Pldm → Pldm) (x0 : Nat) (d : Dev) : clu (pldmU g d) x0 = clu d x0 := rfl
@[simp] theorem clu_landed (x0 : Nat) (s : State) (d : Dev) : clu (landed s d).dev x0 = clu d x0 := rfl

@[simp] theorem queue_emit (o : Out) (x0 x1 x2 : Nat) (d : Dev) : queue (emit o d) x0 x1 x2 = queue d x0 x1 x2 := rfl
@[simp] theorem queue_wrt (sp a : Nat) (bs : Bytes) (x0 x1 x2 : Nat) (d : Dev) : queue (wrt sp a bs d) x0 x1 x2 = queue d x0 x1 x2 := rfl
@[simp] theorem queue_regW (k : Nat) (v : Word) (x0 x1 x2 : Nat) (d : Dev) : queue (regW k v d) x0 x1 x2 = queue d x0 x1 x2 := rfl
@[simp] theorem queue_fldW (k hi lo v : Nat) (x0 x1 x2 : Nat) (d : Dev) : queue (fldW k hi lo v d) x0 x1 x2 = queue d x0 x1 x2 := rfl
@[simp] theorem queue_bitW (k i : Nat) (b : Bool) (x0 x1 x2 : Nat) (d : Dev) : queue (bitW k i b d) x0 x1 x2 = queue d x0 x1 x2 := rfl
@[simp] theorem queue_ctrInc (k : Nat) (x0 x1 x2 : Nat) (d : Dev) : queue (ctrInc k d) x0 x1 x2 = queue d x0 x1 x2 := rfl
@[simp] theorem queue_ctrAdd (k n : Nat) (x0 x1 x2 : Nat) (d : Dev) : queue (ctrAdd k n d) x0 x1 x2 = queue d x0 x1 x2 := rfl
@[simp] theorem queue_ctrW (k v : Nat) (x0 x1 x2 : Nat) (d : Dev) : queue (ctrW k v d) x0 x1 x2 = queue d x0 x1 x2 := rfl
@[simp] theorem queue_fnU (f : Nat) (g : Fn → Fn) (x0 x1 x2 : Nat) (d : Dev) : queue (fnU f g d) x0 x1 x2 = queue d x0 x1 x2 := rfl
@[simp] theorem queue_hpU (h : Nat) (g : HostPort → HostPort) (x0 x1 x2 : Nat) (d : Dev) : queue (hpU h g d) x0 x1 x2 = queue d x0 x1 x2 := rfl
@[simp] theorem queue_domU (n : Nat) (g : Dom → Dom) (x0 x1 x2 : Nat) (d : Dev) : queue (domU n g d) x0 x1 x2 = queue d x0 x1 x2 := rfl
@[simp] theorem queue_strU (i : Nat) (g : Str → Str) (x0 x1 x2 : Nat) (d : Dev) : queue (strU i g d) x0 x1 x2 = queue d x0 x1 x2 := rfl
@[simp] theorem queue_timeU (g : TimeBlk → TimeBlk) (x0 x1 x2 : Nat) (d : Dev) : queue (timeU g d) x0 x1 x2 = queue d x0 x1 x2 := rfl
@[simp] theorem queue_witU (g : Wit → Wit) (x0 x1 x2 : Nat) (d : Dev) : queue (witU g d) x0 x1 x2 = queue d x0 x1 x2 := rfl
@[simp] theorem queue_portU (p : Nat) (g : Port → Port) (x0 x1 x2 : Nat) (d : Dev) : queue (portU p g d) x0 x1 x2 = queue d x0 x1 x2 := rfl
@[simp] theorem queue_dramU (g : Dram → Dram) (x0 x1 x2 : Nat) (d : Dev) : queue (dramU g d) x0 x1 x2 = queue d x0 x1 x2 := rfl
@[simp] theorem queue_footU (g : Foot → Foot) (x0 x1 x2 : Nat) (d : Dev) : queue (footU g d) x0 x1 x2 = queue d x0 x1 x2 := rfl
@[simp] theorem queue_cluU (c : Nat) (g : GClu → GClu) (x0 x1 x2 : Nat) (d : Dev) : queue (cluU c g d) x0 x1 x2 = queue d x0 x1 x2 := rfl
@[simp] theorem queue_ledU (g : Ledger → Ledger) (x0 x1 x2 : Nat) (d : Dev) : queue (ledU g d) x0 x1 x2 = queue d x0 x1 x2 := rfl
@[simp] theorem queue_courseU (c : Nat) (g : Course → Course) (x0 x1 x2 : Nat) (d : Dev) : queue (courseU c g d) x0 x1 x2 = queue d x0 x1 x2 := rfl
@[simp] theorem queue_schedU (p : Nat) (g : SchedP → SchedP) (x0 x1 x2 : Nat) (d : Dev) : queue (schedU p g d) x0 x1 x2 = queue d x0 x1 x2 := rfl
@[simp] theorem queue_pldmU (g : Pldm → Pldm) (x0 x1 x2 : Nat) (d : Dev) : queue (pldmU g d) x0 x1 x2 = queue d x0 x1 x2 := rfl
@[simp] theorem queue_landed (x0 x1 x2 : Nat) (s : State) (d : Dev) : queue (landed s d).dev x0 x1 x2 = queue d x0 x1 x2 := rfl

@[simp] theorem landed_variant (s : State) (d : Dev) : (landed s d).dev.variant = d.variant := rfl
@[simp] theorem landed_regs (s : State) (d : Dev) : (landed s d).dev.regs = d.regs := rfl
@[simp] theorem landed_eff (s : State) (d : Dev) : (landed s d).dev.eff = d.eff := rfl
@[simp] theorem landed_cap (s : State) (d : Dev) : (landed s d).dev.cap = d.cap := rfl
@[simp] theorem landed_halfRx (s : State) (d : Dev) : (landed s d).dev.halfRx = d.halfRx := rfl
@[simp] theorem landed_halfTx (s : State) (d : Dev) : (landed s d).dev.halfTx = d.halfTx := rfl
@[simp] theorem landed_took (s : State) (d : Dev) : (landed s d).dev.took = d.took := rfl
@[simp] theorem landed_ctrs (s : State) (d : Dev) : (landed s d).dev.ctrs = d.ctrs := rfl
@[simp] theorem landed_latch (s : State) (d : Dev) : (landed s d).dev.latch = d.latch := rfl
@[simp] theorem landed_freeIdx (s : State) (d : Dev) : (landed s d).dev.freeIdx = d.freeIdx := rfl
@[simp] theorem landed_out (s : State) (d : Dev) : (landed s d).dev.out = d.out := rfl
@[simp] theorem landed_fns (s : State) (d : Dev) : (landed s d).dev.fns = d.fns := rfl
@[simp] theorem landed_queues (s : State) (d : Dev) : (landed s d).dev.queues = d.queues := rfl
@[simp] theorem landed_pkts (s : State) (d : Dev) : (landed s d).dev.pkts = d.pkts := rfl
@[simp] theorem landed_pktSeq (s : State) (d : Dev) : (landed s d).dev.pktSeq = d.pktSeq := rfl
@[simp] theorem landed_hports (s : State) (d : Dev) : (landed s d).dev.hports = d.hports := rfl
@[simp] theorem landed_doms (s : State) (d : Dev) : (landed s d).dev.doms = d.doms := rfl
@[simp] theorem landed_fatal (s : State) (d : Dev) : (landed s d).dev.fatal = d.fatal := rfl
@[simp] theorem landed_strs (s : State) (d : Dev) : (landed s d).dev.strs = d.strs := rfl
@[simp] theorem landed_time (s : State) (d : Dev) : (landed s d).dev.time = d.time := rfl
@[simp] theorem landed_taps (s : State) (d : Dev) : (landed s d).dev.taps = d.taps := rfl
@[simp] theorem landed_stopped (s : State) (d : Dev) : (landed s d).dev.stopped = d.stopped := rfl
@[simp] theorem landed_released (s : State) (d : Dev) : (landed s d).dev.released = d.released := rfl
@[simp] theorem landed_errs (s : State) (d : Dev) : (landed s d).dev.errs = d.errs := rfl
@[simp] theorem landed_errSeq (s : State) (d : Dev) : (landed s d).dev.errSeq = d.errSeq := rfl
@[simp] theorem landed_errAck (s : State) (d : Dev) : (landed s d).dev.errAck = d.errAck := rfl
@[simp] theorem landed_xings (s : State) (d : Dev) : (landed s d).dev.xings = d.xings := rfl
@[simp] theorem landed_egqs (s : State) (d : Dev) : (landed s d).dev.egqs = d.egqs := rfl
@[simp] theorem landed_rates (s : State) (d : Dev) : (landed s d).dev.rates = d.rates := rfl
@[simp] theorem landed_ports (s : State) (d : Dev) : (landed s d).dev.ports = d.ports := rfl
@[simp] theorem landed_cal (s : State) (d : Dev) : (landed s d).dev.cal = d.cal := rfl
@[simp] theorem landed_calSect (s : State) (d : Dev) : (landed s d).dev.calSect = d.calSect := rfl
@[simp] theorem landed_calRuns (s : State) (d : Dev) : (landed s d).dev.calRuns = d.calRuns := rfl
@[simp] theorem landed_tables (s : State) (d : Dev) : (landed s d).dev.tables = d.tables := rfl
@[simp] theorem landed_sessions (s : State) (d : Dev) : (landed s d).dev.sessions = d.sessions := rfl
@[simp] theorem landed_policers (s : State) (d : Dev) : (landed s d).dev.policers = d.policers := rfl
@[simp] theorem landed_rss (s : State) (d : Dev) : (landed s d).dev.rss = d.rss := rfl
@[simp] theorem landed_deepQ (s : State) (d : Dev) : (landed s d).dev.deepQ = d.deepQ := rfl
@[simp] theorem landed_dramQ (s : State) (d : Dev) : (landed s d).dev.dramQ = d.dramQ := rfl
@[simp] theorem landed_dramLevel (s : State) (d : Dev) : (landed s d).dev.dramLevel = d.dramLevel := rfl
@[simp] theorem landed_dramTick (s : State) (d : Dev) : (landed s d).dev.dramTick = d.dramTick := rfl
@[simp] theorem landed_courses (s : State) (d : Dev) : (landed s d).dev.courses = d.courses := rfl
@[simp] theorem landed_wit (s : State) (d : Dev) : (landed s d).dev.wit = d.wit := rfl
@[simp] theorem landed_scheds (s : State) (d : Dev) : (landed s d).dev.scheds = d.scheds := rfl
@[simp] theorem landed_copies (s : State) (d : Dev) : (landed s d).dev.copies = d.copies := rfl
@[simp] theorem landed_islJobs (s : State) (d : Dev) : (landed s d).dev.islJobs = d.islJobs := rfl
@[simp] theorem landed_comps (s : State) (d : Dev) : (landed s d).dev.comps = d.comps := rfl
@[simp] theorem landed_untested (s : State) (d : Dev) : (landed s d).dev.untested = d.untested := rfl
@[simp] theorem landed_calQ (s : State) (d : Dev) : (landed s d).dev.calQ = d.calQ := rfl
@[simp] theorem landed_dram (s : State) (d : Dev) : (landed s d).dev.dram = d.dram := rfl
@[simp] theorem landed_clusters (s : State) (d : Dev) : (landed s d).dev.clusters = d.clusters := rfl
@[simp] theorem landed_gates (s : State) (d : Dev) : (landed s d).dev.gates = d.gates := rfl
@[simp] theorem landed_spEpoch (s : State) (d : Dev) : (landed s d).dev.spEpoch = d.spEpoch := rfl
@[simp] theorem landed_dbgPort (s : State) (d : Dev) : (landed s d).dev.dbgPort = d.dbgPort := rfl
@[simp] theorem landed_dbgCores (s : State) (d : Dev) : (landed s d).dev.dbgCores = d.dbgCores := rfl
@[simp] theorem landed_ledger (s : State) (d : Dev) : (landed s d).dev.ledger = d.ledger := rfl
@[simp] theorem landed_power (s : State) (d : Dev) : (landed s d).dev.power = d.power := rfl
@[simp] theorem landed_foot (s : State) (d : Dev) : (landed s d).dev.foot = d.foot := rfl
@[simp] theorem landed_domJobs (s : State) (d : Dev) : (landed s d).dev.domJobs = d.domJobs := rfl
@[simp] theorem landed_rstJobs (s : State) (d : Dev) : (landed s d).dev.rstJobs = d.rstJobs := rfl
@[simp] theorem landed_mapJobs (s : State) (d : Dev) : (landed s d).dev.mapJobs = d.mapJobs := rfl
@[simp] theorem landed_resetAt (s : State) (d : Dev) : (landed s d).dev.resetAt = d.resetAt := rfl
@[simp] theorem landed_tripped (s : State) (d : Dev) : (landed s d).dev.tripped = d.tripped := rfl
@[simp] theorem landed_timeDead (s : State) (d : Dev) : (landed s d).dev.timeDead = d.timeDead := rfl
@[simp] theorem landed_hotWarn (s : State) (d : Dev) : (landed s d).dev.hotWarn = d.hotWarn := rfl
@[simp] theorem landed_hotCrit (s : State) (d : Dev) : (landed s d).dev.hotCrit = d.hotCrit := rfl
@[simp] theorem landed_spdmMctp (s : State) (d : Dev) : (landed s d).dev.spdmMctp = d.spdmMctp := rfl
@[simp] theorem landed_eids (s : State) (d : Dev) : (landed s d).dev.eids = d.eids := rfl
@[simp] theorem landed_pldm (s : State) (d : Dev) : (landed s d).dev.pldm = d.pldm := rfl
@[simp] theorem landed_wr (s : State) (d : Dev) : (landed s d).dev.wr = [] := rfl
@[simp] theorem landed_mem (s : State) (d : Dev) : (landed s d).dev.mem = applyWrites s.dev.mem d.wr := rfl

end Sys2Proof.Machine
end

