-- ==== Sys2Proof/WellFormed.lean ====
section
/-! DEFINITION. Which commands are well formed: every operand names something the block can have. A command that is not is still given its
meaning by `exec` (it changes nothing, or what its row says of such an operand). -/

namespace Sys2Proof

/-- Functions 0 to 1023 (R364). -/
def fnOk (f : Nat) : Bool := decide (f < 1024)
/-- Physical functions 0 to 3 (R364). -/
def pfOk (f : Nat) : Bool := decide (f < 4)
/-- VFs are the functions from 4 on (R364). -/
def vfOk (f : Nat) : Bool := decide (4 ≤ f ∧ f < 1024)
/-- Port IDs 0 to 47 (R99). -/
def portOkN (p : Nat) : Bool := decide (p < 48)
/-- Strings 0 to 7 (R54). -/
def strOk (i : Nat) : Bool := decide (i < 8)
/-- Islands 0 to 48 (R20). -/
def islandOk (n : Nat) : Bool := decide (n ≤ 48)
/-- Courses 0 to 3 (R194). -/
def courseOk (c : Nat) : Bool := decide (c < 4)
/-- Ingress and egress pipes 0 to 5 (R20). -/
def pipeOk (i : Nat) : Bool := decide (i < 6)
/-- Host ports 0 and 1 (R361). -/
def hostOk (h : Nat) : Bool := decide (h < 2)
/-- Memory channels 0 to 7 (R446). -/
def channelOk (n : Nat) : Bool := decide (n < 8)
/-- Ranks 0 to 3 of a channel (R446). -/
def rankOk (r : Nat) : Bool := decide (r < 4)
/-- Drive ports 0 to 3 (R437). -/
def driveOk (n : Nat) : Bool := decide (n < 4)
/-- Clusters 0 to 5, their 8 cores and 64 threads (R470). -/
def clusterOk (c : Nat) : Bool := decide (c < 6)
def coreOk (k : Nat) : Bool := decide (k < 8)
def threadOk (t : Nat) : Bool := decide (t < 64)
/-- Plumb groups and gates 0 to 63 (R345, R476). -/
def groupOk (g : Nat) : Bool := decide (g < 64)
/-- Local queue numbers are 16 bits wide (R281). -/
def queueOk (q : Nat) : Bool := decide (q < 65536)
/-- Word offsets into BAR0 (R366). -/
def offOk (o : Nat) : Bool := decide (o < 2 ^ 24) && decide (o % 4 = 0)
/-- A ring entry is 64 bytes, taken at an index of 16 bits (R306). -/
def cmdOk (c : Cmd) : Bool := fnOk c.fn && decide (c.bytes.length = 64) && decide (c.idx < 65536)
/-- The DOE mailboxes are those of PF0 and PF2 (R385). -/
def carrierOk : Carrier → Bool
  | .doe h => hostOk h
  | .mctp => true
/-- A TLP names a function and one of its BARs (R366). -/
def tlpOk (t : Tlp) : Bool := fnOk t.fn && decide (t.bar = 0 ∨ t.bar = 2 ∨ t.bar = 3 ∨ t.bar = 4)

/-- Well-formed commands. -/
def wellFormed : Instr → Bool
  | .registerWrite fn bar off _ => fnOk fn && decide (bar = 0 ∨ bar = 2 ∨ bar = 4) && offOk off
  | .counterLowRead fn off => fnOk fn && offOk off
  | .commit base => offOk base
  | .lock base => offOk base
  | .commitPoint base _ => offOk base
  | .xingDeliver src dst => islandOk src && islandOk dst
  | .timeTick => true
  | .codeCycle _ _ => true
  | .scheduledApply str => strOk str
  | .timeBusDelayMeasure island _ => islandOk island
  | .fretValid island => islandOk island
  | .trefLost => true
  | .tpllRelock => true
  | .trefSelWrite _ => true
  | .slewEnd str => strOk str
  | .acceptedOffset str port _ _ _ => strOk str && portOkN port
  | .sourceLost str _ => strOk str
  | .disputeTimerExpiry str => strOk str
  | .leapApply str => strOk str
  | .ppsInPulse i _ _ => decide (i < 2)
  | .ppsOutEdge i _ => decide (i < 4)
  | .ptpMessage port _ _ _ => portOkN port
  | .ptpMessageTx str port _ => strOk str && portOkN port
  | .esmcPduRx port _ => portOkN port
  | .esmcPduTx port _ => portOkN port
  | .esmcQlFailed port => portOkN port
  | .timeSetSource c => cmdOk c
  | .timeLoad c => cmdOk c
  | .timeSetIncr c => cmdOk c
  | .timeSetDrone c => cmdOk c
  | .timeReanchor c => cmdOk c
  | .timeHostOffset c => cmdOk c
  | .timeHostFreq c => cmdOk c
  | .timeSetUtc c => cmdOk c
  | .timeRead c => cmdOk c
  | .timePtpClock c => cmdOk c
  | .timePtpPort c => cmdOk c
  | .timeNowRead str => strOk str
  | .frameRx port_ _ _ _ _ _ _ _ => portOkN port_
  | .pauseExpiry port_ => portOkN port_
  | .pauseRepeat port_ => portOkN port_
  | .negotiationResolved port_ tech fec _ _ ext => portOkN port_ && decide (tech < 2 ^ 23 ∧ fec < 16 ∧ ext < 2 ^ 24)
  | .linkTrainingDone port_ _ => portOkN port_
  | .linkUp port_ _ _ => portOkN port_
  | .linkSignalLoss port_ _ _ => portOkN port_
  | .holdDownExpiry port_ => portOkN port_
  | .holdRecovered port_ _ _ => portOkN port_
  | .remoteFault port_ _ => portOkN port_
  | .portLinkRestart c => cmdOk c
  | .portIslandReset c => cmdOk c
  | .islandReady island => islandOk island
  | .portStats c => cmdOk c
  | .txLaunch port_ => portOkN port_
  | .calUpdate c _ => cmdOk c
  | .calEntryApply port_ _ => portOkN port_
  | .calMeasure c => cmdOk c
  | .calFrameTx port_ _ _ => portOkN port_
  | .calFrameLost port_ => portOkN port_
  | .calRead c => cmdOk c
  | .ingressFrame pipe => pipeOk pipe
  | .deepParse j => decide (j < 4)
  | .dramLookupDone pipe _ _ => pipeOk pipe
  | .dramShed => true
  | .tblInsert c => cmdOk c
  | .tblModify c => cmdOk c
  | .tblDelete c => cmdOk c
  | .tblRead c => cmdOk c
  | .tblClear c => cmdOk c
  | .sessionSet c => cmdOk c
  | .sessionRead c => cmdOk c
  | .policerSet c => cmdOk c
  | .policerRead c => cmdOk c
  | .rssSet c => cmdOk c
  | .courseIntake course_ => courseOk course_
  | .courseRelease course_ => courseOk course_
  | .epochWindowEnd course_ => courseOk course_
  | .wShrink course_ => courseOk course_
  | .courseLate course_ => courseOk course_
  | .courseEarly course_ => courseOk course_
  | .courseSeqSet c => cmdOk c
  | .courseDrain c => cmdOk c
  | .courseStats c => cmdOk c
  | .orphanTimeout _ => true
  | .epochBoundary => true
  | .longClose => true
  | .ashlarSealed _ => true
  | .capstoneBoundary => true
  | .capstoneSigned => true
  | .extentDurable _ => true
  | .superblockWrite => true
  | .journalOpeningDone => true
  | .journalClosed => true
  | .witMark c => cmdOk c
  | .evidenceRead c => cmdOk c
  | .witRelease c => cmdOk c
  | .witCerts c => cmdOk c
  | .witCapRing c => cmdOk c
  | .witHalf c => cmdOk c
  | .witHalfDone h => hostOk h
  | .witStats c => cmdOk c
  | .txDb fn lq => fnOk fn && queueOk lq
  | .rxDb fn lq => fnOk fn && queueOk lq
  | .cqDb fn lq _ => fnOk fn && queueOk lq
  | .aqDb fn => fnOk fn
  | .eqDb fn _ => fnOk fn
  | .tcqDb fn j => fnOk fn && decide (j < 4)
  | .pushCtl fn lq _ => fnOk fn && queueOk lq
  | .doorbellRecordRead fn qtype lq _ => fnOk fn && decide (qtype < 4) && queueOk lq
  | .fetchTurn h => hostOk h
  | .txDescFetch fn lq _ => fnOk fn && queueOk lq
  | .txDataFetch fn lq _ => fnOk fn && queueOk lq
  | .spoofDetected vf => vfOk vf
  | .rxDelivery h => hostOk h
  | .modTimeExpiry fn lq => fnOk fn && queueOk lq
  | .identify c => cmdOk c
  | .cqCreate c => cmdOk c
  | .txqCreate c => cmdOk c
  | .rxqCreate c => cmdOk c
  | .tcqCreate c => cmdOk c
  | .qstart c => cmdOk c
  | .qstop c => cmdOk c
  | .qdestroy c => cmdOk c
  | .qset c => cmdOk c
  | .qquery c => cmdOk c
  | .aqCfgWrite fn _ => fnOk fn
  | .eqCfgWrite fn _ => fnOk fn
  | .egressEnqueue pipe => pipeOk pipe
  | .admissionDrop => true
  | .schedulerSelect port_ _ _ => portOkN port_
  | .gateEntryChange port_ => portOkN port_
  | .configChangeTime port_ => portOkN port_
  | .gateOverrun port_ => portOkN port_
  | .schedStats c => cmdOk c
  | .plumbEnqueue g _ _ => groupOk g
  | .plumbLaunch port_ => portOkN port_
  | .plumbCopyTimeout g => groupOk g
  | .plumbMissed g => groupOk g
  | .plumbStats c => cmdOk c
  | .perstN h _ => hostOk h
  | .hotReset h => hostOk h
  | .hostLink h _ _ _ _ _ _ => hostOk h
  | .busMasterEnable fn _ => fnOk fn
  | .d3hot fn _ => fnOk fn
  | .flr fn => fnOk fn
  | .fnReset fn _ => fnOk fn
  | .flrDone fn => fnOk fn
  | .inboundTlp h t => hostOk h && tlpOk t
  | .peerClosed pf => pfOk pf
  | .completionTimeout fn _ => fnOk fn
  | .frzRelease h _ => hostOk h
  | .hostReleased h => hostOk h
  | .vfEnable pf _ _ => pfOk pf
  | .vfReady vf => vfOk vf
  | .spdmRequest c _ => carrierOk c
  | .getVersion c _ => carrierOk c
  | .getCapabilities c _ => carrierOk c
  | .negotiateAlgorithms c _ => carrierOk c
  | .getDigests c _ => carrierOk c
  | .getCertificate c _ => carrierOk c
  | .challenge c _ => carrierOk c
  | .getMeasurements c _ => carrierOk c
  | .grantSet c => cmdOk c
  | .grantShrinkDone fn => fnOk fn
  | .shrinkTimeout fn => fnOk fn
  | .grantQuery c => cmdOk c
  | .vfConfig c => cmdOk c
  | .logStart c => cmdOk c
  | .logDrain c => cmdOk c
  | .logStop c => cmdOk c
  | .vfSave c => cmdOk c
  | .vfRestore c => cmdOk c
  | .vfResume c => cmdOk c
  | .ccEn pf _ => pfOk pf
  | .sqTailDoorbell pf _ _ => pfOk pf
  | .cqHeadDoorbell pf _ _ => pfOk pf
  | .createIoSq pf _ => pfOk pf
  | .deleteIoSq pf _ => pfOk pf
  | .createIoCq pf _ => pfOk pf
  | .deleteIoCq pf _ => pfOk pf
  | .getLogPage pf _ => pfOk pf
  | .nvmeIdentify pf _ => pfOk pf
  | .abort pf _ => pfOk pf
  | .setFeatures pf _ => pfOk pf
  | .getFeatures pf _ => pfOk pf
  | .asynchronousEventRequest pf _ => pfOk pf
  | .namespaceManagement pf _ => pfOk pf
  | .namespaceAttachment pf _ => pfOk pf
  | .formatNvm pf _ => pfOk pf
  | .firmwareImageDownload pf _ => pfOk pf
  | .firmwareCommit pf _ _ _ => pfOk pf
  | .deviceSelfTest pf _ => pfOk pf
  | .selfTestResume => true
  | .selfTestDone _ _ => true
  | .nvmeFlush pf _ => pfOk pf
  | .nvmeWrite pf _ => pfOk pf
  | .nvmeRead pf _ _ => pfOk pf
  | .writeZeroes pf _ => pfOk pf
  | .datasetManagement pf _ => pfOk pf
  | .writebackDurable _ _ => true
  | .apstTransition pf => pfOk pf
  | .cluster0Timeout => true
  | .drivePresence n _ _ => driveOk n
  | .dperstRelease n => driveOk n
  | .driveLinkUp n _ _ => driveOk n
  | .driveLinkTimeout n => driveOk n
  | .driveIdentify n _ _ => driveOk n
  | .driveWriteError n _ => driveOk n
  | .driveCommandTimeout n => driveOk n
  | .rebuildChunk n _ => driveOk n
  | .ledgerFormat c => cmdOk c
  | .driveAdopt c => cmdOk c
  | .driveRelease c => cmdOk c
  | .ledgerStats c => cmdOk c
  | .dramRefresh ch => channelOk ch
  | .dramTempPoll ch _ => channelOk ch
  | .scrubStep ch rank _ _ _ => channelOk ch && rankOk rank
  | .caParityError ch rank _ _ => channelOk ch && rankOk rank
  | .spareCopyStep _ _ => true
  | .dramRankRetire c => cmdOk c
  | .dramStats c => cmdOk c
  | .gateIntake c => clusterOk c
  | .budgetExpiry c t => clusterOk c && threadOk t
  | .gateBusy g => groupOk g
  | .keystoneWake c t => clusterOk c && threadOk t
  | .keystoneTimer c n => clusterOk c && decide (n < 32)
  | .quiescentDeadlock c => clusterOk c
  | .channelAbandon c n => clusterOk c && decide (n < 256)
  | .breakpointHit c t => clusterOk c && threadOk t
  | .dbgHalt c k mask => clusterOk c && coreOk k && decide (mask < 256)
  | .dbgStep c k i => clusterOk c && coreOk k && decide (i < 8)
  | .dbgResume c k mask => clusterOk c && coreOk k && decide (mask < 256)
  | .dbgDataWrite c k _ _ => clusterOk c && coreOk k
  | .dbgCtlDebugEn c k _ => clusterOk c && coreOk k
  | .givikCoreRestart c => cmdOk c
  | .givikSignal c => cmdOk c
  | .givikClusterRelease c => cmdOk c
  | .givikReleased c => clusterOk c
  | .givikStats c => cmdOk c
  | .givikFaultRead c => cmdOk c
  | .add c t _ _ _ => clusterOk c && threadOk t
  | .sub c t _ _ _ => clusterOk c && threadOk t
  | .and c t _ _ _ => clusterOk c && threadOk t
  | .or c t _ _ _ => clusterOk c && threadOk t
  | .xor c t _ _ _ => clusterOk c && threadOk t
  | .sll c t _ _ _ => clusterOk c && threadOk t
  | .srl c t _ _ _ => clusterOk c && threadOk t
  | .sra c t _ _ _ => clusterOk c && threadOk t
  | .slt c t _ _ _ => clusterOk c && threadOk t
  | .sltu c t _ _ _ => clusterOk c && threadOk t
  | .seq c t _ _ _ => clusterOk c && threadOk t
  | .sne c t _ _ _ => clusterOk c && threadOk t
  | .min c t _ _ _ => clusterOk c && threadOk t
  | .max c t _ _ _ => clusterOk c && threadOk t
  | .minu c t _ _ _ => clusterOk c && threadOk t
  | .maxu c t _ _ _ => clusterOk c && threadOk t
  | .clz c t _ _ => clusterOk c && threadOk t
  | .popc c t _ _ => clusterOk c && threadOk t
  | .sel c t _ _ _ _ => clusterOk c && threadOk t
  | .mul c t _ _ _ => clusterOk c && threadOk t
  | .mulhs c t _ _ _ => clusterOk c && threadOk t
  | .mulhu c t _ _ _ => clusterOk c && threadOk t
  | .addi c t _ _ _ => clusterOk c && threadOk t
  | .andi c t _ _ _ => clusterOk c && threadOk t
  | .ori c t _ _ _ => clusterOk c && threadOk t
  | .xori c t _ _ _ => clusterOk c && threadOk t
  | .slti c t _ _ _ => clusterOk c && threadOk t
  | .sltui c t _ _ _ => clusterOk c && threadOk t
  | .lui c t _ _ => clusterOk c && threadOk t
  | .slli c t _ _ _ => clusterOk c && threadOk t
  | .srli c t _ _ _ => clusterOk c && threadOk t
  | .srai c t _ _ _ => clusterOk c && threadOk t
  | .lb c t _ _ _ => clusterOk c && threadOk t
  | .lbu c t _ _ _ => clusterOk c && threadOk t
  | .lh c t _ _ _ => clusterOk c && threadOk t
  | .lhu c t _ _ _ => clusterOk c && threadOk t
  | .lw c t _ _ _ => clusterOk c && threadOk t
  | .lwu c t _ _ _ => clusterOk c && threadOk t
  | .ld c t _ _ _ => clusterOk c && threadOk t
  | .sb c t _ _ _ => clusterOk c && threadOk t
  | .sh c t _ _ _ => clusterOk c && threadOk t
  | .sw c t _ _ _ => clusterOk c && threadOk t
  | .sd c t _ _ _ => clusterOk c && threadOk t
  | .plb c t _ _ _ => clusterOk c && threadOk t
  | .plh c t _ _ _ => clusterOk c && threadOk t
  | .plw c t _ _ _ => clusterOk c && threadOk t
  | .pld c t _ _ _ => clusterOk c && threadOk t
  | .beq c t _ _ _ => clusterOk c && threadOk t
  | .bne c t _ _ _ => clusterOk c && threadOk t
  | .blt c t _ _ _ => clusterOk c && threadOk t
  | .bge c t _ _ _ => clusterOk c && threadOk t
  | .bltu c t _ _ _ => clusterOk c && threadOk t
  | .bgeu c t _ _ _ => clusterOk c && threadOk t
  | .j c t _ => clusterOk c && threadOk t
  | .jal c t _ => clusterOk c && threadOk t
  | .jalr c t _ _ _ => clusterOk c && threadOk t
  | .lkup c t _ _ _ _ _ => clusterOk c && threadOk t
  | .acq c t _ _ => clusterOk c && threadOk t
  | .tacq c t _ _ _ => clusterOk c && threadOk t
  | .rel c t _ _ => clusterOk c && threadOk t
  | .wait c t _ _ => clusterOk c && threadOk t
  | .sig c t _ _ => clusterOk c && threadOk t
  | .tmrs c t _ _ _ => clusterOk c && threadOk t
  | .tmrc c t _ _ _ => clusterOk c && threadOk t
  | .chw c t _ _ _ => clusterOk c && threadOk t
  | .chc c t _ _ => clusterOk c && threadOk t
  | .chr c t _ _ _ _ => clusterOk c && threadOk t
  | .chrl c t _ _ _ _ => clusterOk c && threadOk t
  | .trd c t _ _ => clusterOk c && threadOk t
  | .wnext c t _ _ _ => clusterOk c && threadOk t
  | .wdone c t _ _ _ => clusterOk c && threadOk t
  | .recd c t _ _ => clusterOk c && threadOk t
  | .mfs c t _ _ => clusterOk c && threadOk t
  | .trap c t _ => clusterOk c && threadOk t
  | .brk c t _ => clusterOk c && threadOk t
  | .coldBoot src _ _ _ _ _ _ _ => decide (src < 4)
  | .pgRise _ _ _ => true
  | .pgFall cause => decide (cause ≤ 2)
  | .bridgeBringup _ => true
  | .recoveryCarrier _ => true
  | .recoveryTimeout => true
  | .fwDownload c => cmdOk c
  | .fwBind c _ => cmdOk c
  | .fwActivate c _ => cmdOk c
  | .fwConfirm c => cmdOk c
  | .fwSvnCommit c => cmdOk c
  | .footEpochAdvance c _ => cmdOk c
  | .footKeyRevoke c => cmdOk c
  | .footLifecycle c => cmdOk c
  | .footDebugToken c => cmdOk c
  | .fwDriverAbi c => cmdOk c
  | .domainSet c => cmdOk c
  | .domainState _ _ => true
  | .unitReset c => cmdOk c
  | .unitResetDone n _ => islandOk n
  | .pipeRemap c => cmdOk c
  | .pipeRemapped island => islandOk island
  | .deviceReset c => cmdOk c
  | .warmReset _ _ => true
  | .errlogRead c => cmdOk c
  | .sramCe n _ => islandOk n
  | .sramUe n _ => islandOk n
  | .xingFault n => islandOk n
  | .wardenTimeout n => islandOk n
  | .tempSensorRead _ => true
  | .thermtrip => true
  | .aonPower => true
  | .ringFault => true
  | .bridgeWdt => true
  | .keyvault => true
  | .timeIsland => true
  | .brgErrAck _ => true
  | .resetN _ => true
  | .powerOnReset => true
  | .readStatus => true
  | .readLog _ _ => true
  | .ackLog _ => true
  | .mctpDomainSet _ _ => true
  | .mctpDeviceReset _ => true
  | .setEndpointId _ _ _ => true
  | .getEndpointId _ => true
  | .getMctpVersionSupport _ => true
  | .getMessageTypeSupport => true
  | .getVendorDefinedMessageSupport _ => true
  | .getTid => true
  | .getPldmVersion _ => true
  | .getPldmTypes => true
  | .getPldmCommands _ => true
  | .getPdr _ => true
  | .getSensorReading _ => true
  | .getStateSensorReadings _ => true
  | .getPdrRepositoryInfo => true
  | .queryDeviceIdentifiers => true
  | .getFirmwareParameters => true
  | .requestUpdate _ _ _ => true
  | .passComponentTable => true
  | .updateComponent _ => true
  | .requestFirmwareData _ _ => true
  | .transferComplete => true
  | .verifyComplete => true
  | .applyComplete => true
  | .activateFirmware _ _ _ => true
  | .getStatus => true
  | .cancelUpdate => true
  | .eecStateChange _ _ => true
  | .aspmL1Entry h _ _ => hostOk h
  | .msiXEnable fn _ _ => fnOk fn
  | .fnIntxPendClear fn _ => fnOk fn
  | .frzHoldWrite h _ => hostOk h
  | .illegal c t => clusterOk c && threadOk t

end Sys2Proof
end

