-- ==== Sys2Proof/Tests/Slice0.lean ====
section
/-! SUPPORT. Tests of the model: which commands are well formed, the spec's worked examples, and for each statement states and operands
that meet its hypotheses. -/

set_option Elab.async false
set_option maxRecDepth 100000

namespace Sys2Proof.Tests

open Sys2Proof Sys2Proof.Machine

/-! ### Well-formed and ill-formed commands -/

/-- A 64-byte command of function 0, and one a byte short. -/
def okCmd : Cmd := { fn := 0, bytes := List.replicate 64 0 }
def shortCmd : Cmd := { fn := 0, bytes := List.replicate 63 0 }

/-- Each check refuses a command whose operand names nothing the block can have. -/
theorem test_illFormed_refused :
    ([.registerWrite 1024 0 0 0, .registerWrite 0 1 0 0, .registerWrite 0 0 2 0, .registerWrite 0 0 (2 ^ 24) 0, .commit 0x401102,
      .xingDeliver 49 0, .timeNowRead 8, .ppsInPulse 2 true 0, .ppsOutEdge 4 true, .txLaunch 48, .ingressFrame 6, .deepParse 4,
      .courseIntake 4, .txDb 0 65536, .tcqDb 0 4, .doorbellRecordRead 0 4 0 .ok, .fetchTurn 2, .plumbMissed 64] : List Instr).all
      (fun i => !(wellFormed i)) = true := by decide +kernel

theorem test_illFormed_refused_2 :
    ([.inboundTlp 2 { write := true, fn := 0, bar := 0, off := 0 }, .inboundTlp 0 { write := true, fn := 0, bar := 1, off := 0 },
      .inboundTlp 0 { write := true, fn := 1024, bar := 0, off := 0 }, .peerClosed 4, .vfReady 3, .vfReady 1024, .spdmRequest (.doe 2) [],
      .getVersion (.doe 2) [], .driveLinkTimeout 4, .dramRefresh 8, .scrubStep 8 0 0 .good 0, .budgetExpiry 6 0, .budgetExpiry 0 64,
      .keystoneTimer 0 32, .channelAbandon 0 256, .dbgHalt 0 8 1, .dbgHalt 0 0 256, .dbgResume 0 0 256, .dbgStep 0 0 8,
      .dbgDataWrite 6 0 true 0, .add 6 0 1 2 3, .add 0 64 1 2 3] : List Instr).all (fun i => !(wellFormed i)) = true := by decide +kernel

theorem test_illFormed_refused_3 :
    ([.timeRead shortCmd, .timeRead { okCmd with fn := 1024 }, .timeRead { okCmd with idx := 65536 },
      .coldBoot 4 true true true true [] [] [], .pgFall 3, .sramCe 49 0] : List Instr).all (fun i => !(wellFormed i)) = true := by
  decide +kernel

/-- The same commands with operands in range are well formed. -/
theorem test_wellFormed_accepted :
    ([.registerWrite 1023 4 (2 ^ 24 - 4) 0, .xingDeliver 48 0, .timeNowRead 7, .ppsInPulse 1 true 0, .ppsOutEdge 3 true, .txLaunch 47,
      .ingressFrame 5, .deepParse 3, .courseIntake 3, .txDb 0 65535, .tcqDb 0 3, .doorbellRecordRead 0 3 0 .ok, .fetchTurn 1, .plumbMissed 63,
      .inboundTlp 1 { write := true, fn := 1023, bar := 4, off := 0 }, .peerClosed 3, .vfReady 4, .vfReady 1023, .spdmRequest (.doe 1) [],
      .driveLinkTimeout 3, .dramRefresh 7, .scrubStep 7 0 0 .good 0, .budgetExpiry 5 63, .keystoneTimer 0 31, .channelAbandon 0 255,
      .dbgHalt 0 7 255, .dbgStep 0 0 7, .timeRead okCmd, .timeRead { okCmd with fn := 1023, idx := 65535 },
      .coldBoot 3 true true true true [] [] [], .pgFall 2, .sramCe 48 0] : List Instr).all wellFormed = true := by decide +kernel

/-- The table gives no row bits, so no word spells a command. -/
theorem test_decode_none (n w : Nat) : decodeTableWord n w = none := rfl

/-! ### States the tests start from -/

/-- A device whose bridge has brought the islands up. -/
def onDev : Dev := { power := true }
/-- A state with nothing waiting. -/
def st (d : Dev) : State := { dev := d, pending := [] }
/-- A command of a function with 64 bytes: fields as (offset, length, value), FN naming the issuer. -/
def cmd (fn : Nat) (fs : List (Nat × Nat × Nat)) : Cmd :=
  { fn := fn, bytes := fs.foldl (fun b f => patch b f.1 (leBytes f.2.1 f.2.2)) (patch (zeros 64) 4 [0xFF, 0xFF]) }
/-- A register at a value, and a value in effect. -/
def reg (k : Nat) (v : Word) (d : Dev) : Dev := { d with regs := Tbl.set regReset d.regs k v }
def inEff (k : Nat) (v : Word) (d : Dev) : Dev := { d with eff := Tbl.set regReset d.eff k v }
/-- A port in a state of R105 with the given PORT_STATUS word. -/
def inPort (p : Nat) (w : Word) (d : Dev) : Dev := reg (pKey p 0x40) w d
/-- A journal whose EN_ACT word is `b`. -/
def jd (w : Wit) (b : Word := 0x80000000) (d : Dev := onDev) : State := st (reg (wKey 0x40) b { d with wit := w })
/-- Four member drives, a slab of each pair in use for the namespaces named. -/
def drives (ns : List Nat) (d : Dev := onDev) : Dev :=
  { d with ledger := { d.ledger with
      drvs := (List.range 4).map fun n => (n, { st := 7, present := true, up := true, slabs := 100 })
      maps := (List.range 2).map fun p => (p, { slabs := 100, used := ns.zipIdx.map fun x => (x.2, x.1, 0) })
      volume := zeros 16 } }
/-- Bytes standing in a memory space before the step. -/
def inMem (sp a : Nat) (bs : Bytes) (d : Dev := onDev) : Dev := { d with mem := Memory.writeBytes d.mem (spaceAddr sp a) bs }
/-- An NVMe command of SQ `sq`: fields as (offset, length, value). -/
def ncm (sq : Nat) (fs : List (Nat × Nat × Nat)) : NCmd :=
  ⟨sq, 0, fs.foldl (fun b f => patch b f.1 (leBytes f.2.1 f.2.2)) (zeros 64)⟩
/-- A ready controller of PF1 with an admin queue and an I/O queue, the commands named fetched. -/
def nv (qs : List NCmd) (d : Dev := onDev) : State :=
  st (reg (cstsKey 1) 1 (fnU 1 (fun x => { x with bme := true }) (ctrlU 1 (fun c => { c with
    fetched := qs
    sqs := [(0, some { base := 0, size := 8, cq := 0 }), (1, some { base := 0, size := 8, cq := 1 })]
    cqs := [(0, some { base := 0x8000, size := 8, ien := false, vector := 0 }),
      (1, some { base := 0x9000, size := 8, ien := false, vector := 0 })] }) d)))

/-- Thread 3 of cluster 1 about to issue the word `w`, its registers as listed. -/
def iss (w : Nat) (rs : List (Nat × BitVec 64)) (g : GThr → GThr := id) (d : Dev := onDev) : State :=
  st (inMem (spc d (instrSpace 1 0)) 0x100 (leBytes 4 w) (thrU 1 3 (fun x => g { x with st := .running, pc := 0x100, regs := rs }) d))

/-- As `st`, where that name is taken. -/
def mkSt (d : Dev) : State := st d

/-- The device with nothing waiting, and a command of zeros. -/
def s0 : State := st onDev
def c0 : Cmd := cmd 0 []

/-! ### Published values of the functions the spec names -/

/-- SHA3-256 of the empty message (FIPS 202). -/
theorem test_sha3_empty : beNat (sha3_256 []) = 0xa7ffc6f8bf1ed76651c14756a061d662f580ff4de43b49fa82d80a4b80f8434a := by decide +kernel

/-- The check value of CRC-32C: the nine digits. -/
theorem test_crc32c_check : crc32c ((List.range 9).map fun i => BitVec.ofNat 8 (0x31 + i)) = 0xE3069283 := by decide +kernel

/-! ### The spec's worked examples -/

/-- 01: path bounds of ports 20 and 4 under a gate budget of 1,200 cycles, and of port 20 with frames of 256 bytes. -/
def boundDev : Dev := inEff 0xA00160 0x800004B0 (inEff 0x401150 0x40000000
  (inEff (pKey 20 0x10) (0x28000000 + 1518) (inEff (pKey 4 0x10) (0x60800000 + 9216) onDev)))
theorem test_pathBound : pathBound boundDev 0 20 = 1430 ∧ pathBound boundDev 0 4 = 992 ∧
    pathBound (inEff (pKey 20 0x10) (0x28000000 + 256) boundDev) 0 20 = 1026 := by decide +kernel

/-- R18 and 04: uncertainties of 3.25, 18 and 178 ns. -/
theorem test_encodeU : encodeU (13 * 65536 / 4) = 0x34 ∧ encodeU (18 * 65536) = 0x120 ∧ encodeU (178 * 65536) = 0xB20 := by decide +kernel

/-- 04: the receive stamp on port 0 at 100GBASE-R with RS(544,514), 300 FEC symbols after the start symbol. -/
def stampDev : Dev := reg 0xF00200 102400 (reg (pKey 0 0x40) 0x48000004 { onDev with
  cal := some { entries := [(calSlot 4 2, patch (zeros 32) 0 (leBytes 4 11948032))] }
  taps := [(portIsland 0, { reps := [{}, {}, { t := 250001000 * 2 ^ 48 }] })] })
theorem test_rxStamp : rxStampQ stampDev 0 2 0 300 = 250000787 * 65536 + 0xE3C4 := by decide +kernel

/-- 05: the key of an order from 10.1.7.33 to UDP port 40001, and of a later fragment. -/
def keyDev : Dev := inEff 0x4001C8 0x900000FF (inEff 0x4001CC 0x4000C3FF (inEff 0x4001D0 0x500021FF onDev))
def orderIp : Bytes :=
  [0x45, 0, 0, 50, 0, 0, 0, 0, 64, 17, 0, 0, 10, 1, 7, 33, 10, 0, 0, 1] ++ [0x12, 0x34, 0x9C, 0x41, 0, 30, 0, 0] ++ zeros 22
def orderFrame (ip : Bytes) : Frame := { bytes := zeros 12 ++ [0x08, 0x00] ++ ip, port := 20 }
theorem test_key : frameKey keyDev (orderFrame orderIp) 3 =
    padTo 48 [0x30, 0x07, 0x14, 0x0A, 0x01, 0x07, 0x21, 0x9C, 0x41] := by decide +kernel
theorem test_key_fragment : frameKey keyDev (orderFrame (patch orderIp 6 [0, 1])) 3 =
    padTo 48 [0x30, 0x03, 0x14, 0x0A, 0x01, 0x07, 0x21] := by decide +kernel

/-- 05: policer 812 at 30 µs of the burst, and at 60 µs: C 300 leaves E to pay, and neither bucket can. -/
def pol812 (c e tick : Nat) : Policer :=
  { mode := 1, cir := 80000, cbs := 3000, ebs := 3000, c := c * polByte, e := e * polByte, tick := tick }
theorem test_policer : polMeter (polRefill 30000 (pol812 200 3000 20000)) 0 1000 = (1, pol812 300 2000 30000) ∧
    polMeter (polRefill 60000 (pol812 500 0 50000)) 0 1000 = (2, pol812 600 0 60000) := by decide +kernel

/-- 06: W 1,000 ns; frames A and B of one TIME leave at 1,100 ns in the order of RR_PTR, A flagged AMBIG; frame E arrives too late. -/
def courseDev (ns : Nat) (hs : List (Nat × Nat × Nat)) : Dev :=
  reg (coKey 0 0x44) 1000 (reg (coKey 0 0x50) 100000 (reg (coKey 0 0x40) 0x84000000 (inEff 0x401150 0x40000000 { onDev with
    strs := [(2, { t := ns * 2 ^ 48, st := .locked })]
    taps := [(csIsland, { reps := [{}, {}, { t := ns * 2 ^ 48, st := .locked, u := 0x100000 }] })]
    time := { tick := ns }
    courses := [(0, { held := hs.zipIdx.map fun h => ⟨orderF h.1, h.2⟩, arrSeq := hs.length })] })))
where orderF (h : Nat × Nat × Nat) : Frame :=
  { bytes := zeros 64, port := h.1, stamp := qR17 (h.2.1 * 65536), u := h.2.2, str := 2, cls := 5 }
theorem test_courseTie :
    (match execCourseRelease 0 (st (courseDev 1100 [(4, 100, 0x118), (21, 100, 0x128)])) with
      | .next t => (nextSeq t.dev 0, rrPtr t.dev 0, (course t.dev 0).horizon, ctrR t.dev (coKey 0 0x108), ctrR t.dev (coKey 0 0x110))
      | _ => (0, 0, none, 0, 0)) = (100002, 5, some (237 * 32768), 2, 1) := by decide +kernel
theorem test_courseEarly :
    (match execCourseRelease 0 (st (courseDev 1099 [(4, 100, 0x118), (21, 100, 0x128)])) with
      | .next t => nextSeq t.dev 0
      | _ => 0) = 100000 := by decide +kernel

/-- 07: the record of frame A. -/
theorem test_record : (recBytes (0x6955B925 * 2 ^ 48 + 100 * 2 ^ 16) 0x128 2 1 21 true true 0x2014051F 100001 310 6 []).take 32 =
    [0x00, 0x00, 0x64, 0x00, 0x00, 0x00, 0x25, 0xB9, 0x55, 0x69, 0x00, 0x00, 0x28, 0x01, 0x41, 0xD5, 0x1F, 0x05, 0x14, 0x20,
      0xA1, 0x86, 0x01, 0x00, 0x00, 0x00, 0x00, 0x00, 0x36, 0x01, 0x06, 0x00] := by decide +kernel

/-- 09 and 10: guard bands at 25 Gb/s for frames of 1,518 and 256 bytes, and at 10 Gb/s. -/
def guardDev (w : Word) : Dev := reg (pKey 16 0x40) (w &&& 0xFC000000) (inEff (pKey 16 0x10) w onDev)
theorem test_guard : devGuard (guardDev 0x280005EE) 16 = some 509 ∧ devGuard (guardDev 0x28000100) 16 = some 105 ∧
    devGuard (guardDev 0x100005EE) 16 = some 1247 := by decide +kernel

/-- 10: ERROR of the copies on ports 16, 24 and 25, boundaries 3 ns into the second. -/
def copyError (target : Int) (mode : Nat) : Int :=
  divNearest (nearestStamp (25 * target) (25 * 3 * 65536) (plumbQuantum mode) - 25 * target) (25 * 4096)
theorem test_plumbError : copyError (6351 * 16384) 1 = 39 ∧ copyError (1963 * 65536) 2 = 15 ∧ copyError (12739 * 4096) 2 = 7 := by
  decide +kernel

/-- 13: where LBA 1,000,000 of namespace 2 lands. -/
def ledgerDev : Dev := { onDev with variant := .w, ledger := { maps := [(0, { slabs := 100, used := [(5, 2, 0), (37, 2, 1)] })] } }
theorem test_driveLba : driveLba ledgerDev 2 1000000 = some 9937472 ∧ lbaPair ledgerDev 1000000 = 0 ∧ lbaPair ledgerDev 1000192 = 1 := by
  decide +kernel

/-- 14: eight channels of four 128 GiB ranks, one rank of channel 3 a spare. -/
def dramDev : Dev := { onDev with variant := .w, dram := {
  rankSize := 2 ^ 37
  slots := (List.range 8).map fun c => if c = 3 then [12, 13, 14] else (List.range 4).map (c * 4 + ·) } }
theorem test_dramBytes : dramBytes dramDev = 3968 * 2 ^ 30 ∧ interBytes dramDev = 2048 * 2 ^ 30 ∧ (tailRanks dramDev).length = 15 := by
  decide +kernel

/-- 16: the words of the quantity gate. -/
theorem test_gateProgram :
    encI 8 30 0 0x0200 = 0x23C00200 ∧ encI 8 29 0 0x0100 = 0x23A00100 ∧ encK 0x34 1 0 0 0 = 0xD0200000 ∧ encI 0x15 2 30 16 = 0x545E0010 ∧
    encI 9 3 2 46 = 0x2462002E ∧ encI 0xA 3 3 42 = 0x2863002A ∧ encA 0 3 3 29 0 = 0x0463E800 ∧ encI 0x16 4 3 0 = 0x58830000 ∧
    encI 0xE 5 0 108 = 0x38A0006C ∧ encI 0x24 4 5 4 = 0x90850004 ∧ encK 0x34 0 0 1 0 = 0xD0001000 ∧
    encJ 0x26 (BitVec.ofInt 26 (-9)) = 0x9BFFFFF7 ∧ encK 0x34 0 5 2 0 = 0xD0052000 ∧ encK 0x34 0 0 1 5 = 0xD0001005 := by decide +kernel
theorem test_gateProgram_legal :
    [0x23C00200, 0xD0200000, 0x545E0010, 0x2462002E, 0x0463E800, 0x58830000, 0x38A0006C, 0x90850004, 0xD0001000, 0x9BFFFFF7, 0xD0052000,
      0xD0001005].all legalWord = true := by decide +kernel

/-- R500: words outside the tables: opcode 0, a set bit in a field that must be 0, a verdict of 3, a register pair past g31. -/
theorem test_illegalWords : [0, 0x040000C0, 0x2463FFC1, 0xD0001003, 0xC3E00000, 0xF4000000].all
    (fun w => !(legalWord w)) = true := by decide +kernel

/-! ActivationFollowsItsCommands -/
namespace WActivationFollowsItsCommands
def mani : FwComp := ⟨4, 0, 0, leBytes 4 0x4E414D42 ++ leBytes 2 1 ++ leBytes 2 1 ++ zeros 8 ++ zeros 24 ++ leBytes 2 1 ++ leBytes 2 2 ++ leBytes 2 16 ++ zeros 2⟩
def rc (n : Nat := 1) : SlotRec := { st := n, seq := 3, writes := 1, epoch := 0, key := 0, svn := 5, len := 0, digest := [], version := 0 }
def sl (n : Nat := 1) : List FwSlot := [{ rec_ := some (rc n), comps := [mani] }, { rec_ := some (rc 2), comps := [mani] }]
def fd (d : Dev := onDev) : Dev := { d with foot := { boot := .running, slots := sl, lifecycle := 1 }, dram := { slots := [[0]] } }
def q1 (o : Nat) (fs : List (Nat × Nat × Nat)) : NCmd := ncm 0 ((0,1,o) :: (24,8,0x9000) :: fs)
def job : ActJob := { held := ⟨{ fn := 1 }, 0⟩, gate := true, idx := 2, untested := false, fail := none, cl := 2, phase := 1, mine := true }
def nv3 (q : NCmd) (d : Dev := onDev) : State :=
  st (reg (cstsKey 3) 1 (fnU 3 (fun x => { x with bme := true }) (ctrlU 3 (fun c => { c with
    fetched := [q]
    sqs := [(0, some { base := 0, size := 8, cq := 0 })]
    cqs := [(0, some { base := 0x8000, size := 8, ien := false, vector := 0 })] }) d)))
/-- States and operands that meet the hypotheses of ActivationFollowsItsCommands. -/
theorem test_witness : (
  (
    let s : State := st fd
    let c : Cmd := cmd 0 [(17,1,9)]
    let d := s.dev
    let gate := decide (c.f 17 1 = 1)
    let i := c.f 18 1
    let st := footStatus c [(17, 1), (18, 1), (19, 1)]
        (decide (1 < c.f 17 1) || decide (3 < c.f 19 1) || (!gate && decide (1 < i)) || (gate && decide (5 < i)))
        [(gate && decide (unitStatus d (gIsland i) ≠ 0), unitStatus d (gIsland i))]
    decide (st ≠ 0)) &&
  (
    let s : State := st fd
    let c : Cmd := cmd 0 [(17,1,0),(18,1,1),(19,1,2)]
    let d := s.dev
    let gate := decide (c.f 17 1 = 1)
    let i := c.f 18 1
    let st := footStatus c [(17, 1), (18, 1), (19, 1)]
        (decide (1 < c.f 17 1) || decide (3 < c.f 19 1) || (!gate && decide (1 < i)) || (gate && decide (5 < i)))
        [(gate && decide (unitStatus d (gIsland i) ≠ 0), unitStatus d (gIsland i))]
    decide (st = 0) && decide (c.f 17 1 = 0) && decide (bitOf (c.f 19 1) 1 = true) && decide (d.foot.act = none) && decide (d.foot.actQ = []) && decide (actStatus d i (bitOf (c.f 19 1) 0) = 0)) &&
  (
    let s : State := st { fd with foot := { boot := .running } }
    let c : Cmd := cmd 0 [(17,1,0),(18,1,1),(19,1,0)]
    let d := s.dev
    let gate := decide (c.f 17 1 = 1)
    let i := c.f 18 1
    let st := footStatus c [(17, 1), (18, 1), (19, 1)]
        (decide (1 < c.f 17 1) || decide (3 < c.f 19 1) || (!gate && decide (1 < i)) || (gate && decide (5 < i)))
        [(gate && decide (unitStatus d (gIsland i) ≠ 0), unitStatus d (gIsland i))]
    decide (st = 0) && decide (c.f 17 1 = 0) && decide (d.foot.act = none) && decide (d.foot.actQ = []) && decide (actStatus d i (bitOf (c.f 19 1) 0) ≠ 0)) &&
  (
    let s : State := st fd
    let d := s.dev
    decide (d.foot.act = none)) &&
  (
    let s : State := st { fd with foot := { boot := .running, act := some job } }
    let d := s.dev
    let j := job
    decide (d.foot.act = some j) && decide (j.phase ≠ 0) && decide ((clusterEmpty j.cl d).foot = d.foot) && decide (holdsItem (clusterEmpty j.cl d) j.cl = false) && decide ((actLoad j (clusterEmpty j.cl d)).foot.actQ = [])) &&
  (
    let s : State := nv [q1 0x11 [(40,4,3),(44,4,0x400)]] fd
    let n : Nat := 0
    let q : NCmd := q1 0x11 [(40,4,3),(44,4,0x400)]
    let segs : List (Nat × Nat) := [(0x9000, 16)]
    let d := s.dev
    let e := taken d 1 n
    decide (4 * cdw q 11 % 4096 = 0) && decide (4 * (cdw q 10 + 1) ≤ 2 ^ 20) && decide (4 * cdw q 11 + 4 * (cdw q 10 + 1) ≤ 2 ^ 25) && decide (chanCount e ≠ 0) && decide (dataSegs e 1 q (4 * (cdw q 10 + 1)) = .ok segs) && decide (Starts s.dev 1 n 0x11 false q)) &&
  (
    let s : State := nv [q1 0x10 [(40,4,1)]] fd
    let n : Nat := 0
    let q : NCmd := q1 0x10 [(40,4,1)]
    let d := s.dev
    let e := taken d 1 n
    let fs := cdw q 10 % 8
    decide (bitsOf (cdw q 10) 5 3 ≤ 3) && decide (2 < fs ∨ fs = e.foot.runSlot + 1) && decide (Starts s.dev 1 n 0x10 false q)) &&
  (
    let s : State := nv [q1 0x10 [(40,4,2)]] fd
    let n : Nat := 0
    let q : NCmd := q1 0x10 [(40,4,2)]
    let d := s.dev
    let e := taken d 1 n
    let fs := cdw q 10 % 8
    decide (bitsOf (cdw q 10) 5 3 = 0) && decide (fs ≤ 2) && decide (fs ≠ e.foot.runSlot + 1) && decide (runTrial e = false) && decide (e.foot.lifecycle ≠ 2) && decide (e.foot.act = none) && decide (chanCount e ≠ 0) && decide (Starts s.dev 1 n 0x10 false q)) &&
  (
    let s : State := nv [q1 0x02 [(40,4,0x00030001)]] fd
    let n : Nat := 0
    let q : NCmd := q1 0x02 [(40,4,0x00030001)]
    let segs : List (Nat × Nat) := [(0x9000, 16)]
    let d := s.dev
    let e := taken d 1 n
    let page := padTo 4096 (ctrl e 1).errLog.flatten
    let part := slice page (le q.bytes 48 8) (min (4 * (cdw q 10 / 65536 + 65536 * (cdw q 11 % 65536) + 1)) 65536)
    decide (cdw q 10 % 256 = 1) && decide (le q.bytes 48 8 % 4 = 0) && decide (le q.bytes 48 8 ≤ page.length) && decide (dataSegs e 1 q part.length = .ok segs) && decide (Starts s.dev 1 n 0x02 false q))) = true := by decide +kernel
end WActivationFollowsItsCommands

/-! AdminAndEventQueuesAreConfigured -/
namespace WAdminAndEventQueuesAreConfigured
/-- States and operands that meet the hypotheses of AdminAndEventQueuesAreConfigured. -/
theorem test_witness : (
  (
    let s : State := s0
    let f : Nat := 0
    let v : Word := 0x80000006
    let d := s.dev
    let open_ : Prop := fnPresent d f = true ∧ isFrozen d (fnPort f) = false ∧ d.fatal = false
    decide (s.dev.wr = []) && decide (open_) && decide (bitR d (fnKey f 0x11C) 31 = false) && decide (v.getLsbD 31 = true) && decide (6 ≤ Word.fld v 4 0) && decide (Word.fld v 4 0 ≤ 16) && decide (reg64 d (fnKey f 0x100) % 4096 = 0) && decide (reg64 d (fnKey f 0x108) % 4096 = 0) && decide (reg64 d (fnKey f 0x110) % 8 = 0)) &&
  (
    let s : State := s0
    let f : Nat := 0
    let v : Word := 0x80000011
    let d := s.dev
    let open_ : Prop := fnPresent d f = true ∧ isFrozen d (fnPort f) = false ∧ d.fatal = false
    decide (s.dev.wr = []) && decide (open_) && decide (bitR d (fnKey f 0x11C) 31 = false) && decide (v.getLsbD 31 = true) && decide (Word.fld v 4 0 < 6 ∨ 16 < Word.fld v 4 0)) &&
  (
    let s : State := s0
    let f : Nat := 0
    let v : Word := 0x80000005
    let d := s.dev
    let open_ : Prop := fnPresent d f = true ∧ isFrozen d (fnPort f) = false ∧ d.fatal = false
    decide (s.dev.wr = []) && decide (open_) && decide (bitR d (fnKey f 0x11C) 31 = false) && decide (v.getLsbD 31 = true) && decide (Word.fld v 4 0 < 6 ∨ 16 < Word.fld v 4 0)) &&
  (
    let s : State := st (reg (fnKey 0 0x11C) 0x80000000 onDev)
    let f : Nat := 0
    let v : Word := 0
    let d := s.dev
    let open_ : Prop := fnPresent d f = true ∧ isFrozen d (fnPort f) = false ∧ d.fatal = false
    decide (s.dev.wr = []) && decide (open_) && decide (bitR d (fnKey f 0x11C) 31 = true) && decide (v.getLsbD 31 = false) && decide ((fn d f).aqOut = 0)) &&
  (
    let s : State := st (reg (fnKey 0 0x11C) 0x80000000 (fnU 0 (fun x => { x with aqOut := 2 }) onDev))
    let f : Nat := 0
    let v : Word := 0
    let d := s.dev
    let open_ : Prop := fnPresent d f = true ∧ isFrozen d (fnPort f) = false ∧ d.fatal = false
    decide (s.dev.wr = []) && decide (open_) && decide (bitR d (fnKey f 0x11C) 31 = true) && decide (v.getLsbD 31 = false) && decide ((fn d f).aqOut ≠ 0)) &&
  (
    let s : State := s0
    let f : Nat := 0
    let v : Word := 0x80000010
    let d := s.dev
    let open_ : Prop := fnPresent d f = true ∧ isFrozen d (fnPort f) = false ∧ d.fatal = false
    decide (s.dev.wr = []) && decide (open_) && decide (bitR d (fnKey f 0x134) 31 = false) && decide (v.getLsbD 31 = true) && decide (6 ≤ Word.fld v 4 0) && decide (Word.fld v 4 0 ≤ 16) && decide (reg64 d (fnKey f 0x120) % 4096 = 0) && decide (reg64 d (fnKey f 0x128) % 8 = 0)) &&
  (
    let s : State := st (reg (fnKey 0 0x134) 0x80000000 onDev)
    let f : Nat := 0
    let v : Word := 0
    let d := s.dev
    let open_ : Prop := fnPresent d f = true ∧ isFrozen d (fnPort f) = false ∧ d.fatal = false
    decide (s.dev.wr = []) && decide (open_) && decide (v.getLsbD 31 = false))) = true := by decide +kernel
end WAdminAndEventQueuesAreConfigured

/-! AdminCompletionEntryNamesItsCommand -/
namespace WAdminCompletionEntryNamesItsCommand
/-- States and operands that meet the hypotheses of AdminCompletionEntryNamesItsCommand. -/
theorem test_witness : (
  (
    let c : Cmd := cmd 0 []
    let d : Dev := { onDev with fns := [(0, { bme := true })] }
    decide (c.tcq = none) && decide (mayDma d c.fn = true) && decide ((fn d c.fn).aqHeld = []))) = true := by decide +kernel
end WAdminCompletionEntryNamesItsCommand

/-! AluInstructionsWriteTheirResult -/
namespace WAluInstructionsWriteTheirResult
/-- States and operands that meet the hypotheses of AluInstructionsWriteTheirResult. -/
theorem test_witness : (
  (
    let s : State := iss (encA 0 5 6 7 0) [(6, 0xFFFFFFFFFFFFFFF3), (7, 0x45), (8, 1)]
    let c : Nat := 1
    let t : Nat := 3
    let D : BitVec 5 := 5
    let A : BitVec 5 := 6
    let B : BitVec 5 := 7
    decide (s.dev.wr = []) && decide (IssuesSeq s.dev c t (encA 0 D A B 0))) &&
  (
    let s : State := iss (encA 1 5 6 7 0) [(6, 0xFFFFFFFFFFFFFFF3), (7, 0x45), (8, 1)]
    let c : Nat := 1
    let t : Nat := 3
    let D : BitVec 5 := 5
    let A : BitVec 5 := 6
    let B : BitVec 5 := 7
    decide (s.dev.wr = []) && decide (IssuesSeq s.dev c t (encA 1 D A B 0))) &&
  (
    let s : State := iss (encA 2 5 6 7 0) [(6, 0xFFFFFFFFFFFFFFF3), (7, 0x45), (8, 1)]
    let c : Nat := 1
    let t : Nat := 3
    let D : BitVec 5 := 5
    let A : BitVec 5 := 6
    let B : BitVec 5 := 7
    decide (s.dev.wr = []) && decide (IssuesSeq s.dev c t (encA 2 D A B 0))) &&
  (
    let s : State := iss (encA 3 5 6 7 0) [(6, 0xFFFFFFFFFFFFFFF3), (7, 0x45), (8, 1)]
    let c : Nat := 1
    let t : Nat := 3
    let D : BitVec 5 := 5
    let A : BitVec 5 := 6
    let B : BitVec 5 := 7
    decide (s.dev.wr = []) && decide (IssuesSeq s.dev c t (encA 3 D A B 0))) &&
  (
    let s : State := iss (encA 4 5 6 7 0) [(6, 0xFFFFFFFFFFFFFFF3), (7, 0x45), (8, 1)]
    let c : Nat := 1
    let t : Nat := 3
    let D : BitVec 5 := 5
    let A : BitVec 5 := 6
    let B : BitVec 5 := 7
    decide (s.dev.wr = []) && decide (IssuesSeq s.dev c t (encA 4 D A B 0))) &&
  (
    let s : State := iss (encA 5 5 6 7 0) [(6, 0xFFFFFFFFFFFFFFF3), (7, 0x45), (8, 1)]
    let c : Nat := 1
    let t : Nat := 3
    let D : BitVec 5 := 5
    let A : BitVec 5 := 6
    let B : BitVec 5 := 7
    decide (s.dev.wr = []) && decide (IssuesSeq s.dev c t (encA 5 D A B 0))) &&
  (
    let s : State := iss (encA 6 5 6 7 0) [(6, 0xFFFFFFFFFFFFFFF3), (7, 0x45), (8, 1)]
    let c : Nat := 1
    let t : Nat := 3
    let D : BitVec 5 := 5
    let A : BitVec 5 := 6
    let B : BitVec 5 := 7
    decide (s.dev.wr = []) && decide (IssuesSeq s.dev c t (encA 6 D A B 0))) &&
  (
    let s : State := iss (encA 7 5 6 7 0) [(6, 0xFFFFFFFFFFFFFFF3), (7, 0x45), (8, 1)]
    let c : Nat := 1
    let t : Nat := 3
    let D : BitVec 5 := 5
    let A : BitVec 5 := 6
    let B : BitVec 5 := 7
    decide (s.dev.wr = []) && decide (IssuesSeq s.dev c t (encA 7 D A B 0))) &&
  (
    let s : State := iss (encA 8 5 6 7 0) [(6, 0xFFFFFFFFFFFFFFF3), (7, 0x45), (8, 1)]
    let c : Nat := 1
    let t : Nat := 3
    let D : BitVec 5 := 5
    let A : BitVec 5 := 6
    let B : BitVec 5 := 7
    decide (s.dev.wr = []) && decide (IssuesSeq s.dev c t (encA 8 D A B 0))) &&
  (
    let s : State := iss (encA 9 5 6 7 0) [(6, 0xFFFFFFFFFFFFFFF3), (7, 0x45), (8, 1)]
    let c : Nat := 1
    let t : Nat := 3
    let D : BitVec 5 := 5
    let A : BitVec 5 := 6
    let B : BitVec 5 := 7
    decide (s.dev.wr = []) && decide (IssuesSeq s.dev c t (encA 9 D A B 0))) &&
  (
    let s : State := iss (encA 10 5 6 7 0) [(6, 0xFFFFFFFFFFFFFFF3), (7, 0x45), (8, 1)]
    let c : Nat := 1
    let t : Nat := 3
    let D : BitVec 5 := 5
    let A : BitVec 5 := 6
    let B : BitVec 5 := 7
    decide (s.dev.wr = []) && decide (IssuesSeq s.dev c t (encA 10 D A B 0))) &&
  (
    let s : State := iss (encA 11 5 6 7 0) [(6, 0xFFFFFFFFFFFFFFF3), (7, 0x45), (8, 1)]
    let c : Nat := 1
    let t : Nat := 3
    let D : BitVec 5 := 5
    let A : BitVec 5 := 6
    let B : BitVec 5 := 7
    decide (s.dev.wr = []) && decide (IssuesSeq s.dev c t (encA 11 D A B 0))) &&
  (
    let s : State := iss (encA 12 5 6 7 0) [(6, 0xFFFFFFFFFFFFFFF3), (7, 0x45), (8, 1)]
    let c : Nat := 1
    let t : Nat := 3
    let D : BitVec 5 := 5
    let A : BitVec 5 := 6
    let B : BitVec 5 := 7
    decide (s.dev.wr = []) && decide (IssuesSeq s.dev c t (encA 12 D A B 0))) &&
  (
    let s : State := iss (encA 13 5 6 7 0) [(6, 0xFFFFFFFFFFFFFFF3), (7, 0x45), (8, 1)]
    let c : Nat := 1
    let t : Nat := 3
    let D : BitVec 5 := 5
    let A : BitVec 5 := 6
    let B : BitVec 5 := 7
    decide (s.dev.wr = []) && decide (IssuesSeq s.dev c t (encA 13 D A B 0))) &&
  (
    let s : State := iss (encA 14 5 6 7 0) [(6, 0xFFFFFFFFFFFFFFF3), (7, 0x45), (8, 1)]
    let c : Nat := 1
    let t : Nat := 3
    let D : BitVec 5 := 5
    let A : BitVec 5 := 6
    let B : BitVec 5 := 7
    decide (s.dev.wr = []) && decide (IssuesSeq s.dev c t (encA 14 D A B 0))) &&
  (
    let s : State := iss (encA 15 5 6 7 0) [(6, 0xFFFFFFFFFFFFFFF3), (7, 0x45), (8, 1)]
    let c : Nat := 1
    let t : Nat := 3
    let D : BitVec 5 := 5
    let A : BitVec 5 := 6
    let B : BitVec 5 := 7
    decide (s.dev.wr = []) && decide (IssuesSeq s.dev c t (encA 15 D A B 0))) &&
  (
    let s : State := iss (encA 16 5 6 0 0) [(6, 0xFFFFFFFFFFFFFFF3), (7, 0x45), (8, 1)]
    let c : Nat := 1
    let t : Nat := 3
    let D : BitVec 5 := 5
    let A : BitVec 5 := 6
    let a := greg s.dev c t A
    let n := 0
    decide (s.dev.wr = []) && decide ((a = 0 → n = 64)) && decide ((a ≠ 0 → n < 64 ∧ 2 ^ (63 - n) ≤ a.toNat ∧ a.toNat < 2 ^ (64 - n))) && decide (IssuesSeq s.dev c t (encA 16 D A 0 0))) &&
  (
    let s : State := iss (encA 16 5 6 0 0) [(6, 0x123), (7, 0xFFFFFFFFFFFFFFFF), (8, 0)]
    let c : Nat := 1
    let t : Nat := 3
    let D : BitVec 5 := 5
    let A : BitVec 5 := 6
    let a := greg s.dev c t A
    let n := 55
    decide (s.dev.wr = []) && decide ((a = 0 → n = 64)) && decide ((a ≠ 0 → n < 64 ∧ 2 ^ (63 - n) ≤ a.toNat ∧ a.toNat < 2 ^ (64 - n))) && decide (IssuesSeq s.dev c t (encA 16 D A 0 0))) &&
  (
    let s : State := iss (encA 16 5 6 0 0) [(6, 7), (7, 7)]
    let c : Nat := 1
    let t : Nat := 3
    let D : BitVec 5 := 5
    let A : BitVec 5 := 6
    let a := greg s.dev c t A
    let n := 61
    decide (s.dev.wr = []) && decide ((a = 0 → n = 64)) && decide ((a ≠ 0 → n < 64 ∧ 2 ^ (63 - n) ≤ a.toNat ∧ a.toNat < 2 ^ (64 - n))) && decide (IssuesSeq s.dev c t (encA 16 D A 0 0))) &&
  (
    let s : State := iss (encA 16 5 6 0 0) [(7, 1)]
    let c : Nat := 1
    let t : Nat := 3
    let D : BitVec 5 := 5
    let A : BitVec 5 := 6
    let a := greg s.dev c t A
    let n := 64
    decide (s.dev.wr = []) && decide ((a = 0 → n = 64)) && decide ((a ≠ 0 → n < 64 ∧ 2 ^ (63 - n) ≤ a.toNat ∧ a.toNat < 2 ^ (64 - n))) && decide (IssuesSeq s.dev c t (encA 16 D A 0 0))) &&
  (
    let s : State := iss (encA 17 5 6 0 0) [(6, 0xFFFFFFFFFFFFFFF3), (7, 0x45), (8, 1)]
    let c : Nat := 1
    let t : Nat := 3
    let D : BitVec 5 := 5
    let A : BitVec 5 := 6
    decide (s.dev.wr = []) && decide (IssuesSeq s.dev c t (encA 17 D A 0 0))) &&
  (
    let s : State := iss (encA 0x12 5 6 7 8) [(6, 0xFFFFFFFFFFFFFFF3), (7, 0x45), (8, 1)]
    let c : Nat := 1
    let t : Nat := 3
    let D : BitVec 5 := 5
    let A : BitVec 5 := 6
    let B : BitVec 5 := 7
    let C : BitVec 5 := 8
    decide (s.dev.wr = []) && decide (IssuesSeq s.dev c t (encA 0x12 D A B C))) &&
  (
    let s : State := iss (encA 24 5 6 7 0) [(6, 0xFFFFFFFFFFFFFFF3), (7, 0x45), (8, 1)]
    let c : Nat := 1
    let t : Nat := 3
    let D : BitVec 5 := 5
    let A : BitVec 5 := 6
    let B : BitVec 5 := 7
    decide (s.dev.wr = []) && decide (IssuesSeq s.dev c t (encA 24 D A B 0))) &&
  (
    let s : State := iss (encA 25 5 6 7 0) [(6, 0xFFFFFFFFFFFFFFF3), (7, 0x45), (8, 1)]
    let c : Nat := 1
    let t : Nat := 3
    let D : BitVec 5 := 5
    let A : BitVec 5 := 6
    let B : BitVec 5 := 7
    decide (s.dev.wr = []) && decide (IssuesSeq s.dev c t (encA 25 D A B 0))) &&
  (
    let s : State := iss (encA 26 5 6 7 0) [(6, 0xFFFFFFFFFFFFFFF3), (7, 0x45), (8, 1)]
    let c : Nat := 1
    let t : Nat := 3
    let D : BitVec 5 := 5
    let A : BitVec 5 := 6
    let B : BitVec 5 := 7
    decide (s.dev.wr = []) && decide (IssuesSeq s.dev c t (encA 26 D A B 0)))) = true := by decide +kernel
end WAluInstructionsWriteTheirResult

/-! AshlarsCloseAtTheirBoundaries -/
namespace WAshlarsCloseAtTheirBoundaries
def r0 : WRec := ⟨4, patch (zeros 48) 14 [1], 0, 0⟩
/-- States and operands that meet the hypotheses of AshlarsCloseAtTheirBoundaries. -/
theorem test_witness : (
  (
    let s : State := jd { cur := some {}, lastB := 1 }
    let a : Ashlar := {}
    let d := s.dev
    let w := d.wit
    decide (w.cur = some a) && decide (curB d ≠ w.lastB) && decide (halvesDue d = false) && decide (w.gap = none) && decide (w.halfGap = none)) &&
  (
    let s : State := jd { cur := some {}, lastB := 0 } 0x80000000 { onDev with time := { tick := 2000 * effF onDev (wKey 0x14) 16 0 } }
    let a : Ashlar := {}
    let d := s.dev
    let w := d.wit
    decide (w.cur = some a) && decide (curB d = w.lastB) && decide (w.lastBTick + 2000 * effF d (wKey 0x14) 16 0 ≤ now d)) &&
  (
    let s : State := jd { recs := [r0], cur := some {} } 0x80000000 { onDev with time := { tick := 1000 * effF onDev (wKey 0x1C) 16 0 } }
    let a : Ashlar := {}
    let id : Nat := 4
    let d := s.dev
    let w := d.wit
    let r := r0
    let rest := ([] : List WRec)
    decide (w.recs = r :: rest) && decide (r.id = id) && decide (u8 r.bytes 14 % 32 = 1) && decide (r.tick + 1000 * effF d (wKey 0x1C) 16 0 ≤ now d) && decide (w.cur = some a) && decide (a.recs.length + 1 < 2 ^ 28 - 1)) &&
  (
    let s : State := jd { cur := some {} }
    let a : Ashlar := {}
    let c : Cmd := cmd 0 [(16, 1, 7), (24, 8, 64)]
    let d := s.dev
    let w := d.wit
    decide (witStatus d c true [(16, 1), (24, 8), (32, 8), (40, 16)] (decide (7 < c.f 16 1) || decide (c.f 24 8 % 64 ≠ 0)) [(!(strPresent d (c.f 16 1)), stAbsent), (!(witOpen d), stBadState)] = 0) && decide (w.failed = []) && decide (w.gap = none) && decide (stagedAll d < stagingCap d) && decide (w.recs = []) && decide (w.cur = some a) && decide (a.recs.length < 2 ^ 28 - 2)) &&
  (
    let s : State := st { onDev with strs := [(0, { st := .locked })] }
    let c : Cmd := c0
    let d := s.dev
    let i := cmdStr c
    decide (timeStatus d c [] false false (decide ((str d i).st = .drone)) = 0)) &&
  (
    let s : State := s0
    let c : Cmd := c0
    let d := s.dev
    let i := cmdStr c
    decide (timeStatus d c [] false false (decide ((str d i).st = .drone)) ≠ 0))) = true := by decide +kernel
end WAshlarsCloseAtTheirBoundaries

/-! BranchesAndJumpsSetThePc -/
namespace WBranchesAndJumpsSetThePc
/-- States and operands that meet the hypotheses of BranchesAndJumpsSetThePc. -/
theorem test_witness : (
  (
    let s : State := iss (encI 0x20 6 7 0xFFF0) [(6, 3), (7, 3)]
    let c : Nat := 1
    let t : Nat := 3
    let A : BitVec 5 := 6
    let B : BitVec 5 := 7
    let off : BitVec 16 := 0xFFF0
    let n : Nat := 0xC0
    let a := greg s.dev c t A
    let b := greg s.dev c t B
    let pc := (thr s.dev c t).pc
    let rel (taken : Prop) [Decidable taken] : Int := if taken then pc + 4 * off.toInt else pc + 4
    decide (s.dev.wr = [] ∧ rel (a = b) = (n : Int) ∧ Issues s.dev c t (encI 0x20 A B off))) &&
  (
    let s : State := iss (encI 0x20 6 7 0xFFF0) [(6, 0xFFFFFFFFFFFFFFFF), (7, 3)]
    let c : Nat := 1
    let t : Nat := 3
    let A : BitVec 5 := 6
    let B : BitVec 5 := 7
    let off : BitVec 16 := 0xFFF0
    let n : Nat := 0x104
    let a := greg s.dev c t A
    let b := greg s.dev c t B
    let pc := (thr s.dev c t).pc
    let rel (taken : Prop) [Decidable taken] : Int := if taken then pc + 4 * off.toInt else pc + 4
    decide (s.dev.wr = [] ∧ rel (a = b) = (n : Int) ∧ Issues s.dev c t (encI 0x20 A B off))) &&
  (
    let s : State := iss (encI 0x20 6 7 0xFFF0) [(6, 3), (7, 4)]
    let c : Nat := 1
    let t : Nat := 3
    let A : BitVec 5 := 6
    let B : BitVec 5 := 7
    let off : BitVec 16 := 0xFFF0
    let n : Nat := 0x104
    let a := greg s.dev c t A
    let b := greg s.dev c t B
    let pc := (thr s.dev c t).pc
    let rel (taken : Prop) [Decidable taken] : Int := if taken then pc + 4 * off.toInt else pc + 4
    decide (s.dev.wr = [] ∧ rel (a = b) = (n : Int) ∧ Issues s.dev c t (encI 0x20 A B off))) &&
  (
    let s : State := iss (encI 0x21 6 7 0xFFF0) [(6, 3), (7, 3)]
    let c : Nat := 1
    let t : Nat := 3
    let A : BitVec 5 := 6
    let B : BitVec 5 := 7
    let off : BitVec 16 := 0xFFF0
    let n : Nat := 0x104
    let a := greg s.dev c t A
    let b := greg s.dev c t B
    let pc := (thr s.dev c t).pc
    let rel (taken : Prop) [Decidable taken] : Int := if taken then pc + 4 * off.toInt else pc + 4
    decide (s.dev.wr = [] ∧ rel (a ≠ b) = (n : Int) ∧ Issues s.dev c t (encI 0x21 A B off))) &&
  (
    let s : State := iss (encI 0x21 6 7 0xFFF0) [(6, 0xFFFFFFFFFFFFFFFF), (7, 3)]
    let c : Nat := 1
    let t : Nat := 3
    let A : BitVec 5 := 6
    let B : BitVec 5 := 7
    let off : BitVec 16 := 0xFFF0
    let n : Nat := 0xC0
    let a := greg s.dev c t A
    let b := greg s.dev c t B
    let pc := (thr s.dev c t).pc
    let rel (taken : Prop) [Decidable taken] : Int := if taken then pc + 4 * off.toInt else pc + 4
    decide (s.dev.wr = [] ∧ rel (a ≠ b) = (n : Int) ∧ Issues s.dev c t (encI 0x21 A B off))) &&
  (
    let s : State := iss (encI 0x21 6 7 0xFFF0) [(6, 3), (7, 4)]
    let c : Nat := 1
    let t : Nat := 3
    let A : BitVec 5 := 6
    let B : BitVec 5 := 7
    let off : BitVec 16 := 0xFFF0
    let n : Nat := 0xC0
    let a := greg s.dev c t A
    let b := greg s.dev c t B
    let pc := (thr s.dev c t).pc
    let rel (taken : Prop) [Decidable taken] : Int := if taken then pc + 4 * off.toInt else pc + 4
    decide (s.dev.wr = [] ∧ rel (a ≠ b) = (n : Int) ∧ Issues s.dev c t (encI 0x21 A B off))) &&
  (
    let s : State := iss (encI 0x22 6 7 0xFFF0) [(6, 3), (7, 3)]
    let c : Nat := 1
    let t : Nat := 3
    let A : BitVec 5 := 6
    let B : BitVec 5 := 7
    let off : BitVec 16 := 0xFFF0
    let n : Nat := 0x104
    let a := greg s.dev c t A
    let b := greg s.dev c t B
    let pc := (thr s.dev c t).pc
    let rel (taken : Prop) [Decidable taken] : Int := if taken then pc + 4 * off.toInt else pc + 4
    decide (s.dev.wr = [] ∧ rel (a.toInt < b.toInt) = (n : Int) ∧ Issues s.dev c t (encI 0x22 A B off))) &&
  (
    let s : State := iss (encI 0x22 6 7 0xFFF0) [(6, 0xFFFFFFFFFFFFFFFF), (7, 3)]
    let c : Nat := 1
    let t : Nat := 3
    let A : BitVec 5 := 6
    let B : BitVec 5 := 7
    let off : BitVec 16 := 0xFFF0
    let n : Nat := 0xC0
    let a := greg s.dev c t A
    let b := greg s.dev c t B
    let pc := (thr s.dev c t).pc
    let rel (taken : Prop) [Decidable taken] : Int := if taken then pc + 4 * off.toInt else pc + 4
    decide (s.dev.wr = [] ∧ rel (a.toInt < b.toInt) = (n : Int) ∧ Issues s.dev c t (encI 0x22 A B off))) &&
  (
    let s : State := iss (encI 0x22 6 7 0xFFF0) [(6, 3), (7, 4)]
    let c : Nat := 1
    let t : Nat := 3
    let A : BitVec 5 := 6
    let B : BitVec 5 := 7
    let off : BitVec 16 := 0xFFF0
    let n : Nat := 0xC0
    let a := greg s.dev c t A
    let b := greg s.dev c t B
    let pc := (thr s.dev c t).pc
    let rel (taken : Prop) [Decidable taken] : Int := if taken then pc + 4 * off.toInt else pc + 4
    decide (s.dev.wr = [] ∧ rel (a.toInt < b.toInt) = (n : Int) ∧ Issues s.dev c t (encI 0x22 A B off))) &&
  (
    let s : State := iss (encI 0x23 6 7 0xFFF0) [(6, 3), (7, 3)]
    let c : Nat := 1
    let t : Nat := 3
    let A : BitVec 5 := 6
    let B : BitVec 5 := 7
    let off : BitVec 16 := 0xFFF0
    let n : Nat := 0xC0
    let a := greg s.dev c t A
    let b := greg s.dev c t B
    let pc := (thr s.dev c t).pc
    let rel (taken : Prop) [Decidable taken] : Int := if taken then pc + 4 * off.toInt else pc + 4
    decide (s.dev.wr = [] ∧ rel (b.toInt ≤ a.toInt) = (n : Int) ∧ Issues s.dev c t (encI 0x23 A B off))) &&
  (
    let s : State := iss (encI 0x23 6 7 0xFFF0) [(6, 0xFFFFFFFFFFFFFFFF), (7, 3)]
    let c : Nat := 1
    let t : Nat := 3
    let A : BitVec 5 := 6
    let B : BitVec 5 := 7
    let off : BitVec 16 := 0xFFF0
    let n : Nat := 0x104
    let a := greg s.dev c t A
    let b := greg s.dev c t B
    let pc := (thr s.dev c t).pc
    let rel (taken : Prop) [Decidable taken] : Int := if taken then pc + 4 * off.toInt else pc + 4
    decide (s.dev.wr = [] ∧ rel (b.toInt ≤ a.toInt) = (n : Int) ∧ Issues s.dev c t (encI 0x23 A B off))) &&
  (
    let s : State := iss (encI 0x23 6 7 0xFFF0) [(6, 3), (7, 4)]
    let c : Nat := 1
    let t : Nat := 3
    let A : BitVec 5 := 6
    let B : BitVec 5 := 7
    let off : BitVec 16 := 0xFFF0
    let n : Nat := 0x104
    let a := greg s.dev c t A
    let b := greg s.dev c t B
    let pc := (thr s.dev c t).pc
    let rel (taken : Prop) [Decidable taken] : Int := if taken then pc + 4 * off.toInt else pc + 4
    decide (s.dev.wr = [] ∧ rel (b.toInt ≤ a.toInt) = (n : Int) ∧ Issues s.dev c t (encI 0x23 A B off))) &&
  (
    let s : State := iss (encI 0x24 6 7 0xFFF0) [(6, 3), (7, 3)]
    let c : Nat := 1
    let t : Nat := 3
    let A : BitVec 5 := 6
    let B : BitVec 5 := 7
    let off : BitVec 16 := 0xFFF0
    let n : Nat := 0x104
    let a := greg s.dev c t A
    let b := greg s.dev c t B
    let pc := (thr s.dev c t).pc
    let rel (taken : Prop) [Decidable taken] : Int := if taken then pc + 4 * off.toInt else pc + 4
    decide (s.dev.wr = [] ∧ rel (a.toNat < b.toNat) = (n : Int) ∧ Issues s.dev c t (encI 0x24 A B off))) &&
  (
    let s : State := iss (encI 0x24 6 7 0xFFF0) [(6, 0xFFFFFFFFFFFFFFFF), (7, 3)]
    let c : Nat := 1
    let t : Nat := 3
    let A : BitVec 5 := 6
    let B : BitVec 5 := 7
    let off : BitVec 16 := 0xFFF0
    let n : Nat := 0x104
    let a := greg s.dev c t A
    let b := greg s.dev c t B
    let pc := (thr s.dev c t).pc
    let rel (taken : Prop) [Decidable taken] : Int := if taken then pc + 4 * off.toInt else pc + 4
    decide (s.dev.wr = [] ∧ rel (a.toNat < b.toNat) = (n : Int) ∧ Issues s.dev c t (encI 0x24 A B off))) &&
  (
    let s : State := iss (encI 0x24 6 7 0xFFF0) [(6, 3), (7, 4)]
    let c : Nat := 1
    let t : Nat := 3
    let A : BitVec 5 := 6
    let B : BitVec 5 := 7
    let off : BitVec 16 := 0xFFF0
    let n : Nat := 0xC0
    let a := greg s.dev c t A
    let b := greg s.dev c t B
    let pc := (thr s.dev c t).pc
    let rel (taken : Prop) [Decidable taken] : Int := if taken then pc + 4 * off.toInt else pc + 4
    decide (s.dev.wr = [] ∧ rel (a.toNat < b.toNat) = (n : Int) ∧ Issues s.dev c t (encI 0x24 A B off))) &&
  (
    let s : State := iss (encI 0x25 6 7 0xFFF0) [(6, 3), (7, 3)]
    let c : Nat := 1
    let t : Nat := 3
    let A : BitVec 5 := 6
    let B : BitVec 5 := 7
    let off : BitVec 16 := 0xFFF0
    let n : Nat := 0xC0
    let a := greg s.dev c t A
    let b := greg s.dev c t B
    let pc := (thr s.dev c t).pc
    let rel (taken : Prop) [Decidable taken] : Int := if taken then pc + 4 * off.toInt else pc + 4
    decide (s.dev.wr = [] ∧ rel (b.toNat ≤ a.toNat) = (n : Int) ∧ Issues s.dev c t (encI 0x25 A B off))) &&
  (
    let s : State := iss (encI 0x25 6 7 0xFFF0) [(6, 0xFFFFFFFFFFFFFFFF), (7, 3)]
    let c : Nat := 1
    let t : Nat := 3
    let A : BitVec 5 := 6
    let B : BitVec 5 := 7
    let off : BitVec 16 := 0xFFF0
    let n : Nat := 0xC0
    let a := greg s.dev c t A
    let b := greg s.dev c t B
    let pc := (thr s.dev c t).pc
    let rel (taken : Prop) [Decidable taken] : Int := if taken then pc + 4 * off.toInt else pc + 4
    decide (s.dev.wr = [] ∧ rel (b.toNat ≤ a.toNat) = (n : Int) ∧ Issues s.dev c t (encI 0x25 A B off))) &&
  (
    let s : State := iss (encI 0x25 6 7 0xFFF0) [(6, 3), (7, 4)]
    let c : Nat := 1
    let t : Nat := 3
    let A : BitVec 5 := 6
    let B : BitVec 5 := 7
    let off : BitVec 16 := 0xFFF0
    let n : Nat := 0x104
    let a := greg s.dev c t A
    let b := greg s.dev c t B
    let pc := (thr s.dev c t).pc
    let rel (taken : Prop) [Decidable taken] : Int := if taken then pc + 4 * off.toInt else pc + 4
    decide (s.dev.wr = [] ∧ rel (b.toNat ≤ a.toNat) = (n : Int) ∧ Issues s.dev c t (encI 0x25 A B off))) &&
  (
    let s : State := iss (encJ 0x26 0x3FFFFF0) [(6, 3), (7, 3)]
    let c : Nat := 1
    let t : Nat := 3
    let far : BitVec 26 := 0x3FFFFF0
    let n : Nat := 0xC0
    let pc := (thr s.dev c t).pc
    decide (s.dev.wr = [] ∧ ((pc : Int) + 4 * far.toInt) = (n : Int) ∧ Issues s.dev c t (encJ 0x26 far))) &&
  (
    let s : State := iss (encJ 0x26 0x3FFFFF0) [(6, 0xFFFFFFFFFFFFFFFF), (7, 3)]
    let c : Nat := 1
    let t : Nat := 3
    let far : BitVec 26 := 0x3FFFFF0
    let n : Nat := 0xC0
    let pc := (thr s.dev c t).pc
    decide (s.dev.wr = [] ∧ ((pc : Int) + 4 * far.toInt) = (n : Int) ∧ Issues s.dev c t (encJ 0x26 far))) &&
  (
    let s : State := iss (encJ 0x26 0x3FFFFF0) [(6, 3), (7, 4)]
    let c : Nat := 1
    let t : Nat := 3
    let far : BitVec 26 := 0x3FFFFF0
    let n : Nat := 0xC0
    let pc := (thr s.dev c t).pc
    decide (s.dev.wr = [] ∧ ((pc : Int) + 4 * far.toInt) = (n : Int) ∧ Issues s.dev c t (encJ 0x26 far))) &&
  (
    let s : State := iss (encJ 0x27 0x3FFFFF0) [(6, 3), (7, 3)]
    let c : Nat := 1
    let t : Nat := 3
    let far : BitVec 26 := 0x3FFFFF0
    let n : Nat := 0xC0
    let pc := (thr s.dev c t).pc
    decide (s.dev.wr = [] ∧ ((pc : Int) + 4 * far.toInt) = (n : Int) ∧ Issues s.dev c t (encJ 0x27 far))) &&
  (
    let s : State := iss (encJ 0x27 0x3FFFFF0) [(6, 0xFFFFFFFFFFFFFFFF), (7, 3)]
    let c : Nat := 1
    let t : Nat := 3
    let far : BitVec 26 := 0x3FFFFF0
    let n : Nat := 0xC0
    let pc := (thr s.dev c t).pc
    decide (s.dev.wr = [] ∧ ((pc : Int) + 4 * far.toInt) = (n : Int) ∧ Issues s.dev c t (encJ 0x27 far))) &&
  (
    let s : State := iss (encJ 0x27 0x3FFFFF0) [(6, 3), (7, 4)]
    let c : Nat := 1
    let t : Nat := 3
    let far : BitVec 26 := 0x3FFFFF0
    let n : Nat := 0xC0
    let pc := (thr s.dev c t).pc
    decide (s.dev.wr = [] ∧ ((pc : Int) + 4 * far.toInt) = (n : Int) ∧ Issues s.dev c t (encJ 0x27 far))) &&
  (
    let s : State := iss (encI 0x28 5 6 0xFFF0) [(6, 0x235)]
    let c : Nat := 1
    let t : Nat := 3
    let D : BitVec 5 := 5
    let A : BitVec 5 := 6
    let off : BitVec 16 := 0xFFF0
    let n : Nat := 0x224
    let a := greg s.dev c t A
    decide (s.dev.wr = [] ∧ ((a + off.signExtend 64) &&& ~~~(3#64)).toInt = (n : Int) ∧ Issues s.dev c t (encI 0x28 D A off)))) = true := by decide +kernel
end WBranchesAndJumpsSetThePc

/-! CalibrationFollowsItsCommands -/
namespace WCalibrationFollowsItsCommands
def cc (fs : List (Nat × Nat × Nat)) : Cmd := cmd 0 fs
def ru : CalRun := { held := hold onDev c0, kind := 1, run := 7, count := 3, sent := 1 }
def ent : Bytes := patch (zeros 32) 25 [0, 3]
def upd : Dev := inMem 0 64 ent
def prt (x : CalRun) (d : Dev := onDev) : State := st (reg (pKey 3 0x40) 0x68000004 (portU 3 (fun v => { v with cal := some x }) d))
def ob : CalOut := ⟨0, 55, 10, []⟩
/-- States and operands that meet the hypotheses of CalibrationFollowsItsCommands. -/
theorem test_witness : (
  (
    let s : State := prt ru { onDev with calQ := [(hold onDev c0, 0)] }
    let d := s.dev
    decide (d.calQ ≠ []) && decide (calBusy d = true)) &&
  (
    let s : State := s0
    let c : Cmd := cmd 0 [(0,1,0x38),(16,1,17)]
    let d := s.dev
    decide (d.calQ = []) && decide (calBusy d = false) && decide (c.opcode = 0x38) && decide (calUpdateStatus d c ≠ 0)) &&
  (
    let s : State := st upd
    let c : Cmd := cmd 0 [(0,1,0x38),(16,1,1),(20,4,0),(24,8,64)]
    let n : Nat := 0
    let d := s.dev
    decide (d.calQ = []) && decide (calBusy d = false) && decide (c.opcode = 0x38) && decide (calUpdateStatus d c = 0) && decide (c.f 16 1 ≠ 0) && decide (n % 3 = 0)) &&
  (
    let s : State := st upd
    let c : Cmd := cmd 0 [(0,1,0x38),(16,1,1),(20,4,0),(24,8,64)]
    let n : Nat := 1
    let d := s.dev
    decide (d.calQ = []) && decide (calBusy d = false) && decide (c.opcode = 0x38) && decide (calUpdateStatus d c = 0) && decide (c.f 16 1 ≠ 0) && decide (n % 3 ≠ 0)) &&
  (
    let s : State := s0
    let c : Cmd := cmd 0 [(0,1,0x39),(16,1,3)]
    let d := s.dev
    decide (d.calQ = []) && decide (calBusy d = false) && decide (c.opcode = 0x39) && decide (calMeasureStatus d c ≠ 0)) &&
  (
    let s : State := st (reg (pKey 3 0x40) 0x68000004 (reg 0x404 1 onDev))
    let c : Cmd := cmd 0 [(0,1,0x39),(16,1,3),(17,1,1),(18,2,3),(24,8,64)]
    let d := s.dev
    decide (d.calQ = []) && decide (calBusy d = false) && decide (c.opcode = 0x39) && decide (calMeasureStatus d c = 0) && decide (c.f 18 2 ≠ 0)) &&
  (
    let s : State := s0
    let c : Cmd := cmd 0 [(0,1,0x3A),(24,8,64)]
    let d := s.dev
    decide (d.calQ = []) && decide (calBusy d = false) && decide (c.opcode = 0x3A) && decide (c.fn = 0) && decide (cmdSelf c ≠ none) && decide (reservedOk c [(24, 8)] = true) && decide (c.f 24 8 % 64 = 0)) &&
  (
    let s : State := s0
    let p : Nat := 3
    let tx : Bool := true
    let d := s.dev
    decide ((if tx then (port d p).oldTx else (port d p).oldRx) = [])) &&
  (
    let s : State := st (portU 3 (fun v => { v with oldTx := [(5, ent)] }) onDev)
    let p : Nat := 3
    let tx : Bool := true
    let d := s.dev
    decide ((if tx then (port d p).oldTx else (port d p).oldRx) ≠ []) && decide ((tx = true → (port d p).busyUntil ≤ now d)) && decide ((port d p).cal = none)) &&
  (
    let s : State := prt { ru with sent := 0 }
    let p : Nat := 3
    let r : CalRun := { ru with sent := 0 }
    let d := s.dev
    decide ((port d p).cal = some r) && decide (r.sent < r.count) && decide ((port d p).busyUntil ≤ now d) && decide ((port d p).hold = []) && decide (r.sent = 0 ∨ r.last + 1000 ≤ now d) && decide (r.out = []) && decide (mayTransmit d p = true ∨ lstate d p = 6)) &&
  (
    let s : State := prt ru { onDev with time := { tick := 1000 } }
    let p : Nat := 3
    let r : CalRun := ru
    let d := s.dev
    decide ((port d p).cal = some r) && decide (r.sent < r.count) && decide ((port d p).busyUntil ≤ now d) && decide ((port d p).hold = []) && decide (r.sent = 0 ∨ r.last + 1000 ≤ now d) && decide (r.out = []) && decide (mayTransmit d p = true ∨ lstate d p = 6)) &&
  (
    let s : State := st (reg (pKey 3 0x40) 0x68000006 (portU 3 (fun v => { v with cal := some { ru with sent := 0 } }) onDev))
    let p : Nat := 3
    let r : CalRun := { ru with sent := 0 }
    let d := s.dev
    decide ((port d p).cal = some r) && decide (r.sent < r.count) && decide ((port d p).busyUntil ≤ now d) && decide ((port d p).hold = []) && decide (r.sent = 0 ∨ r.last + 1000 ≤ now d) && decide (r.out = []) && decide (mayTransmit d p = true ∨ lstate d p = 6)) &&
  (
    let s : State := prt { ru with out := [ob] } { onDev with time := { tick := 100011 } }
    let p : Nat := 3
    let r : CalRun := { ru with out := [ob] }
    let d := s.dev
    let o := ob
    let rest := ([] : List CalOut)
    decide ((port d p).cal = some r) && decide (r.out = o :: rest) && decide (calLost d o = true) && decide (r.sent < r.count) && decide (r.straddled = false) && decide (r.linkLost = false))) = true := by decide +kernel
end WCalibrationFollowsItsCommands

/-! ChainHashCoversTheHeader -/
namespace WChainHashCoversTheHeader
/-- States and operands that meet the hypotheses of ChainHashCoversTheHeader. -/
theorem test_witness : (
  (
    let hp : Bytes := zeros 32
    decide (hp.length = 32))) = true := by decide +kernel
end WChainHashCoversTheHeader

/-! ChannelInstructionsMoveMessages -/
namespace WChannelInstructionsMoveMessages
def ch (h : GChan) (g : Dev → Dev := id) : Dev := gchanU 1 9 (fun _ => h) (g onDev)
/-- States and operands that meet the hypotheses of ChannelInstructionsMoveMessages. -/
theorem test_witness : (
  (
    let s : State := iss (encK 0x32 5 6 0 4) [(6, 5), (5, 77)] id (ch {})
    let c : Nat := 1
    let t : Nat := 3
    let D : BitVec 5 := 5
    let A : BitVec 5 := 6
    let k : BitVec 8 := 4
    let n : Nat := 9
    let d := s.dev
    let h := gchan d c n
    decide (s.dev.wr = []) && decide (n = ((greg s.dev c t A).toNat + k.toNat) % 2 ^ 32) && decide (n < 256) && decide (h.lost = []) && decide (h.owner = none) && decide (h.committed = false) && decide (h.writers = []) && decide (IssuesSeq d c t (encK 0x32 D A 0 (k.setWidth 12)))) &&
  (
    let s : State := iss (encK 0x32 5 6 0 4) [(6, 5), (5, 77)] id (ch { owner := some 3, words := [1, 2] })
    let c : Nat := 1
    let t : Nat := 3
    let D : BitVec 5 := 5
    let A : BitVec 5 := 6
    let k : BitVec 8 := 4
    let n : Nat := 9
    let d := s.dev
    let h := gchan d c n
    decide (s.dev.wr = []) && decide (n = ((greg s.dev c t A).toNat + k.toNat) % 2 ^ 32) && decide (n < 256) && decide (h.lost = []) && decide (h.owner = some t) && decide (h.words.length < 16) && decide (IssuesSeq d c t (encK 0x32 D A 0 (k.setWidth 12)))) &&
  (
    let s : State := iss (encK 0x32 5 6 0 4) [(6, 5), (5, 77)] id (ch { owner := some 7, words := [1, 2] })
    let c : Nat := 1
    let t : Nat := 3
    let D : BitVec 5 := 5
    let A : BitVec 5 := 6
    let k : BitVec 8 := 4
    let n : Nat := 9
    let d := s.dev
    let h := gchan d c n
    let o := 7
    decide (s.dev.wr = []) && decide (n = ((greg s.dev c t A).toNat + k.toNat) % 2 ^ 32) && decide (n < 256) && decide (h.lost = []) && decide (h.owner = some o) && decide (o ≠ t) && decide (IssuesSeq d c t (encK 0x32 D A 0 (k.setWidth 12)))) &&
  (
    let s : State := iss (encK 0x32 0 6 1 4) [(6, 5), (5, 77)] (fun x => { x with abandoned := true }) (ch { owner := some 3, words := [1, 2] })
    let c : Nat := 1
    let t : Nat := 3
    let A : BitVec 5 := 6
    let k : BitVec 8 := 4
    let n : Nat := 9
    let d := s.dev
    let h := gchan d c n
    decide (s.dev.wr = []) && decide (n = ((greg s.dev c t A).toNat + k.toNat) % 2 ^ 32) && decide (n < 256) && decide (h.lost = []) && decide (h.owner = some t) && decide (IssuesSeq d c t (encK 0x32 0 A 1 (k.setWidth 12)))) &&
  (
    let s : State := iss (encK 0x32 0 6 1 4) [(6, 5), (5, 77)] id (ch { lost := [3] })
    let c : Nat := 1
    let t : Nat := 3
    let A : BitVec 5 := 6
    let k : BitVec 8 := 4
    let n : Nat := 9
    let d := s.dev
    let h := gchan d c n
    decide (s.dev.wr = []) && decide (n = ((greg s.dev c t A).toNat + k.toNat) % 2 ^ 32) && decide (n < 256) && decide (h.lost = [t]) && decide (IssuesSeq d c t (encK 0x32 0 A 1 (k.setWidth 12)))) &&
  (
    let s : State := iss (encK 0x32 5 6 2 0x204) [(6, 5), (5, 77)] id (ch { words := [1, 2, 3], committed := true })
    let c : Nat := 1
    let t : Nat := 3
    let D : BitVec 5 := 5
    let A : BitVec 5 := 6
    let w : BitVec 4 := 2
    let k : BitVec 8 := 4
    let n : Nat := 9
    let d := s.dev
    let h := gchan d c n
    decide (s.dev.wr = []) && decide (n = ((greg s.dev c t A).toNat + k.toNat) % 2 ^ 32) && decide (n < 256) && decide (h.committed = true) && decide (IssuesSeq d c t (encK 0x32 D A 2 (w ++ k)))) &&
  (
    let s : State := iss (encK 0x32 5 6 2 0x204) [(6, 5), (5, 77)] id (ch { words := [1, 2, 3] })
    let c : Nat := 1
    let t : Nat := 3
    let D : BitVec 5 := 5
    let A : BitVec 5 := 6
    let w : BitVec 4 := 2
    let k : BitVec 8 := 4
    let n : Nat := 9
    let d := s.dev
    let h := gchan d c n
    decide (s.dev.wr = []) && decide (n = ((greg s.dev c t A).toNat + k.toNat) % 2 ^ 32) && decide (n < 256) && decide (h.committed = false) && decide (IssuesSeq d c t (encK 0x32 D A 2 (w ++ k)))) &&
  (
    let s : State := iss (encK 0x32 5 6 3 0x204) [(6, 5), (5, 77)] id (ch { words := [1, 2, 3], committed := true })
    let c : Nat := 1
    let t : Nat := 3
    let D : BitVec 5 := 5
    let A : BitVec 5 := 6
    let w : BitVec 4 := 2
    let k : BitVec 8 := 4
    let n : Nat := 9
    let d := s.dev
    let h := gchan d c n
    decide (s.dev.wr = []) && decide (n = ((greg s.dev c t A).toNat + k.toNat) % 2 ^ 32) && decide (n < 256) && decide (h.committed = true) && decide (h.writers = []) && decide (IssuesSeq d c t (encK 0x32 D A 3 (w ++ k)))) &&
  (
    let s : State := st (thrU 1 3 (fun x => { x with st := .waiting (.lock 9), granted := some true, pc := 0x100, regs := [(6, 5)] }) onDev)
    let c : Nat := 1
    let t : Nat := 3
    let A : BitVec 5 := 6
    let k : BitVec 8 := 4
    let n : Nat := 9
    let d := s.dev
    let x := thr d c t
    let m := 9
    let b := true
    decide (s.dev.wr = []) && decide (n = ((greg s.dev c t A).toNat + k.toNat) % 2 ^ 32) && decide (n < 256) && decide (x.st = .waiting (.lock m)) && decide (x.granted = some b) && decide ((x.halted = false ∨ x.step = true)) && decide (coreStopped d c (t / 8) = false) && decide (islandOn d (gIsland c) = true) && decide (overdue d x = false))) = true := by decide +kernel
end WChannelInstructionsMoveMessages

/-! ClassificationStateFollowsItsCommands -/
namespace WClassificationStateFollowsItsCommands
def tb3 : Dev := inEff (tblKey 3 0) 0x80000004 onDev
def ent5 : Bytes := patch (zeros 64) 0 [5]
def has5 : Dev := inMem 0 64 ent5 (ltableU 3 (fun x => { x with ents := [⟨storedEnt ent5 7, some 0⟩, ⟨storedEnt (zeros 64) 0, some 0⟩] }) tb3)
/-- States and operands that meet the hypotheses of ClassificationStateFollowsItsCommands. -/
theorem test_witness : (
  (
    let s : State := s0
    let c : Cmd := c0
    let it : Bytes := patch (zeros 32) 0 [4, 0, 2, 1, 9, 0, 0, 0, 20, 0, 0, 0, 5, 0, 0, 0, 6]
    let d := s.dev
    decide ((policerSet1 c it d).1 = 0) && decide (u8 it 2 = 2) && decide (0 < le it 4 4)) &&
  (
    let s : State := st (inEff 0x402010 100 onDev)
    let c : Cmd := c0
    let it : Bytes := patch (zeros 16) 0 [4, 0, 0, 0, 3]
    let d := s.dev
    decide ((sessionSet1 c it d).1 = 0) && decide (bitOf (le it 4 2) 2 = false)) &&
  (
    let s : State := s0
    let c : Cmd := c0
    let it : Bytes := patch (zeros 32) 0 [4, 0, 3]
    let d := s.dev
    decide ((policerSet1 c it d).1 ≠ 0)) &&
  (
    let s : State := s0
    let c : Cmd := c0
    let it : Bytes := patch (zeros 16) 0 [4, 0, 0, 0, 3]
    let d := s.dev
    decide ((sessionSet1 c it d).1 ≠ 0)) &&
  (
    let s : State := s0
    let c : Cmd := c0
    let d := s.dev
    decide (cCount c = 0) && decide ((tblStatus d c) = 0)) &&
  (
    let s : State := st has5
    let c : Cmd := cmd 0 [(16,1,3),(18,2,1),(24,8,64)]
    let d := s.dev
    decide (cCount c = 1) && decide ((tblStatus d c) = 0)) &&
  (
    let s : State := st has5
    let c : Cmd := cmd 7 [(16,1,3),(18,2,1),(24,8,64)]
    let d := s.dev
    decide (cCount c = 1) && decide ((tblStatus d c) = 0)) &&
  (
    let s : State := st has5
    let c : Cmd := cmd 0 [(16,1,3)]
    let d := s.dev
    decide ((classStatus d c [(16, 1)] (decide (7 < c.f 16 1)) false) = 0)) &&
  (
    let s : State := st (sessionU 4 (fun x => { x with frames := 9, owner := 6 }) (inEff 0x402010 100 onDev))
    let c : Cmd := cmd 0 [(18,2,2),(20,4,3),(24,8,64)]
    let d := s.dev
    decide ((classStatus d c [(18, 2), (20, 4), (24, 8)] (decide (64 < cCount c) || decide (cBuf c % 64 ≠ 0) || (decide (cCount c ≠ 0) && decide (sessionSlots d < c.f 20 4 + cCount c))) false) = 0)) &&
  (
    let s : State := st (policerU 3 (fun x => { x with mode := 2, cir := 9, pir := 10, cbs := 5, ebs := 5 }) { onDev with time := { tick := 1000000 } })
    let c : Cmd := cmd 0 [(20,2,3),(24,8,64)]
    let d := s.dev
    decide ((classStatus d c [(20, 2), (24, 8)] (decide (cBuf c % 64 ≠ 0)) (!(mayUse d c 8 (c.f 20 2) false))) = 0)) &&
  (
    let s : State := st (inMem 0 128 [1,2,3,4])
    let c : Cmd := cmd 0 [(20,2,4094),(22,2,2),(24,8,64)]
    let d := s.dev
    let f := actor d c
    let rss := classStatus d c [(16, 1), (17, 1), (18, 1), (19, 1), (20, 2), (22, 2), (24, 8)]
        (decide (2 ≤ c.f 16 1) || decide (64 ≤ c.f 18 1) || decide (4096 < c.f 22 2) || decide (2 ^ (if isVf f then 9 else 12) < c.f 20 2 + c.f 22 2) ||
          decide (cBuf c % 64 ≠ 0) ||
          (bitOf (c.f 16 1) 0 && (decide (1 < c.f 17 1) || decide (c.f 19 1 < 6) || decide ((if isVf f then 9 else 12) < c.f 19 1)))) false
    decide (bitOf (c.f 16 1) 0 = false) && decide (rss = 0)) &&
  (
    let s : State := st (inMem 0 64 [1,2,3,4])
    let c : Cmd := cmd 0 [(16,1,1),(17,1,1),(18,1,63),(19,1,12),(24,8,64)]
    let d := s.dev
    let f := actor d c
    let rss := classStatus d c [(16, 1), (17, 1), (18, 1), (19, 1), (20, 2), (22, 2), (24, 8)]
        (decide (2 ≤ c.f 16 1) || decide (64 ≤ c.f 18 1) || decide (4096 < c.f 22 2) || decide (2 ^ (if isVf f then 9 else 12) < c.f 20 2 + c.f 22 2) ||
          decide (cBuf c % 64 ≠ 0) ||
          (bitOf (c.f 16 1) 0 && (decide (1 < c.f 17 1) || decide (c.f 19 1 < 6) || decide ((if isVf f then 9 else 12) < c.f 19 1)))) false
    decide (bitOf (c.f 16 1) 0 = true) && decide (c.f 22 2 = 0) && decide (rss = 0))) = true := by decide +kernel
end WClassificationStateFollowsItsCommands

/-! ClusterEventsActOnThreadsAndUnits -/
namespace WClusterEventsActOnThreadsAndUnits
def fr : Frame := { bytes := zeros 60, port := 1 }
def gt (d : Dev := onDev) : Dev := inEff (gateCfgKey 2 8) 8 (inEff (gateCfgKey 2 0) 0x81000063 d)
def gd : Dev := thrU 1 3 (fun x => { x with st := .parked, pc := 0x100 }) (cluU 1 (fun x => { x with image := true }) gt)
def it (b : Nat) : GItem := { gate := 2, number := 7, frame := fr, start := some 0, budget := b }
def tick (n : Nat) (d : Dev) : Dev := { d with time := { d.time with tick := n } }
def qd : Dev := tick 1000000 (thrU 1 3 (fun x => { x with st := .waiting (.event 9) }) (inEff (gvKey 1 0x14) 5 onDev))
/-- States and operands that meet the hypotheses of ClusterEventsActOnThreadsAndUnits. -/
theorem test_witness : (
  (
    let s : State := st { gd with xings := [⟨5, gIsland 1, true, .gate 2 fr⟩] }
    let c : Nat := 1
    let t : Nat := 3
    let g : Nat := 2
    let d := s.dev
    let f := fr
    let d1 := gd
    let alt := false
    decide (s.dev.wr = []) && decide (receive (gIsland c) (fun i => match i with | .gate _ _ => true | _ => false) d = some (.gate g f, d1)) && decide (gateServer d1 g = some (c, alt)) && decide (gateOn d1 g = true) && decide ((clu d1 c).image = true) && decide (islandOn d1 (gIsland c) = true) && decide ((rotation d1 g c alt).find? (isParked d1 c) = some t) && decide ((thr d1 c t).halted = false)) &&
  (
    let s : State := st (thrU 1 3 (fun x => { x with st := .running, item := some (it 100) }) (tick 500 onDev))
    let c : Nat := 1
    let t : Nat := 3
    let d := s.dev
    let i := it 100
    let b := 0
    decide (s.dev.wr = []) && decide ((thr d c t).item = some i) && decide (i.start = some b) && decide ((thr d c t).halted = false) && decide (coreStopped d c (t / 8) = false) && decide (i.budget ≤ itemCycles d (thr d c t)) && decide (locksOf d c t = []) && decide (chansOf d c t = [])) &&
  (
    let s : State := st (rateNote (rateKey 0xAB 2) 0 onDev)
    let g : Nat := 2
    let d := s.dev
    decide (s.dev.wr = []) && decide (rateDue d (rateKey 0xAB g) = true)) &&
  (
    let s : State := st (tick 500 (gtimerW 1 4 (some ⟨9, .cycle 20⟩) onDev))
    let c : Nat := 1
    let n : Nat := 4
    let d := s.dev
    let e := 9
    let k := 20
    decide (s.dev.wr = []) && decide (gtimer d c n = some ⟨e, .cycle k⟩) && decide (k ≤ gCycle d) && decide (islandOn d (gIsland c) = true) && decide ((gevent d c e).waiters = []) && decide ((gevent d c e).count < 65535)) &&
  (
    let s : State := mkSt (tapW (gIsland 1) { reps := [{ t := 30 }] } (gtimerW 1 4 (some ⟨9, .time 0 20⟩) onDev))
    let c : Nat := 1
    let n : Nat := 4
    let d := s.dev
    let e := 9
    let st := 0
    let k := 20
    decide (s.dev.wr = []) && decide (gtimer d c n = some ⟨e, .time st k⟩) && decide (k ≤ (rep d (gIsland c) st).t) && decide (islandOn d (gIsland c) = true) && decide ((gevent d c e).waiters = []) && decide ((gevent d c e).count < 65535)) &&
  (
    let s : State := st qd
    let c : Nat := 1
    let d := s.dev
    decide (s.dev.wr = []) && decide (effF d (gvKey c 0x14) 15 0 ≠ 0) && decide ((List.range 64).filter (keystoneWaits d c) ≠ []) && decide ((∀ (u : Nat), u < 64 → coreStopped d c (u / 8) = true ∨ ((thr d c u).halted = false ∧ (thr d c u).granted = none ∧ (countsIdle d c u = true ∨ keystoneWaits d c u = true)))) && decide ((List.range 64).all (fun u => match (thr s.dev c u).st with | .waiting (.event m) => decide (effB s.dev (gvKey c (0x20 + 4 * (m / 32))) (m % 32) = false) | _ => true) = true) && decide ((clu d c).timers = []) && decide (d.xings = []) && decide (islandOn d (gIsland c) = true) && decide ((clu d c).lastAct + effF d (gvKey c 0x14) 15 0 * 1000 ≤ now d)) &&
  (
    let s : State := st (inEff (gvKey 1 0x18) 5 (tick 1000000 (gchanU 1 4 (fun h => { h with owner := some 7, words := [1], writers := [8, 9] }) onDev)))
    let c : Nat := 1
    let n : Nat := 4
    let d := s.dev
    let o := 7
    let w := 8
    let rest := [9]
    decide (s.dev.wr = []) && decide ((gchan d c n).owner = some o) && decide (effF d (gvKey c 0x18) 19 0 ≠ 0) && decide ((gchan d c n).writers = w :: rest) && decide (islandOn d (gIsland c) = true) && decide ((gchan d c n).since + effF d (gvKey c 0x18) 19 0 * 1000 ≤ now d))) = true := by decide +kernel
end WClusterEventsActOnThreadsAndUnits

/-! CommitCapturesAndApplies -/
namespace WCommitCapturesAndApplies
/-- States and operands that meet the hypotheses of CommitCapturesAndApplies. -/
theorem test_witness : (
  (
    let s : State := st onDev
    let b : Nat := 0x900000
    decide (headerReached s.dev b = true) && decide (b ≠ 0xF00000) && decide (b ≠ 0xE00000) && decide (bitR s.dev (b + 8) 0 = false)) &&
  (
    let s : State := s0
    let b : Nat := 0x900000
    decide (headerReached s.dev b = true)) &&
  (
    let s : State := st (reg 0xD00008 0xFFFF0001 { onDev with cap := [(0xD00010, 5)] })
    let b : Nat := 0xD00000
    let dir : Nat := 1
    decide (headerReached s.dev b = true) && decide ((b / 2 ^ 20 = 13 ∨ (b / 2 ^ 20 = 11 ∧ groupNum b ≠ 0))) && decide (dir ≤ 1) && decide (capOk s.dev b = true) && decide (bitR s.dev (b + 8) 0 = true))) = true := by decide +kernel
end WCommitCapturesAndApplies

/-! CommitWhilePendingIsRejected -/
namespace WCommitWhilePendingIsRejected
/-- States and operands that meet the hypotheses of CommitWhilePendingIsRejected. -/
theorem test_witness : (
  (
    let s : State := st (reg 0x900008 1 onDev)
    let b : Nat := 0x900000
    decide (headerReached s.dev b = true) && decide (b ≠ 0xF00000) && decide (b ≠ 0xE00000) && decide (bitR s.dev (b + 8) 0 = true)) &&
  (
    let s : State := st (reg 0x200008 1 onDev)
    let b : Nat := 0x200000
    decide (headerReached s.dev b = true) && decide (b ≠ 0xF00000) && decide (b ≠ 0xE00000) && decide (bitR s.dev (b + 8) 0 = true))) = true := by decide +kernel
end WCommitWhilePendingIsRejected

/-! CourseCommandsAreServed -/
namespace WCourseCommandsAreServed
def onC : Dev := reg (coKey 1 0x40) 0x80000000 onDev
/-- States and operands that meet the hypotheses of CourseCommandsAreServed. -/
theorem test_witness : (
  (
    let s : State := st (rateNote (rateKey 0x52 1) 0 onDev)
    let n : Nat := 1
    let d := s.dev
    decide (rateDue d (rateKey 0x52 n) = true)) &&
  (
    let s : State := st (rateNote (rateKey 0x53 1) 0 onDev)
    let n : Nat := 1
    let d := s.dev
    decide (rateDue d (rateKey 0x53 n) = true)) &&
  (
    let s : State := s0
    let c : Cmd := cmd 0 [(16,1,1),(24,8,0x123456789)]
    let d := s.dev
    let k := c.f 16 1
    decide ((courseStatus d c [(24, 8)] false (courseOn d k)) = 0)) &&
  (
    let s : State := st (courseU 1 (fun x => { x with held := [⟨{ bytes := zeros 60 }, 3⟩] }) onC)
    let c : Cmd := cmd 0 [(16,1,1)]
    let d := s.dev
    let k := c.f 16 1
    decide (courseStatus d c [] false false = 0) && decide (courseOn d k = true)) &&
  (
    let s : State := s0
    let c : Cmd := cmd 0 [(16,1,1)]
    let d := s.dev
    let k := c.f 16 1
    decide (courseStatus d c [] false false = 0) && decide (courseOn d k = false)) &&
  (
    let s : State := s0
    let c : Cmd := cmd 0 [(16,1,4)]
    let d := s.dev
    decide (courseStatus d c [] false false ≠ 0)) &&
  (
    let s : State := s0
    let c : Cmd := cmd 0 [(16,1,1),(17,1,1),(24,8,64)]
    let d := s.dev
    decide ((courseStatus d c [(17, 1), (24, 8)] (decide (1 < c.f 17 1) || decide (c.f 24 8 % 64 ≠ 0)) false) = 0))) = true := by decide +kernel
end WCourseCommandsAreServed

/-! CoursesHoldAndReleaseInOrder -/
namespace WCoursesHoldAndReleaseInOrder
def onC : Dev := reg (coKey 1 0x40) 0x80000000 (inEff (coKey 1 0x18) 0x00100000 onDev)
def fr (t : Nat) : Frame := { bytes := zeros 60, port := 20, stamp := t }
def x1 (t : Nat) (d : Dev := onC) : State := st { d with xings := [⟨5, csIsland, true, .course 1 (fr t)⟩] }
def fro (t : Nat) (d : Dev := onC) : Dev := courseU 1 (fun x => { x with front := some t }) d
/-- States and operands that meet the hypotheses of CoursesHoldAndReleaseInOrder. -/
theorem test_witness : (
  (
    let s : State := x1 0x90000 onDev
    let c : Nat := 1
    let src : Nat := 5
    let f : Frame := fr 0x90000
    let rest : List Xing := []
    let d := s.dev
    let arrives : Prop := d.xings = ⟨src, csIsland, true, .course c f⟩ :: rest
    decide (arrives) && decide (courseOn d c = false)) &&
  (
    let s : State := x1 0x90000 (fro 0x8FFFF)
    let c : Nat := 1
    let src : Nat := 5
    let f : Frame := fr 0x90000
    let rest : List Xing := []
    let d := s.dev
    let arrives : Prop := d.xings = ⟨src, csIsland, true, .course c f⟩ :: rest
    let inOrder : Prop := courseOn d c = true ∧ isMember d c f.port = true ∧ f.str = courseStr d c ∧ f.ep = (course d c).tag ∧
      (course d c).drainTick = none
    decide (arrives) && decide (inOrder) && decide ((∀ t, (course d c).front = some t → t < f.stamp)) && decide ((course d c).held.length < 65536) && decide (courseNow d c ≤ fQ f + courseW d c * 65536)) &&
  (
    let s : State := x1 0x90000
    let c : Nat := 1
    let src : Nat := 5
    let f : Frame := fr 0x90000
    let rest : List Xing := []
    let d := s.dev
    let arrives : Prop := d.xings = ⟨src, csIsland, true, .course c f⟩ :: rest
    let inOrder : Prop := courseOn d c = true ∧ isMember d c f.port = true ∧ f.str = courseStr d c ∧ f.ep = (course d c).tag ∧
      (course d c).drainTick = none
    decide (arrives) && decide (inOrder) && decide ((∀ t, (course d c).front = some t → t < f.stamp)) && decide ((course d c).held.length < 65536) && decide (courseNow d c ≤ fQ f + courseW d c * 65536)) &&
  (
    let s : State := x1 0x90000 (fro 0x90001)
    let c : Nat := 1
    let src : Nat := 5
    let f : Frame := fr 0x90000
    let rest : List Xing := []
    let d := s.dev
    let arrives : Prop := d.xings = ⟨src, csIsland, true, .course c f⟩ :: rest
    let inOrder : Prop := courseOn d c = true ∧ isMember d c f.port = true ∧ f.str = courseStr d c ∧ f.ep = (course d c).tag ∧
      (course d c).drainTick = none
    let t := 0x90001
    decide (arrives) && decide (inOrder) && decide ((course d c).front = some t) && decide (f.stamp < t)) &&
  (
    let s : State := x1 0x90000 (fro 0x90000)
    let c : Nat := 1
    let src : Nat := 5
    let f : Frame := fr 0x90000
    let rest : List Xing := []
    let d := s.dev
    let arrives : Prop := d.xings = ⟨src, csIsland, true, .course c f⟩ :: rest
    let inOrder : Prop := courseOn d c = true ∧ isMember d c f.port = true ∧ f.str = courseStr d c ∧ f.ep = (course d c).tag ∧
      (course d c).drainTick = none
    let t := 0x90000
    decide (arrives) && decide (inOrder) && decide ((course d c).front = some t) && decide (f.stamp = t)) &&
  (
    let s : State := x1 0x90000 (reg (coKey 1 0x40) 0x82000000 onC)
    let c : Nat := 1
    let src : Nat := 5
    let f : Frame := fr 0x90000
    let rest : List Xing := []
    let d := s.dev
    let arrives : Prop := d.xings = ⟨src, csIsland, true, .course c f⟩ :: rest
    decide (arrives) && decide (courseOn d c = true) && decide (isMember d c f.port = true) && decide (f.str ≠ courseStr d c)) &&
  (
    let s : State := st (courseU 1 (fun x => { x with held := [⟨fr 0, 3⟩] }) (tapW csIsland { reps := [{ t := 2 ^ 80 }] } onC))
    let c : Nat := 1
    let d := s.dev
    let h := (⟨fr 0, 3⟩ : CHeld)
    decide ((course d c).held = [h]) && decide ((course d c).tieFirst = none) && decide (courseOn d c = true) && decide (islandOn d csIsland = true) && decide (r17Q h.frame.stamp + courseW d c * 65536 ≤ courseNow d c)) &&
  (
    let s : State := st (courseU 1 (fun x => { x with held := [⟨fr 0x90000, 3⟩] }) onC)
    let c : Nat := 1
    let d := s.dev
    let t := 0x90000
    decide (lowest (course d c).held = some t) && decide (courseNow d c < r17Q t + courseW d c * 65536)) &&
  (
    let s : State := st (courseU 1 (fun x => { x with drainTick := some 5 }) { onC with time := { tick := 2 ^ 21 } })
    let c : Nat := 1
    let d := s.dev
    let t := 5
    decide ((course d c).drainTick = some t) && decide (t + courseW d c < now d)) &&
  (
    let s : State := st (courseU 1 (fun x => { x with shrink := some (9, 5) }) { onC with time := { tick := 5 } })
    let c : Nat := 1
    let d := s.dev
    let w := 9
    let t := 5
    decide ((course d c).shrink = some (w, t)) && decide (t ≤ now d))) = true := by decide +kernel
end WCoursesHoldAndReleaseInOrder

/-! CreatedQueuesHoldTheirParameters -/
namespace WCreatedQueuesHoldTheirParameters
/-- States and operands that meet the hypotheses of CreatedQueuesHoldTheirParameters. -/
theorem test_witness : (
  (
    let s : State := s0
    let c : Cmd := cmd 0 [(18,2,5),(20,1,6),(24,8,4096),(32,8,64),(40,2,3),(44,1,2),(46,2,9)]
    let d := s.dev
    let cqSt := createStatus d c 3 2 [(40, 2), (44, 1), (46, 2)] (decide (4095 < c.f 46 2)) false (decide (grantLimit d c.fn 4 ≤ c.f 40 2))
    decide (cqSt = 0)) &&
  (
    let s : State := st (queueU 0 2 7 (fun _ => { exists_ := true }) onDev)
    let c : Cmd := cmd 0 [(18,2,5),(20,1,6),(24,8,4096),(32,8,64),(22,2,7),(42,1,2),(43,1,9),(48,2,3)]
    let d := s.dev
    let txSt := createStatus d c 1 0 [(22, 2), (42, 1), (43, 1), (48, 2)]
        (decide (c.f 42 1 = 0) || decide (64 < c.f 43 1) || decide (c.f 48 2 = 0xFFFF) ||
          (isVf c.fn && decide (c.f 48 2 ≠ vfTarget d c.fn)) || decide (32768 ≤ c.f 48 2))
        (cqTaken d c.fn 0 (c.f 22 2)) (decide (grantLimit d c.fn 3 ≤ c.f 22 2))
    decide (txSt = 0)) &&
  (
    let s : State := st (queueU 0 2 7 (fun _ => { exists_ := true }) onDev)
    let c : Cmd := cmd 0 [(18,2,5),(20,1,16),(24,8,4096),(32,8,64),(22,2,7),(21,1,11)]
    let d := s.dev
    let rxSt := createStatus d c 2 1 [(21, 1), (22, 2)] (decide (c.f 21 1 < 9) || decide (14 < c.f 21 1))
        (cqTaken d c.fn 1 (c.f 22 2)) (decide (grantLimit d c.fn 3 ≤ c.f 22 2))
    decide (rxSt = 0)) &&
  (
    let s : State := s0
    let c : Cmd := cmd 0 [(18,2,5),(20,1,6),(24,8,4096),(32,8,64),(40,2,3),(52,8,8192)]
    let d := s.dev
    let tcSt := createStatus d c 5 3 [(40, 2), (52, 8)] (decide (c.f 52 8 % 4096 ≠ 0)) false (decide (grantLimit d c.fn 4 ≤ c.f 40 2))
    decide (tcSt = 0)) &&
  (
    let c : Cmd := cmd 0 [(18,2,5),(20,1,6),(24,8,4096),(32,8,64)]
    decide (c.tcq = none))) = true := by decide +kernel
end WCreatedQueuesHoldTheirParameters

/-! DebugCommandsActOnHaltedThreads -/
namespace WDebugCommandsActOnHaltedThreads
def dbg (d : Dev := onDev) : Dev := reg (dbgKey 1 0 0) 0x80000000 d
def hl (r : Word) (d : Dev := dbg) : State := st (reg (dbgKey 1 0 0x18) (0x03000000 + r) (thrU 1 3 (fun x => { x with st := .running, halted := true, pc := 0x100, regs := [(5, 0x1122334455667788)] }) d))
/-- States and operands that meet the hypotheses of DebugCommandsActOnHaltedThreads. -/
theorem test_witness : (
  (
    let s : State := s0
    let c : Nat := 1
    let k : Nat := 0
    let i : Nat := 3
    let on : Bool := true
    let d := s.dev
    decide (s.dev.wr = []) && decide (k < 8) && decide (i < 8) && decide ((on = false ∨ coreReserved d.variant c k = false ∨ d.dbgCores = true))) &&
  (
    let s : State := st dbg
    let c : Nat := 1
    let k : Nat := 0
    let i : Nat := 3
    let on : Bool := false
    let d := s.dev
    decide (s.dev.wr = []) && decide (k < 8) && decide (i < 8) && decide ((on = false ∨ coreReserved d.variant c k = false ∨ d.dbgCores = true))) &&
  (
    let s : State := st (thrU 1 3 (fun x => { x with st := .running }) dbg)
    let c : Nat := 1
    let k : Nat := 0
    let mask : Nat := 8
    let i : Nat := 3
    let d := s.dev
    decide (s.dev.wr = []) && decide (k < 8) && decide (i < 8) && decide (debugEn d c k = true) && decide (mask.testBit i = true) && decide ((thr d c (k * 8 + i)).st ≠ .idle)) &&
  (
    let s : State := hl 5
    let c : Nat := 1
    let k : Nat := 0
    let mask : Nat := 8
    let i : Nat := 3
    let d := s.dev
    decide (s.dev.wr = []) && decide (k < 8) && decide (i < 8) && decide (debugEn d c k = true) && decide (mask.testBit i = true)) &&
  (
    let s : State := hl 5
    let c : Nat := 1
    let k : Nat := 0
    let i : Nat := 3
    let d := s.dev
    decide (s.dev.wr = []) && decide (k < 8) && decide (i < 8) && decide (debugEn d c k = true) && decide ((thr d c (k * 8 + i)).halted = true)) &&
  (
    let s : State := hl 5
    let c : Nat := 1
    let k : Nat := 0
    let i : Nat := 3
    let d := s.dev
    let w := regR d (dbgKey c k 0x18)
    let t := k * 8 + Word.fld w 26 24
    let r := Word.fld w 5 0
    decide (s.dev.wr = []) && decide (k < 8) && decide (i < 8) && decide (debugEn d c k = true) && decide ((thr d c t).halted = true) && decide (0 < r) && decide (r < 32)) &&
  (
    let s : State := hl 32
    let c : Nat := 1
    let k : Nat := 0
    let i : Nat := 3
    let d := s.dev
    let w := regR d (dbgKey c k 0x18)
    let t := k * 8 + Word.fld w 26 24
    let r := Word.fld w 5 0
    decide (s.dev.wr = []) && decide (k < 8) && decide (i < 8) && decide (debugEn d c k = true) && decide ((thr d c t).halted = true) && decide (r = 32))) = true := by decide +kernel
end WDebugCommandsActOnHaltedThreads

/-! DomainsResetsAndRemapsTakeTheirTurn -/
namespace WDomainsResetsAndRemapsTakeTheirTurn
def run (d : Dev := onDev) : Dev := { d with foot := { boot := .running, pg := true } }
def hd : Held := ⟨cmd 0 [], 0⟩
def mj (h : Bool := false) : MapJob := { island := 2, ip := 1, ep := 1, held := hd, started := true, holds := h }
def fr : Frame := { bytes := zeros 60, port := 5 }
/-- States and operands that meet the hypotheses of DomainsResetsAndRemapsTakeTheirTurn. -/
theorem test_witness : (
  (
    let s : State := mkSt run
    let c : Cmd := cmd 0 [(16,1,12),(17,1,1)]
    let d := s.dev
    let i := c.f 16 1
    decide ((firstStatus ([(decide (c.fn ≠ 0) || (cmdSelf c).isNone, stNotPermitted), (!(reservedOk c [(16, 1), (17, 1)]), stBadParam)] ++ domStatus d i (c.f 17 1))) = 0)) &&
  (
    let s : State := mkSt run
    let n : Nat := 30
    let st : Nat := 0
    let d := s.dev
    decide (d.domJobs = []) && decide (d.rstJobs = []) && decide (bridgeUp d = true) && decide (firstStatus (domStatus d n st) = 0) && decide ((dom d n).st = domSt st)) &&
  (
    let s : State := mkSt run
    let n : Nat := 0
    let st : Nat := 1
    let d := s.dev
    decide (bridgeUp d = true) && decide (firstStatus (domStatus d n st) ≠ 0)) &&
  (
    let s : State := mkSt (run { onDev with doms := [(2, { failed := true })] })
    let n : Nat := 2
    let st : Nat := 1
    let d := s.dev
    decide (d.domJobs = []) && decide (d.rstJobs = []) && decide (bridgeUp d = true) && decide (firstStatus (domStatus d n st) = 0) && decide ((dom d n).st = .on) && decide (islandOn d n = false) && decide (domSt st ≠ .on) && decide (mayLeave d n true = true)) &&
  (
    let s : State := mkSt { run with domJobs := [{ island := 30, st := .retain, started := true }] }
    let st : Nat := 1
    let d := s.dev
    let j : DomJob := { island := 30, st := .retain, started := true }
    decide (d.domJobs = [j]) && decide (j.started = true) && decide (d.rstJobs = []) && decide (j.st = .retain)) &&
  (
    let s : State := mkSt run
    let c : Cmd := cmd 0 [(16,1,12)]
    let d := s.dev
    let i := c.f 16 1
    decide ((firstStatus [(decide (c.fn ≠ 0) || (cmdSelf c).isNone, stNotPermitted), (!(reservedOk c [(16, 1)]) || decide (i = 0) || decide (48 < i), stBadParam), (!(islandPresent d.variant i), stAbsent)]) = 0)) &&
  (
    let s : State := mkSt { run with rstJobs := [{ island := 12, held := hd, started := true }] }
    let n : Nat := 12
    let d := s.dev
    let r : RstJob := { island := 12, held := hd, started := true }
    decide (d.rstJobs = [r]) && decide (r.started = true) && decide (r.island = n) && decide (d.domJobs = []) && decide (9 ≤ n) && decide (n ≤ 27)) &&
  (
    let s : State := mkSt run
    let d := s.dev
    decide (d.rstJobs = [])) &&
  (
    let s : State := mkSt run
    let c : Cmd := cmd 0 [(16,1,2),(17,1,1),(18,1,1)]
    let d := s.dev
    let i := c.f 16 1
    decide ((firstStatus [(decide (c.fn ≠ 0) || (cmdSelf c).isNone, stNotPermitted), (!(reservedOk c [(16, 1), (17, 1), (18, 1)]) || decide (i = 0) || decide (8 < i) || decide (5 < c.f 17 1) || decide (5 < c.f 18 1), stBadParam), (!(islandPresent d.variant i) || !(islandPresent d.variant (ipIsland (c.f 17 1))) || !(islandPresent d.variant (epIsland (c.f 18 1))), stAbsent)]) = 0)) &&
  (
    let s : State := mkSt { run with mapJobs := [mj true], xings := [⟨2, ipIsland (ingressPipe run ((islandPorts 2).headD 0)), true, .ingress { fr with port := 5 }⟩] }
    let d := s.dev
    let j : MapJob := mj true
    decide (d.mapJobs = [j]) && decide (j.started = true) && decide (j.holds = true) && decide (pipeBusy d j.island = true)) &&
  (
    let s : State := mkSt { run with mapJobs := [mj] }
    let n : Nat := 2
    let d := s.dev
    let j : MapJob := mj
    decide (d.mapJobs = [j]) && decide (j.started = true) && decide (j.island = n) && decide (j.holds = false) && decide (j.frames = []) && decide (islandOn d (epIsland (egressPipe d ((islandPorts n).headD 0))) = true)) &&
  (
    let n : Nat := 6
    let ip := 3
    let ep := 5
    decide (1 ≤ n) && decide (n ≤ 8) && decide (ip < 8) && decide (ep < 8))) = true := by decide +kernel
end WDomainsResetsAndRemapsTakeTheirTurn

/-! DoorbellsAskForTheRecord -/
namespace WDoorbellsAskForTheRecord
def qd (qt : Nat) (q : Queue) (d : Dev := onDev) : State := st (queueU 0 qt 5 (fun _ => q) d)
/-- States and operands that meet the hypotheses of DoorbellsAskForTheRecord. -/
theorem test_witness : (
  (
    let s : State := qd 0 { st := .running }
    let f : Nat := 0
    let lq : Nat := 5
    let d := s.dev
    decide (s.dev.wr = []) && decide (dbOk d f = true) && decide ((queue d f 0 lq).st ≠ .disabled)) &&
  (
    let s : State := qd 1 { st := .stopped }
    let f : Nat := 0
    let lq : Nat := 5
    let d := s.dev
    decide (s.dev.wr = []) && decide (dbOk d f = true) && decide ((queue d f 1 lq).st ≠ .disabled)) &&
  (
    let s : State := qd 3 { st := .running }
    let f : Nat := 0
    let lq : Nat := 5
    let d := s.dev
    decide (s.dev.wr = []) && decide (dbOk d f = true) && decide ((queue d f 3 lq).st ≠ .disabled)) &&
  (
    let s : State := qd 2 { exists_ := true }
    let f : Nat := 0
    let lq : Nat := 5
    let v : Word := 2
    let d := s.dev
    decide (s.dev.wr = []) && decide (dbOk d f = true) && decide ((queue d f 2 lq).exists_ = true) && decide (v.getLsbD 0 = false)) &&
  (
    let s : State := qd 2 { exists_ := true, pend := 3 }
    let f : Nat := 0
    let lq : Nat := 5
    let v : Word := 1
    let d := s.dev
    decide (s.dev.wr = []) && decide (dbOk d f = true) && decide ((queue d f 2 lq).exists_ = true) && decide (v.getLsbD 0 = true)) &&
  (
    let s : State := qd 2 { exists_ := true }
    let f : Nat := 0
    let lq : Nat := 5
    let v : Word := 1
    let d := s.dev
    decide (s.dev.wr = []) && decide (dbOk d f = true) && decide ((queue d f 2 lq).exists_ = true) && decide (v.getLsbD 0 = true)) &&
  (
    let s : State := st (reg (fnKey 0 0x11C) 0x80000000 onDev)
    let f : Nat := 0
    let d := s.dev
    decide (s.dev.wr = []) && decide (dbOk d f = true) && decide (bitR d (fnKey f 0x11C) 31 = true)) &&
  (
    let s : State := st (reg (fnKey 0 0x134) 0x80000000 onDev)
    let f : Nat := 0
    let d := s.dev
    decide (s.dev.wr = []) && decide (dbOk d f = true) && decide (bitR d (fnKey f 0x134) 31 = true)) &&
  (
    let s : State := st { onDev with fatal := true }
    let f : Nat := 0
    let d := s.dev
    decide (s.dev.wr = []) && decide (dbOk d f = false)) &&
  (
    let s : State := s0
    let f : Nat := 4
    let d := s.dev
    decide (s.dev.wr = []) && decide (dbOk d f = false)) &&
  (
    let s : State := qd 0 { st := .running, sizeLog2 := 6, fetchPos := 65535, devIdx := 65535, pushSeen := List.range 256, hostIdx := 65535, pushWin := [(3, 9)] }
    let f : Nat := 0
    let lq : Nat := 5
    let v : Word := 0x20001
    let d := s.dev
    let q := queue d f 0 lq
    let n := Word.fld v 19 16
    let idx := Word.fld v 15 0
    decide (s.dev.wr = []) && decide (dbOk d f = true) && decide (1 ≤ n) && decide (n ≤ 8) && decide ((∀ i, i < 32 * n → i ∈ q.pushSeen)) && decide ((idx + 65536 - n) % 65536 = q.fetchPos) && decide (q.st = .running) && decide ((idx + 65536 - q.devIdx) % 65536 < qSize q)) &&
  (
    let s : State := qd 0 { st := .running, sizeLog2 := 6, fetchPos := 1, devIdx := 1, pushSeen := List.range 64, hostIdx := 1 }
    let f : Nat := 0
    let lq : Nat := 5
    let v : Word := 0x20001
    let d := s.dev
    let q := queue d f 0 lq
    let n := Word.fld v 19 16
    let idx := Word.fld v 15 0
    decide (s.dev.wr = []) && decide (dbOk d f = true) && decide ((n = 0 ∨ 8 < n ∨ (∃ i, i < 32 * n ∧ i ∉ q.pushSeen) ∨ (idx + 65536 - n) % 65536 ≠ q.fetchPos ∨ q.st ≠ .running)) && decide (q.st ≠ .disabled))) = true := by decide +kernel
end WDoorbellsAskForTheRecord

/-! DrivePortsMoveThroughTheirStates -/
namespace WDrivePortsMoveThroughTheirStates
def dv (n : Nat) (x : Drv) (d : Dev := onDev) : Dev := drvU n (fun _ => x) d
def at_ (t : Nat) (d : Dev := onDev) : Dev := { d with time := { tick := t } }
def reb : Dev := pairMapW 0 ⟨100, [(0, 1, 0), (3, 5, 0)]⟩ (dv 1 { st := 6, present := true, up := true, rebuilt := 7, slabs := 100 } (dv 0 { st := 7, present := true, up := true, slabs := 100 }))
/-- States and operands that meet the hypotheses of DrivePortsMoveThroughTheirStates. -/
theorem test_witness : (
  (
    let s : State := st (dv 1 {})
    let n : Nat := 1
    let d := s.dev
    let x := drv d n
    let slot : Prop := n < 4 ∧ islandPresent d.variant (dIsland n) = true
    decide (slot) && decide (x.present = false) && decide (x.st = 0) && decide (drvOn d n = true)) &&
  (
    let s : State := st (dv 1 { st := 7, present := true })
    let n : Nat := 1
    let d := s.dev
    let x := drv d n
    let slot : Prop := n < 4 ∧ islandPresent d.variant (dIsland n) = true
    decide (slot) && decide (x.present = true) && decide (x.st = 7)) &&
  (
    let s : State := st (dv 1 { present := true })
    let n : Nat := 1
    let d := s.dev
    let x := drv d n
    let slot : Prop := n < 4 ∧ islandPresent d.variant (dIsland n) = true
    let on := true
    decide (slot) && decide (x.present = on)) &&
  (
    let s : State := st (dv 1 { st := 1, since := 3 } (at_ 100000003))
    let n : Nat := 1
    let d := s.dev
    let x := drv d n
    decide (x.st = 1) && decide (x.released = false) && decide (x.since + 100000000 ≤ now d)) &&
  (
    let s : State := st (dv 1 { st := 1, since := 3, released := true } (at_ 10000000003))
    let n : Nat := 1
    let speed : Nat := 4
    let width : Nat := 2
    let d := s.dev
    let x := drv d n
    decide (x.st = 1) && decide (x.released = true) && decide (now d ≤ x.since + 10000000000) && decide (1 ≤ speed) && decide (speed ≤ 5) && decide (width = 1 ∨ width = 2 ∨ width = 4)) &&
  (
    let s : State := st (dv 1 { st := 1, since := 3 } (at_ 10000000003))
    let n : Nat := 1
    let d := s.dev
    let x := drv d n
    decide (x.st = 1) && decide (x.since + 10000000000 ≤ now d)) &&
  (
    let s : State := st (dv 1 { st := 2, present := true, up := true })
    let n : Nat := 1
    let d := s.dev
    let x := drv d n
    decide (x.st = 2) && decide (storageUp d = true) && decide (readLabel d n = none) && decide (drvMember d (partner n) = false)) &&
  (
    let s : State := st (dv 1 { st := 2, present := true, up := true })
    let n : Nat := 1
    let d := s.dev
    let x := drv d n
    decide (x.st = 2) && decide (storageUp d = true)) &&
  (
    let s : State := st (dv 1 { st := 7, present := true, up := true } (dv 0 { st := 7, present := true, up := true }))
    let n : Nat := 1
    let d := s.dev
    let x := drv d n
    decide (x.up = true) && decide (x.st = 7)) &&
  (
    let s : State := st (dv 1 { st := 7, present := true, up := true } (dv 0 { st := 6, present := true, up := true }))
    let n : Nat := 1
    let d := s.dev
    let x := drv d n
    decide (x.up = true) && decide (x.st = 7)) &&
  (
    let s : State := st (drvU 1 (fun x => { x with rebuilt := 4096 }) reb)
    let n : Nat := 1
    let d := s.dev
    let x := drv d n
    decide (x.st = 6) && decide (storageUp d = true) && decide (drvMember d (partner n) = true) && decide (rebuildNext d n = none)) &&
  (
    let s : State := st reb
    let n : Nat := 1
    let d := s.dev
    let x := drv d n
    let sl := 0
    let k := 7
    decide (x.st = 6) && decide (storageUp d = true) && decide (drvMember d (partner n) = true) && decide (rebuildNext d n = some (sl, k)) && decide ((drv d (partner n)).unread = []) && decide (((pairMap d (n / 2)).used.any fun u => decide (sl * 1024 + k + 1 < (u.1 + 1) * 1024)) = true) && decide (n < 4))) = true := by decide +kernel
end WDrivePortsMoveThroughTheirStates

/-! EgressQueuesAdmitOrCount -/
namespace WEgressQueuesAdmitOrCount
def fr (n : Nat := 60) : Frame := { bytes := zeros n, port := 1, colour := 2, cls := 3 }
def up3 (d : Dev := onDev) : Dev := reg (pKey 3 0x40) 0x68000004 d
def x1 (d : Dev) (n : Nat := 60) : State := st { d with xings := [⟨5, epIsland 2, true, .egress 3 7 (fr n)⟩] }
/-- States and operands that meet the hypotheses of EgressQueuesAdmitOrCount. -/
theorem test_witness : (
  (
    let s : State := x1 up3
    let pipe : Nat := 2
    let src : Nat := 5
    let p : Nat := 3
    let q : Nat := 7
    let f : Frame := fr
    let rest : List Xing := []
    let d := s.dev
    let e := { d with xings := rest }
    let arrives : Prop := d.xings = ⟨src, epIsland pipe, true, .egress p q f⟩ :: rest
    let fits : Prop := lenAsSent f.bytes.length ≤ maxFrame d p
    decide (arrives) && decide (fits) && decide (mayQueue d p = true) && decide (admitted e p q f = true)) &&
  (
    let s : State := x1 (inEff (sKey 3 (0x108 + 16 * 7)) 1 (egqW 3 7 [fr, fr, fr, fr] up3))
    let pipe : Nat := 2
    let src : Nat := 5
    let p : Nat := 3
    let q : Nat := 7
    let f : Frame := fr
    let rest : List Xing := []
    let d := s.dev
    let e := { d with xings := rest }
    let arrives : Prop := d.xings = ⟨src, epIsland pipe, true, .egress p q f⟩ :: rest
    let fits : Prop := lenAsSent f.bytes.length ≤ maxFrame d p
    decide (arrives) && decide (fits) && decide (mayQueue d p = true) && decide (admitted e p q f = false)) &&
  (
    let s : State := x1 onDev
    let pipe : Nat := 2
    let src : Nat := 5
    let p : Nat := 3
    let q : Nat := 7
    let f : Frame := fr
    let rest : List Xing := []
    let d := s.dev
    let arrives : Prop := d.xings = ⟨src, epIsland pipe, true, .egress p q f⟩ :: rest
    let fits : Prop := lenAsSent f.bytes.length ≤ maxFrame d p
    decide (arrives) && decide (fits) && decide (mayQueue d p = false)) &&
  (
    let s : State := x1 (inEff (pKey 3 0x10) 1518 up3) 1600
    let pipe : Nat := 2
    let src : Nat := 5
    let p : Nat := 3
    let q : Nat := 7
    let f : Frame := fr 1600
    let rest : List Xing := []
    let d := s.dev
    let arrives : Prop := d.xings = ⟨src, epIsland pipe, true, .egress p q f⟩ :: rest
    let fits : Prop := lenAsSent f.bytes.length ≤ maxFrame d p
    decide (arrives) && decide (¬ fits)) &&
  (
    let s : State := st (inEff (0x7C0104 + 24) 1 onDev)
    let p : Nat := 3
    let q : Nat := 7
    let f : Frame := fr
    let d := s.dev
    decide (admitted d p q f = true) && decide (f.fromFn = none) && decide (f.colour ≠ 0)) &&
  (
    let s : State := st (rateNote (rateKey 0x72 1) 0 onDev)
    let d := s.dev
    let k (i : Nat) : Nat := rateKey 0x72 i
    decide (rateDue d (k 0) = true ∨ rateDue d (k 1) = true ∨ rateDue d (k 2) = true))) = true := by decide +kernel
end WEgressQueuesAdmitOrCount

/-! ErrorsFailTheirUnitOrTheDevice -/
namespace WErrorsFailTheirUnitOrTheDevice
def run (d : Dev := onDev) : Dev := { d with foot := { boot := .running, pg := true, healthy := true } }
/-- States and operands that meet the hypotheses of ErrorsFailTheirUnitOrTheDevice. -/
theorem test_witness : (
  (
    let s : State := st run
    let n : Nat := 12
    let d := s.dev
    decide (islandOn d n = true)) &&
  (
    let s : State := st {}
    let n : Nat := 12
    let d := s.dev
    decide (islandOn d n = false)) &&
  (
    let s : State := st run
    let n : Nat := 12
    let d := s.dev
    decide (n ≠ 0) && decide (islandPresent d.variant n = true)) &&
  (
    let n : Nat := 12
    decide (n ≠ 0)) &&
  (
    let c : Cmd := cmd 0 [(16,1,3),(17,1,2),(24,8,64)]
    decide ((firstStatus [(decide (c.fn ≠ 0) || (cmdSelf c).isNone, stNotPermitted), (!(reservedOk c [(16, 1), (17, 1), (24, 8)]) || decide (c.f 17 1 = 0) || decide (128 < c.f 17 1) || decide (256 < c.f 16 1 + c.f 17 1) || decide (c.f 24 8 % 64 ≠ 0), stBadParam)]) = 0)) &&
  (
    let s : State := st run
    let d := s.dev
    decide (isFrozen d 0 = false)) &&
  (
    let s : State := st run
    let n : Nat := 12
    let t : Int := 20
    let d := s.dev
    decide (n ≤ 48) && decide (n = 0 ∨ islandPresent d.variant n = true) && decide (n ∉ d.hotWarn) && decide (n ∉ d.hotCrit) && decide (t ≤ (effF d 0x800 31 24 : Int)) && decide (t ≤ (effF d 0x800 23 16 : Int))) &&
  (
    let s : State := st run
    let n : Nat := 12
    let t : Int := 120
    let d := s.dev
    decide (n ≤ 48) && decide (n = 0 ∨ islandPresent d.variant n = true) && decide (n ∉ d.hotWarn) && decide ((effF d 0x800 31 24 : Int) < t)) &&
  (
    let s : State := st run
    let d := s.dev
    decide (d.tripped = false))) = true := by decide +kernel
end WErrorsFailTheirUnitOrTheDevice

/-! EveryRecordVerifiesAgainstItsAshlar -/
namespace WEveryRecordVerifiesAgainstItsAshlar
/-- States and operands that meet the hypotheses of EveryRecordVerifiesAgainstItsAshlar. -/
theorem test_witness : (
  (
    let a : Ashlar := { recs := (List.range 5).map fun i => ⟨leBytes 48 i, 0, 0, 0⟩ }
    let i : Nat := 4
    decide (i < a.recs.length) && decide (a.recs.length < 2 ^ 28)) &&
  (
    let a : Ashlar := { recs := (List.range 6).map fun i => ⟨leBytes 48 i, 0, 0, 0⟩ }
    let i : Nat := 3
    decide (i < a.recs.length) && decide (a.recs.length < 2 ^ 28))) = true := by decide +kernel
end WEveryRecordVerifiesAgainstItsAshlar

/-! EvidenceIsSealedSignedAndStored -/
namespace WEvidenceIsSealedSignedAndStored
def ext1 : Extent := ⟨1, 0, 16, 1, 0, false⟩
def req : CapReq := ⟨0, 0, 0, false, 0, 0, 0, 0, 0, zeros 32, 0, [], [], [], 0, [], zeros 32, []⟩
def held0 : Held := ⟨c0, 0⟩
/-- States and operands that meet the hypotheses of EvidenceIsSealedSignedAndStored. -/
theorem test_witness : (
  (
    let s : State := jd { closed := [{}], hLast := zeros 32 }
    let a : Ashlar := {}
    let rest : List Ashlar := []
    let d := s.dev
    let w := d.wit
    decide (w.closed = a :: rest) && decide (halfInUse d 0 = true)) &&
  (
    let s : State := jd { cur := some { index := 1 } }
    let a : Ashlar := { index := 1 }
    let d := s.dev
    let w := d.wit
    decide (w.cur = some a) && decide (capBoundary d = true) && decide (w.capB ≠ some w.lastB) && decide (curB d = w.lastB)) &&
  (
    let s : State := jd { caps := [req], prevCap := zeros 32, capsBase := [0, 0, 0, 0] }
    let r : CapReq := req
    let d := s.dev
    let w := d.wit
    let rs := ([] : List CapReq)
    decide (w.caps = r :: rs) && decide (w.closed = []) && decide (w.ringSlots = 0) && decide (reserveUsed d + (capBody d r ++ signBoth (keyOf 0 r.aliasKey) (keyOf 1 r.aliasKey) (capBody d r)).length ≤ 2 ^ 24)) &&
  (
    let s : State := jd { extents := [ext1], sealed_ := [{}] } 0xA0000000 (drives [1])
    let a : Ashlar := {}
    let e : Extent := ext1
    let es : List Extent := []
    let d := s.dev
    let w := d.wit
    decide (w.extents = e :: es) && decide (e.durable = false) && decide (e.type = 1) && decide (journalDrives d = true) && decide (extentFits d e.lbas = true) && decide ((w.sealed_.find? fun x => decide (x.index = e.index)) = some a)) &&
  (
    let s : State := jd { extents := [⟨2, 0, 16, 200000000, 0, false⟩] } 0xA0000000 (drives [1])
    let e : Extent := ⟨2, 0, 16, 200000000, 0, false⟩
    let es : List Extent := []
    let d := s.dev
    let w := d.wit
    decide (w.extents = e :: es) && decide (e.durable = false) && decide (e.type = 2) && decide (journalDrives d = true) && decide (extentFits d e.lbas = false) && decide (bitR d (wKey 0x40) 29 = true)) &&
  (
    let s : State := jd { sbDirty := true } 0x80000000 (drives [1])
    let d := s.dev
    let w := d.wit
    decide (w.sbDirty = true) && decide (journalDrives d = true)) &&
  (
    let s : State := jd {} 0x80100000 (drives [1])
    let d := s.dev
    let w := d.wit
    decide (bitR d (wKey 0x40) 20 = true) && decide (journalDrives d = true) && decide (bestSuper d = none) && decide (w.enPend = false) && decide (w.offCount = 0) && decide (w.adopted = false) && decide (16 + 1 ≤ ringEnd d)) &&
  (
    let s : State := jd {} 0x88080000
    let d := s.dev
    let w := d.wit
    decide (bitR d (wKey 0x40) 19 = true) && decide (w.caps = []) && decide (w.closed = []) && decide ((capDurable d w.capIndex || noDrives d) = true)) &&
  (
    let s : State := jd { halfJobs := [(1, 0, true, held0)] }
    let h : Nat := 1
    let d := s.dev
    let w := d.wit
    let j := held0
    let rs := ([] : List (Nat × Nat × Bool × Held))
    decide (w.halfJobs = (h, 0, true, j) :: rs) && decide ((∀ x ∈ w.recs, x.half ≠ h)))) = true := by decide +kernel
end WEvidenceIsSealedSignedAndStored

/-! FaultingInstructionsStopTheCore -/
namespace WFaultingInstructionsStopTheCore
def dbg (d : Dev := onDev) : Dev := reg (dbgKey 1 0 0) 0x80000000 d
/-- States and operands that meet the hypotheses of FaultingInstructionsStopTheCore. -/
theorem test_witness : (
  (
    let s : State := iss (encI 0x3E 0 0 77) []
    let c : Nat := 1
    let t : Nat := 3
    let code : BitVec 16 := 77
    let d := s.dev
    decide (s.dev.wr = []) && decide (Issues d c t (encI 0x3E 0 0 code))) &&
  (
    let s : State := iss (encJ 0x3F 99) []
    let c : Nat := 1
    let t : Nat := 3
    let bits : BitVec 26 := 99
    let d := s.dev
    let k := t / 8
    decide (s.dev.wr = []) && decide (debugEn d c k = false) && decide (Issues d c t (encJ 0x3F bits))) &&
  (
    let s : State := iss (encJ 0x3F 99) [] id dbg
    let c : Nat := 1
    let t : Nat := 3
    let bits : BitVec 26 := 99
    let d := s.dev
    let k := t / 8
    decide (s.dev.wr = []) && decide (debugEn d c k = true) && decide ((thr d c t).halted = false) && decide (Issues d c t (encJ 0x3F bits))) &&
  (
    let s : State := iss 0 []
    let c : Nat := 1
    let t : Nat := 3
    let d := s.dev
    decide (s.dev.wr = []) && decide (mayIssue d c t = true) && decide ((bpMatch d c t = false ∨ (thr d c t).step = true)) && decide (legalWord (fetchWord d c t) = false)) &&
  (
    let s : State := iss (encJ 0x3F 99) [] id (reg (dbgKey 1 0 8) 0xFF800100 dbg)
    let c : Nat := 1
    let t : Nat := 3
    let d := s.dev
    decide (s.dev.wr = []) && decide (mayIssue d c t = true) && decide (bpMatch d c t = true) && decide ((thr d c t).halted = false))) = true := by decide +kernel
end WFaultingInstructionsStopTheCore

/-! FetchesBuildPackets -/
namespace WFetchesBuildPackets
def qd (qt : Nat) (q : Queue) (d : Dev := onDev) : State := st (queueU 0 qt 5 (fun _ => q) (fnU 0 (fun x => { x with bme := true }) d))
def hd : Bytes := patch (zeros 32) 0 [0, 16, 0, 0, 0, 0, 0, 0, 60, 0, 4, 0, 0, 3, 0, 0]
def pk : TxPkt := { id := 8, fn := 0, lq := 5, head := hd, segs := [(4096, 60)] }
/-- States and operands that meet the hypotheses of FetchesBuildPackets. -/
theorem test_witness : (
  (
    let s : State := qd 0 { st := .running, burst := 4, weight := 3, hostIdx := 1, sizeLog2 := 6 } (hpU 0 (fun p => { p with outerPos := 1 }) (inEff 0x901000 5 onDev))
    let f : Nat := 0
    let lq : Nat := 5
    let h : Nat := 0
    let d := s.dev
    decide (s.dev.wr = []) && decide (eligibles d h = [(f, lq)]) && decide ((∀ e ∈ d.queues, e.2.turn = none)) && decide ((hp d h).outerPos - 1 ≠ f ∨ (hp d h).outerLeft = 0) && decide ((fn d f).innerPos - 1 ≠ lq ∨ (fn d f).innerLeft = 0)) &&
  (
    let s : State := st (queueU 2 0 9 (fun _ => { st := .running, burst := 4, weight := 3, hostIdx := 1, sizeLog2 := 6 }) (fnU 2 (fun x => { x with bme := true }) (inEff 0x901008 5 onDev)))
    let f : Nat := 2
    let lq : Nat := 9
    let h : Nat := 1
    let d := s.dev
    decide (s.dev.wr = []) && decide (eligibles d h = [(f, lq)]) && decide ((∀ e ∈ d.queues, e.2.turn = none)) && decide ((hp d h).outerPos - 1 ≠ f ∨ (hp d h).outerLeft = 0) && decide ((fn d f).innerPos - 1 ≠ lq ∨ (fn d f).innerLeft = 0)) &&
  (
    let s : State := s0
    let h : Nat := 0
    let d := s.dev
    decide (s.dev.wr = []) && decide (eligibles d h = [])) &&
  (
    let s : State := qd 0 { st := .running, burst := 4, weight := 3, hostIdx := 1, sizeLog2 := 6, base := 128, turn := some 0 } (inMem 0 128 hd)
    let f : Nat := 0
    let lq : Nat := 5
    let b : Bytes := hd
    let d := s.dev
    let q := queue d f 0 lq
    decide (s.dev.wr = []) && decide (q.turn ≠ none) && decide (q.st = .running) && decide (mayDma d f = true) && decide (q.fetchPos ≠ q.hostIdx) && decide (q.asm = {}) && decide (dmaRead d f (q.base + 32 * (q.fetchPos % qSize q)) 32 = b) && decide (dKind b = 0) && decide (dEop b = true) && decide (le b 8 2 ≠ 0) && decide (badHead q b = false) && decide (badTarget d f q b = false) && decide (oversize d (dTarget q b) (lenAsSent (segBytes [(le b 0 8, le b 8 2)])) = false)) &&
  (
    let s : State := s0
    let f : Nat := 0
    let lq : Nat := 5
    let d := s.dev
    let q := queue d f 0 lq
    decide (s.dev.wr = []) && decide (q.turn = none)) &&
  (
    let s : State := qd 0 { st := .running } { onDev with pkts := [pk] }
    let f : Nat := 0
    let lq : Nat := 5
    let d := s.dev
    let q := queue d f 0 lq
    let k := pk
    let rest := ([] : List TxPkt)
    decide (s.dev.wr = []) && decide (d.pkts = k :: rest) && decide (k.fn = f) && decide (k.lq = lq) && decide (k.stage = 0) && decide (k.gen = q.gen) && decide (mayDma d f = true)) &&
  (
    let s : State := qd 0 { st := .running } (inMem 0 4096 [1,2,3] { onDev with pkts := [pk] })
    let f : Nat := 0
    let lq : Nat := 5
    let d := s.dev
    let q := queue d f 0 lq
    let k := pk
    let rest := ([] : List TxPkt)
    decide (s.dev.wr = []) && decide (d.pkts = k :: rest) && decide (k.fn = f) && decide (k.lq = lq) && decide (k.stage = 0) && decide (k.gen = q.gen) && decide (mayDma d f = true)) &&
  (
    let s : State := qd 2 { exists_ := true, armed := true, pend := 1, modTime := 5, vector := 3 } { onDev with time := { tick := 5000 } }
    let f : Nat := 0
    let lq : Nat := 5
    let d := s.dev
    let cq := queue d f 2 lq
    decide (s.dev.wr = []) && decide (cq.armed = true) && decide (cqCond d cq = true)) &&
  (
    let s : State := qd 2 { exists_ := true }
    let f : Nat := 0
    let lq : Nat := 5
    let d := s.dev
    let cq := queue d f 2 lq
    decide (s.dev.wr = []) && decide (cq.armed = false))) = true := by decide +kernel
end WFetchesBuildPackets

/-! FirmwareUpdateFollowsItsStates -/
namespace WFirmwareUpdateFollowsItsStates
def run (p : Pldm) (b : BootSt := .running) : State := st { onDev with foot := { boot := b, lifecycle := 1 }, pldm := p }
/-- States and operands that meet the hypotheses of FirmwareUpdateFollowsItsStates. -/
theorem test_witness : (
  (
    let s : State := run {}
    decide (fwServes s.dev = true)) &&
  (
    let s : State := run {}
    let size : Nat := 100
    let d := s.dev
    let p := d.pldm
    decide (fwServes s.dev = true) && decide (p.st = 0) && decide (64 ≤ size)) &&
  (
    let s : State := run { st := 2 }
    let d := s.dev
    let p := d.pldm
    decide (fwServes s.dev = true) && decide (p.st ≠ 0)) &&
  (
    let s : State := run { st := 1 }
    let d := s.dev
    let p := d.pldm
    decide (fwServes s.dev = true) && decide (p.st = 1)) &&
  (
    let s : State := run {}
    let d := s.dev
    let p := d.pldm
    decide (fwServes s.dev = true) && decide (p.st ≠ 1)) &&
  (
    let s : State := run { st := 2 }
    let size : Nat := 100
    let d := s.dev
    let p := d.pldm
    decide (fwServes s.dev = true) && decide (p.st = 2) && decide (1 ≤ size) && decide (size ≤ 24 * 2 ^ 20 - 65536)) &&
  (
    let s : State := run { st := 3, maxXfer := 100, size := 100, data := zeros 64 }
    let ask : Nat := 64
    let data : Bytes := zeros 64
    let d := s.dev
    let p := d.pldm
    decide (fwServes s.dev = true) && decide (p.st = 3) && decide (64 ≤ ask) && decide (ask ≤ p.maxXfer) && decide (p.data.length < p.size) && decide (data.length = ask)) &&
  (
    let s : State := run { st := 3, size := 64, data := zeros 64 }
    let d := s.dev
    let p := d.pldm
    decide (fwServes s.dev = true) && decide (p.st = 3) && decide (p.data.length = p.size)) &&
  (
    let s : State := run { st := 3, size := 65, data := zeros 64 }
    let d := s.dev
    let p := d.pldm
    decide (fwServes s.dev = true) && decide (p.st = 3) && decide (p.data.length ≠ p.size)) &&
  (
    let s : State := run { st := 4, size := 64, data := zeros 64 } .recovery
    let d := s.dev
    let p := d.pldm
    decide (fwServes s.dev = true) && decide (p.st = 4)) &&
  (
    let s : State := run { st := 5 }
    let d := s.dev
    let p := d.pldm
    decide (fwServes s.dev = true) && decide (p.st = 5)) &&
  (
    let s : State := run { st := 2, applied := true, size := 64, data := zeros 64 } .recovery
    let d := s.dev
    let p := d.pldm
    decide (fwServes s.dev = true) && decide (p.st = 2) && decide (p.applied = true) && decide (d.foot.boot = .recovery)) &&
  (
    let s : State := run { st := 2 }
    let d := s.dev
    let p := d.pldm
    decide (fwServes s.dev = true) && decide (p.st = 2) && decide (p.applied = false)) &&
  (
    let s : State := run { st := 2, prev := 1 }
    let d := s.dev
    let p := d.pldm
    decide (fwServes s.dev = true) && decide (p.st ≠ 3)) &&
  (
    let s : State := run { st := 3, size := 128, data := zeros 64 }
    let d := s.dev
    let p := d.pldm
    decide (fwServes s.dev = true) && decide (p.st = 3) && decide (p.size ≠ 0)) &&
  (
    let s : State := run { st := 3, size := 128, data := zeros 64 }
    let d := s.dev
    let p := d.pldm
    decide (fwServes s.dev = true) && decide (1 ≤ p.st) && decide (p.st ≤ 5)) &&
  (
    let s : State := run {}
    let d := s.dev
    let p := d.pldm
    decide (fwServes s.dev = true) && decide (p.st = 0))) = true := by decide +kernel
end WFirmwareUpdateFollowsItsStates

/-! FootingBootsRecoversAndBringsUp -/
namespace WFootingBootsRecoversAndBringsUp
def ft (f : Foot) (d : Dev := onDev) : State := st { d with foot := f }
def mani : FwComp := ⟨4, 0, 0, leBytes 4 0x4E414D42 ++ leBytes 2 1 ++ leBytes 2 1 ++ zeros 8 ++ zeros 24 ++ leBytes 2 1 ++ leBytes 2 2 ++ leBytes 2 16 ++ zeros 2⟩
def rc (n : Nat := 1) : SlotRec := { st := n, seq := 3, writes := 1, epoch := 0, key := 0, svn := 0, len := 0, digest := [], version := 0 }
def sl : List FwSlot := [{ rec_ := some rc, comps := [mani] }, {}]
def late (d : Dev := onDev) : Dev := { d with time := { d.time with tick := 700000000000 } }
/-- States and operands that meet the hypotheses of FootingBootsRecoversAndBringsUp. -/
theorem test_witness : (
  (
    let s : State := s0
    let d := s.dev
    decide (d.foot.boot = .held)) &&
  (
    let s : State := ft { lifecycle := 1 }
    let d := s.dev
    decide (d.foot.boot = .held) && decide (d.foot.lcNext = none) && decide (d.foot.lifecycle ≤ 2) && decide (d.foot.pg = false)) &&
  (
    let s : State := ft { lifecycle := 0 }
    let d := s.dev
    decide (d.foot.boot = .held) && decide (d.foot.lcNext = none) && decide (d.foot.lifecycle ≤ 2) && decide (d.foot.pg = false)) &&
  (
    let s : State := ft { lcNext := some 3 }
    let d := s.dev
    decide (d.foot.boot = .held) && decide (d.foot.lcNext = some 3)) &&
  (
    let s : State := ft { boot := .waitPg, slots := sl }
    let d := s.dev
    decide (d.foot.boot = .waitPg) && decide (d.foot.pg = false) && decide (d.tripped = false) && decide (d.foot.lifecycle ≠ 2)) &&
  (
    let s : State := ft { boot := .waitPg, slots := sl }
    let tagBad : List Nat := []
    let d := s.dev
    let i := 0
    let rest : List Nat := []
    let r : SlotRec := rc
    decide (d.foot.boot = .waitPg) && decide (d.foot.pg = false) && decide (d.tripped = false) && decide (d.foot.lifecycle ≠ 2) && decide (d.foot.src = 0) && decide (candidates d = i :: rest) && decide ((slot d i).rec_ = some r) && decide (r.st = 1) && decide (slotCause d tagBad i r = none) && decide ((testedEntry (slot d i).comps).isSome = true)) &&
  (
    let s : State := ft { boot := .recovery }
    let d := s.dev
    decide (d.foot.boot = .recovery)) &&
  (
    let s : State := ft { boot := .recovery, lastRefusal := some 7 } late
    let d := s.dev
    let x := 7
    decide (d.foot.boot = .recovery) && decide (d.foot.waitFrom + 600000000000 ≤ now d) && decide (d.foot.lastRefusal = some x)) &&
  (
    let s : State := ft { boot := .recovery, forced := true } late
    let d := s.dev
    decide (d.foot.boot = .recovery) && decide (d.foot.waitFrom + 600000000000 ≤ now d) && decide (d.foot.lastRefusal = none) && decide (d.foot.forced = true)) &&
  (
    let s : State := ft { boot := .recovery, pg := true }
    let d := s.dev
    let cause := 1
    decide (d.foot.pg = true) && decide (cause ≤ 2) && decide (d.foot.boot = .recovery)) &&
  (
    let s : State := ft { boot := .running, pg := true }
    let d := s.dev
    let cause := 1
    decide (d.foot.pg = true) && decide (cause ≤ 2) && decide (d.foot.boot = .running)) &&
  (
    let s : State := ft { boot := .running, pg := true } {}
    let d := s.dev
    decide (d.foot.boot = .running) && decide (d.foot.pg = true) && decide (d.power = false) && decide (d.fatal = false) && decide (d.foot.needReset = false))) = true := by decide +kernel
end WFootingBootsRecoversAndBringsUp

/-! FootingCommandsAreServed -/
namespace WFootingCommandsAreServed
def mani : FwComp := ⟨4, 0, 0, leBytes 4 0x4E414D42 ++ leBytes 2 1 ++ leBytes 2 1 ++ zeros 8 ++ zeros 24 ++ leBytes 2 1 ++ leBytes 2 2 ++ leBytes 2 16 ++ zeros 2⟩
def rc (n : Nat := 1) : SlotRec := { st := n, seq := 3, writes := 1, epoch := 0, key := 0, svn := 5, len := 0, digest := [], version := 0 }
def sl (n : Nat := 1) : List FwSlot := [{ rec_ := some (rc n), comps := [mani] }, { rec_ := some rc, comps := [mani] }]
def ft (f : Foot) (d : Dev := onDev) : State := st { d with foot := f, dram := { slots := [[0]] } }
/-- States and operands that meet the hypotheses of FootingCommandsAreServed. -/
theorem test_witness : (
  (
    let s : State := ft { boot := .running } (inMem 0 0x9000 [1, 2, 3] onDev)
    let c : Cmd := cmd 0 [(20,4,4096),(24,8,0x9000),(40,4,8)]
    let d := s.dev
    let len := c.f 40 4
    decide ((footStatus c [(20, 4), (24, 8), (40, 4)] (decide (c.f 20 4 % 4096 ≠ 0) || decide (len < 4 ∨ 2 ^ 20 < len) || decide (2 ^ 25 < c.f 20 4 + len)) [(decide (chanCount d = 0), stUnitOff)]) = 0)) &&
  (
    let s : State := ft { boot := .running, slots := sl, lifecycle := 1 }
    let c : Cmd := cmd 0 [(17,1,0),(40,4,100)]
    let d := s.dev
    let k := c.f 17 1
    let len := c.f 40 4
    let bindSt := footStatus c [(17, 1), (18, 1), (40, 4)] (decide (1 < k) || decide (24 * 2 ^ 20 - 65536 < len) ||
        (decide (k = 0) && decide (c.f 18 1 ≠ 0)) || (decide (k = 1) && (decide (5 < c.f 18 1) || decide (2 ^ 21 < len))))
      [(decide (k = 1) && decide (numClusters d.variant ≤ c.f 18 1), stAbsent), (decide (chanCount d = 0), stUnitOff),
       (runTrial d || decide (d.foot.lifecycle = 2), stBadState)]
    decide (bindSt = 0) && decide (k = 0)) &&
  (
    let s : State := ft { boot := .running, slots := sl, lifecycle := 1 }
    let c : Cmd := cmd 0 [(17,1,1),(18,1,2),(40,4,100)]
    let d := s.dev
    let k := c.f 17 1
    let len := c.f 40 4
    let bindSt := footStatus c [(17, 1), (18, 1), (40, 4)] (decide (1 < k) || decide (24 * 2 ^ 20 - 65536 < len) ||
        (decide (k = 0) && decide (c.f 18 1 ≠ 0)) || (decide (k = 1) && (decide (5 < c.f 18 1) || decide (2 ^ 21 < len))))
      [(decide (k = 1) && decide (numClusters d.variant ≤ c.f 18 1), stAbsent), (decide (chanCount d = 0), stUnitOff),
       (runTrial d || decide (d.foot.lifecycle = 2), stBadState)]
    decide (bindSt = 0) && decide (k = 1)) &&
  (
    let s : State := ft { boot := .running, slots := sl, lifecycle := 1 }
    let c : Cmd := cmd 0 [(17,1,2),(40,4,100)]
    let d := s.dev
    let k := c.f 17 1
    let len := c.f 40 4
    let bindSt := footStatus c [(17, 1), (18, 1), (40, 4)] (decide (1 < k) || decide (24 * 2 ^ 20 - 65536 < len) ||
        (decide (k = 0) && decide (c.f 18 1 ≠ 0)) || (decide (k = 1) && (decide (5 < c.f 18 1) || decide (2 ^ 21 < len))))
      [(decide (k = 1) && decide (numClusters d.variant ≤ c.f 18 1), stAbsent), (decide (chanCount d = 0), stUnitOff),
       (runTrial d || decide (d.foot.lifecycle = 2), stBadState)]
    decide (bindSt ≠ 0)) &&
  (
    let s : State := ft { boot := .running, slots := sl 2 }
    let c : Cmd := c0
    let d := s.dev
    decide ((footStatus c [] false [(!(runTrial d), stBadState)]) = 0)) &&
  (
    let s : State := ft { boot := .running, slots := sl, lifecycle := 1 }
    let c : Cmd := c0
    let d := s.dev
    let i := d.foot.runSlot
    decide ((footStatus c [] false [(decide (d.foot.lifecycle = 2) || decide (slotSt d i ≠ 1), stBadState)]) = 0)) &&
  (
    let s : State := ft { boot := .running, slots := sl, lifecycle := 1 }
    let c : Cmd := cmd 0 [(20,4,1)]
    let d := s.dev
    let e := d.foot.epoch
    decide ((footStatus c [(20, 4)] (decide (c.f 20 4 ≠ e + 1)) [(decide (15 ≤ e) || decide (d.foot.lifecycle = 2), stBadState)]) = 0)) &&
  (
    let s : State := ft { boot := .running, slots := sl, lifecycle := 1 }
    let c : Cmd := cmd 0 [(17,1,3),(20,4,0x4D434544),(24,8,0x9000)]
    let d := s.dev
    let k := c.f 17 1
    decide ((footStatus c [(17, 1), (20, 4), (24, 8)] (decide (k = 0 ∨ 3 < k) || (decide (k = 3) && decide (c.f 20 4 ≠ 0x4D434544))) [(decide (k ≠ 3) && !(Config.lifecycleToken k (dmaRead d 0 (c.f 24 8) 5536)), 0x29), (!((decide (k = 1) && decide (d.foot.lifecycle = 0)) || (decide (k = 2) && decide (d.foot.lifecycle = 1)) || (decide (k = 3) && decide (d.foot.lifecycle ≤ 2))), stBadState)]) = 0)) &&
  (
    let c : Cmd := cmd 0 [(17,1,1),(24,8,0x9000)]
    let k := c.f 17 1
    decide ((footStatus c [(17, 1), (24, 8)] (decide (1 < k)) []) = 0)) &&
  (
    let s : State := ft { boot := .running, abiMin := 1, abiMax := 4 }
    let c : Cmd := cmd 0 [(20,2,3)]
    let d := s.dev
    decide ((firstStatus [((cmdSelf c).isNone, stNotPermitted), (!(reservedOk c [(20, 2)]), stBadParam), (!d.untested && decide (c.f 20 2 < d.foot.abiMin ∨ d.foot.abiMax < c.f 20 2), 0x28)]) = 0))) = true := by decide +kernel
end WFootingCommandsAreServed

/-! FramesAndPausesAtThePort -/
namespace WFramesAndPausesAtThePort
def up3 (d : Dev := onDev) : State := st (reg (pKey 3 0x40) 0x68000004 d)
def pauseF : Bytes := [1, 0x80, 0xC2, 0, 0, 1, 2, 0, 0, 0, 0, 9, 0x88, 8, 0, 1, 0x10, 0] ++ zeros 42
/-- States and operands that meet the hypotheses of FramesAndPausesAtThePort. -/
theorem test_witness : (
  (
    let s : State := up3
    let p : Nat := 3
    let bs : Bytes := zeros 59
    let d := s.dev
    let up : Prop := portPresent d.variant p = true ∧ d.fatal = false ∧ lstate d p = 4 ∧ loopCfg d p ≠ 2
    decide (up) && decide (bs.length + 4 < 64)) &&
  (
    let s : State := up3 (inEff (pKey 3 0x10) 1518 onDev)
    let p : Nat := 3
    let bs : Bytes := zeros 2000
    let d := s.dev
    let up : Prop := portPresent d.variant p = true ∧ d.fatal = false ∧ lstate d p = 4 ∧ loopCfg d p ≠ 2
    decide (up) && decide (64 ≤ bs.length + 4) && decide (maxFrameRx d p < bs.length + 4)) &&
  (
    let s : State := up3
    let p : Nat := 3
    let bs : Bytes := zeros 60
    let bad : Bool := true
    let d := s.dev
    let up : Prop := portPresent d.variant p = true ∧ d.fatal = false ∧ lstate d p = 4 ∧ loopCfg d p ≠ 2
    decide (up) && decide (64 ≤ bs.length + 4) && decide (bs.length + 4 ≤ maxFrameRx d p) && decide (bad = true)) &&
  (
    let s : State := up3
    let p : Nat := 3
    let bs : Bytes := pauseF
    let bad : Bool := false
    let d := s.dev
    let up : Prop := portPresent d.variant p = true ∧ d.fatal = false ∧ lstate d p = 4 ∧ loopCfg d p ≠ 2
    decide (up) && decide (64 ≤ bs.length + 4) && decide (bs.length + 4 ≤ maxFrameRx d p) && decide (bad = false) && decide (be bs 12 2 = 0x8808) && decide (flowRx d p = false)) &&
  (
    let s : State := up3 (inEff (pKey 3 0x10) 0x60000 onDev)
    let p : Nat := 3
    let bs : Bytes := pauseF
    let bad : Bool := false
    let d := s.dev
    let up : Prop := portPresent d.variant p = true ∧ d.fatal = false ∧ lstate d p = 4 ∧ loopCfg d p ≠ 2
    decide (up) && decide (64 ≤ bs.length + 4) && decide (bs.length + 4 ≤ maxFrameRx d p) && decide (bad = false) && decide (be bs 12 2 = 0x8808) && decide (flowRx d p = true) && decide (flowKind d false p = 1) && decide (be bs 14 2 = 1)) &&
  (
    let s : State := up3
    let p : Nat := 3
    let bs : Bytes := zeros 60
    let bad : Bool := false
    let d := s.dev
    let up : Prop := portPresent d.variant p = true ∧ d.fatal = false ∧ lstate d p = 4 ∧ loopCfg d p ≠ 2
    decide (up) && decide (64 ≤ bs.length + 4) && decide (bs.length + 4 ≤ maxFrameRx d p) && decide (bad = false) && decide (be bs 12 2 ≠ 0x8808) && decide ((port d p).cal = none)) &&
  (
    let s : State := st (reg (pKey 3 0x40) 0x68000006 onDev)
    let p : Nat := 3
    let bs : Bytes := zeros 60
    let d := s.dev
    decide (portPresent d.variant p = true) && decide (d.fatal = false) && decide (lstate d p = 6) && decide (padTo 60 bs ∉ (port d p).looped)) &&
  (
    let s : State := st (reg (pKey 3 0x40) 0x69000004 onDev)
    let p : Nat := 3
    let d := s.dev
    decide (pauseRunning d p = false) && decide (bitR d (pKey p 0x40) 24 = true)) &&
  (
    let s : State := st (reg (pKey 3 0x40) 0x69000004 (portU 3 (fun x => { x with pausedFrom := 10, pauseUntil := [0, 20] }) { onDev with time := { tick := 300 } }))
    let p : Nat := 3
    let d := s.dev
    decide (pauseRunning d p = false) && decide (bitR d (pKey p 0x40) 24 = true)) &&
  (
    let s : State := up3 (portU 3 (fun x => { x with xoff := some 2 }) (inEff (pKey 3 0x10) 0x90000 { onDev with time := { tick := 100000 } }))
    let p : Nat := 3
    let d := s.dev
    let t := 2
    decide ((port d p).xoff = some t) && decide (t + quantaTicks d p (quanta d p) / 2 ≤ now d) && decide (flowTx d p = true) && decide (mayTransmit d p = true)) &&
  (
    let s : State := up3 (portU 3 (fun x => { x with hold := [{ frame := { bytes := zeros 60, port := 1 } }] }) onDev)
    let p : Nat := 3
    let d := s.dev
    let h := ({ frame := { bytes := zeros 60, port := 1 } } : TxHold)
    let rest := ([] : List TxHold)
    decide ((port d p).hold = h :: rest) && decide (lstate d p = 4 ∨ lstate d p = 6) && decide (bitR d (pKey p 0x40) 10 = false) && decide (d.fatal = false) && decide (h.plan ≤ fretQ d p + (rep d (portIsland p) (portString d p)).incr / 2 ^ 32))) = true := by decide +kernel
end WFramesAndPausesAtThePort

/-! FramesAreParsedAndLookedUp -/
namespace WFramesAreParsedAndLookedUp
def fr : Frame := { bytes := zeros 60, port := 20 }
def dw : DramWait := ⟨2, fr, 3, none, { cls := 0, colour := 0, queue := 0 }⟩
def gr : Dev := inEff 0x301010 0x10000 onDev
/-- States and operands that meet the hypotheses of FramesAreParsedAndLookedUp. -/
theorem test_witness : (
  (
    let s : State := st { onDev with xings := [⟨5, ipIsland 2, true, .ingress fr⟩] }
    let i : Nat := 2
    let f : Frame := fr
    let d := s.dev
    let src := 5
    let rest := ([] : List Xing)
    decide (d.xings = ⟨src, ipIsland i, true, .ingress f⟩ :: rest) && decide (modeCfg d f.port ≠ 8)) &&
  (
    let s : State := st (inEff (pKey 20 0x10) 0x80000000 { onDev with xings := [⟨5, ipIsland 2, true, .ingress { fr with order := 1 }⟩], dramQ := [dw] })
    let i : Nat := 2
    let f : Frame := { fr with order := 1 }
    let d := s.dev
    let src := 5
    let rest := ([] : List Xing)
    let w := dw
    decide (d.xings = ⟨src, ipIsland i, true, .ingress f⟩ :: rest) && decide (modeCfg d f.port = 8) && decide (w ∈ d.dramQ) && decide (w.frame.port = f.port) && decide (w.frame.order < f.order)) &&
  (
    let s : State := st { gr with deepQ := [(2, 4, fr)] }
    let i : Nat := 2
    let f : Frame := fr
    let d := s.dev
    let pipe := 4
    let rest := ([] : List (Nat × Nat × Frame))
    decide (d.deepQ = (i, pipe, f) :: rest) && decide (graphEn d i = true) && decide (tablesOn d = true)) &&
  (
    let s : State := st { gr with deepQ := [(2, 4, fr)], doms := [(tableIsland 0, { failed := true })] }
    let i : Nat := 2
    let f : Frame := fr
    let d := s.dev
    let pipe := 4
    let rest := ([] : List (Nat × Nat × Frame))
    decide (d.deepQ = (i, pipe, f) :: rest) && decide (graphEn d i = true) && decide (tablesOn d = false)) &&
  (
    let s : State := st { onDev with dramQ := [dw] }
    let i : Nat := 2
    let d := s.dev
    let w := dw
    let rest := ([] : List DramWait)
    decide (d.dramQ = w :: rest) && decide (w.pipe = i)) &&
  (
    let s : State := st (rateNote (rateKey 0x42 0) 0 onDev)
    let d := s.dev
    decide (rateDue d (rateKey 0x42 0) = true))) = true := by decide +kernel
end WFramesAreParsedAndLookedUp

/-! FunctionResetsAdvanceTheGeneration -/
namespace WFunctionResetsAdvanceTheGeneration
def vfs (d : Dev := onDev) : Dev := fnU 0 (fun x => { x with vfEnable := true, numVfs := 3 }) d
def dx (g : Fn → Fn) (f : Nat := 5) (d : Dev := vfs) : State := st (fnU f g d)
/-- States and operands that meet the hypotheses of FunctionResetsAdvanceTheGeneration. -/
theorem test_witness : (
  (
    let s : State := dx (fun x => { x with bme := true, ready := true, gen := 7 })
    let f : Nat := 5
    let d := s.dev
    decide (fnPresent d f = true) && decide (isVf f = true)) &&
  (
    let s : State := dx (fun x => { x with bme := true, ready := true, gen := 7 })
    let f : Nat := 5
    let v : Word := 1
    let d := s.dev
    decide (fnPresent d f = true) && decide (isVf f = true) && decide (v.getLsbD 0 = true) && decide (isFrozen d (fnPort f) = false)) &&
  (
    let s : State := st (queueU 5 1 3 (fun _ => { st := .running }) (fnU 5 (fun x => { x with resetBusy := true, gen := 255 }) vfs))
    let f : Nat := 5
    let d := s.dev
    let x := fn d f
    decide (x.resetBusy = true) && decide (isVf f = true) && decide (d.clusters = []) && decide ((hp d (fnPort f)).hold = [])) &&
  (
    let s : State := dx (fun x => { x with gen := 9 }) 0 onDev
    let f : Nat := 0
    let d := s.dev
    let x := fn d f
    decide (f = 0 ∨ f = 2) && decide (fnPresent d f = true) && decide (x.vfEnable = false)) &&
  (
    let s : State := dx (fun x => { x with gen := 9 }) 0
    let f : Nat := 0
    let d := s.dev
    let x := fn d f
    decide (f = 0 ∨ f = 2) && decide (fnPresent d f = true) && decide (x.vfEnable = true) && decide (d.clusters = []) && decide (d.hports = [])) &&
  (
    let s : State := dx (fun x => { x with gen := 9 })
    let f : Nat := 5
    let d := s.dev
    let x := fn d f
    decide (isVf f = true) && decide (fnPresent d f = true) && decide (x.resetBusy = false)) &&
  (
    let s : State := dx (fun x => { x with bme := true })
    let f : Nat := 5
    let d := s.dev
    decide (fnPresent d f = true)) &&
  (
    let s : State := dx (fun x => { x with d3hot := true }) 0
    let f : Nat := 0
    let d := s.dev
    let x := fn d f
    decide (fnPresent d f = true) && decide (f ≠ 1) && decide (f ≠ 3) && decide (x.d3hot = true)) &&
  (
    let s : State := dx (fun x => { x with bme := true }) 3
    let f : Nat := 3
    let d := s.dev
    decide (fnPresent d f = true) && decide (isVf f = false)) &&
  (
    let s : State := st (hpU 0 (fun p => { p with perst := true }) onDev)
    let h : Nat := 0
    let d := s.dev
    decide (h < numHosts d.variant)) &&
  (
    let s : State := st (hpU 0 (fun p => { p with linkUp := true }) vfs)
    let h : Nat := 0
    let d := s.dev
    decide (h < numHosts d.variant)) &&
  (
    let s : State := st (hpU 0 (fun p => { p with linkUp := true }) vfs)
    let h : Nat := 0
    let d := s.dev
    decide ((hp d h).linkUp = true))) = true := by decide +kernel
end WFunctionResetsAdvanceTheGeneration

/-! GivikCommandsAreServed -/
namespace WGivikCommandsAreServed
def cm (fs : List (Nat × Nat × Nat)) : Cmd := cmd 0 ((16,1,1) :: fs)
/-- States and operands that meet the hypotheses of GivikCommandsAreServed. -/
theorem test_witness : (
  (
    let s : State := st { onDev with stopped := [9] }
    let c : Cmd := cm [(17,1,1),(18,1,1)]
    let d := s.dev
    let cl := c.f 16 1
    let k := c.f 17 1
    decide ((givikStatus d c [(17, 1), (18, 1)] (decide (7 < k) || decide (1 < c.f 18 1)) [(!(coreStopped d cl k), stBadState)]) = 0)) &&
  (
    let s : State := st (inEff (gvKey 1 0x20) 8 onDev)
    let c : Cmd := cm [(17,1,3),(18,2,4)]
    let d := s.dev
    let cl := c.f 16 1
    let k := c.f 17 1
    decide ((givikStatus d c [(17, 1), (18, 2)] (decide (c.f 18 2 = 0)) [(!(effB d (gvKey cl (0x20 + 4 * (k / 32))) (k % 32)), stBadState)]) = 0)) &&
  (
    let s : State := st { onDev with released := [1] }
    let c : Cmd := cm [(17,1,0)]
    let d := s.dev
    let cl := c.f 16 1
    let k := c.f 17 1
    let stRel := givikStatus d c [(17, 1)] (decide (1 < k)) []
    decide ((clu d cl).relJobs = []) && decide (k = 0) && decide (d.released.contains cl = true) && decide (stRel = 0)) &&
  (
    let s : State := s0
    let c : Cmd := cm [(17,1,0)]
    let d := s.dev
    let cl := c.f 16 1
    let k := c.f 17 1
    let stRel := givikStatus d c [(17, 1)] (decide (1 < k)) []
    decide (stRel = 0) && decide ((clu d cl).relJobs = []) && decide (k = 0) && decide (d.released.contains cl = false)) &&
  (
    let s : State := st { onDev with released := [1] }
    let c : Cmd := cm [(17,1,1)]
    let d := s.dev
    let cl := c.f 16 1
    let k := c.f 17 1
    let stRel := givikStatus d c [(17, 1)] (decide (1 < k)) []
    decide (stRel = 0) && decide ((clu d cl).relJobs = []) && decide (k = 1) && decide (d.released.contains cl = true)) &&
  (
    let s : State := s0
    let c : Cmd := cm [(17,1,5),(18,1,1),(24,8,0x9000)]
    let d := s.dev
    let k := c.f 17 1
    decide ((givikStatus d c [(17, 1), (18, 1), (24, 8)] (decide (63 < k) || decide (1 < c.f 18 1) || decide (c.f 24 8 % 64 ≠ 0)) []) = 0)) &&
  (
    let s : State := st (gcoreU 1 2 (fun x => { x with fault := [1, 2, 3] }) onDev)
    let c : Cmd := cm [(17,1,2),(24,8,0x9000)]
    let d := s.dev
    let k := c.f 17 1
    decide ((givikStatus d c [(17, 1), (24, 8)] (decide (7 < k)) []) = 0))) = true := by decide +kernel
end WGivikCommandsAreServed

/-! GrantItemsSetWhatTheyName -/
namespace WGrantItemsSetWhatTheyName
def jc : Cmd := cmd 0 [(0,1,0xD0)]
def itm (res v : Nat) (aux : Nat := 0) : Bytes := patch (patch (patch (zeros 16) 0 [BitVec.ofNat 8 res]) 4 (leBytes 4 v)) 8 (leBytes 4 aux)
def jb (it : Bytes) : GrantJob := { held := hold onDev jc, target := 5, index := 0, items := [it] }
def jd5 (js : List GrantJob) (d : Dev := onDev) : Dev := (fnU 5 (fun x => { x with jobs := js }) d)
/-- States and operands that meet the hypotheses of GrantItemsSetWhatTheyName. -/
theorem test_witness : (
  (
    let d : Dev := jd5 [jb (itm 2 4)]
    let f : Nat := 5
    let j : GrantJob := jb (itm 2 4)
    let rest : List GrantJob := ([] : List GrantJob)
    let it : Bytes := itm 2 4
    let n : Nat := 1
    decide ((fn d f).jobs = j :: rest) && decide (j.held.cmd.opcode ≠ 0xD1) && decide (j.items = [it]) && decide (j.index = 0) && decide (j.since = none) && decide (iScope it = 0) && decide (rest = []) && decide (grantCheck d j.held.cmd.fn f it = 0 ∧ heldTop d f (iRes it) (iValue it) ≤ iValue it ∧ grant (grantRun f (n + 2) d) f (iRes it) = ⟨iValue it, iAux it⟩)) &&
  (
    let d : Dev := jd5 [jb (itm 9 4 5)]
    let f : Nat := 5
    let j : GrantJob := jb (itm 9 4 5)
    let rest : List GrantJob := ([] : List GrantJob)
    let it : Bytes := itm 9 4 5
    let n : Nat := 1
    decide ((fn d f).jobs = j :: rest) && decide (j.held.cmd.opcode ≠ 0xD1) && decide (j.items = [it]) && decide (j.index = 0) && decide (j.since = none) && decide (iScope it = 0) && decide (rest = []) && decide (grantCheck d j.held.cmd.fn f it = 0 ∧ heldTop d f (iRes it) (iValue it) ≤ iValue it ∧ grant (grantRun f (n + 2) d) f (iRes it) = ⟨iValue it, iAux it⟩)) &&
  (
    let d : Dev := jd5 [jb (itm 0 4)]
    let f : Nat := 5
    let j : GrantJob := jb (itm 0 4)
    let rest : List GrantJob := ([] : List GrantJob)
    let it : Bytes := itm 0 4
    let n : Nat := 1
    decide ((fn d f).jobs = j :: rest) && decide (j.held.cmd.opcode ≠ 0xD1) && decide (j.items = [it]) && decide (j.index = 0) && decide (j.since = none) && decide (iScope it = 0) && decide (rest = []) && decide (grantCheck d j.held.cmd.fn f it = 4 ∧ grant (grantRun f (n + 2) d) 0 4 = grant d 0 4)) &&
  (
    let d : Dev := fnU 0 (fun x => { x with grants := [(3, ⟨32768, 0⟩)] }) (jd5 [jb (itm 3 256)])
    let f : Nat := 5
    let j : GrantJob := jb (itm 3 256)
    let rest : List GrantJob := ([] : List GrantJob)
    let it : Bytes := itm 3 256
    let n : Nat := 1
    decide ((fn d f).jobs = j :: rest) && decide (j.held.cmd.opcode ≠ 0xD1) && decide (j.items = [it]) && decide (j.index = 0) && decide (j.since = none) && decide (iScope it = 0) && decide (rest = []) && decide (grantCheck d j.held.cmd.fn f it = 5 ∧ (grant d f (iRes it)).value < iValue it ∧ grantPool (iRes it) < (((granted d).filter fun g => decide (g ≠ f)).foldl (fun n g => n + heldValue d g (iRes it)) 0) + iValue it))) = true := by decide +kernel
end WGrantItemsSetWhatTheyName

/-! GrantsAreChangedInOrder -/
namespace WGrantsAreChangedInOrder
def jc : Cmd := cmd 0 [(0,1,0xD0)]
def itm (res v : Nat) (ms : Nat := 0) : Bytes := patch (patch (patch (zeros 16) 0 [BitVec.ofNat 8 res]) 4 (leBytes 4 v)) 12 (leBytes 2 ms)
def jb (since : Option Nat) (it : Bytes) : GrantJob := { held := hold onDev jc, target := 5, index := 0, items := [it], since := since }
def jd5 (js : List GrantJob) (d : Dev := onDev) : State := st (fnU 5 (fun x => { x with jobs := js }) d)
def qs (d : Dev := onDev) : Dev := queueU 5 1 7 (fun _ => { st := .stopped }) d
/-- States and operands that meet the hypotheses of GrantsAreChangedInOrder. -/
theorem test_witness : (
  (
    let s : State := jd5 [jb none (itm 1 4)]
    let c : Cmd := cmd 0 [(0,1,0xD0),(16,2,5),(18,2,2),(24,8,64)]
    let d := s.dev
    let t := cmdTarget c
    let n := c.f 18 2
    let setSt := tenantStatus d c [(18, 2), (24, 8)] false false (decide (n = 0) || decide (16 < n) || decide (c.f 24 8 % 64 ≠ 0)) false
    decide ((fn d t).jobs ≠ []) && decide (setSt = 0)) &&
  (
    let s : State := jd5 [jb none (itm 1 4)]
    let c : Cmd := cmd 0 [(0,1,0xD1),(16,2,5),(24,8,64)]
    let d := s.dev
    let t := cmdTarget c
    let qSt := tenantStatus d c [(24, 8)] true false false false
    decide ((fn d t).jobs ≠ []) && decide (qSt = 0)) &&
  (
    let s : State := st (inMem 0 64 (itm 1 4))
    let c : Cmd := cmd 0 [(0,1,0xD0),(16,2,5),(18,2,1),(24,8,64)]
    let d := s.dev
    let t := cmdTarget c
    let n := c.f 18 2
    let setSt := tenantStatus d c [(18, 2), (24, 8)] false false (decide (n = 0) || decide (16 < n) || decide (c.f 24 8 % 64 ≠ 0)) false
    decide ((fn d t).jobs = []) && decide (setSt = 0)) &&
  (
    let s : State := s0
    let c : Cmd := cmd 0 [(0,1,0xD1),(16,2,5),(24,8,64)]
    let d := s.dev
    let t := cmdTarget c
    let qSt := tenantStatus d c [(24, 8)] true false false false
    decide ((fn d t).jobs = []) && decide (qSt = 0)) &&
  (
    let s : State := jd5 [jb (some 3) (itm 2 4)] qs
    let f : Nat := 5
    let d := s.dev
    let j := jb (some 3) (itm 2 4)
    let rest := ([] : List GrantJob)
    let it := itm 2 4
    decide ((fn d f).jobs = j :: rest) && decide (j.held.cmd.opcode ≠ 0xD1) && decide (j.items[j.index]? = some it) && decide (j.since.isSome = true) && decide (iScope it ≠ 1) && decide (iValue it < heldTop d f (iRes it) (iValue it))) &&
  (
    let s : State := jd5 [jb (some 3) (itm 2 4)] (queueU 5 1 3 (fun _ => { st := .stopped }) onDev)
    let f : Nat := 5
    let d := s.dev
    let j := jb (some 3) (itm 2 4)
    let it := itm 2 4
    decide ((fn d f).jobs = [j]) && decide (j.held.cmd.opcode ≠ 0xD1) && decide (j.items = [it]) && decide (j.index = 0) && decide (j.since.isSome = true) && decide (iScope it ≠ 1) && decide (heldTop d f (iRes it) (iValue it) ≤ iValue it)) &&
  (
    let s : State := jd5 [jb (some 3) (itm 2 4 9)] { (qs) with time := { tick := 9000003 } }
    let f : Nat := 5
    let d := s.dev
    let j := jb (some 3) (itm 2 4 9)
    let rest := ([] : List GrantJob)
    let it := itm 2 4 9
    let t0 := 3
    decide ((fn d f).jobs = j :: rest) && decide (j.items[j.index]? = some it) && decide (j.since = some t0) && decide (le it 12 2 ≠ 0) && decide (t0 + le it 12 2 * 1000000 ≤ now d) && decide (iValue it < heldTop d f (iRes it) (iValue it))) &&
  (
    let s : State := jd5 [jb (some 3) (itm 2 4 9)] { (qs) with time := { tick := 9000002 } }
    let f : Nat := 5
    let d := s.dev
    let j := jb (some 3) (itm 2 4 9)
    let rest := ([] : List GrantJob)
    let it := itm 2 4 9
    let t0 := 3
    decide ((fn d f).jobs = j :: rest) && decide (j.items[j.index]? = some it) && decide (j.since = some t0) && decide (now d < t0 + le it 12 2 * 1000000))) = true := by decide +kernel
end WGrantsAreChangedInOrder

/-! HostPortsContainAndRelease -/
namespace WHostPortsContainAndRelease
def lk (d : Dev := onDev) : Dev := hpU 1 (fun p => { p with linkUp := true, linkL0 := true }) d
def fz (d : Dev := lk) : Dev := reg (frzStatKey 1) 0x80000000 d
def dr (d : Dev := lk) : Dev := reg (frzStatKey 1) 0x40000000 d
def itx : RxItem := { fn := 2, lq := 3, frame := { bytes := zeros 60, port := 1 } }
/-- States and operands that meet the hypotheses of HostPortsContainAndRelease. -/
theorem test_witness : (
  (
    let s : State := st (hpU 1 (fun p => { p with perst := false }) onDev)
    let h : Nat := 1
    let d := s.dev
    decide (h < numHosts d.variant) && decide ((hp d h).perst = false) && decide (islandOn d (hIsland h) = true)) &&
  (
    let s : State := st lk
    let h : Nat := 1
    let d := s.dev
    decide (h < numHosts d.variant) && decide ((hp d h).linkUp = true) && decide (isFrozen d h = false)) &&
  (
    let s : State := st (hpU 1 (fun p => { p with aspmL1 := true }) lk)
    let h : Nat := 1
    let n : Nat := 2
    let d := s.dev
    decide ((hp d h).linkL0 = true) && decide ((hp d h).aspmL1 = true) && decide (n ≤ 2)) &&
  (
    let s : State := st (hpU 1 (fun p => { p with inL1 := true }) onDev)
    let h : Nat := 1
    let d := s.dev
    decide ((hp d h).inL1 = true)) &&
  (
    let s : State := st (reg (cfgKey 2 0x2D8) 1 onDev)
    let f : Nat := 2
    let d := s.dev
    decide (ctoPromote d (fnPort f) = true) && decide (isFrozen d (fnPort f) = false)) &&
  (
    let s : State := st fz
    let h : Nat := 1
    let v : Word := 0x80000000
    let d := s.dev
    let fk := frzStatKey h
    decide (v.getLsbD 31 = true) && decide (isFrozen d h = true) && decide ((hp d h).linkL0 = true) && decide (fldR d fk 3 0 = 0) && decide (d.fns = []) && decide (d.queues = [])) &&
  (
    let s : State := st (fz onDev)
    let h : Nat := 1
    let v : Word := 0x80000000
    let d := s.dev
    decide (v.getLsbD 31 = true) && decide (isFrozen d h = true) && decide ((hp d h).linkL0 = false)) &&
  (
    let s : State := st dr
    let h : Nat := 1
    let d := s.dev
    decide (isDraining d h = true) && decide ((hp d h).hold = []) && decide (d.queues = [])) &&
  (
    let s : State := st (rateNote (rateKey 0xD3 2) 7 onDev)
    let f : Nat := 2
    let d := s.dev
    decide (rateDue d (rateKey 0xD3 f) = true)) &&
  (
    let s : State := s0
    let f : Nat := 2
    let d := s.dev
    decide (fnPresent d f = true) && decide ((fn d f).keptSigs = []) && decide ((fn d f).intxOn = false) && decide (regR d (fnKey f 0x14) = 0)) &&
  (
    let s : State := st (reg (fnKey 2 0x14) 7 onDev)
    let f : Nat := 2
    let d := s.dev
    decide (fnPresent d f = true) && decide (isFrozen d (fnPort f) = false) && decide (isVf f = false)) &&
  (
    let s : State := st (rateNote (rateKey 0xD6 2) 7 onDev)
    let f : Nat := 2
    let d := s.dev
    decide (rateDue d (rateKey 0xD6 f) = true)) &&
  (
    let s : State := st (hpU 1 (fun p => { p with rx := [itx] }) fz)
    let h : Nat := 1
    let d := s.dev
    let it := itx
    let rest := ([] : List RxItem)
    decide (d.xings = []) && decide (d.fatal = false) && decide (islandOn d (hIsland h) = true) && decide (isFrozen d h = true) && decide ((hp d h).rx = it :: rest) && decide ((hp d h).holdBytes + holdCharge it.frame.bytes.length ≤ holdMib d h * 1048576)) &&
  (
    let s : State := st (hpU 1 (fun p => { p with rx := [itx] }) lk)
    let h : Nat := 1
    let d := s.dev
    let it := itx
    let rest := ([] : List RxItem)
    decide (d.xings = []) && decide (d.fatal = false) && decide (islandOn d (hIsland h) = true) && decide (isFrozen d h = false) && decide (isDraining d h = false) && decide ((hp d h).rx = it :: rest)) &&
  (
    let s : State := st (hpU 1 (fun p => { p with hold := [itx] }) dr)
    let h : Nat := 1
    let d := s.dev
    let it := itx
    let rest := ([] : List RxItem)
    decide (d.xings = []) && decide (d.fatal = false) && decide (islandOn d (hIsland h) = true) && decide (isFrozen d h = false) && decide (isDraining d h = true) && decide ((hp d h).hold = it :: rest) && decide ((hp d h).rx = []) && decide (d.dram.degraded = []))) = true := by decide +kernel
end WHostPortsContainAndRelease

/-! ImmediateInstructionsWriteTheirResult -/
namespace WImmediateInstructionsWriteTheirResult
/-- States and operands that meet the hypotheses of ImmediateInstructionsWriteTheirResult. -/
theorem test_witness : (
  (
    let s : State := iss (encI 2 5 6 0xFFF1) [(6, 0xFFFFFFFFFFFFFFF3)]
    let c : Nat := 1
    let t : Nat := 3
    let D : BitVec 5 := 5
    let A : BitVec 5 := 6
    let imm : BitVec 16 := 0xFFF1
    decide (s.dev.wr = []) && decide (IssuesSeq s.dev c t (encI 2 D A imm))) &&
  (
    let s : State := iss (encI 3 5 6 0xFFF1) [(6, 0xFFFFFFFFFFFFFFF3)]
    let c : Nat := 1
    let t : Nat := 3
    let D : BitVec 5 := 5
    let A : BitVec 5 := 6
    let imm : BitVec 16 := 0xFFF1
    decide (s.dev.wr = []) && decide (IssuesSeq s.dev c t (encI 3 D A imm))) &&
  (
    let s : State := iss (encI 4 5 6 0xFFF1) [(6, 0xFFFFFFFFFFFFFFF3)]
    let c : Nat := 1
    let t : Nat := 3
    let D : BitVec 5 := 5
    let A : BitVec 5 := 6
    let imm : BitVec 16 := 0xFFF1
    decide (s.dev.wr = []) && decide (IssuesSeq s.dev c t (encI 4 D A imm))) &&
  (
    let s : State := iss (encI 5 5 6 0xFFF1) [(6, 0xFFFFFFFFFFFFFFF3)]
    let c : Nat := 1
    let t : Nat := 3
    let D : BitVec 5 := 5
    let A : BitVec 5 := 6
    let imm : BitVec 16 := 0xFFF1
    decide (s.dev.wr = []) && decide (IssuesSeq s.dev c t (encI 5 D A imm))) &&
  (
    let s : State := iss (encI 6 5 6 0xFFF1) [(6, 0xFFFFFFFFFFFFFFF3)]
    let c : Nat := 1
    let t : Nat := 3
    let D : BitVec 5 := 5
    let A : BitVec 5 := 6
    let imm : BitVec 16 := 0xFFF1
    decide (s.dev.wr = []) && decide (IssuesSeq s.dev c t (encI 6 D A imm))) &&
  (
    let s : State := iss (encI 7 5 6 0xFFF1) [(6, 0xFFFFFFFFFFFFFFF3)]
    let c : Nat := 1
    let t : Nat := 3
    let D : BitVec 5 := 5
    let A : BitVec 5 := 6
    let imm : BitVec 16 := 0xFFF1
    decide (s.dev.wr = []) && decide (IssuesSeq s.dev c t (encI 7 D A imm))) &&
  (
    let s : State := iss (encI 8 5 0 0xFFF1) [(6, 0xFFFFFFFFFFFFFFF3)]
    let c : Nat := 1
    let t : Nat := 3
    let D : BitVec 5 := 5
    let imm : BitVec 16 := 0xFFF1
    decide (s.dev.wr = []) && decide (IssuesSeq s.dev c t (encI 8 D 0 imm))) &&
  (
    let s : State := iss (encI 9 5 6 ((63 : BitVec 6).setWidth 16)) [(6, 0xFFFFFFFFFFFFFFF3)]
    let c : Nat := 1
    let t : Nat := 3
    let D : BitVec 5 := 5
    let A : BitVec 5 := 6
    let sh : BitVec 6 := 63
    decide (s.dev.wr = []) && decide (IssuesSeq s.dev c t (encI 9 D A (sh.setWidth 16)))) &&
  (
    let s : State := iss (encI 10 5 6 ((63 : BitVec 6).setWidth 16)) [(6, 0xFFFFFFFFFFFFFFF3)]
    let c : Nat := 1
    let t : Nat := 3
    let D : BitVec 5 := 5
    let A : BitVec 5 := 6
    let sh : BitVec 6 := 63
    decide (s.dev.wr = []) && decide (IssuesSeq s.dev c t (encI 10 D A (sh.setWidth 16)))) &&
  (
    let s : State := iss (encI 11 5 6 ((63 : BitVec 6).setWidth 16)) [(6, 0xFFFFFFFFFFFFFFF3)]
    let c : Nat := 1
    let t : Nat := 3
    let D : BitVec 5 := 5
    let A : BitVec 5 := 6
    let sh : BitVec 6 := 63
    decide (s.dev.wr = []) && decide (IssuesSeq s.dev c t (encI 11 D A (sh.setWidth 16))))) = true := by decide +kernel
end WImmediateInstructionsWriteTheirResult

/-! InboundAccessesFollowTheirWindow -/
namespace WInboundAccessesFollowTheirWindow
def up (d : Dev := onDev) : Dev := { d with hports := [(0, { linkUp := true })] }
def mse (d : Dev) : Dev := { d with fns := [(0, { mse := true })] }
def win : Dev := mse (up (inEff 0xD01104 0x40000000 (inEff 0xD01100 0xC onDev)))
/-- States and operands that meet the hypotheses of InboundAccessesFollowTheirWindow. -/
theorem test_witness : (
  (
    let s : State := st (reg (frzStatKey 0) 0x80000000 (up))
    let h : Nat := 0
    let t : Tlp := { write := true, fn := 0, bar := 4, off := 0, data := [1] }
    let d := s.dev
    decide (s.dev.wr = []) && decide (h < numHosts s.dev.variant) && decide ((hp s.dev h).linkUp = true) && decide (t.malformed = false) && decide (t.poisoned = false) && decide (t.cpl = none) && decide (isFrozen d h = true) && decide (t.bar ≠ 3) && decide (t.write = true)) &&
  (
    let s : State := st (reg (frzStatKey 0) 0x80000000 (up))
    let h : Nat := 0
    let t : Tlp := { write := false, fn := 0, bar := 0, off := 0, len := 4 }
    let d := s.dev
    decide (s.dev.wr = []) && decide (h < numHosts s.dev.variant) && decide ((hp s.dev h).linkUp = true) && decide (t.malformed = false) && decide (t.poisoned = false) && decide (t.cpl = none) && decide (isFrozen d h = true) && decide (t.bar ≠ 3) && decide (t.write = false)) &&
  (
    let s : State := st win
    let h : Nat := 0
    let t : Tlp := { write := true, fn := 0, bar := 4, off := 4094, data := [1, 2] }
    let d := s.dev
    let taken : Prop := isFrozen d h = false ∧ d.fatal = false ∧ fnPort t.fn = h ∧ fnPresent d t.fn = true ∧ memOn d t.fn = true ∧
      t.bar = 4 ∧ hasBar4 d.variant t.fn = true
    let sp := pbSpace
    let a := 4094
    decide (s.dev.wr = []) && decide (h < numHosts s.dev.variant) && decide ((hp s.dev h).linkUp = true) && decide (t.malformed = false) && decide (t.poisoned = false) && decide (t.cpl = none) && decide (taken) && decide (t.write = true) && decide (peerTarget d t.fn t.off t.data.length = some (sp, a))) &&
  (
    let s : State := st win
    let h : Nat := 0
    let t : Tlp := { write := true, fn := 0, bar := 4, off := 4095, data := [1, 2] }
    let d := s.dev
    let taken : Prop := isFrozen d h = false ∧ d.fatal = false ∧ fnPort t.fn = h ∧ fnPresent d t.fn = true ∧ memOn d t.fn = true ∧
      t.bar = 4 ∧ hasBar4 d.variant t.fn = true
    decide (s.dev.wr = []) && decide (h < numHosts s.dev.variant) && decide ((hp s.dev h).linkUp = true) && decide (t.malformed = false) && decide (t.poisoned = false) && decide (t.cpl = none) && decide (taken) && decide (t.write = true) && decide (peerTarget d t.fn t.off t.data.length = none)) &&
  (
    let s : State := st win
    let h : Nat := 0
    let t : Tlp := { write := false, fn := 0, bar := 4, off := 4093, len := 4 }
    let d := s.dev
    let taken : Prop := isFrozen d h = false ∧ d.fatal = false ∧ fnPort t.fn = h ∧ fnPresent d t.fn = true ∧ memOn d t.fn = true ∧
      t.bar = 4 ∧ hasBar4 d.variant t.fn = true
    decide (s.dev.wr = []) && decide (h < numHosts s.dev.variant) && decide ((hp s.dev h).linkUp = true) && decide (t.malformed = false) && decide (t.poisoned = false) && decide (t.cpl = none) && decide (taken) && decide (t.write = false) && decide (peerTarget d t.fn t.off t.len = none)) &&
  (
    let s : State := st (up)
    let h : Nat := 0
    let t : Tlp := { write := false, fn := 0, bar := 3, off := 0, len := 4 }
    let d := s.dev
    decide (s.dev.wr = []) && decide (h < numHosts s.dev.variant) && decide ((hp s.dev h).linkUp = true) && decide (t.malformed = false) && decide (t.poisoned = false) && decide (t.cpl = none) && decide (t.bar = 3) && decide (d.fatal = false) && decide (d.foot.boot ≠ .running)) &&
  (
    let s : State := st (up { onDev with foot := { boot := .running } })
    let h : Nat := 0
    let t : Tlp := { write := false, fn := 0, bar := 3, off := 2, len := 2 }
    let d := s.dev
    decide (s.dev.wr = []) && decide (h < numHosts s.dev.variant) && decide ((hp s.dev h).linkUp = true) && decide (t.malformed = false) && decide (t.poisoned = false) && decide (t.cpl = none) && decide (t.bar = 3) && decide (d.fatal = false) && decide (d.foot.boot = .running) && decide (fnPort t.fn = h) && decide (fnPresent d t.fn = true) && decide (t.write = false)) &&
  (
    let s : State := st (up)
    let h : Nat := 0
    let t : Tlp := { write := false, fn := 0, bar := 4, off := 4093, len := 4 }
    let d := s.dev
    decide (s.dev.wr = []) && decide (h < numHosts s.dev.variant) && decide ((hp s.dev h).linkUp = true) && decide (t.malformed = false) && decide (t.poisoned = false) && decide (t.cpl = none) && decide (isFrozen d h = false))) = true := by decide +kernel
end WInboundAccessesFollowTheirWindow

/-! InsertsFindTheirEntryAndLoseNone -/
namespace WInsertsFindTheirEntryAndLoseNone
def tb3 : Dev := inEff (tblKey 3 0) 0x80000004 onDev
def ent5 : Bytes := patch (zeros 64) 0 [5]
def has5 : Dev := ltableU 3 (fun x => { x with ents := [⟨storedEnt ent5 0, some 0⟩] }) tb3
/-- States and operands that meet the hypotheses of InsertsFindTheirEntryAndLoseNone. -/
theorem test_witness : (
  (
    let d : Dev := has5
    let t : Nat := 3
    let e : Bytes := patch (zeros 64) 0 [6]
    decide (e.length = 64) && decide ((ltable d t).ents.Pairwise (fun a b => eKey a.bytes ≠ eKey b.bytes))) &&
  (
    let d : Dev := tb3
    let c : Cmd := c0
    let t : Nat := 3
    let e : Bytes := patch (zeros 64) 0 [6]
    let r := tblInsert1 c t e d
    decide (e.length = 64) && decide ((ltable d t).ents.Pairwise (fun a b => eKey a.bytes ≠ eKey b.bytes)) && decide (r.1 = 0 ∧ (ltable r.2 t).ents.length = 1)) &&
  (
    let d : Dev := has5
    let c : Cmd := c0
    let t : Nat := 3
    let e : Bytes := ent5
    let r := tblInsert1 c t e d
    decide (e.length = 64) && decide ((ltable d t).ents.Pairwise (fun a b => eKey a.bytes ≠ eKey b.bytes)) && decide (r.1 = 1 ∧ r.2.tables = d.tables)) &&
  (
    let d : Dev := onDev
    let c : Cmd := c0
    let t : Nat := 3
    let e : Bytes := patch (zeros 64) 0 [6]
    let r := tblInsert1 c t e d
    decide (e.length = 64) && decide ((ltable d t).ents.Pairwise (fun a b => eKey a.bytes ≠ eKey b.bytes)) && decide (r.1 = 6 ∧ r.2.tables = d.tables))) = true := by decide +kernel
end WInsertsFindTheirEntryAndLoseNone

/-! ItemCommandsReportWhatTheyApplied -/
namespace WItemCommandsReportWhatTheyApplied
/-- States and operands that meet the hypotheses of ItemCommandsReportWhatTheyApplied. -/
theorem test_witness : (
  (
    let s : State := s0
    let c : Cmd := cmd 0 [(16,1,8)]
    let d := s.dev
    decide (tblStatus d c ≠ 0)) &&
  (
    let s : State := s0
    let c : Cmd := cmd 0 [(18,2,257)]
    let d := s.dev
    let badBuf := decide (256 < cCount c) || decide (cBuf c % 64 ≠ 0)
    let items := classStatus d c [(18, 2), (24, 8)] badBuf false
    decide (items ≠ 0)) &&
  (
    let s : State := s0
    let c : Cmd := cmd 0 [(16,1,7)]
    let d := s.dev
    decide (tblStatus d c = 0) && decide (cCount c = 0)) &&
  (
    let s : State := s0
    let c : Cmd := cmd 0 [(16,1,7),(18,2,1)]
    let d := s.dev
    decide (tblStatus d c = 0) && decide (cCount c = 1)) &&
  (
    let s : State := st (inEff (tblKey 7 0) 0x80000004 onDev)
    let c : Cmd := cmd 0 [(16,1,7),(18,2,1)]
    let d := s.dev
    decide (tblStatus d c = 0) && decide (cCount c = 1)) &&
  (
    let s : State := s0
    let c : Cmd := cmd 0 [(18,2,1)]
    let d := s.dev
    let badBuf := decide (256 < cCount c) || decide (cBuf c % 64 ≠ 0)
    let items := classStatus d c [(18, 2), (24, 8)] badBuf false
    decide (items = 0) && decide (cCount c = 1)) &&
  (
    let s : State := st (inMem 0 64 [9,9,9])
    let c : Cmd := cmd 0 [(18,2,1),(24,8,64)]
    let d := s.dev
    let badBuf := decide (256 < cCount c) || decide (cBuf c % 64 ≠ 0)
    let items := classStatus d c [(18, 2), (24, 8)] badBuf false
    decide (items = 0) && decide (cCount c = 1)) &&
  (
    let c : Cmd := cmd 0 [(18,2,1)]
    let n := 3
    decide (cCount c ≤ n))) = true := by decide +kernel
end WItemCommandsReportWhatTheyApplied

/-! KeystoneInstructionsActOnTheirUnit -/
namespace WKeystoneInstructionsActOnTheirUnit
def lk (l : GLock) (g : Dev → Dev := id) : Dev := glockU 1 9 (fun _ => l) (g onDev)
def ev (e : GEvent) : Dev := geventU 1 9 (fun _ => e) onDev
/-- States and operands that meet the hypotheses of KeystoneInstructionsActOnTheirUnit. -/
theorem test_witness : (
  (
    let s : State := iss (encK 0x31 0 6 0 4) [(6, 5)] id (lk { broken := true })
    let c : Nat := 1
    let t : Nat := 3
    let A : BitVec 5 := 6
    let k : BitVec 12 := 4
    let n : Nat := 9
    let d := s.dev
    let l := glock d c n
    decide (s.dev.wr = []) && decide (n = ((greg s.dev c t A).toNat + k.toNat) % 2 ^ 32) && decide (n < 1024) && decide (l.owner = none) && decide (IssuesSeq d c t (encK 0x31 0 A 0 k))) &&
  (
    let s : State := iss (encK 0x31 0 6 0 4) [(6, 5)] id (lk { owner := some 7 } (thrU 1 7 (fun x => { x with st := .running })))
    let c : Nat := 1
    let t : Nat := 3
    let A : BitVec 5 := 6
    let k : BitVec 12 := 4
    let n : Nat := 9
    let d := s.dev
    let l := glock d c n
    let o := 7
    decide (s.dev.wr = []) && decide (n = ((greg s.dev c t A).toNat + k.toNat) % 2 ^ 32) && decide (n < 1024) && decide (l.owner = some o) && decide (o ≠ t) && decide ((thr d c o).st = .running) && decide (IssuesSeq d c t (encK 0x31 0 A 0 k))) &&
  (
    let s : State := iss (encK 0x31 5 6 1 4) [(6, 5)] id (lk { broken := true })
    let c : Nat := 1
    let t : Nat := 3
    let D : BitVec 5 := 5
    let A : BitVec 5 := 6
    let k : BitVec 12 := 4
    let n : Nat := 9
    let d := s.dev
    let l := glock d c n
    decide (s.dev.wr = []) && decide (n = ((greg s.dev c t A).toNat + k.toNat) % 2 ^ 32) && decide (n < 1024) && decide (l.owner = none) && decide (IssuesSeq d c t (encK 0x31 D A 1 k))) &&
  (
    let s : State := iss (encK 0x31 0 6 1 4) [(6, 5)] id (lk { broken := true })
    let c : Nat := 1
    let t : Nat := 3
    let D : BitVec 5 := 0
    let A : BitVec 5 := 6
    let k : BitVec 12 := 4
    let n : Nat := 9
    let d := s.dev
    let l := glock d c n
    decide (s.dev.wr = []) && decide (n = ((greg s.dev c t A).toNat + k.toNat) % 2 ^ 32) && decide (n < 1024) && decide (l.owner = none) && decide (IssuesSeq d c t (encK 0x31 D A 1 k))) &&
  (
    let s : State := iss (encK 0x31 5 6 1 4) [(6, 5)] id (lk { owner := some 7 })
    let c : Nat := 1
    let t : Nat := 3
    let D : BitVec 5 := 5
    let A : BitVec 5 := 6
    let k : BitVec 12 := 4
    let n : Nat := 9
    let d := s.dev
    let l := glock d c n
    let o := 7
    decide (s.dev.wr = []) && decide (n = ((greg s.dev c t A).toNat + k.toNat) % 2 ^ 32) && decide (n < 1024) && decide (l.owner = some o) && decide (o ≠ t) && decide (IssuesSeq d c t (encK 0x31 D A 1 k))) &&
  (
    let s : State := iss (encK 0x31 0 6 2 4) [(6, 5)] id (lk { owner := some 3 })
    let c : Nat := 1
    let t : Nat := 3
    let A : BitVec 5 := 6
    let k : BitVec 12 := 4
    let n : Nat := 9
    let d := s.dev
    let l := glock d c n
    decide (s.dev.wr = []) && decide (n = ((greg s.dev c t A).toNat + k.toNat) % 2 ^ 32) && decide (n < 1024) && decide (l.owner = some t) && decide (l.waiters = []) && decide (IssuesSeq d c t (encK 0x31 0 A 2 k))) &&
  (
    let s : State := iss (encK 0x31 0 6 2 4) [(6, 5)] id (lk { owner := some 3, waiters := [7, 8] })
    let c : Nat := 1
    let t : Nat := 3
    let A : BitVec 5 := 6
    let k : BitVec 12 := 4
    let n : Nat := 9
    let d := s.dev
    let l := glock d c n
    let w := 7
    let rest := [8]
    decide (s.dev.wr = []) && decide (n = ((greg s.dev c t A).toNat + k.toNat) % 2 ^ 32) && decide (n < 1024) && decide (l.owner = some t) && decide (l.waiters = w :: rest) && decide (w ≠ t) && decide (IssuesSeq d c t (encK 0x31 0 A 2 k))) &&
  (
    let s : State := iss (encK 0x31 0 6 3 4) [(6, 5)] id (ev { count := 2 })
    let c : Nat := 1
    let t : Nat := 3
    let A : BitVec 5 := 6
    let k : BitVec 12 := 4
    let n : Nat := 9
    let d := s.dev
    let e := gevent d c n
    decide (s.dev.wr = []) && decide (n = ((greg s.dev c t A).toNat + k.toNat) % 2 ^ 32) && decide (n < 256) && decide (0 < e.count) && decide (IssuesSeq d c t (encK 0x31 0 A 3 k))) &&
  (
    let s : State := iss (encK 0x31 0 6 3 4) [(6, 5)] id (ev { waiters := [7] })
    let c : Nat := 1
    let t : Nat := 3
    let A : BitVec 5 := 6
    let k : BitVec 12 := 4
    let n : Nat := 9
    let d := s.dev
    let e := gevent d c n
    decide (s.dev.wr = []) && decide (n = ((greg s.dev c t A).toNat + k.toNat) % 2 ^ 32) && decide (n < 256) && decide (e.count = 0) && decide (IssuesSeq d c t (encK 0x31 0 A 3 k))) &&
  (
    let s : State := iss (encK 0x31 0 6 4 4) [(6, 5)] id (ev { count := 2 })
    let c : Nat := 1
    let t : Nat := 3
    let A : BitVec 5 := 6
    let k : BitVec 12 := 4
    let n : Nat := 9
    let d := s.dev
    let e := gevent d c n
    decide (s.dev.wr = []) && decide (n = ((greg s.dev c t A).toNat + k.toNat) % 2 ^ 32) && decide (n < 256) && decide (e.waiters = []) && decide (e.count < 65535) && decide (IssuesSeq d c t (encK 0x31 0 A 4 k))) &&
  (
    let s : State := iss (encK 0x31 5 6 5 4) [(6, 5), (5, 3), (6, 5), (7, 0x010A0000)]
    let c : Nat := 1
    let t : Nat := 3
    let D : BitVec 5 := 5
    let A : BitVec 5 := 6
    let k : BitVec 12 := 4
    let n : Nat := 9
    let d := s.dev
    let sec := (greg d c t D).toNat % 2 ^ 48
    let ns := (greg d c t (D + 1)).toNat % 2 ^ 32
    let v2 := (greg d c t (D + 2)).toNat
    let dl := (sec * 1000000000 + ns) * 2 ^ 48 + v2 % 2 ^ 16 * 2 ^ 32
    decide (s.dev.wr = []) && decide (n = ((greg s.dev c t A).toNat + k.toNat) % 2 ^ 32) && decide (n < 32) && decide (strPresent d (bitsOf v2 26 24) = true) && decide (ns < 1000000000) && decide ((rep d (gIsland c) (bitsOf v2 26 24)).t < dl) && decide (IssuesSeq d c t (encK 0x31 D A 5 k))) &&
  (
    let s : State := iss (encK 0x31 5 6 6 4) [(6, 5), (5, 0x0A00000010)]
    let c : Nat := 1
    let t : Nat := 3
    let D : BitVec 5 := 5
    let A : BitVec 5 := 6
    let k : BitVec 12 := 4
    let n : Nat := 9
    let d := s.dev
    let v := (greg d c t D).toNat
    decide (s.dev.wr = []) && decide (n = ((greg s.dev c t A).toNat + k.toNat) % 2 ^ 32) && decide (n < 32) && decide (v % 2 ^ 32 ≠ 0) && decide (IssuesSeq d c t (encK 0x31 D A 6 k)))) = true := by decide +kernel
end WKeystoneInstructionsActOnTheirUnit

/-! LedgerCommandsAreServed -/
namespace WLedgerCommandsAreServed
def dv (n : Nat) (x : Drv) (d : Dev := onDev) : Dev := drvU n (fun _ => x) d
def ok7 : Drv := { st := 7, present := true, up := true, slabs := 100 }
def onL : Dev := { onDev with variant := .l }
def vol (d : Dev) : Dev := ledU (fun l => { l with volume := zeros 16 }) d
/-- States and operands that meet the hypotheses of LedgerCommandsAreServed. -/
theorem test_witness : (
  (
    let s : State := st (vol (dv 0 ok7 (dv 1 { ok7 with st := 3 })))
    let c : Cmd := cmd 0 [(16,1,1)]
    let d := s.dev
    let n := c.f 16 1
    let force := bitOf (c.f 17 1) 0
    let mate := drvMember d (partner n)
    let st := (drv d n).st
    let adoptSt := ledgStatus d c [(16, 1), (17, 1)] (decide (3 < n) || decide (1 < c.f 17 1))
        [(decide (unitStatus d (dIsland n) ≠ 0), unitStatus d (dIsland n)),
         (!([3, 4].contains st && (mate || force) && decide (d.ledger.volume ≠ [])), stBadState)]
    decide (mate = true) && decide (adoptSt = 0)) &&
  (
    let s : State := st (vol (dv 1 { ok7 with st := 4 }))
    let c : Cmd := cmd 0 [(16,1,1),(17,1,1)]
    let d := s.dev
    let n := c.f 16 1
    let force := bitOf (c.f 17 1) 0
    let mate := drvMember d (partner n)
    let st := (drv d n).st
    let adoptSt := ledgStatus d c [(16, 1), (17, 1)] (decide (3 < n) || decide (1 < c.f 17 1))
        [(decide (unitStatus d (dIsland n) ≠ 0), unitStatus d (dIsland n)),
         (!([3, 4].contains st && (mate || force) && decide (d.ledger.volume ≠ [])), stBadState)]
    decide (mate = false) && decide (st = 4) && decide (adoptSt = 0)) &&
  (
    let s : State := st (vol (dv 1 { ok7 with st := 3 }))
    let c : Cmd := cmd 0 [(16,1,1),(17,1,1)]
    let d := s.dev
    let n := c.f 16 1
    let force := bitOf (c.f 17 1) 0
    let mate := drvMember d (partner n)
    let st := (drv d n).st
    let adoptSt := ledgStatus d c [(16, 1), (17, 1)] (decide (3 < n) || decide (1 < c.f 17 1))
        [(decide (unitStatus d (dIsland n) ≠ 0), unitStatus d (dIsland n)),
         (!([3, 4].contains st && (mate || force) && decide (d.ledger.volume ≠ [])), stBadState)]
    decide (mate = false) && decide (st = 3) && decide (adoptSt = 0)) &&
  (
    let s : State := st (dv 0 ok7 (dv 1 { ok7 with st := 3 }))
    let c : Cmd := cmd 0 [(16,1,1)]
    let d := s.dev
    let n := c.f 16 1
    let force := bitOf (c.f 17 1) 0
    let mate := drvMember d (partner n)
    let st := (drv d n).st
    let adoptSt := ledgStatus d c [(16, 1), (17, 1)] (decide (3 < n) || decide (1 < c.f 17 1))
        [(decide (unitStatus d (dIsland n) ≠ 0), unitStatus d (dIsland n)),
         (!([3, 4].contains st && (mate || force) && decide (d.ledger.volume ≠ [])), stBadState)]
    decide (adoptSt ≠ 0)) &&
  (
    let s : State := st (dv 0 ok7 (dv 1 ok7))
    let c : Cmd := cmd 0 [(16,1,1)]
    let d := s.dev
    let n := c.f 16 1
    let force := bitOf (c.f 17 1) 0
    let mate := drvMember d (partner n)
    decide ((ledgStatus d c [(16, 1), (17, 1)] (decide (3 < n) || decide (1 < c.f 17 1)) [(decide (unitStatus d (dIsland n) ≠ 0), unitStatus d (dIsland n)), (!(drvMember d n && (mate || force)), stBadState)]) = 0)) &&
  (
    let s : State := st (dv 1 ok7)
    let c : Cmd := cmd 0 [(16,1,1),(17,1,1)]
    let d := s.dev
    let n := c.f 16 1
    let force := bitOf (c.f 17 1) 0
    let mate := drvMember d (partner n)
    decide ((ledgStatus d c [(16, 1), (17, 1)] (decide (3 < n) || decide (1 < c.f 17 1)) [(decide (unitStatus d (dIsland n) ≠ 0), unitStatus d (dIsland n)), (!(drvMember d n && (mate || force)), stBadState)]) = 0)) &&
  (
    let s : State := s0
    let c : Cmd := cmd 0 [(20,4,3)]
    let d := s.dev
    let n := c.f 16 1
    let p := n / 2
    let np := numPairs d.variant
    let there := fun n => [3, 4, 7].contains (drv d n).st
    let pairS := fun p => min 130048 (([2 * p, 2 * p + 1].filter there).foldl (fun (a : Option Nat) n =>
      some (match a with
        | none => (drv d n).slabs
        | some m => min m (drv d n).slabs)) (none : Option Nat) |>.getD 0)
    let fmtSt := ledgStatus d c [(20, 4)]
        (decide (c.f 20 4 % np ≠ 0) || decide (c.f 20 4 < np) || decide (np * (List.range np).foldl (fun (a : Nat) p => min a (pairS p)) 130048 < c.f 20 4))
        [(witEnAct d || anyIoSq d || (List.range (2 * np)).any (fun n => decide ((drv d n).st = 6)), stBadState)]
    decide (fmtSt ≠ 0)) &&
  (
    let s : State := st (dv 0 { ok7 with st := 3 } (dv 1 { ok7 with st := 3 } onL))
    let c : Cmd := cmd 0 [(20,4,3)]
    let d := s.dev
    decide (c.fn = 0) && decide (cmdSelf c ≠ none) && decide (reservedOk c [(20, 4)] = true) && decide (d.variant = .l) && decide (islandOn d 48 = true) && decide (c.tcq = none) && decide ((drv d 0).st = 3) && decide ((drv d 1).st = 3) && decide (1 ≤ c.f 20 4) && decide (c.f 20 4 ≤ min 130048 (min (drv d 0).slabs (drv d 1).slabs)) && decide (witEnAct d = false) && decide (anyIoSq d = false)) &&
  (
    let s : State := st (ctrInc (drvCtr 1 8) onDev)
    let c : Cmd := cmd 0 [(17,1,1),(24,8,64)]
    let d := s.dev
    decide ((ledgStatus d c [(17, 1), (24, 8)] (decide (1 < c.f 17 1) || decide (c.f 24 8 % 64 ≠ 0)) []) = 0))) = true := by decide +kernel
end WLedgerCommandsAreServed

/-! LoadsReadTheirBytes -/
namespace WLoadsReadTheirBytes
def dmem (p : Nat) : Dev := inMem (spc onDev (coreSpace 1 0)) 0x40 [0x81, 0x92, 0xA3, 0xB4, 0xC5, 0xD6, 0xE7, 0xF8] onDev
def cmem : Dev := inMem (spc onDev (clusterSpace 1)) 0x40 [0x81, 0x92, 0xA3, 0xB4, 0xC5, 0xD6, 0xE7, 0xF8] onDev
def wmem : Dev := inMem (spc onDev (windowSpace 1 3)) 0x41 [0x81, 0x92, 0xA3, 0xB4, 0xC5, 0xD6, 0xE7, 0xF8] onDev
/-- States and operands that meet the hypotheses of LoadsReadTheirBytes. -/
theorem test_witness : (
  (
    let s : State := iss (encI 0x10 5 6 0xFFF0) [(6, 0x50)] id (dmem 0)
    let c : Nat := 1
    let t : Nat := 3
    let D : BitVec 5 := 5
    let A : BitVec 5 := 6
    let imm : BitVec 16 := 0xFFF0
    let ea := (greg s.dev c t A + imm.signExtend 64).toNat % 2 ^ 32
    let p : GPlace := .data 0x40
    decide (s.dev.wr = []) && decide (placeOf ea 1 = some p ∧ ea % 1 = 0 ∧ (match p with | .dram _ => false | _ => true) = true) && decide (IssuesSeq s.dev c t (encI 0x10 D A imm))) &&
  (
    let s : State := iss (encI 0x10 5 6 0xFFF0) [(6, 0x1000050)] id cmem
    let c : Nat := 1
    let t : Nat := 3
    let D : BitVec 5 := 5
    let A : BitVec 5 := 6
    let imm : BitVec 16 := 0xFFF0
    let ea := (greg s.dev c t A + imm.signExtend 64).toNat % 2 ^ 32
    let p : GPlace := .cluster 0x40
    decide (s.dev.wr = []) && decide (placeOf ea 1 = some p ∧ ea % 1 = 0 ∧ (match p with | .dram _ => false | _ => true) = true) && decide (IssuesSeq s.dev c t (encI 0x10 D A imm))) &&
  (
    let s : State := iss (encI 0x11 5 6 0xFFF0) [(6, 0x50)] id (dmem 0)
    let c : Nat := 1
    let t : Nat := 3
    let D : BitVec 5 := 5
    let A : BitVec 5 := 6
    let imm : BitVec 16 := 0xFFF0
    let ea := (greg s.dev c t A + imm.signExtend 64).toNat % 2 ^ 32
    let p : GPlace := .data 0x40
    decide (s.dev.wr = []) && decide (placeOf ea 1 = some p ∧ ea % 1 = 0 ∧ (match p with | .dram _ => false | _ => true) = true) && decide (IssuesSeq s.dev c t (encI 0x11 D A imm))) &&
  (
    let s : State := iss (encI 0x12 5 6 0xFFF0) [(6, 0x50)] id (dmem 0)
    let c : Nat := 1
    let t : Nat := 3
    let D : BitVec 5 := 5
    let A : BitVec 5 := 6
    let imm : BitVec 16 := 0xFFF0
    let ea := (greg s.dev c t A + imm.signExtend 64).toNat % 2 ^ 32
    let p : GPlace := .data 0x40
    decide (s.dev.wr = []) && decide (placeOf ea 2 = some p ∧ ea % 2 = 0 ∧ (match p with | .dram _ => false | _ => true) = true) && decide (IssuesSeq s.dev c t (encI 0x12 D A imm))) &&
  (
    let s : State := iss (encI 0x13 5 6 0xFFF0) [(6, 0x50)] id (dmem 0)
    let c : Nat := 1
    let t : Nat := 3
    let D : BitVec 5 := 5
    let A : BitVec 5 := 6
    let imm : BitVec 16 := 0xFFF0
    let ea := (greg s.dev c t A + imm.signExtend 64).toNat % 2 ^ 32
    let p : GPlace := .data 0x40
    decide (s.dev.wr = []) && decide (placeOf ea 2 = some p ∧ ea % 2 = 0 ∧ (match p with | .dram _ => false | _ => true) = true) && decide (IssuesSeq s.dev c t (encI 0x13 D A imm))) &&
  (
    let s : State := iss (encI 0x14 5 6 0xFFF0) [(6, 0x50)] id (dmem 0)
    let c : Nat := 1
    let t : Nat := 3
    let D : BitVec 5 := 5
    let A : BitVec 5 := 6
    let imm : BitVec 16 := 0xFFF0
    let ea := (greg s.dev c t A + imm.signExtend 64).toNat % 2 ^ 32
    let p : GPlace := .data 0x40
    decide (s.dev.wr = []) && decide (placeOf ea 4 = some p ∧ ea % 4 = 0 ∧ (match p with | .dram _ => false | _ => true) = true) && decide (IssuesSeq s.dev c t (encI 0x14 D A imm))) &&
  (
    let s : State := iss (encI 0x15 5 6 0xFFF0) [(6, 0x50)] id (dmem 0)
    let c : Nat := 1
    let t : Nat := 3
    let D : BitVec 5 := 5
    let A : BitVec 5 := 6
    let imm : BitVec 16 := 0xFFF0
    let ea := (greg s.dev c t A + imm.signExtend 64).toNat % 2 ^ 32
    let p : GPlace := .data 0x40
    decide (s.dev.wr = []) && decide (placeOf ea 4 = some p ∧ ea % 4 = 0 ∧ (match p with | .dram _ => false | _ => true) = true) && decide (IssuesSeq s.dev c t (encI 0x15 D A imm))) &&
  (
    let s : State := iss (encI 0x16 5 6 0xFFF0) [(6, 0x50)] id (dmem 0)
    let c : Nat := 1
    let t : Nat := 3
    let D : BitVec 5 := 5
    let A : BitVec 5 := 6
    let imm : BitVec 16 := 0xFFF0
    let ea := (greg s.dev c t A + imm.signExtend 64).toNat % 2 ^ 32
    let p : GPlace := .data 0x40
    decide (s.dev.wr = []) && decide (placeOf ea 8 = some p ∧ ea % 8 = 0 ∧ (match p with | .dram _ => false | _ => true) = true) && decide (IssuesSeq s.dev c t (encI 0x16 D A imm))) &&
  (
    let s : State := iss (encI 0x16 5 6 0xFFF0) [(6, 0x1000050)] id cmem
    let c : Nat := 1
    let t : Nat := 3
    let D : BitVec 5 := 5
    let A : BitVec 5 := 6
    let imm : BitVec 16 := 0xFFF0
    let ea := (greg s.dev c t A + imm.signExtend 64).toNat % 2 ^ 32
    let p : GPlace := .cluster 0x40
    decide (s.dev.wr = []) && decide (placeOf ea 8 = some p ∧ ea % 8 = 0 ∧ (match p with | .dram _ => false | _ => true) = true) && decide (IssuesSeq s.dev c t (encI 0x16 D A imm))) &&
  (
    let s : State := iss (encI 0xC 5 6 0xFFF0) [(6, 0x51)] id wmem
    let c : Nat := 1
    let t : Nat := 3
    let D : BitVec 5 := 5
    let A : BitVec 5 := 6
    let imm : BitVec 16 := 0xFFF0
    let ea := (greg s.dev c t A + imm.signExtend 64).toNat % 2 ^ 32
    decide (s.dev.wr = []) && decide (ea + 1 ≤ 256) && decide (IssuesSeq s.dev c t (encI 0xC D A imm))) &&
  (
    let s : State := iss (encI 0xD 5 6 0xFFF0) [(6, 0x51)] id wmem
    let c : Nat := 1
    let t : Nat := 3
    let D : BitVec 5 := 5
    let A : BitVec 5 := 6
    let imm : BitVec 16 := 0xFFF0
    let ea := (greg s.dev c t A + imm.signExtend 64).toNat % 2 ^ 32
    decide (s.dev.wr = []) && decide (ea + 2 ≤ 256) && decide (IssuesSeq s.dev c t (encI 0xD D A imm))) &&
  (
    let s : State := iss (encI 0xE 5 6 0xFFF0) [(6, 0x51)] id wmem
    let c : Nat := 1
    let t : Nat := 3
    let D : BitVec 5 := 5
    let A : BitVec 5 := 6
    let imm : BitVec 16 := 0xFFF0
    let ea := (greg s.dev c t A + imm.signExtend 64).toNat % 2 ^ 32
    decide (s.dev.wr = []) && decide (ea + 4 ≤ 256) && decide (IssuesSeq s.dev c t (encI 0xE D A imm))) &&
  (
    let s : State := iss (encI 0xF 5 6 0xFFF0) [(6, 0x51)] id wmem
    let c : Nat := 1
    let t : Nat := 3
    let D : BitVec 5 := 5
    let A : BitVec 5 := 6
    let imm : BitVec 16 := 0xFFF0
    let ea := (greg s.dev c t A + imm.signExtend 64).toNat % 2 ^ 32
    decide (s.dev.wr = []) && decide (ea + 8 ≤ 256) && decide (IssuesSeq s.dev c t (encI 0xF D A imm)))) = true := by decide +kernel
end WLoadsReadTheirBytes

/-! LoggedWritesMarkTheirPage -/
namespace WLoggedWritesMarkTheirPage
def lg : DirtyLog := { bitmap := 4096, iovaBase := 8192, pages := 9, pf := 0 }
def dl : Dev := (fnU 5 (fun x => { x with log := some lg }) onDev)
/-- States and operands that meet the hypotheses of LoggedWritesMarkTheirPage. -/
theorem test_witness : (
  (
    let d : Dev := dl
    let f : Nat := 5
    let a : Nat := 12288
    let l : DirtyLog := lg
    let p := (a - l.iovaBase) / 4096
    decide (d.wr = []) && decide ((fn d f).log = some l) && decide (l.running = true) && decide (l.iovaBase ≤ a) && decide (p < l.pages)) &&
  (
    let d : Dev := dl
    let f : Nat := 5
    let a : Nat := 12288000
    let l : DirtyLog := lg
    let p := (a - l.iovaBase) / 4096
    decide (d.wr = []) && decide ((fn d f).log = some l) && decide (l.running = true) && decide (l.iovaBase ≤ a) && decide (l.pages ≤ p))) = true := by decide +kernel
end WLoggedWritesMarkTheirPage

/-! LookupTimeAndWorkInstructions -/
namespace WLookupTimeAndWorkInstructions
def fr : Frame := { bytes := zeros 60, port := 1 }
def it (b : Nat := 999999999999) : GItem := { gate := 2, number := 7, frame := fr, start := some 0, budget := b }
def wi (b : Nat := 9999) (x : GThr) : GThr := { x with item := some (it b) }
def ent : Bytes := zeros 48 ++ [1, 0, 0, 0, 2, 1, 0, 0, 9, 9, 9, 9, 9, 9, 9, 9]
def dt : Dev := inEff (tblKey 2 0) 0x8000000A { onDev with tables := [(2, { ents := [⟨ent, none⟩] })] }
/-- States and operands that meet the hypotheses of LookupTimeAndWorkInstructions. -/
theorem test_witness : (
  (
    let s : State := iss (encK 0x30 5 6 0 2) [(6, 0x40)]
    let c : Nat := 1
    let t : Nat := 3
    let D : BitVec 5 := 5
    let A : BitVec 5 := 6
    let tbl : BitVec 3 := 2
    let d := s.dev
    let a := (greg d c t A).toNat
    let ready (p : GPlace) : Prop := placeOf a 48 = some p ∧ a % 64 = 0 ∧ (p = .data a ∨ p = .cluster (a - 0x1000000))
    let p : GPlace := .data 0x40
    decide (s.dev.wr = []) && decide (ready p) && decide ((tblEn d tbl.toNat = false ∨ tablesOn d = false)) && decide (IssuesSeq d c t (encK 0x30 D A 0 (tbl.setWidth 12)))) &&
  (
    let s : State := iss (encK 0x30 5 6 0 2) [(6, 0x1000040)]
    let c : Nat := 1
    let t : Nat := 3
    let D : BitVec 5 := 5
    let A : BitVec 5 := 6
    let tbl : BitVec 3 := 2
    let d := s.dev
    let a := (greg d c t A).toNat
    let ready (p : GPlace) : Prop := placeOf a 48 = some p ∧ a % 64 = 0 ∧ (p = .data a ∨ p = .cluster (a - 0x1000000))
    let p : GPlace := .cluster 0x40
    decide (s.dev.wr = []) && decide (ready p) && decide ((tblEn d tbl.toNat = false ∨ tablesOn d = false)) && decide (IssuesSeq d c t (encK 0x30 D A 0 (tbl.setWidth 12)))) &&
  (
    let s : State := iss (encK 0x30 5 6 0 2) [(6, 0x40)] id dt
    let c : Nat := 1
    let t : Nat := 3
    let D : BitVec 5 := 5
    let A : BitVec 5 := 6
    let tbl : BitVec 3 := 2
    let d := s.dev
    let a := (greg d c t A).toNat
    let key (p : GPlace) := rd d (placeAt d c t p).1 (placeAt d c t p).2 48
    let ready (p : GPlace) : Prop := placeOf a 48 = some p ∧ a % 64 = 0 ∧ (p = .data a ∨ p = .cluster (a - 0x1000000))
    let p : GPlace := .data 0x40
    let e := ent
    decide (s.dev.wr = []) && decide (ready p) && decide (tblEn d tbl.toNat = true) && decide (tablesOn d = true) && decide (tblDram d tbl.toNat = false) && decide (lookup d tbl.toNat (key p) = some e) && decide (IssuesSeq d c t (encK 0x30 D A 0 (tbl.setWidth 12)))) &&
  (
    let s : State := iss (encK 0x33 5 0 0 0) [(6, 0x40)]
    let c : Nat := 1
    let t : Nat := 3
    let D : BitVec 5 := 5
    let st : BitVec 3 := 0
    let d := s.dev
    decide (s.dev.wr = []) && decide (strPresent d st.toNat = true) && decide (IssuesSeq d c t (encK 0x33 D 0 0 (st.setWidth 12)))) &&
  (
    let s : State := iss (encK 0x33 5 0 0 7) [(6, 0x40)] id { onDev with variant := .l }
    let c : Nat := 1
    let t : Nat := 3
    let D : BitVec 5 := 5
    let st : BitVec 3 := 7
    let d := s.dev
    decide (s.dev.wr = []) && decide (strPresent d st.toNat = false) && decide (IssuesSeq d c t (encK 0x33 D 0 0 (st.setWidth 12)))) &&
  (
    let s : State := iss (encK 0x34 5 6 0 4) []
    let c : Nat := 1
    let t : Nat := 3
    let D : BitVec 5 := 5
    let A : BitVec 5 := 6
    let k : BitVec 12 := 4
    let d := s.dev
    let x := thr d c t
    decide (s.dev.wr = []) && decide (x.item = none) && decide (x.moved = false) && decide (IssuesSeq d c t (encK 0x34 D A 0 k))) &&
  (
    let s : State := iss (encK 0x34 0 6 2 4) [(6, 77)] wi
    let c : Nat := 1
    let t : Nat := 3
    let A : BitVec 5 := 6
    let k : BitVec 12 := 4
    let d := s.dev
    decide (s.dev.wr = []) && decide (IssuesSeq d c t (encK 0x34 0 A 2 k))) &&
  (
    let s : State := iss (encK 0x34 0 6 1 0) [(6, 77)] wi
    let c : Nat := 1
    let t : Nat := 3
    let A : BitVec 5 := 6
    let d := s.dev
    let x := thr d c t
    let a := (greg d c t A).toNat
    let q := a % 2 ^ 32
    let vd : BitVec 2 := 0
    let r : Bool := false
    let i := it 9999
    decide (s.dev.wr = []) && decide (x.item = some i) && decide (itemCycles d x + (if (gcore d c (t / 8)).paired then 1 else 8) ≤ i.budget) && decide (vd ≠ 3) && decide ((vd = 2 → q = discardQ ∨ qKind q = 0 ∨ qKind q = 3)) && decide (IssuesSeq d c t (encK 0x34 0 A 1 (BitVec.ofNat 12 (vd.toNat + 4 * b2n r))))) &&
  (
    let s : State := iss (encK 0x34 0 6 1 1) [(6, 77)] wi
    let c : Nat := 1
    let t : Nat := 3
    let A : BitVec 5 := 6
    let d := s.dev
    let x := thr d c t
    let a := (greg d c t A).toNat
    let q := a % 2 ^ 32
    let vd : BitVec 2 := 1
    let r : Bool := false
    let i := it 9999
    decide (s.dev.wr = []) && decide (x.item = some i) && decide (itemCycles d x + (if (gcore d c (t / 8)).paired then 1 else 8) ≤ i.budget) && decide (vd ≠ 3) && decide ((vd = 2 → q = discardQ ∨ qKind q = 0 ∨ qKind q = 3)) && decide (IssuesSeq d c t (encK 0x34 0 A 1 (BitVec.ofNat 12 (vd.toNat + 4 * b2n r))))) &&
  (
    let s : State := iss (encK 0x34 0 6 1 6) [(6, 77)] wi
    let c : Nat := 1
    let t : Nat := 3
    let A : BitVec 5 := 6
    let d := s.dev
    let x := thr d c t
    let a := (greg d c t A).toNat
    let q := a % 2 ^ 32
    let vd : BitVec 2 := 2
    let r : Bool := true
    let i := it 9999
    decide (s.dev.wr = []) && decide (x.item = some i) && decide (itemCycles d x + (if (gcore d c (t / 8)).paired then 1 else 8) ≤ i.budget) && decide (vd ≠ 3) && decide ((vd = 2 → q = discardQ ∨ qKind q = 0 ∨ qKind q = 3)) && decide (IssuesSeq d c t (encK 0x34 0 A 1 (BitVec.ofNat 12 (vd.toNat + 4 * b2n r))))) &&
  (
    let s : State := iss (encK 0x34 0 6 1 5) [(6, 0xFFFFFFFF)] wi
    let c : Nat := 1
    let t : Nat := 3
    let A : BitVec 5 := 6
    let d := s.dev
    let x := thr d c t
    let a := (greg d c t A).toNat
    let q := a % 2 ^ 32
    let vd : BitVec 2 := 1
    let r : Bool := true
    let i := it 9999
    decide (s.dev.wr = []) && decide (x.item = some i) && decide (itemCycles d x + (if (gcore d c (t / 8)).paired then 1 else 8) ≤ i.budget) && decide (vd ≠ 3) && decide ((vd = 2 → q = discardQ ∨ qKind q = 0 ∨ qKind q = 3)) && decide (IssuesSeq d c t (encK 0x34 0 A 1 (BitVec.ofNat 12 (vd.toNat + 4 * b2n r))))) &&
  (
    let s : State := iss (encK 0x34 0 6 1 2) [(6, 0xFFFFFFFF)] wi
    let c : Nat := 1
    let t : Nat := 3
    let A : BitVec 5 := 6
    let d := s.dev
    let x := thr d c t
    let a := (greg d c t A).toNat
    let q := a % 2 ^ 32
    let vd : BitVec 2 := 2
    let r : Bool := false
    let i := it 9999
    decide (s.dev.wr = []) && decide (x.item = some i) && decide (itemCycles d x + (if (gcore d c (t / 8)).paired then 1 else 8) ≤ i.budget) && decide (vd ≠ 3) && decide ((vd = 2 → q = discardQ ∨ qKind q = 0 ∨ qKind q = 3)) && decide (IssuesSeq d c t (encK 0x34 0 A 1 (BitVec.ofNat 12 (vd.toNat + 4 * b2n r))))) &&
  (
    let s : State := iss (encK 0x35 5 0 0 1) []
    let c : Nat := 1
    let t : Nat := 3
    let D : BitVec 5 := 5
    let d := s.dev
    decide (s.dev.wr = []) && decide (IssuesSeq d c t (encK 0x35 D 0 0 1))) &&
  (
    let s : State := iss (encK 0x35 5 0 0 0) [] wi
    let c : Nat := 1
    let t : Nat := 3
    let D : BitVec 5 := 5
    let d := s.dev
    decide (s.dev.wr = []) && decide (IssuesSeq d c t (encK 0x35 D 0 0 0))) &&
  (
    let s : State := iss (encK 0x35 5 0 0 2) []
    let c : Nat := 1
    let t : Nat := 3
    let D : BitVec 5 := 5
    let d := s.dev
    decide (s.dev.wr = []) && decide (IssuesSeq d c t (encK 0x35 D 0 0 2))) &&
  (
    let s : State := iss (encK 0x35 5 0 0 3) [] wi
    let c : Nat := 1
    let t : Nat := 3
    let D : BitVec 5 := 5
    let d := s.dev
    decide (s.dev.wr = []) && decide (IssuesSeq d c t (encK 0x35 D 0 0 3))) &&
  (
    let s : State := iss (encK 0x35 5 0 0 3) []
    let c : Nat := 1
    let t : Nat := 3
    let D : BitVec 5 := 5
    let d := s.dev
    decide (s.dev.wr = []) && decide (IssuesSeq d c t (encK 0x35 D 0 0 3))) &&
  (
    let s : State := iss (encK 0x35 5 0 0 4) [] wi
    let c : Nat := 1
    let t : Nat := 3
    let D : BitVec 5 := 5
    let d := s.dev
    decide (s.dev.wr = []) && decide (IssuesSeq d c t (encK 0x35 D 0 0 4)))) = true := by decide +kernel
end WLookupTimeAndWorkInstructions

/-! ManagementBusAnswersItsMessages -/
namespace WManagementBusAnswersItsMessages
def run (d : Dev := onDev) : State := st { d with foot := { boot := .running, pg := true, healthy := true, lifecycle := 1 } }
/-- States and operands that meet the hypotheses of ManagementBusAnswersItsMessages. -/
theorem test_witness : (
  (
    let s : State := run
    let d := s.dev
    decide (d.foot.boot ≠ .held)) &&
  (
    let s : State := st onDev
    let d := s.dev
    decide (d.foot.boot = .held)) &&
  (
    let s : State := run
    let a : Nat := 2
    let b : Nat := 1
    let d := s.dev
    decide (d.foot.boot ≠ .held) && decide (1 ≤ b) && decide (b ≤ 8) && decide (a + b ≤ 256)) &&
  (
    let s : State := run
    let a : Nat := 2
    let b : Nat := 9
    let d := s.dev
    decide (d.foot.boot ≠ .held) && decide (b = 0 ∨ 8 < b ∨ 256 < a + b)) &&
  (
    let s : State := run
    let d := s.dev
    decide (busFull d = true)) &&
  (
    let s : State := run { onDev with fatal := true }
    let d := s.dev
    decide (d.fatal = true)) &&
  (
    let s : State := run
    let d := s.dev
    decide (bridgeUp d = true) && decide (d.foot.pg = true)) &&
  (
    let s : State := run
    let a : Nat := 2
    let d := s.dev
    decide (bridgeUp d = true) && decide (a ≠ 0x4D524157)) &&
  (
    let s : State := run
    let a : Nat := 9
    let b : Nat := 1
    let ep : Nat := 0
    let d := s.dev
    decide (epUp d ep = true) && decide (b ≤ 1) && decide (1 ≤ a) && decide (a ≤ 0xFE)) &&
  (
    let s : State := run
    let ep : Nat := 0
    let d := s.dev
    decide (epUp d ep = true)) &&
  (
    let s : State := run
    let a : Nat := 5
    let d := s.dev
    decide (busFull d = true) && decide (a ∈ [0xFF, 0, 1, 5, 0x7E])) &&
  (
    let s : State := run
    let a : Nat := 7
    let d := s.dev
    decide (busFull d = true) && decide (a ∉ [0xFF, 0, 1, 5, 0x7E])) &&
  (
    let s : State := run
    let a : Nat := 2
    let d := s.dev
    decide (busFull d = true) && decide (a ∈ [0, 2, 5])) &&
  (
    let s : State := run
    let a : Nat := 77
    let d := s.dev
    decide (busFull d = true) && decide (6 < a) && decide (a ∉ sensors d)) &&
  (
    let s : State := run
    let a : Nat := 2
    let d := s.dev
    decide (busFull d = true) && decide (d.wr = []) && decide (2 ≤ a) && decide (a ≤ 4)) &&
  (
    let s : State := run
    let a : Nat := 30
    let d := s.dev
    decide (busFull d = true) && decide (1 ≤ a) && decide (a < 49) && decide (islandPresent d.variant a = true)) &&
  (
    let s : State := run
    let a : Nat := 2
    let d := s.dev
    let x := (sensors s.dev).getD 1 0
    decide (busFull d = true) && decide (a ≠ 0) && decide ((sensors d)[a - 1]? = some x)) &&
  (
    let s : State := run
    let a : Nat := 1000
    let d := s.dev
    decide (busFull d = true) && decide ((sensors d).length < a))) = true := by decide +kernel
end WManagementBusAnswersItsMessages

/-! MemoryIsScrubbedCopiedAndWatched -/
namespace WMemoryIsScrubbedCopiedAndWatched
def chn (t : Int := 0) (r : List Nat := [1, 1, 0, 0]) : DCh := { inService := true, dimms := 1, nranks := 2, ranks := r, temp := t }
def dr (r : List Nat := [1, 1, 0, 0]) (copy : Option DCopy := none) : Dev :=
  inEff 0xB00010 0x180000 { onDev with dram := { chans := [(0, chn 0 r)], rankSize := 2 ^ 16, slots := [[0, 1]], map := mapReset, copy := copy } }
/-- States and operands that meet the hypotheses of MemoryIsScrubbedCopiedAndWatched. -/
theorem test_witness : (
  (
    let s : State := st (dramU (fun x => { x with chans := [(0, { chn with scrub := 1029 })] }) dr)
    let ch : Nat := 0
    let rank : Nat := 1
    let line : Nat := 5
    let d := s.dev
    let x := dch d ch
    decide (x.inService = true) && decide (effF d 0xB00010 23 16 ≠ 0) && decide (scrubPlace d ch = some (rank, line))) &&
  (
    let s : State := st (dramU (fun x => { x with chans := [(0, { chn with scrub := 1029 })] }) dr)
    let ch : Nat := 0
    let rank : Nat := 1
    let line : Nat := 5
    let d := s.dev
    let x := dch d ch
    let r := ch * 4 + rank
    let reachable : Prop := x.inService = true ∧ rank < 4 ∧ line < rankLines d ∧ rankSt d r ∈ [1, 2, 3, 4]
    decide (x.scrub = rank * rankLines d + line) && decide (reachable)) &&
  (
    let s : State := st (inEff 0xB00010 0 dr)
    let ch : Nat := 0
    let rank : Nat := 1
    let line : Nat := 5
    let d := s.dev
    let x := dch d ch
    decide (effF d 0xB00010 23 16 = 0 ∨ x.inService = false ∨ scrubPlace d ch ≠ some (rank, line))) &&
  (
    let s : State := st (dr [5, 5, 0, 0])
    let ch : Nat := 0
    let rank : Nat := 1
    let line : Nat := 5
    let d := s.dev
    let x := dch d ch
    decide (effF d 0xB00010 23 16 = 0 ∨ x.inService = false ∨ scrubPlace d ch ≠ some (rank, line))) &&
  (
    let s : State := st dr
    let ch : Nat := 0
    let rank : Nat := 1
    let line : Nat := 5
    let d := s.dev
    let r := ch * 4 + rank
    let a := (lineAddr dr 1 5).getD 0
    decide (lineAddr d r line = some a) && decide (regionOf d a = none)) &&
  (
    let s : State := st dr
    let ch : Nat := 0
    let rank : Nat := 1
    let line : Nat := 5
    let d := s.dev
    let x := dch d ch
    let r := ch * 4 + rank
    let reachable : Prop := x.inService = true ∧ rank < 4 ∧ line < rankLines d ∧ rankSt d r ∈ [1, 2, 3, 4]
    let retries := 2
    decide (reachable) && decide (retries ≤ 3)) &&
  (
    let s : State := st dr
    let ch : Nat := 0
    let rank : Nat := 1
    let line : Nat := 5
    let d := s.dev
    let x := dch d ch
    let r := ch * 4 + rank
    let reachable : Prop := x.inService = true ∧ rank < 4 ∧ line < rankLines d ∧ rankSt d r ∈ [1, 2, 3, 4]
    decide (reachable)) &&
  (
    let s : State := st (dr [3, 4, 0, 0] (some ⟨0, 1, 7⟩))
    let d := s.dev
    let p : DCopy := ⟨0, 1, 7⟩
    decide (d.dram.copy = some p) && decide (p.pos + 1 < rankLines d)) &&
  (
    let s : State := st (dr [3, 4, 0, 0] (some ⟨0, 1, 2 ^ 10 - 1⟩))
    let d := s.dev
    let p : DCopy := ⟨0, 1, 2 ^ 10 - 1⟩
    decide (d.dram.copy = some p) && decide (rankLines d ≤ p.pos + 1) && decide (d.dram.waiting = []) && decide (p.dst < 32) && decide (p.src < 32) && decide (p.src ≠ p.dst) && decide ((dch d (p.src / 4)).ranks.length = 4) && decide ((dch d (p.dst / 4)).ranks.length = 4)) &&
  (
    let s : State := st dr
    let ch : Nat := 0
    let d := s.dev
    let x := dch d ch
    decide (x.inService = true)) &&
  (
    let s : State := st dr
    let ch : Nat := 0
    let d := s.dev
    let x := dch d ch
    let t := 90
    decide (x.inService = true) && decide (x.dimms = 1) && decide (t ≤ 95) && decide (x.hot = false)) &&
  (
    let s : State := st dr
    let ch : Nat := 0
    let d := s.dev
    let x := dch d ch
    let t := 96
    decide (x.inService = true) && decide (x.dimms = 1) && decide (95 < t) && decide (x.hot = false)) &&
  (
    let s : State := st dr
    let ch : Nat := 0
    let rank : Nat := 1
    let c : Cmd := cmd 0 [(16,1,0),(17,1,1)]
    let d := s.dev
    let r := ch * 4 + rank
    let n := c.f 16 1
    let r := n * 4 + c.f 17 1
    decide ((dramStatus c [] (decide (7 < n) || decide (3 < c.f 17 1)) (chanStatus d n ++ [(decide (rankSt d r ≠ 1), stBadState)])) = 0)) &&
  (
    let s : State := st dr
    let c : Cmd := cmd 0 [(16,1,0),(17,1,1),(24,8,0x9000)]
    let d := s.dev
    let n := c.f 16 1
    decide ((dramStatus c [(18, 1), (24, 8)] (decide (7 < n) || decide (3 < c.f 17 1) || decide (1 < c.f 18 1) || decide (c.f 24 8 % 64 ≠ 0)) (chanStatus d n)) = 0))) = true := by decide +kernel
end WMemoryIsScrubbedCopiedAndWatched

/-! ModifiesAndDeletesTouchTheirKey -/
namespace WModifiesAndDeletesTouchTheirKey
def tb3 : Dev := inEff (tblKey 3 0) 0x80000004 onDev
def ent5 : Bytes := patch (zeros 64) 0 [5]
def has5 : Dev := ltableU 3 (fun x => { x with ents := [⟨storedEnt ent5 7, some 0⟩] }) tb3
/-- States and operands that meet the hypotheses of ModifiesAndDeletesTouchTheirKey. -/
theorem test_witness : (
  (
    let d : Dev := has5
    let c : Cmd := c0
    let t : Nat := 3
    let e : Bytes := patch ent5 52 [9]
    let m := tblModify1 c t e d
    decide (e.length = 64) && decide (m.1 = 0 ∧ lookup d t (eKey e) = some (storedEnt ent5 7) ∧ lookup m.2 t (eKey e) = some (storedEnt e 7))) &&
  (
    let d : Dev := has5
    let c : Cmd := c0
    let t : Nat := 3
    let e : Bytes := ent5
    let x := tblDelete1 c t e d
    decide (e.length = 64) && decide (x.1 = 0 ∧ lookup d t (eKey e) ≠ none ∧ lookup x.2 t (eKey e) = none)) &&
  (
    let d : Dev := has5
    let c : Cmd := c0
    let t : Nat := 3
    let e : Bytes := zeros 64
    let m := tblModify1 c t e d
    let x := tblDelete1 c t e d
    decide (e.length = 64) && decide (m.1 ≠ 0 ∧ m.2 = d ∧ x.1 = 2 ∧ x.2 = d)) &&
  (
    let d : Dev := onDev
    let c : Cmd := c0
    let t : Nat := 3
    let e : Bytes := zeros 64
    let m := tblModify1 c t e d
    let x := tblDelete1 c t e d
    decide (e.length = 64) && decide (m.1 = 6 ∧ x.1 = 6 ∧ tblEn d t = false)) &&
  (
    let d : Dev := has5
    let c : Cmd := cmd 5 []
    let t : Nat := 3
    let e : Bytes := ent5
    let m := tblModify1 c t e d
    let x := tblDelete1 c t e d
    decide (e.length = 64) && decide (m.1 ≠ 0 ∧ m.2 = d ∧ x.1 = 5 ∧ x.2 = d))) = true := by decide +kernel
end WModifiesAndDeletesTouchTheirKey

/-! NamespacesAreManaged -/
namespace WNamespacesAreManaged
def qa (fs : List (Nat × Nat × Nat)) : NCmd := ncm 0 fs
def sz : Nat := 2 * slabLbas
def host0 (m : Bytes) (ns : List Nat := [5]) : Dev := inMem 0 0x9000 m (drives ns)
def att : Bytes := [1, 0, 3, 0]
def q0 : NCmd := qa [(0,1,0x0D),(24,8,0x9000)]
def q1 (k : Nat) : NCmd := qa [(0,1,0x0D),(4,4,k),(40,4,1)]
def q3 (k : Nat) : NCmd := qa [(0,1,0x15),(4,4,k),(24,8,0x9000)]
def q5 (k : Nat) : NCmd := qa [(0,1,0x80),(4,4,k)]
/-- States and operands that meet the hypotheses of NamespacesAreManaged. -/
theorem test_witness : (
  (
    let s : State := nv [q0] (host0 (leBytes 8 sz ++ leBytes 8 sz))
    let pf : Nat := 1
    let n : Nat := 0
    let q : NCmd := q0
    let segs : List (Nat × Nat) := [(0x9000, 4096)]
    let d := s.dev
    let e := taken d pf n
    let bs := gather e pf segs
    let size := le bs 0 8
    let per := size / (numPairs e.variant * slabLbas)
    let ps := List.range (numPairs e.variant)
    let free := (List.range 34).filter fun i => decide (2 ≤ i) && !(nsExists e i)
    decide (cdw q 10 % 16 = 0) && decide (dataSegs e pf q 4096 = .ok segs) && decide (size ≠ 0) && decide (size % (numPairs e.variant * slabLbas) = 0) && decide (le bs 8 8 = size) && decide (u8 bs 29 = 0) && decide (u8 bs 26 % 16 = 0) && decide (allPairsUp e = true) && decide (free ≠ []) && decide ((∀ p ∈ ps, per ≤ freeCount e p)) && decide (Starts s.dev pf n 0x0D false q)) &&
  (
    let s : State := nv [q1 5] (drives [5])
    let pf : Nat := 1
    let n : Nat := 0
    let q : NCmd := q1 5
    let d := s.dev
    let e := taken d pf n
    let ns := nNs q
    decide (cdw q 10 % 16 = 1) && decide (2 ≤ ns) && decide (ns ≤ 33) && decide (nsExists e ns = true) && decide (allPairsUp e = true) && decide (Starts s.dev pf n 0x0D false q)) &&
  (
    let s : State := nv [q1 1] (drives [5])
    let pf : Nat := 1
    let n : Nat := 0
    let q : NCmd := q1 1
    let ns := nNs q
    decide (cdw q 10 % 16 = 1) && decide (ns = 1) && decide (Starts s.dev pf n 0x0D false q)) &&
  (
    let s : State := nv [q3 5] (host0 att)
    let pf : Nat := 1
    let n : Nat := 0
    let q : NCmd := q3 5
    let segs : List (Nat × Nat) := [(0x9000, 4096)]
    let d := s.dev
    let e := taken d pf n
    let ns := nNs q
    let bs := gather e pf segs
    let ids := (List.range (min (le bs 0 2) 2047)).map fun i => le bs (2 + 2 * i) 2
    let mask := ids.foldl (fun (a : Nat) i => a ||| 2 ^ (i / 2)) 0
    decide (cdw q 10 % 16 = 0) && decide (dataSegs e pf q 4096 = .ok segs) && decide (2 ≤ ns) && decide (ns ≤ 33) && decide (nsExists e ns = true) && decide (ids ≠ []) && decide ((∀ i ∈ ids, isLedgerPf i = true)) && decide (attachMask e ns &&& mask = 0) && decide (Starts s.dev pf n 0x15 false q)) &&
  (
    let s : State := nv [q3 1] (host0 att)
    let pf : Nat := 1
    let n : Nat := 0
    let q : NCmd := q3 1
    let segs : List (Nat × Nat) := [(0x9000, 4096)]
    let d := s.dev
    let e := taken d pf n
    let ns := nNs q
    decide (cdw q 10 % 16 ≤ 1) && decide (dataSegs e pf q 4096 = .ok segs) && decide (ns = 1) && decide (Starts s.dev pf n 0x15 false q)) &&
  (
    let s : State := nv [q5 5] (attachW 5 1 (drives [5]))
    let pf : Nat := 1
    let n : Nat := 0
    let q : NCmd := q5 5
    let d := s.dev
    let e := taken d pf n
    let ns := nNs q
    decide (ns ≠ 1) && decide (ns ≠ 0xFFFFFFFF) && decide (nsAttached e pf ns = true) && decide (cdw q 10 % 16 = 0) && decide (bitsOf (cdw q 10) 7 5 = 0) && decide (allPairsUp e = true) && decide (Starts s.dev pf n 0x80 false q)) &&
  (
    let s : State := nv [q5 1]
    let pf : Nat := 1
    let n : Nat := 0
    let q : NCmd := q5 1
    let ns := nNs q
    decide (ns = 1) && decide (Starts s.dev pf n 0x80 false q))) = true := by decide +kernel
end WNamespacesAreManaged

/-! NvmeAdminCommandsComplete -/
namespace WNvmeAdminCommandsComplete
def qa (fs : List (Nat × Nat × Nat)) : NCmd := ncm 0 fs
def q0 : NCmd := qa [(0,1,6),(24,8,0x9000),(40,4,1)]
def q1 : NCmd := qa [(0,1,6),(24,8,0x9000),(40,4,0x14)]
def q3 : NCmd := qa [(0,1,9),(40,4,2),(44,4,1)]
def q4 : NCmd := qa [(0,1,9),(40,4,6),(44,4,1)]
def q5 : NCmd := qa [(0,1,9),(40,4,0x80000006),(44,4,1)]
def q6 : NCmd := qa [(0,1,10),(40,4,6)]
def q7 : NCmd := qa [(0,1,10),(40,4,2)]
def q8 : NCmd := qa [(0,1,12)]
def qt (n : Nat) : NCmd := qa [(0,1,0x14),(40,4,n)]
def tt (p : Bool) (d : Dev := onDev) : Dev := ledU (fun l => { l with test := some { stc := 1, nsid := 0, paused := p } }) d
/-- States and operands that meet the hypotheses of NvmeAdminCommandsComplete. -/
theorem test_witness : (
  (
    let s : State := nv [q0]
    let pf : Nat := 1
    let n : Nat := 0
    let q : NCmd := q0
    let d := s.dev
    let e := taken d pf n
    let segs := [(0x9000, 4096)]
    decide (cdw q 10 % 256 = 1) && decide (dataSegs e pf q (identCtrl pf).length = .ok segs) && decide (Starts s.dev pf n 0x06 false q)) &&
  (
    let s : State := nv [q1]
    let pf : Nat := 1
    let n : Nat := 0
    let q : NCmd := q1
    decide (cdw q 10 % 256 = 0x14) && decide (Starts s.dev pf n 0x06 false q)) &&
  (
    let s : State := nv [qa [(0,1,8)]]
    let pf : Nat := 1
    let n : Nat := 0
    let q : NCmd := qa [(0,1,8)]
    decide (Starts s.dev pf n 0x08 false q)) &&
  (
    let s : State := nv [q3]
    let pf : Nat := 1
    let n : Nat := 0
    let q : NCmd := q3
    let ps := cdw q 11 % 32
    decide (cdw q 10 % 256 = 2) && decide (bitOf (cdw q 10) 31 = false) && decide (ps ≤ 2) && decide (Starts s.dev pf n 0x09 false q)) &&
  (
    let s : State := nv [q4]
    let pf : Nat := 1
    let n : Nat := 0
    let q : NCmd := q4
    decide (cdw q 10 % 256 = 6) && decide (bitOf (cdw q 10) 31 = false) && decide (Starts s.dev pf n 0x09 false q)) &&
  (
    let s : State := nv [q5]
    let pf : Nat := 1
    let n : Nat := 0
    let q : NCmd := q5
    decide (cdw q 10 % 256 = 6) && decide (bitOf (cdw q 10) 31 = true) && decide (Starts s.dev pf n 0x09 false q)) &&
  (
    let s : State := nv [q6]
    let pf : Nat := 1
    let n : Nat := 0
    let q : NCmd := q6
    decide (cdw q 10 % 256 = 6) && decide (bitsOf (cdw q 10) 10 8 = 0) && decide (Starts s.dev pf n 0x0A false q)) &&
  (
    let s : State := nv [q7]
    let pf : Nat := 1
    let n : Nat := 0
    let q : NCmd := q7
    decide (cdw q 10 % 256 = 2) && decide (bitsOf (cdw q 10) 10 8 = 0) && decide (Starts s.dev pf n 0x0A false q)) &&
  (
    let s : State := st (ctrlU 1 (fun c => { c with events := [5, 6] }) (nv [q8]).dev)
    let pf : Nat := 1
    let n : Nat := 0
    let q : NCmd := q8
    let d := s.dev
    let e := taken d pf n
    let v := 5
    let rest := [6]
    decide ((ctrl e pf).events = v :: rest) && decide (Starts s.dev pf n 0x0C false q)) &&
  (
    let s : State := nv [q8]
    let pf : Nat := 1
    let n : Nat := 0
    let q : NCmd := q8
    let d := s.dev
    let e := taken d pf n
    decide ((ctrl e pf).events = []) && decide ((ctrl e pf).aers = []) && decide (Starts s.dev pf n 0x0C false q)) &&
  (
    let s : State := nv [qt 1]
    let pf : Nat := 1
    let n : Nat := 0
    let q : NCmd := qt 1
    let d := s.dev
    let e := taken d pf n
    decide (cdw q 10 % 16 = 1) && decide (nNs q = 0) && decide (e.ledger.test = none) && decide (Starts s.dev pf n 0x14 false q)) &&
  (
    let s : State := nv [qt 2] (tt false)
    let pf : Nat := 1
    let n : Nat := 0
    let q : NCmd := qt 2
    let d := s.dev
    let e := taken d pf n
    decide (cdw q 10 % 16 = 2) && decide (nNs q = 0) && decide (e.ledger.test.isSome = true) && decide (Starts s.dev pf n 0x14 false q)) &&
  (
    let s : State := st (tt true { onDev with time := { tick := 10000000 } })
    let d := s.dev
    let t := ({ stc := 1, nsid := 0, paused := true } : SelfTest)
    decide (d.ledger.test = some t) && decide (t.paused = true) && decide (ioOut d = false) && decide (d.ledger.ioSince + 10000000 ≤ now d)) &&
  (
    let s : State := st (tt false)
    let d := s.dev
    let t := ({ stc := 1, nsid := 0, paused := false } : SelfTest)
    decide (d.ledger.test = some t) && decide (t.paused = false) && decide (storageUp d = true) && decide (testDrives d (decide (t.stc = 2)) true = true) && decide (testAshlars d (decide (t.stc = 2)) = true)) &&
  (
    let s : State := st (tt true)
    let d := s.dev
    let t := ({ stc := 1, nsid := 0, paused := true } : SelfTest)
    decide (d.ledger.test = some t) && decide (t.paused = true)) &&
  (
    let s : State := st (ctrlU 1 (fun c => { c with feats := [(12, 1)], apst := leBytes 8 0x508, ps := 0 }) (nv [] { onDev with time := { tick := 5000000 } }).dev)
    let pf : Nat := 1
    let d := s.dev
    let c := ctrl d pf
    let to_ := bitsOf (le c.apst (8 * c.ps) 8) 7 3
    let ms := bitsOf (le c.apst (8 * c.ps) 8) 31 8
    decide (ctrlReady d pf = true) && decide (bitOf (feat d pf 0x0C) 0 = true) && decide (ms ≠ 0) && decide (to_ ≤ 2) && decide (c.fetched = []) && decide (c.outs = []) && decide (c.lastCmd + ms * 1000000 ≤ now d)) &&
  (
    let s : State := st { onDev with ledger := { onDev.ledger with downFrom := some 0 }, time := { tick := 10000000000 }, doms := [(28, { failed := true })] }
    let d := s.dev
    let t := 0
    decide (d.ledger.downFrom = some t) && decide (storageUp d = false) && decide (islandOn d 48 = true) && decide (t + 10000000000 ≤ now d))) = true := by decide +kernel
end WNvmeAdminCommandsComplete

/-! NvmeIoMovesData -/
namespace WNvmeIoMovesData
def qi (fs : List (Nat × Nat × Nat)) : NCmd := ncm 1 fs
def sz : Nat := 2 * slabLbas
def dd (m : Bytes := []) : Dev := inMem 0 0x9000 m (attachW 5 1 (drives [5]))
def q0 : NCmd := qi [(0,1,1),(4,4,5),(24,8,0x9000),(40,8,7)]
def q1 : NCmd := qi [(0,1,1),(4,4,1),(24,8,0x9000),(40,8,7)]
def q2 : NCmd := qi [(0,1,1),(4,4,5),(24,8,0x9000),(40,8,0x123456789)]
def q3 : NCmd := qi [(0,1,8),(4,4,5),(40,8,7),(48,2,2)]
def q4 : NCmd := qi [(0,1,2),(4,4,5),(24,8,0x9000),(40,8,7)]
def q6 : NCmd := qi [(0,1,0),(4,4,5)]
def q7 : NCmd := qi [(0,1,9),(4,4,5),(24,8,0x9000)]
def we : WEnt := ⟨3, 5, 7, [1, 2], true⟩
def wd (b : Bool := false) : Dev := ledU (fun l => { l with wbuf := [we] }) (if b then onDev else dd)
def wce (s : State) : State := st (featW 1 6 1 s.dev)
/-- States and operands that meet the hypotheses of NvmeIoMovesData. -/
theorem test_witness : (
  (
    let s : State := wce (nv [q0] (dd [1, 2, 3]))
    let pf : Nat := 1
    let n : Nat := 0
    let q : NCmd := q0
    let segs : List (Nat × Nat) := [(0x9000, 4096)]
    let d := s.dev
    let e := taken d pf n
    let ns := nNs q
    let a := le q.bytes 40 8
    let cnt := cdw q 12 % 65536 + 1
    let inRange : Prop := nsAttached e pf ns = true ∧ a + cnt ≤ nsSize e ns ∧ ∀ i < cnt, pairDown e (lbaPair e (a + i)) = false
    let room : Prop := e.ledger.wbuf.length + cnt ≤ wbufCap e
    let atOnce : Prop := bitOf (cdw q 12) 30 = false ∧ bitOf (feat e pf 6) 0 = true
    decide (inRange) && decide (ns ≠ 1) && decide (bitsOf (cdw q 12) 29 26 = 0) && decide (dataSegs e pf q (4096 * cnt) = .ok segs) && decide (room) && decide (atOnce) && decide (Starts s.dev pf n 0x01 true q)) &&
  (
    let s : State := nv [q1] (drives [1, 5])
    let pf : Nat := 1
    let n : Nat := 0
    let q : NCmd := q1
    let d := s.dev
    let e := taken d pf n
    let ns := nNs q
    decide (nsAttached e pf ns = true) && decide (ns = 1) && decide (bitsOf (cdw q 12) 29 26 = 0) && decide (Starts s.dev pf n 0x01 true q)) &&
  (
    let s : State := nv [q2] (dd [])
    let pf : Nat := 1
    let n : Nat := 0
    let q : NCmd := q2
    let d := s.dev
    let e := taken d pf n
    let ns := nNs q
    let a := le q.bytes 40 8
    let cnt := cdw q 12 % 65536 + 1
    decide (nsAttached e pf ns = true) && decide (ns ≠ 1) && decide (bitsOf (cdw q 12) 29 26 = 0) && decide (nsSize e ns < a + cnt) && decide (Starts s.dev pf n 0x01 true q)) &&
  (
    let s : State := wce (nv [q3] (dd []))
    let pf : Nat := 1
    let n : Nat := 0
    let q : NCmd := q3
    let d := s.dev
    let e := taken d pf n
    let ns := nNs q
    let a := le q.bytes 40 8
    let cnt := cdw q 12 % 65536 + 1
    let inRange : Prop := nsAttached e pf ns = true ∧ a + cnt ≤ nsSize e ns ∧ ∀ i < cnt, pairDown e (lbaPair e (a + i)) = false
    let room : Prop := e.ledger.wbuf.length + cnt ≤ wbufCap e
    let atOnce : Prop := bitOf (cdw q 12) 30 = false ∧ bitOf (feat e pf 6) 0 = true
    decide (inRange) && decide (ns ≠ 1) && decide (room) && decide (atOnce) && decide (Starts s.dev pf n 0x08 true q)) &&
  (
    let s : State := nv [q4] (dd [])
    let pf : Nat := 1
    let n : Nat := 0
    let q : NCmd := q4
    let segs : List (Nat × Nat) := [(0x9000, 4096)]
    let fails : List (Nat × Nat) := []
    let d := s.dev
    let e := taken d pf n
    let ns := nNs q
    let a := le q.bytes 40 8
    let cnt := cdw q 12 % 65536 + 1
    let inRange : Prop := nsAttached e pf ns = true ∧ a + cnt ≤ nsSize e ns ∧ ∀ i < cnt, pairDown e (lbaPair e (a + i)) = false
    let bs := (readLbas fails ns cnt a e).1.getD []
    let d' := (readLbas fails ns cnt a e).2
    decide (inRange) && decide (dataSegs e pf q (4096 * cnt) = .ok segs) && decide (readLbas fails ns cnt a e = (some bs, d')) && decide (Starts s.dev pf n 0x02 true q)) &&
  (
    let s : State := nv [q4] (dd [])
    let pf : Nat := 1
    let n : Nat := 0
    let q : NCmd := q4
    let segs : List (Nat × Nat) := [(0x9000, 4096)]
    let fails : List (Nat × Nat) := [(0, 256 + 7), (1, 256 + 7), (2, 256 + 7), (3, 256 + 7)]
    let d := s.dev
    let e := taken d pf n
    let ns := nNs q
    let a := le q.bytes 40 8
    let cnt := cdw q 12 % 65536 + 1
    let inRange : Prop := nsAttached e pf ns = true ∧ a + cnt ≤ nsSize e ns ∧ ∀ i < cnt, pairDown e (lbaPair e (a + i)) = false
    let d' := (readLbas fails ns cnt a e).2
    decide (inRange) && decide (dataSegs e pf q (4096 * cnt) = .ok segs) && decide (readLbas fails ns cnt a e = (none, d')) && decide (Starts s.dev pf n 0x02 true q)) &&
  (
    let s : State := nv [q6] (dd [])
    let pf : Nat := 1
    let n : Nat := 0
    let q : NCmd := q6
    let d := s.dev
    let e := taken d pf n
    let ns := nNs q
    decide (nsAttached e pf ns = true) && decide ((∀ x ∈ e.ledger.wbuf, x.done = true → x.nsid ≠ ns)) && decide (ns ≠ 0xFFFFFFFF) && decide (Starts s.dev pf n 0x00 true q)) &&
  (
    let s : State := nv [q7] (dd [])
    let pf : Nat := 1
    let n : Nat := 0
    let q : NCmd := q7
    let segs : List (Nat × Nat) := [(0x9000, 16)]
    let d := s.dev
    let e := taken d pf n
    let ns := nNs q
    decide (ns ≠ 1) && decide (nsAttached e pf ns = true) && decide (dataSegs e pf q (16 * (cdw q 10 % 256 + 1)) = .ok segs) && decide (bitOf (cdw q 11) 2 = false) && decide ((∀ i ≤ cdw q 10 % 256, le (gather e pf segs) (16 * i + 8) 8 + le (gather e pf segs) (16 * i + 4) 4 ≤ nsSize e ns)) && decide (Starts s.dev pf n 0x09 true q)) &&
  (
    let s : State := st wd
    let n : Nat := 0
    let d := s.dev
    let w := we
    decide (d.ledger.wbuf[n]? = some w) && decide (storageUp d = true) && decide ((∀ x ∈ d.ledger.wbuf.take n, ¬(x.nsid = w.nsid ∧ x.lba = w.lba))) && decide (pairDown d (lbaPair d w.lba) = false)) &&
  (
    let s : State := st (wd true)
    let n : Nat := 0
    let d := s.dev
    let w := we
    decide (d.ledger.wbuf[n]? = some w) && decide (pairDown d (lbaPair d w.lba) = true))) = true := by decide +kernel
end WNvmeIoMovesData

/-! NvmeQueuesFollowTheirCommands -/
namespace WNvmeQueuesFollowTheirCommands
def qa (fs : List (Nat × Nat × Nat)) : NCmd := ncm 0 fs
/-- States and operands that meet the hypotheses of NvmeQueuesFollowTheirCommands. -/
theorem test_witness : (
  (
    let s : State := st (reg (ccKey 1) 1 onDev)
    let pf : Nat := 1
    let v : Word := 0
    let d := s.dev
    decide (pf = 1 ∨ pf = 3) && decide (islandOn d 48 = true) && decide (bitR d (ccKey pf) 0 = true) && decide (v.getLsbD 0 = false)) &&
  (
    let s : State := s0
    let pf : Nat := 3
    let v : Word := 0x00460001
    let d := s.dev
    decide (pf = 1 ∨ pf = 3) && decide (islandOn d 48 = true) && decide (bitR d (ccKey pf) 0 = false) && decide (v.getLsbD 0 = true) && decide (Word.fld v 15 14 = 0)) &&
  (
    let s : State := nv []
    let pf : Nat := 1
    let y : Nat := 1
    let q : NCmd := ncm 0 []
    let v : Word := 3
    let d := s.dev
    let size := cdw q 10 / 65536
    let cq := cdw q 11 / 65536
    let base := le q.bytes 24 8
    let w := ({ base := 0, size := 8, cq := 1 } : NSq)
    decide (ctrlReady d pf = true) && decide (nsq d pf y = some w) && decide (Word.fld v 15 0 < w.size)) &&
  (
    let s : State := nv []
    let pf : Nat := 1
    let y : Nat := 1
    let q : NCmd := ncm 0 []
    let v : Word := 8
    let d := s.dev
    let size := cdw q 10 / 65536
    let cq := cdw q 11 / 65536
    let base := le q.bytes 24 8
    let w := ({ base := 0, size := 8, cq := 1 } : NSq)
    decide (ctrlReady d pf = true) && decide (nsq d pf y = some w) && decide (w.size ≤ Word.fld v 15 0)) &&
  (
    let s : State := nv []
    let pf : Nat := 1
    let y : Nat := 7
    let d := s.dev
    decide (ctrlReady d pf = true) && decide (nsq d pf y = none)) &&
  (
    let s : State := nv []
    let pf : Nat := 1
    let y : Nat := 1
    let q : NCmd := ncm 0 []
    let v : Word := 7
    let d := s.dev
    let size := cdw q 10 / 65536
    let base := le q.bytes 24 8
    let w := ({ base := 0x9000, size := 8, ien := false, vector := 0 } : NCq)
    decide (ctrlReady d pf = true) && decide (ncq d pf y = some w) && decide (Word.fld v 15 0 < w.size)) &&
  (
    let s : State := nv [qa [(0,1,5),(24,8,0x9000),(40,4,0x70003),(44,4,0x20001)]]
    let pf : Nat := 1
    let n : Nat := 0
    let q : NCmd := qa [(0,1,5),(24,8,0x9000),(40,4,0x70003),(44,4,0x20001)]
    let d := s.dev
    let e := taken d pf n
    let id := cdw q 10 % 65536
    let size := cdw q 10 / 65536
    let cq := cdw q 11 / 65536
    let base := le q.bytes 24 8
    decide (1 ≤ id) && decide (id ≤ 256) && decide (ncq e pf id = none) && decide (1 ≤ size) && decide (size ≤ 4095) && decide (bitOf (cdw q 11) 0 = true) && decide (base % 4096 = 0) && decide (cq ≤ 256) && decide (Starts s.dev pf n 0x05 false q)) &&
  (
    let s : State := nv [qa [(0,1,5),(24,8,0x9000),(40,4,0x70001),(44,4,0x20001)]]
    let pf : Nat := 1
    let n : Nat := 0
    let q : NCmd := qa [(0,1,5),(24,8,0x9000),(40,4,0x70001),(44,4,0x20001)]
    let d := s.dev
    let e := taken d pf n
    let id := cdw q 10 % 65536
    decide (id = 0 ∨ 256 < id ∨ (ncq e pf id).isSome = true) && decide (Starts s.dev pf n 0x05 false q)) &&
  (
    let s : State := nv [qa [(0,1,1),(24,8,0x9000),(40,4,0x70003),(44,4,0x10001)]]
    let pf : Nat := 1
    let n : Nat := 0
    let q : NCmd := qa [(0,1,1),(24,8,0x9000),(40,4,0x70003),(44,4,0x10001)]
    let d := s.dev
    let e := taken d pf n
    let id := cdw q 10 % 65536
    let size := cdw q 10 / 65536
    let cq := cdw q 11 / 65536
    let base := le q.bytes 24 8
    decide (1 ≤ id) && decide (id ≤ 256) && decide (nsq e pf id = none) && decide (1 ≤ size) && decide (size ≤ 4095) && decide (bitOf (cdw q 11) 0 = true) && decide (base % 4096 = 0) && decide (cq ≠ 0) && decide ((ncq e pf cq).isSome = true) && decide (Starts s.dev pf n 0x01 false q)) &&
  (
    let s : State := nv [qa [(40,4,1)], ncm 1 [(0,1,2)]]
    let pf : Nat := 1
    let n : Nat := 0
    let q : NCmd := qa [(40,4,1)]
    let d := s.dev
    let e := taken d pf n
    let id := cdw q 10 % 65536
    decide (id ≠ 0) && decide ((nsq e pf id).isSome = true) && decide (Starts s.dev pf n 0x00 false q)) &&
  (
    let s : State := st (ncqW 1 3 (some { base := 0x9000, size := 8, ien := false, vector := 0 }) (nv [qa [(0,1,4),(40,4,3)]]).dev)
    let pf : Nat := 1
    let n : Nat := 0
    let q : NCmd := qa [(0,1,4),(40,4,3)]
    let d := s.dev
    let e := taken d pf n
    let id := cdw q 10 % 65536
    decide (id ≠ 0) && decide ((ncq e pf id).isSome = true) && decide ((∀ x ∈ (ctrl e pf).sqs, x.2.map (fun w => w.cq) ≠ some id)) && decide (Starts s.dev pf n 0x04 false q)) &&
  (
    let s : State := s0
    let pf : Nat := 1
    let n : Nat := 0
    let d := s.dev
    decide ((ctrl (ctrlGo pf d) pf).fetched[n]? = none))) = true := by decide +kernel
end WNvmeQueuesFollowTheirCommands

/-! OffsetsAndLossesMoveTheStringState -/
namespace WOffsetsAndLossesMoveTheStringState
def sS (x : Str) (d : Dev := onDev) : State := st { d with strs := [(0, x)] }
/-- States and operands that meet the hypotheses of OffsetsAndLossesMoveTheStringState. -/
theorem test_witness : (
  (
    let s : State := sS { st := .locked, srcKind := 1, srcPort := 3 }
    let i : Nat := 0
    let port : Nat := 3
    let rx : Nat := 0
    let tx : Nat := 0
    let o : Int := Int.ofNat (jumpLimit onDev 0)
    let d := s.dev
    let x := str d i
    let net := o - delayAsymmetry d i port (exchangeEntries d port rx tx).1
    let taken : Prop := strPresent d i = true ∧ x.owner = 0 ∧ x.srcKind = 1 ∧ x.srcPort = port ∧ timeServiceUp d = true ∧
      staleOffset x (min rx tx) = false
    decide (taken) && decide (x.st = .locked) && decide (net.natAbs ≤ jumpLimit d i)) &&
  (
    let s : State := sS { st := .locked, srcKind := 1, srcPort := 3 }
    let i : Nat := 0
    let port : Nat := 3
    let rx : Nat := 0
    let tx : Nat := 0
    let o : Int := 0
    let d := s.dev
    let x := str d i
    let net := o - delayAsymmetry d i port (exchangeEntries d port rx tx).1
    let taken : Prop := strPresent d i = true ∧ x.owner = 0 ∧ x.srcKind = 1 ∧ x.srcPort = port ∧ timeServiceUp d = true ∧
      staleOffset x (min rx tx) = false
    decide (taken) && decide (x.st = .locked) && decide (net.natAbs ≤ jumpLimit d i)) &&
  (
    let s : State := sS { st := .locked, srcKind := 1, srcPort := 3, slew := 5 }
    let i : Nat := 0
    let port : Nat := 3
    let rx : Nat := 0
    let tx : Nat := 0
    let o : Int := -(Int.ofNat (jumpLimit onDev 0) + 1)
    let d := s.dev
    let x := str d i
    let net := o - delayAsymmetry d i port (exchangeEntries d port rx tx).1
    let taken : Prop := strPresent d i = true ∧ x.owner = 0 ∧ x.srcKind = 1 ∧ x.srcPort = port ∧ timeServiceUp d = true ∧
      staleOffset x (min rx tx) = false
    decide (taken) && decide (x.st = .locked) && decide (jumpLimit d i < net.natAbs)) &&
  (
    let s : State := sS { st := .acquire, srcKind := 1, srcPort := 3, stepArmed := true }
    let i : Nat := 0
    let port : Nat := 3
    let rx : Nat := 0
    let tx : Nat := 0
    let o : Int := -(2 ^ 40)
    let d := s.dev
    let x := str d i
    let net := o - delayAsymmetry d i port (exchangeEntries d port rx tx).1
    let taken : Prop := strPresent d i = true ∧ x.owner = 0 ∧ x.srcKind = 1 ∧ x.srcPort = port ∧ timeServiceUp d = true ∧
      staleOffset x (min rx tx) = false
    decide (taken) && decide (x.st = .acquire) && decide (x.stepArmed = true) && decide (stepMin d i ≤ net.natAbs) && decide (stepOutOfRange x (-net) = false)) &&
  (
    let s : State := sS { srcKind := 1, srcPort := 3 }
    let i : Nat := 0
    let port : Nat := 3
    let rx : Nat := 0
    let tx : Nat := 0
    let d := s.dev
    let x := str d i
    let taken : Prop := strPresent d i = true ∧ x.owner = 0 ∧ x.srcKind = 1 ∧ x.srcPort = port ∧ timeServiceUp d = true ∧
      staleOffset x (min rx tx) = false
    decide (taken) && decide (x.st = .drone)) &&
  (
    let s : State := sS { st := .locked, srcKind := 1, srcPort := 3, srcOk := true, slew := 4 }
    let i : Nat := 0
    let why : LossCause := .ptp
    let d := s.dev
    let x := str d i
    decide (strPresent d i = true) && decide (lossHolds d i why = true) && decide (x.st = .acquire ∨ x.st = .locked)) &&
  (
    let s : State := sS { st := .acquire, srcKind := 2, srcOk := true } { onDev with time := { tick := 2500000000 } }
    let i : Nat := 0
    let why : LossCause := .pps
    let d := s.dev
    let x := str d i
    decide (strPresent d i = true) && decide (lossHolds d i why = true) && decide (x.st = .acquire ∨ x.st = .locked)) &&
  (
    let s : State := sS { st := .disputed, dispFrom := some 0 } (inEff (tKey 0 0x20) 1 { onDev with time := { tick := 1000000 } })
    let i : Nat := 0
    let d := s.dev
    let x := str d i
    let t0 := 0
    decide (x.dispFrom = some t0) && decide (x.st = .disputed) && decide (x.latched = false) && decide (disputeTo d i ≠ 0) && decide (t0 + disputeTo d i * 1000000 ≤ now d)) &&
  (
    let s : State := sS { st := .locked } (inEff 0x108060 1 (inEff (tKey 0 0x10) 2 onDev))
    let d := s.dev
    let st := 0
    decide (effB d 0x108060 0 = true) && decide (st < 3)) &&
  (
    let s : State := sS { st := .acquire } (inEff 0x108060 1 (inEff (tKey 0 0x10) 2 onDev))
    let d := s.dev
    let st := 2
    decide (effB d 0x108060 0 = true) && decide (st < 3))) = true := by decide +kernel
end WOffsetsAndLossesMoveTheStringState

/-! PlumbCopiesEndOnce -/
namespace WPlumbCopiesEndOnce
def fr : Frame := { bytes := zeros 60, port := 1, pkt := some 8 }
def pk : TxPkt := { id := 8, fn := 0, head := zeros 32, segs := [(0, 60)], data := zeros 60, copies := 2 }
def pc (t : Int) : PCopy := { pkt := 8, group := 5, port := 3, frame := fr, rel := 0, d := 0, window := 0, stamp := 0, tL := t, str := 0, tick := 0 }
def dc (t : Int) (d : Dev := onDev) : Dev := { d with copies := [pc t], pkts := [pk] }
def lk (d : Dev := onDev) : Dev := inEff 0x109010 8 d
def up3 (d : Dev := lk) : Dev := reg (pKey 3 0x40) 0x68000004 d
/-- States and operands that meet the hypotheses of PlumbCopiesEndOnce. -/
theorem test_witness : (
  (
    let s : State := st { onDev with xings := [⟨5, epIsland (egressPipe onDev 0), true, .plumb 5 fr⟩], pkts := [pk] }
    let g : Nat := 5
    let src : Nat := 5
    let f : Frame := fr
    let rest : List Xing := []
    let k : TxPkt := pk
    let d := s.dev
    let pipe := egressPipe d (fldR d (gKey g 0x40) 21 16)
    decide (d.xings = ⟨src, epIsland pipe, true, .plumb g f⟩ :: rest) && decide (framePkt d f = some k) && decide (bitR d (gKey g 0x40) 31 = false)) &&
  (
    let s : State := st (dc 1000000)
    let p : Nat := 3
    let c : PCopy := pc 1000000
    let d := s.dev
    let at_ : Int := repQ d (portIsland p) c.str 0
    let step : Int := ((rep d (portIsland p) c.str).incr / 2 ^ 32 : Nat)
    decide (nextCopy p d.copies = some c) && decide (at_ + step < c.tL)) &&
  (
    let s : State := st (dc 0)
    let p : Nat := 3
    let c : PCopy := pc 0
    let k : TxPkt := pk
    let d := s.dev
    let at_ : Int := repQ d (portIsland p) c.str 0
    let step : Int := ((rep d (portIsland p) c.str).incr / 2 ^ 32 : Nat)
    let ready : Prop := nextCopy p d.copies = some c ∧ (d.pkts.find? fun k => decide (k.id = c.pkt)) = some k ∧ c.tL ≤ at_ + step
    decide (ready) && decide (inLock d c.lock p = false)) &&
  (
    let s : State := st (dc 0 lk)
    let p : Nat := 3
    let c : PCopy := pc 0
    let k : TxPkt := pk
    let d := s.dev
    let at_ : Int := repQ d (portIsland p) c.str 0
    let step : Int := ((rep d (portIsland p) c.str).incr / 2 ^ 32 : Nat)
    let ready : Prop := nextCopy p d.copies = some c ∧ (d.pkts.find? fun k => decide (k.id = c.pkt)) = some k ∧ c.tL ≤ at_ + step
    decide (ready) && decide (inLock d c.lock p = true) && decide (lstate d p ≠ 4)) &&
  (
    let s : State := st (dc 0 up3)
    let p : Nat := 3
    let c : PCopy := pc 0
    let k : TxPkt := pk
    let d := s.dev
    let at_ : Int := repQ d (portIsland p) c.str 0
    let step : Int := ((rep d (portIsland p) c.str).incr / 2 ^ 32 : Nat)
    let ready : Prop := nextCopy p d.copies = some c ∧ (d.pkts.find? fun k => decide (k.id = c.pkt)) = some k ∧ c.tL ≤ at_ + step
    decide (ready) && decide (inLock d c.lock p = true) && decide (aligned d c.lock p = true) && decide (at_ ≤ c.tL + step) && decide (mayTransmit d p = true) && decide ((port d p).busyUntil ≤ now d)) &&
  (
    let s : State := st (dc 0 (portU 3 (fun x => { x with alignAt := 9 }) up3))
    let p : Nat := 3
    let c : PCopy := pc 0
    let k : TxPkt := pk
    let d := s.dev
    let at_ : Int := repQ d (portIsland p) c.str 0
    let step : Int := ((rep d (portIsland p) c.str).incr / 2 ^ 32 : Nat)
    let ready : Prop := nextCopy p d.copies = some c ∧ (d.pkts.find? fun k => decide (k.id = c.pkt)) = some k ∧ c.tL ≤ at_ + step
    decide (ready) && decide (inLock d c.lock p = true) && decide (lstate d p = 4) && decide (aligned d c.lock p = false)) &&
  (
    let s : State := st (dc 0 (portU 3 (fun x => { x with busyUntil := 9 }) up3))
    let p : Nat := 3
    let c : PCopy := pc 0
    let k : TxPkt := pk
    let d := s.dev
    let at_ : Int := repQ d (portIsland p) c.str 0
    let step : Int := ((rep d (portIsland p) c.str).incr / 2 ^ 32 : Nat)
    let ready : Prop := nextCopy p d.copies = some c ∧ (d.pkts.find? fun k => decide (k.id = c.pkt)) = some k ∧ c.tL ≤ at_ + step
    decide (ready) && decide (inLock d c.lock p = true) && decide (aligned d c.lock p = true) && decide (lstate d p = 4) && decide (now d < (port d p).busyUntil)) &&
  (
    let s : State := st (dc 0 { onDev with time := { tick := 1500000000 } })
    let g : Nat := 5
    let c : PCopy := pc 0
    let d := s.dev
    decide (d.copies = [c]) && decide (c.group = g) && decide (c.tick + 1500000000 ≤ now d)) &&
  (
    let s : State := st (rateNote (rateKey 0x80 5) 0 onDev)
    let g : Nat := 5
    let d := s.dev
    decide (rateDue d (rateKey 0x80 g) = true)) &&
  (
    let cmd : Cmd := cmd 0 [(16,1,5),(17,1,1),(24,8,64)]
    decide ((firstStatus [ (decide (cmd.fn ≠ 0) || (cmdSelf cmd).isNone, stNotPermitted), (!(reservedOk cmd [(16, 1), (17, 1), (24, 8)]) || decide (1 < cmd.f 17 1) || decide (64 ≤ cmd.f 16 1) || decide (cmd.f 24 8 % 64 ≠ 0), stBadParam)]) = 0))) = true := by decide +kernel
end WPlumbCopiesEndOnce

/-! PortCommandsAreServed -/
namespace WPortCommandsAreServed
def on1 : Dev := reg 0x404 1 onDev
def stp : Cmd := cmd 0 [(0,1,0x32),(16,1,3),(17,1,1),(24,8,0x1000)]
/-- States and operands that meet the hypotheses of PortCommandsAreServed. -/
theorem test_witness : (
  (
    let s : State := st (reg (pKey 3 0x40) 0x68000004 (inEff (pKey 3 0x10) 0x60000000 on1))
    let c : Cmd := cmd 0 [(16,1,3)]
    let d := s.dev
    decide ((portCmdStatus d c) = 0)) &&
  (
    let s : State := st (reg (pKey 3 0x40) 0x68000004 (inEff (pKey 3 0x10) 0x60000000 on1))
    let c : Cmd := cmd 0 [(16,1,3)]
    let d := s.dev
    let p := c.f 16 1
    decide (portCmdStatus d c = 0) && decide (c.opcode ≠ 0x32) && decide ((port d p).cmds = []) && decide ((port d p).restarting = false) && decide ((port d p).cal = none)) &&
  (
    let s : State := st (reg (pKey 3 0x40) 0x68000004 (inEff (pKey 3 0x10) 0x60000000 onDev))
    let c : Cmd := cmd 0 [(16,1,3)]
    let d := s.dev
    let p := c.f 16 1
    decide (portCmdStatus d c = 0) && decide (c.opcode ≠ 0x32) && decide ((port d p).cmds = []) && decide ((port d p).restarting = false) && decide ((port d p).cal = none)) &&
  (
    let s : State := st (ctrInc (pKey 3 0x100) onDev)
    let c : Cmd := stp
    let d := s.dev
    decide ((portCmdStatus d c) = 0)) &&
  (
    let s : State := st (ctrInc (pKey 3 0x100) onDev)
    let c : Cmd := stp
    let d := s.dev
    let p := c.f 16 1
    decide (portCmdStatus d c = 0) && decide (c.opcode = 0x32) && decide ((port d p).cmds = []) && decide ((port d p).restarting = false)) &&
  (
    let s : State := st { on1 with islJobs := [(1, hold on1 c0)] }
    let c : Cmd := cmd 0 [(16,1,1)]
    let d := s.dev
    let p := c.f 16 1
    let isl := firstStatus [
      (decide (c.fn ≠ 0) || (cmdSelf c).isNone, stNotPermitted),
      (!(reservedOk c [(16, 1)]) || decide (p = 0) || decide (8 < p), stBadParam),
      (decide (unitStatus d p = 0x23), stAbsent), (decide (unitStatus d p = 0x24), stUnitOff)]
    decide ((d.islJobs.any fun j => decide (j.1 = p)) = true) && decide (isl = 0)) &&
  (
    let s : State := st on1
    let c : Cmd := cmd 0 [(16,1,1)]
    let d := s.dev
    let p := c.f 16 1
    let isl := firstStatus [
      (decide (c.fn ≠ 0) || (cmdSelf c).isNone, stNotPermitted),
      (!(reservedOk c [(16, 1)]) || decide (p = 0) || decide (8 < p), stBadParam),
      (decide (unitStatus d p = 0x23), stAbsent), (decide (unitStatus d p = 0x24), stUnitOff)]
    decide ((d.islJobs.any fun j => decide (j.1 = p)) = false) && decide (isl = 0)) &&
  (
    let s : State := st { on1 with islJobs := [(1, hold on1 c0)] }
    let n : Nat := 1
    let d := s.dev
    let h := hold on1 c0
    decide (d.islJobs = [(n, h)]) && decide (fretValid d n = true) && decide ((∀ q ∈ islandUsers d n, modeCfg d q = 0 ∨ subsumed d q = true ∨ lstate d q ≠ 0)))) = true := by decide +kernel
end WPortCommandsAreServed

/-! PortLinksMoveThroughTheirStates -/
namespace WPortLinksMoveThroughTheirStates
def pin (m : Nat) (x : Nat) (d : Dev := onDev) : State := st (reg (pKey 3 0x40) (BitVec.ofNat 32 (m * 0x10000000 + 0x8000000 + x)) d)
/-- States and operands that meet the hypotheses of PortLinksMoveThroughTheirStates. -/
theorem test_witness : (
  (
    let s : State := pin 6 1 (inEff (pKey 3 0x10) 0x60000000 onDev)
    let p : Nat := 3
    let tech : Nat := 0x11
    let fec : Nat := 0
    let ext : Nat := 1
    let c0 : Bool := true
    let c1 : Bool := true
    let d := s.dev
    let theirs := partnerWords tech fec c0 c1 ext
    decide (lstate d p = 1) && decide (offers theirs (modeCfg d p) = false)) &&
  (
    let s : State := pin 6 1 (inEff (pKey 3 0x10) 0x60000000 onDev)
    let p : Nat := 3
    let tech : Nat := 0x11
    let fec : Nat := 0
    let ext : Nat := 2
    let c0 : Bool := false
    let c1 : Bool := false
    let d := s.dev
    let theirs := partnerWords tech fec c0 c1 ext
    decide (lstate d p = 1) && decide (offers theirs (modeCfg d p) = true) && decide (p < 48)) &&
  (
    let s : State := pin 6 1 (inEff (pKey 3 0x10) 0x61000000 onDev)
    let p : Nat := 3
    let tech : Nat := 0
    let fec : Nat := 0
    let ext : Nat := 2
    let c0 : Bool := true
    let c1 : Bool := true
    let d := s.dev
    let theirs := partnerWords tech fec c0 c1 ext
    decide (lstate d p = 1) && decide (offers theirs (modeCfg d p) = true) && decide (p < 48)) &&
  (
    let s : State := pin 6 2
    let p : Nat := 3
    let n : Nat := 3
    let d := s.dev
    let all := 2 ^ modeLanes (modeAct d p) - 1
    decide (lstate d p = 2) && decide (n % (all + 1) = all)) &&
  (
    let s : State := pin 6 2
    let p : Nat := 3
    let n : Nat := 7
    let d := s.dev
    let all := 2 ^ modeLanes (modeAct d p) - 1
    decide (lstate d p = 2) && decide (n % (all + 1) = all)) &&
  (
    let s : State := pin 6 2 (inEff (pKey 3 0x10) 0x2000000 onDev)
    let p : Nat := 3
    let n : Nat := 2
    let d := s.dev
    let all := 2 ^ modeLanes (modeAct d p) - 1
    decide (lstate d p = 2) && decide (n % (all + 1) ≠ all) && decide (anEn d p = true)) &&
  (
    let s : State := pin 6 3
    let p : Nat := 3
    let d := s.dev
    decide (lstate d p = 3)) &&
  (
    let s : State := pin 6 4 (inEff (pKey 3 0x24) 5 onDev)
    let p : Nat := 3
    let d := s.dev
    decide (lstate d p = 4) && decide (effF d (pKey p 0x24) 9 0 ≠ 0)) &&
  (
    let s : State := pin 6 4
    let p : Nat := 3
    let d := s.dev
    decide (lstate d p = 4) && decide (effF d (pKey p 0x24) 9 0 = 0)) &&
  (
    let s : State := pin 6 5
    let p : Nat := 3
    let d := s.dev
    decide (lstate d p = 5) && decide ((port d p).downFrom + holdDownTicks d p ≤ now d)) &&
  (
    let s : State := pin 6 5 (portU 3 (fun v => { v with downCause := 2 }) (inEff (pKey 3 0x24) 5 { onDev with time := { tick := 5000000 } }))
    let p : Nat := 3
    let d := s.dev
    decide (lstate d p = 5) && decide ((port d p).downFrom + holdDownTicks d p ≤ now d)) &&
  (
    let s : State := pin 6 5 (inEff (pKey 3 0x24) 5 { onDev with time := { tick := 4999999 } })
    let p : Nat := 3
    let d := s.dev
    decide (lstate d p = 5) && decide (now d < (port d p).downFrom + holdDownTicks d p)) &&
  (
    let s : State := pin 6 4
    let p : Nat := 3
    let on : Bool := true
    let d := s.dev
    let k := pKey p 0x40
    decide (lstate d p = 4) && decide (bitR d k 10 ≠ on))) = true := by decide +kernel
end WPortLinksMoveThroughTheirStates

/-! QueueCommandsChangeTheirQueue -/
namespace WQueueCommandsChangeTheirQueue
def qd (qt : Nat) (q : Queue) (d : Dev := onDev) : State := st (queueU 0 qt 5 (fun _ => q) (fnU 0 (fun x => { x with bme := true }) d))
/-- States and operands that meet the hypotheses of QueueCommandsChangeTheirQueue. -/
theorem test_witness : (
  (
    let s : State := qd 1 { st := .stopped, devIdx := 9, doneSlots := [(1,1)] }
    let c : Cmd := cmd 0 [(16,1,1),(18,2,5)]
    let d := s.dev
    let f := qcmdFn d c
    let qt := c.f 16 1
    let lq := c.f 18 2
    let startSt := qcmdStatus d c [] true false (fun f => decide ((queue d f qt lq).st ≠ .stopped))
    decide (startSt = 0) && decide ((fn d f).bme = true) && decide ((fn d f).d3hot = false) && decide (isFrozen d (fnPort f) = false) && decide (isDraining d (fnPort f) = false) && decide (qt = 1 ∨ qt = 3) && decide (c.tcq = none)) &&
  (
    let s : State := qd 1 { st := .stopped, devIdx := 9 } (reg (frzStatKey 0) 0x80000000 onDev)
    let c : Cmd := cmd 0 [(16,1,1),(18,2,5)]
    let d := s.dev
    let f := qcmdFn d c
    let qt := c.f 16 1
    let lq := c.f 18 2
    let startSt := qcmdStatus d c [] true false (fun f => decide ((queue d f qt lq).st ≠ .stopped))
    decide (startSt = 0) && decide (isFrozen d (fnPort f) = true) && decide (c.tcq = none)) &&
  (
    let s : State := qd 1 { st := .running }
    let c : Cmd := cmd 0 [(16,1,1),(18,2,5)]
    let d := s.dev
    let f := qcmdFn d c
    let qt := c.f 16 1
    let lq := c.f 18 2
    let startSt := qcmdStatus d c [] true false (fun f => decide ((queue d f qt lq).st ≠ .stopped))
    decide (startSt ≠ 0)) &&
  (
    let s : State := qd 1 { st := .running }
    let c : Cmd := cmd 0 [(16,1,1),(18,2,5)]
    let d := s.dev
    let f := qcmdFn d c
    let qt := c.f 16 1
    let lq := c.f 18 2
    let q := queue d f qt lq
    let stopSt := qcmdStatus d c [] true false (fun f => decide ((queue d f qt lq).st = .stopped) || decide ((queue d f qt lq).st = .disabled) ||
          (queue d f qt lq).stopping.isSome)
    decide (stopSt = 0) && decide (q.st = .running)) &&
  (
    let s : State := qd 1 { st := .held }
    let c : Cmd := cmd 0 [(16,1,1),(18,2,5)]
    let d := s.dev
    let f := qcmdFn d c
    let qt := c.f 16 1
    let lq := c.f 18 2
    let q := queue d f qt lq
    let stopSt := qcmdStatus d c [] true false (fun f => decide ((queue d f qt lq).st = .stopped) || decide ((queue d f qt lq).st = .disabled) ||
          (queue d f qt lq).stopping.isSome)
    decide (stopSt = 0) && decide (q.st = .held)) &&
  (
    let s : State := qd 1 { st := .stopped }
    let c : Cmd := cmd 0 [(16,1,1),(18,2,5)]
    let d := s.dev
    let f := qcmdFn d c
    let qt := c.f 16 1
    let lq := c.f 18 2
    let stopSt := qcmdStatus d c [] true false (fun f => decide ((queue d f qt lq).st = .stopped) || decide ((queue d f qt lq).st = .disabled) ||
          (queue d f qt lq).stopping.isSome)
    decide (stopSt ≠ 0)) &&
  (
    let s : State := qd 1 { st := .error, cause := 1 }
    let c : Cmd := cmd 0 [(16,1,1),(18,2,5)]
    let d := s.dev
    let f := qcmdFn d c
    let qt := c.f 16 1
    let lq := c.f 18 2
    decide ((qcmdStatus d c [] false false (fun f => if qt = 2 then !(queue d f qt lq).exists_ || !(boundTo d f 0 lq).isEmpty || !(boundTo d f 1 lq).isEmpty else decide ((queue d f qt lq).st ≠ .stopped) && decide ((queue d f qt lq).st ≠ .error))) = 0)) &&
  (
    let s : State := qd 2 { exists_ := true, parked := [zeros 32, zeros 32] }
    let c : Cmd := cmd 0 [(16,1,2),(18,2,5)]
    let d := s.dev
    let f := qcmdFn d c
    let qt := c.f 16 1
    let lq := c.f 18 2
    decide ((qcmdStatus d c [] false false (fun f => if qt = 2 then !(queue d f qt lq).exists_ || !(boundTo d f 0 lq).isEmpty || !(boundTo d f 1 lq).isEmpty else decide ((queue d f qt lq).st ≠ .stopped) && decide ((queue d f qt lq).st ≠ .error))) = 0)) &&
  (
    let s : State := qd 0 { st := .running, weight := 1 }
    let c : Cmd := cmd 0 [(17,1,3),(18,2,5),(42,1,7),(43,1,9)]
    let d := s.dev
    let f := qcmdFn d c
    let qt := c.f 16 1
    let lq := c.f 18 2
    let m := c.f 17 1
    let setSt := qcmdStatus d c [(17, 1), (40, 2), (42, 1), (43, 1), (44, 1), (46, 2)] false
        (decide (16 ≤ m) || (bitOf m 0 && decide (c.f 42 1 = 0)) || (bitOf m 1 && decide (64 < c.f 43 1)) ||
          (bitOf m 2 && decide (4095 < c.f 46 2)) || ((bitOf m 0 || bitOf m 1) && decide (qt ≠ 0)) ||
          (bitOf m 2 && decide (qt ≠ 2)) || (bitOf m 3 && decide (qt < 2)))
        (fun f => (decide ((queue d f qt lq).st = .disabled) && !(queue d f qt lq).exists_))
        (fun f => bitOf m 3 && decide (grantLimit d f 4 ≤ c.f 40 2))
    decide (setSt = 0)) &&
  (
    let s : State := qd 2 { exists_ := true }
    let c : Cmd := cmd 0 [(16,1,2),(17,1,4),(18,2,5),(44,1,7),(46,2,9)]
    let d := s.dev
    let f := qcmdFn d c
    let qt := c.f 16 1
    let lq := c.f 18 2
    let m := c.f 17 1
    let setSt := qcmdStatus d c [(17, 1), (40, 2), (42, 1), (43, 1), (44, 1), (46, 2)] false
        (decide (16 ≤ m) || (bitOf m 0 && decide (c.f 42 1 = 0)) || (bitOf m 1 && decide (64 < c.f 43 1)) ||
          (bitOf m 2 && decide (4095 < c.f 46 2)) || ((bitOf m 0 || bitOf m 1) && decide (qt ≠ 0)) ||
          (bitOf m 2 && decide (qt ≠ 2)) || (bitOf m 3 && decide (qt < 2)))
        (fun f => (decide ((queue d f qt lq).st = .disabled) && !(queue d f qt lq).exists_))
        (fun f => bitOf m 3 && decide (grantLimit d f 4 ≤ c.f 40 2))
    decide (setSt = 0)) &&
  (
    let s : State := qd 0 { st := .running, devIdx := 7 }
    let c : Cmd := cmd 0 [(18,2,5),(24,8,96)]
    let d := s.dev
    decide ((qcmdStatus d c [(24, 8)] false (decide (c.f 24 8 % 32 ≠ 0)) (fun _ => false)) = 0))) = true := by decide +kernel
end WQueueCommandsChangeTheirQueue

/-! ReadsSeeBufferedWrites -/
namespace WReadsSeeBufferedWrites
def q0 : NCmd := ncm 1 [(0,1,1),(4,4,5),(40,8,7)]
def dd : Dev := featW 1 6 1 (nv [] (attachW 5 1 (drives [5]))).dev
def ds : List Bytes := [List.replicate 4096 1, List.replicate 4096 2]
/-- States and operands that meet the hypotheses of ReadsSeeBufferedWrites. -/
theorem test_witness : (
  (
    let d : Dev := dd
    let d' : Dev := (bufferWrite 1 q0 7 ds dd).getD dd
    let pf : Nat := 1
    let a : Nat := 7
    let q : NCmd := q0
    let datas : List Bytes := ds
    decide ((∀ b ∈ datas, b.length = 4096)) && decide (bitOf (cdw q 12) 30 = false) && decide (bitOf (feat d pf 6) 0 = true) && decide (bufferWrite pf q a datas d = some d'))) = true := by decide +kernel
end WReadsSeeBufferedWrites

/-! RecordReadsMoveTheHostIndex -/
namespace WRecordReadsMoveTheHostIndex
def qd (qt : Nat) (q : Queue) (d : Dev := inMem 0 64 [7, 0]) : State := st (queueU 0 qt 5 (fun _ => { q with recPending := true, recAddr := 64, sizeLog2 := 6 }) (fnU 0 (fun x => { x with bme := true }) d))
/-- States and operands that meet the hypotheses of RecordReadsMoveTheHostIndex. -/
theorem test_witness : (
  (
    let s : State := qd 0 { st := .running } (inMem 0 64 [64, 0])
    let f : Nat := 0
    let qt : Nat := 0
    let lq : Nat := 5
    let d := s.dev
    let q := queue d f qt lq
    let v := le (dmaRead d f q.recAddr 2) 0 2
    let asked : Prop := q.recPending = true ∧ mayDma d f = true
    decide (s.dev.wr = []) && decide (asked) && decide (qt = 0 ∨ qt = 1) && decide (qSize q ≤ (v + 65536 - q.devIdx) % 65536)) &&
  (
    let s : State := qd 1 { st := .stopped, devIdx := 8 }
    let f : Nat := 0
    let qt : Nat := 1
    let lq : Nat := 5
    let d := s.dev
    let q := queue d f qt lq
    let v := le (dmaRead d f q.recAddr 2) 0 2
    let asked : Prop := q.recPending = true ∧ mayDma d f = true
    decide (s.dev.wr = []) && decide (asked) && decide (qt = 0 ∨ qt = 1) && decide (qSize q ≤ (v + 65536 - q.devIdx) % 65536)) &&
  (
    let s : State := qd 1 { st := .running, hostIdx := 8 }
    let f : Nat := 0
    let qt : Nat := 1
    let lq : Nat := 5
    let d := s.dev
    let q := queue d f qt lq
    let v := le (dmaRead d f q.recAddr 2) 0 2
    let asked : Prop := q.recPending = true ∧ mayDma d f = true
    decide (s.dev.wr = []) && decide (asked) && decide (qt = 0 ∨ qt = 1) && decide ((v + 65536 - q.devIdx) % 65536 < qSize q) && decide (32768 ≤ (v + 65536 - q.hostIdx) % 65536)) &&
  (
    let s : State := qd 0 { st := .running, hostIdx := 6 }
    let f : Nat := 0
    let qt : Nat := 0
    let lq : Nat := 5
    let d := s.dev
    let q := queue d f qt lq
    let v := le (dmaRead d f q.recAddr 2) 0 2
    let asked : Prop := q.recPending = true ∧ mayDma d f = true
    decide (s.dev.wr = []) && decide (asked) && decide (qt = 0) && decide ((v + 65536 - q.devIdx) % 65536 < qSize q) && decide ((v + 65536 - q.hostIdx) % 65536 < 32768)) &&
  (
    let s : State := qd 1 { st := .running, hostIdx := 6 }
    let f : Nat := 0
    let qt : Nat := 1
    let lq : Nat := 5
    let d := s.dev
    let q := queue d f qt lq
    let v := le (dmaRead d f q.recAddr 2) 0 2
    let asked : Prop := q.recPending = true ∧ mayDma d f = true
    decide (s.dev.wr = []) && decide (asked) && decide (qt = 1) && decide (q.st = .running) && decide ((v + 65536 - q.devIdx) % 65536 < qSize q) && decide ((v + 65536 - q.hostIdx) % 65536 < 32768)) &&
  (
    let s : State := qd 2 { exists_ := true, hostIdx := 6, parked := [zeros 32] }
    let f : Nat := 0
    let qt : Nat := 2
    let lq : Nat := 5
    let d := s.dev
    let q := queue d f qt lq
    let v := le (dmaRead d f q.recAddr 2) 0 2
    let asked : Prop := q.recPending = true ∧ mayDma d f = true
    decide (s.dev.wr = []) && decide (asked) && decide (qt = 2) && decide ((v + 65536 - q.hostIdx) % 65536 < 32768)) &&
  (
    let s : State := st (fnU 0 (fun x => { x with bme := true, eqRec := true }) (inMem 0 0 [9]))
    let f : Nat := 0
    let d := s.dev
    decide (s.dev.wr = []) && decide ((fn d f).eqRec = true) && decide (mayDma d f = true) && decide ((fn d f).eqHeld = []) && decide ((le (dmaRead d f (reg64 d (fnKey f 0x128)) 2) 0 2 + 65536 - (fn d f).eqHost) % 65536 < 32768)) &&
  (
    let s : State := s0
    let f : Nat := 0
    let d := s.dev
    decide (s.dev.wr = []) && decide (mayDma d f = false))) = true := by decide +kernel
end WRecordReadsMoveTheHostIndex

/-! ReferencesPulsesAndTimeMessages -/
namespace WReferencesPulsesAndTimeMessages
def sS (x : Str) (d : Dev := onDev) : State := st { d with strs := [(0, x)] }
def ann : Bytes := patch (zeros 64) 0 [0x0B]
def up3 : Dev := inPort 3 4 onDev
def ptp0 (d : Dev := onDev) : Dev := inEff (tKey 0 0x34) 0x100 d
def ppsD : Dev := inEff 0x10803C 0x2001 onDev
/-- States and operands that meet the hypotheses of ReferencesPulsesAndTimeMessages. -/
theorem test_witness : (
  (
    let s : State := s0
    let v : Word := 1
    let d := s.dev
    decide (v.getLsbD 9 = false) && decide (v.getLsbD 0 ≠ bitR d 0x108010 0) && decide (bitR d 0x10800C 0 = false) && decide ((∀ j < numStrings d.variant, (str d j).st = .drone))) &&
  (
    let s : State := st (reg 0x108010 1 onDev)
    let v : Word := 0
    let d := s.dev
    decide (v.getLsbD 9 = false) && decide (v.getLsbD 0 ≠ bitR d 0x108010 0) && decide (bitR d 0x10800C 0 = false) && decide ((∀ j < numStrings d.variant, (str d j).st = .drone))) &&
  (
    let s : State := sS { st := .locked }
    let v : Word := 1
    let d := s.dev
    decide (v.getLsbD 9 = false) && decide (v.getLsbD 0 ≠ bitR d 0x108010 0) && decide (bitR d 0x10800C 0 = false) && decide ((∃ j < numStrings d.variant, (str d j).st ≠ .drone))) &&
  (
    let s : State := st ppsD
    let i : Nat := 3
    let d := s.dev
    let e : Dev := ppsD
    decide (e = takeIo none d) && decide (i < 4) && decide (effB e (0x108030 + 4 * i) 0 = true) && decide (effF e (0x108030 + 4 * i) 31 13 ≠ 0) && decide (e.timeDead = false) && decide (atSecond e (effR e (0x108030 + 4 * i)) (effR e (0x108040 + 4 * i)) = true)) &&
  (
    let s : State := st { onDev with time := { ppsOn := [true, false, false, false] } }
    let i : Nat := 0
    let d := s.dev
    decide (i < 4) && decide (d.time.ppsOn.getD i false = true) && decide (d.time.ppsFrom.getD i 0 + effF d (0x108030 + 4 * i) 31 13 * 1000 ≤ now d)) &&
  (
    let s : State := sS { srcKind := 3, owner := 1 } (inEff 0x108024 3 onDev)
    let i : Nat := 0
    let d := s.dev
    let e : Dev := (sS { srcKind := 3, owner := 1 } (inEff 0x108024 3 onDev)).dev
    let k : Nat := 1
    let rising : Bool := false
    decide (e = takeIo (some k) d) && decide (k < 2) && decide (effB e (0x108020 + 4 * k) 0 = true) && decide (effB e (0x108020 + 4 * k) 1 ≠ rising) && decide (e.time.ppsLast.getD k 0 = 0) && decide (e.time.ppsLast.length = 2) && decide (strPresent e i = true) && decide ((str e i).srcKind = 2 + k)) &&
  (
    let s : State := sS { srcKind := 2 } (inEff 0x108020 1 onDev)
    let i : Nat := 0
    let d := s.dev
    let e : Dev := (sS { srcKind := 2 } (inEff 0x108020 1 onDev)).dev
    let k : Nat := 0
    let rising : Bool := true
    decide (e = takeIo (some k) d) && decide (k < 2) && decide (effB e (0x108020 + 4 * k) 0 = true) && decide (effB e (0x108020 + 4 * k) 1 ≠ rising) && decide (e.time.ppsLast.getD k 0 = 0) && decide (e.time.ppsLast.length = 2) && decide (strPresent e i = true) && decide ((str e i).srcKind = 2 + k)) &&
  (
    let s : State := sS { ptpPorts := [(3, [0, 1])] } ptp0
    let port : Nat := 3
    let d := s.dev
    let cls : Nat := 7
    let rx : PtpRx := { transport := 0, stamp := 2 ^ 70 }
    let msg : Bytes := ann
    let j := classString d cls port
    let ours : Prop := cls < 64 ∧ ptpEn d j = true ∧ timeServiceUp d = true ∧ u8 msg 4 = effF d (tKey j 0x34) 7 0 ∧
        ptpRole d j port ≠ 0 ∧ rx.transport = ptpTransport d j port
    decide (ours)) &&
  (
    let s : State := sS { ptpPorts := [(3, [0, 1])] } ptp0
    let port : Nat := 3
    let d := s.dev
    let cls : Nat := 7
    let rx : PtpRx := { transport := 0, stamp := 2 ^ 70 }
    let msg : Bytes := ann
    let j := classString d cls port
    let ours : Prop := cls < 64 ∧ ptpEn d j = true ∧ timeServiceUp d = true ∧ u8 msg 4 = effF d (tKey j 0x34) 7 0 ∧
        ptpRole d j port ≠ 0 ∧ rx.transport = ptpTransport d j port
    decide (ours) && decide (ptpType msg = 11)) &&
  (
    let s : State := s0
    let port : Nat := 3
    let d := s.dev
    let cls : Nat := 7
    let rx : PtpRx := { transport := 0, stamp := 2 ^ 70 }
    let msg : Bytes := ann
    let j := classString d cls port
    let ours : Prop := cls < 64 ∧ ptpEn d j = true ∧ timeServiceUp d = true ∧ u8 msg 4 = effF d (tKey j 0x34) 7 0 ∧
        ptpRole d j port ≠ 0 ∧ rx.transport = ptpTransport d j port
    decide (¬ ours)) &&
  (
    let s : State := sS { ptpPorts := [(3, [0, 2])] } (ptp0 up3)
    let i : Nat := 0
    let port : Nat := 3
    let d := s.dev
    let m : PtpSend := { kind := 11 }
    decide (strPresent d i = true) && decide (ptpEn d i = true) && decide (timeServiceUp d = true) && decide (port < 48) && decide (portPresent d.variant port = true) && decide (canStart d port = true) && decide (ptpMaySend d i port m.kind = true) && decide ((ptpUnicast d i port = true → m.kind ≠ 0 ∧ m.kind ≠ 11))) &&
  (
    let s : State := sS { ptpPorts := [(3, [0, 3])] } (ptp0 up3)
    let i : Nat := 0
    let port : Nat := 3
    let d := s.dev
    let m : PtpSend := { kind := 1 }
    decide (strPresent d i = true) && decide (ptpEn d i = true) && decide (timeServiceUp d = true) && decide (port < 48) && decide (portPresent d.variant port = true) && decide (canStart d port = true) && decide (ptpMaySend d i port m.kind = true) && decide ((ptpUnicast d i port = true → m.kind ≠ 0 ∧ m.kind ≠ 11)) && decide (m.kind = 1)) &&
  (
    let s : State := s0
    let port : Nat := 47
    let d := s.dev
    decide (portPresent d.variant port = true) && decide (timeServiceUp d = true)) &&
  (
    let s : State := st up3
    let port : Nat := 3
    let d := s.dev
    decide (timeServiceUp d = true) && decide (port < 48) && decide (portPresent d.variant port = true) && decide (canStart d port = true)) &&
  (
    let s : State := st { onDev with time := { tick := 5000000000, esmc := [(3, { ql := some 2, last := 0 })] } }
    let port : Nat := 3
    let d := s.dev
    decide ((Tbl.get (fun _ => {}) d.time.esmc port : Esmc).ql.isSome = true) && decide ((Tbl.get (fun _ => {}) d.time.esmc port : Esmc).last + 5000000000 ≤ now d))) = true := by decide +kernel
end WReferencesPulsesAndTimeMessages

/-! RefusedCommitTakesNoEffect -/
namespace WRefusedCommitTakesNoEffect
/-- States and operands that meet the hypotheses of RefusedCommitTakesNoEffect. -/
theorem test_witness : (
  (
    let s : State := st (reg 0x600008 1 { onDev with cap := [(0x600014, 3)] })
    let b : Nat := 0x600000
    let dir : Nat := 0
    decide (isGroup b = true) && decide (bitR s.dev (b + 8) 0 = true) && decide (regState s.dev b = 0) && decide (dir ≤ 1) && decide (partTaken s.dev b = false) && decide (capOk s.dev b = false)) &&
  (
    let s : State := st (reg 0x600008 1 { onDev with cap := [(0x600014, 3)] })
    let b : Nat := 0x600000
    let dir : Nat := 1
    decide (isGroup b = true) && decide (bitR s.dev (b + 8) 0 = true) && decide (regState s.dev b = 0) && decide (dir ≤ 1) && decide (partTaken s.dev b = false) && decide (capOk s.dev b = false))) = true := by decide +kernel
end WRefusedCommitTakesNoEffect

/-! RegisterAccessesTouchOneRegister -/
namespace WRegisterAccessesTouchOneRegister
/-- States and operands that meet the hypotheses of RegisterAccessesTouchOneRegister. -/
theorem test_witness : (
  (
    let s : State := st onDev
    let k : Nat := 0x901000
    let r : RegRow := (regRow 0x901000).getD (reg1 0 0 0)
    decide (s.dev.wr = []) && decide (fnPresent s.dev 0 = true) && decide (isFrozen s.dev 0 = false) && decide (s.dev.fatal = false) && decide (k % 4 = 0) && decide (k < 0xDF0000) && decide (regState s.dev k = 0) && decide (regRow k = some r) && decide (ownRow k = false) && decide (isGroup (k / 16 * 16) = false) && decide (bitR s.dev (groupOf k + 0xC) 0 = false)) &&
  (
    let s : State := st { onDev with ctrs := [(0x900120, 0x100000002)] }
    let k : Nat := 0x900120
    decide (s.dev.wr = []) && decide (isCtr k = true) && decide (k % 8 = 0) && decide (isFrozen s.dev 0 = false) && decide (k < 0x1000000) && decide (regState s.dev k = 0) && decide (isGroup (k / 16 * 16) = false) && decide (¬(k < 0x108000 ∧ 0x100000 ≤ k ∧ k % 0x1000 = 0x60))) &&
  (
    let s : State := st { onDev with xings := [⟨1, 9, false, .ingress {}⟩] }
    let src := 1
    let dst := 9
    let it := Item.ingress {}
    let rest := ([] : List Xing)
    decide (s.dev.wr = []) && decide (s.dev.xings = ⟨src, dst, false, it⟩ :: rest))) = true := by decide +kernel
end WRegisterAccessesTouchOneRegister

/-! ReleaseConsumesOneSequenceNumber -/
namespace WReleaseConsumesOneSequenceNumber
/-- States and operands that meet the hypotheses of ReleaseConsumesOneSequenceNumber. -/
theorem test_witness : (
  (
    let c : Nat := 2
    decide (c < 4))) = true := by decide +kernel
end WReleaseConsumesOneSequenceNumber

/-! ResetsKeepWhatTheyKeep -/
namespace WResetsKeepWhatTheyKeep
def run (t : Option Nat := none) (d : Dev := onDev) : Dev := { d with foot := { boot := .running, pg := true, healthy := true }, resetAt := t, time := { d.time with tick := 500 } }
/-- States and operands that meet the hypotheses of ResetsKeepWhatTheyKeep. -/
theorem test_witness : (
  (
    let s : State := st run
    let c : Cmd := cmd 0 [(20,4,0x4D524157)]
    let d := s.dev
    let st := firstStatus [(decide (c.fn ≠ 0) || (cmdSelf c).isNone, stNotPermitted),
        (!(reservedOk c [(20, 4)]) || decide (c.f 20 4 ≠ 0x4D524157), stBadParam), (!d.foot.pg, stBadState)]
    decide (st = 0)) &&
  (
    let s : State := st run
    let c : Cmd := cmd 0 []
    let d := s.dev
    let st := firstStatus [(decide (c.fn ≠ 0) || (cmdSelf c).isNone, stNotPermitted),
        (!(reservedOk c [(20, 4)]) || decide (c.f 20 4 ≠ 0x4D524157), stBadParam), (!d.foot.pg, stBadState)]
    decide (st ≠ 0)) &&
  (
    let s : State := st (run (some 600))
    let d := s.dev
    let t := 600
    decide (d.resetAt = some t) && decide (now d < t)) &&
  (
    let s : State := st { run (some 400) with foot := {} }
    let d := s.dev
    let t := 400
    decide (d.resetAt = some t) && decide (t ≤ now d) && decide (d.foot.boot ≠ .running)) &&
  (
    let s : State := st (run (some 400))
    let tagBad : List Nat := []
    let d := s.dev
    let t := 400
    decide (d.resetAt = some t) && decide (t ≤ now d) && decide (d.foot.boot = .running) && decide (d.foot.lifecycle ≠ 2) && decide (d.foot.runSlot ∉ tagBad)) &&
  (
    let k := 0x800
    decide (warmKept k = true)) &&
  (
    let k := 0x810
    decide (warmKept k = true)) &&
  (
    let k := 0x401100
    decide (warmKept k = false)) &&
  (
    let ns := 10000
    decide (10000 ≤ ns))) = true := by decide +kernel
end WResetsKeepWhatTheyKeep

/-! SchedulersFollowTheirGates -/
namespace WSchedulersFollowTheirGates
def fr : Frame := { bytes := zeros 60, port := 1 }
def up3 : Dev := egqW 3 2 [fr, fr] (egqW 3 7 [fr] (inEff (sKey 3 (0x100 + 16 * 7)) 3 (reg (pKey 3 0x40) 0x68000004 onDev)))
def gc (t : Nat) : GateCfg := { list := [(5, 1000), (2, 9000)], cycle := 10000, ext := 0, start := t }
def gd (t : Nat) : Dev := schedU 3 (fun x => { x with gateOn := true, pend := some (gc t) }) onDev
/-- States and operands that meet the hypotheses of SchedulersFollowTheirGates. -/
theorem test_witness : (
  (
    let s : State := st up3
    let p : Nat := 3
    let q : Nat := 2
    let lead : Nat := 65536
    let a : Nat := 2
    let d := s.dev
    let plan := portQ d p + lead
    let at_ := txStampQ d p (plan : Int) a
    decide (canStart d p = true) && decide (shaperOpen d p 16 = true) && decide (inIdle d p a lead = false) && decide (q < 4) && decide (openFor d p q at_ = true) && decide ((∀ r < q, openFor d p r at_ = false)) && decide ((∀ (r : Nat), r < 16 → openFor d p r at_ = true → guardOk d p r at_ = true))) &&
  (
    let s : State := st (reg (pKey 3 0x40) 0x68000004 (schedU 3 (fun x => { x with inTurn := true, ptr := 2 }) onDev))
    let p : Nat := 3
    let lead : Nat := 65536
    let a : Nat := 2
    let d := s.dev
    let plan := portQ d p + lead
    let at_ := txStampQ d p (plan : Int) a
    decide (canStart d p = true) && decide ((∀ (r : Nat), r < 16 → openFor d p r at_ = false))) &&
  (
    let s : State := s0
    let p : Nat := 3
    let d := s.dev
    decide (canStart d p = false)) &&
  (
    let s : State := st (gd 0)
    let p : Nat := 3
    let d := s.dev
    decide ((schedP d p).gateOn = true)) &&
  (
    let s : State := st (gd 0)
    let p : Nat := 3
    let d := s.dev
    decide ((schedP d p).gateOn = true) && decide ((port d p).lineQ = none)) &&
  (
    let s : State := st (gd 0)
    let p : Nat := 3
    let d := s.dev
    let n := gc 0
    decide ((schedP d p).pend = some n) && decide (n.start ≤ portQ d p)) &&
  (
    let s : State := st (gd 9)
    let p : Nat := 3
    let d := s.dev
    let n := gc 9
    decide ((schedP d p).pend = some n) && decide (portQ d p < n.start)) &&
  (
    let s : State := st (rateNote (rateKey 0x71 3) 6 onDev)
    let p : Nat := 3
    let d := s.dev
    let k := rateKey 0x71 p
    decide (rateDue d k = true)) &&
  (
    let s : State := s0
    let c : Cmd := cmd 0 [(16,1,3),(17,1,1),(24,8,64)]
    let d := s.dev
    decide ((firstStatus [ (decide (c.fn ≠ 0) || (cmdSelf c).isNone, stNotPermitted), (!(reservedOk c [(16, 1), (17, 1), (24, 8)]) || decide (1 < c.f 17 1) || decide (48 ≤ c.f 16 1) || decide (c.f 24 8 % 64 ≠ 0), stBadParam), (!(portPresent d.variant (c.f 16 1)), stAbsent), (!(islandOn d (epIsland (egressPipe d (c.f 16 1)))), stUnitOff)]) = 0))) = true := by decide +kernel
end WSchedulersFollowTheirGates

/-! SpdmRequestsAreAnsweredInOrder -/
namespace WSpdmRequestsAreAnsweredInOrder
def run (n : Nat) (lc : Nat := 1) : State := st { onDev with foot := { boot := .running, lifecycle := lc }, spdmMctp := n, comps := [{ id := 1, svn := 2, version := 3, digest := [1, 2] }] }
def rq (v code : Byte) (n : Nat := 40) : Bytes := [v, code, 0, 1] ++ zeros n
/-- States and operands that meet the hypotheses of SpdmRequestsAreAnsweredInOrder. -/
theorem test_witness : (
  (
    let s : State := run 0
    let c : Carrier := .mctp
    let req : Bytes := rq 0x13 0x84
    decide (spdmServes s.dev c = true) && decide (4 ≤ req.length) && decide (req.length ≤ 16384)) &&
  (
    let s : State := run 0
    let c : Carrier := .mctp
    let req : Bytes := rq 0x12 0xE1
    decide (spdmServes s.dev c = true) && decide (4 ≤ req.length) && decide (req.length ≤ 16384) && decide (u8 req 0 ≠ 0x13)) &&
  (
    let s : State := run 1
    let c : Carrier := .mctp
    let req : Bytes := rq 0x13 0x84
    let d := s.dev
    decide (spdmServes s.dev c = true) && decide (4 ≤ req.length) && decide (req.length ≤ 16384) && decide (u8 req 0 = 0x13) && decide (1 ≤ spdmSt d c)) &&
  (
    let s : State := run 0
    let c : Carrier := .mctp
    let req : Bytes := rq 0x13 0x84
    let d := s.dev
    decide (spdmServes s.dev c = true) && decide (4 ≤ req.length) && decide (req.length ≤ 16384) && decide (u8 req 0 = 0x13) && decide (spdmSt d c = 0)) &&
  (
    let s : State := run 2
    let c : Carrier := .mctp
    let req : Bytes := rq 0x13 0x84
    let d := s.dev
    decide (spdmServes s.dev c = true) && decide (4 ≤ req.length) && decide (req.length ≤ 16384) && decide (u8 req 0 = 0x13) && decide (2 ≤ spdmSt d c)) &&
  (
    let s : State := run 3
    let c : Carrier := .mctp
    let req : Bytes := rq 0x13 0x84
    let d := s.dev
    decide (spdmServes s.dev c = true) && decide (4 ≤ req.length) && decide (req.length ≤ 16384) && decide (u8 req 0 = 0x13) && decide (3 ≤ spdmSt d c)) &&
  (
    let s : State := run 2
    let c : Carrier := .mctp
    let req : Bytes := rq 0x13 0x84
    let d := s.dev
    decide (spdmServes s.dev c = true) && decide (4 ≤ req.length) && decide (req.length ≤ 16384) && decide (u8 req 0 = 0x13) && decide (spdmSt d c < 3)) &&
  (
    let s : State := run 0
    let c : Carrier := .mctp
    let req : Bytes := rq 0x13 0x84
    decide (spdmServes s.dev c = true) && decide (4 ≤ req.length) && decide (req.length ≤ 16384) && decide (u8 req 1 = 0x84)) &&
  (
    let s : State := run 0
    let c : Carrier := .mctp
    let req : Bytes := rq 0x13 0x99
    decide (spdmServes s.dev c = true) && decide (4 ≤ req.length) && decide (req.length ≤ 16384) && decide (u8 req 0 = 0x13) && decide (u8 req 1 ∉ [0x81, 0x82, 0x83, 0x84, 0xE0, 0xE1, 0xE3])) &&
  (
    let s : State := run 3 2
    let c : Carrier := .mctp
    let req : Bytes := rq 0x13 0x84
    let d := s.dev
    decide (spdmServes s.dev c = true) && decide (4 ≤ req.length) && decide (req.length ≤ 16384) && decide (d.foot.lifecycle = 2) && decide (u8 req 0 = 0x13) && decide (3 ≤ spdmSt d c)) &&
  (
    let s : State := run 3
    let c : Carrier := .mctp
    let req : Bytes := rq 0x13 0x84
    let d := s.dev
    let i := 0
    let x : Comp := { id := 1, svn := 2, version := 3, digest := [1, 2] }
    decide (spdmServes s.dev c = true) && decide (4 ≤ req.length) && decide (req.length ≤ 16384) && decide (d.comps[i]? = some x) && decide (i < 254) && decide (u8 req 0 = 0x13) && decide (3 ≤ spdmSt d c) && decide (u8 req 2 = 0) && decide (u8 req 3 = i + 1))) = true := by decide +kernel
end WSpdmRequestsAreAnsweredInOrder

/-! StoresWriteOnlyTheirBytes -/
namespace WStoresWriteOnlyTheirBytes
def dmem (p : Nat) : Dev := inMem (spc onDev (coreSpace 1 0)) 0x40 [0x81, 0x92, 0xA3, 0xB4, 0xC5, 0xD6, 0xE7, 0xF8] onDev
def cmem : Dev := inMem (spc onDev (clusterSpace 1)) 0x40 [0x81, 0x92, 0xA3, 0xB4, 0xC5, 0xD6, 0xE7, 0xF8] onDev
def wmem : Dev := inMem (spc onDev (windowSpace 1 3)) 0x41 [0x81, 0x92, 0xA3, 0xB4, 0xC5, 0xD6, 0xE7, 0xF8] onDev
/-- States and operands that meet the hypotheses of StoresWriteOnlyTheirBytes. -/
theorem test_witness : (
  (
    let s : State := iss (encI 0x18 5 6 0xFFF0) [(6, 0x50), (5, 0x8877665544332211)] id (dmem 0)
    let c : Nat := 1
    let t : Nat := 3
    let S : BitVec 5 := 5
    let A : BitVec 5 := 6
    let imm : BitVec 16 := 0xFFF0
    let p : GPlace := .data 0x40
    let ea := (greg s.dev c t A + imm.signExtend 64).toNat % 2 ^ 32
    decide (s.dev.wr = [] ∧ placeOf ea 1 = some p ∧ ea % 1 = 0 ∧ IssuesSeq s.dev c t (encI 0x18 S A imm))) &&
  (
    let s : State := iss (encI 0x18 5 6 0xFFF0) [(6, 0x1000050), (5, 0x8877665544332211)] id cmem
    let c : Nat := 1
    let t : Nat := 3
    let S : BitVec 5 := 5
    let A : BitVec 5 := 6
    let imm : BitVec 16 := 0xFFF0
    let p : GPlace := .cluster 0x40
    let ea := (greg s.dev c t A + imm.signExtend 64).toNat % 2 ^ 32
    decide (s.dev.wr = [] ∧ placeOf ea 1 = some p ∧ ea % 1 = 0 ∧ IssuesSeq s.dev c t (encI 0x18 S A imm))) &&
  (
    let s : State := iss (encI 0x19 5 6 0xFFF0) [(6, 0x50), (5, 0x8877665544332211)] id (dmem 0)
    let c : Nat := 1
    let t : Nat := 3
    let S : BitVec 5 := 5
    let A : BitVec 5 := 6
    let imm : BitVec 16 := 0xFFF0
    let p : GPlace := .data 0x40
    let ea := (greg s.dev c t A + imm.signExtend 64).toNat % 2 ^ 32
    decide (s.dev.wr = [] ∧ placeOf ea 2 = some p ∧ ea % 2 = 0 ∧ IssuesSeq s.dev c t (encI 0x19 S A imm))) &&
  (
    let s : State := iss (encI 0x19 5 6 0xFFF0) [(6, 0x1000050), (5, 0x8877665544332211)] id cmem
    let c : Nat := 1
    let t : Nat := 3
    let S : BitVec 5 := 5
    let A : BitVec 5 := 6
    let imm : BitVec 16 := 0xFFF0
    let p : GPlace := .cluster 0x40
    let ea := (greg s.dev c t A + imm.signExtend 64).toNat % 2 ^ 32
    decide (s.dev.wr = [] ∧ placeOf ea 2 = some p ∧ ea % 2 = 0 ∧ IssuesSeq s.dev c t (encI 0x19 S A imm))) &&
  (
    let s : State := iss (encI 0x1A 5 6 0xFFF0) [(6, 0x50), (5, 0x8877665544332211)] id (dmem 0)
    let c : Nat := 1
    let t : Nat := 3
    let S : BitVec 5 := 5
    let A : BitVec 5 := 6
    let imm : BitVec 16 := 0xFFF0
    let p : GPlace := .data 0x40
    let ea := (greg s.dev c t A + imm.signExtend 64).toNat % 2 ^ 32
    decide (s.dev.wr = [] ∧ placeOf ea 4 = some p ∧ ea % 4 = 0 ∧ IssuesSeq s.dev c t (encI 0x1A S A imm))) &&
  (
    let s : State := iss (encI 0x1A 5 6 0xFFF0) [(6, 0x1000050), (5, 0x8877665544332211)] id cmem
    let c : Nat := 1
    let t : Nat := 3
    let S : BitVec 5 := 5
    let A : BitVec 5 := 6
    let imm : BitVec 16 := 0xFFF0
    let p : GPlace := .cluster 0x40
    let ea := (greg s.dev c t A + imm.signExtend 64).toNat % 2 ^ 32
    decide (s.dev.wr = [] ∧ placeOf ea 4 = some p ∧ ea % 4 = 0 ∧ IssuesSeq s.dev c t (encI 0x1A S A imm))) &&
  (
    let s : State := iss (encI 0x1B 5 6 0xFFF0) [(6, 0x50), (5, 0x8877665544332211)] id (dmem 0)
    let c : Nat := 1
    let t : Nat := 3
    let S : BitVec 5 := 5
    let A : BitVec 5 := 6
    let imm : BitVec 16 := 0xFFF0
    let p : GPlace := .data 0x40
    let ea := (greg s.dev c t A + imm.signExtend 64).toNat % 2 ^ 32
    decide (s.dev.wr = [] ∧ placeOf ea 8 = some p ∧ ea % 8 = 0 ∧ IssuesSeq s.dev c t (encI 0x1B S A imm))) &&
  (
    let s : State := iss (encI 0x1B 5 6 0xFFF0) [(6, 0x1000050), (5, 0x8877665544332211)] id cmem
    let c : Nat := 1
    let t : Nat := 3
    let S : BitVec 5 := 5
    let A : BitVec 5 := 6
    let imm : BitVec 16 := 0xFFF0
    let p : GPlace := .cluster 0x40
    let ea := (greg s.dev c t A + imm.signExtend 64).toNat % 2 ^ 32
    decide (s.dev.wr = [] ∧ placeOf ea 8 = some p ∧ ea % 8 = 0 ∧ IssuesSeq s.dev c t (encI 0x1B S A imm)))) = true := by decide +kernel
end WStoresWriteOnlyTheirBytes

/-! StringsAdvanceAndChangesApply -/
namespace WStringsAdvanceAndChangesApply
def sS (x : Str) (d : Dev := onDev) : State := st { d with strs := [(0, x)] }
def tp (n : Nat) (d : Dev := onDev) : Dev := tapW n { reps := [{}] } d
/-- States and operands that meet the hypotheses of StringsAdvanceAndChangesApply. -/
theorem test_witness : (
  (
    let s : State := sS { sched := [⟨0, .incr 5, none⟩] } (tp 23)
    let i : Nat := 0
    let d := s.dev
    let v : Nat := 5
    let a : Nat := 0
    let rest := ([] : List Sched)
    decide (takeDue d i = some (⟨a, .incr v, none⟩, rest))) &&
  (
    let s : State := sS { sched := [⟨0, .drone 5 0, none⟩] }
    let i : Nat := 0
    let d := s.dev
    let v : Nat := 5
    let a : Nat := 0
    let rest := ([] : List Sched)
    decide (takeDue d i = some (⟨a, .drone v 0, none⟩, rest))) &&
  (
    let s : State := sS { sched := [⟨0, .utc (some 37) 1, none⟩] }
    let i : Nat := 0
    let d := s.dev
    let off : Option Int := some 37
    let fl : Nat := 1
    let a : Nat := 0
    let rest := ([] : List Sched)
    decide (takeDue d i = some (⟨a, .utc off fl, none⟩, rest))) &&
  (
    let s : State := sS { utcOffset := 3, sched := [⟨0, .utc none 1, none⟩] }
    let i : Nat := 0
    let d := s.dev
    let off : Option Int := none
    let fl : Nat := 1
    let a : Nat := 0
    let rest := ([] : List Sched)
    decide (takeDue d i = some (⟨a, .utc off fl, none⟩, rest))) &&
  (
    let s : State := sS { sched := [⟨0, .step 9, none⟩] }
    let i : Nat := 0
    let d := s.dev
    let e : Sched := ⟨0, .step 9, none⟩
    let rest := ([] : List Sched)
    let c : Nat := (jumpCause (.step 9)).getD 9
    decide (takeDue d i = some (e, rest)) && decide (jumpCause e.what = some c)) &&
  (
    let s : State := sS { sched := [⟨0, .load 9 0, none⟩] }
    let i : Nat := 0
    let d := s.dev
    let e : Sched := ⟨0, .load 9 0, none⟩
    let rest := ([] : List Sched)
    let c : Nat := (jumpCause (.load 9 0)).getD 9
    decide (takeDue d i = some (e, rest)) && decide (jumpCause e.what = some c)) &&
  (
    let s : State := sS { sched := [⟨0, .carried, none⟩] }
    let i : Nat := 0
    let d := s.dev
    let e : Sched := ⟨0, .carried, none⟩
    let rest := ([] : List Sched)
    decide (takeDue d i = some (e, rest)) && decide (jumpCause e.what = none)) &&
  (
    let s : State := sS { slew := 3, sched := [⟨0, .step 9, none⟩] }
    let i : Nat := 0
    let d := s.dev
    let e : Sched := ⟨0, .step 9, none⟩
    let rest := ([] : List Sched)
    let delta : Int := 9
    decide (takeDue d i = some (e, rest)) && decide (e.what = .step delta) && decide (e.held = none)) &&
  (
    let s : State := sS { sched := [⟨0, .load 9 0, none⟩] }
    let i : Nat := 0
    let d := s.dev
    let e : Sched := ⟨0, .load 9 0, none⟩
    let rest := ([] : List Sched)
    let v : Nat := 9
    let r : Nat := 0
    decide (takeDue d i = some (e, rest)) && decide (e.what = .load v r) && decide (e.held = none)) &&
  (
    let s : State := s0
    let i : Nat := 0
    let d := s.dev
    decide (takeDue d i = none)) &&
  (
    let s : State := sS { slew := 1, freq := 3 }
    let i : Nat := 0
    let d := s.dev
    let x := str d i
    decide (x.slew ≠ 0) && decide (x.slewEnd ≤ now d)) &&
  (
    let s : State := sS { leap := some (38, 0) }
    let i : Nat := 0
    let d := s.dev
    let x := str d i
    let off : Int := 38
    let due : Nat := 0
    decide (x.leap = some (off, due)) && decide (due ≤ x.t / secUnit)) &&
  (
    let s : State := sS { leap := some (38, 9) }
    let i : Nat := 0
    let d := s.dev
    let x := str d i
    let off : Int := 38
    let due : Nat := 9
    decide (x.leap = some (off, due)) && decide (x.t / secUnit < due)) &&
  (
    let s : State := st (tp 23)
    let n : Nat := 23
    let d := s.dev
    decide (hasTap n = true) && decide (islandOn d n = true) && decide ((tap d n).reps ≠ [])) &&
  (
    let s : State := st (tp 23)
    let n : Nat := 23
    let d := s.dev
    decide (hasTap n = true) && decide (islandOn d n = true) && decide ((tap d n).reps ≠ []) && decide (8 < n)) &&
  (
    let s : State := st (tp 3)
    let n : Nat := 3
    let d := s.dev
    decide (hasTap n = true) && decide (islandOn d n = true) && decide ((tap d n).reps ≠ []) && decide (1 ≤ n) && decide (n ≤ 8)) &&
  (
    let s : State := s0
    let n : Nat := 23
    let d := s.dev
    decide (hasTap n = true) && decide (islandOn d n = true)) &&
  (
    let s : State := s0
    let i : Nat := 0
    let d := s.dev
    decide (strPresent d i = true)) &&
  (
    let s : State := s0
    let i : Nat := 8
    let d := s.dev
    decide (strPresent d i = false)) &&
  (
    let s : State := s0
    let d := s.dev
    decide (now d % 1024 = 0) && decide (d.time.lastCycle ≠ some (now d)))) = true := by decide +kernel
end WStringsAdvanceAndChangesApply

/-! TimeCommandsAreServed -/
namespace WTimeCommandsAreServed
def sS (x : Str) (d : Dev := onDev) : State := st { d with strs := [(0, x)] }
def ptp0 : Dev := inEff (tKey 0 0x34) 0x100 onDev
/-- States and operands that meet the hypotheses of TimeCommandsAreServed. -/
theorem test_witness : (
  (
    let s : State := s0
    let c : Cmd := cmd 0 [(24, 12, 0x10000), (36, 1, 1)]
    let d := s.dev
    let i := cmdStr c
    let x := str d i
    let busy := decide (x.st ≠ .drone) || (decide (c.f 36 1 = 1) && decide (x.drone = 0))
    decide ((timeStatus d c [(24, 12), (36, 1), (40, 8)] (decide (2 ≤ c.f 36 1) || decide (c.f 40 8 % 32 ≠ 0) || decide (1000000000 ≤ c.f 24 12 / 2 ^ 16 % 2 ^ 32)) false busy) = 0)) &&
  (
    let s : State := s0
    let c : Cmd := cmd 0 [(24, 5, 5)]
    let d := s.dev
    let i := cmdStr c
    let x := str d i
    let busy := decide (x.st ≠ .drone) || (decide (c.f 36 1 = 1) && decide (x.drone = 0))
    decide ((timeStatus d c [(24, 5), (36, 1), (40, 8)] (decide (2 ≤ c.f 36 1) || decide (c.f 40 8 % 32 ≠ 0)) false busy) = 0)) &&
  (
    let s : State := sS { st := .locked, srcKind := 4 }
    let c : Cmd := c0
    let d := s.dev
    decide ((timeStatus d c [] false false false) = 0)) &&
  (
    let s : State := sS { st := .locked, srcKind := 4 }
    let c : Cmd := c0
    let d := s.dev
    decide (timeStatus d c [] false false false = 0)) &&
  (
    let s : State := s0
    let c : Cmd := cmd 0 [(17, 1, 4), (20, 4, 60000)]
    let d := s.dev
    let kind := 4
    decide (kind = c.f 17 1) && decide (timeStatus d c [(17, 1), (18, 1), (20, 4)] (decide (kind = 0) || decide (5 ≤ kind) || (decide (kind = 1) && decide (48 ≤ c.f 18 1)) || (decide (kind = 4) && decide (60000 < c.f 20 4))) false false = 0) && decide ((kind = 1 → portPresent d.variant (c.f 18 1) = true))) &&
  (
    let s : State := sS { st := .holdover }
    let c : Cmd := cmd 0 [(17, 1, 1), (18, 1, 47)]
    let d := s.dev
    let kind := 1
    decide (kind = c.f 17 1) && decide (timeStatus d c [(17, 1), (18, 1), (20, 4)] (decide (kind = 0) || decide (5 ≤ kind) || (decide (kind = 1) && decide (48 ≤ c.f 18 1)) || (decide (kind = 4) && decide (60000 < c.f 20 4))) false false = 0) && decide ((kind = 1 → portPresent d.variant (c.f 18 1) = true))) &&
  (
    let s : State := sS { st := .acquire, owner := 1, srcKind := 4 }
    let c : Cmd := cmd 0 [(24, 8, 3), (32, 4, 9)]
    let d := s.dev
    let i := cmdStr c
    let x := str d i
    decide (timeStatus d c [(24, 8), (32, 4), (36, 12)] (decide (c.f 32 4 = 0xFFFFFFFF) || decide (1000000000 ≤ c.f 36 12 / 2 ^ 16 % 2 ^ 32)) (decide (x.owner ≠ 1)) (decide (x.st = .drone)) = 0)) &&
  (
    let s : State := sS { st := .locked, owner := 1 }
    let c : Cmd := cmd 0 [(24, 5, 3)]
    let d := s.dev
    let i := cmdStr c
    let x := str d i
    decide ((timeStatus d c [(24, 5)] (decide (freqClamp < ((toSigned 40 (c.f 24 5)).natAbs : Int))) (decide (x.owner ≠ 1)) (decide (x.st = .drone))) = 0)) &&
  (
    let s : State := sS { owner := 1 }
    let c : Cmd := cmd 0 [(20, 2, 37), (22, 1, 28)]
    let d := s.dev
    let i := cmdStr c
    let x := str d i
    decide (c.f 22 1 % 4 = 0) && decide ((timeStatus d c [(20, 2), (22, 1)] (decide (32 ≤ c.f 22 1)) (decide (x.owner ≠ 1)) false) = 0)) &&
  (
    let s : State := sS { owner := 1 }
    let c : Cmd := cmd 0 [(20, 2, 37), (22, 1, 1)]
    let d := s.dev
    let i := cmdStr c
    let x := str d i
    decide (c.f 22 1 % 4 ≠ 0) && decide ((timeStatus d c [(20, 2), (22, 1)] (decide (32 ≤ c.f 22 1)) (decide (x.owner ≠ 1)) false) = 0)) &&
  (
    let s : State := s0
    let c : Cmd := cmd 0 [(24, 8, 0x20)]
    let d := s.dev
    decide ((timeStatus d c [(24, 8)] (decide (c.f 24 8 % 32 ≠ 0)) false false) = 0)) &&
  (
    let s : State := st ptp0
    let c : Cmd := cmd 0 [(17, 1, 3), (18, 1, 4)]
    let d := s.dev
    let i := cmdStr c
    decide ((timeStatus d c [(17, 9), (26, 8)] (decide (4 ≤ c.f 17 1) || decide (5 ≤ c.f 18 1) || decide (4 ≤ c.f 23 1)) false (!(ptpEn d i))) = 0)) &&
  (
    let s : State := st ptp0
    let c : Cmd := cmd 0 [(17, 1, 3), (19, 1, 2), (23, 1, 2), (26, 1, 1)]
    let d := s.dev
    let i := cmdStr c
    decide ((firstStatus [ (decide (c.fn ≠ 0) || (cmdSelf c).isNone, stNotPermitted), (!(reservedOk c [(16, 11), (28, 4)]) || decide (8 ≤ i) || decide (48 ≤ c.f 17 1) || decide (4 ≤ c.f 18 1) || decide (3 ≤ c.f 19 1) || !(within (c.f 20 1) 7) || !(within (c.f 21 1) 7) || !(within (c.f 22 1) 3) || decide (c.f 23 1 < 2) || decide (3 ≤ c.f 24 1) || decide (8 ≤ c.f 25 1) || decide (c.f 26 1 = 0), stBadParam), (!(strPresent d i) || !(portPresent d.variant (c.f 17 1)), stAbsent), (!(ptpEn d i), stBadState)]) = 0)) &&
  (
    let c : Cmd := cmd 5 [(24, 8, 0x1000)]
    decide ((firstStatus [((cmdSelf c).isNone, stNotPermitted), (!(reservedOk c [(24, 8)]) || decide (c.f 24 8 % 4096 ≠ 0), stBadParam)]) = 0))) = true := by decide +kernel
end WTimeCommandsAreServed

/-! VfsAreConfiguredLoggedAndMoved -/
namespace WVfsAreConfiguredLoggedAndMoved
def lg : DirtyLog := { bitmap := 4096, iovaBase := 8192, pages := 9, pf := 0 }
def dl (l : DirtyLog := lg) (d : Dev := onDev) : State := st (fnU 5 (fun x => { x with log := some l }) d)
def blk0 : Bytes := patch (zeros 128) 0 ([0x42, 0x56, 0x46, 0x53, 1, 0, 0, 0, 128, 0, 0, 0])
def blk1 : Bytes := patch blk0 60 (leBytes 4 (crc32c blk0))
/-- States and operands that meet the hypotheses of VfsAreConfiguredLoggedAndMoved. -/
theorem test_witness : (
  (
    let s : State := st (queueU 5 0 3 (fun _ => { st := .stopped }) (inMem 0 4096 [1, 0, 0, 0, 7, 3]))
    let c : Cmd := cmd 0 [(16,2,5),(24,8,4096)]
    let d := s.dev
    let b := dmaRead d c.fn (c.f 24 8) 320
    decide ((tenantStatus d c [(24, 8)] false true (decide (c.f 24 8 % 64 ≠ 0) || !(vfBlockOk b)) false) = 0)) &&
  (
    let s : State := s0
    let c : Cmd := cmd 0 [(16,2,5),(24,8,4096),(32,8,8192),(40,8,9)]
    let d := s.dev
    let f := cmdTarget c
    decide ((tenantStatus d c [(24, 8), (32, 8), (40, 8)] false true (decide (c.f 24 8 % 4096 ≠ 0) || decide (c.f 32 8 % 4096 ≠ 0) || decide (c.f 40 8 = 0) || decide (2 ^ 40 < c.f 40 8)) (match (fn d f).log with | some l => l.running | none => false)) = 0)) &&
  (
    let s : State := dl
    let c : Cmd := cmd 0 [(16,2,5),(24,8,4096)]
    let d := s.dev
    let f := cmdTarget c
    let drainSt := tenantStatus d c [(24, 8)] false true (decide (c.f 24 8 % 4096 ≠ 0)) ((fn d f).log.isNone)
    let l := lg
    decide ((fn d f).log = some l) && decide (drainSt = 0) && decide (l.failed = false) && decide (c.f 24 8 ≠ 0)) &&
  (
    let s : State := s0
    let c : Cmd := cmd 0 [(16,2,5),(24,8,4096)]
    let d := s.dev
    let f := cmdTarget c
    let drainSt := tenantStatus d c [(24, 8)] false true (decide (c.f 24 8 % 4096 ≠ 0)) ((fn d f).log.isNone)
    decide (drainSt ≠ 0)) &&
  (
    let s : State := dl { lg with failed := true }
    let c : Cmd := cmd 0 [(16,2,5)]
    let d := s.dev
    let f := cmdTarget c
    let stopSt := tenantStatus d c [] false true false ((fn d f).log.isNone)
    let l := { lg with failed := true }
    decide ((fn d f).log = some l) && decide (stopSt = 0)) &&
  (
    let s : State := s0
    let c : Cmd := cmd 0 [(16,2,5),(24,8,4096)]
    let d := s.dev
    let f := cmdTarget c
    let stopSt := tenantStatus d c [] false true false ((fn d f).log.isNone)
    decide (stopSt ≠ 0)) &&
  (
    let s : State := s0
    let c : Cmd := cmd 0 [(16,2,5),(24,8,4096),(44,4,128)]
    let d := s.dev
    let f := cmdTarget c
    let len := c.f 44 4
    let frozen := fnU f (fun x => { x with frozen := true }) d
    let saveSt := tenantStatus d c [(24, 8), (44, 4)] false true (decide (c.f 24 8 % 64 ≠ 0))
        ([0, 1, 3].any fun qt => (liveQueues d f qt).any fun q => decide ((queue d f qt q).st ≠ .stopped))
    decide (saveSt = 0) && decide ((stateBlock frozen f).length ≤ len)) &&
  (
    let s : State := s0
    let c : Cmd := cmd 0 [(16,2,5),(24,8,4096),(44,4,127)]
    let d := s.dev
    let f := cmdTarget c
    let len := c.f 44 4
    let frozen := fnU f (fun x => { x with frozen := true }) d
    let saveSt := tenantStatus d c [(24, 8), (44, 4)] false true (decide (c.f 24 8 % 64 ≠ 0))
        ([0, 1, 3].any fun qt => (liveQueues d f qt).any fun q => decide ((queue d f qt q).st ≠ .stopped))
    decide (saveSt = 0) && decide (len < (stateBlock frozen f).length)) &&
  (
    let s : State := st (queueU 5 0 3 (fun _ => { st := .running }) onDev)
    let c : Cmd := cmd 0 [(16,2,5),(24,8,4096),(44,4,127)]
    let d := s.dev
    let f := cmdTarget c
    let saveSt := tenantStatus d c [(24, 8), (44, 4)] false true (decide (c.f 24 8 % 64 ≠ 0))
        ([0, 1, 3].any fun qt => (liveQueues d f qt).any fun q => decide ((queue d f qt q).st ≠ .stopped))
    decide (saveSt ≠ 0)) &&
  (
    let s : State := st (fnU 5 (fun x => { x with frozen := true }) onDev)
    let c : Cmd := cmd 0 [(16,2,5)]
    let d := s.dev
    let f := cmdTarget c
    let frozen := fnU f (fun x => { x with frozen := true }) d
    decide (mayDma (fnU f (fun x => { x with frozen := false }) d) f = false) && decide ((tenantStatus d c [] false true false (!(fn d f).frozen)) = 0)) &&
  (
    let s : State := st (fnU 5 (fun x => { x with frozen := true, bme := true }) onDev)
    let c : Cmd := cmd 0 [(16,2,5)]
    let d := s.dev
    let f := cmdTarget c
    let frozen := fnU f (fun x => { x with frozen := true }) d
    decide (mayDma (fnU f (fun x => { x with frozen := false }) d) f = true) && decide ((tenantStatus d c [] false true false (!(fn d f).frozen)) = 0)) &&
  (
    let s : State := st (fnU 5 (fun x => { x with ready := true }) (inMem 0 4096 blk1))
    let c : Cmd := cmd 0 [(16,2,5),(24,8,4096),(44,4,128)]
    let d := s.dev
    let f := cmdTarget c
    let len := c.f 44 4
    let blk := dmaRead d c.fn (c.f 24 8) (min len (le (dmaRead d c.fn (c.f 24 8) 64) 8 4))
    decide ((tenantStatus d c [(24, 8), (44, 4)] false true (!(blockOk d f len blk)) (!(fn d f).ready || ([0, 1, 2, 3].any fun qt => !(liveQueues d f qt).isEmpty) || bitR d (fnKey f 0x11C) 31 || bitR d (fnKey f 0x134) 31 || ((List.range 5).any fun i => decide ((grant d f (i + 1)).value < blockNeed blk (i + 1))) || decide (poolFree d < blockParked blk))) = 0))) = true := by decide +kernel
end WVfsAreConfiguredLoggedAndMoved

/-! WitnessCommandsAreServed -/
namespace WWitnessCommandsAreServed
/-- States and operands that meet the hypotheses of WitnessCommandsAreServed. -/
theorem test_witness : (
  (
    let s : State := jd { sealed_ := [{}] }
    let c : Cmd := cmd 0 [(44, 4, 128)]
    let a : Ashlar := {}
    let d := s.dev
    let w := d.wit
    let i := c.f 32 8
    let st := witStatus d c true [(16, 1), (17, 1), (20, 4), (24, 8), (32, 8), (40, 4), (44, 4)]
        (decide (4 < c.f 16 1) || decide (1 < c.f 17 1) || decide (c.f 24 8 % 64 ≠ 0)) []
    decide (st = 0) && decide (c.f 16 1 = 0) && decide ((w.sealed_.find? fun x => decide (x.index = i)) = some a) && decide ((headerBytes a).length ≤ c.f 44 4)) &&
  (
    let s : State := jd {}
    let c : Cmd := cmd 2 [(16, 1, 1), (32, 8, 5)]
    let d := s.dev
    let w := d.wit
    let i := c.f 32 8
    let st := witStatus d c true [(16, 1), (17, 1), (20, 4), (24, 8), (32, 8), (40, 4), (44, 4)]
        (decide (4 < c.f 16 1) || decide (1 < c.f 17 1) || decide (c.f 24 8 % 64 ≠ 0)) []
    decide (st = 0) && decide (c.f 16 1 ≠ 2) && decide (c.f 16 1 ≠ 4) && decide ((w.sealed_.find? fun x => decide (x.index = i)) = none)) &&
  (
    let s : State := jd {}
    let c : Cmd := cmd 1 []
    let d := s.dev
    let st := witStatus d c true [(16, 1), (17, 1), (20, 4), (24, 8), (32, 8), (40, 4), (44, 4)]
        (decide (4 < c.f 16 1) || decide (1 < c.f 17 1) || decide (c.f 24 8 % 64 ≠ 0)) []
    decide (st ≠ 0)) &&
  (
    let s : State := jd { durable := some 5, released := some 9 }
    let c : Cmd := cmd 0 [(32, 8, 5)]
    let d := s.dev
    let i := c.f 32 8
    decide ((witStatus d c false [(32, 8)] (witPresent d && !(isDurable d i)) []) = 0)) &&
  (
    let s : State := s0
    let c : Cmd := cmd 0 [(16, 1, 5), (44, 4, 0x10000)]
    let d := s.dev
    decide (witStatus d c true [(16, 1), (24, 8), (44, 4)] (decide (15 < c.f 16 1) || decide (c.f 24 8 % 64 ≠ 0)) [(decide (d.foot.lifecycle = 2), stBadState)] = 0)) &&
  (
    let s : State := s0
    let c : Cmd := cmd 0 [(24, 8, 4096), (32, 2, 1024)]
    let d := s.dev
    decide ((witStatus d c false [(24, 8), (32, 2)] (decide (c.f 24 8 % 4096 ≠ 0) || decide (1024 < c.f 32 2)) []) = 0)) &&
  (
    let s : State := jd { cur := some {} }
    let c : Cmd := cmd 0 [(16, 1, 1)]
    let a : Ashlar := {}
    let d := s.dev
    let w := d.wit
    decide (witStatus d c false [(16, 1), (17, 1)] (decide (1 < c.f 16 1) || decide (1 < c.f 17 1)) [(!(islandPresent d.variant (21 + c.f 16 1)), stAbsent), (decide (c.f 17 1 = 1) && w.relHalves.contains (c.f 16 1) && decide (unitStatus d (21 + c.f 16 1) ≠ 0), unitStatus d (21 + c.f 16 1)), (decide (c.f 17 1 = 0) && !(w.relHalves.contains (c.f 16 1)) && !(w.halfJobs.any fun j => decide (j.1 = c.f 16 1)) && !(halfInUse d (1 - c.f 16 1) && !(w.halfJobs.any fun j => decide (j.1 = 1 - c.f 16 1 ∧ j.2.1 = 0))), stBadState)] = 0) && decide (c.f 17 1 = 0) && decide (w.relHalves.contains (c.f 16 1) = false) && decide ((w.halfJobs.any fun j => decide (j.1 = c.f 16 1)) = false) && decide (w.cur = some a)) &&
  (
    let s : State := s0
    let c : Cmd := cmd 0 [(17, 1, 1), (24, 8, 64)]
    let d := s.dev
    decide ((witStatus d c false [(17, 1), (24, 8)] (decide (1 < c.f 17 1) || decide (c.f 24 8 % 64 ≠ 0)) []) = 0))) = true := by decide +kernel
end WWitnessCommandsAreServed

/-! ### Witnesses whose hypotheses speak of a command's answer -/

/-- StepRunsTheFrontCommandOrIdles: a state with no command waiting. -/
theorem test_witness_idle : s0.pending = [] := rfl

/-- EveryStepKeepsTheInvariant: a state with the invariant and a command waiting, and what its step answers. -/
theorem test_witness_step : ∃ s t : State, Inv s ∧ s.pending = [.timeTick] ∧ step s = .next t :=
  ⟨{ dev := onDev, pending := [.timeTick] }, _, ⟨by decide, rfl⟩, rfl, rfl⟩

/-- OnlyEligibleQueuesStartFrames: a selection that changes a queue. -/
def selDev : Dev :=
  egqW 3 7 [{ bytes := zeros 60, port := 1 }, { bytes := zeros 60, port := 1 }]
    (inEff (sKey 3 (0x100 + 16 * 7)) 3 (reg (pKey 3 0x40) 0x68000004 onDev))
theorem test_witness_select : ∃ s t : State, exec (.schedulerSelect 3 65536 0) s = .next t ∧ egq t.dev 3 7 ≠ egq s.dev 3 7 :=
  ⟨st selDev, _, rfl, by decide +kernel⟩

/-- FusesOnlyAdvance: an advance of the epoch. -/
def fuseCmd : Cmd := cmd 0 [(20, 4, 4)]
theorem test_witness_fuses : ∃ s t : State, exec (.footEpochAdvance fuseCmd []) s = .next t ∧ s.dev.foot.epoch < t.dev.foot.epoch :=
  ⟨st { onDev with foot := { boot := .running, epoch := 3, svn := 2, revoked := 1 }, dram := { slots := [[0]] } }, _, rfl, by decide +kernel⟩

theorem test_witness_merkle : 2 * 0 + 1 < [[1], [2], [3]].length ∧ 2 * 1 + 1 = [[1], [2], [3]].length ∧ 2 ≤ [[1], [2], [3]].length ∧
    [[1], [2], [3]].length ≤ 2 ^ 2 := by decide
theorem test_witness_reset : fnPresent State.reset.dev 0 = true ∧ islandOn State.reset.dev 0 = true := by decide +kernel

end Sys2Proof.Tests
end

/-! SUPPORT. Bits of a register after a field is written; what posting an event leaves of the device map. -/

namespace Sys2Proof

/-- A write of a field replaces the bits of the field and leaves the others. -/
theorem Word.bit_put (w : Word) (hi lo v j : Nat) (hlo : lo ≤ hi) (hj : j < 32) :
    Word.bit (Word.put w hi lo v) j = if lo ≤ j ∧ j ≤ hi then v.testBit (j - lo) else Word.bit w j := by
  have hsum : w.toNat % 2 ^ lo + v % 2 ^ (hi + 1 - lo) * 2 ^ lo + w.toNat / 2 ^ (hi + 1) * 2 ^ (hi + 1) =
      2 ^ lo * (2 ^ (hi + 1 - lo) * (w.toNat / 2 ^ (hi + 1)) + v % 2 ^ (hi + 1 - lo)) + w.toNat % 2 ^ lo := by
    have hpow : 2 ^ (hi + 1) = 2 ^ lo * 2 ^ (hi + 1 - lo) := by rw [← pow_add]; congr 1; omega
    rw [hpow]; ring
  have hput : Word.bit (Word.put w hi lo v) j = Nat.testBit
      (w.toNat % 2 ^ lo + v % 2 ^ (hi + 1 - lo) * 2 ^ lo + w.toNat / 2 ^ (hi + 1) * 2 ^ (hi + 1)) j := by
    simp only [Word.bit, Word.put, BitVec.getLsbD_ofNat, hj, decide_true, Bool.true_and]
  have hbit : Word.bit w j = w.toNat.testBit j := rfl
  rw [hput, hsum, Nat.testBit_two_pow_mul_add _ (Nat.mod_lt _ (by positivity)),
    Nat.testBit_two_pow_mul_add _ (Nat.mod_lt _ (by positivity)), hbit]
  by_cases hbelow : j < lo
  · simp [hbelow, Nat.testBit_mod_two_pow, Nat.not_le.mpr hbelow]
  · by_cases hin : j ≤ hi
    · simp [hbelow, hin, Nat.testBit_mod_two_pow, show lo ≤ j by omega, show j - lo < hi + 1 - lo by omega]
    · simp [hbelow, hin, Nat.testBit_div_two_pow, show ¬ j - lo < hi + 1 - lo by omega,
        show j - lo - (hi + 1 - lo) + (hi + 1) = j by omega]

end Sys2Proof

namespace Sys2Proof.Machine

/-! ### Bits of a register -/

@[simp] theorem bitR_bitW_self (k i : Nat) (b : Bool) (d : Dev) (hi : i < 32) : bitR (bitW k i b d) k i = b := by
  simp only [bitR, bitW, fldW, regR_regW_self, Word.bit_put _ _ _ _ _ le_rfl hi]
  cases b <;> simp [b2n]

/-- A write of a bit leaves every other bit of the register. -/
theorem bitR_bitW_ne (k i j : Nat) (b : Bool) (d : Dev) (hj : j < 32) (h : j ≠ i) : bitR (bitW k i b d) k j = bitR d k j := by
  simp only [bitR, bitW, fldW, regR_regW_self, Word.bit_put _ _ _ _ _ le_rfl hj]
  rw [if_neg (by omega)]

/-- A write of a bit leaves every other register. -/
theorem regR_bitW_ne (k j i : Nat) (b : Bool) (d : Dev) (h : j ≠ k) : regR (bitW k i b d) j = regR d j :=
  regR_regW_ne _ _ _ _ h

/-! ### Posting an event -/

/-- Every value in effect and every register of the device map (the keys below the functions' own register sets, R43, R44) stand. -/
structure SameMap (d d' : Dev) : Prop where
  eff : d'.eff = d.eff
  regR : ∀ k, k < 0x1000000 → regR d' k = regR d k

theorem SameMap.refl (d : Dev) : SameMap d d := ⟨rfl, fun _ _ => rfl⟩

theorem SameMap.trans {d e f : Dev} (h : SameMap d e) (h' : SameMap e f) : SameMap d f :=
  ⟨h'.eff.trans h.eff, fun k hk => (h'.regR k hk).trans (h.regR k hk)⟩

theorem SameMap.bitR {d d' : Dev} (h : SameMap d d') (k i : Nat) (hk : k < 0x1000000) : bitR d' k i = bitR d k i :=
  congrArg (Word.bit · i) (h.regR k hk)

theorem sameMap_emit (o : Out) (d : Dev) : SameMap d (emit o d) := ⟨rfl, fun _ _ => rfl⟩

theorem sameMap_wrt (sp a : Nat) (bs : Bytes) (d : Dev) : SameMap d (wrt sp a bs d) := ⟨rfl, fun _ _ => rfl⟩

theorem sameMap_ctrInc (k : Nat) (d : Dev) : SameMap d (ctrInc k d) := ⟨rfl, fun _ _ => rfl⟩

theorem sameMap_fnU (f : Nat) (g : Fn → Fn) (d : Dev) : SameMap d (fnU f g d) := ⟨rfl, fun _ _ => rfl⟩

/-- A function's own registers lie above the device map. -/
theorem sameMap_regW_fnKey (f off : Nat) (v : Word) (d : Dev) : SameMap d (regW (fnKey f off) v d) :=
  ⟨rfl, fun k hk => regR_regW_ne _ _ _ _ (by unfold fnKey; omega)⟩

theorem sameMap_bitW_fnKey (f off i : Nat) (b : Bool) (d : Dev) : SameMap d (bitW (fnKey f off) i b d) :=
  sameMap_regW_fnKey f off _ d

theorem sameMap_logPage (f a : Nat) (d : Dev) : SameMap d (logPage f a d) := by
  unfold logPage
  split
  · exact .refl d
  · split
    · exact .refl d
    · split
      · exact (sameMap_wrt _ _ _ d).trans (sameMap_ctrInc _ _)
      · exact (sameMap_fnU _ _ d).trans (sameMap_ctrInc _ _)

theorem sameMap_foldl_logPage (f : Nat) (ps : List Nat) (d : Dev) : SameMap d (ps.foldl (fun d p => logPage f p d) d) := by
  induction ps generalizing d with
  | nil => exact .refl d
  | cons p ps ih => exact (sameMap_logPage f p d).trans (ih _)

theorem sameMap_dmaRaw (f a : Nat) (bs : Bytes) (d : Dev) : SameMap d (dmaRaw f a bs d) :=
  (sameMap_wrt _ a bs d).trans (sameMap_foldl_logPage f _ _)

theorem sameMap_signalVec (f v : Nat) (d : Dev) : SameMap d (signalVec f v d) := by
  unfold signalVec
  split
  · split
    · exact sameMap_emit _ d
    · exact sameMap_bitW_fnKey f _ _ _ d
  · split
    · dsimp only
      have hbit := sameMap_bitW_fnKey f 0x14 (v % 32) true d
      split
      · exact hbit.trans ((sameMap_fnU _ _ _).trans (sameMap_emit _ _))
      · exact hbit
    · split
      · exact .refl d
      · exact sameMap_fnU _ _ d

theorem sameMap_eventLost (f : Nat) (d : Dev) : SameMap d (eventLost f d) :=
  (sameMap_ctrInc _ d).trans ((sameMap_regW_fnKey f 0x138 _ _).trans (sameMap_fnU _ _ _))

theorem sameMap_eqWrite (f : Nat) (e : Bytes) (d : Dev) : SameMap d (eqWrite f e d) := by
  have hput (a b : Nat) (bs bs' : Bytes) (g : Fn → Fn) (o : Out) :
      SameMap d (emit o (fnU f g (dmaRaw f b bs' (dmaRaw f a bs d)))) :=
    (sameMap_dmaRaw f a bs d).trans <| (sameMap_dmaRaw f b bs' _).trans <| (sameMap_fnU f g _).trans <| sameMap_emit o _
  unfold eqWrite
  dsimp only
  split
  · exact (hput _ _ _ _ _ _).trans (sameMap_signalVec f _ _)
  · exact hput _ _ _ _ _ _

/-- An event that is posted, held or lost leaves the device map: it touches its function's own registers only. -/
theorem sameMap_postEvent (f code about : Nat) (payload : Bytes) (d : Dev) : SameMap d (postEvent f code about payload d) := by
  unfold postEvent
  dsimp only
  split
  · exact sameMap_eventLost f d
  · split
    · exact sameMap_eqWrite f _ d
    · split
      · exact sameMap_fnU _ _ d
      · exact sameMap_eventLost f d

/-! ### Commit groups -/

theorem groupRows_end_le : ∀ r ∈ groupRows, r.1 ≤ 0xF00000 ∧ r.1 + r.2.1 * r.2.2 ≤ 0xF00000 := by decide

/-- Every group's base, and with it its header, lies in the device map. -/
theorem isGroup_le {b : Nat} (h : isGroup b = true) : b ≤ 0xF00000 := by
  obtain ⟨r, hr, hb⟩ := List.any_eq_true.mp h
  obtain ⟨hfirst, hlast⟩ := groupRows_end_le r hr
  rw [Bool.and_eq_true, decide_eq_true_eq] at hb
  obtain ⟨hge, hin⟩ := hb
  split at hin
  · have : b = r.1 := of_decide_eq_true hin
    omega
  · next hstride =>
    rw [Bool.and_eq_true, decide_eq_true_eq, decide_eq_true_eq] at hin
    have : b - r.1 < r.2.1 * r.2.2 := (Nat.div_lt_iff_lt_mul (Nat.pos_of_ne_zero hstride)).mp hin.2
    omega

/-! ### COMMIT and COMMIT_POINT -/

/-- A COMMIT write that reaches a group whose commit is pending only sets COMMIT_REJ (R39). -/
theorem execCommit_of_pending {s : State} {b : Nat} (hr : headerReached s.dev b = true) (hcal : b ≠ 0xF00000)
    (hfoot : b ≠ 0xE00000) (hp : bitR s.dev (b + 8) 0 = true) :
    execCommit b s = .next (landed s (bitW (b + 8) 2 true s.dev)) := by
  simp [execCommit, lift_next, hr, hcal, hfoot, hp]

/-- A refused commit leaves every value in effect, sets COMMIT_BAD and clears PENDING (R40). -/
theorem commitRefused_header {b : Nat} (hb : isGroup b = true) (d : Dev) :
    (commitRefused b d).eff = d.eff ∧ bitR (commitRefused b d) (b + 8) 1 = true ∧ bitR (commitRefused b d) (b + 8) 0 = false := by
  have hk : b + 8 < 0x1000000 := by have := isGroup_le hb; omega
  let d₁ : Dev := { d with cap := Tbl.drop (fun k => decide (groupOf k = b)) d.cap }
  have hpost : SameMap (bitW (b + 8) 1 true (bitW (b + 8) 0 false d₁)) (commitRefused b d) := sameMap_postEvent _ _ _ _ _
  refine ⟨hpost.eff, ?_, ?_⟩
  · rw [hpost.bitR _ _ hk, bitR_bitW_self _ _ _ _ (by decide)]
  · rw [hpost.bitR _ _ hk, bitR_bitW_ne _ _ _ _ _ (by decide) (by decide), bitR_bitW_self _ _ _ _ (by decide)]

/-- A commit point at which no part of the set is in effect yet and a check fails refuses the commit (R40). -/
theorem execCommitPoint_of_refused {s : State} {b dir : Nat} (hb : isGroup b = true) (hp : bitR s.dev (b + 8) 0 = true)
    (hon : regState s.dev b = 0) (hdir : dir ≤ 1) (hpart : partTaken s.dev b = false) (hbad : capOk s.dev b = false) :
    execCommitPoint b dir s = .next (landed s (commitRefused b s.dev)) := by
  simp [execCommitPoint, lift_next, hb, hp, hon, hpart, hbad, show ¬ 48 ≤ dir by omega, show ¬ 1 < dir by omega]

/-! ### The obligations -/

/-- Settles O7: the write does nothing but set the COMMIT_REJ bit of the group's status word. -/
theorem commitWhilePendingIsRejected : Obligations.CommitWhilePendingIsRejected := by
  unfold Obligations.CommitWhilePendingIsRejected
  intro s b hr hcal hfoot hp
  refine ⟨_, (exec_commit b s).trans (execCommit_of_pending hr hcal hfoot hp), rfl, ?_, ?_, rfl, rfl, ?_⟩
  · simp
  · rw [bitR_landed, bitR_bitW_ne _ _ _ _ _ (by decide) (by decide), hp]
  · intro k hk
    rw [regR_landed, regR_bitW_ne _ _ _ _ _ hk]

/-- Settles O8: the commit point refuses the commit, and the event it posts stays out of the device map. -/
theorem refusedCommitTakesNoEffect : Obligations.RefusedCommitTakesNoEffect := by
  unfold Obligations.RefusedCommitTakesNoEffect
  intro s b dir hb hp hon hdir hpart hbad
  have hexec := (exec_commitPoint b dir s).trans (execCommitPoint_of_refused hb hp hon hdir hpart hbad)
  exact ⟨hexec, _, hexec, rfl, commitRefused_header hb s.dev⟩

end Sys2Proof.Machine

/-! SUPPORT. The model's stable insertion is Mathlib's; the levels, the fuel and the leaf order of an ashlar's Merkle tree (R237, R241). -/

namespace Sys2Proof

theorem insertBy_eq_orderedInsert {α : Type} (le : α → α → Bool) (x : α) (l : List α) :
    insertBy le x l = l.orderedInsert (fun a b => le a b = true) x := by
  induction l with
  | nil => rfl
  | cons y t ih => simp only [insertBy, List.orderedInsert_cons, ih]

/-- Folding the insertion from the right is an insertion sort. -/
theorem foldr_insertBy_eq_insertionSort {α : Type} (le : α → α → Bool) (l : List α) :
    l.foldr (insertBy le) [] = l.insertionSort (fun a b => le a b = true) := by
  induction l with
  | nil => rfl
  | cons x t ih => rw [List.foldr_cons, ih, insertBy_eq_orderedInsert, List.insertionSort_cons]

theorem foldr_insertBy_perm {α : Type} (le : α → α → Bool) (l : List α) : (l.foldr (insertBy le) []).Perm l := by
  rw [foldr_insertBy_eq_insertionSort]
  exact List.perm_insertionSort _ l

theorem pairwise_foldr_insertBy {α : Type} {le : α → α → Bool} (htotal : ∀ a b, le a b = true ∨ le b a = true)
    (htrans : ∀ a b c, le a b = true → le b c = true → le a c = true) (l : List α) :
    (l.foldr (insertBy le) []).Pairwise fun a b => le a b = true := by
  have : Std.Total fun a b => le a b = true := ⟨htotal⟩
  have : IsTrans α fun a b => le a b = true := ⟨htrans⟩
  rw [foldr_insertBy_eq_insertionSort]
  exact List.pairwise_insertionSort _ l

end Sys2Proof

namespace Sys2Proof.Machine
open Sys2Proof

/-! ### The order of the leaves (R237) -/

/-- The order in which the closing places the records of an ashlar: by instant, then group, then order within it. -/
def recLe (a b : ARec) : Bool :=
  decide (a.at_ < b.at_) || (decide (a.at_ = b.at_) && (decide (a.grp < b.grp) || (decide (a.grp = b.grp) && decide (a.ord ≤ b.ord))))

theorem sortRecs_eq_foldr (rs : List ARec) : sortRecs rs = rs.foldr (insertBy recLe) [] := rfl

theorem recLe_iff (a b : ARec) :
    recLe a b = true ↔ a.at_ < b.at_ ∨ a.at_ = b.at_ ∧ (a.grp < b.grp ∨ a.grp = b.grp ∧ a.ord ≤ b.ord) := by
  simp [recLe]

theorem recLe_total (a b : ARec) : recLe a b = true ∨ recLe b a = true := by
  simp only [recLe_iff]; omega

theorem recLe_trans (a b c : ARec) (hab : recLe a b = true) (hbc : recLe b c = true) : recLe a c = true := by
  rw [recLe_iff] at *; omega

theorem sortRecs_perm (rs : List ARec) : (sortRecs rs).Perm rs := by
  rw [sortRecs_eq_foldr]
  exact foldr_insertBy_perm recLe rs

theorem pairwise_sortRecs (rs : List ARec) : (sortRecs rs).Pairwise fun a b => recLe a b = true := by
  rw [sortRecs_eq_foldr]
  exact pairwise_foldr_insertBy recLe_total recLe_trans rs

/-! ### One level of the tree (R241) -/

@[simp] theorem levelUp_nil : levelUp [] = [] := rfl

@[simp] theorem levelUp_singleton (x : Bytes) : levelUp [x] = [x] := rfl

@[simp] theorem levelUp_cons_cons (a b : Bytes) (t : List Bytes) : levelUp (a :: b :: t) = nodeHash a b :: levelUp t := rfl

@[simp] theorem length_levelUp (l : List Bytes) : (levelUp l).length = (l.length + 1) / 2 := by
  induction l using List.twoStepInduction with
  | nil => rfl
  | singleton x => simp
  | cons_cons a b t ih _ => simp only [levelUp_cons_cons, List.length_cons, ih]; omega

/-- Node `j` of the next level joins nodes `2j` and `2j + 1` where both stand. -/
theorem getD_levelUp_of_pair (l : List Bytes) (j : Nat) (h : 2 * j + 1 < l.length) :
    (levelUp l).getD j [] = nodeHash (l.getD (2 * j) []) (l.getD (2 * j + 1) []) := by
  induction l using List.twoStepInduction generalizing j with
  | nil => simp at h
  | singleton x => simp at h
  | cons_cons a b t ih _ =>
    cases j with
    | zero => rfl
    | succ j =>
      rw [List.length_cons, List.length_cons] at h
      exact ih j (by omega)

/-- An odd last node is carried up unchanged. -/
theorem getD_levelUp_of_last (l : List Bytes) (j : Nat) (h : 2 * j + 1 = l.length) :
    (levelUp l).getD j [] = l.getD (2 * j) [] := by
  induction l using List.twoStepInduction generalizing j with
  | nil => simp at h
  | singleton x =>
    obtain rfl : j = 0 := by simpa using h
    rfl
  | cons_cons a b t ih _ =>
    rw [List.length_cons, List.length_cons] at h
    cases j with
    | zero => omega
    | succ j => exact ih j (by omega)

/-! ### The root (R241) -/

@[simp] theorem merkleRoot_nil (k : Nat) : merkleRoot k [] = zeros 32 := by cases k <;> rfl

@[simp] theorem merkleRoot_singleton (k : Nat) (x : Bytes) : merkleRoot k [x] = x := by cases k <;> rfl

theorem merkleRoot_succ (k : Nat) (l : List Bytes) : merkleRoot (k + 1) l = merkleRoot k (levelUp l) := by
  match l with
  | [] => simp
  | [x] => simp
  | _ :: _ :: _ => rfl

/-- `k` levels reach the root of up to `2 ^ k` leaves: one more level changes nothing. -/
theorem merkleRoot_succ_of_length_le {k : Nat} {l : List Bytes} (h : l.length ≤ 2 ^ k) :
    merkleRoot (k + 1) l = merkleRoot k l := by
  induction k generalizing l with
  | zero =>
    match l, h with
    | [], _ => simp
    | [x], _ => simp
  | succ k ih =>
    have hup : (levelUp l).length ≤ 2 ^ k := by rw [length_levelUp]; omega
    rw [merkleRoot_succ, ih hup, merkleRoot_succ]

theorem merkleRoot_levelUp {k : Nat} {l : List Bytes} (hmany : 2 ≤ l.length) (hfit : l.length ≤ 2 ^ k) :
    merkleRoot k l = merkleRoot k (levelUp l) := by
  cases k with
  | zero => omega
  | succ k =>
    have hup : (levelUp l).length ≤ 2 ^ k := by rw [length_levelUp]; omega
    rw [merkleRoot_succ, merkleRoot_succ_of_length_le hup]

theorem sealOn_root (hp : Bytes) (a : Ashlar) :
    (sealOn hp a).root = merkleRoot 32 (a.recs.map fun (r : ARec) => leafHash r.bytes) := rfl

/-- Settles O13: each level is read off node by node, enough levels reach the root whatever their number, and the closing's sort is
an insertion sort by a total order. -/
theorem merkleTreeIsBuiltAsStated : Obligations.MerkleTreeIsBuiltAsStated := by
  unfold Obligations.MerkleTreeIsBuiltAsStated
  exact ⟨merkleRoot_nil, merkleRoot_singleton, fun _ => rfl, length_levelUp, getD_levelUp_of_pair, getD_levelUp_of_last,
    fun _ _ => merkleRoot_levelUp, sealOn_root,
    fun rs => ⟨sortRecs_perm rs, (pairwise_sortRecs rs).imp fun {a b} => (recLe_iff a b).mp⟩⟩

end Sys2Proof.Machine

namespace Sys2Proof.Machine
open Sys2Proof

/-! ### What running a command keeps -/

/-- The outcome is a next state with the queue of `s`, and with the invariant where `s` has it. -/
def Keeps (s : State) (o : Host.Outcome State Fault Refusal) : Prop :=
  ∃ t, o = .next t ∧ t.pending = s.pending ∧ (Inv s → Inv t)

theorem keeps_next (s : State) : Keeps s (.next s) := ⟨s, rfl, rfl, id⟩

/-- A device that lands keeps the queue and the invariant, whatever it is. -/
theorem keeps_landed {s : State} {d : Dev} {o : Host.Outcome State Fault Refusal} (h : o = .next (landed s d)) : Keeps s o :=
  ⟨_, h, landed_pending s d, fun hinv => landed_inv s d hinv.1⟩

/-- Two commands run one after the other keep what each keeps. -/
theorem Keeps.seq {s : State} {o : Host.Outcome State Fault Refusal} {g : State → Host.Outcome State Fault Refusal}
    (ho : Keeps s o) (hg : ∀ t, Keeps t (g t)) : Keeps s (match (generalizing := false) o with | .next t => g t | e => e) := by
  obtain ⟨t, rfl, hpend, hinv⟩ := ho
  obtain ⟨u, hu, hpend', hinv'⟩ := hg t
  exact ⟨u, hu, hpend'.trans hpend, hinv' ∘ hinv⟩

theorem keeps_ite {s : State} {p : Prop} [Decidable p] {a b : Host.Outcome State Fault Refusal} (ha : Keeps s a) (hb : Keeps s b) :
    Keeps s (if p then a else b) := by split <;> assumption

theorem keeps_dbgCtlWrite (c k : Nat) (v : Word) (s : State) : Keeps s (dbgCtlWrite c k v s) := by
  have henable := (keeps_landed rfl : Keeps s (execDbgCtlDebugEn c k (Word.bit v 31) s)).seq (fun _ => keeps_landed rfl : ∀ t, Keeps t (lift (plainWrite (dbgKey c k 0) v) t))
  have hhalt := keeps_ite (p := Word.fld v 7 0 = 0) henable (henable.seq (fun _ => keeps_landed rfl : ∀ t, Keeps t (execDbgHalt c k (Word.fld v 7 0) t)))
  have hresume := keeps_ite (p := Word.fld v 15 8 = 0) hhalt (hhalt.seq (fun _ => keeps_landed rfl : ∀ t, Keeps t (execDbgResume c k (Word.fld v 15 8) t)))
  exact keeps_ite (p := Word.bit v 27 = true) (hresume.seq (fun _ => keeps_landed rfl : ∀ t, Keeps t (execDbgStep c k (Word.fld v 26 24) t))) hresume

theorem keeps_mapWrite (off : Nat) (v : Word) (s : State) : Keeps s (mapWrite off v s) :=
  keeps_ite (keeps_ite (keeps_landed rfl) (keeps_next s)) <| keeps_ite (keeps_ite (keeps_landed rfl) (keeps_next s)) <|
  keeps_ite (keeps_landed rfl) <| keeps_ite (keeps_landed rfl) <|
  keeps_ite (keeps_ite (keeps_dbgCtlWrite _ _ v s) <| keeps_ite (keeps_landed rfl) (keeps_landed rfl)) (keeps_landed rfl)

theorem keeps_fnWrite (f off fo : Nat) (v : Word) (s : State) : Keeps s (fnWrite f off fo v s) :=
  keeps_ite (keeps_landed rfl) <| keeps_ite (keeps_landed rfl) <|
  keeps_ite
    (keeps_ite (keeps_landed rfl) <| keeps_ite (keeps_ite (keeps_landed rfl) (keeps_landed rfl)) (keeps_landed rfl)) <|
  keeps_ite (keeps_landed rfl) <| keeps_ite (keeps_landed rfl) <| keeps_ite (keeps_landed rfl) <| keeps_ite (keeps_landed rfl) <|
  keeps_ite (keeps_landed rfl) (keeps_landed rfl)

theorem keeps_pageWrite (f off : Nat) (v : Word) (s : State) : Keeps s (pageWrite f off v s) :=
  keeps_ite (keeps_next s) <| keeps_ite (keeps_landed rfl) <| keeps_ite (keeps_landed rfl) <| keeps_ite (keeps_landed rfl) <|
  keeps_ite (keeps_landed rfl) (keeps_landed rfl)

theorem keeps_wordWrite (f bar off : Nat) (v : Word) (s : State) : Keeps s (wordWrite f bar off v s) :=
  keeps_ite (keeps_pageWrite f off v s) <| keeps_ite (keeps_fnWrite f off _ v s) <|
  keeps_ite (keeps_mapWrite off v s) (keeps_next s)

theorem keeps_wordsWrite (f bar n off : Nat) (bs : Bytes) (s : State) : Keeps s (wordsWrite f bar n off bs s) := by
  induction n generalizing off bs s with
  | zero => exact keeps_next s
  | succ n ih => exact (keeps_wordWrite f bar off _ s).seq (ih (off + 4) (bs.drop 4))

theorem keeps_cfgWrite (f off : Nat) (v : Word) (s : State) : Keeps s (cfgWrite f off v s) := by
  have hcommand : Keeps s (lift (commandWrite f v) s) := keeps_landed rfl
  have hmaster := keeps_ite (p := Word.bit v 2 = (fn s.dev f).bme) hcommand
    (hcommand.seq (fun _ => keeps_landed rfl : ∀ t, Keeps t (execBusMasterEnable f (Word.bit v 2) t)))
  have hcontrol : Keeps s (lift (deviceControl f v) s) := keeps_landed rfl
  have hvfs : Keeps s (lift (fnU f fun y => { y with vfMse := Word.bit v 3 }) s) := keeps_landed rfl
  exact
    keeps_ite (keeps_ite hmaster
      (hmaster.seq (fun _ => keeps_landed rfl : ∀ t, Keeps t (execMsiXEnable f (fn s.dev f).msixEnable (Word.bit v 10) t)))) <|
    keeps_ite (keeps_ite (keeps_landed rfl) <| keeps_ite (keeps_landed rfl) (keeps_next s)) <|
    keeps_ite (keeps_ite (keeps_next s) (keeps_landed rfl)) <|
    keeps_ite (keeps_ite (hcontrol.seq (fun _ => keeps_landed rfl : ∀ t, Keeps t (execFlr f t))) hcontrol) <|
    keeps_ite (keeps_landed rfl) <| keeps_ite (keeps_landed rfl) <| keeps_ite (keeps_landed rfl) <|
    keeps_ite (keeps_ite hvfs
      (hvfs.seq (fun _ => keeps_landed rfl : ∀ t, Keeps t (execVfEnable f (Word.bit v 0) (fn s.dev f).numVfs t)))) <|
    keeps_ite (keeps_ite (keeps_next s) (keeps_landed rfl)) <|
    keeps_ite (keeps_landed rfl) <| keeps_ite (keeps_landed rfl) (keeps_landed rfl)

theorem keeps_execInboundTlp (h : Nat) (t : Tlp) (s : State) : Keeps s (execInboundTlp h t s) := by
  unfold execInboundTlp
  split
  · exact keeps_landed rfl
  · exact
      keeps_ite (keeps_ite (keeps_landed rfl) <| keeps_ite (keeps_cfgWrite _ _ _ s) (keeps_next s)) <|
      keeps_ite (keeps_landed rfl) <| keeps_ite (keeps_landed rfl) (keeps_wordsWrite _ _ _ _ _ s)

/-- Every command answers a next state, leaves the queue and keeps the invariant: but for an inbound TLP, which may run one command per
word, each is one effect on the device. -/
theorem keeps_exec (i : Instr) (s : State) : Keeps s (exec i s) := by
  cases i with
  | inboundTlp h t => exact keeps_execInboundTlp h t s
  | _ => exact keeps_landed rfl

/-! ### The state after reset -/

/-- After reset no function but a PF is present: no VF is enabled. -/
theorem lt_four_of_fnPresent_reset {f : Nat} (h : fnPresent State.reset.dev f = true) : f < 4 := by
  by_contra hf
  have hoff : (fn State.reset.dev (parentPf f)).vfEnable = false := rfl
  simp [fnPresent, hf, hoff] at h

/-- Without main power no island but the always-on one works. -/
theorem islandOn_of_power_off {d : Dev} {n : Nat} (hp : d.power = false) (h : islandOn d n = true) : n = 0 := by
  simpa [islandOn, hp] using h

/-! ### The obligations -/

/-- Settles O1: both clauses are the two branches of the step. -/
theorem stepRunsTheFrontCommandOrIdles : Obligations.StepRunsTheFrontCommandOrIdles := by
  unfold Obligations.StepRunsTheFrontCommandOrIdles
  exact ⟨fun _ _ _ => rfl, fun s h => by simp [step, h]⟩

/-- Settles O2: every table of the reset state is empty, so every entry is at its reset value. -/
theorem resetLeavesTheBlockAtRest : Obligations.ResetLeavesTheBlockAtRest := by
  unfold Obligations.ResetLeavesTheBlockAtRest
  exact ⟨rfl, rfl, rfl, fun _ => ⟨rfl, rfl, rfl⟩, fun _ => lt_four_of_fnPresent_reset, fun _ => islandOn_of_power_off rfl,
    fun _ => rfl, fun _ => rfl⟩

/-- Settles O3: nothing is listed in memory, nothing waits. -/
theorem resetHasTheInvariant : Obligations.ResetHasTheInvariant := by
  unfold Obligations.ResetHasTheInvariant
  exact ⟨rfl, rfl⟩

/-- Settles O4: an idle step changes nothing, any other is a command, and every command keeps the invariant. -/
theorem everyStepKeepsTheInvariant : Obligations.EveryStepKeepsTheInvariant := by
  unfold Obligations.EveryStepKeepsTheInvariant
  intro s t hinv hstep
  unfold step at hstep
  split at hstep
  · cases hstep
    exact hinv
  · next c rest _ =>
    obtain ⟨u, hu, _, hkeep⟩ := keeps_exec c { s with pending := rest }
    cases hu.symm.trans hstep
    exact hkeep hinv

/-- Settles O5: every command keeps the queue of the state it runs on. -/
theorem everyCommandAnswersANextState : Obligations.EveryCommandAnswersANextState := by
  unfold Obligations.EveryCommandAnswersANextState
  intro c s
  obtain ⟨t, ht, hpend, _⟩ := keeps_exec c s
  exact ⟨t, ht, hpend⟩

end Sys2Proof.Machine

/-! SUPPORT. The sibling hashes of a leaf lead to the root of its tree (R268, R271). -/

namespace Sys2Proof.Machine
open Sys2Proof

/-! ### What verification does at one level -/

/-- At a right node the path's first hash is the left sibling. -/
theorem climb_of_odd {k n i : Nat} {h p : Bytes} {ps : List Bytes} (hn : ¬ n ≤ 1) (hi : i % 2 = 1) :
    climb (k + 1) n i h (p :: ps) = climb k ((n + 1) / 2) (i / 2) (nodeHash p h) ps := by simp [climb, hn, hi]

/-- At a left node with a sibling the path's first hash is the right sibling. -/
theorem climb_of_even {k n i : Nat} {h p : Bytes} {ps : List Bytes} (hn : ¬ n ≤ 1) (hi : i % 2 ≠ 1) (hlt : i + 1 < n) :
    climb (k + 1) n i h (p :: ps) = climb k ((n + 1) / 2) (i / 2) (nodeHash h p) ps := by simp [climb, hn, hi, hlt]

/-- An odd last node goes up unchanged and takes no hash of the path. -/
theorem climb_of_last {k n i : Nat} {h : Bytes} {ps : List Bytes} (hn : ¬ n ≤ 1) (hi : i % 2 ≠ 1) (hlt : ¬ i + 1 < n) :
    climb (k + 1) n i h ps = climb k ((n + 1) / 2) (i / 2) h ps := by simp [climb, hn, hi, hlt]

/-! ### What the path holds at one level -/

theorem merklePath_of_odd {k i : Nat} {l : List Bytes} (hn : ¬ l.length ≤ 1) (hi : i % 2 = 1) :
    merklePath (k + 1) i l = l.getD (i - 1) [] :: merklePath k (i / 2) (levelUp l) := by simp [merklePath, hn, hi]

theorem merklePath_of_even {k i : Nat} {l : List Bytes} (hn : ¬ l.length ≤ 1) (hi : i % 2 ≠ 1) (hlt : i + 1 < l.length) :
    merklePath (k + 1) i l = l.getD (i + 1) [] :: merklePath k (i / 2) (levelUp l) := by simp [merklePath, hn, hi, hlt]

theorem merklePath_of_last {k i : Nat} {l : List Bytes} (hn : ¬ l.length ≤ 1) (hi : i % 2 ≠ 1) (hlt : ¬ i + 1 < l.length) :
    merklePath (k + 1) i l = merklePath k (i / 2) (levelUp l) := by simp [merklePath, hn, hi, hlt]

/-- A tree of one leaf has an empty path, and the leaf is its root. -/
theorem climb_merklePath_singleton (k : Nat) (x : Bytes) : climb k 1 0 x (merklePath k 0 [x]) = some (merkleRoot k [x]) := by
  cases k <;> simp [climb, merklePath]

/-- From every leaf, its path leads to the root: each level joins the node with the sibling the path gives. -/
theorem climb_merklePath {k i : Nat} {l : List Bytes} (hi : i < l.length) (hfit : l.length ≤ 2 ^ k) :
    climb k l.length i (l.getD i []) (merklePath k i l) = some (merkleRoot k l) := by
  induction k generalizing i l with
  | zero =>
    obtain ⟨x, rfl⟩ := List.length_eq_one_iff.mp (show l.length = 1 by omega)
    obtain rfl : i = 0 := by simpa using hi
    exact climb_merklePath_singleton 0 x
  | succ k ih =>
    by_cases hn : l.length ≤ 1
    · obtain ⟨x, rfl⟩ := List.length_eq_one_iff.mp (show l.length = 1 by omega)
      obtain rfl : i = 0 := by simpa using hi
      exact climb_merklePath_singleton (k + 1) x
    have hup := ih (i := i / 2) (l := levelUp l) (by rw [length_levelUp]; omega) (by rw [length_levelUp]; omega)
    rw [length_levelUp] at hup
    rw [merkleRoot_succ, ← hup]
    by_cases hodd : i % 2 = 1
    · rw [merklePath_of_odd hn hodd, climb_of_odd hn hodd, getD_levelUp_of_pair l (i / 2) (by omega),
        show 2 * (i / 2) = i - 1 by omega, show i - 1 + 1 = i by omega]
    · by_cases hlt : i + 1 < l.length
      · rw [merklePath_of_even hn hodd hlt, climb_of_even hn hodd hlt, getD_levelUp_of_pair l (i / 2) (by omega),
          show 2 * (i / 2) = i by omega]
      · rw [merklePath_of_last hn hodd hlt, climb_of_last hn hodd hlt, getD_levelUp_of_last l (i / 2) (by omega),
          show 2 * (i / 2) = i by omega]

/-- Settles O14: the leaves of an ashlar are its records' hashes, and 32 levels are enough for 2^28 of them. -/
theorem everyRecordVerifiesAgainstItsAshlar : Obligations.EveryRecordVerifiesAgainstItsAshlar := by
  unfold Obligations.EveryRecordVerifiesAgainstItsAshlar
  intro hp a i hi hmany
  have hclimb := climb_merklePath (k := 32) (i := i) (l := a.recs.map fun (r : ARec) => leafHash r.bytes) (by simpa using hi)
    (by rw [List.length_map]; exact hmany.le.trans (by decide))
  rw [List.length_map] at hclimb
  rw [sealOn_root, ← hclimb]
  simp [hi]

end Sys2Proof.Machine

/-! SUPPORT. Which registers a frame's way through the device leaves: its record, its delivery, its release from a course. -/

namespace Sys2Proof.Machine
open Sys2Proof

/-! ### Records touch no register -/

@[simp] theorem newPeriod_regs (i : Nat) (d : Dev) : (newPeriod i d).regs = d.regs := rfl

theorem foldl_newPeriod_regs (l : List Nat) (d : Dev) : (l.foldl (fun d i => newPeriod i d) d).regs = d.regs := by
  induction l generalizing d with
  | nil => rfl
  | cons i l ih => exact ih _

@[simp] theorem callCapstone_regs (cut : Bool) (e last : Nat) (d : Dev) : (callCapstone cut e last d).regs = d.regs :=
  foldl_newPeriod_regs _ d

@[simp] theorem closeAshlar_regs (fl c o : Nat) (r : Bool) (d : Dev) : (closeAshlar fl c o r d).regs = d.regs := by
  unfold closeAshlar; split <;> rfl

@[simp] theorem cutAshlar_regs (r : Bool) (d : Dev) : (cutAshlar r d).regs = d.regs := by
  unfold cutAshlar; split <;> simp

@[simp] theorem cutFull_regs (d : Dev) : (cutFull d).regs = d.regs := by
  unfold cutFull; split
  · split <;> simp
  · rfl

@[simp] theorem addRec_regs (b : Bytes) (co : Option (Nat × Nat)) (h : Nat) (d : Dev) : (addRec b co h d).regs = d.regs := by
  unfold addRec
  split
  · rfl
  · simp

@[simp] theorem completeRec_regs (i : Nat) (f : Bytes → Bytes) (co : Option (Nat × Nat)) (d : Dev) :
    (completeRec i f co d).regs = d.regs := by
  unfold completeRec; split <;> simp

@[simp] theorem completeOpt_regs (i : Option Nat) (f : Bytes → Bytes) (co : Option (Nat × Nat)) (d : Dev) :
    (completeOpt i f co d).regs = d.regs := by
  unfold completeOpt; split <;> simp

@[simp] theorem noteUndelivered_regs (f : Frame) (d : Dev) : (noteUndelivered f d).regs = d.regs := by
  unfold noteUndelivered; split <;> rfl

@[simp] theorem deliveryDrop_regs (f : Frame) (d : Dev) : (deliveryDrop f d).regs = d.regs := by
  unfold deliveryDrop; split <;> simp

/-! ### Delivery touches the status words of islands only -/

/-- Every register of the courses' pages (R225) holds what it held. -/
def SameCourseRegs (d d' : Dev) : Prop := ∀ k, 0x500000 ≤ k → regR d' k = regR d k

theorem SameCourseRegs.of_regs {d d' : Dev} (h : d'.regs = d.regs) : SameCourseRegs d d' := fun k _ => by simp [regR, h]

theorem SameCourseRegs.trans {d e f : Dev} (h : SameCourseRegs d e) (h' : SameCourseRegs e f) : SameCourseRegs d f :=
  fun k hk => (h' k hk).trans (h k hk)

theorem sameCourseRegs_send (src dst : Nat) (it : Item) (d : Dev) (hdst : dst < 49) : SameCourseRegs d (send src dst it d) := by
  unfold send
  split
  · exact .of_regs rfl
  · exact fun k hk => regR_bitW_ne _ _ _ _ _ (by omega)

theorem sameCourseRegs_sendOr (src dst : Nat) (it : Item) (f : Frame) (d : Dev) (hdst : dst < 49) :
    SameCourseRegs d (sendOr src dst it f d) := by
  unfold sendOr
  dsimp only
  split
  · exact sameCourseRegs_send src dst it d hdst
  · exact (sameCourseRegs_send src dst it d hdst).trans (.of_regs (deliveryDrop_regs _ _))

theorem fnPort_le (f : Nat) : fnPort f ≤ 1 := by unfold fnPort; split <;> omega

/-- The egress pipe of a port is one of eight (R46). -/
theorem egressPipe_lt (d : Dev) (p : Nat) : egressPipe d p < 8 := by
  unfold egressPipe fldR Word.fld
  refine (Nat.mod_lt _ (by positivity)).trans_le ?_
  exact (Nat.pow_le_pow_right (by decide) (by omega : 8 * ((portIsland p - 1) % 4) + 6 + 1 - (8 * ((portIsland p - 1) % 4) + 4) ≤ 3)).trans (by decide)

theorem sameCourseRegs_deliver (src : Nat) (f : Frame) (d : Dev) : SameCourseRegs d (deliver src f d) := by
  have hhost (x : Nat) : hIsland (fnPort x) < 49 := by have := fnPort_le x; unfold hIsland; omega
  have hdrop : SameCourseRegs d (deliveryDrop f (ctrInc 0x900120 d)) := .of_regs (deliveryDrop_regs _ _)
  unfold deliver
  split
  · split
    · exact sameCourseRegs_sendOr _ _ _ _ _ (hhost _)
    · exact hdrop
  · split
    · exact sameCourseRegs_sendOr _ _ _ _ _ (hhost _)
    · exact hdrop
  · next p _ _ => exact sameCourseRegs_sendOr _ _ _ _ _ (by have := egressPipe_lt d p; unfold epIsland; omega)
  · exact .of_regs rfl

/-! ### A course's next sequence (R202) -/

theorem SameCourseRegs.nextSeq {d d' : Dev} (h : SameCourseRegs d d') (c : Nat) : nextSeq d' c = nextSeq d c := by
  unfold Machine.nextSeq
  rw [h _ (by unfold coKey; omega), h _ (by unfold coKey; omega)]

theorem nextSeq_setSeq (c n : Nat) (d : Dev) (hn : n < 2 ^ 64) : nextSeq (setSeq c n d) c = n := by
  have hne : coKey c 0x50 ≠ coKey c 0x54 := by unfold coKey; omega
  unfold nextSeq setSeq
  rw [regR_regW_ne _ _ _ _ hne, regR_regW_self, regR_regW_self, BitVec.toNat_ofNat, BitVec.toNat_ofNat]
  omega

@[simp] theorem countFlags_regs (c fl : Nat) (d : Dev) : (countFlags c fl d).regs = d.regs := by
  have hone (m off : Nat) (d : Dev) : (if fl / m % 2 = 1 then ctrInc (coKey c off) d else d).regs = d.regs := by split <;> rfl
  unfold countFlags
  simp only [hone, ctrInc_regs]

/-- `courseHeader` as a function is its body. Stated of the function, not of its value, the kernel need not evaluate the body's matches. -/
theorem courseHeader_def : @courseHeader = zeta% delta% @courseHeader := rfl

theorem courseHeader_eq (c : Nat) (f : Frame) (fl : Nat) (dr : Bool) (d : Dev) :
    courseHeader c f fl dr d = zeta% delta% courseHeader c f fl dr d := by
  rw [courseHeader_def]

@[simp] theorem courseHeader_regs (c : Nat) (f : Frame) (fl : Nat) (dr : Bool) (d : Dev) : (courseHeader c f fl dr d).2.regs = d.regs := by
  rw [courseHeader_eq]
  by_cases h : 0 ≤ (courseNow d c : Int) - fQ f
  · rw [if_pos h]
  · rw [if_neg h]
    cases dr <;> rfl

/-- `encap` as a function is its body. -/
theorem encap_def : @encap = delta% @encap := rfl

theorem encap_eq (c p : Nat) (f : Frame) (dr : Bool) (d : Dev) : encap c p f dr d = delta% encap c p f dr d := by
  rw [encap_def]

/-- The header, the limit and the keys are named first (`exists_eq`): so the kernel takes them as they are instead of evaluating them. -/
@[simp] theorem encap_regs (c p : Nat) (f : Frame) (dr : Bool) (d : Dev) : (encap c p f dr d).2.regs = d.regs := by
  have hheader := fun fl => courseHeader_regs c f fl dr d
  obtain ⟨header, hh⟩ := exists_eq (a' := courseHeader c f)
  obtain ⟨room, hroom⟩ := exists_eq (a' := maxFrame d p)
  obtain ⟨key, hkey⟩ := exists_eq (a' := coKey c)
  rw [← hh] at hheader
  rw [encap_eq, ← hh, ← hroom, ← hkey]
  dsimp only
  split_ifs <;> simp only [ctrInc_regs, hheader]

/-- `releaseFrame` as a function is its body. -/
theorem releaseFrame_def : @releaseFrame = delta% @releaseFrame := rfl

theorem releaseFrame_eq (c : Nat) (f : Frame) (fl : Nat) (test drain : Bool) (d : Dev) :
    releaseFrame c f fl test drain d = delta% releaseFrame c f fl test drain d := by
  rw [releaseFrame_def]

/-- What a release does after it has taken its sequence is to record, encapsulate and deliver the frame. -/
theorem sameCourseRegs_releaseFrame (c : Nat) (f : Frame) (fl : Nat) (test drain : Bool) (d : Dev) :
    SameCourseRegs (setSeq c ((nextSeq d c + 1) % 2 ^ 64) d) (releaseFrame c f fl test drain d) := by
  have hencap := fun p f d => encap_regs c p f drain d
  have hdeliver := sameCourseRegs_deliver csIsland
  obtain ⟨enc, henc⟩ := exists_eq (a' := encap c)
  obtain ⟨del, hdel⟩ := exists_eq (a' := deliver csIsland)
  obtain ⟨key, hkey⟩ := exists_eq (a' := coKey c)
  rw [← henc] at hencap
  rw [← hdel] at hdeliver
  rw [releaseFrame_eq, ← henc, ← hdel, ← hkey]
  dsimp only
  generalize hfl : (fl ||| f.flags &&& 512 ||| _) = fl'
  have hcount : SameCourseRegs (setSeq c ((nextSeq d c + 1) % 2 ^ 64) d)
      (countFlags c fl' (setSeq c ((nextSeq d c + 1) % 2 ^ 64) d)) := .of_regs (countFlags_regs _ _ _)
  generalize countFlags c fl' (setSeq c ((nextSeq d c + 1) % 2 ^ 64) d) = e at hcount ⊢
  generalize hg : (if (!test) = true then e else _) = g
  have hfront : SameCourseRegs e g := .of_regs (by subst hg; split <;> rfl)
  generalize hdest : (match f.dest with | .courseOut => destOf g f (effR g (key 0x20)).toNat | o => o) = dest
  generalize hrec : completeOpt f.rec_ _ _ g = r
  have hrec' : SameCourseRegs g r := .of_regs (by rw [← hrec, completeOpt_regs])
  refine (hcount.trans (hfront.trans hrec')).trans ?_
  split
  · split
    · exact (SameCourseRegs.of_regs (hencap _ _ _)).trans (hdeliver _ _)
    · exact hdeliver _ _
  · exact hdeliver _ _

/-- Settles O22: the release writes the next sequence first, and nothing after that touches a course's registers. -/
theorem releaseConsumesOneSequenceNumber : Obligations.ReleaseConsumesOneSequenceNumber := by
  unfold Obligations.ReleaseConsumesOneSequenceNumber
  intro d c f fl test drain _
  rw [(sameCourseRegs_releaseFrame c f fl test drain d).nextSeq c, nextSeq_setSeq _ _ _ (Nat.mod_lt _ (by decide))]

end Sys2Proof.Machine

/-! SUPPORT. What posting an event may touch: registers, counters, function records, writes and outputs, and nothing else. -/

namespace Sys2Proof.Machine
open Sys2Proof

/-- The two devices agree on all that posting an event leaves alone (R306, R315). -/
def Posts (d d' : Dev) : Prop := d' = { d with regs := d'.regs, ctrs := d'.ctrs, wr := d'.wr, out := d'.out, fns := d'.fns }

theorem Posts.refl (d : Dev) : Posts d d := rfl

theorem Posts.trans {d e f : Dev} (h : Posts d e) (h' : Posts e f) : Posts d f := by
  unfold Posts at *
  rw [h', h]

theorem posts_ite {p : Prop} [Decidable p] {d a b : Dev} (ha : Posts d a) (hb : Posts d b) : Posts d (if p then a else b) := by
  split <;> assumption

theorem posts_emit (o : Out) (d : Dev) : Posts d (emit o d) := rfl
theorem posts_wrt (sp a : Nat) (bs : Bytes) (d : Dev) : Posts d (wrt sp a bs d) := rfl
theorem posts_fnU (f : Nat) (g : Fn → Fn) (d : Dev) : Posts d (fnU f g d) := rfl
theorem posts_ctrW (k v : Nat) (d : Dev) : Posts d (ctrW k v d) := rfl
theorem posts_regW (k : Nat) (v : Word) (d : Dev) : Posts d (regW k v d) := rfl

theorem posts_bitW (k i : Nat) (b : Bool) (d : Dev) : Posts d (bitW k i b d) := by
  unfold bitW fldW
  exact posts_regW _ _ d

theorem posts_ctrInc (k : Nat) (d : Dev) : Posts d (ctrInc k d) := by
  unfold ctrInc ctrAdd
  exact posts_ctrW _ _ d

theorem posts_eventLost (f : Nat) (d : Dev) : Posts d (eventLost f d) :=
  (posts_ctrInc _ d).trans <| (posts_regW _ _ _).trans (posts_fnU _ _ _)

theorem posts_logPage (f a : Nat) (d : Dev) : Posts d (logPage f a d) := by
  unfold logPage
  split
  · exact .refl d
  · split
    · exact .refl d
    · split
      · exact (posts_wrt _ _ _ d).trans (posts_ctrInc _ _)
      · exact (posts_fnU _ _ d).trans (posts_ctrInc _ _)

theorem posts_dmaRaw (f a : Nat) (bs : Bytes) (d : Dev) : Posts d (dmaRaw f a bs d) := by
  have hlog (ps : List Nat) (e : Dev) : Posts e (ps.foldl (fun d p => logPage f p d) e) := by
    induction ps generalizing e with
    | nil => exact .refl e
    | cons p ps ih => exact (posts_logPage f p e).trans (ih _)
  exact (posts_wrt _ a bs d).trans (hlog _ _)

theorem posts_signalVec (f v : Nat) (d : Dev) : Posts d (signalVec f v d) := by
  unfold signalVec
  split
  · split
    · exact posts_emit _ d
    · exact posts_bitW _ _ _ d
  · split
    · dsimp only
      exact posts_ite ((posts_bitW _ _ _ d).trans <| (posts_fnU _ _ _).trans (posts_emit _ _)) (posts_bitW _ _ _ d)
    · exact posts_ite (.refl d) (posts_fnU _ _ d)

theorem posts_eqWrite (f : Nat) (e : Bytes) (d : Dev) : Posts d (eqWrite f e d) := by
  have hput (a b : Nat) (bs bs' : Bytes) (g : Fn → Fn) (o : Out) : Posts d (emit o (fnU f g (dmaRaw f b bs' (dmaRaw f a bs d)))) :=
    (posts_dmaRaw f a bs d).trans <| (posts_dmaRaw f b bs' _).trans <| (posts_fnU f g _).trans <| posts_emit o _
  exact posts_ite ((hput _ _ _ _ _ _).trans (posts_signalVec f _ _)) (hput _ _ _ _ _ _)

theorem posts_postEvent (f code about : Nat) (payload : Bytes) (d : Dev) : Posts d (postEvent f code about payload d) :=
  posts_ite (posts_eventLost f d) <| posts_ite (posts_eqWrite f _ d) <| posts_ite (posts_fnU _ _ d) (posts_eventLost f d)

theorem posts_postDev (code : Nat) (payload : Bytes) (d : Dev) : Posts d (postDev code payload d) := posts_postEvent _ _ _ _ _

end Sys2Proof.Machine

/-! SUPPORT. Byte strings: lengths, the numbers they stand for, their parts. -/

namespace Sys2Proof.Machine
open Sys2Proof

/-! ### Numbers as bytes -/

@[simp] theorem length_leBytes (n v : Nat) : (leBytes n v).length = n := by
  induction n generalizing v with
  | zero => rfl
  | succ n ih => simp [leBytes, ih]

@[simp] theorem length_beBytes (n v : Nat) : (beBytes n v).length = n := by simp [beBytes]

@[simp] theorem length_zeros (n : Nat) : (zeros n).length = n := List.length_replicate

theorem leBytes_one (v : Nat) : leBytes 1 v = [BitVec.ofNat 8 v] := rfl

theorem leNat_leBytes (n v : Nat) : leNat (leBytes n v) = v % 256 ^ n := by
  induction n generalizing v with
  | zero => simp [leBytes, leNat, Nat.mod_one]
  | succ n ih =>
    have hmod : v % 256 ^ (n + 1) = v % 256 + 256 * (v / 256 % 256 ^ n) := by rw [Nat.pow_succ', Nat.mod_mul]
    rw [leBytes, leNat, ih, BitVec.toNat_ofNat, hmod]

theorem getD_leBytes {n i : Nat} (v : Nat) (h : i < n) : (leBytes n v).getD i 0 = BitVec.ofNat 8 (v / 256 ^ i) := by
  induction n generalizing v i with
  | zero => omega
  | succ n ih =>
    cases i with
    | zero => simp [leBytes]
    | succ i =>
      rw [leBytes, List.getD_cons_succ, ih _ (by omega), Nat.div_div_eq_div_mul, Nat.pow_succ']

/-- Bit `k` of a number stands in its byte `k / 8`. -/
theorem bitOf_u8_leBytes {n k : Nat} (v : Nat) (h : k < 8 * n) : bitOf (u8 (leBytes n v) (k / 8)) (k % 8) = v.testBit k := by
  have hpow : 256 ^ (k / 8) = 2 ^ (8 * (k / 8)) := by rw [Nat.pow_mul]
  unfold bitOf u8
  rw [getD_leBytes v (by omega), BitVec.toNat_ofNat, Nat.testBit_mod_two_pow, hpow, Nat.testBit_div_two_pow, Nat.mod_add_div]
  simp [Nat.mod_lt]

/-! ### Parts of byte strings -/

theorem length_patch {bs v : Bytes} {i : Nat} (h : i + v.length ≤ bs.length) : (patch bs i v).length = bs.length := by
  simp [patch]
  omega

@[simp] theorem length_slice (bs : Bytes) (i n : Nat) : (slice bs i n).length = n := by
  simp [slice]

theorem length_padTo (n : Nat) (bs : Bytes) : (padTo n bs).length = max n bs.length := by
  simp [padTo]
  omega

theorem slice_eq_take_drop {bs : Bytes} {i n : Nat} (h : i + n ≤ bs.length) : slice bs i n = (bs.drop i).take n := by
  have hlen : n - ((bs.drop i).take n).length = 0 := by
    rw [List.length_take, List.length_drop]
    omega
  unfold slice
  dsimp only
  rw [hlen, List.replicate_zero, List.append_nil]

/-- A part that is one of the pieces joined. -/
theorem slice_append_mid (a b c : Bytes) : slice (a ++ (b ++ c)) a.length b.length = b := by
  rw [slice_eq_take_drop (by simp)]
  simp

end Sys2Proof.Machine

/-! SUPPORT. Table entries as a set of keys: inserting, displacing, replacing and removing them (R172, R173, R187). -/

namespace Sys2Proof.Machine
open Sys2Proof

/-! ### The bytes of a table's entries -/

/-- The entries of a table, each under a key of its own. -/
def KeysDistinct (es : List TEnt) : Prop := es.Pairwise fun a b => eKey a.bytes ≠ eKey b.bytes

/-- The entry of a list with a key, as `lookup` finds it. -/
def findKey (es : List TEnt) (k : Bytes) : Option Bytes := (es.find? fun e => decide (eKey e.bytes = k)).map (·.bytes)

theorem lookup_eq_findKey (d : Dev) (t : Nat) (k : Bytes) : lookup d t k = findKey (ltable d t).ents k := rfl

theorem findKey_cons (x : TEnt) (es : List TEnt) (k : Bytes) :
    findKey (x :: es) k = if eKey x.bytes = k then some x.bytes else findKey es k := by
  unfold findKey
  rw [List.find?_cons]
  by_cases h : eKey x.bytes = k <;> simp [h]

theorem findKey_eq_none_iff (es : List TEnt) (k : Bytes) : findKey es k = none ↔ ∀ e ∈ es, eKey e.bytes ≠ k := by
  simp [findKey]

theorem keysDistinct_iff (es : List TEnt) : KeysDistinct es ↔ (es.map (·.bytes)).Pairwise fun a b => eKey a ≠ eKey b := by
  unfold KeysDistinct
  rw [List.pairwise_map]

/-- Under distinct keys, finding an entry is holding it. -/
theorem findKey_eq_some_iff {es : List TEnt} (h : KeysDistinct es) (k v : Bytes) :
    findKey es k = some v ↔ v ∈ es.map (·.bytes) ∧ eKey v = k := by
  induction es with
  | nil => simp [findKey]
  | cons x es ih =>
    obtain ⟨hx, hes⟩ := List.pairwise_cons.mp h
    rw [findKey_cons]
    by_cases hk : eKey x.bytes = k
    · rw [if_pos hk]
      constructor
      · rintro ⟨rfl⟩
        exact ⟨List.mem_cons_self, hk⟩
      · rintro ⟨hv, hvk⟩
        rcases List.mem_cons.mp hv with rfl | hv
        · rfl
        · obtain ⟨y, hy, rfl⟩ := List.mem_map.mp hv
          exact absurd (hk.trans hvk.symm) (hx y hy)
    · rw [if_neg hk, ih hes]
      constructor
      · exact fun ⟨hv, hvk⟩ => ⟨List.mem_cons_of_mem _ hv, hvk⟩
      · rintro ⟨hv, hvk⟩
        rcases List.mem_cons.mp hv with rfl | hv
        · exact absurd hvk hk
        · exact ⟨hv, hvk⟩

/-- Lists that hold the same entries' bytes find the same entries. -/
theorem findKey_of_perm {es fs : List TEnt} (h : KeysDistinct es) (hp : (es.map (·.bytes)).Perm (fs.map (·.bytes))) (k : Bytes) :
    findKey es k = findKey fs k := by
  have h' : KeysDistinct fs := (keysDistinct_iff fs).mpr ((hp.pairwise_iff Ne.symm).mp ((keysDistinct_iff es).mp h))
  refine Option.ext fun v => ?_
  rw [findKey_eq_some_iff h, findKey_eq_some_iff h', hp.mem_iff]

/-! ### Displacement (R172) -/

/-- Putting another entry in a place of the list takes the one out that stood there. -/
theorem map_bytes_updFirst_perm {es : List TEnt} {v w : TEnt} (hv : v ∈ es) :
    (v.bytes :: (updFirst (fun y => decide (y = v)) (fun _ => w) es).map (·.bytes)).Perm (w.bytes :: es.map (·.bytes)) := by
  induction es with
  | nil => simp at hv
  | cons x es ih =>
    unfold updFirst
    by_cases hx : x = v
    · subst hx
      simp only [decide_true, if_true, List.map_cons]
      exact .swap _ _ _
    · simp only [hx, decide_false, Bool.false_eq_true, if_false, List.map_cons]
      have hv' := (List.mem_cons.mp hv).resolve_left (Ne.symm hx)
      exact (List.Perm.swap _ _ _).trans (((ih hv').cons _).trans (.swap _ _ _))

/-- Whatever it displaces, a placement adds the entry's bytes and loses none. -/
theorem placeEnt_perm {d0 : Dev} {t n : Nat} {e : Bytes} {b : Nat} {es fs : List TEnt} {d d' : Dev}
    (h : placeEnt d0 t n e b es d = (some fs, d')) : (fs.map (·.bytes)).Perm (e :: es.map (·.bytes)) := by
  induction n generalizing e b es d with
  | zero =>
    unfold placeEnt at h
    split at h
    · cases h; exact .refl _
    · dsimp only at h
      split at h
      · cases h; exact .refl _
      · cases h
  | succ n ih =>
    unfold placeEnt at h
    split at h
    · cases h; exact .refl _
    · dsimp only at h
      split at h
      · next v hv =>
        have hmem : v ∈ es := List.mem_of_mem_filter (List.mem_of_getElem? hv)
        exact (ih h).trans (map_bytes_updFirst_perm (w := ⟨e, some b⟩) hmem)
      · cases h

/-- Displacing entries draws free values and touches no table itself. -/
theorem placeEnt_tables {d0 : Dev} {t n : Nat} {e : Bytes} {b : Nat} {es : List TEnt} {d : Dev} :
    (placeEnt d0 t n e b es d).2.tables = d.tables := by
  induction n generalizing e b es d with
  | zero =>
    unfold placeEnt
    split
    · rfl
    · dsimp only
      split <;> rfl
  | succ n ih =>
    unfold placeEnt
    split
    · rfl
    · dsimp only
      split
      · exact ih (d := (fresh d).2)
      · rfl

theorem placeNew_perm {t : Nat} {e : Bytes} {fs : List TEnt} {d d' : Dev} (h : placeNew t e d = (some fs, d')) :
    (fs.map (·.bytes)).Perm (e :: (ltable d t).ents.map (·.bytes)) := by
  unfold placeNew at h
  dsimp only at h
  split at h
  · cases h; exact .refl _
  · split at h
    · cases h; exact .refl _
    · exact placeEnt_perm h

theorem placeNew_tables (t : Nat) (e : Bytes) (d : Dev) : (placeNew t e d).2.tables = d.tables := by
  unfold placeNew
  dsimp only
  split
  · rfl
  · split
    · rfl
    · exact placeEnt_tables (d := (fresh d).2)

/-! ### Tables -/

theorem ltable_ltableU_self (t : Nat) (g : LTable → LTable) (d : Dev) : ltable (ltableU t g d) t = g (ltable d t) :=
  Tbl.get_upd_self _ _ _ _

theorem ltable_ltableU_ne {t u : Nat} (g : LTable → LTable) (d : Dev) (h : u ≠ t) : ltable (ltableU t g d) u = ltable d u :=
  Tbl.get_upd_ne _ _ _ _ _ h

theorem ltable_of_tables {d d' : Dev} (h : d'.tables = d.tables) (t : Nat) : ltable d' t = ltable d t := by
  unfold ltable; rw [h]

/-- A stored entry has the key of the entry given. -/
theorem eKey_storedEnt {e : Bytes} (h : e.length = 64) (o : Nat) : eKey (storedEnt e o) = eKey e := by
  have htake (bs v : Bytes) (i : Nat) (hi : 48 ≤ i) (hl : i ≤ bs.length) : (patch bs i v).take 48 = bs.take 48 := by
    unfold patch
    rw [List.append_assoc, List.take_append_of_le_length (by simp; omega), List.take_take, Nat.min_eq_left hi]
  unfold eKey storedEnt
  rw [htake _ _ _ (by omega) (by simp [patch, length_leBytes, h]), htake _ _ _ (by omega) (by omega)]

/-! ### Inserting an entry -/

/-- An insert is refused before it looks for a place, or fails to find one and says so, or is applied: the key was not in the
table, and the table's entries are those the placement gives. -/
theorem tblInsert1_cases (c : Cmd) (t : Nat) (e : Bytes) (d : Dev) :
    (tblInsert1 c t e d).1 ≠ 0 ∧ (tblInsert1 c t e d).2.tables = d.tables ∨
    ∃ es d', lookup d t (eKey e) = none ∧ placeNew t (storedEnt e (actor d c)) d = (some es, d') ∧
      tblInsert1 c t e d = (0, ltableU t (fun x => { x with ents := es }) d') := by
  unfold tblInsert1
  dsimp only
  split
  · exact .inl ⟨by simp, rfl⟩
  split
  · exact .inl ⟨by simp, rfl⟩
  split
  · exact .inl ⟨by simp, rfl⟩
  split
  · exact .inl ⟨by simp, rfl⟩
  next hfound =>
    split
    · next es d' hplace => exact .inr ⟨es, d', by simpa using hfound, hplace, rfl⟩
    · next d' hplace =>
      have htables : d'.tables = d.tables := by
        rw [← placeNew_tables t (storedEnt e (actor d c)) d, hplace]
      exact .inl ⟨three_ne_zero, (congrArg Dev.tables (posts_postDev _ _ _)).trans htables⟩

/-- Settles O19: the entries' bytes after an applied insert are those before and the new one, in some order. -/
theorem insertsFindTheirEntryAndLoseNone : Obligations.InsertsFindTheirEntryAndLoseNone := by
  unfold Obligations.InsertsFindTheirEntryAndLoseNone
  intro d c t e hlen hkeys r
  rcases tblInsert1_cases c t e d with ⟨hr, htables⟩ | ⟨es, d', hnone, hplace, hr⟩
  · exact ⟨fun h => absurd h hr, fun _ => htables, fun u _ => ltable_of_tables htables u⟩
  have hperm := placeNew_perm hplace
  have htables : d'.tables = d.tables := by
    rw [← placeNew_tables t (storedEnt e (actor d c)) d, hplace]
  have hkey : eKey (storedEnt e (actor d c)) = eKey e := eKey_storedEnt hlen _
  have hfree := (findKey_eq_none_iff _ _).mp ((lookup_eq_findKey d t (eKey e)).symm.trans hnone)
  have hcons : KeysDistinct (⟨storedEnt e (actor d c), none⟩ :: (ltable d t).ents) :=
    List.pairwise_cons.mpr ⟨fun y hy => by rw [hkey]; exact (hfree y hy).symm, hkeys⟩
  have hents : (ltable r.2 t).ents = es := by
    change (ltable (tblInsert1 c t e d).2 t).ents = es
    rw [hr, ltable_ltableU_self]
  have hfind (k : Bytes) : lookup r.2 t k = if eKey e = k then some (storedEnt e (actor d c)) else lookup d t k := by
    rw [lookup_eq_findKey, hents, ← findKey_of_perm hcons hperm.symm, findKey_cons, hkey, lookup_eq_findKey]
  refine ⟨fun _ => ⟨hnone, ?_, fun k hk => ?_, ?_, ?_⟩, fun h => absurd (congrArg Prod.fst hr) h, fun u hu => ?_⟩
  · rw [hfind, if_pos rfl]
  · rw [hfind, if_neg hk.symm]
  · rw [hents]
    exact (keysDistinct_iff es).mpr ((hperm.symm.pairwise_iff Ne.symm).mp ((keysDistinct_iff _).mp hcons))
  · rw [hents]
    simpa using hperm.length_eq
  · change ltable (tblInsert1 c t e d).2 u = ltable d u
    rw [hr, ltable_ltableU_ne _ _ hu, ltable_of_tables htables]

end Sys2Proof.Machine

/-! SUPPORT. What a command does, read off the effect it lifts to the state (R307, R308). -/

namespace Sys2Proof.Machine
open Sys2Proof

variable {i : Instr} {s : State} {c : Cmd} {f eff : Dev → Dev} {d : Dev} {st : Nat} {P : Dev → Prop}

theorem lands_of_lift (h : exec i s = lift f s) (hd : f s.dev = d) : Lands i s d := by
  rw [← hd]
  exact h

/-- A command lands one device: what any field of it reads is told by its effect. -/
theorem Lands.dev_eq (hl : Lands i s d) (h : exec i s = lift f s) : (landed s d).dev = (landed s (f s.dev)).dev :=
  congrArg State.dev (Host.Outcome.next.inj (hl.symm.trans h))

theorem Runs.dev (hr : Runs i s P) (h : exec i s = lift f s) : P (landed s (f s.dev)).dev := by
  obtain ⟨t, ht, -, hP⟩ := hr
  obtain rfl := Host.Outcome.next.inj (ht.symm.trans h)
  exact hP

theorem runs_of_lift (h : exec i s = lift f s) (hP : P (landed s (f s.dev)).dev) : Runs i s P := ⟨_, h, rfl, hP⟩

/-- A command that wrote no memory leaves the device its effect gives. -/
theorem runs_of_lift_clean {e : Dev} (h : exec i s = lift f s) (he : f s.dev = e) (hmem : e.mem = s.dev.mem) (hwr : e.wr = []) (hP : P e) :
    Runs i s P :=
  runs_of_lift h (by rwa [he, landed_clean s e hmem hwr])

theorem checked_ok (d : Dev) (h : st = 0) : checked c st f d = f d := if_pos h

theorem checked_fails (d : Dev) (h : st ≠ 0) : checked c st f d = completeSt c st d := if_neg h

/-- A command that checks and then has its effect and completes serves. -/
theorem serves_of_lift (h : exec i s = lift f s) (hf : f s.dev = checked c st (fun d => completeSt c 0 (eff d)) s.dev) :
    Serves i c s st eff :=
  ⟨fun hst => lands_of_lift h (hf.trans (checked_ok _ hst)), fun hst => lands_of_lift h (hf.trans (checked_fails _ hst))⟩

/-- The same, for an effect that agrees with what the command does on this device. -/
theorem serves_of_checked {g : Dev → Dev} (h : exec i s = lift f s) (hf : f s.dev = checked c st g s.dev)
    (hg : g s.dev = completeSt c 0 (eff s.dev)) : Serves i c s st eff :=
  ⟨fun hst => lands_of_lift h ((hf.trans (checked_ok _ hst)).trans hg), fun hst => lands_of_lift h (hf.trans (checked_fails _ hst))⟩

theorem defers_of_checked {g : Dev → Dev} (h : exec i s = lift f s) (hf : f s.dev = checked c st g s.dev) (hg : g s.dev = eff s.dev) :
    Defers i c s st eff :=
  ⟨fun hst => lands_of_lift h ((hf.trans (checked_ok _ hst)).trans hg), fun hst => lands_of_lift h (hf.trans (checked_fails _ hst))⟩

theorem defers_of_lift (h : exec i s = lift f s) (hf : f s.dev = checked c st eff s.dev) : Defers i c s st eff :=
  ⟨fun hst => lands_of_lift h (hf.trans (checked_ok _ hst)), fun hst => lands_of_lift h (hf.trans (checked_fails _ hst))⟩

end Sys2Proof.Machine

/-! SUPPORT. Modifying and deleting a table's entry, and commands that apply items (R173, R186, R187). -/

namespace Sys2Proof.Machine
open Sys2Proof

/-! ### One entry replaced, one key removed -/

/-- A change of the first entry of key `k` that keeps its key changes what is found at `k`, and nothing at another key. -/
theorem findKey_updFirst (es : List TEnt) (k k' : Bytes) (b : Bytes) (hb : eKey b = k) :
    findKey (updFirst (fun y => decide (eKey y.bytes = k)) (fun y => { y with bytes := b }) es) k' =
      if k' = k then (findKey es k).map fun _ => b else findKey es k' := by
  induction es with
  | nil => by_cases h : k' = k <;> simp [updFirst, findKey, h]
  | cons x es ih =>
    unfold updFirst
    by_cases hx : eKey x.bytes = k
    · simp only [hx, decide_true, if_true, findKey_cons, hb, Option.map_some]
      by_cases hk : k' = k
      · rw [if_pos hk, if_pos hk.symm]
      · rw [if_neg hk, if_neg (Ne.symm hk), if_neg (Ne.symm hk)]
    · simp only [hx, decide_false, Bool.false_eq_true, if_false, findKey_cons, ih]
      by_cases hk : k' = k
      · rw [if_pos hk, if_pos hk, if_neg (hk ▸ hx)]
      · rw [if_neg hk, if_neg hk]

theorem findKey_filter_ne (es : List TEnt) (k k' : Bytes) :
    findKey (es.filter fun y => !(decide (eKey y.bytes = k))) k' = if k' = k then none else findKey es k' := by
  induction es with
  | nil => simp [findKey]
  | cons x es ih =>
    by_cases hx : eKey x.bytes = k
    · rw [List.filter_cons_of_neg (by simp [hx]), ih, findKey_cons, hx]
      by_cases hk : k' = k
      · rw [if_pos hk, if_pos hk]
      · rw [if_neg hk, if_neg hk, if_neg (Ne.symm hk)]
    · rw [List.filter_cons_of_pos (by simp [hx]), findKey_cons, ih, findKey_cons]
      by_cases hk : k' = k
      · rw [if_pos hk, if_pos hk, if_neg (hk ▸ hx)]
      · rw [if_neg hk, if_neg hk]

theorem lookup_ltableU_ents (t : Nat) (g : List TEnt → List TEnt) (d : Dev) (k : Bytes) :
    lookup (ltableU t (fun x => { x with ents := g x.ents }) d) t k = findKey (g (ltable d t).ents) k := by
  rw [lookup_eq_findKey, ltable_ltableU_self]

/-- A modify is refused and changes nothing, or replaces the entry found at the key. -/
theorem tblModify1_cases (c : Cmd) (t : Nat) (e : Bytes) (d : Dev) :
    (tblModify1 c t e d).1 ≠ 0 ∧ (tblModify1 c t e d).2 = d ∨
    ∃ o, lookup d t (eKey e) = some o ∧ tblModify1 c t e d = (0, ltableU t (fun x => { x with
      ents := updFirst (fun y => decide (eKey y.bytes = eKey e)) (fun y => { y with bytes := storedEnt e (eOwner o) }) x.ents }) d) := by
  unfold tblModify1
  cases hfound : lookup d t (eKey e) with
  | none =>
    dsimp only
    split_ifs <;> exact .inl ⟨by simp, rfl⟩
  | some o =>
    dsimp only
    split_ifs
    · exact .inl ⟨by simp, rfl⟩
    · exact .inl ⟨by simp, rfl⟩
    · exact .inl ⟨by simp, rfl⟩
    · exact .inr ⟨o, rfl, rfl⟩

/-- A delete is refused and changes nothing, or removes every entry of the key, which was in the table. -/
theorem tblDelete1_cases (c : Cmd) (t : Nat) (e : Bytes) (d : Dev) :
    (tblDelete1 c t e d).1 ≠ 0 ∧ (tblDelete1 c t e d).2 = d ∨
    lookup d t (eKey e) ≠ none ∧ tblDelete1 c t e d = (0, ltableU t (fun x => { x with
      ents := x.ents.filter fun y => !(decide (eKey y.bytes = eKey e)) }) d) := by
  unfold tblDelete1
  split
  · exact .inl ⟨by simp, rfl⟩
  split
  · exact .inl ⟨by simp, rfl⟩
  next o ho =>
    split
    · exact .inr ⟨by simp [ho], rfl⟩
    · exact .inl ⟨by simp, rfl⟩

theorem tblModify1_result (c : Cmd) (t : Nat) {e : Bytes} (d : Dev) (hlen : e.length = 64) :
    let m := tblModify1 c t e d
    (m.1 = 0 → (∃ o, lookup d t (eKey e) = some o ∧ lookup m.2 t (eKey e) = some (storedEnt e (eOwner o))) ∧
      ∀ k, k ≠ eKey e → lookup m.2 t k = lookup d t k) ∧ (m.1 ≠ 0 → m.2 = d) := by
  intro m
  rcases tblModify1_cases c t e d with ⟨hm, hd⟩ | ⟨o, ho, hm⟩
  · exact ⟨fun h => absurd h hm, fun _ => hd⟩
  have hfind (k : Bytes) : lookup m.2 t k = if k = eKey e then some (storedEnt e (eOwner o)) else lookup d t k := by
    change lookup (tblModify1 c t e d).2 t k = _
    rw [hm, lookup_ltableU_ents t (updFirst _ _), findKey_updFirst _ _ _ _ (eKey_storedEnt hlen _), ← lookup_eq_findKey, ho, ← lookup_eq_findKey]
    rfl
  refine ⟨fun _ => ⟨⟨o, ho, ?_⟩, fun k hk => ?_⟩, fun h => absurd (congrArg Prod.fst hm) h⟩
  · rw [hfind, if_pos rfl]
  · rw [hfind, if_neg hk]

theorem tblDelete1_result (c : Cmd) (t : Nat) (e : Bytes) (d : Dev) :
    let x := tblDelete1 c t e d
    (x.1 = 0 → lookup d t (eKey e) ≠ none ∧ lookup x.2 t (eKey e) = none ∧ ∀ k, k ≠ eKey e → lookup x.2 t k = lookup d t k) ∧
    (x.1 ≠ 0 → x.2 = d) := by
  intro x
  rcases tblDelete1_cases c t e d with ⟨hx, hd⟩ | ⟨hfound, hx⟩
  · exact ⟨fun h => absurd h hx, fun _ => hd⟩
  have hfind (k : Bytes) : lookup x.2 t k = if k = eKey e then none else lookup d t k := by
    change lookup (tblDelete1 c t e d).2 t k = _
    rw [hx, lookup_ltableU_ents t (fun es => es.filter _), findKey_filter_ne, ← lookup_eq_findKey]
  refine ⟨fun _ => ⟨hfound, ?_, fun k hk => ?_⟩, fun h => absurd (congrArg Prod.fst hx) h⟩
  · rw [hfind, if_pos rfl]
  · rw [hfind, if_neg hk]

/-! ### Commands that apply items -/

/-- The step of `applyItems`: after a failed item nothing more is applied. -/
def itemStep (c : Cmd) (size : Nat) (f : Bytes → Dev → Nat × Dev) (a : Nat × Nat × Dev) (i : Nat) : Nat × Nat × Dev :=
  if a.2.1 ≠ 0 then a else
  let (r, d) := f (dmaRead a.2.2 c.fn (cBuf c + size * i) size) a.2.2
  if r = 0 then (a.1 + 1, 0, d) else (a.1, r, d)

theorem applyItems_eq (c : Cmd) (size : Nat) (f : Bytes → Dev → Nat × Dev) (d : Dev) :
    applyItems c size f d =
      let a := (List.range (cCount c)).foldl (itemStep c size f) (0, 0, d)
      complete c 0 (a.1 + a.2.1 * 65536) a.2.2 := rfl

/-- After `n` items no more than `n` are done, and all are where none failed. -/
theorem foldl_itemStep (c : Cmd) (size : Nat) (f : Bytes → Dev → Nat × Dev) (d : Dev) (n : Nat) :
    let a := (List.range n).foldl (itemStep c size f) (0, 0, d)
    a.1 ≤ n ∧ (a.2.1 = 0 ↔ a.1 = n) := by
  induction n with
  | zero => simp
  | succ n ih =>
    rw [List.range_succ, List.foldl_append]
    generalize (List.range n).foldl (itemStep c size f) (0, 0, d) = a at ih
    obtain ⟨hle, hiff⟩ := ih
    simp only [List.foldl_cons, List.foldl_nil, itemStep]
    split_ifs with hfail hres
    · exact ⟨by omega, by constructor <;> omega⟩
    · exact ⟨by simpa using hle, by simpa using hiff.mp (by simpa using hfail)⟩
    · exact ⟨by simp; omega, by simp; omega⟩

theorem applyItems_zero {c : Cmd} (h : cCount c = 0) (size : Nat) (f : Bytes → Dev → Nat × Dev) (d : Dev) :
    applyItems c size f d = complete c 0 0 d := by
  simp [applyItems_eq, h]

theorem applyItems_one {c : Cmd} (h : cCount c = 1) (size : Nat) (f : Bytes → Dev → Nat × Dev) (d : Dev) :
    applyItems c size f d =
      complete c 0 (if (f (dmaRead d c.fn (cBuf c) size) d).1 = 0 then 1 else (f (dmaRead d c.fn (cBuf c) size) d).1 * 65536)
        (f (dmaRead d c.fn (cBuf c) size) d).2 := by
  rw [applyItems_eq, h]
  simp only [List.range_one, List.foldl_cons, List.foldl_nil, itemStep, Nat.mul_zero, Nat.add_zero]
  split_ifs with h' <;> simp_all

/-- Settles O20: the cases of one modify and one delete, and the effect that each command lifts. -/
theorem tableItemsTouchTheirKeyAndReport : Obligations.TableItemsTouchTheirKeyAndReport := by
  unfold Obligations.TableItemsTouchTheirKeyAndReport
  refine ⟨fun d c t e hlen => ?_, ?_⟩
  · obtain ⟨hm, hm'⟩ := tblModify1_result c t d hlen
    obtain ⟨hx, hx'⟩ := tblDelete1_result c t e d
    refine ⟨hm, hm', hx, hx', fun h => ?_, fun h hnone => ?_⟩
    · simp [tblModify1, tblDelete1, h]
    · simp [tblDelete1, h, hnone]
  intro s c d badBuf items one
  have hinsert := exec_tblInsert c s
  have hmodify := exec_tblModify c s
  have hdelete := exec_tblDelete c s
  have hsession := exec_sessionSet c s
  have hpolicer := exec_policerSet c s
  refine ⟨fun h => ?_, fun h => ?_, fun h hn => ?_, fun h hn => ?_, fun h hn => ?_, fun n f hn => ?_⟩
  · exact ⟨lands_of_lift hinsert (checked_fails _ h), lands_of_lift hmodify (checked_fails _ h), lands_of_lift hdelete (checked_fails _ h)⟩
  · exact ⟨lands_of_lift hsession (checked_fails _ h), lands_of_lift hpolicer (checked_fails _ h)⟩
  · exact ⟨lands_of_lift hinsert ((checked_ok _ h).trans (applyItems_zero hn _ _ _)),
      lands_of_lift hmodify ((checked_ok _ h).trans (applyItems_zero hn _ _ _)),
      lands_of_lift hdelete ((checked_ok _ h).trans (applyItems_zero hn _ _ _))⟩
  · exact ⟨lands_of_lift hinsert ((checked_ok _ h).trans (applyItems_one hn _ _ _)),
      lands_of_lift hmodify ((checked_ok _ h).trans (applyItems_one hn _ _ _)),
      lands_of_lift hdelete ((checked_ok _ h).trans (applyItems_one hn _ _ _))⟩
  · exact ⟨lands_of_lift hsession ((checked_ok _ h).trans (applyItems_one hn _ _ _)),
      lands_of_lift hpolicer ((checked_ok _ h).trans (applyItems_one hn _ _ _))⟩
  · obtain ⟨hle, hiff⟩ := foldl_itemStep c 64 f d (cCount c)
    exact ⟨_, _, _, applyItems_eq c 64 f d, hle.trans hn, hiff⟩

end Sys2Proof.Machine

/-! SUPPORT. A frame that waits for an ingress pipe whose island does not work (R12, R152). -/

namespace Sys2Proof.Machine
open Sys2Proof

/-- After reset, with a frame readable at ingress pipe 0: no island but the always-on one works. -/
def frameAtDarkPipe : State :=
  { State.reset with dev := { State.reset.dev with xings := [⟨0, ipIsland 0, true, .ingress {}⟩] } }

/-- The pipe would take the frame out of its crossing. -/
theorem xings_pipeFrame_dark : (flowUpdate 0 (pipeFrame 0 {} { frameAtDarkPipe.dev with xings := [] })).xings = [] := by decide

/-- Refutes O21: INGRESS_FRAME receives only at a working island, which the clause on a frame of another mode than 1.6TBASE-R does
not ask for. In `frameAtDarkPipe` the frame stays in its crossing. -/
theorem not_framesAreClassifiedByTheirTables : ¬ Obligations.FramesAreClassifiedByTheirTables := by
  unfold Obligations.FramesAreClassifiedByTheirTables
  rintro ⟨-, hframes⟩
  have hland := (hframes frameAtDarkPipe 0 0 {} false).1 0 [] rfl (by decide)
  have hdev := congrArg Dev.xings (hland.dev_eq (exec_ingressFrame 0 _))
  rw [landed_xings, landed_xings, xings_pipeFrame_dark] at hdev
  revert hdev
  decide

end Sys2Proof.Machine

/-! SUPPORT. Frames that wait for the course island, or for an egress pipe, that does not work (R12). -/

namespace Sys2Proof.Machine
open Sys2Proof

/-- After reset, when no island but the always-on one works, with item `it` readable at island `dst`, and packet 0 in flight. -/
def waitsAtDark (dst : Nat) (it : Item) : State :=
  { State.reset with dev := { State.reset.dev with xings := [⟨0, dst, true, it⟩], pkts := [{ id := 0 }] } }

/-- Refutes O23: COURSE_INTAKE receives only at a working course island, which the clause on a course that is off does not ask for. In
`waitsAtDark` the frame stays in its crossing. -/
theorem not_coursesHoldReleaseAndServe : ¬ Obligations.CoursesHoldReleaseAndServe := by
  unfold Obligations.CoursesHoldReleaseAndServe
  rintro ⟨hcourse, -⟩
  have hland := (hcourse (waitsAtDark csIsland (.course 0 {})) 0 0 {} []).1 rfl (by decide)
  have hdev := congrArg Dev.xings (hland.dev_eq (exec_courseIntake 0 _))
  revert hdev
  decide

/-- Refutes O24: EGRESS_ENQUEUE receives only at a working egress pipe, which the clause on a port with no link to wait for does not ask
for. In `waitsAtDark` the frame stays in its crossing. -/
theorem not_egressQueuesAdmitOrCount : ¬ Obligations.EgressQueuesAdmitOrCount := by
  unfold Obligations.EgressQueuesAdmitOrCount
  intro hegress
  obtain ⟨-, -, hdiscard, -⟩ := hegress (waitsAtDark (epIsland 0) (.egress 0 0 {})) 0 0 0 0 {} []
  have hland := hdiscard rfl (by decide) (by decide)
  have hdev := congrArg Dev.xings (hland.dev_eq (exec_egressEnqueue 0 _))
  revert hdev
  decide

/-- Refutes O26: PLUMB_ENQUEUE takes a packet only at a working egress pipe, which the clause on a group that takes none does not ask
for. In `waitsAtDark` the packet stays in its crossing. -/
theorem not_schedulesAndPlumbCopiesFollowTheirTimes : ¬ Obligations.SchedulesAndPlumbCopiesFollowTheirTimes := by
  unfold Obligations.SchedulesAndPlumbCopiesFollowTheirTimes
  rintro ⟨-, hplumb⟩
  obtain ⟨hrefused, -⟩ := hplumb (waitsAtDark (epIsland 0) (.plumb 0 { pkt := some 0 })) { fn := 0 } 0 0 0 { pkt := some 0 } [] 0 []
    { pkt := 0, group := 0, port := 0, frame := {}, rel := 0, d := 0, window := 0, stamp := 0, tL := 0, str := 0, tick := 0 } { id := 0 }
  have hland := hrefused rfl rfl (by decide)
  have hdev := congrArg Dev.xings (hland.dev_eq (exec_plumbEnqueue 0 0 [] _))
  revert hdev
  decide

end Sys2Proof.Machine

/-! SUPPORT. The SPDM responder's answers (R385). -/

namespace Sys2Proof.Machine
open Sys2Proof

variable {s : State} {c : Carrier} {req : Bytes}

theorem freeBytes_out (n : Nat) (d : Dev) : (freeBytes n d).2.out = d.out := by
  induction n generalizing d with
  | zero => rfl
  | succ n ih => exact ih (fresh d).2

/-- A request of the version agreed, of a length that is taken. -/
theorem spdmServe_of_version {code : Nat} {d : Dev} (h : spdmServes d c = true) (hlo : 4 ≤ req.length) (hhi : req.length ≤ 16384)
    (hcode : code ≠ 0x84) (hver : u8 req 0 = 0x13) : spdmServe code c req d =
      if code = 0xE1 then (if spdmSt d c < 1 then spdmErr c 0x04 0 d else spdmCapabilities c d)
      else if code = 0xE3 then (if spdmSt d c < 2 then spdmErr c 0x04 0 d else spdmAlgorithms c req d)
      else if code = 0x81 ∨ code = 0x82 ∨ code = 0x83 ∨ code = 0xE0 then
        if spdmSt d c < 3 then spdmErr c 0x04 0 d
        else if code = 0x81 then spdmDigests c d
        else if code = 0x82 then spdmCertificate c req d
        else if code = 0x83 then spdmChallenge c req d
        else spdmMeasurements c req d
      else spdmErr c 0x07 code d := by
  have hlen : ¬(req.length < 4 ∨ 16384 < req.length) := by omega
  simp [spdmServe, h, hlen, hcode, hver]

/-- A request of another version, GET_VERSION apart, is refused. -/
theorem spdmServe_of_otherVersion {code : Nat} {d : Dev} (h : spdmServes d c = true) (hlo : 4 ≤ req.length) (hhi : req.length ≤ 16384)
    (hcode : code ≠ 0x84) (hver : u8 req 0 ≠ 0x13) : spdmServe code c req d = spdmErr c 0x41 0 d := by
  have hlen : ¬(req.length < 4 ∨ 16384 < req.length) := by omega
  simp [spdmServe, h, hlen, hcode, hver]

theorem spdmServe_getVersion {d : Dev} (h : spdmServes d c = true) (hlo : 4 ≤ req.length) (hhi : req.length ≤ 16384) :
    spdmServe 0x84 c req d = spdmVersion c d := by
  have hlen : ¬(req.length < 4 ∨ 16384 < req.length) := by omega
  simp [spdmServe, h, hlen]

/-- One measurement, unsigned: its block stands after the header. -/
theorem out_spdmMeasurements {d : Dev} {i : Nat} {x : Comp} (hx : d.comps[i]? = some x) (hi : i < 254) (hsign : u8 req 2 = 0)
    (hop : u8 req 3 = i + 1) : ∃ tail, (spdmMeasurements c req d).out =
      .spdm c ([0x13, 0x60, 0, 0, 1] ++ leBytes 3 (measureBlock i x).length ++ measureBlock i x ++ tail) :: d.out := by
  have hchosen : ((d.comps.zipIdx.map fun y => measureBlock y.2 y.1).drop i).take 1 = [measureBlock i x] := by
    rw [List.take_one, List.head?_drop]
    simp [hx]
  refine ⟨(freeBytes 32 d).1 ++ leBytes 2 0 ++ slice req 4 8, ?_⟩
  unfold spdmMeasurements
  simp only [hsign, hop, Nat.add_sub_cancel, hchosen, show ¬(i + 1 = 0) by omega, show ¬(i + 1 = 0xFF) by omega, if_false]
  simp [bitOf, emit, freeBytes_out, spdmMsg, leBytes_one]

/-- Settles O57: the responder's answer by the request's version, code and place in the connection. -/
theorem spdmRequestsAreAnsweredInOrder : Obligations.SpdmRequestsAreAnsweredInOrder := by
  unfold Obligations.SpdmRequestsAreAnsweredInOrder
  intro s c req hserves hlo hhi d
  subst d
  have hother {code : Nat} (hcode : code ≠ 0x84) (h : u8 req 0 ≠ 0x13) : spdmServe code c req s.dev = spdmErr c 0x41 0 s.dev :=
    spdmServe_of_otherVersion hserves hlo hhi hcode h
  have hserve {code : Nat} (hcode : code ≠ 0x84) (h : u8 req 0 = 0x13) := spdmServe_of_version (code := code) hserves hlo hhi hcode h
  refine ⟨?_, fun h => ⟨?_, ?_⟩, fun h hst => ?_, fun h hst => ?_, fun h hst => ?_, fun h hst => ⟨?_, ?_, ?_, ?_⟩, fun h hst => ?_,
    fun h => ?_, fun h hcodes => ?_, fun hlc h hst => ?_, fun i x hx hi h hst hsign hop => ?_⟩
  · exact lands_of_lift (exec_getVersion c req s) (spdmServe_getVersion hserves hlo hhi)
  · exact lands_of_lift (exec_getCapabilities c req s) (hother (by decide) h)
  · exact lands_of_lift (exec_challenge c req s) (hother (by decide) h)
  · exact lands_of_lift (exec_getCapabilities c req s) (by simp [hserve, h, show spdmSt s.dev c ≠ 0 by omega])
  · exact lands_of_lift (exec_getCapabilities c req s) (by simp [hserve, h, show spdmSt s.dev c = 0 from hst]; rfl)
  · exact lands_of_lift (exec_negotiateAlgorithms c req s) (by simp [hserve, h, show ¬ spdmSt s.dev c < 2 by omega])
  · exact lands_of_lift (exec_getDigests c req s) (by simp [hserve, h, show ¬ spdmSt s.dev c < 3 by omega])
  · exact lands_of_lift (exec_getCertificate c req s) (by simp [hserve, h, show ¬ spdmSt s.dev c < 3 by omega])
  · exact lands_of_lift (exec_challenge c req s) (by simp [hserve, h, show ¬ spdmSt s.dev c < 3 by omega])
  · exact lands_of_lift (exec_getMeasurements c req s) (by simp [hserve, h, show ¬ spdmSt s.dev c < 3 by omega])
  · exact lands_of_lift (exec_getMeasurements c req s) (by simp [hserve, h, show spdmSt s.dev c < 3 from hst]; rfl)
  · refine lands_of_lift (exec_spdmRequest c req s) ?_
    rw [h]
    exact spdmServe_getVersion hserves hlo hhi
  · simp only [List.mem_cons, List.not_mem_nil, or_false, not_or] at hcodes
    exact lands_of_lift (exec_spdmRequest c req s) (by rw [hserve (by tauto) h]; simp [hcodes, spdmErr, spdmMsg, leBytes_one])
  · refine lands_of_lift (exec_challenge c req s) ?_
    have hno : noCert s.dev = true := by simpa [noCert] using hlc
    simp [hserve, h, show ¬ spdmSt s.dev c < 3 by omega, spdmChallenge, hno, spdmErr, spdmMsg, leBytes_one]
  · refine runs_of_lift (exec_getMeasurements c req s) ?_
    rw [landed_out, hserve (by decide) h]
    simpa [show ¬ spdmSt s.dev c < 3 by omega] using out_spdmMeasurements hx hi hsign hop

end Sys2Proof.Machine

/-! SUPPORT. The management bus's answers and the states of a firmware update (R539, R571, R572). -/

namespace Sys2Proof.Machine
open Sys2Proof

variable {s : State} {d : Dev}

/-- PLDM type 5 lists the commands of a firmware update, one bit each. -/
theorem bitOf_codeMap_update {k : Nat} (hk : k < 256) :
    bitOf (u8 (codeMap [0x01, 0x02, 0x10, 0x13, 0x14, 0x15, 0x16, 0x17, 0x18, 0x1A, 0x1B, 0x1D]) (k / 8)) (k % 8) =
      decide (k ∈ [0x01, 0x02, 0x10, 0x13, 0x14, 0x15, 0x16, 0x17, 0x18, 0x1A, 0x1B, 0x1D]) := by
  rw [codeMap, bitOf_u8_leBytes _ hk]
  by_cases hsmall : k < 30
  · have hlisted : ∀ k < 30, Nat.testBit ([0x01, 0x02, 0x10, 0x13, 0x14, 0x15, 0x16, 0x17, 0x18, 0x1A, 0x1B, 0x1D].map fun i => 2 ^ i).sum k =
        decide (k ∈ [0x01, 0x02, 0x10, 0x13, 0x14, 0x15, 0x16, 0x17, 0x18, 0x1A, 0x1B, 0x1D]) := by decide
    exact hlisted k hsmall
  · rw [Nat.testBit_lt_two_pow (lt_of_lt_of_le (by decide) (Nat.pow_le_pow_right two_pos (not_lt.mp hsmall)))]
    simp only [List.mem_cons, List.not_mem_nil, or_false]
    exact (decide_eq_false (by omega)).symm

theorem mem_sensors_domain {a : Nat} (hpos : 1 ≤ a) (hlt : a < 49) (hpresent : islandPresent d.variant a = true) :
    0x100 + a ∈ sensors d := by
  refine List.mem_append_right _ (List.mem_map.mpr ⟨a, ?_, rfl⟩)
  rw [List.mem_filter, List.mem_range]
  exact ⟨hlt, by simp [hpresent]; omega⟩

/-- Settles O58: each message's answer where the bus answers it. -/
theorem managementBusAnswersItsMessages : Obligations.ManagementBusAnswersItsMessages := by
  unfold Obligations.ManagementBusAnswersItsMessages
  intro s a b ep d
  subst d
  refine ⟨fun h => ?_, fun h => ?_, fun h hb hb' hab => ?_, fun h hbad => ?_, fun h => ?_, fun h => ?_, fun h hpg => ?_, fun h ha => ?_,
    fun h hb ha ha' => ?_, fun h => ?_, fun h => ⟨fun ha => ?_, fun ha => ?_, ?_, ?_, ?_, fun ha => ?_, ?_, ?_, fun ha hs => ?_, ?_,
      fun hw ha ha' => ?_, ?_, fun ha ha' hp => ?_, ?_, fun x ha hx => ?_, fun ha => ?_⟩⟩
  · exact lands_of_lift (exec_readStatus s) (by simp [busUp, h, mgmtReply])
  · exact lands_of_lift (exec_readStatus s) (by simp [busUp, h])
  · exact lands_of_lift (exec_readLog a b s) ((if_neg (by simp [busUp, h])).trans (if_neg (by omega)))
  · exact lands_of_lift (exec_readLog a b s) (by simp [busUp, h, hbad])
  · exact lands_of_lift (exec_ackLog a s) (by simp [h])
  · exact lands_of_lift (exec_ackLog a s) (by simp [busFull, h])
  · exact lands_of_lift (exec_mctpDeviceReset _ s) (by simp [h, hpg, askReset, mgmtReply])
  · exact lands_of_lift (exec_mctpDeviceReset _ s) (by simp [h, ha])
  · exact lands_of_lift (exec_setEndpointId ep b a s) (by simp [h, show ¬(1 < b ∨ a = 0 ∨ 0xFE < a) by omega])
  · exact lands_of_lift (exec_getEndpointId ep s) (by simp [h])
  · exact lands_of_lift (exec_getMctpVersionSupport a s) (by simp [h]; intros; simp_all)
  · exact lands_of_lift (exec_getMctpVersionSupport a s) (by simp [h]; intros; simp_all)
  · exact lands_of_lift (exec_getMessageTypeSupport s) (by simp [h])
  · exact lands_of_lift (exec_getVendorDefinedMessageSupport 0 s) (by simp [h])
  · exact lands_of_lift (exec_getTid s) (by simp [h])
  · exact lands_of_lift (exec_getPldmVersion a s) (by simp [h]; intros; simp_all)
  · exact lands_of_lift (exec_getPldmTypes s) (by simp [h]; rfl)
  · exact ⟨_, lands_of_lift (exec_getPldmCommands 5 s) (by simp [h]; rfl), length_leBytes _ _, fun k hk => bitOf_codeMap_update hk⟩
  · exact lands_of_lift (exec_getStateSensorReadings a s) (by simp [h, hs])
  · exact lands_of_lift (exec_getSensorReading 1 s) (by simp [h])
  · have hread : ¬a = 1 := by omega
    exact runs_of_lift_clean (e := pldmReply 2 0x11 0 ([4, 0, 0, 0, 0, 0] ++ leBytes 4 (fresh s.dev).1) (fresh s.dev).2)
      (exec_getSensorReading a s) (by simp [h, hread, ha, ha']) rfl hw ⟨_, rfl⟩
  · exact lands_of_lift (exec_getStateSensorReadings 5 s) (by simp [h, sensors])
  · exact lands_of_lift (exec_getStateSensorReadings _ s) (by
      simp [h, mem_sensors_domain ha ha' hp, show ¬ 256 + a < 5 by omega, show ¬ 256 + a = 5 by omega, show ¬ 256 + a = 6 by omega])
  · exact lands_of_lift (exec_getPdrRepositoryInfo s) (by simp [h])
  · exact lands_of_lift (exec_getPdr a s) (by
      simp [h, ha, hx, show a - 1 + 1 = a by omega, show a - 1 + 2 = a + 1 by omega])
  · have hpos : 0 < (sensors s.dev).length := by simp [sensors]
    have hnone : (sensors s.dev)[a - 1]? = none := List.getElem?_eq_none (by omega)
    exact lands_of_lift (exec_getPdr a s) (by simp [h, show a ≠ 0 by omega, hnone])

/-! ### A firmware update (R539) -/

theorem fwIn_of_mem {code cc : Nat} {sts : List Nat} {f : Dev → Dev} (h : fwServes d = true) (hst : sts.contains d.pldm.st = true) :
    fwIn code cc sts f d = f d := by
  simp only [fwIn, h, hst, Bool.not_true, Bool.false_eq_true, if_false, if_true]

theorem fwIn_of_not_mem {code cc : Nat} {sts : List Nat} {f : Dev → Dev} (h : fwServes d = true) (hst : sts.contains d.pldm.st = false) :
    fwIn code cc sts f d = pldmReply 5 code cc [] d := by
  simp only [fwIn, h, hst, Bool.not_true, Bool.false_eq_true, if_false]

/-- Settles O59: each command of the update in its state, and refused in another. -/
theorem firmwareUpdateFollowsItsStates : Obligations.FirmwareUpdateFollowsItsStates := by
  unfold Obligations.FirmwareUpdateFollowsItsStates
  intro s size ask data hserves d p goes
  subst goes p d
  refine ⟨?_, ?_, fun hst hsize => ?_, fun hst => ?_, fun hst => ?_, fun hst => ?_, fun hst hlo hhi => ?_, fun hst hlo hhi hmore hlen => ?_,
    fun hst hall => ?_, fun hst hall => ?_, fun hst => ?_, fun hst => ?_, fun copyBad fail hst happ hboot => ?_,
    fun copyBad fail hst happ => ?_, fun hst => ?_, fun hst hsize => ?_, fun hlo hhi => ?_, fun hst => ?_⟩
  · exact lands_of_lift (exec_queryDeviceIdentifiers s) (by simp [hserves])
  · exact lands_of_lift (exec_getFirmwareParameters s) (by simp [hserves])
  · exact lands_of_lift (exec_requestUpdate size 1 0 s) (by
      rw [fwIn_of_mem hserves (by simp [hst])]
      simp [show ¬ size < 64 by omega, pldmTo, pldmU])
  · exact lands_of_lift (exec_requestUpdate size 1 0 s) (fwIn_of_not_mem hserves (by simp [hst]))
  · exact lands_of_lift (exec_passComponentTable s) (fwIn_of_mem hserves (by simp [hst]))
  · exact lands_of_lift (exec_passComponentTable s) (fwIn_of_not_mem hserves (by simp [hst]))
  · exact lands_of_lift (exec_updateComponent size s) (by
      rw [fwIn_of_mem hserves (by simp [hst])]
      rw [if_neg (by omega)]
      simp [hst, pldmTo, pldmU])
  · exact lands_of_lift (exec_requestFirmwareData ask data s) (by
      simp [hserves, hst, hlen, show ¬ ask < 64 by omega, show ¬ s.dev.pldm.maxXfer < ask by omega,
        show ¬ s.dev.pldm.size ≤ s.dev.pldm.data.length by omega, pldmU, emit])
  · exact lands_of_lift (exec_transferComplete s) (by simp [hserves, hst, hall, pldmTo, pldmU])
  · exact lands_of_lift (exec_transferComplete s) (by simp [hall])
  · refine runs_of_lift (exec_verifyComplete s) ⟨fun hnone => ?_, fun x hx => ?_⟩
    · simp [hserves, hst, hnone, pldmTo, pldmU]
    · simp [hserves, hst, hx, pldmTo, pldmU]
  · exact lands_of_lift (exec_applyComplete s) (by simp [hserves, hst, pldmTo, pldmU])
  · exact lands_of_lift (exec_activateFirmware false copyBad fail s) (by
      rw [fwIn_of_mem hserves (by simp [hst])]
      simp [happ, hboot])
  · exact lands_of_lift (exec_activateFirmware false copyBad fail s) (by
      rw [fwIn_of_mem hserves (by simp [hst])]
      simp [happ])
  · exact lands_of_lift (exec_getStatus s) (by simp [hserves, hst])
  · exact lands_of_lift (exec_getStatus s) (by simp [hserves, hst, hsize])
  · exact lands_of_lift (exec_cancelUpdate s) (fwIn_of_mem hserves (by simp; omega))
  · exact lands_of_lift (exec_cancelUpdate s) (fwIn_of_not_mem hserves (by simp [hst]))

end Sys2Proof.Machine

/-! SUPPORT. Tables with entries dropped, loops, and what the resets of the device keep (R520, R561, R562, R586). -/

namespace Sys2Proof

/-! ### Tables with entries dropped -/

theorem Tbl.get_filter_of_true {α : Type} (dflt : Nat → α) (p : Nat → Bool) (t : Tbl α) {k : Nat} (h : p k = true) :
    Tbl.get dflt (t.filter fun e => p e.1) k = Tbl.get dflt t k := by
  induction t with
  | nil => rfl
  | cons e t ih =>
    obtain ⟨k', v⟩ := e
    by_cases hk : k = k'
    · subst hk
      rw [List.filter_cons_of_pos (by simpa using h)]
      simp [Tbl.get]
    · by_cases hp : p k' = true
      · rw [List.filter_cons_of_pos (by simpa using hp)]
        simp [Tbl.get, hk, ih]
      · rw [List.filter_cons_of_neg (by simpa using hp)]
        simp [Tbl.get, hk, ih]

theorem Tbl.get_filter_of_false {α : Type} (dflt : Nat → α) (p : Nat → Bool) (t : Tbl α) {k : Nat} (h : p k = false) :
    Tbl.get dflt (t.filter fun e => p e.1) k = dflt k := by
  induction t with
  | nil => rfl
  | cons e t ih =>
    obtain ⟨k', v⟩ := e
    by_cases hp : p k' = true
    · have hk : k ≠ k' := fun h' => by simp [h', hp] at h
      rw [List.filter_cons_of_pos (by simpa using hp)]
      simp [Tbl.get, hk, ih]
    · rw [List.filter_cons_of_neg (by simpa using hp), ih]

end Sys2Proof

namespace Sys2Proof.Machine
open Sys2Proof

/-- What every turn of a loop keeps, the loop keeps. -/
theorem loopN_keeps {R : Dev → Dev → Prop} (hrefl : ∀ d, R d d) (htrans : ∀ {d e f}, R d e → R e f → R d f) {f : Nat → Dev → Dev}
    (hstep : ∀ i d, R d (f i d)) (n : Nat) (d : Dev) : R d (loopN n f d) := by
  have hfold (l : List Nat) (d : Dev) : R d (l.foldl (fun s i => f i s) d) := by
    induction l generalizing d with
    | nil => exact hrefl d
    | cons i l ih => exact htrans (hstep i d) (ih _)
  exact hfold _ d

/-! ### Contents lost -/

/-- The devices differ in what their spaces of memory have lost alone. -/
def SameButEpochs (d d' : Dev) : Prop := ∃ e, d' = { d with spEpoch := e }

theorem SameButEpochs.refl (d : Dev) : SameButEpochs d d := ⟨_, rfl⟩

theorem SameButEpochs.trans {d e f : Dev} (h : SameButEpochs d e) (h' : SameButEpochs e f) : SameButEpochs d f := by
  obtain ⟨_, rfl⟩ := h
  exact h'

theorem sameButEpochs_loseSpace (sp : Nat) (d : Dev) : SameButEpochs d (loseSpace sp d) := ⟨_, rfl⟩

/-- Losing the contents of the switchable islands empties the write buffer and touches no register. -/
theorem loseContents_eq (d : Dev) : ∃ e, loseContents d = { d with spEpoch := e, ledger := { d.ledger with wbuf := [] } } := by
  have hcores (c : Nat) (e : Dev) : SameButEpochs e
      (loopN 8 (fun k d => loseSpace (instrSpace c k) (loseSpace (coreSpace c k) d)) e) :=
    loopN_keeps SameButEpochs.refl (fun h h' => h.trans h')
      (fun _ d => (sameButEpochs_loseSpace _ d).trans (sameButEpochs_loseSpace _ _)) 8 e
  have hwindows (c : Nat) (e : Dev) : SameButEpochs e (loopN 64 (fun t d => loseSpace (windowSpace c t) d) e) :=
    loopN_keeps SameButEpochs.refl (fun h h' => h.trans h') (fun _ d => sameButEpochs_loseSpace _ d) 64 e
  have hclusters (e : Dev) : SameButEpochs e (loopN 6 (fun c d =>
      loopN 64 (fun t d => loseSpace (windowSpace c t) d) (loopN 8 (fun k d => loseSpace (instrSpace c k) (loseSpace (coreSpace c k) d))
        (loseSpace (clusterSpace c) d))) e) :=
    loopN_keeps SameButEpochs.refl (fun h h' => h.trans h')
      (fun c d => (sameButEpochs_loseSpace _ d).trans ((hcores c _).trans (hwindows c _))) 6 e
  obtain ⟨ep, hep⟩ := ((sameButEpochs_loseSpace dramSpace d).trans (sameButEpochs_loseSpace pbSpace _)).trans (hclusters _)
  unfold loseContents
  dsimp only
  rw [hep]
  exact ⟨ep, rfl⟩

/-- Pins driven one after the other are all a loop of pins puts out. -/
theorem loopN_pins_eq (n : Nat) (g : Nat → Out) (d : Dev) : ∃ o, loopN n (fun i d => emit (g i) d) d = { d with out := o } :=
  ⟨_, loopN_keeps (R := fun d d' => d' = { d with out := d'.out }) (fun _ => rfl) (fun {_ _ _} h h' => by rw [h', h]) (fun _ _ => rfl) n d⟩

theorem setHealthy_false_eq (d : Dev) : ∃ o, setHealthy false d = { d with out := o, foot := { d.foot with healthy := false } } := by
  unfold setHealthy
  split
  · next h => exact ⟨d.out, by rw [← h]⟩
  · exact ⟨_, rfl⟩

theorem bootPins_eq (code : Nat) (halt : Bool) (d : Dev) : ∃ o, bootPins code halt d = { d with out := o } := by
  obtain ⟨o, ho⟩ := loopN_pins_eq 4 (fun i => .pin (pinBootErr i) (bitOf code i)) d
  refine ⟨.pin pinBootHalt halt :: o, ?_⟩
  unfold bootPins
  rw [show (List.range 4).foldl (fun d i => emit (.pin (pinBootErr i) (bitOf code i)) d) d = _ from ho]
  rfl

/-! ### The device after a reset -/

/-- A warm reset keeps the always-on island's registers and counters, and drops the others (R561). -/
theorem warmDev_eq (d : Dev) : ∃ e, warmDev d = e ∧ e.regs = d.regs.filter (fun e => warmKept e.1) ∧
    e.ctrs = d.ctrs.filter (fun e => warmKept e.1) ∧ e.power = false ∧ e.strs = d.strs ∧ e.errs = d.errs ∧ e.resetAt = none ∧
    e.fns = [] ∧ e.queues = [] ∧ e.foot.healthy = false ∧ e.foot.boot = d.foot.boot ∧ e.foot.lifecycle = d.foot.lifecycle ∧
    e.foot.runSlot = d.foot.runSlot := by
  refine ⟨_, rfl, ?_⟩
  unfold warmDev
  dsimp only
  obtain ⟨o, ho⟩ := loopN_pins_eq 4 (fun i => .pin (pinDperst i) false) _
  rw [ho]
  obtain ⟨ep, hep⟩ := loseContents_eq _
  rw [hep]
  obtain ⟨o', ho'⟩ := setHealthy_false_eq _
  rw [ho']
  exact ⟨rfl, rfl, rfl, rfl, rfl, rfl, rfl, rfl, rfl, rfl, rfl, rfl⟩

/-- A cold reset returns every register, and keeps flash and fuses (R586). -/
theorem coldDev_eq (d : Dev) : ∃ e, coldDev d = e ∧ e.regs = [] ∧ e.ctrs = [] ∧ e.fatal = false ∧ e.errs = [] ∧ e.strs = [] ∧
    e.calSect = d.calSect ∧ e.ledger.volume = d.ledger.volume ∧ e.foot = {
      slots := d.foot.slots, gates := d.foot.gates, svn := d.foot.svn, epoch := d.foot.epoch, revoked := d.foot.revoked
      lifecycle := d.foot.lifecycle, lcNext := d.foot.lcNext, token := d.foot.token, boots := d.foot.boots } := by
  refine ⟨_, rfl, ?_⟩
  unfold coldDev
  dsimp only
  obtain ⟨o, ho⟩ := bootPins_eq 0 false _
  rw [ho]
  obtain ⟨o', ho'⟩ := loopN_pins_eq 4 (fun i => .pin (pinDperst i) false) _
  rw [ho']
  obtain ⟨ep, hep⟩ := loseContents_eq _
  rw [hep]
  exact ⟨rfl, rfl, rfl, rfl, rfl, rfl, rfl, rfl⟩

/-- Settles O56: the commands lift what their clauses say, and the reset device is read off its definition. -/
theorem resetsKeepWhatTheyKeep : Obligations.ResetsKeepWhatTheyKeep := by
  unfold Obligations.ResetsKeepWhatTheyKeep
  intro s c tagBad recovery d st
  obtain ⟨w, hw, hregs, hctrs, hpower, hstrs, herrs, hat, hfns, hqueues, hhealthy, hboot, hlifecycle, hslot⟩ := warmDev_eq s.dev
  obtain ⟨k, hk, hkregs, hkctrs, hkfatal, hkerrs, hkstrs, hksect, hkvolume, hkfoot⟩ := coldDev_eq s.dev
  have hnoreset {t : Nat} (ht : s.dev.resetAt = some t) (hdue : t ≤ now s.dev) :
      Lands (.warmReset tagBad recovery) s (warmReload tagBad recovery (warmDev s.dev)) :=
    lands_of_lift (exec_warmReset tagBad recovery s) (by simp [ht, hdue])
  subst st d
  rw [hw, hk]
  refine ⟨fun h => ?_, fun h => ?_, fun t ht hearly => ?_, fun t ht hdue hnot => ?_, fun t ht hdue hrun hlc hgood => ?_, fun k hkept => ⟨?_, ?_⟩,
    fun k hlost => ⟨?_, ?_⟩, ⟨hpower, hstrs, herrs, hat, hfns, hqueues, hhealthy⟩, ?_, fun ns hns => ?_, fun k => ⟨?_, ?_⟩, ?_⟩
  · exact lands_of_lift (exec_deviceReset c s) (checked_ok _ h)
  · exact lands_of_lift (exec_deviceReset c s) (checked_fails _ h)
  · exact lands_of_lift (exec_warmReset tagBad recovery s) (by simp [ht, hearly])
  · rw [← hw] at hboot ⊢
    have := hnoreset ht hdue
    rwa [warmReload, if_pos (by rwa [hboot])] at this
  · rw [← hw] at hboot hlifecycle hslot ⊢
    have := hnoreset ht hdue
    rwa [warmReload, if_neg (by simpa [hboot] using hrun), if_neg (by rwa [hlifecycle]), if_neg (by simpa [hslot] using hgood)] at this
  · rw [regR, hregs, Tbl.get_filter_of_true _ _ _ hkept, regR]
  · rw [ctrR, hctrs, Tbl.get_filter_of_true _ _ _ hkept, ctrR]
  · rw [regR, hregs, Tbl.get_filter_of_false _ _ _ hlost]
  · rw [ctrR, hctrs, Tbl.get_filter_of_false _ _ _ hlost]
  · exact lands_of_lift (exec_powerOnReset s) hk
  · exact lands_of_lift (exec_resetN ns s) (by simp [hns, hk])
  · rw [regR, hkregs, Tbl.get]
  · rw [ctrR, hkctrs, Tbl.get]
  · simp [hkfoot, hkfatal, hkerrs, hkstrs, hksect, hkvolume]

end Sys2Proof.Machine

/-! SUPPORT. The footing commands (R528, R533–R536, R542–R544, R546, R549). -/

namespace Sys2Proof.Machine
open Sys2Proof

/-- Settles O51: every command lifts its checks and its effect. -/
theorem footingCommandsAreServed : Obligations.FootingCommandsAreServed := by
  unfold Obligations.FootingCommandsAreServed
  intro s c d i e k len image bindSt retag runSvn users last
  subst last users runSvn retag bindSt image len k e i d
  refine ⟨?_, fun h hk copyBad => ?_, fun h hk copyBad => ?_, fun h copyBad => ?_, ?_, ?_, fun bad => ?_, ?_, ?_, ?_, ?_⟩
  · exact serves_of_lift (exec_fwDownload c s) rfl
  · exact lands_of_lift (exec_fwBind c copyBad s) ((checked_ok _ h).trans (by dsimp only; rw [if_pos hk]))
  · exact lands_of_lift (exec_fwBind c copyBad s) ((checked_ok _ h).trans (by dsimp only; rw [if_neg (by omega)]))
  · exact lands_of_lift (exec_fwBind c copyBad s) (checked_fails _ h)
  · exact serves_of_lift (exec_fwConfirm c s) rfl
  · exact serves_of_lift (exec_fwSvnCommit c s) rfl
  · exact serves_of_lift (exec_footEpochAdvance c bad s) rfl
  · exact serves_of_checked (exec_footKeyRevoke c s) rfl rfl
  · exact serves_of_lift (exec_footLifecycle c s) rfl
  · exact serves_of_checked (exec_footDebugToken c s) rfl rfl
  · exact serves_of_lift (exec_fwDriverAbi c s) rfl

end Sys2Proof.Machine

/-! SUPPORT. What logging an error may touch, and errors that fail a unit or the device (R563–R570). -/

namespace Sys2Proof.Machine
open Sys2Proof

variable {s : State} {d e f : Dev}

/-- The two devices agree on all that logging an error leaves alone (R564). -/
def Logs (d d' : Dev) : Prop :=
  d' = { d with regs := d'.regs, ctrs := d'.ctrs, wr := d'.wr, out := d'.out, fns := d'.fns, errs := d'.errs, errSeq := d'.errSeq }

theorem Logs.refl (d : Dev) : Logs d d := rfl

theorem Logs.trans (h : Logs d e) (h' : Logs e f) : Logs d f := by
  unfold Logs at *
  rw [h', h]

theorem Logs.fatal (h : Logs d e) : e.fatal = d.fatal := (congrArg Dev.fatal h :)
theorem Logs.strs (h : Logs d e) : e.strs = d.strs := (congrArg Dev.strs h :)
theorem Logs.clusters (h : Logs d e) : e.clusters = d.clusters := (congrArg Dev.clusters h :)
theorem Logs.timeDead (h : Logs d e) : e.timeDead = d.timeDead := (congrArg Dev.timeDead h :)
theorem Logs.hotWarn (h : Logs d e) : e.hotWarn = d.hotWarn := (congrArg Dev.hotWarn h :)
theorem Logs.tripped (h : Logs d e) : e.tripped = d.tripped := (congrArg Dev.tripped h :)
theorem Logs.power (h : Logs d e) : e.power = d.power := (congrArg Dev.power h :)
theorem Logs.foot (h : Logs d e) : e.foot = d.foot := (congrArg Dev.foot h :)
theorem Logs.ledger (h : Logs d e) : e.ledger = d.ledger := (congrArg Dev.ledger h :)

theorem Posts.logs (h : Posts d e) : Logs d e := by
  unfold Posts at h
  unfold Logs
  rw [h]

theorem logs_driveAlert (was : Bool) (d : Dev) : Logs d (driveAlert was d) := by
  unfold driveAlert
  split
  · exact .refl d
  · exact (posts_emit _ d).logs

theorem logs_logErr (cls island code : Nat) (detail : Bytes) (d : Dev) : Logs d (logErr cls island code detail d) := by
  have hnote (was : Bool) (bs : Bytes) (e : Dev) : Logs e (driveAlert was (postDev 0xF0 bs e)) :=
    (posts_postDev _ _ _).logs.trans (logs_driveAlert _ _)
  have hent (es : List ErrEnt) (n : Nat) : Logs d { d with errs := es, errSeq := n } := rfl
  unfold logErr
  split
  · exact hent _ _
  · split
    · exact (hent _ _).trans (hnote _ _ _)
    · split
      · split
        · exact (hent _ _).trans ((posts_regW _ _ _).logs.trans (hnote _ _ _))
        · exact (posts_regW _ _ _).logs
      · exact .refl d

/-! ### The device fails (R568) -/

/-- The devices differ in their queues alone. -/
def SameButQueues (d d' : Dev) : Prop := ∃ q, d' = { d with queues := q }

/-- What every queue's turn does to queues alone, a turn of all queues does. -/
theorem sameButQueues_eachQueue (p : Nat → Bool) {g : Nat → Nat → Nat → Dev → Dev} (hg : ∀ f qt lq d, SameButQueues d (g f qt lq d)) (d : Dev) :
    SameButQueues d (eachQueue p g d) := by
  have hfold (l : List (Nat × Queue)) (e : Dev) : SameButQueues e (l.foldl (fun d e =>
      if p (e.1 / 262144) then g (e.1 / 262144) (e.1 / 65536 % 4) (e.1 % 65536) d else d) e) := by
    induction l generalizing e with
    | nil => exact ⟨_, rfl⟩
    | cons x l ih =>
      rw [List.foldl_cons]
      split
      · obtain ⟨q, hq⟩ := hg (x.1 / 262144) (x.1 / 65536 % 4) (x.1 % 65536) e
        rw [hq]
        exact ih _
      · exact ih e
  exact hfold _ d

theorem bitW_eq (k i : Nat) (b : Bool) (d : Dev) : ∃ r, bitW k i b d = { d with regs := r } := by
  unfold bitW fldW
  exact ⟨_, rfl⟩

/-- Freezing a host port touches its freeze register and holds queues. -/
theorem fatalFreeze_eq (h : Nat) (d : Dev) : ∃ r q, fatalFreeze h d = { d with regs := r, queues := q } := by
  obtain ⟨r', hr'⟩ := bitW_eq (frzStatKey h) 31 true d
  obtain ⟨r, hr⟩ := bitW_eq (frzStatKey h) 30 false { d with regs := r' }
  unfold fatalFreeze
  split
  · exact ⟨_, _, rfl⟩
  · dsimp only
    rw [hr', hr]
    obtain ⟨q, hq⟩ := sameButQueues_eachQueue (fun f => decide (fnPort f = h))
      (g := fun f qt lq d => if qt = 2 then d else queueU f qt lq (fun q => qReHold { q with holdFrz := true, turn := none, asm := {} }) d)
      (by
        intro f qt lq d
        split
        · exact ⟨_, rfl⟩
        · exact ⟨_, rfl⟩)
      { d with regs := r }
    exact ⟨r, q, hq⟩

/-- A device-fatal error marks the device, takes HEALTHY down, and leaves strings, clusters and time as they were (R568). -/
theorem deviceFatal_facts (code : Nat) (d : Dev) : (deviceFatal code d).fatal = true ∧ (deviceFatal code d).foot.healthy = false ∧
    (deviceFatal code d).strs = d.strs ∧ (deviceFatal code d).clusters = d.clusters ∧
    (deviceFatal code d).timeDead = d.timeDead := by
  unfold deviceFatal
  dsimp only
  obtain ⟨r, q, hq⟩ := fatalFreeze_eq 0 d
  obtain ⟨r', q', hq'⟩ := fatalFreeze_eq 1 (fatalFreeze 0 d)
  rw [hq', hq]
  have hlog := (logs_driveAlert (alertOn d) { d with regs := r', queues := q', fatal := true }).trans (logs_logErr 3 0 code [] _)
  obtain ⟨o, ho⟩ := setHealthy_false_eq (logErr 3 0 code [] (driveAlert (alertOn d) { d with regs := r', queues := q', fatal := true }))
  rw [ho]
  exact ⟨hlog.fatal, rfl, hlog.strs, hlog.clusters, hlog.timeDead⟩

/-- Pins driven one after the other, each by what is in effect, are all a loop of pins puts out. -/
theorem loopN_pinsOf_eq (n : Nat) (g : Nat → Dev → Out) (d : Dev) : ∃ o, loopN n (fun i d => emit (g i d) d) d = { d with out := o } :=
  ⟨_, loopN_keeps (R := fun d d' => d' = { d with out := d'.out }) (fun _ => rfl) (fun {_ _ _} h h' => by rw [h', h]) (fun _ _ => rfl) n d⟩

/-! ### Temperatures (R569) -/

theorem thermal_still {n which : Nat} {t thr : Int} (d : Dev) (h : t ≤ thr) : thermal n t thr which false d = (false, d) := by
  simp [thermal, h]

theorem thermal_rises {n which : Nat} {t thr : Int} (d : Dev) (h : thr < t) : (thermal n t thr which false d).1 = true := by
  simp [thermal, h]

theorem inList_false_of_notMem {n : Nat} {l : List Nat} (h : n ∉ l) : inList false n l = l := by
  simp only [inList, Bool.false_eq_true, if_false, List.filter_eq_self]
  intro a ha
  simpa using fun h' : a = n => h (h' ▸ ha)

theorem mem_inList_true (n : Nat) (l : List Nat) : n ∈ inList true n l := by
  simp only [inList, if_true]
  split
  · next h => simpa using h
  · simp

/-- What one sensor's reading does (R569). -/
def readTemp (n : Nat) (t : Int) (d : Dev) : Dev :=
  let d := fldW (0x900 + 4 * n) 7 0 (ofSigned 8 t) d
  let w := thermal n t (effF d 0x800 31 24) 1 (d.hotWarn.contains n) d
  let c := thermal n t (effF w.2 0x800 23 16) 2 (w.2.hotCrit.contains n) w.2
  { c.2 with hotWarn := inList w.1 n c.2.hotWarn, hotCrit := inList c.1 n c.2.hotCrit }

theorem exec_tempSensorRead_one {n : Nat} (t : Int) (s : State) (hn : n ≤ 48) (hp : n = 0 ∨ islandPresent s.dev.variant n = true) :
    exec (.tempSensorRead [(n, t)]) s = lift (fun _ => showTemp (readTemp n t s.dev)) s := by
  have hskip : ¬(48 < n ∨ (n ≠ 0 ∧ islandPresent s.dev.variant n = false)) := by
    rintro (h | ⟨h, h'⟩)
    · omega
    · simp [h, h'] at hp
  rw [exec_tempSensorRead]
  unfold execTempSensorRead lift
  exact congrArg (fun d => Host.Outcome.next (landed s (showTemp d))) ((if_neg hskip).trans rfl)

/-- A reading at or under both thresholds, of a sensor not above one, is shown alone. -/
theorem readTemp_still {n : Nat} {t : Int} {d : Dev} (hw : n ∉ d.hotWarn) (hc : n ∉ d.hotCrit) (ht : t ≤ (effF d 0x800 31 24 : Int))
    (ht' : t ≤ (effF d 0x800 23 16 : Int)) : readTemp n t d = fldW (0x900 + 4 * n) 7 0 (ofSigned 8 t) d := by
  have hw' : d.hotWarn.contains n = false := by simpa using hw
  have hc' : d.hotCrit.contains n = false := by simpa using hc
  unfold readTemp
  simp only [fldW_hotWarn, fldW_hotCrit, effF_fldW, hw', hc', thermal_still _ ht, thermal_still _ ht', inList_false_of_notMem hw,
    inList_false_of_notMem hc]
  rfl

/-- A reading above the warning threshold notes its sensor. -/
theorem mem_hotWarn_readTemp {n : Nat} {t : Int} {d : Dev} (hw : n ∉ d.hotWarn) (ht : (effF d 0x800 31 24 : Int) < t) :
    n ∈ (readTemp n t d).hotWarn := by
  have hw' : d.hotWarn.contains n = false := by simpa using hw
  unfold readTemp
  simp only [fldW_hotWarn, effF_fldW, hw', thermal_rises _ ht]
  exact mem_inList_true n _

/-! ### THERMTRIP (R570) -/

/-- Main power lost takes the write buffer's contents with it (R586). -/
theorem powerLost_eq (d : Dev) : ∃ e, powerLost d = e ∧ e.power = false ∧ e.tripped = d.tripped ∧ e.foot.pg = d.foot.pg ∧ e.ledger.wbuf = [] := by
  refine ⟨_, rfl, ?_⟩
  unfold powerLost
  dsimp only
  obtain ⟨ep, hep⟩ := loseContents_eq _
  rw [hep]
  exact ⟨rfl, rfl, rfl, rfl⟩

/-- Settles O55: the errors lift what they log, and what a fatal error keeps is read off its parts. -/
theorem errorsFailTheirUnitOrTheDevice : Obligations.ErrorsFailTheirUnitOrTheDevice := by
  unfold Obligations.ErrorsFailTheirUnitOrTheDevice
  intro s c n addr v t d broken failed
  have hfails (code addr : Nat) (hn : n ≠ 0) (hp : islandPresent d.variant n = true) : unitFails n code addr d = failed code addr := by
    unfold unitFails
    rw [if_neg (by simp [hn, hp])]
  subst failed broken d
  refine ⟨fun h => ?_, fun h => ?_, fun hn hp => ⟨?_, ?_, ?_⟩, fun hn => ?_, ⟨?_, ?_, ?_, ?_⟩, fun code => ?_, ?_, ?_, fun h => ?_,
    fun hn hp hw hc ht ht' => ?_, fun hn hp hw ht => ?_, fun h => ?_⟩
  · exact lands_of_lift (exec_sramCe n addr s) (if_pos h)
  · exact lands_of_lift (exec_sramCe n addr s) (by simp [h])
  · exact lands_of_lift (exec_sramUe n addr s) (hfails _ _ hn hp)
  · exact lands_of_lift (exec_xingFault n s) (hfails _ _ hn hp)
  · exact lands_of_lift (exec_wardenTimeout n s) (hfails _ _ hn hp)
  · simp [islandOn, dom, hn]
  · exact lands_of_lift (exec_aonPower s) rfl
  · exact lands_of_lift (exec_ringFault s) rfl
  · exact lands_of_lift (exec_bridgeWdt s) rfl
  · exact lands_of_lift (exec_keyvault s) rfl
  · obtain ⟨hf, hh, hs, hc, -⟩ := deviceFatal_facts code s.dev
    exact ⟨hf, hh, hs, hc⟩
  · obtain ⟨hf, hh, -, -, hd⟩ := deviceFatal_facts 0xFB00 { s.dev with timeDead := true }
    refine runs_of_lift (exec_timeIsland s) ?_
    dsimp only
    obtain ⟨o, ho⟩ := loopN_pinsOf_eq 4 (fun i d => .pin (pinPpsOut i) (effB d (0x108030 + 4 * i) 4 && effB d (0x108030 + 4 * i) 0)) _
    rw [ho]
    simp only [landed_timeDead, landed_fatal, landed_foot, landed_time]
    exact ⟨by simpa using hd, by simpa using hf, by simpa using hh, rfl⟩
  · exact serves_of_checked (exec_errlogRead c s) rfl rfl
  · exact lands_of_lift (exec_brgErrAck v s) (by simp [h])
  · have hread := readTemp_still hw hc ht ht'
    exact lands_of_lift (exec_tempSensorRead_one t s hn hp) (by rw [hread])
  · have hread := mem_hotWarn_readTemp hw ht
    exact runs_of_lift (exec_tempSensorRead_one t s hn hp) (by simpa [showTemp] using hread)
  · refine runs_of_lift (exec_thermtrip s) ?_
    dsimp only
    rw [if_neg (by simp [h])]
    obtain ⟨e, he, hpower, htripped, hpg, hwbuf⟩ :=
      powerLost_eq (footU (fun x => { x with pg := false }) (emit (.pin pinThermtripN false) { s.dev with tripped := true }))
    rw [he]
    have hlog := logs_logErr 2 0xFE 0xF600 [] e
    exact ⟨hlog.tripped.trans htripped, hlog.power.trans hpower, (congrArg Foot.pg hlog.foot).trans hpg,
      (congrArg Ledger.wbuf hlog.ledger).trans hwbuf⟩

end Sys2Proof.Machine

/-! SUPPORT. The Givik commands (R483, R490, R491, R493, R495, R496). -/

namespace Sys2Proof.Machine
open Sys2Proof

theorem released_releaseCluster {cl : Nat} {d : Dev} (h : cl ∉ d.released) : (releaseCluster cl d).released = d.released ++ [cl] := by
  unfold releaseCluster showReleased
  simp [h]

/-- Settles O48: every command lifts its checks and its effect. -/
theorem givikCommandsAreServed : Obligations.GivikCommandsAreServed := by
  unfold Obligations.GivikCommandsAreServed
  intro s c d cl k stRel
  subst stRel k cl d
  refine ⟨?_, ?_, fun hj hk hr => ?_, fun hst hj hk hr => ?_, fun hst hj hk hr => ?_, ?_, ?_⟩
  · exact serves_of_lift (exec_givikCoreRestart c s) rfl
  · exact serves_of_lift (exec_givikSignal c s) rfl
  · exact serves_of_checked (exec_givikClusterRelease c s) rfl (by simp [hj, hk, (List.contains_iff_mem.mp hr)])
  · refine runs_of_lift (exec_givikClusterRelease c s) ?_
    have hout : c.f 16 1 ∉ s.dev.released := by simpa using hr
    rw [checked_ok _ hst, if_neg (by simp [hj]), if_pos hk, if_neg (by simpa using hout)]
    refine ⟨released_releaseCluster hout, ?_⟩
    unfold clu noteHeld
    simp
  · exact lands_of_lift (exec_givikClusterRelease c s) ((checked_ok _ hst).trans (by simp [hj, hk, List.contains_iff_mem.mp hr]))
  · exact serves_of_checked (exec_givikStats c s) rfl rfl
  · exact serves_of_lift (exec_givikFaultRead c s) rfl

end Sys2Proof.Machine

/-! SUPPORT. What completing a command may touch: what posting an event touches, and queues (R307). -/

namespace Sys2Proof.Machine
open Sys2Proof

variable {d e f : Dev}

/-- The two devices agree on all that completing a command leaves alone. -/
def Reports (d d' : Dev) : Prop :=
  d' = { d with regs := d'.regs, ctrs := d'.ctrs, wr := d'.wr, out := d'.out, fns := d'.fns, queues := d'.queues }

theorem Reports.refl (d : Dev) : Reports d d := rfl

theorem Reports.trans (h : Reports d e) (h' : Reports e f) : Reports d f := by
  unfold Reports at *
  rw [h', h]

theorem Posts.reports (h : Posts d e) : Reports d e := by
  unfold Posts at h
  unfold Reports
  rw [h]

theorem Reports.foot (h : Reports d e) : e.foot = d.foot := (congrArg Dev.foot h :)
theorem Reports.mem (h : Reports d e) : e.mem = d.mem := (congrArg Dev.mem h :)

theorem reports_queueU (f qt lq : Nat) (g : Queue → Queue) (d : Dev) : Reports d (queueU f qt lq g d) := rfl

theorem posts_dma (f a : Nat) (bs : Bytes) (d : Dev) : Posts d (dma f a bs d) := by
  unfold dma
  dsimp only
  split
  · exact posts_dmaRaw f a bs d
  · exact (posts_dmaRaw f a bs d).trans (posts_postEvent _ _ _ _ _)
  · exact posts_dmaRaw f a bs d

theorem reports_dma (f a : Nat) (bs : Bytes) (d : Dev) : Reports d (dma f a bs d) := (posts_dma f a bs d).reports

theorem posts_aqWrite (f : Nat) (e : Bytes) (d : Dev) : Posts d (aqWrite f e d) := by
  have htell (g : Fn → Fn) (o : Out) (d : Dev) : Posts d (emit o (fnU f g d)) := (posts_fnU f g d).trans (posts_emit o _)
  have hput (p : Bool) (f a : Nat) (bs : Bytes) (d : Dev) : Posts d (if p then dma f a bs d else d) := by
    split
    · exact posts_dma f a bs d
    · exact .refl d
  have hsig (p : Bool) (f v : Nat) (d : Dev) : Posts d (if p then signalVec f v d else d) := by
    split
    · exact posts_signalVec f v d
    · exact .refl d
  exact (hput _ _ _ _ _).trans ((htell _ _ _).trans (hsig _ _ _ _))

/-- A command of the admin queue completes with no queue changed. -/
theorem posts_complete_of_admin {c : Cmd} (h : c.tcq = none) (status dw : Nat) (d : Dev) : Posts d (complete c status dw d) := by
  unfold complete
  rw [h]
  exact posts_ite (posts_aqWrite _ _ _) (posts_fnU _ _ _)

theorem reports_complete (c : Cmd) (status dw : Nat) (d : Dev) : Reports d (complete c status dw d) := by
  unfold complete
  split
  · split
    · exact (posts_aqWrite _ _ _).reports
    · exact (posts_fnU _ _ _).reports
  · exact (reports_dma _ _ _ _).trans <| (reports_queueU _ _ _ _ _).trans <| ((posts_emit _ _).trans (posts_signalVec _ _ _)).reports

theorem reports_completeSt (c : Cmd) (status : Nat) (d : Dev) : Reports d (completeSt c status d) := reports_complete c status 0 d

theorem Posts.queue (h : Posts d e) (f qt lq : Nat) : queue e f qt lq = queue d f qt lq := by
  unfold Machine.queue
  rw [(congrArg Dev.queues h :)]

theorem reports_completeHeld (h : Held) (status dw : Nat) (d : Dev) : Reports d (completeHeld h status dw d) := by
  unfold completeHeld
  split
  · have hdone := (posts_fnU h.cmd.fn (fun x => { x with aqOut := x.aqOut - 1 }) d).reports.trans (reports_complete h.cmd status dw _)
    dsimp only
    split
    · exact hdone.trans ((posts_fnU _ _ _).trans (posts_bitW _ _ _ _)).reports
    · exact hdone
  · exact (posts_ctrInc _ d).reports

end Sys2Proof.Machine

/-! SUPPORT. NVMe commands that start, and the activation of firmware and gate images (R435, R436, R493, R541, R543, R549). -/

namespace Sys2Proof.Machine
open Sys2Proof

variable {i : Instr} {s : State} {d : Dev} {pf n op dw st : Nat} {io : Bool} {q : NCmd} {f : NCmd → Dev → Option Dev}
  {g : NCmd → Dev → Nat × Nat × Dev} {eff : Dev → Dev}

/-! ### NVMe commands that start (R416) -/

/-- A command that starts runs on the device it has been taken from. -/
theorem withCmd_of_starts {e : Dev} (h : Starts d pf n op io q) (hf : f q (taken d pf n) = some e) : withCmd pf n op io f d = sweepBad pf e := by
  obtain ⟨hfetched, hready, hup, hdma, hop, hio, hmay, hfuse⟩ := h
  unfold taken at hf
  unfold withCmd
  simp only [hfetched, hready, hup, hdma, hop, ← hio, hmay, hfuse, hf]
  simp

theorem ends_of_withCmd (hx : exec i s = lift (withCmd pf n op io f) s)
    (hf : f q (taken s.dev pf n) = some (nvmeEnd pf q dw st (eff (taken s.dev pf n)))) : Ends i s pf n op io q dw st eff :=
  fun hs => lands_of_lift hx (withCmd_of_starts hs hf)

theorem ends_of_simple (hx : exec i s = lift (withCmd pf n op io (simple pf g)) s)
    (hg : g q (taken s.dev pf n) = (dw, st, eff (taken s.dev pf n))) : Ends i s pf n op io q dw st eff :=
  ends_of_withCmd hx (by rw [simple, hg])

theorem takes_ok {len : Nat} {segs : List (Nat × Nat)} {k : Bytes → Dev → Nat × Nat × Dev} (h : dataSegs d pf q len = .ok segs) :
    takes pf q len k d = k (gather d pf segs) d := by
  unfold takes
  rw [h]

theorem returns_ok {bs : Bytes} {segs : List (Nat × Nat)} (h : dataSegs d pf q bs.length = .ok segs) :
    returns pf q bs d = (0, 0, scatter pf segs bs d) := by
  unfold returns
  rw [h]

/-! ### Activation -/

theorem footU_eq_self {g : Foot → Foot} (h : g d.foot = d.foot) : footU g d = d := by
  unfold footU
  rw [h]

/-- An activation that a driver asked for, and that no other waits behind, ends with its command (R543). -/
theorem actDone_of_held {j : ActJob} (st : Nat) (hn : j.nvme = none) (hm : j.mgmt = false) (ha : d.foot.act = none) :
    actDone j st d = completeHeld j.held st 0 d := by
  have hfoot : footU (fun x => { x with act := none }) d = d := footU_eq_self (by rw [← ha])
  unfold actDone
  dsimp only
  rw [hfoot, hn, hm]
  rfl

/-- The records of a slot are no job of activation. -/
theorem act_actRecords (k : Nat) (untested : Bool) (d : Dev) : (actRecords k untested d).foot.act = d.foot.act := by
  unfold actRecords slotU
  dsimp only
  split <;> rfl

theorem activate_refused {h : Held} (fail : Option Nat) (hslot : h.cmd.f 17 1 = 0)
    (hst : actStatus d (h.cmd.f 18 1) (bitOf (h.cmd.f 19 1) 0) ≠ 0) (ha : d.foot.act = none) :
    activate h fail d = completeHeld h (actStatus d (h.cmd.f 18 1) (bitOf (h.cmd.f 19 1) 0)) 0 d := by
  unfold activate
  simp only [hslot, decide_eq_true_eq, Nat.zero_ne_one, if_false]
  rw [if_pos hst, actDone_of_held _ rfl rfl ha]

/-- With AT_RESET a slot that may run only has its record written (R543). -/
theorem activate_atReset {h : Held} (fail : Option Nat) (hslot : h.cmd.f 17 1 = 0)
    (hst : actStatus d (h.cmd.f 18 1) (bitOf (h.cmd.f 19 1) 0) = 0) (hb : bitOf (h.cmd.f 19 1) 1 = true) (ha : d.foot.act = none) :
    activate h fail d = completeHeld h 0 0 (actRecords (h.cmd.f 18 1) (testedEntry (slot d (h.cmd.f 18 1)).comps).isNone d) := by
  unfold activate
  simp only [hslot, decide_eq_true_eq, Nat.zero_ne_one, if_false]
  rw [if_neg (not_not.mpr hst), actSlot, if_pos hb, actDone_of_held _ rfl rfl (by rw [act_actRecords, ha])]

/-- With none before it, an activation asked for runs at once. -/
theorem runActs_asked {x : Held × Option Nat} (ha : d.foot.act = none) (hq : d.foot.actQ = []) :
    runActs (footU (fun y => { y with actQ := y.actQ ++ [x] }) d).foot.actQ.length (footU (fun y => { y with actQ := y.actQ ++ [x] }) d) =
      activate x.1 x.2 d := by
  have hback : footU (fun y => { y with actQ := [] }) (footU (fun y => { y with actQ := y.actQ ++ [x] }) d) = d :=
    footU_eq_self (g := fun y => { y with actQ := [] }) (by rw [← hq])
  have hqueue : (footU (fun y => { y with actQ := y.actQ ++ [x] }) d).foot.actQ = [x] := by simp [hq]
  have hact : (footU (fun y => { y with actQ := y.actQ ++ [x] }) d).foot.act = none := ha
  rw [hqueue, List.length_singleton, runActs, hact, hqueue]
  dsimp only
  rw [hback, runActs]

/-- What waits on a cluster that is empty touches nothing of footing. -/
theorem foot_runReleases (cl k : Nat) (hs : List Held) (d : Dev) : (runReleases cl k hs d).foot = d.foot := by
  have hrelease (d : Dev) : (releaseCluster cl d).foot = d.foot := by
    unfold releaseCluster showReleased
    split
    · rfl
    · rw [bitW_foot]
  have hreturn (d : Dev) : (returnCluster cl d).foot = d.foot := by
    unfold returnCluster showReleased
    rw [bitW_foot]
  induction k generalizing hs d with
  | zero => rfl
  | succ k ih =>
    cases hs with
    | nil => rfl
    | cons h rest =>
      unfold runReleases
      dsimp only
      split
      · split
        · rw [ih, (reports_completeHeld _ _ _ _).foot, cluU_foot]
        · rw [cluU_foot, hrelease, cluU_foot]
      · split
        · rw [ih, (posts_postDev _ _ _).reports.foot, (reports_completeHeld _ _ _ _).foot, hreturn, cluU_foot]
        · rw [ih, (reports_completeHeld _ _ _ _).foot, cluU_foot]

theorem foot_clusterEmpty (k : Nat) (d : Dev) : (clusterEmpty k d).foot = d.foot := by
  unfold clusterEmpty
  split
  · rfl
  · split
    · rfl
    · rw [foot_runReleases, (posts_postDev _ _ _).reports.foot, (reports_completeHeld _ _ _ _).foot]

/-- Settles O53: the commands lift their checks and effects, and an activation with none before it runs at once. -/
theorem activationFollowsItsCommands : Obligations.ActivationFollowsItsCommands := by
  unfold Obligations.ActivationFollowsItsCommands
  intro s c n q segs d gate i st e fs
  subst fs e st gate i d
  refine ⟨fun h fail => ?_, fun h hk hb ha hq hst fail => ?_, fun h hk ha hq hst fail => ?_, fun k ha => ?_, fun j hj hp hfoot hitem hq => ?_,
    fun hal hlen hend hch hsegs => ?_, ?_, fun hca hfs copyBad fail => ?_, fun copyBad fail => ?_, ?_⟩
  · exact lands_of_lift (exec_fwActivate c fail s) (checked_fails _ h)
  · exact lands_of_lift (exec_fwActivate c fail s) ((checked_ok _ h).trans
      ((runActs_asked (d := noteHeld c s.dev) ha hq).trans (activate_atReset fail hk hst hb ha)))
  · exact lands_of_lift (exec_fwActivate c fail s) ((checked_ok _ h).trans
      ((runActs_asked (d := noteHeld c s.dev) ha hq).trans (activate_refused fail hk hst ha)))
  · have hact : (clusterEmpty k s.dev).foot.act = none := by rw [foot_clusterEmpty, ha]
    exact lands_of_lift (exec_givikReleased k s) (by simp [hact])
  · have hact : (clusterEmpty j.cl s.dev).foot.act = some j := by rw [foot_clusterEmpty, hj]
    exact lands_of_lift (exec_givikReleased j.cl s) (by simp [hact, hp, hitem, hq, runActs])
  · refine ends_of_simple (exec_firmwareImageDownload 1 n s) ?_
    rw [if_neg (by omega), takes_ok hsegs]
  · exact ends_of_simple (exec_firmwareImageDownload 3 n s) (if_pos (by simp))
  · refine ends_of_withCmd (exec_firmwareCommit 1 n copyBad fail s) ?_
    dsimp only
    rw [if_neg (by omega), if_pos hfs]
  · intro bind hca hfs hrun htrial hlc hact hch
    refine ends_of_withCmd (exec_firmwareCommit 1 n copyBad fail s) ?_
    subst bind
    dsimp only
    rw [if_neg (by omega), if_neg (by omega), if_neg (by simp [htrial, hlc, hact, hch])]
    by_cases hbind : (bindFirmware (rd (taken s.dev 1 n) (spc (taken s.dev 1 n) dramSpace) (dlBase (taken s.dev 1 n))
        (min (le (rd (taken s.dev 1 n) (spc (taken s.dev 1 n) dramSpace) (dlBase (taken s.dev 1 n)) 12) 8 4) (24 * 2 ^ 20 - 65536)))
        copyBad (taken s.dev 1 n)).1 = 0
    · rw [if_neg (not_not.mpr hbind), if_pos hca, if_pos hbind]
    · rw [if_pos hbind, if_neg hbind]
  · intro page part hid hal hoff hsegs
    refine ends_of_simple (exec_getLogPage 1 n s) ?_
    subst part page
    dsimp only
    rw [hid]
    exact (if_neg (by omega)).trans (returns_ok hsegs)

end Sys2Proof.Machine

/-! SUPPORT. What drive writes and NVMe completions leave of the drives' pairs (R424, R426, R440). -/

namespace Sys2Proof.Machine
open Sys2Proof

variable {d e f : Dev}

/-- What every step of a fold keeps, the fold keeps. -/
theorem foldl_keeps {α : Type} {R : Dev → Dev → Prop} (hrefl : ∀ d, R d d) (htrans : ∀ {d e f}, R d e → R e f → R d f) {g : Dev → α → Dev}
    (hstep : ∀ d a, R d (g d a)) (l : List α) (d : Dev) : R d (l.foldl g d) := by
  induction l generalizing d with
  | nil => exact hrefl d
  | cons a l ih => exact htrans (hstep d a) (ih _)

/-- The devices have the same drives in the same states, holding the same maps of the same volume, with the same writes buffered. -/
structure SamePairs (d d' : Dev) : Prop where
  variant : d'.variant = d.variant
  st : ∀ n, (drv d' n).st = (drv d n).st
  maps : d'.ledger.maps = d.ledger.maps
  wbuf : d'.ledger.wbuf = d.ledger.wbuf
  volume : d'.ledger.volume = d.ledger.volume

theorem SamePairs.refl (d : Dev) : SamePairs d d := ⟨rfl, fun _ => rfl, rfl, rfl, rfl⟩

theorem SamePairs.trans (h : SamePairs d e) (h' : SamePairs e f) : SamePairs d f :=
  ⟨h'.variant.trans h.variant, fun n => (h'.st n).trans (h.st n), h'.maps.trans h.maps, h'.wbuf.trans h.wbuf, h'.volume.trans h.volume⟩

theorem Reports.samePairs (h : Reports d e) : SamePairs d e := by
  unfold Reports at h
  rw [h]
  exact ⟨rfl, fun _ => rfl, rfl, rfl, rfl⟩

theorem Posts.samePairs (h : Posts d e) : SamePairs d e := h.reports.samePairs

theorem SamePairs.drvMember (h : SamePairs d e) (n : Nat) : drvMember e n = drvMember d n := by
  unfold Machine.drvMember
  rw [h.st]

theorem SamePairs.pairMap (h : SamePairs d e) (p : Nat) : pairMap e p = pairMap d p := by
  unfold Machine.pairMap
  rw [h.maps]

theorem SamePairs.nsSlabs (h : SamePairs d e) (ns : Nat) : nsSlabs e ns = nsSlabs d ns := by
  unfold Machine.nsSlabs slabsOf
  simp only [h.variant, h.pairMap]

/-! ### What keeps the pairs -/

theorem samePairs_ite {p : Prop} [Decidable p] {a b : Dev} (ha : SamePairs d a) (hb : SamePairs d b) : SamePairs d (if p then a else b) := by
  split <;> assumption

theorem samePairs_foldl {α : Type} {g : Dev → α → Dev} (hstep : ∀ d a, SamePairs d (g d a)) (l : List α) (d : Dev) : SamePairs d (l.foldl g d) :=
  foldl_keeps SamePairs.refl (fun h h' => h.trans h') hstep l d

theorem samePairs_ctrlU (pf : Nat) (g : Ctrl → Ctrl) (d : Dev) : SamePairs d (ctrlU pf g d) := ⟨rfl, fun _ => rfl, rfl, rfl, rfl⟩

theorem samePairs_ncqW (pf y : Nat) (v : Option NCq) (d : Dev) : SamePairs d (ncqW pf y v d) := samePairs_ctrlU pf _ d

theorem samePairs_nvmeSignal (pf v : Nat) (d : Dev) : SamePairs d (nvmeSignal pf v d) :=
  samePairs_ite (.refl d) (posts_signalVec _ _ d).samePairs

theorem samePairs_cqPut (pf y : Nat) (e : Bytes) (d : Dev) : SamePairs d (cqPut pf y e d) := by
  unfold cqPut
  split
  · exact .refl d
  · refine samePairs_ite ?_ (samePairs_ncqW _ _ _ d)
    have hput (v : Option NCq) (o : Out) (a : Nat) (bs : Bytes) : SamePairs d (ncqW pf y v (emit o (dma pf a bs d))) :=
      (reports_dma pf a bs d).samePairs.trans <| (posts_emit o _).samePairs.trans <| samePairs_ncqW _ _ _ _
    exact samePairs_ite ((hput _ _ _ _).trans (samePairs_nvmeSignal _ _ _)) (hput _ _ _ _)

theorem samePairs_nvmeEnd (pf : Nat) (q : NCmd) (dw st : Nat) (d : Dev) : SamePairs d (nvmeEnd pf q dw st d) := by
  have hend (p p' : Prop) [Decidable p] [Decidable p'] (g g' : Ctrl → Ctrl) (t : Nat) {e : Dev} (h : SamePairs d e) :
      SamePairs d (if p then (if p' then ctrlU pf g e else ctrlU pf g' (ctrlU pf g e))
        else ledU (fun l => { l with ioSince := t }) (if p' then ctrlU pf g e else ctrlU pf g' (ctrlU pf g e))) := by
    have hlog : SamePairs d (if p' then ctrlU pf g e else ctrlU pf g' (ctrlU pf g e)) :=
      h.trans (samePairs_ite (samePairs_ctrlU _ _ _) ((samePairs_ctrlU _ _ _).trans (samePairs_ctrlU _ _ _)))
    exact samePairs_ite hlog (hlog.trans ⟨rfl, fun _ => rfl, rfl, rfl, rfl⟩)
  unfold nvmeEnd
  cases nsq d pf q.sq with
  | none => exact hend _ _ _ _ _ (.refl d)
  | some sq => exact hend _ _ _ _ _ (samePairs_cqPut _ _ _ d)

theorem samePairs_sweepBad (pf : Nat) (d : Dev) : SamePairs d (sweepBad pf d) := by
  refine loopN_keeps SamePairs.refl (fun h h' => h.trans h') (fun _ d => ?_) _ d
  split
  · exact (samePairs_ctrlU _ _ _).trans (samePairs_nvmeEnd _ _ _ _ _)
  · exact .refl d

theorem samePairs_asyncEvent (pf dw : Nat) (d : Dev) : SamePairs d (asyncEvent pf dw d) := by
  unfold asyncEvent
  split
  · exact (samePairs_ctrlU _ _ _).trans (samePairs_nvmeEnd _ _ _ _ _)
  · exact samePairs_ctrlU _ _ _

theorem samePairs_nsChanged (mask : Nat) (d : Dev) : SamePairs d (nsChanged mask d) :=
  samePairs_foldl (fun _ _ => samePairs_ite (samePairs_asyncEvent _ _ _) (.refl _)) _ d

/-- A drive's record changed in what is not its state. -/
theorem samePairs_drvU {n : Nat} {g : Drv → Drv} (hg : ∀ x, (g x).st = x.st) (d : Dev) : SamePairs d (drvU n g d) := by
  refine ⟨rfl, fun k => ?_, rfl, rfl, rfl⟩
  unfold drv drvU ledU
  by_cases hk : k = n
  · subst hk
    simp [hg]
  · simp [Tbl.get_upd_ne _ _ _ _ _ hk]

theorem samePairs_drvWrite (n lba : Nat) (bs : Bytes) (d : Dev) : SamePairs d (drvWrite n lba bs d) :=
  (samePairs_drvU (g := fun x => { x with zero := cutRanges lba x.zero, unread := x.unread.filter (· ≠ lba) }) (fun _ => rfl) d).trans
    (posts_wrt _ _ _ _).samePairs

theorem samePairs_drvZero (n lba count : Nat) (d : Dev) : SamePairs d (drvZero n lba count d) :=
  samePairs_drvU (g := fun x => { x with zero := (lba, count) :: x.zero, unread := x.unread.filter fun l => decide (l < lba ∨ lba + count ≤ l) })
    (fun _ => rfl) d

theorem samePairs_writeLabel (n : Nat) (d : Dev) : SamePairs d (writeLabel n d) :=
  (samePairs_drvWrite _ _ _ d).trans (samePairs_drvWrite _ _ _ _)

theorem samePairs_writeMap (n : Nat) (d : Dev) : SamePairs d (writeMap n d) :=
  (samePairs_drvZero _ _ _ d).trans (samePairs_foldl (fun _ _ => samePairs_drvWrite _ _ _ _) _ _)

theorem samePairs_jWrite (a : Nat) (bs : Bytes) (d : Dev) : SamePairs d (jWrite a bs d) := by
  unfold jWrite pairWrite
  split
  · exact .refl d
  · exact samePairs_foldl (fun _ _ => (samePairs_drvWrite _ _ _ _).trans (posts_ctrInc _ _).samePairs) _ d

theorem samePairs_settle (d : Dev) : SamePairs d (settle d) := by
  refine samePairs_foldl (fun d pf => ?_) _ d
  have hturn (l : List NOut) (g : Ctrl → Ctrl) : SamePairs d (sweepBad pf (l.foldl (fun d o => nvmeEnd pf o.cmd 0 0 d) (ctrlU pf g d))) :=
    (samePairs_ctrlU pf g d).trans <| (samePairs_foldl (fun _ _ => samePairs_nvmeEnd _ _ _ _ _) l _).trans <| samePairs_sweepBad pf _
  exact samePairs_ite ((hturn _ _).trans (posts_regW _ _ _).samePairs) (hturn _ _)

end Sys2Proof.Machine

/-! SUPPORT. The drive commands of the ledger (R441). -/

namespace Sys2Proof.Machine
open Sys2Proof

variable {d e : Dev}

/-- Checks with statuses to report all pass, or the first that fails is reported (R308). -/
theorem firstStatus_eq_zero_iff {l : List (Bool × Nat)} (hl : ∀ x ∈ l, x.1 = true → x.2 ≠ 0) : firstStatus l = 0 ↔ ∀ x ∈ l, x.1 = false := by
  induction l with
  | nil => simp [firstStatus]
  | cons x l ih =>
    obtain ⟨b, st⟩ := x
    rw [List.forall_mem_cons] at hl ⊢
    cases b with
    | false => simpa [firstStatus] using ih hl.2
    | true => simpa [firstStatus] using hl.1

/-! ### Drives that change state, slabs that are given -/

theorem samePairs_drvState (n new cause : Nat) (d : Dev) : SamePairs
    (drvU n (fun x => { x with st := new, since := now d, released := x.released && !([0, 9].contains new),
                               up := x.up && !([0, 1, 9].contains new) }) d) (drvState n new cause d) := by
  have htell (p p' p'' : Prop) [Decidable p] [Decidable p'] [Decidable p''] (o : Out) (a b b' : Bytes) (d : Dev) :
      SamePairs d (if p' then postDev 0x65 b (postDev 0xC8 a (if p then emit o d else d))
        else if p'' then postDev 0x65 b' (postDev 0xC8 a (if p then emit o d else d)) else postDev 0xC8 a (if p then emit o d else d)) := by
    have hchange : SamePairs d (postDev 0xC8 a (if p then emit o d else d)) :=
      (samePairs_ite (posts_emit o d).samePairs (.refl d)).trans (posts_postDev _ _ _).samePairs
    exact samePairs_ite (hchange.trans (posts_postDev _ _ _).samePairs)
      (samePairs_ite (hchange.trans (posts_postDev _ _ _).samePairs) hchange)
  exact htell _ _ _ _ _ _ _ _

theorem st_drvState_self (n new cause : Nat) (d : Dev) : (drv (drvState n new cause d) n).st = new := by
  rw [(samePairs_drvState n new cause d).st]
  simp [drv, drvU, ledU]

theorem st_drvState_ne {n k : Nat} (new cause : Nat) (d : Dev) (h : k ≠ n) : (drv (drvState n new cause d) k).st = (drv d k).st := by
  rw [(samePairs_drvState n new cause d).st]
  simp [drv, drvU, ledU, Tbl.get_upd_ne _ _ _ _ _ h]

theorem length_rotateLeft {α : Type} (l : List α) (k : Nat) : (l.rotateLeft k).length = l.length := by
  unfold List.rotateLeft
  dsimp only
  split
  · rfl
  · have hk : k % l.length < l.length := Nat.mod_lt _ (by omega)
    rw [List.length_append, List.length_drop, List.length_take]
    omega

theorem length_pickSlabs {m : PairMap} {n : Nat} (v : Nat) (hused : m.used = []) (hn : n ≤ m.slabs) : (pickSlabs m v n).length = n := by
  simp [pickSlabs, hused, hn, length_rotateLeft]

/-- The slabs a namespace is given of an empty pair are all of its own (R422). -/
theorem allocSlabs_pairs {ns n p : Nat} (hused : (pairMap d p).used = []) (hn : n ≤ (pairMap d p).slabs) :
    ∃ used, SamePairs (pairMapW p { pairMap d p with used := used } d) (allocSlabs ns n p d) ∧
      (used.filter fun u => decide (u.2.1 = ns)).length = n := by
  have hwrite (got : List Nat) (l : List Nat) (d : Dev) : SamePairs d (l.foldl (fun d t =>
      writeMap t (got.foldl (fun d s => drvZero t (256 + slabLbas * s) slabLbas d) d)) d) :=
    samePairs_foldl (fun _ _ => (samePairs_foldl (fun _ _ => samePairs_drvZero _ _ _ _) _ _).trans (samePairs_writeMap _ _)) _ _
  have hmine (got : List Nat) : ((got.zipIdx.map fun x => (x.1, ns, x.2)).filter fun u => decide (u.2.1 = ns)) =
      got.zipIdx.map fun x => (x.1, ns, x.2) := by
    rw [List.filter_eq_self]
    intro u hu
    obtain ⟨x, -, rfl⟩ := List.mem_map.mp hu
    simp
  have hfresh (m : PairMap) : SamePairs (pairMapW p m d) (pairMapW p m (fresh d).2) := ⟨rfl, fun _ => rfl, rfl, rfl, rfl⟩
  refine ⟨((pickSlabs (pairMap d p) (fresh d).1 n).zipIdx.map fun x => (x.1, ns, x.2)).foldr (insertBy fun a b => decide (a.1 ≤ b.1)) [], ?_, ?_⟩
  · have hempty : pairMap (fresh d).2 p = pairMap d p := rfl
    unfold allocSlabs
    dsimp only
    rw [hempty, hused, List.nil_append]
    exact (hfresh _).trans (hwrite _ _ _)
  · rw [((foldr_insertBy_perm _ _).filter _).length_eq, hmine, List.length_map, List.length_zipIdx, length_pickSlabs _ hused hn]

/-- A drive that changes state keeps the maps, the volume and the write buffer. -/
theorem samePairs_drvState_ledger (n new cause : Nat) (d : Dev) : (drvState n new cause d).variant = d.variant ∧
    (drvState n new cause d).ledger.wbuf = d.ledger.wbuf ∧ (drvState n new cause d).ledger.volume = d.ledger.volume := by
  obtain ⟨hvar, -, -, hwbuf, hvol⟩ := samePairs_drvState n new cause d
  exact ⟨hvar, hwbuf, hvol⟩

/-- The two drives of a pair, both free, become its members. -/
theorem members_joined (h0 : (drv d 0).st = 3) (h1 : (drv d 1).st = 3) :
    ([0, 1].foldl (fun d n => if drvMember d n then d else drvState n 7 4 d) d) = drvState 1 7 4 (drvState 0 7 4 d) := by
  have hout0 : drvMember d 0 = false := by simp [drvMember, h0]
  have hout1 : drvMember (drvState 0 7 4 d) 1 = false := by simp [drvMember, st_drvState_ne, h1]
  simp [hout0, hout1]

/-- Formatting one pair of two free drives makes them its members and gives namespace 1 its slabs (R441). -/
theorem formatted {gib slabs : Nat} (hvar : d.variant = .l) (h0 : (drv d 0).st = 3) (h1 : (drv d 1).st = 3)
    (hwbuf : d.ledger.wbuf = []) (hvol : d.ledger.volume.length = 16) (hgib : gib ≤ slabs)
    (he : SamePairs (allocSlabs 1 gib 0 (pairMapW 0 ⟨slabs, []⟩ ([0, 1].foldl (fun d n => if drvMember d n then d else drvState n 7 4 d) d))) e) :
    drvMember e 0 = true ∧ drvMember e 1 = true ∧ nsSlabs e 1 = gib ∧ e.ledger.wbuf = [] ∧ e.ledger.volume.length = 16 := by
  rw [members_joined h0 h1] at he
  obtain ⟨hvar0, hwbuf0, hvol0⟩ := samePairs_drvState_ledger 0 7 4 d
  obtain ⟨hvar1, hwbuf1, hvol1⟩ := samePairs_drvState_ledger 1 7 4 (drvState 0 7 4 d)
  have hst0 : (drv (drvState 1 7 4 (drvState 0 7 4 d)) 0).st = 7 := by rw [st_drvState_ne _ _ _ (by decide), st_drvState_self]
  have hst1 : (drv (drvState 1 7 4 (drvState 0 7 4 d)) 1).st = 7 := st_drvState_self _ _ _ _
  generalize drvState 1 7 4 (drvState 0 7 4 d) = j at *
  have hmap : pairMap (pairMapW 0 ⟨slabs, []⟩ j) 0 = ⟨slabs, []⟩ := by simp [pairMap, pairMapW, ledU]
  obtain ⟨used, hsame, hcount⟩ := allocSlabs_pairs (d := pairMapW 0 ⟨slabs, []⟩ j) (ns := 1) (n := gib) (p := 0) (by rw [hmap]) (by rwa [hmap])
  have hall := hsame.trans he
  refine ⟨?_, ?_, ?_, ?_, ?_⟩
  · rw [hall.drvMember]
    exact decide_eq_true hst0
  · rw [hall.drvMember]
    exact decide_eq_true hst1
  · have hvarj : j.variant = .l := by rw [hvar1, hvar0, hvar]
    rw [hall.nsSlabs]
    simp [nsSlabs, slabsOf, pairMap, pairMapW, ledU, hvarj, numPairs, hcount, List.range_succ]
  · rw [hall.wbuf]
    exact hwbuf1.trans (hwbuf0.trans hwbuf)
  · rw [hall.volume]
    exact (congrArg List.length (hvol1.trans hvol0)).trans hvol

/-- RELEASE is served for a member alone (R441). -/
theorem drvMember_of_release {c : Cmd} {n : Nat} {b b' : Bool} (h : ledgStatus d c [(16, 1), (17, 1)] b
    [(decide (unitStatus d (dIsland n) ≠ 0), unitStatus d (dIsland n)), (!(drvMember d n && b'), stBadState)] = 0) : drvMember d n = true := by
  unfold ledgStatus at h
  rw [firstStatus_eq_zero_iff (by simp [stNotPermitted, stBadParam, stAbsent, stBadState])] at h
  have hlast := h (!(drvMember d n && b'), stBadState) (by simp)
  simp only [Bool.not_eq_false', Bool.and_eq_true] at hlast
  exact hlast.1

theorem unitStatus_of_islandOn {n : Nat} (h : islandOn d n = true) : unitStatus d n = 0 := by
  unfold unitStatus
  by_cases hn : n = 0
  · simp [hn, islandOn]
  · have hp : islandPresent d.variant n = true := by
      simp [islandOn, hn] at h
      exact h.1.1.1.1.2
    simp [hp, h]

theorem samePairs_landed (s : State) (d : Dev) : SamePairs d (landed s d).dev := ⟨rfl, fun _ => rfl, rfl, rfl, rfl⟩

/-- What FORMAT does once the slabs are given keeps the pairs. -/
theorem samePairs_format_rest (l : List Nat) (c : Cmd) (s : State) (d : Dev) : SamePairs d (landed s (completeSt c 0 (settle
    (jWrite 1 (zeros 4096) (jWrite 0 (zeros 4096) (l.foldl (fun d n => writeMap n (writeLabel n d)) d)))))).dev :=
  (samePairs_foldl (fun _ _ => (samePairs_writeLabel _ _).trans (samePairs_writeMap _ _)) l d).trans <|
    (samePairs_jWrite _ _ _).trans <| (samePairs_jWrite _ _ _).trans <| (samePairs_settle _).trans <|
    (reports_completeSt _ _ _).samePairs.trans (samePairs_landed s _)

/-- Settles O41: the drive commands lift their checks and effects; FORMAT's is followed drive by drive. -/
theorem ledgerCommandsAreServed : Obligations.LedgerCommandsAreServed := by
  unfold Obligations.LedgerCommandsAreServed
  intro s c d n p force mate st np there pairS fmtSt adoptSt
  refine ⟨fun hm => ?_, fun hm hs => ?_, fun hm hs => ?_, fun hst => ?_, ?_, fun hst => ?_, ?_, ?_⟩
  · exact serves_of_checked (exec_driveAdopt c s) rfl (congrArg (completeSt c 0) (if_pos hm))
  · refine serves_of_checked (exec_driveAdopt c s) rfl (congrArg (completeSt c 0) ((if_neg ?_).trans (if_pos hs)))
    exact fun h => Bool.noConfusion (hm.symm.trans h)
  · refine serves_of_checked (exec_driveAdopt c s) rfl (congrArg (completeSt c 0) ((if_neg ?_).trans (if_neg ?_)))
    · exact fun h => Bool.noConfusion (hm.symm.trans h)
    · exact fun h : st = 4 => by omega
  · exact lands_of_lift (exec_driveAdopt c s) (checked_fails _ hst)
  · refine ⟨fun hst => lands_of_lift (exec_driveRelease c s) ((checked_ok _ hst).trans (congrArg (completeSt c 0) (if_pos ?_))),
      fun hst => lands_of_lift (exec_driveRelease c s) (checked_fails _ hst)⟩
    rw [drvMember_of_release hst, Bool.true_or]
  · exact lands_of_lift (exec_ledgerFormat c s) (checked_fails _ hst)
  · intro hfn hself hres hvar hon htcq h0 h1 hmin hmax hwit hio
    subst fmtSt adoptSt pairS there np st mate force p n d
    have hthere : (List.range (2 * numPairs s.dev.variant)).filter (fun n => [3, 4, 7].contains (drv s.dev n).st) = [0, 1] := by
      simp [hvar, numPairs, List.range_succ, h0, h1]
    have hself' : (cmdSelf c).isNone = false := Option.isNone_eq_false_iff.mpr (Option.isSome_iff_ne_none.mpr hself)
    refine runs_of_lift (exec_ledgerFormat c s) ?_
    rw [checked_ok]
    rotate_left
    · have hgib : ¬(130048 < c.f 20 4 ∨ (drv s.dev 0).slabs < c.f 20 4 ∨ (drv s.dev 1).slabs < c.f 20 4) := by omega
      simp [ledgStatus, firstStatus, hfn, hself', hres, hvar, numPairs, unitStatus_of_islandOn hon, List.range_succ, h0, h1, hwit, hio, Nat.mod_one,
        show c.f 20 4 ≠ 0 by omega]
      omega
    dsimp only
    have hone (g : Dev → Nat → Dev) (e : Dev) : (List.range 1).foldl g e = g e 0 := rfl
    have hslabs : ([2 * 0, 2 * 0 + 1].filter fun n => [3, 4, 7].contains (drv s.dev n).st) = [0, 1] := by simp [h0, h1]
    simp only [hthere]
    simp only [hvar, numPairs, hone, hslabs, Nat.div_one]
    obtain ⟨hvar', hst', -, -, -⟩ := samePairs_foldl (fun d i => samePairs_nsChanged (attachMask d i) d)
      ((List.range 34).filter fun i => decide (2 ≤ i) && nsExists s.dev i) s.dev
    refine formatted ?_ ?_ ?_ ?_ ?_ ?_ (samePairs_format_rest _ _ _ _)
    · exact hvar'.trans hvar
    · exact (hst' 0).trans h0
    · exact (hst' 1).trans h1
    · rfl
    · simp [ledU]
    · simpa [Nat.min_comm] using hmax
  · exact serves_of_checked (exec_ledgerStats c s) rfl rfl

end Sys2Proof.Machine

/-! SUPPORT. The commands that configure, log, save and resume a VF (R402, R405–R411). -/

namespace Sys2Proof.Machine
open Sys2Proof

/-- Whether a function resumed may issue DMA does not turn on the record of its AQ. -/
theorem mayDma_resumed (d : Dev) (f : Nat) (b : Bool) :
    mayDma (fnU f (fun x => { x with frozen := false, aqRec := b }) d) f = mayDma (fnU f (fun x => { x with frozen := false }) d) f := by
  have hport : isFrozen (fnU f (fun x => { x with frozen := false, aqRec := b }) d) (fnPort f) =
      isFrozen (fnU f (fun x => { x with frozen := false }) d) (fnPort f) := rfl
  have hisland : islandOn (fnU f (fun x => { x with frozen := false, aqRec := b }) d) (42 + fnPort f) =
      islandOn (fnU f (fun x => { x with frozen := false }) d) (42 + fnPort f) := rfl
  simp [mayDma, hport, hisland]

/-- Settles O34: every command lifts its checks and its effect; whether a resumed VF may issue DMA does not turn on its AQ record. -/
theorem vfsAreConfiguredLoggedAndMoved : Obligations.VfsAreConfiguredLoggedAndMoved := by
  unfold Obligations.VfsAreConfiguredLoggedAndMoved
  intro s c d f b len blk frozen saveSt drainSt stopSt
  refine ⟨?_, ?_, fun l hl hst hf hb => ?_, fun hst => ?_, fun l hl hst => ?_, fun hst => ?_, fun hst hlen => ?_, fun hst hlen => ?_, fun hst => ?_,
    fun hm => ?_, fun hm => ?_, ?_⟩
  · exact serves_of_checked (exec_vfConfig c s) rfl rfl
  · exact serves_of_checked (exec_logStart c s) rfl rfl
  · refine lands_of_lift (exec_logDrain c s) ((checked_ok _ hst).trans ?_)
    subst stopSt drainSt saveSt frozen blk len b f d
    simp [hl, hf, hb, drainDw, b2n]
  · exact lands_of_lift (exec_logDrain c s) (checked_fails _ hst)
  · refine lands_of_lift (exec_logStop c s) ((checked_ok _ hst).trans ?_)
    subst stopSt drainSt saveSt frozen blk len b f d
    simp [hl]
  · exact lands_of_lift (exec_logStop c s) (checked_fails _ hst)
  · exact lands_of_lift (exec_vfSave c s) ((checked_ok _ hst).trans (if_neg (Nat.not_lt.mpr hlen)))
  · exact lands_of_lift (exec_vfSave c s) ((checked_ok _ hst).trans (if_pos hlen))
  · exact lands_of_lift (exec_vfSave c s) (checked_fails _ hst)
  · refine serves_of_checked (exec_vfResume c s) rfl (congrArg (completeSt c 0) (if_neg ?_))
    exact fun h => Bool.noConfusion (hm.symm.trans ((mayDma_resumed _ _ _).symm.trans h))
  · refine serves_of_checked (exec_vfResume c s) rfl (congrArg (completeSt c 0) (if_pos ?_))
    exact (mayDma_resumed _ _ _).trans hm
  · exact serves_of_checked (exec_vfRestore c s) rfl rfl

end Sys2Proof.Machine

/-! SUPPORT. The commands that create, start, stop, change and destroy a queue (R280, R297, R299, R309–R311, R391). -/

namespace Sys2Proof.Machine
open Sys2Proof

variable {d : Dev}

@[simp] theorem queue_queueU_self (f qt lq : Nat) (g : Queue → Queue) (d : Dev) : queue (queueU f qt lq g d) f qt lq = g (queue d f qt lq) := by
  simp [queue, queueU]

/-- A queue nothing holds stays as it is. -/
theorem qReHold_of_free {q : Queue} (h : qHolds q = false) : qReHold q = q := by simp [qReHold, h]

/-- A queue created is what its command gave, under the global ID it was given (R297, R310). -/
theorem queue_createQueue {c : Cmd} (qt : Nat) (q : Queue) (h : c.tcq = none) :
    ∃ g, queue (createQueue c qt q d) c.fn qt (c.f 18 2) =
      { q with globalId := g, pushWin := (queue d c.fn qt (c.f 18 2)).pushWin, pushSeen := (queue d c.fn qt (c.f 18 2)).pushSeen,
               gen := (fn d c.fn).gen, sizeLog2 := c.f 20 1, base := c.f 24 8, recAddr := c.f 32 8 } := by
  refine ⟨(pickGlobal d qt).1, ?_⟩
  unfold createQueue writeDevIdx
  dsimp only
  rw [(posts_complete_of_admin h _ _ _).queue, (posts_dma _ _ _ _).queue, queue_queueU_self]
  rfl

/-- What QSTART makes of a queue (R309). -/
theorem queue_started {c : Cmd} {f qt lq : Nat} (g : Queue → Queue) (h : c.tcq = none) (s : State) (d : Dev) :
    queue (landed s (completeSt c 0 (queueU f qt lq qReHold (queueU f qt lq g d)))).dev f qt lq = qReHold (g (queue d f qt lq)) := by
  rw [queue_landed, completeSt, (posts_complete_of_admin h _ _ _).queue, queue_queueU_self, queue_queueU_self]

/-- Settles O29: the commands lift their checks and effects; what a queue is afterwards is read off its entry. -/
theorem queueCommandsCreateAndChangeTheirQueue : Obligations.QueueCommandsCreateAndChangeTheirQueue := by
  unfold Obligations.QueueCommandsCreateAndChangeTheirQueue
  refine ⟨fun s c => ?_, fun s c => ?_⟩
  · intro d lq cqSt txSt rxSt tcSt
    refine ⟨?_, ?_, ?_, ?_, fun qt q htcq => ?_⟩
    · exact defers_of_lift (exec_cqCreate c s) rfl
    · exact defers_of_lift (exec_txqCreate c s) rfl
    · exact defers_of_lift (exec_rxqCreate c s) rfl
    · exact defers_of_lift (exec_tcqCreate c s) rfl
    · intro e
      obtain ⟨g, hg⟩ := queue_createQueue (d := s.dev) qt q htcq
      subst e tcSt rxSt txSt cqSt lq d
      rw [hg]
  · intro d f qt lq q m startSt stopSt setSt
    refine ⟨fun hst hb hh hf hdr hqt htcq => ?_, fun hst hf htcq => ?_, fun hst => ?_, fun hst hq => ?_, fun hst hq => ?_, fun hst => ?_, ?_, ?_, ?_⟩
    · refine runs_of_lift (exec_qstart c s) ?_
      subst setSt stopSt startSt m q lq qt f d
      rw [checked_ok _ hst, queue_started _ htcq]
      have hlane : decide (c.f 16 1 = 0) = false := by
        rcases hqt with h | h <;> simp [h]
      rw [qReHold_of_free] <;> simp [qHolds, hb, hh, hf, hdr, hlane]
    · refine runs_of_lift (exec_qstart c s) ?_
      subst setSt stopSt startSt m q lq qt f d
      rw [checked_ok _ hst, queue_started _ htcq]
      simp [qReHold, qHolds, hf]
    · exact lands_of_lift (exec_qstart c s) (checked_fails _ hst)
    · refine lands_of_lift (exec_qstop c s) ((checked_ok _ hst).trans (if_neg ?_))
      rw [noteHeld, queue_fnU, queue_queueU_self]
      exact fun h => by cases hq.symm.trans h
    · refine lands_of_lift (exec_qstop c s) ((checked_ok _ hst).trans (if_pos ?_))
      rw [noteHeld, queue_fnU, queue_queueU_self]
      exact hq
    · exact lands_of_lift (exec_qstop c s) (checked_fails _ hst)
    · exact serves_of_checked (exec_qdestroy c s) rfl rfl
    · exact serves_of_checked (exec_qset c s) rfl rfl
    · exact serves_of_checked (exec_qquery c s) rfl rfl

end Sys2Proof.Machine

/-! SUPPORT. The fetch of packets (R287–R290, R295, R302). -/

namespace Sys2Proof.Machine
open Sys2Proof

variable {s : State} {d : Dev} {f lq h : Nat} {b : Bytes}

/-! ### The arbiter's turn (R295) -/

/-- With one queue eligible, the turn is its: no other is a candidate of the outer or the inner round. -/
theorem fetchTurn_alone (hel : eligibles s.dev h = [(f, lq)]) (hturn : ∀ e ∈ s.dev.queues, e.2.turn = none)
    (hout : (hp s.dev h).outerPos - 1 ≠ f ∨ (hp s.dev h).outerLeft = 0) (hin : (fn s.dev f).innerPos - 1 ≠ lq ∨ (fn s.dev f).innerLeft = 0) :
    exec (.fetchTurn h) s = lift (fun d => queueU f 0 lq (fun y => { y with turn := some 0 })
      (fnU f (fun y => { y with innerPos := lq + 1, innerLeft := (queue d f 0 lq).weight - 1 })
        (hpU h (fun y => { y with outerPos := f + 1, outerLeft := fnWeight d f - 1 }) d))) s := by
  have hno : turnOn s.dev h = false := by
    rw [turnOn, List.any_eq_false]
    intro e he
    simp [hturn e he]
  have hnext (x pos : Nat) : nextFrom [x] pos = x := by
    unfold nextFrom
    by_cases hx : pos ≤ x <;> simp [hx]
  have houter : (decide ((hp s.dev h).outerLeft ≠ 0) && [f].contains ((hp s.dev h).outerPos - 1)) = false := by
    rcases hout with ho | ho <;> simp [ho]
  have hinner : (decide ((fn s.dev f).innerLeft ≠ 0) && [lq].contains ((fn s.dev f).innerPos - 1)) = false := by
    rcases hin with hi | hi <;> simp [hi]
  rw [exec_fetchTurn]
  unfold execFetchTurn lift
  refine congrArg (fun d => Host.Outcome.next (landed s d)) ?_
  dsimp only
  rw [hel, hno, if_neg (by simp)]
  simp only [List.map_cons, List.map_nil, houter, Bool.false_eq_true, if_false, hnext]
  simp only [List.filter_cons, decide_true, if_true, List.filter_nil, List.map_cons, List.map_nil, hinner, Bool.false_eq_true, if_false, hnext]

/-! ### One descriptor makes one packet (R288, R289) -/

/-- A queue's update by functions that agree on what the queue is. -/
theorem queueU_congr {qt : Nat} {g g' : Queue → Queue} (h : g (queue d f qt lq) = g' (queue d f qt lq)) :
    queueU f qt lq g d = queueU f qt lq g' d := by
  unfold queue at h
  unfold queueU Tbl.upd
  rw [h]

/-- The next descriptor of a queue that assembles nothing stands at its fetch position in the ring. -/
theorem nextDesc_ring {q : Queue} (h : q.asm = {}) : nextDesc d f q = (dmaRead d f (q.base + 32 * (q.fetchPos % qSize q)) 32,
    { q with turn := q.turn.map (· + 1), asm := { first := q.fetchPos % 65536, slots := 1 }, fetchPos := (q.fetchPos + 1) % 65536 }) := by
  have hfirst : openFirst q = q.fetchPos % 65536 := by simp [openFirst, h]
  unfold nextDesc
  simp only [h, hfirst]

/-- A descriptor that opens and ends a packet closes it (R288). -/
theorem takeDesc_whole (hk : dKind b = 0) (he : dEop b = true) (hlen : le b 8 2 ≠ 0) (hopen : (queue d f 0 lq).asm.head = none) :
    takeDesc f lq b d = closePacket f lq 0
      (queueU f 0 lq (fun x => { x with asm := { x.asm with head := some b, segs := x.asm.segs ++ [(le b 0 8, le b 8 2)] } }) d) := by
  unfold takeDesc
  simp only [hk, he, hlen, hopen]
  simp only [Option.isSome_none, Bool.false_eq_true, and_false, if_false, if_true, false_and, OfNat.zero_ne_ofNat, Nat.zero_ne_one]
  exact congrArg (closePacket f lq 0) (queueU_congr (by simp [hopen]))

theorem endTurn_eq (f lq : Nat) (d : Dev) : endTurn f lq d = d ∨ endTurn f lq d = queueU f 0 lq (fun x => { x with turn := none }) d := by
  unfold endTurn
  dsimp only
  split
  · exact .inl rfl
  · split
    · exact .inr rfl
    · exact .inl rfl

/-- A packet without a defect goes into flight, and its function is charged (R288, R296). -/
theorem closePacket_good {q : Queue} {b : Bytes} (hq : queue d f 0 lq = q) (hopen : q.asm.head = some b) (hbad : q.asm.bad = 0) (hhead : badHead q b = false)
    (htarget : badTarget d f q b = false) (hsize : oversize d (dTarget q b) (lenAsSent (segBytes q.asm.segs)) = false) :
    ∃ x y, closePacket f lq 0 d = fnU f x (fnU f y (queueU f 0 lq (fun x => { x with asm := { pushed := x.asm.pushed } })
      (regW 0x900018 (regR d 0x900018 + 1) { d with pktSeq := d.pktSeq + 1, pkts := d.pkts ++ [{
        id := d.pktSeq, fn := f, lq := lq, gen := q.gen, first := q.asm.first, slots := q.asm.slots, segs := q.asm.segs
        head := patch b 12 (leBytes 2 (dTarget q b)) }] }))) := by
  have htarget' {e : Dev} (hvar : e.variant = d.variant) (hregs : e.regs = (regW 0x900018 (regR d 0x900018 + 1) d).regs) :
      badTarget e f q b = false := by
    have hbit (g : Nat) (hg : g < 64) : bitR e (0x800040 + 0x1000 * g) 31 = bitR d (0x800040 + 0x1000 * g) 31 := by
      have hreg : regR e (0x800040 + 0x1000 * g) = regR d (0x800040 + 0x1000 * g) := by
        have hsame : regR e (0x800040 + 0x1000 * g) = regR (regW 0x900018 (regR d 0x900018 + 1) d) (0x800040 + 0x1000 * g) := by
          unfold regR at hregs ⊢
          rw [hregs]
        rw [hsame, regR_regW_ne _ _ _ _ (by omega)]
      unfold bitR
      rw [hreg]
    have hmod (t : Nat) : t % 2 ^ 6 < 64 := Nat.mod_lt _ (by decide)
    rw [← htarget]
    unfold badTarget
    simp only [hvar, hbit _ (hmod _)]
  have hsize' {e : Dev} (heff : e.eff = d.eff) (hcap : e.cap = d.cap) (hrx : e.halfRx = d.halfRx) (htx : e.halfTx = d.halfTx) : oversize e (dTarget q b) (lenAsSent (segBytes q.asm.segs)) = false := by
    rw [← hsize]
    unfold oversize plumbMembers maxFrame dirR effR
    rw [heff, hcap, hrx, htx]
  refine ⟨?_, ?_, ?_⟩
  rotate_left 2
  unfold closePacket bwRefill
  dsimp only
  rw [hq]
  simp only [hopen, hbad, Option.getD_some, ne_eq, not_true_eq_false, if_false, hhead, Bool.false_eq_true]
  rw [htarget', hsize'] <;> rfl

/-- The packet that one whole descriptor makes. -/
def wholePacket (d : Dev) (f lq : Nat) (b : Bytes) : TxPkt :=
  let q := queue d f 0 lq
  { id := d.pktSeq, fn := f, lq := lq, gen := q.gen, first := q.fetchPos % 65536, slots := 1, segs := [(le b 0 8, le b 8 2)]
    head := patch b 12 (leBytes 2 (dTarget q b)) }

/-- A queue past the ring slot it has read, which is the next packet's first. -/
def pastSlot (q : Queue) (t : Option Nat) (p : Nat) : Queue :=
  { q with turn := t, asm := { first := q.fetchPos % 65536, slots := 1 }, fetchPos := p }

/-- A queue that takes one whole descriptor: the packet is in flight and the queue assembles nothing. -/
theorem takeDesc_next {q : Queue} (hq : queue d f 0 lq = q) (hk : dKind b = 0) (he : dEop b = true) (hlen : le b 8 2 ≠ 0)
    (hhead : badHead q b = false) (htarget : badTarget d f q b = false)
    (hsize : oversize d (dTarget q b) (lenAsSent (segBytes [(le b 0 8, le b 8 2)])) = false) (t : Option Nat) (p : Nat) :
    ∃ e, takeDesc f lq b (queueU f 0 lq (fun _ => pastSlot q t p) d) = e ∧
      e.pkts = d.pkts ++ [wholePacket d f lq b] ∧ (queue e f 0 lq).fetchPos = p ∧ (queue e f 0 lq).asm.head = none ∧
      regR e 0x900018 = regR d 0x900018 + 1 := by
  have hread : queue (queueU f 0 lq (fun _ => pastSlot q t p) d) f 0 lq = pastSlot q t p := queue_queueU_self _ _ _ _ _
  have htaken : queue (queueU f 0 lq (fun x => { x with asm := { x.asm with head := some b, segs := x.asm.segs ++ [(le b 0 8, le b 8 2)] } })
      (queueU f 0 lq (fun _ => pastSlot q t p) d)) f 0 lq =
        { pastSlot q t p with asm := { first := q.fetchPos % 65536, slots := 1, head := some b, segs := [(le b 0 8, le b 8 2)] } } := by
    rw [queue_queueU_self, hread]
    rfl
  obtain ⟨x, y, hclose⟩ := closePacket_good htaken rfl rfl hhead htarget hsize
  refine ⟨_, (takeDesc_whole hk he hlen (by rw [hread]; rfl)).trans hclose, ?_, ?_, ?_, ?_⟩
  · simp only [fnU_pkts, queueU_pkts, regW_pkts]
    unfold wholePacket
    rw [hq]
    rfl
  · rw [queue_fnU, queue_fnU, queue_queueU_self, queue_regW]
    exact congrArg Queue.fetchPos htaken
  · rw [queue_fnU, queue_fnU, queue_queueU_self]
  · rw [regR_fnU, regR_fnU, regR_queueU, regR_regW_self, regR_queueU, regR_queueU]

/-- Settles O28: the arbiter's only candidate takes the turn, a whole descriptor goes into flight, and the rest lifts its effect. -/
theorem fetchesBuildPackets : Obligations.FetchesBuildPackets := by
  unfold Obligations.FetchesBuildPackets
  intro s f lq h b hwr d q cq
  subst cq q d
  refine ⟨fun hel hturn hout hin => ?_, fun hel => ?_, fun hturn hst hdma hidx hasm hb hk he hlen hhead htarget hsize => ?_, fun res hturn => ?_,
    fun k rest hpk hf hlq hstage hgen hdma => ?_, fun k rest hpk hf hlq hstage hgen hdma => ?_, fun harm hc => ?_, fun harm => ?_⟩
  · refine runs_of_lift_clean (fetchTurn_alone hel hturn hout hin) rfl rfl hwr ⟨?_, ?_, ?_, ?_, ?_, rfl⟩
    · rw [queue_queueU_self]
    · simp [hp, hpU]
    · simp [hp, hpU]
    · simp [fn_fnU_self]
    · simp [fn_fnU_self]
  · exact lands_of_lift (exec_fetchTurn h s) (if_pos (by simp [hel]))
  · have hnext := nextDesc_ring (d := s.dev) (f := f) hasm
    rw [hb] at hnext
    obtain ⟨e, hx, hpkts, hpos, hnone, hreg⟩ := takeDesc_next (d := s.dev) rfl hk he hlen hhead htarget hsize
      ((queue s.dev f 0 lq).turn.map (· + 1)) (((queue s.dev f 0 lq).fetchPos + 1) % 65536)
    have hgo : ¬((queue s.dev f 0 lq).turn.isNone || decide ((queue s.dev f 0 lq).st ≠ .running) || !(mayDma s.dev f) ||
        ((queue s.dev f 0 lq).asm.stack.isEmpty && !(hasDesc (queue s.dev f 0 lq)))) = true := by
      simp [Option.isNone_iff_eq_none, hturn, hst, hdma, hasDesc, hidx]
    refine runs_of_lift (exec_txDescFetch f lq .ok s) ?_
    dsimp only
    rw [if_neg hgo, hnext]
    dsimp only
    rw [if_pos rfl, ← pastSlot, hx]
    rcases endTurn_eq f lq e with hend | hend
    · rw [hend]
      exact ⟨⟨_, hpkts, rfl, rfl, rfl, rfl, rfl, rfl, rfl⟩, hpos, hnone, hreg⟩
    · rw [hend]
      refine ⟨⟨_, hpkts, rfl, rfl, rfl, rfl, rfl, rfl, rfl⟩, ?_, ?_, hreg⟩
      · rw [queue_landed, queue_queueU_self]
        exact hpos
      · rw [queue_landed, queue_queueU_self]
        exact hnone
  · exact lands_of_lift (exec_txDescFetch f lq res s) (if_pos (by simp [hturn]))
  · refine lands_of_lift (exec_txDataFetch f lq .poisoned s) ?_
    simp [hpk, hf, hlq, hstage, hgen, hdma]
  · refine lands_of_lift (exec_txDataFetch f lq .ok s) ?_
    simp [hpk, hf, hlq, hstage, hgen, hdma]
  · exact lands_of_lift (exec_modTimeExpiry f lq s) (if_pos (by simp [harm, hc]))
  · exact lands_of_lift (exec_modTimeExpiry f lq s) (if_neg (by simp [harm]))

end Sys2Proof.Machine

/-! SUPPORT. The entry an admin command completes with (R307). -/

namespace Sys2Proof.Machine
open Sys2Proof

/-- An interrupt is put out after what stands already, which stays. -/
theorem signalVec_out (f v : Nat) (d : Dev) : ∃ pre, (signalVec f v d).out = pre ++ d.out := by
  have hsame : ∃ pre, d.out = pre ++ d.out := ⟨[], rfl⟩
  have hone (o : Out) : ∃ pre, o :: d.out = pre ++ d.out := ⟨[o], rfl⟩
  unfold signalVec
  split
  · split
    · exact hone _
    · rwa [bitW_out]
  · split
    · dsimp only
      split
      · rw [emit_out, fnU_out, bitW_out]
        exact hone _
      · rwa [bitW_out]
    · split
      · exact hsame
      · rwa [fnU_out]

/-- An entry put out of an admin queue has the PHASE put into its last byte. -/
theorem aqWrite_out (f : Nat) (e : Bytes) (d : Dev) :
    ∃ pre post, (aqWrite f e d).out = pre ++ .adminCpl f (patch e 15 (leBytes 1 (b2n (fn d f).aqPhase))) :: post := by
  have hsig (p : Prop) [Decidable p] (f v : Nat) (d : Dev) : ∃ pre, (if p then signalVec f v d else d).out = pre ++ d.out := by
    split
    · exact signalVec_out f v d
    · exact ⟨[], rfl⟩
  exact (hsig _ _ _ _).imp fun pre hpre => ⟨_, hpre⟩

/-- What is put into the last byte of an entry leaves the others. -/
theorem patch_last {e : Bytes} (x : Byte) (he : e.length = 16) : (patch e 15 [x]).take 15 = e.take 15 ∧ (patch e 15 [x]).length = 16 := by
  refine ⟨?_, (length_patch (by simp [he])).trans he⟩
  unfold patch
  rw [List.append_assoc, List.take_append_of_le_length (by simp [he]), List.take_take, Nat.min_self]

/-- Settles O6: the entry is put out after what its writing puts out, and before its interrupt. -/
theorem adminCompletionEntryNamesItsCommand : Obligations.AdminCompletionEntryNamesItsCommand := by
  unfold Obligations.AdminCompletionEntryNamesItsCommand
  intro c st dw d htcq hdma hheld
  unfold complete
  rw [htcq]
  dsimp only
  rw [if_pos (by simp [hdma, hheld])]
  obtain ⟨pre, post, hout⟩ := aqWrite_out c.fn (leBytes 2 c.cid ++ leBytes 1 st ++ leBytes 1 c.opcode ++ leBytes 4 dw ++ leBytes 2 c.idx ++
    leBytes 1 (fn d c.fn).gen ++ zeros 5) d
  obtain ⟨htake, hlen⟩ := patch_last (BitVec.ofNat 8 (b2n (fn d c.fn).aqPhase)) (e := leBytes 2 c.cid ++ leBytes 1 st ++ leBytes 1 c.opcode ++
    leBytes 4 dw ++ leBytes 2 c.idx ++ leBytes 1 (fn d c.fn).gen ++ zeros 5) (by simp)
  refine ⟨pre, post, _, hout, htake.trans ?_, hlen⟩
  rw [show zeros 5 = zeros 4 ++ [0] from rfl, ← List.append_assoc, List.take_left' (by simp)]

end Sys2Proof.Machine

/-! SUPPORT. The admin and event queues of a function (R304, R315). -/

namespace Sys2Proof.Machine
open Sys2Proof

variable {s : State} {d : Dev} {f off off' : Nat}

/-! ### A function's registers -/

theorem regR_regW_fnKey_ne (w : Word) (d : Dev) (h : off' ≠ off) : regR (regW (fnKey f off) w d) (fnKey f off') = regR d (fnKey f off') :=
  regR_regW_ne _ _ _ _ (by unfold fnKey; omega)

theorem bitR_regW_fnKey_ne (w : Word) (d : Dev) (i : Nat) (h : off' ≠ off) : bitR (regW (fnKey f off) w d) (fnKey f off') i = bitR d (fnKey f off') i :=
  congrArg (Word.bit · i) (regR_regW_fnKey_ne w d h)

theorem bitR_bitW_fnKey_ne (b : Bool) (d : Dev) (i j : Nat) (h : off' ≠ off) :
    bitR (bitW (fnKey f off) j b d) (fnKey f off') i = bitR d (fnKey f off') i := bitR_regW_fnKey_ne _ d i h

theorem reg64_regW_fnKey (w : Word) (d : Dev) (h : off' ≠ off) (h' : off' + 4 ≠ off) :
    reg64 (regW (fnKey f off) w d) (fnKey f off') = reg64 d (fnKey f off') := by
  have hnext : fnKey f off' + 4 = fnKey f (off' + 4) := by
    unfold fnKey
    omega
  unfold reg64
  rw [hnext, regR_regW_fnKey_ne w d h, regR_regW_fnKey_ne w d h']

/-! ### What registers and function records alone take -/

/-- The devices differ in registers alone. -/
def OnlyRegs (d d' : Dev) : Prop := d' = { d with regs := d'.regs }

/-- The devices differ in registers and in the records of functions alone. -/
def OnlyFns (d d' : Dev) : Prop := d' = { d with regs := d'.regs, fns := d'.fns }

theorem OnlyRegs.trans {d e f : Dev} (h : OnlyRegs d e) (h' : OnlyRegs e f) : OnlyRegs d f := by
  unfold OnlyRegs at *
  rw [h', h]

theorem OnlyFns.trans {d e f : Dev} (h : OnlyFns d e) (h' : OnlyFns e f) : OnlyFns d f := by
  unfold OnlyFns at *
  rw [h', h]

theorem OnlyRegs.onlyFns {d e : Dev} (h : OnlyRegs d e) : OnlyFns d e := by
  unfold OnlyRegs at h
  unfold OnlyFns
  rw [h]

theorem OnlyFns.landed {d : Dev} (h : OnlyFns s.dev d) (hwr : s.dev.wr = []) : (landed s d).dev = d := by
  unfold OnlyFns at h
  exact landed_clean s d (by rw [h]) (by rw [h]; exact hwr)

theorem onlyRegs_regW (k : Nat) (v : Word) (d : Dev) : OnlyRegs d (regW k v d) := rfl

theorem onlyRegs_bitW (k i : Nat) (b : Bool) (d : Dev) : OnlyRegs d (bitW k i b d) := by
  unfold bitW fldW
  exact onlyRegs_regW _ _ d

theorem onlyFns_fnU (f : Nat) (g : Fn → Fn) (d : Dev) : OnlyFns d (fnU f g d) := rfl

/-- Settles O30: the configuration write goes one way or another by the queue's state and the write's fields. -/
theorem adminAndEventQueuesAreConfigured : Obligations.AdminAndEventQueuesAreConfigured := by
  unfold Obligations.AdminAndEventQueuesAreConfigured
  intro s f v hwr d open_
  have hopen : open_ → ¬(!(fnPresent s.dev f) || isFrozen s.dev (fnPort f) || s.dev.fatal) = true := by
    rintro ⟨hp, hf, hfatal⟩
    subst d
    simp [hp, hf, hfatal]
  subst d
  have hsound (w : Word) (h : 6 ≤ Word.fld v 4 0) (h' : Word.fld v 4 0 ≤ 16) (h100 : reg64 s.dev (fnKey f 0x100) % 4096 = 0)
      (h108 : reg64 s.dev (fnKey f 0x108) % 4096 = 0) (h110 : reg64 s.dev (fnKey f 0x110) % 8 = 0) :
      ¬(Word.fld v 4 0 < 6 ∨ 16 < Word.fld v 4 0 ∨ reg64 (regW (fnKey f 0x118) w s.dev) (fnKey f 0x100) % 4096 ≠ 0 ∨
        reg64 (regW (fnKey f 0x118) w s.dev) (fnKey f 0x108) % 4096 ≠ 0 ∨ reg64 (regW (fnKey f 0x118) w s.dev) (fnKey f 0x110) % 8 ≠ 0) := by
    rw [reg64_regW_fnKey _ _ (by decide) (by decide), reg64_regW_fnKey _ _ (by decide) (by decide), reg64_regW_fnKey _ _ (by decide) (by decide)]
    omega
  have hsound' (w : Word) (h : 6 ≤ Word.fld v 4 0) (h' : Word.fld v 4 0 ≤ 16) (h120 : reg64 s.dev (fnKey f 0x120) % 4096 = 0)
      (h128 : reg64 s.dev (fnKey f 0x128) % 8 = 0) :
      ¬(Word.fld v 4 0 < 6 ∨ 16 < Word.fld v 4 0 ∨ reg64 (regW (fnKey f 0x130) w s.dev) (fnKey f 0x120) % 4096 ≠ 0 ∨
        reg64 (regW (fnKey f 0x130) w s.dev) (fnKey f 0x128) % 8 ≠ 0) := by
    rw [reg64_regW_fnKey _ _ (by decide) (by decide), reg64_regW_fnKey _ _ (by decide) (by decide)]
    omega
  have haq := exec_aqCfgWrite f v s
  have heq := exec_eqCfgWrite f v s
  unfold execAqCfgWrite at haq
  unfold execEqCfgWrite at heq
  refine ⟨fun ho hoff hv hlo hhi h100 h108 h110 => ?_, fun ho hoff hv hsize => ?_, fun ho hon hv hout => ?_, fun ho hon hv hout => ?_,
    fun ho hoff hv hlo hhi h120 h128 => ?_, fun ho hv => ?_⟩
  · have hv' : Word.bit v 31 = true := hv
    refine runs_of_lift haq ?_
    dsimp only
    rw [if_neg (hopen ho), if_pos hv', if_neg (by simp [hoff]), if_neg (hsound _ hlo hhi h100 h108 h110),
      OnlyFns.landed ((onlyRegs_regW _ _ _).onlyFns.trans ((onlyFns_fnU _ _ _).trans (onlyRegs_bitW _ _ _ _).onlyFns)) hwr]
    refine ⟨bitR_bitW_self _ _ _ _ (by decide), ?_, ?_, ?_, ?_, ?_⟩
    · rw [fn_bitW, fn_fnU_self]
    · rw [fn_bitW, fn_fnU_self]
    · rw [fn_bitW, fn_fnU_self]
    · rw [fn_bitW, fn_fnU_self]
    · exact (onlyRegs_regW _ _ _).onlyFns.trans ((onlyFns_fnU _ _ _).trans (onlyRegs_bitW _ _ _ _).onlyFns)
  · have hv' : Word.bit v 31 = true := hv
    refine runs_of_lift haq ?_
    dsimp only
    rw [if_neg (hopen ho), if_pos hv', if_neg (by simp [hoff]), if_pos (by omega),
      OnlyFns.landed (((onlyRegs_regW _ _ _).trans ((onlyRegs_bitW _ _ _ _).trans (onlyRegs_bitW _ _ _ _))).onlyFns) hwr]
    refine ⟨?_, ?_, ?_, ?_⟩
    · rw [bitR_bitW_fnKey_ne _ _ _ _ (by decide), bitR_bitW_self _ _ _ _ (by decide)]
    · rw [bitR_bitW_fnKey_ne _ _ _ _ (by decide), bitR_bitW_ne _ _ _ _ _ (by decide) (by decide), bitR_regW_fnKey_ne _ _ _ (by decide), hoff]
    · exact bitR_bitW_self _ _ _ _ (by decide)
    · exact (onlyRegs_regW _ _ _).trans ((onlyRegs_bitW _ _ _ _).trans (onlyRegs_bitW _ _ _ _))
  · have hv' : ¬Word.bit v 31 = true := Bool.eq_false_iff.mp hv
    refine runs_of_lift haq ?_
    dsimp only
    rw [if_neg (hopen ho), if_neg hv', if_pos hon, fn_regW, if_pos hout,
      OnlyFns.landed (((onlyRegs_regW _ _ _).trans (onlyRegs_bitW _ _ _ _)).onlyFns) hwr]
    refine ⟨bitR_bitW_self _ _ _ _ (by decide), ?_⟩
    exact (onlyRegs_regW _ _ _).trans (onlyRegs_bitW _ _ _ _)
  · have hv' : ¬Word.bit v 31 = true := Bool.eq_false_iff.mp hv
    refine runs_of_lift haq ?_
    dsimp only
    rw [if_neg (hopen ho), if_neg hv', if_pos hon, fn_regW, if_neg hout, OnlyFns.landed ((onlyRegs_regW _ _ _).onlyFns.trans (onlyFns_fnU _ _ _)) hwr]
    refine ⟨?_, ?_⟩
    · rw [bitR_fnU, bitR_regW_fnKey_ne _ _ _ (by decide), hon]
    · rw [fn_fnU_self]
  · have hv' : Word.bit v 31 = true := hv
    refine runs_of_lift heq ?_
    dsimp only
    rw [if_neg (hopen ho), if_pos hv', if_neg (by simp [hoff]), if_neg (hsound' _ hlo hhi h120 h128),
      OnlyFns.landed ((onlyRegs_regW _ _ _).onlyFns.trans ((onlyFns_fnU _ _ _).trans (onlyRegs_bitW _ _ _ _).onlyFns)) hwr]
    refine ⟨bitR_bitW_self _ _ _ _ (by decide), ?_, ?_, ?_, ?_⟩
    · rw [fn_bitW, fn_fnU_self]
    · rw [fn_bitW, fn_fnU_self]
    · rw [fn_bitW, fn_fnU_self]
    · exact (onlyRegs_regW _ _ _).onlyFns.trans ((onlyFns_fnU _ _ _).trans (onlyRegs_bitW _ _ _ _).onlyFns)
  · have hv' : ¬Word.bit v 31 = true := Bool.eq_false_iff.mp hv
    refine runs_of_lift heq ?_
    dsimp only
    rw [if_neg (hopen ho), if_neg hv', OnlyFns.landed (((onlyRegs_regW _ _ _).trans (onlyRegs_bitW _ _ _ _)).onlyFns) hwr]
    refine ⟨bitR_bitW_self _ _ _ _ (by decide), ?_⟩
    exact (onlyRegs_regW _ _ _).trans (onlyRegs_bitW _ _ _ _)

end Sys2Proof.Machine

/-! SUPPORT. The integer and immediate instructions (R502, R503). -/

namespace Sys2Proof.Machine
open Sys2Proof

variable {i : Instr} {s : State} {c t w : Nat} {D : BitVec 5}

/-- An instruction whose whole effect is a register's new value computes that value. -/
theorem computes_of_alu {v : BitVec 64} (f : (BitVec 5 → BitVec 64) → BitVec 64) (hwr : s.dev.wr = []) (hx : exec i s = alu c t w D f s)
    (hv : f (greg s.dev c t) = v) : Computes i s c t w D v := by
  intro hi
  obtain ⟨u, hu, hp, hreg⟩ := alu_runs (v := f) hi hwr
  exact ⟨u, hx.trans hu, hp, hv ▸ hreg⟩

/-! ### Results as the integers the operands stand for -/

section
variable (a b : BitVec 64)

theorem add_eq_ofNat : a + b = BitVec.ofNat 64 (a.toNat + b.toNat) := by
  apply BitVec.eq_of_toNat_eq
  simp

theorem sub_eq_ofInt : a - b = BitVec.ofInt 64 ((a.toNat : Int) - b.toNat) := by
  apply BitVec.eq_of_toNat_eq
  rw [BitVec.toNat_sub, BitVec.toNat_ofInt]
  omega

theorem mul_eq_ofNat : a * b = BitVec.ofNat 64 (a.toNat * b.toNat) := by
  apply BitVec.eq_of_toNat_eq
  simp

theorem shiftLeft_eq_ofNat (n : Nat) : a <<< n = BitVec.ofNat 64 (a.toNat * 2 ^ n) := by
  apply BitVec.eq_of_toNat_eq
  simp [Nat.shiftLeft_eq]

theorem ushiftRight_eq_ofNat (n : Nat) : a >>> n = BitVec.ofNat 64 (a.toNat / 2 ^ n) := by
  apply BitVec.eq_of_toNat_eq
  rw [BitVec.toNat_ushiftRight, BitVec.toNat_ofNat, Nat.shiftRight_eq_div_pow, Nat.mod_eq_of_lt]
  exact lt_of_le_of_lt (Nat.div_le_self _ _) a.isLt

theorem sshiftRight_eq_ofInt (n : Nat) : a.sshiftRight n = BitVec.ofInt 64 (a.toInt / 2 ^ n) := by
  rw [BitVec.sshiftRight, Int.shiftRight_eq_div_pow]
  norm_cast

theorem flag64_decide (p : Prop) [Decidable p] : flag64 (decide p) = if p then 1 else 0 := by
  by_cases h : p <;> simp [h, flag64, b2n]

theorem flag64_ne : flag64 (a != b) = if a = b then 0 else 1 := by
  by_cases h : a = b <;> simp [h, flag64, b2n]

/-- Of two values the one not passed over. -/
theorem pick_eq {α β : Type} [LinearOrder α] (x y : α) (u v : β) : (if decide (y < x) = true then v else u) = if x ≤ y then u else v := by
  by_cases h : x ≤ y
  · rw [if_pos h, if_neg (by simpa using h)]
  · rw [if_neg h, if_pos (by simpa using h)]

theorem clz64_eq {n : Nat} (h0 : a = 0 → n = 64) (h : a ≠ 0 → n < 64 ∧ 2 ^ (63 - n) ≤ a.toNat ∧ a.toNat < 2 ^ (64 - n)) : clz64 a = n := by
  unfold clz64
  split
  · next ha => exact (h0 ha).symm
  · next ha =>
    obtain ⟨hn, hlo, hhi⟩ := h ha
    have hlog : Nat.log2 a.toNat = 63 - n := by
      rw [Nat.log2_eq_iff (by rintro h0; exact ha (BitVec.eq_of_toNat_eq h0))]
      exact ⟨hlo, by rwa [show 63 - n + 1 = 64 - n by omega]⟩
    omega

theorem popc64_eq : popc64 a = ((List.range 64).filter fun i => a.getLsbD i).length := by
  have hfold (l : List Nat) (k : Nat) : l.foldl (fun (n : Nat) i => n + b2n (a.getLsbD i)) k = k + (l.filter fun i => a.getLsbD i).length := by
    induction l generalizing k with
    | nil => rfl
    | cons i l ih =>
      rw [List.foldl_cons, ih]
      cases h : a.getLsbD i <;> simp [h, b2n]
      omega
  exact (hfold _ 0).trans (Nat.zero_add _)

end

theorem sext_toInt (imm : BitVec 16) : (sext imm).toInt = imm.toInt := BitVec.toInt_signExtend_of_le (by decide)

theorem add_sext_eq_ofInt (a : BitVec 64) (imm : BitVec 16) : a + sext imm = BitVec.ofInt 64 (a.toInt + imm.toInt) := by
  rw [← sext_toInt imm, BitVec.ofInt_add, BitVec.ofInt_toInt, BitVec.ofInt_toInt]

theorem zext_eq (imm : BitVec 16) : zext imm = BitVec.ofNat 64 imm.toNat := by
  apply BitVec.eq_of_toNat_eq
  simp [zext]

theorem lui_eq_ofInt (imm : BitVec 16) : ((imm ++ (0 : BitVec 16)) : BitVec 32).signExtend 64 = BitVec.ofInt 64 (imm.toInt * 2 ^ 16) := by
  have hint : ((imm ++ (0 : BitVec 16)) : BitVec 32).toInt = imm.toInt * 2 ^ 16 := by
    have hnat : ((imm ++ (0 : BitVec 16)) : BitVec 32).toNat = imm.toNat * 2 ^ 16 := by
      rw [BitVec.toNat_append]
      simp [Nat.shiftLeft_eq]
    rw [BitVec.toInt_eq_toNat_cond, BitVec.toInt_eq_toNat_cond, hnat]
    split <;> split <;> omega
  rw [← hint]
  rfl

/-- Settles O42: each instruction computes a value of its operands, which is the one the integers give. -/
theorem aluAndImmediateInstructionsWriteTheirResult : Obligations.AluAndImmediateInstructionsWriteTheirResult := by
  unfold Obligations.AluAndImmediateInstructionsWriteTheirResult
  refine ⟨fun s c t D A B C hwr => ?_, fun s c t D A imm sh hwr => ?_⟩
  · intro a b x
    have hmod : (b % 64).toNat = b.toNat % 64 := BitVec.toNat_umod ..
    refine ⟨?_, ?_, ?_, ?_, ?_, ?_, ?_, ?_, ?_, ?_, ?_, ?_, ?_, ?_, ?_, ?_, fun n h0 h => ?_, ?_, ?_, ?_, ?_, ?_⟩
    · exact computes_of_alu _ hwr (exec_add c t D A B s) (add_eq_ofNat a b)
    · exact computes_of_alu _ hwr (exec_sub c t D A B s) (sub_eq_ofInt a b)
    · exact computes_of_alu _ hwr (exec_and c t D A B s) rfl
    · exact computes_of_alu _ hwr (exec_or c t D A B s) rfl
    · exact computes_of_alu _ hwr (exec_xor c t D A B s) rfl
    · exact computes_of_alu _ hwr (exec_sll c t D A B s) (hmod ▸ shiftLeft_eq_ofNat a _)
    · exact computes_of_alu _ hwr (exec_srl c t D A B s) (hmod ▸ ushiftRight_eq_ofNat a _)
    · exact computes_of_alu _ hwr (exec_sra c t D A B s) (hmod ▸ sshiftRight_eq_ofInt a _)
    · exact computes_of_alu _ hwr (exec_slt c t D A B s) (flag64_decide _)
    · exact computes_of_alu _ hwr (exec_sltu c t D A B s) (flag64_decide _)
    · exact computes_of_alu _ hwr (exec_seq c t D A B s) (flag64_decide _)
    · exact computes_of_alu _ hwr (exec_sne c t D A B s) (flag64_ne a b)
    · exact computes_of_alu _ hwr (exec_min c t D A B s) (pick_eq _ _ _ _)
    · exact computes_of_alu _ hwr (exec_max c t D A B s) (pick_eq _ _ _ _)
    · exact computes_of_alu _ hwr (exec_minu c t D A B s) (pick_eq _ _ _ _)
    · exact computes_of_alu _ hwr (exec_maxu c t D A B s) (pick_eq _ _ _ _)
    · exact computes_of_alu _ hwr (exec_clz c t D A s) (congrArg (BitVec.ofNat 64) (clz64_eq a h0 h))
    · exact computes_of_alu _ hwr (exec_popc c t D A s) (congrArg (BitVec.ofNat 64) (popc64_eq a))
    · exact computes_of_alu _ hwr (exec_sel c t D A B C s) (ite_not _ _ _)
    · exact computes_of_alu _ hwr (exec_mul c t D A B s) (mul_eq_ofNat a b)
    · exact computes_of_alu _ hwr (exec_mulhs c t D A B s) rfl
    · exact computes_of_alu _ hwr (exec_mulhu c t D A B s) rfl
  · intro a
    refine ⟨?_, ?_, ?_, ?_, ?_, ?_, ?_, ?_, ?_, ?_⟩
    · exact computes_of_alu _ hwr (exec_addi c t D A imm s) (add_sext_eq_ofInt a imm)
    · exact computes_of_alu _ hwr (exec_andi c t D A imm s) (zext_eq imm ▸ rfl)
    · exact computes_of_alu _ hwr (exec_ori c t D A imm s) (zext_eq imm ▸ rfl)
    · exact computes_of_alu _ hwr (exec_xori c t D A imm s) (zext_eq imm ▸ rfl)
    · exact computes_of_alu _ hwr (exec_slti c t D A imm s) (sext_toInt imm ▸ flag64_decide _)
    · exact computes_of_alu _ hwr (exec_sltui c t D A imm s) (flag64_decide _)
    · exact computes_of_alu _ hwr (exec_lui c t D imm s) (lui_eq_ofInt imm)
    · exact computes_of_alu _ hwr (exec_slli c t D A sh s) (shiftLeft_eq_ofNat a _)
    · exact computes_of_alu _ hwr (exec_srli c t D A sh s) (ushiftRight_eq_ofNat a _)
    · exact computes_of_alu _ hwr (exec_srai c t D A sh s) (sshiftRight_eq_ofInt a _)

end Sys2Proof.Machine

/-! SUPPORT. Loads and stores of Givik threads (R504, R505). -/

namespace Sys2Proof.Machine
open Sys2Proof

variable {i : Instr} {s : State} {c t w n : Nat} {D A S : BitVec 5} {imm : BitVec 16} {v : BitVec 64} {p : GPlace}

/-- The device once thread `t` has used up its step. -/
abbrev begun (d : Dev) (c t : Nat) : Dev := thrU c t (fun x => { x with step := false }) d

theorem issueSeq_begun (f : Dev → Dev) (h : IssuesSeq s.dev c t w) : issueSeq c t w f s = .next (landed s (f (begun s.dev c t))) :=
  issueSeq_runs f h

/-- An instruction that, once issued, writes a register and goes on, computes. -/
theorem computes_of_retire (f : Dev → Dev) (hwr : s.dev.wr = []) (hx : exec i s = issueSeq c t w f s)
    (hf : f (begun s.dev c t) = retire c t (gset D v) (begun s.dev c t)) : Computes i s c t w D v := by
  intro hi
  refine ⟨_, hx.trans (issueSeq_runs f hi), rfl, ?_⟩
  rw [hf, retire_eq]
  exact (thrU_gset_regAt c t D v _ s.dev).landed hwr

@[simp] theorem effAddr_begun (d : Dev) : effAddr (begun d c t) c t A imm = effAddr d c t A imm := by
  unfold effAddr
  rw [greg_step]

/-- With no write waiting a read sees memory. -/
theorem rd_begun (hwr : s.dev.wr = []) (sp a : Nat) :
    rd (begun s.dev c t) sp a n = (List.range n).map fun i => Memory.read s.dev.mem (spaceAddr sp (a + i)) := by
  have hbyte (x : Nat) : rdByte (begun s.dev c t) x = Memory.read s.dev.mem x := by
    unfold rdByte
    rw [show (begun s.dev c t).wr = [] from hwr]
    rfl
  simp only [rd, hbyte]

/-- All the bytes read, as a number. -/
theorem le_rd (d : Dev) (sp a : Nat) : le (rd d sp a n) 0 n = leNat (rd d sp a n) := by
  have hlen : (rd d sp a n).length = n := by simp [rd]
  rw [le, slice_eq_take_drop (by omega), List.drop_zero, List.take_of_length_le (by omega)]

/-- Where an access lands depends on the memory's regions and on what the spaces of memory have lost. -/
theorem placeAt_congr {d e : Dev} (hdram : e.dram = d.dram) (hep : e.spEpoch = d.spEpoch) (c t : Nat) (p : GPlace) : placeAt e c t p = placeAt d c t p := by
  unfold placeAt windowBase spc
  rw [hdram, hep]

theorem linePoisoned_begun (d : Dev) (a : Nat) : linePoisoned (begun d c t) a = linePoisoned d a := rfl

theorem dramLoc_begun (d : Dev) (a : Nat) : dramLoc (begun d c t) a = dramLoc d a := rfl

theorem rankSt_begun (d : Dev) (r : Nat) : rankSt (begun d c t) r = rankSt d r := rfl

/-- What a load reads, as a number. -/
theorem load_computes {ea : Nat} (u : Nat → BitVec 64) (hwr : s.dev.wr = []) (hx : exec i s = load c t w n D A imm u s)
    (hea : effAddr s.dev c t A imm = ea) (hp : placeOf ea n = some p) (hal : ea % n = 0)
    (hpoison : ∀ a, p = .dram a → linePoisoned s.dev (placeAt s.dev c t p).2 = false) :
    Computes i s c t w D (u (leNat ((List.range n).map fun i =>
      Memory.read s.dev.mem (spaceAddr (placeAt s.dev c t p).1 ((placeAt s.dev c t p).2 + i))))) := by
  refine computes_of_retire _ hwr hx ?_
  have hplace : placeAt (begun s.dev c t) c t p = placeAt s.dev c t p := placeAt_congr rfl rfl c t p
  dsimp only
  rw [effAddr_begun, hea, hp]
  dsimp only
  rw [hplace, if_neg (by simp [hal]), if_neg, le_rd, rd_begun hwr]
  cases p with
  | dram a =>
    rw [linePoisoned_begun, hpoison a rfl]
    exact Bool.false_ne_true
  | data a => simp
  | cluster a => simp
  | window a => simp

/-- What a packet-window load reads, in network order. -/
theorem packetLoad_computes {ea : Nat} (hwr : s.dev.wr = []) (hx : exec i s = packetLoad c t w n D A imm s)
    (hea : effAddr s.dev c t A imm = ea) (hin : ea + n ≤ 256) :
    Computes i s c t w D (BitVec.ofNat 64 (beNat ((List.range n).map fun i =>
      Memory.read s.dev.mem (spaceAddr (spc s.dev (windowSpace c t)) (ea + i))))) := by
  refine computes_of_retire _ hwr hx ?_
  have hspace : spc (begun s.dev c t) (windowSpace c t) = spc s.dev (windowSpace c t) := rfl
  dsimp only
  rw [effAddr_begun, hea, if_neg (by omega), rd_begun hwr, hspace]

/-- A thread that goes on with a write of memory waiting. -/
theorem landed_retire_wrt (hwr : s.dev.wr = []) (sp a : Nat) (bs : Bytes) : ∃ d', (landed s (retire c t id (wrt sp a bs (begun s.dev c t)))).dev = d' ∧
    d'.mem = Memory.writeBytes s.dev.mem (spaceAddr sp a) bs ∧ RegAt { s.dev with mem := d'.mem } d' c t 0 0 ((thr s.dev c t).pc + 4) := by
  have hmem : (landed s (retire c t id (wrt sp a bs (begun s.dev c t)))).dev.mem = Memory.writeBytes s.dev.mem (spaceAddr sp a) bs := by
    have hpending : (retire c t id (wrt sp a bs (begun s.dev c t))).wr = [(spaceAddr sp a, bs)] := congrArg (fun wr => (spaceAddr sp a, bs) :: wr) hwr
    rw [landed_mem, hpending]
    rfl
  have hdev : (landed s (retire c t id (wrt sp a bs (begun s.dev c t)))).dev =
      retire c t (gset 0 0) (begun { s.dev with mem := Memory.writeBytes s.dev.mem (spaceAddr sp a) bs } c t) := by
    have hzero : gset 0 0 = id := by
      funext x
      exact if_pos rfl
    have hclean : ({ s.dev with mem := Memory.writeBytes s.dev.mem (spaceAddr sp a) bs } : Dev) =
        { s.dev with mem := Memory.writeBytes s.dev.mem (spaceAddr sp a) bs, wr := [] } := by
      dsimp only
      rw [hwr]
    rw [hzero, hclean, ← hmem]
    rfl
  refine ⟨_, rfl, hmem, ?_⟩
  rw [hmem, hdev, retire_eq]
  exact thrU_gset_regAt c t 0 0 _ { s.dev with mem := Memory.writeBytes s.dev.mem (spaceAddr sp a) bs }

/-- Whether a store's line is one of a REMOVED rank, or of none (R463). -/
def lineGone (d : Dev) (p : GPlace) (a : Nat) : Bool :=
  match p with
  | .dram _ => match dramLoc d a with
    | some (r, _) => decide (rankSt d r = 6)
    | none => true
  | _ => false

/-- What a store does at a place outside the packet window. -/
def storeHere (c t n : Nat) (S : BitVec 5) (ea : Nat) (p : GPlace) (d : Dev) : Dev :=
  if ea % n ≠ 0 then threadFault c t 3 0 ea d
  else
    let q := placeAt d c t p
    retire c t id (if lineGone d p q.2 then d else wrt q.1 q.2 (leBytes n (greg d c t S).toNat) d)

/-- What a store does, by the place its address names. -/
def storeAt (c t n : Nat) (S : BitVec 5) (ea : Nat) (d : Dev) : Option GPlace → Dev
  | none => threadFault c t 2 0 ea d
  | some (.window _) => threadFault c t 2 0 ea d
  | some p => storeHere c t n S ea p d

theorem store_eq (c t w n : Nat) (S A : BitVec 5) (imm : BitVec 16) :
    store c t w n S A imm = issueSeq c t w fun d => storeAt c t n S (effAddr d c t A imm) d (placeOf (effAddr d c t A imm) n) := rfl

theorem storeAt_eq {d : Dev} {ea : Nat} (hwin : ∀ a, p ≠ .window a) : storeAt c t n S ea d (some p) = storeHere c t n S ea p d := by
  cases p with
  | window a => exact absurd rfl (hwin a)
  | data a => rfl
  | cluster a => rfl
  | dram a => rfl

theorem lineGone_false {d : Dev} {a : Nat} (hrank : ∀ x, p = .dram x → ∃ r o, dramLoc d a = some (r, o) ∧ rankSt d r ≠ 6) : lineGone d p a = false := by
  cases p with
  | dram x =>
    obtain ⟨r, o, hloc, hst⟩ := hrank x rfl
    simp [lineGone, hloc, hst]
  | data x => rfl
  | cluster x => rfl
  | window x => rfl

/-- What a store that issues does: its bytes, least significant first, and nothing else; the thread goes on (R504). -/
theorem store_runs {ea : Nat} (hwr : s.dev.wr = []) (hx : exec i s = store c t w n S A imm s) (hea : effAddr s.dev c t A imm = ea)
    (hp : placeOf ea n = some p) (hal : ea % n = 0) (hwin : ∀ a, p ≠ .window a)
    (hrank : ∀ a, p = .dram a → ∃ r o, dramLoc s.dev (placeAt s.dev c t p).2 = some (r, o) ∧ rankSt s.dev r ≠ 6) (hi : IssuesSeq s.dev c t w) :
    Runs i s fun d' => RegAt { s.dev with mem := d'.mem } d' c t 0 0 ((thr s.dev c t).pc + 4) ∧
      ∀ x, Memory.read d'.mem x =
        if spaceAddr (placeAt s.dev c t p).1 (placeAt s.dev c t p).2 ≤ x ∧ x < spaceAddr (placeAt s.dev c t p).1 (placeAt s.dev c t p).2 + n
        then BitVec.ofNat 8 ((greg s.dev c t S).toNat / 256 ^ (x - spaceAddr (placeAt s.dev c t p).1 (placeAt s.dev c t p).2))
        else Memory.read s.dev.mem x := by
  have hplace : placeAt (begun s.dev c t) c t p = placeAt s.dev c t p := placeAt_congr rfl rfl c t p
  have hgreg : greg (begun s.dev c t) c t S = greg s.dev c t S := greg_step _ _ _ _ _
  have hgone : lineGone (begun s.dev c t) p (placeAt s.dev c t p).2 = false := lineGone_false fun a ha => by
    rw [dramLoc_begun]
    simpa only [rankSt_begun] using hrank a ha
  have hx' := hx.trans ((congrFun (store_eq c t w n S A imm) s).trans (issueSeq_begun _ hi))
  rw [effAddr_begun, hea, hp, storeAt_eq hwin, storeHere, if_neg (not_not.mpr hal), hplace] at hx'
  dsimp only at hx'
  rw [hgone, if_neg Bool.false_ne_true, hgreg] at hx'
  obtain ⟨d', hd', hmem, hreg⟩ := landed_retire_wrt (c := c) (t := t) hwr (placeAt s.dev c t p).1 (placeAt s.dev c t p).2
    (leBytes n (greg s.dev c t S).toNat)
  refine ⟨_, hx', rfl, ?_⟩
  rw [hd']
  refine ⟨hreg, fun x => ?_⟩
  rw [hmem]
  split
  · next hin =>
    obtain ⟨k, rfl⟩ := Nat.exists_eq_add_of_le hin.1
    rw [Memory.read_writeBytes_inside _ _ _ _ (by rw [length_leBytes]; omega), getD_leBytes _ (by omega), Nat.add_sub_cancel_left]
  · next hout => exact Memory.read_writeBytes_outside _ _ _ _ (by rw [length_leBytes]; omega)

/-- Settles O43: every load and store is one of the three kinds, for its own number of bytes. -/
theorem loadsAndStoresTouchTheirBytes : Obligations.LoadsAndStoresTouchTheirBytes := by
  unfold Obligations.LoadsAndStoresTouchTheirBytes
  refine ⟨fun s c t D A imm hwr => ?_, fun s c t S A imm p hwr => ?_⟩
  · intro ea good num win
    refine ⟨fun p h => ?_, fun p h => ?_, fun p h => ?_, fun p h => ?_, fun p h => ?_, fun p h => ?_, fun p h => ?_, fun h => ?_, fun h => ?_, fun h => ?_,
      fun h => ?_⟩
    · exact load_computes _ hwr (exec_lb c t D A imm s) rfl h.1 h.2.1 h.2.2
    · exact load_computes _ hwr (exec_lbu c t D A imm s) rfl h.1 h.2.1 h.2.2
    · exact load_computes _ hwr (exec_lh c t D A imm s) rfl h.1 h.2.1 h.2.2
    · exact load_computes _ hwr (exec_lhu c t D A imm s) rfl h.1 h.2.1 h.2.2
    · exact load_computes _ hwr (exec_lw c t D A imm s) rfl h.1 h.2.1 h.2.2
    · exact load_computes _ hwr (exec_lwu c t D A imm s) rfl h.1 h.2.1 h.2.2
    · exact load_computes _ hwr (exec_ld c t D A imm s) rfl h.1 h.2.1 h.2.2
    · exact packetLoad_computes hwr (exec_plb c t D A imm s) rfl h
    · exact packetLoad_computes hwr (exec_plh c t D A imm s) rfl h
    · exact packetLoad_computes hwr (exec_plw c t D A imm s) rfl h
    · exact packetLoad_computes hwr (exec_pld c t D A imm s) rfl h
  · intro ea good at_ stored
    refine ⟨fun h => ?_, fun h => ?_, fun h => ?_, fun h => ?_⟩
    · exact store_runs hwr (exec_sb c t S A imm s) rfl h.1 h.2.1 h.2.2.1 h.2.2.2
    · exact store_runs hwr (exec_sh c t S A imm s) rfl h.1 h.2.1 h.2.2.1 h.2.2.2
    · exact store_runs hwr (exec_sw c t S A imm s) rfl h.1 h.2.1 h.2.2.1 h.2.2.2
    · exact store_runs hwr (exec_sd c t S A imm s) rfl h.1 h.2.1 h.2.2.1 h.2.2.2

end Sys2Proof.Machine

/-! SUPPORT. Branches and jumps of Givik threads (R506). -/

namespace Sys2Proof.Machine
open Sys2Proof

variable {i : Instr} {s : State} {c t w n : Nat} {D A B : BitVec 5} {v : BitVec 64} {off : BitVec 16}

theorem pc_begun (d : Dev) : (thr (begun d c t) c t).pc = (thr d c t).pc := by
  unfold begun
  rw [thr_thrU_self]

/-- A jump into instruction memory, with what it writes to a register. -/
theorem jumpTo_regAt (hwr : s.dev.wr = []) (hn : n ≤ 0x1FFFC) (D : BitVec 5) (v : BitVec 64) :
    RegAt s.dev (landed s (jumpTo c t (n : Int) (gset D v) (begun s.dev c t))).dev c t D v n := by
  have hin : (0 : Int) ≤ n ∧ (n : Int) ≤ 0x1FFFC := by omega
  unfold jumpTo
  rw [if_pos hin, Int.toNat_natCast]
  exact (thrU_gset_regAt c t D v n s.dev).landed hwr

/-- An instruction that, once issued, jumps to `target`. -/
theorem goes_of_jump {target : Int} (f : Dev → Dev) (hwr : s.dev.wr = []) (hn : n ≤ 0x1FFFC) (hx : exec i s = issue c t w f s)
    (hf : f (begun s.dev c t) = jumpTo c t target (gset D v) (begun s.dev c t)) (ht : target = n) (hi : Issues s.dev c t w) :
    Runs i s fun d' => RegAt s.dev d' c t D v n := by
  refine ⟨_, hx.trans (issue_runs f hi), rfl, ?_⟩
  rw [hf, ht]
  exact jumpTo_regAt hwr hn D v

theorem gset_zero : gset 0 0 = id := by
  funext x
  exact if_pos rfl

/-- A branch that issues goes to the target it chooses. -/
theorem goes_of_branch {taken : Prop} [Decidable taken] (p : BitVec 64 → BitVec 64 → Bool) (hwr : s.dev.wr = []) (hn : n ≤ 0x1FFFC)
    (hx : exec i s = branch c t w A B off p s) (hp : p (greg s.dev c t A) (greg s.dev c t B) = decide taken)
    (ht : (if taken then ((thr s.dev c t).pc : Int) + 4 * off.toInt else (thr s.dev c t).pc + 4) = n) (hi : Issues s.dev c t w) :
    Runs i s fun d' => RegAt s.dev d' c t 0 0 n := by
  refine goes_of_jump _ hwr hn hx ?_ ht hi
  dsimp only
  rw [greg_step, greg_step, hp, pc_begun, gset_zero]
  simp only [decide_eq_true_eq]

/-- Settles O44: every branch and jump goes to the target it chooses, which lies in instruction memory. -/
theorem branchesAndJumpsSetThePc : Obligations.BranchesAndJumpsSetThePc := by
  unfold Obligations.BranchesAndJumpsSetThePc
  intro s c t D A B off far n hwr hn a b pc goes rel
  refine ⟨fun ht hi => ?_, fun ht hi => ?_, fun ht hi => ?_, fun ht hi => ?_, fun ht hi => ?_, fun ht hi => ?_, fun ht hi => ?_, fun ht hi => ?_,
    fun ht hi => ?_⟩
  · exact goes_of_branch _ hwr hn (exec_beq c t A B off s) rfl ht hi
  · exact goes_of_branch _ hwr hn (exec_bne c t A B off s) (decide_not ..).symm ht hi
  · exact goes_of_branch _ hwr hn (exec_blt c t A B off s) rfl ht hi
  · exact goes_of_branch _ hwr hn (exec_bge c t A B off s) ((decide_not ..).symm.trans (decide_eq_decide.mpr not_lt)) ht hi
  · exact goes_of_branch _ hwr hn (exec_bltu c t A B off s) rfl ht hi
  · exact goes_of_branch _ hwr hn (exec_bgeu c t A B off s) ((decide_not ..).symm.trans (decide_eq_decide.mpr not_lt)) ht hi
  · exact goes_of_jump _ hwr hn (exec_j c t far s) (by rw [pc_begun, gset_zero]) ht hi
  · exact goes_of_jump _ hwr hn (exec_jal c t far s) (by rw [pc_begun]) ht hi
  · exact goes_of_jump _ hwr hn (exec_jalr c t D A off s) (by rw [pc_begun, greg_step]; rfl) ht hi

end Sys2Proof.Machine

/-! SUPPORT. The keystone's and the channels' instructions (R482–R484, R487, R508, R509). -/

namespace Sys2Proof.Machine
open Sys2Proof

variable {s : State} {c t : Nat}

@[simp] theorem glock_retire (g : GThr → GThr) (d : Dev) (c' n : Nat) : glock (retire c t g d) c' n = glock d c' n := glock_thrU _ _ _ _ _ _
@[simp] theorem gevent_retire (g : GThr → GThr) (d : Dev) (c' n : Nat) : gevent (retire c t g d) c' n = gevent d c' n := gevent_thrU _ _ _ _ _ _
@[simp] theorem gtimer_retire (g : GThr → GThr) (d : Dev) (c' n : Nat) : gtimer (retire c t g d) c' n = gtimer d c' n := gtimer_thrU _ _ _ _ _ _
@[simp] theorem gchan_retire (g : GThr → GThr) (d : Dev) (c' n : Nat) : gchan (retire c t g d) c' n = gchan d c' n := gchan_thrU _ _ _ _ _ _

@[simp] theorem thr_retire_self (g : GThr → GThr) (d : Dev) : thr (retire c t g d) c t = { g (thr d c t) with pc := (thr d c t).pc + 4 } :=
  thr_thrU_self _ _ _ _

theorem thr_retire_ne {u : Nat} (g : GThr → GThr) (d : Dev) (h : u ≠ t) : thr (retire c t g d) c u = thr d c u := thr_thrU_ne _ _ _ _ _ h

theorem rep_begun (d : Dev) (i k : Nat) : rep (begun d c t) i k = rep d i k := rfl

theorem strPresent_begun (d : Dev) (k : Nat) : strPresent (begun d c t) k = strPresent d k := rfl

theorem gCycle_begun (d : Dev) : gCycle (begun d c t) = gCycle d := rfl

theorem now_begun (d : Dev) : now (begun d c t) = now d := rfl

theorem armTimer_later (n : Nat) (x : GTimer) (d : Dev) : armTimer c n x false d = gtimerW c n (some x) d := rfl

theorem thrU_congr {d : Dev} {f g : GThr → GThr} (h : f (thr d c t) = g (thr d c t)) : thrU c t f d = thrU c t g d := by
  unfold thr clu at h
  unfold thrU cluU Tbl.upd
  simp only [h]

/-- A running thread that reads a word of a committed message is as one that writes a register (R509). -/
theorem retire_running {d : Dev} {D : BitVec 5} {v : BitVec 64} (h : (thr d c t).st = .running) :
    retire c t (fun x => { gset D v x with st := .running }) d = retire c t (gset D v) d := by
  have hst : (gset D v (thr d c t)).st = .running := by rw [gset_thr, h]
  exact thrU_congr (by rw [← hst])

theorem running_of_issues {d : Dev} {w : Nat} (h : IssuesSeq d c t w) : (thr (begun d c t) c t).st = .running := by
  obtain ⟨⟨hmay, -⟩, -⟩ := h
  have hst : (thr d c t).st = .running := by
    unfold mayIssue at hmay
    simp only [Bool.and_eq_true, decide_eq_true_eq] at hmay
    exact hmay.1.1.1.1
  rw [thr_thrU_self, hst]

/-- A register just written, unless it is g0. -/
theorem greg_of_gset {d : Dev} {D : BitVec 5} {v : BitVec 64} {x y : GThr} (hx : thr d c t = x) (hr : x.regs = (gset D v y).regs) (hD : D ≠ 0) :
    greg d c t D = v := by
  unfold greg
  rw [if_neg hD, hx, hr, gset_nz _ _ _ hD]

/-- No wait-for cycle closes at a running thread (R485). -/
theorem waitChain_of_running {d : Dev} {o : Nat} (k : Nat) (hne : o ≠ t) (hrun : (thr d c o).st = .running) : waitChain d c t (k + 1) o = none := by
  unfold waitChain
  rw [if_neg hne, hrun]

/-- Settles O45: each instruction is its unit's operation and what it does to the thread, read off by the rules of both. -/
theorem keystoneAndChannelInstructionsActOnTheirUnit : Obligations.KeystoneAndChannelInstructionsActOnTheirUnit := by
  unfold Obligations.KeystoneAndChannelInstructionsActOnTheirUnit
  refine ⟨fun s c t D A k n hwr hn => ?_, fun s c t D A w k n hwr hn hlim => ?_⟩
  · intro d x l e sec ns v2 dl v
    subst v dl v2 ns sec e l x d
    refine ⟨fun hl ho hi => ?_, fun o hl ho hne hrun hi => ?_, fun hl ho hi => ?_, fun o hl ho hne hi => ?_, fun hl ho hw hi => ?_,
      fun w rest hl ho hw hne hi => ?_, fun hl hc hi => ?_, fun hl hc hi => ?_, fun hl hw hc hi => ?_, fun hl hp hns hdl hi => ?_,
      fun hl hv hi => ?_⟩
    · refine unitOp_runs _ (exec_acq c t A k s) hi hn hl ?_
      simp [ho, takeLock]
    · refine unitOp_runs _ (exec_acq c t A k s) hi hn hl ?_
      have hrun' (g : GThr → GThr) (f : GLock → GLock) (h : GThr → GThr) : (thr (thrU c t g (glockU c n f (thrU c t h s.dev))) c o).st = .running := by
        rw [thr_thrU_ne _ _ _ _ _ hne, thr_glockU, thr_thrU_ne _ _ _ _ _ hne, hrun]
      simp [ho, hne, waitChain_of_running 63 hne (hrun' _ _ _)]
    · refine unitOp_runs _ (exec_tacq c t D A k s) hi hn hl ?_
      simp only [glock_thrU, ho, takeLock]
      refine ⟨?_, fun hD => greg_of_gset (thr_landed _ _ _ _ |>.trans (thr_retire_self _ _)) rfl hD, ?_, ?_⟩ <;> simp
    · refine unitOp_runs _ (exec_tacq c t D A k s) hi hn hl ?_
      simp only [glock_thrU, ho, if_neg hne]
      refine ⟨?_, fun hD => greg_of_gset (thr_landed _ _ _ _ |>.trans (thr_retire_self _ _)) rfl hD, ?_, ?_⟩ <;> simp
    · refine unitOp_runs _ (exec_rel c t A k s) hi hn hl ?_
      simp [ho, passLock, hw]
    · refine unitOp_runs _ (exec_rel c t A k s) hi hn hl ?_
      simp [ho, passLock, hw, thr_retire_ne _ _ hne, thr_thrU_ne _ _ _ _ _ hne.symm]
    · refine unitOp_runs _ (exec_wait c t A k s) hi hn hl ?_
      simp [hc]
    · refine unitOp_runs _ (exec_wait c t A k s) hi hn hl ?_
      simp [hc]
    · refine unitOp_runs _ (exec_sig c t A k s) hi hn hl ?_
      simp [hc, hw, signalEvent]
    · refine unitOp_runs _ (exec_tmrs c t D A k s) hi hn hl ?_
      have hin : ¬((!strPresent s.dev (bitsOf (greg s.dev c t (D + 2)).toNat 26 24)) = true ∨ 1000000000 ≤ (greg s.dev c t (D + 1)).toNat % 2 ^ 32) := by
        rw [hp]
        simpa using hns
      dsimp only
      rw [greg_step, greg_step, greg_step, strPresent_begun, if_neg hin, rep_begun, decide_eq_false (not_le.mpr hdl), armTimer_later]
      refine ⟨?_, ?_⟩
      · rw [gtimer_landed, gtimer_retire, gtimer_self]
      · simp
    · refine unitOp_runs _ (exec_tmrc c t D A k s) hi hn hl ?_
      dsimp only
      rw [greg_step, gCycle_begun, decide_eq_false hv, armTimer_later]
      refine ⟨?_, ?_⟩
      · rw [gtimer_landed, gtimer_retire, gtimer_self]
      · simp
  · intro d x h v
    subst v h x d
    refine ⟨fun hlost ho hcm hw hi => ?_, fun hlost ho hlen hi => ?_, fun o hlost ho hne hi => ?_, fun hlost ho hi => ?_, fun hlost hi => ?_,
      fun hcm hi => ?_, fun hcm hi => ?_, fun hcm hw hi => ?_, fun m b hst hg hhalt hcore hon hover => ?_⟩
    · refine unitOp_runs _ (exec_chw c t D A k s) hi hn hlim ?_
      simp [hlost, ho, hcm, hw, now_begun]
    · refine unitOp_runs _ (exec_chw c t D A k s) hi hn hlim ?_
      simp [hlost, ho, Nat.not_le.mpr hlen]
    · refine unitOp_runs _ (exec_chw c t D A k s) hi hn hlim ?_
      simp [hlost, ho, hne]
    · refine unitOp_runs _ (exec_chc c t A k s) hi hn hlim ?_
      simp [hlost, ho]
    · refine unitOp_runs _ (exec_chc c t A k s) hi hn hlim ?_
      simp [hlost]
    · refine unitOp_runs _ (exec_chr c t D A w k s) hi hn hlim ?_
      rw [gchan_thrU, if_pos hcm, readChan]
      dsimp only
      rw [if_neg Bool.false_ne_true, retire_running (running_of_issues hi), gchan_thrU, retire_eq]
      exact (thrU_gset_regAt c t D _ _ s.dev).landed hwr
    · refine unitOp_runs _ (exec_chr c t D A w k s) hi hn hlim ?_
      simp [hcm]
    · refine unitOp_runs _ (exec_chrl c t D A w k s) hi hn hlim ?_
      rw [gchan_thrU, if_pos hcm, readChan]
      dsimp only
      rw [if_pos rfl, retire_running (running_of_issues hi), gchan_thrU, freeChan]
      simp only [gchan_retire, gchan_thrU, hw]
      refine ⟨?_, fun hD => greg_of_gset (y := thr (begun s.dev c t) c t)
        ((thr_landed _ _ _ _).trans ((thr_gchanU _ _ _ _ _ _).trans (thr_retire_self _ _))) rfl hD, ?_⟩
      · simp [hw]
      · simp
    · refine runs_of_lift (exec_keystoneWake c t s) ?_
      have hgo : ((thr s.dev c t).halted && !(thr s.dev c t).step || coreStopped s.dev c (t / 8) || !(islandOn s.dev (gIsland c)) ||
          overdue s.dev (thr s.dev c t)) = false := by
        rcases hhalt with h | h <;> simp [h, hcore, hon, hover]
      simp only [hgo, hst, hg, Bool.false_eq_true, if_false]
      have honly := thrU_only c t (fun x => { ({ x with broken := b, st := .running, granted := none, step := false } : GThr) with pc := x.pc + 4 }) s.dev
      refine ⟨?_, ?_⟩
      · exact (honly.landed hwr).symm ▸ honly
      · rw [thr_landed, thr_retire_self]

end Sys2Proof.Machine

/-! SUPPORT. What a frame on its way through the device, and its record, may touch. -/

namespace Sys2Proof.Machine
open Sys2Proof

variable {d e f : Dev}

/-- The two devices agree on all that carrying and recording a frame leaves alone. -/
def Carries (d d' : Dev) : Prop :=
  d' = { d with
    regs := d'.regs, ctrs := d'.ctrs, wr := d'.wr, out := d'.out, fns := d'.fns, wit := d'.wit, xings := d'.xings, doms := d'.doms,
    strs := d'.strs, comps := d'.comps }

theorem Carries.refl (d : Dev) : Carries d d := rfl

theorem Carries.trans (h : Carries d e) (h' : Carries e f) : Carries d f := by
  unfold Carries at *
  rw [h', h]

theorem Posts.carries (h : Posts d e) : Carries d e := by
  unfold Posts at h
  unfold Carries
  rw [h]

theorem carries_ite {p : Prop} [Decidable p] {a b : Dev} (ha : Carries d a) (hb : Carries d b) : Carries d (if p then a else b) := by
  split <;> assumption

theorem Carries.clusters (h : Carries d e) : e.clusters = d.clusters := (congrArg Dev.clusters h :)
theorem Carries.stopped (h : Carries d e) : e.stopped = d.stopped := (congrArg Dev.stopped h :)

theorem carries_witU (g : Wit → Wit) (d : Dev) : Carries d (witU g d) := rfl

theorem carries_ctrInc (k : Nat) (d : Dev) : Carries d (ctrInc k d) := (posts_ctrInc k d).carries

/-! ### Records -/

theorem carries_callCapstone (cut : Bool) (e last : Nat) (d : Dev) : Carries d (callCapstone cut e last d) := by
  have hperiod (i : Nat) (d : Dev) : Carries d (newPeriod i d) := rfl
  have hperiods (l : List Nat) : Carries d (l.foldl (fun d i => newPeriod i d) d) :=
    foldl_keeps Carries.refl (fun h h' => h.trans h') (fun d i => hperiod i d) l d
  exact (hperiods (List.range (numStrings d.variant))).trans rfl

theorem carries_closeAshlar (fl c o : Nat) (r : Bool) (d : Dev) : Carries d (closeAshlar fl c o r d) := by
  unfold closeAshlar
  split
  · exact .refl d
  · exact carries_witU _ d

theorem carries_cutAshlar (r : Bool) (d : Dev) : Carries d (cutAshlar r d) := by
  unfold cutAshlar
  split
  · exact .refl d
  · exact (carries_closeAshlar _ _ _ _ d).trans (carries_callCapstone _ _ _ _)

theorem carries_cutFull (d : Dev) : Carries d (cutFull d) := by
  unfold cutFull
  split
  · exact carries_ite (carries_cutAshlar true d) (.refl d)
  · exact .refl d

theorem carries_addRec (b : Bytes) (co : Option (Nat × Nat)) (h : Nat) (d : Dev) : Carries d (addRec b co h d) := by
  unfold addRec
  split
  · exact (carries_witU _ d).trans (carries_ctrInc _ _)
  · exact ((carries_witU _ d).trans (carries_ctrInc _ _)).trans (carries_cutFull _)

theorem carries_completeRec (i : Nat) (g : Bytes → Bytes) (co : Option (Nat × Nat)) (d : Dev) : Carries d (completeRec i g co d) := by
  unfold completeRec
  split
  · exact (carries_witU _ d).trans (carries_addRec _ _ _ _)
  · exact .refl d

theorem carries_completeOpt (i : Option Nat) (g : Bytes → Bytes) (co : Option (Nat × Nat)) (d : Dev) : Carries d (completeOpt i g co d) := by
  unfold completeOpt
  split
  · exact carries_completeRec _ _ _ d
  · exact .refl d

theorem carries_dropOldest (d : Dev) : Carries d (dropOldest d) := rfl

theorem carries_reclaim (d : Dev) : Carries d (reclaim d) :=
  foldl_keeps Carries.refl (fun h h' => h.trans h') (fun e _ => carries_ite (.refl e) (carries_dropOldest e)) _ d

theorem carries_startGap (cause : Nat) (d : Dev) : Carries d (startGap cause d) := by
  unfold startGap
  split
  · exact .refl d
  · exact ((carries_witU _ d).trans (posts_bitW _ _ _ _).carries).trans (posts_postDev _ _ _).carries

theorem carries_beginRec (bs : Bytes) (src : Nat) (ingress : Bool) (d : Dev) : Carries d (beginRec bs src ingress d).2 := by
  unfold beginRec
  split
  · exact .refl d
  · split
    · exact (carries_witU _ d).trans (carries_ctrInc _ _)
    · split
      · exact (carries_witU _ d).trans (carries_ctrInc _ _)
      · dsimp only
        split
        · exact (carries_reclaim d).trans rfl
        · exact ((carries_reclaim d).trans (carries_startGap 1 _)).trans rfl

theorem carries_writeRec (bs : Bytes) (src : Nat) (d : Dev) : Carries d (writeRec bs src d).2 := by
  have hbegin := carries_beginRec bs src false d
  unfold writeRec
  split
  · next hmade =>
    rw [hmade] at hbegin
    exact hbegin.trans (carries_completeRec _ _ _ _)
  · next hnone =>
    rw [hnone] at hbegin
    exact hbegin

/-! ### Delivery -/

theorem carries_deliveryDrop (x : Frame) (d : Dev) : Carries d (deliveryDrop x d) := by
  unfold deliveryDrop noteUndelivered
  split
  · exact (carries_ctrInc _ d).trans (carries_ite rfl (.refl _))
  · exact .refl d

theorem carries_send (src dst : Nat) (it : Item) (d : Dev) : Carries d (send src dst it d) := by
  have hdoms (ds : List (Nat × Dom)) : Carries d { d with doms := ds } := rfl
  unfold send discardN
  exact carries_ite rfl ((hdoms _).trans (posts_bitW _ _ _ _).carries)

theorem carries_sendOr (src dst : Nat) (it : Item) (x : Frame) (d : Dev) : Carries d (sendOr src dst it x d) := by
  unfold sendOr
  exact carries_ite (carries_send src dst it d) ((carries_send src dst it d).trans (carries_deliveryDrop x _))

theorem carries_deliver (src : Nat) (x : Frame) (d : Dev) : Carries d (deliver src x d) := by
  have hdrop : Carries d (deliveryDrop x (ctrInc 0x900120 d)) := (carries_ctrInc _ d).trans (carries_deliveryDrop x _)
  unfold deliver
  split
  · split
    · exact carries_sendOr _ _ _ _ _
    · exact hdrop
  · exact carries_ite (carries_sendOr _ _ _ _ _) hdrop
  · exact carries_sendOr _ _ _ _ _
  · exact .refl d

theorem carries_finishRec (x : Frame) (dropped : Bool) (d : Dev) : Carries d (finishRec x dropped d) := carries_completeOpt _ _ _ d

theorem carries_toCourse (src c : Nat) (x : Frame) (d : Dev) : Carries d (toCourse src c x d) := by
  unfold toCourse
  exact carries_ite (carries_send _ _ _ d) ((carries_ctrInc _ d).trans (carries_finishRec _ _ _))

theorem carries_freeSlot (x : Frame) (d : Dev) : Carries d (freeSlot x d) := by
  unfold freeSlot
  split
  · exact (posts_fnU _ _ d).carries
  · exact .refl d

theorem carries_noteKind (x : Frame) (d : Dev) : Carries d (noteKind x d) := by
  unfold noteKind
  split
  · exact carries_witU _ d
  · exact .refl d

theorem carries_gateDrop (x : Frame) (d : Dev) : Carries d (gateDrop x d) := (carries_freeSlot x d).trans (carries_finishRec x true _)

theorem carries_gatePass (src g : Nat) (x : Frame) (d : Dev) : Carries d (gatePass src g x d) := by
  unfold gatePass
  refine (carries_freeSlot x d).trans ?_
  dsimp only
  split
  · exact (carries_noteKind _ _).trans (carries_toCourse _ _ _ _)
  · exact (carries_finishRec _ _ _).trans (carries_deliver _ _ _)

theorem carries_gateFail (src g : Nat) (x : Frame) (d : Dev) : Carries d (gateFail src g x d) :=
  carries_ite (carries_gatePass _ _ _ d) (carries_gateDrop _ d)

end Sys2Proof.Machine

/-! SUPPORT. Faults and halts of threads; lookups, time, work and special registers (R477, R488, R492, R507, R510–R513). -/

namespace Sys2Proof.Machine
open Sys2Proof

variable {s : State} {c t : Nat}

/-! ### Registers a result pair or triple goes to -/

theorem bitsOf_encK (op fn : Nat) (D A : BitVec 5) (k : BitVec 12) (hop : op < 64) (hfn : fn < 16) :
    bitsOf (encK op D A fn k) 31 26 = op ∧ bitsOf (encK op D A fn k) 25 21 = D.toNat := by
  have hD := D.isLt
  have hA := A.isLt
  have hk := k.isLt
  unfold bitsOf encK
  simp only [Nat.shiftRight_eq_div_pow]
  omega

/-- A LKUP names a register that has one behind it (R507). -/
theorem pair_of_legal {D A : BitVec 5} {k : BitVec 12} (h : legalWord (encK 0x30 D A 0 k) = true) : D ≠ 0 ∧ D + 1 ≠ 0 ∧ D + 1 ≠ D := by
  obtain ⟨hop, hdd⟩ := bitsOf_encK 0x30 0 D A k (by decide) (by decide)
  have hD : 1 ≤ D.toNat ∧ D.toNat ≤ 30 := by
    unfold legalWord at h
    rw [hop, hdd] at h
    simp only [Nat.reduceEqDiff, Nat.reduceLeDiff, if_false, if_true, and_false, decide_eq_true_eq] at h
    exact h.2.2
  refine ⟨?_, ?_, ?_⟩ <;> bv_omega

/-- A TRD names a register that has two behind it (R510). -/
theorem triple_of_legal {D A : BitVec 5} {k : BitVec 12} (h : legalWord (encK 0x33 D A 0 k) = true) :
    D ≠ 0 ∧ D + 1 ≠ 0 ∧ D + 2 ≠ 0 ∧ D + 1 ≠ D ∧ D + 2 ≠ D ∧ D + 2 ≠ D + 1 := by
  obtain ⟨hop, hdd⟩ := bitsOf_encK 0x33 0 D A k (by decide) (by decide)
  have hD : 1 ≤ D.toNat ∧ D.toNat ≤ 29 := by
    unfold legalWord at h
    rw [hop, hdd] at h
    simp only [Nat.reduceEqDiff, Nat.reduceLeDiff, if_false, if_true, and_false, decide_eq_true_eq] at h
    exact h.2.2.2
  refine ⟨?_, ?_, ?_, ?_, ?_, ?_⟩ <;> bv_omega

theorem gset_ne {D q : BitVec 5} (v : BitVec 64) (x : GThr) (h : q ≠ D) :
    Tbl.get (fun _ => 0) (gset D v x).regs q.toNat = Tbl.get (fun _ => 0) x.regs q.toNat := by
  unfold gset
  split
  · rfl
  · exact Tbl.get_set_ne _ _ _ _ _ fun he => h (BitVec.eq_of_toNat_eq he)

theorem greg_thrU_self (q : BitVec 5) (g : GThr → GThr) (d : Dev) :
    greg (thrU c t g d) c t q = if q = 0 then 0 else Tbl.get (fun _ => 0) (g (thr d c t)).regs q.toNat := by
  unfold greg
  rw [thr_thrU_self]

/-- What a pair of results leaves in its registers. -/
theorem greg_pair {D : BitVec 5} {lo hi : BitVec 64} {g : GThr → GThr} {d : Dev} (hregs : (g (thr d c t)).regs = (gset (D + 1) hi (gset D lo (thr d c t))).regs)
    (h0 : D ≠ 0) (h1 : D + 1 ≠ 0) (hne : D + 1 ≠ D) : greg (thrU c t g d) c t D = lo ∧ greg (thrU c t g d) c t (D + 1) = hi := by
  rw [greg_thrU_self, greg_thrU_self, hregs, if_neg h0, if_neg h1, gset_ne _ _ hne.symm, gset_nz _ _ _ h0, gset_nz _ _ _ h1]
  exact ⟨rfl, rfl⟩

/-- What an instruction that goes on with a register written lands on. -/
theorem runs_of_retire {i : Instr} {w : Nat} {f : Dev → Dev} {g : GThr → GThr} {P : Dev → Prop} (hwr : s.dev.wr = []) (hx : exec i s = issueSeq c t w f s)
    (hi : IssuesSeq s.dev c t w) (hf : f (begun s.dev c t) = retire c t g (begun s.dev c t))
    (hP : P (retire c t g (begun s.dev c t))) : Runs i s P := by
  refine ⟨_, hx.trans (issueSeq_begun f hi), rfl, ?_⟩
  have honly : OnlyThread s.dev (retire c t g (begun s.dev c t)) c t := (thrU_only _ _ _ _).trans (thrU_only _ _ _ _)
  rw [hf, honly.landed hwr]
  exact hP

theorem onlyThread_retire (g : GThr → GThr) (d : Dev) : OnlyThread d (retire c t g (begun d c t)) c t :=
  (thrU_only _ _ _ _).trans (thrU_only _ _ _ _)

/-! ### Faults stop the core and count (R488) -/

/-- The devices have the same cores stopped, and their cores have had the same faults. -/
def SameFaults (d e : Dev) : Prop := e.stopped = d.stopped ∧ ∀ c k, (gcore e c k).faults = (gcore d c k).faults

theorem SameFaults.refl (d : Dev) : SameFaults d d := ⟨rfl, fun _ _ => rfl⟩

theorem SameFaults.trans {d e f : Dev} (h : SameFaults d e) (h' : SameFaults e f) : SameFaults d f :=
  ⟨h'.1.trans h.1, fun c k => (h'.2 c k).trans (h.2 c k)⟩

theorem sameFaults_of_clusters {d e : Dev} (hs : e.stopped = d.stopped) (hc : e.clusters = d.clusters) : SameFaults d e :=
  ⟨hs, fun c k => by rw [gcore, gcore, clu, clu, hc]⟩

theorem Carries.sameFaults {d e : Dev} (h : Carries d e) : SameFaults d e := sameFaults_of_clusters h.stopped h.clusters

/-- A change of a cluster that leaves its cores as they are. -/
theorem sameFaults_cluU (c : Nat) {f : GClu → GClu} (hf : ∀ x k, (Tbl.get (fun _ => ({} : GCore)) (f x).cores k).faults = (Tbl.get (fun _ => ({} : GCore)) x.cores k).faults) (d : Dev) :
    SameFaults d (cluU c f d) := by
  refine ⟨rfl, fun c' k => ?_⟩
  unfold gcore
  by_cases hc : c' = c
  · rw [hc, clu_cluU_self, hf]
  · rw [clu_cluU_ne _ _ _ _ hc]

theorem sameFaults_thrU (c t : Nat) (g : GThr → GThr) (d : Dev) : SameFaults d (thrU c t g d) :=
  sameFaults_cluU c (f := fun x => { x with thrs := Tbl.upd (fun _ => {}) x.thrs t g, lastAct := d.time.tick }) (fun _ _ => rfl) d

theorem sameFaults_glockU (c n : Nat) (g : GLock → GLock) (d : Dev) : SameFaults d (glockU c n g d) :=
  sameFaults_cluU c (f := fun x => { x with locks := Tbl.upd (fun _ => {}) x.locks n g }) (fun _ _ => rfl) d

theorem sameFaults_gchanU (c n : Nat) (g : GChan → GChan) (d : Dev) : SameFaults d (gchanU c n g d) :=
  sameFaults_cluU c (f := fun x => { x with chans := Tbl.upd (fun _ => {}) x.chans n g }) (fun _ _ => rfl) d

theorem sameFaults_ite {p : Prop} [Decidable p] {d a b : Dev} (ha : SameFaults d a) (hb : SameFaults d b) : SameFaults d (if p then a else b) := by
  split <;> assumption

theorem sameFaults_foldl {α : Type} {g : Dev → α → Dev} (hstep : ∀ d a, SameFaults d (g d a)) (l : List α) (d : Dev) : SameFaults d (l.foldl g d) :=
  foldl_keeps SameFaults.refl (fun h h' => h.trans h') hstep l d

theorem sameFaults_passLock (c n : Nat) (broken : Bool) (d : Dev) : SameFaults d (passLock c n broken d) := by
  unfold passLock
  split
  · exact sameFaults_glockU _ _ _ _
  · exact (sameFaults_glockU _ _ _ _).trans (sameFaults_thrU _ _ _ _)

theorem sameFaults_freeChan (c n : Nat) (d : Dev) : SameFaults d (freeChan c n d) := by
  unfold freeChan
  dsimp only
  split
  · exact sameFaults_gchanU _ _ _ _
  · exact (sameFaults_gchanU _ _ _ _).trans (sameFaults_thrU _ _ _ _)

theorem sameFaults_leaveWaits (c t : Nat) (d : Dev) : SameFaults d (leaveWaits c t d) := by
  unfold leaveWaits
  refine sameFaults_cluU c (fun x k => ?_) d
  rfl

theorem sameFaults_applyPaired (c k : Nat) (d : Dev) : SameFaults d (applyPaired c k d) := by
  refine sameFaults_ite (.refl d) (sameFaults_cluU c (fun x k' => ?_) d)
  by_cases hk : k' = k
  · rw [hk, Tbl.get_upd_self]
  · rw [Tbl.get_upd_ne _ _ _ _ _ hk]

theorem sameFaults_startThread (c t : Nat) (d : Dev) : SameFaults d (startThread c t d) := by
  unfold startThread
  dsimp only
  split <;> exact sameFaults_thrU _ _ _ _

theorem sameFaults_dropItem (c t : Nat) (d : Dev) : SameFaults d (dropItem c t d) :=
  have hdrop := (sameFaults_thrU c t (fun x => { x with item := none }) d).trans (sameFaults_applyPaired c (t / 8) _)
  sameFaults_ite (hdrop.trans (sameFaults_startThread c t _)) hdrop

theorem sameFaults_decideItem (c t off : Nat) {f : GItem → Dev → Dev} (hf : ∀ i d, Carries d (f i d)) (d : Dev) : SameFaults d (decideItem c t off f d) := by
  unfold decideItem
  split
  · exact .refl d
  · exact ((sameFaults_dropItem c t d).trans (carries_ctrInc _ _).sameFaults).trans (hf _ _).sameFaults

theorem Logs.sameFaults {d e : Dev} (h : Logs d e) : SameFaults d e := sameFaults_of_clusters (congrArg Dev.stopped h :) h.clusters

/-- What follows a core's stop: its threads leave what they wait for, its work items fail, its locks and channels go on (R488). -/
def coreUnwound (c : Nat) (ts items locks chans : List Nat) (d : Dev) : Dev :=
  let d := ts.foldl (fun d t => thrU c t (fun x => { x with st := if x.st = .idle then .idle else .running, granted := none, step := false, moved := false }) (leaveWaits c t d)) d
  let d := items.foldl (fun d t => decideItem c t 0x28 (failItem c) d) d
  let d := ts.foldl (fun d t => thrU c t (fun x => { x with st := if x.st = .idle then .idle else .running }) d) d
  let d := locks.foldl (fun d n => passLock c n true d) d
  let d := chans.foldl (fun d n => freeChan c n (ctrInc (gvKey c 0xC08) d)) d
  ctrAdd (gvKey c 0xC18) locks.length (ctrInc (gvKey c 0xC10) d)

theorem sameFaults_coreUnwound (c : Nat) (ts items locks chans : List Nat) (d : Dev) : SameFaults d (coreUnwound c ts items locks chans d) := by
  have hctr (k n : Nat) (d : Dev) : SameFaults d (ctrAdd k n d) := sameFaults_of_clusters rfl rfl
  unfold coreUnwound
  refine .trans (.trans (.trans (.trans (.trans (.trans
    (sameFaults_foldl (fun d t => (sameFaults_leaveWaits c t d).trans (sameFaults_thrU _ _ _ _)) ts d)
    (sameFaults_foldl (fun d t => sameFaults_decideItem c t 0x28 (fun i d => carries_gateFail _ _ _ d) d) items _))
    (sameFaults_foldl (fun d t => sameFaults_thrU _ _ _ d) ts _))
    (sameFaults_foldl (fun d n => sameFaults_passLock c n true d) locks _))
    (sameFaults_foldl (fun d n => (hctr _ _ d).trans (sameFaults_freeChan c n _)) chans _)) (hctr _ _ _)) (hctr _ _ _)

/-- What a core that stops notes of its fault. -/
def coreNoted (c k cause thread : Nat) (r : Bytes) (n : Nat) (d : Dev) : Dev :=
  let d := gcoreU c k (fun x => { x with fault := r, faults := n }) d
  let d := loopN 16 (fun i d => regW (gvKey c (0x400 + 0x40 * k + 4 * i)) (BitVec.ofNat 32 (le r (4 * i) 4)) d) d
  let pl := leBytes 1 c ++ leBytes 1 k ++ leBytes 1 cause ++ leBytes 1 thread
  postDev 0xA8 pl (logErr 1 (gIsland c) (0xA800 + cause) pl d)

theorem coreNoted_facts (c k cause thread : Nat) (r : Bytes) (n : Nat) (d : Dev) :
    (coreNoted c k cause thread r n d).stopped = d.stopped ∧ (gcore (coreNoted c k cause thread r n d) c k).faults = n := by
  have hregs (l : List Nat) (d : Dev) : Logs d (l.foldl (fun d i => regW (gvKey c (0x400 + 0x40 * k + 4 * i)) (BitVec.ofNat 32 (le r (4 * i) 4)) d) d) :=
    foldl_keeps Logs.refl (fun h h' => h.trans h') (fun d i => (posts_regW _ _ d).logs) l d
  have hlogs : Logs (gcoreU c k (fun x => { x with fault := r, faults := n }) d) (coreNoted c k cause thread r n d) :=
    ((hregs _ _).trans (logs_logErr _ _ _ _ _)).trans (posts_postDev _ _ _).logs
  refine ⟨hlogs.sameFaults.1, (hlogs.sameFaults.2 c k).trans ?_⟩
  unfold gcoreU
  rw [gcore, clu_cluU_self, Tbl.get_upd_self]

/-- A core that runs stops with a fault: it is counted (R488). -/
theorem stopCore_facts (c k cause thread detail addr : Nat) (d : Dev) (hrun : coreStopped d c k = false) (ht : thread < 8) :
    coreStopped (stopCore c k cause thread detail addr d) c k = true ∧
      (gcore (stopCore c k cause thread detail addr d) c k).faults = (gcore d c k).faults + 1 := by
  have hsplit : ∃ u, SameFaults { d with stopped := d.stopped ++ [c * 8 + k] } u ∧
      ∃ r, stopCore c k cause thread detail addr d = coreNoted c k cause thread r ((gcore u c k).faults + 1) u := by
    unfold stopCore
    rw [hrun, if_neg Bool.false_ne_true, if_pos ht]
    exact ⟨_, sameFaults_coreUnwound c _ _ _ _ _, _, rfl⟩
  obtain ⟨u, ⟨hstopped, hfaults⟩, r, hstop⟩ := hsplit
  obtain ⟨hs, hf⟩ := coreNoted_facts c k cause thread r ((gcore u c k).faults + 1) u
  rw [hstop]
  refine ⟨?_, ?_⟩
  · rw [coreStopped, hs, hstopped]
    simp
  · rw [hf, hfaults]
    rfl

theorem threadFault_facts (c t cause detail addr : Nat) (d : Dev) (hrun : coreStopped d c (t / 8) = false) :
    coreStopped (threadFault c t cause detail addr d) c (t / 8) = true ∧
      (gcore (threadFault c t cause detail addr d) c (t / 8)).faults = (gcore d c (t / 8)).faults + 1 :=
  stopCore_facts _ _ _ _ _ _ d hrun (Nat.mod_lt _ (by decide))

/-- An instruction that faults stops its core, and the fault is counted. -/
theorem stops_landed (cause detail addr : Nat) (hmay : mayIssue s.dev c t = true) :
    let d' := (landed s (threadFault c t cause detail addr (begun s.dev c t))).dev
    coreStopped d' c (t / 8) = true ∧ (gcore d' c (t / 8)).faults = (gcore s.dev c (t / 8)).faults + 1 := by
  have hrun : coreStopped (begun s.dev c t) c (t / 8) = false := by
    unfold mayIssue at hmay
    simp only [Bool.and_eq_true, Bool.not_eq_true', decide_eq_true_eq] at hmay
    exact hmay.1.1.1.2
  obtain ⟨hstop, hcount⟩ := threadFault_facts c t cause detail addr (begun s.dev c t) hrun
  exact ⟨hstop, hcount.trans (congrArg (· + 1) ((sameFaults_thrU c t _ s.dev).2 c (t / 8)))⟩

/-! ### Halts (R492) -/

theorem thr_fldW (k hi lo v : Nat) (d : Dev) : thr (fldW k hi lo v d) c t = thr d c t := rfl

theorem bitR_thrU (k i : Nat) (g : GThr → GThr) (d : Dev) : bitR (thrU c t g d) k i = bitR d k i := rfl

theorem bitR_fldW_above (k hi v j : Nat) (d : Dev) (hj : j < 32) (h : hi < j) : bitR (fldW k hi 0 v d) k j = bitR d k j := by
  simp only [bitR, fldW, regR_regW_self, Word.bit_put _ _ _ _ _ (Nat.zero_le hi) hj]
  rw [if_neg (by omega)]

theorem haltThread_facts {d : Dev} (h : (thr d c t).halted = false) :
    (thr (haltThread c t true d) c t).halted = true ∧ (thr (haltThread c t true d) c t).pc = (thr d c t).pc ∧
      ∀ j, 8 ≤ j → j < 32 → bitR (haltThread c t true d) (dbgKey c (t / 8) 4) j = bitR d (dbgKey c (t / 8) 4) j := by
  unfold haltThread
  dsimp only
  rw [h, if_neg Bool.false_ne_true, if_pos rfl, showHalted, thr_fldW, thr_thrU_self]
  refine ⟨rfl, rfl, fun j h8 h32 => ?_⟩
  rw [bitR_fldW_above _ _ _ _ _ h32 h8, bitR_thrU]

/-- A thread that halts at its core's debugger: its bit of the reasons says so. -/
theorem halts_landed {d : Dev} (h : (thr d c t).halted = false) :
    let d' := (landed s (haltThread c t true (bitW (dbgKey c (t / 8) 4) (8 + t % 8) true d))).dev
    (thr d' c t).halted = true ∧ (thr d' c t).pc = (thr d c t).pc ∧ bitR d' (dbgKey c (t / 8) 4) (8 + t % 8) = true := by
  obtain ⟨hhalt, hpc, hbit⟩ := haltThread_facts (d := bitW (dbgKey c (t / 8) 4) (8 + t % 8) true d) h
  exact ⟨hhalt, hpc, (hbit _ (by omega) (by omega)).trans (bitR_bitW_self _ _ _ _ (by omega))⟩

end Sys2Proof.Machine

/-! SUPPORT. The lookup, time, work, special-register and faulting instructions settled (R507, R510–R513). -/

namespace Sys2Proof.Machine
open Sys2Proof

variable {s : State} {c t : Nat}

/-- Where a LKUP's key lies when it may be looked up. -/
theorem rd_key {p : GPlace} (n : Nat) :
    rd (begun s.dev c t) (placeAt (begun s.dev c t) c t p).1 (placeAt (begun s.dev c t) c t p).2 n = rd s.dev (placeAt s.dev c t p).1 (placeAt s.dev c t p).2 n := by
  have hclean : rd s.dev (placeAt s.dev c t p).1 (placeAt s.dev c t p).2 n = rd (begun s.dev c t) (placeAt s.dev c t p).1 (placeAt s.dev c t p).2 n := rfl
  rw [hclean, placeAt_congr (d := s.dev) (e := begun s.dev c t) rfl rfl c t p]

theorem lookup_begun (d : Dev) (n : Nat) (key : Bytes) : lookup (begun d c t) n key = lookup d n key := rfl
theorem tblEn_begun (d : Dev) (n : Nat) : tblEn (begun d c t) n = tblEn d n := rfl
theorem tblDram_begun (d : Dev) (n : Nat) : tblDram (begun d c t) n = tblDram d n := rfl
theorem tablesOn_begun (d : Dev) : tablesOn (begun d c t) = tablesOn d := rfl

/-- What a looked-up entry gives the two registers. -/
def lkupFin (c t : Nat) (D : BitVec 5) (e : Option Bytes) (shed lp : Bool) (d : Dev) : Dev :=
  let lo := match e with | some e => BitVec.ofNat 64 (le e 48 8) | none => 0
  let hi := match e with | some e => BitVec.ofNat 64 (le e 56 8) | none => 0
  retire c t (fun x => { gset (D + 1) hi (gset D lo x) with shed := shed, lpoison := lp }) d

/-- What a LKUP does at a place its key may lie in. -/
def lkupAt (c t : Nat) (D : BitVec 5) (n a : Nat) (poisoned : Bool) (chan : Nat) (p : GPlace) (d : Dev) : Dev :=
  if a % 64 ≠ 0 then threadFault c t 3 0 a d
  else
    let key := rd d (placeAt d c t p).1 (placeAt d c t p).2 48
    if !(tblEn d n) ∨ !(tablesOn d) then lkupFin c t D none false false d
    else if !(tblDram d n) then lkupFin c t D (lookup d n key) false false d
    else
      match dramTake d with
      | (false, d) => lkupFin c t D none true false d
      | (true, d) => if poisoned then lkupFin c t D none false true (lookupPoison n chan d) else lkupFin c t D (lookup d n key) false false d

/-- Which places a LKUP's key may lie in. -/
def keyPlace (a : Nat) : Option GPlace :=
  match placeOf a 48 with
  | some (.data x) => some (GPlace.data x)
  | some (.cluster x) => some (GPlace.cluster x)
  | _ => none

theorem lkup_eq (c t : Nat) (D A : BitVec 5) (tbl : BitVec 3) (po : Bool) (ch : Nat) : execLkup c t D A tbl po ch =
    issueSeq c t (encK 0x30 D A 0 (tbl.setWidth 12)) fun d =>
      match keyPlace (greg d c t A).toNat with
      | none => threadFault c t 2 0 (greg d c t A).toNat d
      | some p => lkupAt c t D tbl.toNat (greg d c t A).toNat po ch p d := rfl

theorem keyPlace_of_ready {a : Nat} {p : GPlace} (hp : placeOf a 48 = some p) (hd : p = .data a ∨ p = .cluster (a - 0x1000000)) : keyPlace a = some p := by
  unfold keyPlace
  rw [hp]
  rcases hd with rfl | rfl <;> rfl

/-- A LKUP whose entry is known writes it to its registers and goes on (R507). -/
theorem lkup_runs {D A : BitVec 5} {tbl : BitVec 3} {po : Bool} {ch : Nat} {p : GPlace} {e : Option Bytes} {P : Dev → Prop} (hwr : s.dev.wr = [])
    (hp : placeOf (greg s.dev c t A).toNat 48 = some p)
    (hd : p = .data (greg s.dev c t A).toNat ∨ p = .cluster ((greg s.dev c t A).toNat - 0x1000000))
    (hi : IssuesSeq s.dev c t (encK 0x30 D A 0 (tbl.setWidth 12)))
    (hfin : lkupAt c t D tbl.toNat (greg s.dev c t A).toNat po ch p (begun s.dev c t) = lkupFin c t D e false false (begun s.dev c t))
    (hP : P (lkupFin c t D e false false (begun s.dev c t))) : Runs (.lkup c t D A tbl po ch) s P := by
  refine runs_of_retire hwr ((exec_lkup c t D A tbl po ch s).trans (congrFun (lkup_eq c t D A tbl po ch) s)) hi ?_ hP
  dsimp only
  rw [greg_step, keyPlace_of_ready hp hd]
  exact hfin

/-- What a LKUP leaves in its registers and its thread. -/
theorem lkupFin_facts {D : BitVec 5} {e : Option Bytes} (h0 : D ≠ 0) (h1 : D + 1 ≠ 0) (hne : D + 1 ≠ D) :
    let d' := lkupFin c t D e false false (begun s.dev c t)
    greg d' c t D = (match e with | some e => BitVec.ofNat 64 (le e 48 8) | none => 0) ∧
    greg d' c t (D + 1) = (match e with | some e => BitVec.ofNat 64 (le e 56 8) | none => 0) ∧
    (thr d' c t).shed = false ∧ (thr d' c t).lpoison = false ∧ (thr d' c t).pc = (thr s.dev c t).pc + 4 ∧ OnlyThread s.dev d' c t := by
  obtain ⟨hlo, hhi⟩ := greg_pair (c := c) (t := t) (d := begun s.dev c t)
    (g := fun x => { ({ gset (D + 1) (match e with | some e => BitVec.ofNat 64 (le e 56 8) | none => 0)
      (gset D (match e with | some e => BitVec.ofNat 64 (le e 48 8) | none => 0) x) with shed := false, lpoison := false } : GThr) with pc := x.pc + 4 }) rfl h0 h1 hne
  refine ⟨hlo, hhi, ?_, ?_, ?_, onlyThread_retire _ _⟩
  · exact congrArg GThr.shed (thr_retire_self _ _)
  · exact congrArg GThr.lpoison (thr_retire_self _ _)
  · exact (congrArg GThr.pc (thr_retire_self _ _)).trans (congrArg (· + 4) (pc_begun s.dev))

/-! ### TRD and MFS -/

theorem statusWord_begun (d : Dev) : statusWord (begun d c t) c t = statusWord d c t := by
  unfold statusWord
  rw [thr_thrU_self]
  have hcore : gcore (begun d c t) c (t / 8) = gcore d c (t / 8) := by
    unfold gcore begun thrU
    rw [clu_cluU_self]
  rw [hcore]

/-- What MFS reads of the special register `idx`, with a count's last cycle free (log 45). -/
def mfsValue (c t : Nat) (idx : BitVec 5) (h : Nat) (d : Dev) : Nat :=
  match idx.toNat with
  | 0 => statusWord d c t
  | 1 => t % 64 + c % 8 * 256
  | 2 => gCycle d - (gcore d c (t / 8)).start + h % 2
  | 3 => if (thr d c t).item.isSome then itemCycles d (thr d c t) + h % 2 else 0
  | _ => match (thr d c t).item with | some i => i.budget | none => 0

theorem mfs_eq (c t : Nat) (D idx : BitVec 5) : execMfs c t D idx = issueSeq c t (encK 0x35 D 0 0 (idx.setWidth 12)) fun d =>
    retire c t (gset D (BitVec.ofNat 64 (mfsValue c t idx (fresh d).1 (fresh d).2))) (fresh d).2 := rfl

theorem greg_retire_gset (D : BitVec 5) (v : BitVec 64) (d : Dev) : greg (retire c t (gset D v) d) c t D = if D = 0 then 0 else v := by
  refine (greg_thrU_self D _ d).trans ?_
  split
  · rfl
  · next hD => exact gset_nz D v _ hD

/-- What MFS leaves: the special register's value, the free cycle one of two. -/
theorem mfs_runs {D idx : BitVec 5} {P : Dev → Prop} (hi : IssuesSeq s.dev c t (encK 0x35 D 0 0 (idx.setWidth 12)))
    (hP : ∀ d' h, (thr d' c t).pc = (thr s.dev c t).pc + 4 →
      greg d' c t D = (if D = 0 then 0 else BitVec.ofNat 64 (mfsValue c t idx h (begun s.dev c t))) → P d') :
    Runs (.mfs c t D idx) s P := by
  refine ⟨_, (exec_mfs c t D idx s).trans ((congrFun (mfs_eq c t D idx) s).trans (issueSeq_begun _ hi)), rfl, ?_⟩
  refine hP _ (fresh (begun s.dev c t)).1 ?_ (greg_retire_gset D _ _)
  exact (congrArg GThr.pc (thr_retire_self _ _)).trans (congrArg (· + 4) (pc_begun s.dev))

/-- What TRD reads of a string's time: seconds, nanoseconds, and the fraction with its quality. -/
def trdValue (c n : Nat) (d : Dev) : Nat × Nat × Nat :=
  let x := rep d (gIsland c) n
  let v := toR17 x.t
  if strPresent d n then
    (v / 2 ^ 48, v / 2 ^ 16 % 2 ^ 32, v % 2 ^ 16 + stCode x.st * 2 ^ 16 + b2n (outOfBound d n x.u) * 2 ^ 19 + x.u * 2 ^ 32)
  else (0, 0, 0)

/-- A triple of results in the registers it goes to. -/
def gset3 (D : BitVec 5) (v : Nat × Nat × Nat) (x : GThr) : GThr :=
  gset (D + 2) (BitVec.ofNat 64 v.2.2) (gset (D + 1) (BitVec.ofNat 64 v.2.1) (gset D (BitVec.ofNat 64 v.1) x))

theorem trd_eq (c t : Nat) (D : BitVec 5) (st : BitVec 3) : execTrd c t D st = issueSeq c t (encK 0x33 D 0 0 (st.setWidth 12)) fun d =>
    retire c t (gset3 D (trdValue c st.toNat d)) d := by
  unfold execTrd gset3 trdValue
  rfl

theorem trdValue_begun (d : Dev) (n : Nat) : trdValue c n (begun d c t) = trdValue c n d := rfl

theorem trd_runs {D : BitVec 5} {st : BitVec 3} {P : Dev → Prop} (hwr : s.dev.wr = []) (hi : IssuesSeq s.dev c t (encK 0x33 D 0 0 (st.setWidth 12)))
    (hP : ∀ d', greg d' c t D = BitVec.ofNat 64 (trdValue c st.toNat s.dev).1 → greg d' c t (D + 1) = BitVec.ofNat 64 (trdValue c st.toNat s.dev).2.1 →
      greg d' c t (D + 2) = BitVec.ofNat 64 (trdValue c st.toNat s.dev).2.2 → (thr d' c t).pc = (thr s.dev c t).pc + 4 → OnlyThread s.dev d' c t → P d') :
    Runs (.trd c t D st) s P := by
  obtain ⟨h0, h1, h2, h10, h20, h21⟩ := triple_of_legal hi.1.2.2.2
  refine runs_of_retire hwr ((exec_trd c t D st s).trans (congrFun (trd_eq c t D st) s)) hi rfl ?_
  rw [trdValue_begun]
  refine hP _ ?_ ?_ ?_ ?_ (onlyThread_retire _ _)
  · refine (greg_thrU_self D _ _).trans ((if_neg h0).trans ?_)
    exact (gset_ne _ _ h20.symm).trans ((gset_ne _ _ h10.symm).trans (gset_nz _ _ _ h0))
  · refine (greg_thrU_self (D + 1) _ _).trans ((if_neg h1).trans ?_)
    exact (gset_ne _ _ h21.symm).trans (gset_nz _ _ _ h1)
  · exact (greg_thrU_self (D + 2) _ _).trans ((if_neg h2).trans (gset_nz _ _ _ h2))
  · exact (congrArg GThr.pc (thr_retire_self _ _)).trans (congrArg (· + 4) (pc_begun s.dev))

/-! ### Work -/

/-- What a WDONE within its budget has counted and recorded before it decides its work item (R510, R511). -/
def wdoneNoted (c t vd cyc : Nat) (r : Bool) (i : GItem) (d : Dev) : Dev :=
  let d1 := retire c t id d
  let d2 := if ctrR d1 (gateCtr i.gate 0x48) < cyc then ctrW (gateCtr i.gate 0x48) cyc d1 else d1
  if r = true then (writeRec (decisionRec d2 c vd i) c d2).2 else d2

theorem item_wdoneNoted (vd cyc : Nat) (r : Bool) (i : GItem) (d : Dev) : (thr (wdoneNoted c t vd cyc r i d) c t).item = (thr d c t).item := by
  have hcount (d : Dev) : Carries d (if ctrR d (gateCtr i.gate 0x48) < cyc then ctrW (gateCtr i.gate 0x48) cyc d else d) :=
    carries_ite (posts_ctrW _ _ d).carries (.refl d)
  have hrec (bs : Bytes) (d : Dev) : Carries d (if r = true then (writeRec bs c d).2 else d) := carries_ite (carries_writeRec bs c d) (.refl d)
  have hall : Carries (retire c t id d) (wdoneNoted c t vd cyc r i d) := (hcount _).trans (hrec _ _)
  have hthr : thr (wdoneNoted c t vd cyc r i d) c t = thr (retire c t id d) c t := by
    unfold thr clu
    rw [hall.clusters]
  rw [hthr, thr_retire_self]
  rfl

theorem decideItem_some {off : Nat} {f : GItem → Dev → Dev} {i : GItem} {d : Dev} (h : (thr d c t).item = some i) :
    decideItem c t off f d = f i (ctrInc (gateCtr i.gate off) (dropItem c t d)) := by
  unfold decideItem
  rw [h]

/-- What a WDONE does with its work item, by its verdict. -/
def wdoneDecide (c t v q : Nat) (i : GItem) (d : Dev) : Dev :=
  let f := { i.frame with gated := true }
  if v = 0 then decideItem c t 8 (fun _ d => gatePass (gIsland c) i.gate f d) d
  else if v = 1 then decideItem c t 0x10 (fun _ d => gateDrop f d) d
  else
    decideItem c t 0x18 (fun _ d =>
      let d := freeSlot f d
      let f := { f with slotOf := none, dest := destOf d f q }
      deliver (gIsland c) f (finishRec f (decide (f.dest = .discard)) d)) d

/-- Whether a WDONE that redirects names a queue it may not. -/
def wdoneBad (vd : BitVec 2) (q : Nat) : Bool :=
  decide (vd = 2) && decide (q ≠ discardQ) && (decide (qKind q = 1) || decide (qKind q = 2))

theorem wdone_eq (c t : Nat) (A : BitVec 5) (vd : BitVec 2) (r : Bool) :
    execWdone c t A vd r = issueSeq c t (encK 0x34 0 A 1 (BitVec.ofNat 12 (vd.toNat + 4 * b2n r))) fun d =>
      match (thr d c t).item with
      | none => threadFault c t 7 0 0 d
      | some i =>
        let cyc := itemCycles d (thr d c t) + (if (gcore d c (t / 8)).paired then 1 else 8)
        let q := (greg d c t A).toNat % 2 ^ 32
        let v := if wdoneBad vd q then 1 else vd.toNat
        if i.budget < cyc then retire c t id d
        else
          let d := wdoneNoted c t v cyc r i d
          wdoneDecide c t v q i (if wdoneBad vd q then ctrInc (gateCtr i.gate 0x40) d else d) := rfl

theorem gcore_begun (d : Dev) (k : Nat) : gcore (begun d c t) c k = gcore d c k := by
  unfold gcore begun thrU
  rw [clu_cluU_self]

theorem item_begun (d : Dev) : (thr (begun d c t) c t).item = (thr d c t).item := by
  unfold begun
  rw [thr_thrU_self]

theorem itemCycles_begun (d : Dev) : itemCycles (begun d c t) (thr (begun d c t) c t) = itemCycles d (thr d c t) := by
  unfold begun
  rw [thr_thrU_self]
  rfl

theorem wdoneBad_of_queue {vd : BitVec 2} {q : Nat} (h : vd = 2 → q = discardQ ∨ qKind q = 0 ∨ qKind q = 3) : wdoneBad vd q = false := by
  unfold wdoneBad
  by_cases hv : vd = 2
  · rcases h hv with h | h | h <;> simp [h]
  · rw [decide_eq_false hv]
    rfl

theorem wdone_lands {A : BitVec 5} {vd : BitVec 2} {r : Bool} {i : GItem} {cyc : Nat} (hitem : (thr s.dev c t).item = some i)
    (hcyc : itemCycles s.dev (thr s.dev c t) + (if (gcore s.dev c (t / 8)).paired then 1 else 8) = cyc) (hb : cyc ≤ i.budget)
    (hq : wdoneBad vd ((greg s.dev c t A).toNat % 2 ^ 32) = false)
    (hi : IssuesSeq s.dev c t (encK 0x34 0 A 1 (BitVec.ofNat 12 (vd.toNat + 4 * b2n r)))) :
    Lands (.wdone c t A vd r) s (wdoneDecide c t vd.toNat ((greg s.dev c t A).toNat % 2 ^ 32) i (wdoneNoted c t vd.toNat cyc r i (begun s.dev c t))) := by
  refine (exec_wdone c t A vd r s).trans ((congrFun (wdone_eq c t A vd r) s).trans ((issueSeq_begun _ hi).trans ?_))
  dsimp only
  rw [item_begun, hitem]
  dsimp only
  rw [greg_step, itemCycles_begun, gcore_begun, hcyc, hq, if_neg (Nat.not_lt.mpr hb)]
  rfl

theorem wdoneDecide_eq {vd : BitVec 2} {q : Nat} {i : GItem} {d : Dev} (h : (thr d c t).item = some i) :
    wdoneDecide c t vd.toNat q i d =
      (let f := { i.frame with gated := true }
       let done (off : Nat) := ctrInc (gateCtr i.gate off) (dropItem c t d)
       let g := { f with slotOf := none, dest := destOf (freeSlot f (done 0x18)) f q }
       if vd = 0 then gatePass (gIsland c) i.gate f (done 8)
       else if vd = 1 then gateDrop f (done 0x10)
       else deliver (gIsland c) g (finishRec g (decide (g.dest = .discard)) (freeSlot f (done 0x18)))) := by
  have h0 : vd.toNat = 0 ↔ vd = 0 := (BitVec.toNat_eq (y := 0)).symm
  have h1 : vd.toNat = 1 ↔ vd = 1 := (BitVec.toNat_eq (y := 1)).symm
  unfold wdoneDecide
  simp only [h0, h1]
  rw [decideItem_some h, decideItem_some h, decideItem_some h]

theorem wnext_parks {D A : BitVec 5} {k : BitVec 12} (hwr : s.dev.wr = []) (hitem : (thr s.dev c t).item = none)
    (hi : IssuesSeq s.dev c t (encK 0x34 D A 0 k)) : Runs (.wnext c t D A k) s fun d' =>
      OnlyThread s.dev d' c t ∧ thr d' c t = { thr s.dev c t with st := .parked, step := false } := by
  refine ⟨_, (exec_wnext c t D A k s).trans (issueSeq_begun _ hi), rfl, ?_⟩
  have hpark : (if ((thr (begun s.dev c t) c t).moved && (thr (begun s.dev c t) c t).item.isSome) = true
      then decideItem c t 0x10 (fun i d => gateDrop { i.frame with gated := true } d) (begun s.dev c t)
      else thrU c t (fun x => { x with st := .parked }) (decideItem c t 0x10 (fun i d => gateDrop { i.frame with gated := true } d) (begun s.dev c t))) =
      thrU c t (fun x => { x with st := .parked }) (begun s.dev c t) := by
    unfold decideItem
    rw [item_begun, hitem]
    simp
  have honly : OnlyThread s.dev (thrU c t (fun x => { x with st := .parked }) (begun s.dev c t)) c t := (thrU_only _ _ _ _).trans (thrU_only _ _ _ _)
  dsimp only
  rw [hpark, honly.landed hwr]
  refine ⟨honly, ?_⟩
  rw [thr_thrU_self]
  unfold begun
  rw [thr_thrU_self]

/-- Settles O46: each instruction is one change of its thread, one stop of its core, or one decision of its work item. -/
theorem lookupTimeWorkAndFaultingInstructions : Obligations.LookupTimeWorkAndFaultingInstructions := by
  unfold Obligations.LookupTimeWorkAndFaultingInstructions
  refine ⟨fun s c t D A tbl st po ch k hwr => ?_, fun s c t code bits hwr => ?_⟩
  · intro d x a q key ready pair y v
    subst v y pair ready key q a x d
    refine ⟨fun p hp hoff hi => ?_, fun p e hp hen hon hdram he hi => ?_, fun hst hi => ?_, fun hst hi => ?_, fun hitem hmv hi => wnext_parks hwr hitem hi,
      fun hi => ?_, fun i vd r hitem hb hvd hq hi => ?_, fun hi => ?_, fun hi => ?_, fun hi => ?_, fun hi => ?_, fun hi => ?_⟩
    · obtain ⟨hplace, hal, hd⟩ := hp
      obtain ⟨h0, h1, hne⟩ := pair_of_legal hi.1.2.2.2
      refine lkup_runs (e := none) hwr hplace hd hi ?_ (lkupFin_facts h0 h1 hne)
      unfold lkupAt
      rw [if_neg (not_not.mpr hal), tblEn_begun, tablesOn_begun]
      rcases hoff with h | h <;> simp [h]
    · obtain ⟨hplace, hal, hd⟩ := hp
      obtain ⟨h0, h1, hne⟩ := pair_of_legal hi.1.2.2.2
      refine lkup_runs (e := some e) hwr hplace hd hi ?_ (lkupFin_facts h0 h1 hne)
      unfold lkupAt
      rw [if_neg (not_not.mpr hal), tblEn_begun, tablesOn_begun, tblDram_begun, hen, hon, hdram]
      dsimp only
      rw [rd_key, lookup_begun, he]
      rfl
    · refine trd_runs hwr hi fun d' h0 h1 h2 hpc honly => ?_
      rw [trdValue, if_pos hst] at h0 h1 h2
      exact ⟨h0, h1, h2, hpc, honly⟩
    · refine trd_runs hwr hi fun d' h0 h1 h2 hpc honly => ?_
      rw [trdValue, if_neg (by simp [hst])] at h0 h1 h2
      exact ⟨h0, h1, h2, hpc⟩
    · refine runs_of_retire hwr (exec_recd c t A k s) hi rfl ?_
      refine ⟨onlyThread_retire _ _, ?_⟩
      rw [thr_retire_self]
      unfold begun
      rw [thr_thrU_self, greg_step]
    · refine (wdone_lands hitem rfl hb (wdoneBad_of_queue hq) hi).trans (congrArg (fun d => Host.Outcome.next (landed s d)) ?_)
      exact wdoneDecide_eq ((item_wdoneNoted _ _ _ _ _).trans ((item_begun s.dev).trans hitem))
    · exact mfs_runs (idx := 1) hi fun d' h hpc hv => ⟨hv, hpc⟩
    · refine mfs_runs (idx := 0) hi fun d' h hpc hv => ⟨hv.trans ?_, hpc⟩
      rw [show mfsValue c t 0 h (begun s.dev c t) = statusWord (begun s.dev c t) c t from rfl, statusWord_begun]
    · refine mfs_runs (idx := 2) hi fun d' h hpc hv => ⟨hpc, h % 2, Nat.mod_lt _ (by decide), hv.trans ?_⟩
      rw [show mfsValue c t 2 h (begun s.dev c t) = gCycle (begun s.dev c t) - (gcore (begun s.dev c t) c (t / 8)).start + h % 2 from rfl,
        gCycle_begun, gcore_begun]
    · refine mfs_runs (idx := 3) hi fun d' h hpc hv => ⟨hpc, h % 2, Nat.mod_lt _ (by decide), hv.trans ?_⟩
      rw [show mfsValue c t 3 h (begun s.dev c t) = if (thr (begun s.dev c t) c t).item.isSome
        then itemCycles (begun s.dev c t) (thr (begun s.dev c t) c t) + h % 2 else 0 from rfl, item_begun, itemCycles_begun]
      cases hitem : (thr s.dev c t).item <;> by_cases hD : D = 0 <;> simp [hD]
    · refine mfs_runs (idx := 4) hi fun d' h hpc hv => ⟨hpc, hv.trans ?_⟩
      rw [show mfsValue c t 4 h (begun s.dev c t) = match (thr (begun s.dev c t) c t).item with | some i => i.budget | none => 0 from rfl, item_begun]
      cases (thr s.dev c t).item <;> rfl
  · intro d k stops
    subst stops k d
    refine ⟨fun hi => ?_, fun hdbg hi => ?_, fun hdbg hhalt hi => ?_, fun hmay hbp hill => ?_, fun hmay hbp hhalt => ?_⟩
    · exact ⟨_, (exec_trap c t code s).trans (issue_runs _ hi), rfl, stops_landed _ _ _ hi.1⟩
    · refine ⟨_, (exec_brk c t bits s).trans (issue_runs _ hi), rfl, ?_⟩
      have hdbg' : debugEn (begun s.dev c t) c (t / 8) = false := hdbg
      dsimp only
      rw [hdbg', if_neg Bool.false_ne_true]
      exact stops_landed _ _ _ hi.1
    · refine ⟨_, (exec_brk c t bits s).trans (issue_runs _ hi), rfl, ?_⟩
      have hdbg' : debugEn (begun s.dev c t) c (t / 8) = true := hdbg
      have hhalt' : (thr (begun s.dev c t) c t).halted = false := by
        unfold begun
        rw [thr_thrU_self]
        exact hhalt
      dsimp only
      rw [hdbg', if_pos rfl]
      obtain ⟨h1, h2, h3⟩ := halts_landed (s := s) hhalt'
      exact ⟨h1, h2.trans (pc_begun s.dev), h3⟩
    · have hgo : (!(bpMatch s.dev c t) || (thr s.dev c t).step) = true := by
        rcases hbp with h | h <;> simp [h]
      refine runs_of_lift (exec_illegal c t s) ?_
      rw [if_pos (by simp only [hmay, hgo, hill]; rfl)]
      exact stops_landed _ _ _ hmay
    · refine runs_of_lift (exec_breakpointHit c t s) ?_
      rw [if_pos (by simp only [hmay, hbp, hhalt]; rfl)]
      exact halts_landed hhalt

end Sys2Proof.Machine

/-! SUPPORT. What the device itself does in a cluster, and its debugger (R475, R477, R481, R484, R487, R492). -/

namespace Sys2Proof.Machine
open Sys2Proof

variable {s : State} {c t n : Nat}

@[simp] theorem gevent_gtimerW (c m : Nat) (v : Option GTimer) (d : Dev) (c' k : Nat) : gevent (gtimerW c m v d) c' k = gevent d c' k := by
  by_cases h : c' = c
  · subst h; simp [gevent, gtimerW]
  · simp [gevent, gtimerW, clu_cluU_ne _ _ _ _ h]

@[simp] theorem gtimer_geventU (c m : Nat) (f : GEvent → GEvent) (d : Dev) (c' k : Nat) : gtimer (geventU c m f d) c' k = gtimer d c' k := by
  by_cases h : c' = c
  · subst h; simp [gtimer, geventU]
  · simp [gtimer, geventU, clu_cluU_ne _ _ _ _ h]

/-- Whether a deadline has come (R484). -/
def deadlineCome (c : Nat) (d : Dev) : GDeadline → Bool
  | .time st k => decide (k ≤ (rep d (gIsland c) st).t)
  | .cycle k => decide (k ≤ gCycle d)

theorem keystoneTimer_fires {x : GTimer} (hx : gtimer s.dev c n = some x) (hdue : deadlineCome c s.dev x.at_ = true)
    (hon : islandOn s.dev (gIsland c) = true) : execKeystoneTimer c n s = .next (landed s (signalEvent c x.event (gtimerW c n none s.dev))) := by
  have hrun : execKeystoneTimer c n s = .next (landed s (match gtimer s.dev c n with
    | none => s.dev
    | some x => if deadlineCome c s.dev x.at_ && islandOn s.dev (gIsland c) then signalEvent c x.event (gtimerW c n none s.dev) else s.dev)) := rfl
  rw [hrun, hx]
  dsimp only
  rw [hdue, hon, Bool.and_self, if_pos rfl]

/-- A timer that is due, on an event nobody waits for: the event counts and the timer is disarmed (R484). -/
theorem keystoneTimer_counts {x : GTimer} (hx : gtimer s.dev c n = some x)
    (hdue : deadlineCome c s.dev x.at_ = true)
    (hon : islandOn s.dev (gIsland c) = true) (hw : (gevent s.dev c x.event).waiters = []) (hcount : (gevent s.dev c x.event).count < 65535) :
    Runs (.keystoneTimer c n) s fun d' =>
      gtimer d' c n = none ∧ gevent d' c x.event = { gevent s.dev c x.event with count := (gevent s.dev c x.event).count + 1 } := by
  refine ⟨_, (exec_keystoneTimer c n s).trans (keystoneTimer_fires hx hdue hon), rfl, ?_⟩
  rw [signalEvent, gevent_gtimerW, hw]
  dsimp only
  rw [if_pos hcount]
  simp

/-- A thread a frame is given to goes on from its WNEXT (R477). -/
theorem retireWnext_facts {d : Dev} {i : GItem} (h : (thr d c t).item = some i) :
    (thr (retireWnext c t d) c t).item = some { i with start := some (gCycle d) } ∧ (thr (retireWnext c t d) c t).st = .running ∧
      (thr (retireWnext c t d) c t).pc = (thr d c t).pc + 4 ∧ (retireWnext c t d).gates = d.gates ∧ (retireWnext c t d).ctrs = d.ctrs := by
  unfold retireWnext
  dsimp only
  rw [h]
  dsimp only
  rw [thr_thrU_self]
  exact ⟨rfl, rfl, rfl, rfl, rfl⟩

theorem item_startThread (d : Dev) : (thr (startThread c t d) c t).item = none ∧ (thr (startThread c t d) c t).regs = [] := by
  unfold startThread
  dsimp only
  split <;> rw [thr_thrU_self] <;> exact ⟨rfl, rfl⟩

/-! ### Halting and resuming one thread of a core leaves the others -/

theorem thr_retireWnext_ne {u : Nat} (d : Dev) (h : u ≠ t) : thr (retireWnext c t d) c u = thr d c u := by
  unfold retireWnext
  dsimp only
  split
  · rfl
  · exact thr_thrU_ne _ _ _ _ _ h

theorem thr_haltThread_ne {u : Nat} (on : Bool) (d : Dev) (h : u ≠ t) : thr (haltThread c t on d) c u = thr d c u := by
  unfold haltThread
  dsimp only
  split
  · rfl
  · split
    · exact thr_thrU_ne _ _ _ _ _ h
    · split
      · exact (thr_retireWnext_ne _ h).trans (thr_thrU_ne _ _ _ _ _ h)
      · exact thr_thrU_ne _ _ _ _ _ h

theorem halted_retireWnext (d : Dev) : (thr (retireWnext c t d) c t).halted = (thr d c t).halted := by
  unfold retireWnext
  dsimp only
  split
  · rfl
  · rw [thr_thrU_self]

theorem halted_haltThread (on : Bool) (d : Dev) : (thr (haltThread c t on d) c t).halted = on := by
  unfold haltThread
  dsimp only
  split
  · next h => exact h
  · split
    · next hon => rw [showHalted, thr_fldW, thr_thrU_self, hon]
    · next hon =>
      have hoff : on = false := by simpa using hon
      have hdone (g : GThr → GThr) (hg : ∀ x, (g x).halted = false) (d : Dev) : (thr (showHalted c (t / 8) (thrU c t g d)) c t).halted = on := by
        rw [showHalted, thr_fldW, thr_thrU_self, hg, hoff]
      split
      · rw [halted_retireWnext]
        exact hdone _ (fun _ => rfl) d
      · exact hdone _ (fun _ => rfl) d

/-- One step of a loop over the threads of a core that changes only its own thread decides what that thread is. -/
theorem loopN_thr {k i m : Nat} {f : Nat → Dev → Dev} (hi : i < m) (hother : ∀ j d u, u ≠ k * 8 + j → thr (f j d) c u = thr d c u) (d : Dev) :
    ∃ e, thr e c (k * 8 + i) = thr d c (k * 8 + i) ∧ thr (loopN m f d) c (k * 8 + i) = thr (f i e) c (k * 8 + i) := by
  have hskip (l : List Nat) (hl : i ∉ l) (d : Dev) : thr (l.foldl (fun d j => f j d) d) c (k * 8 + i) = thr d c (k * 8 + i) := by
    induction l generalizing d with
    | nil => rfl
    | cons j l ih =>
      rw [List.mem_cons, not_or] at hl
      exact (ih hl.2 _).trans (hother j d _ (by omega))
  have hsplit : List.range m = List.range i ++ i :: List.range' (i + 1) (m - (i + 1)) := by
    rw [List.range_eq_range', List.range_eq_range', show m = i + (1 + (m - (i + 1))) by omega, ← List.range'_append_1, ← List.range'_append_1]
    simp
    congr 1
    omega
  refine ⟨(List.range i).foldl (fun d j => f j d) d, hskip _ (by simp) d, ?_⟩
  unfold loopN
  rw [hsplit, List.foldl_append, List.foldl_cons]
  exact hskip _ (by simp) _

/-! ### What is taken in, expires, deadlocks or is abandoned -/

/-- The work item a gate makes of a frame. -/
def gateItem (g : Nat) (f : Frame) (d : Dev) : GItem :=
  { gate := g, number := (ggate d g).item, frame := f, budget := if Word.fld f.clsB 19 0 = 0 then gateBudget d g else Word.fld f.clsB 19 0 }

/-- A frame taken in for a thread, and laid out in its packet window (R477). -/
def gateGiven (c t g : Nat) (f : Frame) (d : Dev) : Dev :=
  let e := ggateU g (fun x => { x with last := some (c * 64 + t), item := ((ggate d g).item + 1) % 2 ^ 32 }) (ctrInc (gateCtr g 0) d)
  let e := thrU c t (fun x => { x with item := some (gateItem g f d) }) e
  wrt (spc e (windowSpace c t)) 0 (windowBytes (gateItem g f d)) e

/-- A gate's frame given to a thread that waits for it (R477). -/
def gateGive (c t g : Nat) (f : Frame) (d : Dev) : Dev :=
  if (thr (gateGiven c t g f d) c t).halted then gateGiven c t g f d else retireWnext c t (gateGiven c t g f d)

theorem gateGiven_facts (c t g : Nat) (f : Frame) (d : Dev) :
    thr (gateGiven c t g f d) c t = { thr d c t with item := some (gateItem g f d) } ∧
      ggate (gateGiven c t g f d) g = { last := some (c * 64 + t), item := ((ggate d g).item + 1) % 2 ^ 32 } ∧
      ctrR (gateGiven c t g f d) (gateCtr g 0) = (ctrR d (gateCtr g 0) + 1) % 2 ^ 64 ∧ gCycle (gateGiven c t g f d) = gCycle d :=
  ⟨thr_thrU_self _ _ _ _, Tbl.get_upd_self (fun _ => ({} : GGate)) d.gates g fun _ => { last := some (c * 64 + t), item := ((ggate d g).item + 1) % 2 ^ 32 },
    ctrR_ctrAdd_self _ _ _, rfl⟩

/-- What a cluster does with the frame a gate sends it. -/
def gateTake (c g : Nat) (f : Frame) (d : Dev) : Dev :=
  let src := gIsland c
  match gateServer d g with
  | none => gateUnavailable src g f d
  | some (c', alt) =>
    let ts := rotation d g c alt
    if !(gateOn d g) ∨ c' ≠ c ∨ !(clu d c).image ∨ !(islandOn d (gIsland c)) ∨ ts.all (fun t => coreStopped d c (t / 8)) then
      gateUnavailable src g f d
    else
      match ts.find? (isParked d c) with
      | none => gateFail src g f (rateNote (rateKey 0xAB g) 0 (ctrInc (gateCtr g 0x30) d))
      | some t =>
          let b := Word.fld f.clsB 19 0
          let n := (ggate d g).item
          let i : GItem := { gate := g, number := n, frame := f, budget := if b = 0 then gateBudget d g else b }
          let d := ggateU g (fun x => { x with last := some (c * 64 + t), item := (n + 1) % 2 ^ 32 }) (ctrInc (gateCtr g 0) d)
          let d := wrt (spc d (windowSpace c t)) 0 (windowBytes i) (thrU c t (fun x => { x with item := some i }) d)
          if (thr d c t).halted then d else retireWnext c t d

theorem gateIntake_eq (c : Nat) : execGateIntake c =
    lift fun d => match receive (gIsland c) (fun i => match i with | .gate _ _ => true | _ => false) d with
      | some (.gate g f, d) => gateTake c g f d
      | _ => d := by
  unfold execGateIntake gateTake
  rfl

theorem gateIntake_gives {f : Frame} {d1 : Dev} {g : Nat} {alt : Bool}
    (hrec : receive (gIsland c) (fun i => match i with | .gate _ _ => true | _ => false) s.dev = some (.gate g f, d1))
    (hserver : gateServer d1 g = some (c, alt)) (hon : gateOn d1 g = true) (himg : (clu d1 c).image = true) (hisl : islandOn d1 (gIsland c) = true)
    (hfind : (rotation d1 g c alt).find? (isParked d1 c) = some t) : execGateIntake c s = .next (landed s (gateGive c t g f d1)) := by
  have hparked : isParked d1 c t = true := List.find?_some hfind
  have hsome : (rotation d1 g c alt).all (fun t => coreStopped d1 c (t / 8)) = false := by
    refine List.all_eq_false.mpr ⟨t, List.mem_of_find?_eq_some hfind, ?_⟩
    simp only [isParked, Bool.and_eq_true, Bool.not_eq_true'] at hparked
    rw [hparked.2]
    exact Bool.false_ne_true
  have htake : gateTake c g f d1 = gateGive c t g f d1 := by
    unfold gateTake
    rw [hserver]
    refine (if_neg ?_).trans ?_
    · simp [hon, himg, hisl, hsome]
    · rw [hfind]
      rfl
  rw [gateIntake_eq, lift, hrec, ← htake]

theorem gateGive_facts {f : Frame} {d : Dev} {g : Nat} (hhalt : (thr d c t).halted = false) :
    let d' := gateGive c t g f d
    (thr d' c t).item = some { gate := g, number := (ggate d g).item, frame := f, start := some (gCycle d), budget := if Word.fld f.clsB 19 0 = 0 then gateBudget d g else Word.fld f.clsB 19 0 } ∧
      (thr d' c t).st = .running ∧ (thr d' c t).pc = (thr d c t).pc + 4 ∧
      ggate d' g = { last := some (c * 64 + t), item := ((ggate d g).item + 1) % 2 ^ 32 } ∧ ctrR d' (gateCtr g 0) = (ctrR d (gateCtr g 0) + 1) % 2 ^ 64 := by
  obtain ⟨hthr, hgate, hctr, hcyc⟩ := gateGiven_facts c t g f d
  have hitem : (thr (gateGiven c t g f d) c t).item = some (gateItem g f d) := by rw [hthr]
  obtain ⟨h1, h2, h3, h4, h5⟩ := retireWnext_facts hitem
  intro d'
  have hrun : d' = retireWnext c t (gateGiven c t g f d) := by
    refine if_neg ?_
    rw [hthr, hhalt]
    exact Bool.false_ne_true
  rw [hrun]
  refine ⟨?_, h2, ?_, ?_, ?_⟩
  · rw [h1, hcyc]
    rfl
  · rw [h3, hthr]
  · rw [← hgate, ggate, ggate, h4]
  · rw [← hctr, ctrR, ctrR, h5]

/-- A work item whose budget has run out, on a thread that holds nothing: the thread starts afresh (R481). -/
theorem budgetExpiry_restarts {i : GItem} {b : Nat} (hitem : (thr s.dev c t).item = some i) (hstart : i.start = some b) (hhalt : (thr s.dev c t).halted = false)
    (hcore : coreStopped s.dev c (t / 8) = false) (hb : i.budget ≤ itemCycles s.dev (thr s.dev c t)) (hl : locksOf s.dev c t = []) (hc : chansOf s.dev c t = []) :
    Lands (.budgetExpiry c t) s (startThread c t (decideItem c t 0x20 (failItem c) (leaveWaits c t s.dev))) := by
  refine lands_of_lift (exec_budgetExpiry c t s) ?_
  dsimp only
  rw [hitem]
  dsimp only
  rw [if_neg (by simp [hstart, hhalt, hcore, hb]), if_neg (by simp [hl, hc])]

theorem extWaited_false {d : Dev} (h : ∀ u < 64, ∀ m, (thr d c u).st = .waiting (.event m) → effB d (gvKey c (0x20 + 4 * (m / 32))) (m % 32) = false) :
    extWaited d c = false := by
  unfold extWaited
  rw [List.any_eq_false]
  intro u hu
  rw [Bool.and_eq_true, not_and]
  intro _
  split
  · next m hm => simp [h u (List.mem_range.mp hu) m hm]
  · exact Bool.false_ne_true

/-- A cluster that has waited long enough with nothing coming is deadlocked (R486). -/
theorem quiescent_deadlocks (hq : effF s.dev (gvKey c 0x14) 15 0 ≠ 0) (hwaits : (List.range 64).filter (keystoneWaits s.dev c) ≠ [])
    (hstill : ∀ u < 64, coreStopped s.dev c (u / 8) = true ∨
      ((thr s.dev c u).halted = false ∧ (thr s.dev c u).granted = none ∧ (countsIdle s.dev c u = true ∨ keystoneWaits s.dev c u = true)))
    (hext : ∀ u < 64, ∀ m, (thr s.dev c u).st = .waiting (.event m) → effB s.dev (gvKey c (0x20 + 4 * (m / 32))) (m % 32) = false)
    (htimers : (clu s.dev c).timers = []) (hx : s.dev.xings = []) (hon : islandOn s.dev (gIsland c) = true)
    (hquiet : (clu s.dev c).lastAct + effF s.dev (gvKey c 0x14) 15 0 * 1000 ≤ now s.dev) :
    Lands (.quiescentDeadlock c) s (deadlock c 11 0 ((List.range 64).filter (keystoneWaits s.dev c)) s.dev) := by
  have hall : (List.range 64).all (fun t => coreStopped s.dev c (t / 8) ||
      (!(thr s.dev c t).halted && (thr s.dev c t).granted.isNone && (countsIdle s.dev c t || keystoneWaits s.dev c t))) = true := by
    rw [List.all_eq_true]
    intro u hu
    rcases hstill u (List.mem_range.mp hu) with h | ⟨h1, h2, h3⟩
    · simp [h]
    · simp [h1, h2, h3]
  refine lands_of_lift (exec_quiescentDeadlock c s) ?_
  dsimp only
  rw [hall, extWaited_false hext, htimers, hx, hon]
  refine if_neg ?_
  rintro (h | h | h | h | h | h | h)
  · exact hq h
  · exact hwaits h
  · exact absurd h Bool.false_ne_true
  · exact absurd h Bool.false_ne_true
  · exact absurd h Bool.false_ne_true
  · exact absurd h Bool.false_ne_true
  · exact absurd hquiet (Nat.not_le.mpr h)

/-- What a channel's next writer finds when its owner's message is abandoned (R487). -/
theorem freeChan_passes {w : Nat} {rest : List Nat} {d : Dev} (h : (gchan d c n).writers = w :: rest) :
    gchan (freeChan c n d) c n = { gchan d c n with owner := some w, since := now d, words := [], committed := false, writers := rest } ∧
      (thr (freeChan c n d) c w).granted = some false ∧ (freeChan c n d).ctrs = d.ctrs := by
  unfold freeChan
  dsimp only
  rw [h]
  dsimp only
  rw [gchan_thrU, gchan_self, thr_thrU_self]
  exact ⟨rfl, rfl, rfl⟩

theorem gchan_ctrInc (k : Nat) (d : Dev) (c' m : Nat) : gchan (ctrInc k d) c' m = gchan d c' m := rfl

theorem channelAbandon_passes {o w : Nat} {rest : List Nat} (ho : (gchan s.dev c n).owner = some o) (hhold : effF s.dev (gvKey c 0x18) 19 0 ≠ 0)
    (hw : (gchan s.dev c n).writers = w :: rest) (hon : islandOn s.dev (gIsland c) = true)
    (hlate : (gchan s.dev c n).since + effF s.dev (gvKey c 0x18) 19 0 * 1000 ≤ now s.dev) : Runs (.channelAbandon c n) s fun d' =>
      gchan d' c n = { owner := some w, since := now s.dev, words := [], committed := false, writers := rest, lost := (gchan s.dev c n).lost ++ [o] } ∧
        (thr d' c w).granted = some false ∧ ctrR d' (gvKey c 0xC08) = (ctrR s.dev (gvKey c 0xC08) + 1) % 2 ^ 64 := by
  have hlost : (gchan (gchanU c n (fun h => { h with lost := h.lost ++ [o] }) (ctrInc (gvKey c 0xC08) s.dev)) c n) =
      { gchan s.dev c n with lost := (gchan s.dev c n).lost ++ [o] } := by
    rw [gchan_self, gchan_ctrInc]
  obtain ⟨h1, h2, h3⟩ := freeChan_passes (c := c) (n := n) (w := w) (rest := rest)
    (d := gchanU c n (fun h => { h with lost := h.lost ++ [o] }) (ctrInc (gvKey c 0xC08) s.dev)) (by rw [hlost]; exact hw)
  have hrun : execChannelAbandon c n s =
      .next (landed s (freeChan c n (gchanU c n (fun h => { h with lost := h.lost ++ [o] }) (ctrInc (gvKey c 0xC08) s.dev)))) := by
    unfold execChannelAbandon lift
    dsimp only
    rw [ho]
    dsimp only
    rw [if_neg (by simp [hhold, hw, hon, hlate])]
  refine ⟨_, (exec_channelAbandon c n s).trans hrun, rfl, ?_, ?_, ?_⟩
  · rw [gchan_landed, h1, hlost]
    rfl
  · exact h2
  · exact (congrArg (fun cs => Tbl.get (fun _ => 0) cs (gvKey c 0xC08)) h3).trans (ctrR_ctrAdd_self _ _ s.dev)

/-! ### The debugger (R492) -/

theorem debugEn_landed (k : Nat) (d : Dev) : debugEn (landed s d).dev c k = debugEn d c k := rfl

/-- What the debugger's halts or resumes of some threads of a core leave of one it names. -/
theorem halted_loop {k i : Nat} {on : Bool} {p : Nat → Dev → Bool} (hi : i < 8) (d : Dev)
    (hp : ∀ e, thr e c (k * 8 + i) = thr d c (k * 8 + i) → p i e = true) :
    (thr (loopN 8 (fun i d => if p i d then haltThread c (k * 8 + i) on d else d) d) c (k * 8 + i)).halted = on := by
  obtain ⟨e, he, hloop⟩ := loopN_thr (c := c) (k := k) (f := fun i d => if p i d then haltThread c (k * 8 + i) on d else d) hi (fun j d u hu => by
    split
    · exact thr_haltThread_ne on d hu
    · rfl) d
  rw [hloop, if_pos (hp e he), halted_haltThread]

theorem ofNat_ne_zero {r : Nat} (h0 : 0 < r) (h32 : r < 32) : BitVec.ofNat 5 r ≠ 0 := fun hz => by
  have hr := congrArg BitVec.toNat hz
  rw [BitVec.toNat_ofNat, Nat.mod_eq_of_lt h32] at hr
  exact absurd hr (Nat.pos_iff_ne_zero.mp h0)

theorem dbgValue_of_halted {d : Dev} {k t r : Nat} (ht : k * 8 + Word.fld (regR d (dbgKey c k 0x18)) 26 24 = t) (hr : Word.fld (regR d (dbgKey c k 0x18)) 5 0 = r)
    (hen : debugEn d c k = true) (hhalt : (thr d c t).halted = true) :
    (0 < r → r < 32 → dbgValue d c k = (greg d c t (BitVec.ofNat 5 r)).toNat) ∧ (r = 32 → dbgValue d c k = (thr d c t).pc) := by
  unfold dbgValue
  dsimp only
  rw [ht, hr, hen, hhalt, if_neg (by simp)]
  refine ⟨fun h0 h32 => ?_, fun h => ?_⟩
  · have hnz := ofNat_ne_zero h0 h32
    rw [if_neg (by omega), if_pos h32, greg, if_neg hnz, BitVec.toNat_ofNat, Nat.mod_eq_of_lt h32]
  · rw [if_neg (by omega), if_neg (by omega), if_pos h]

/-- What the debugger writes to a register of a halted thread. -/
theorem dbgDataWrite_reg {k t r : Nat} {hi : Bool} {v : Word} (ht : k * 8 + Word.fld (regR s.dev (dbgKey c k 0x18)) 26 24 = t)
    (hr : Word.fld (regR s.dev (dbgKey c k 0x18)) 5 0 = r) (hen : debugEn s.dev c k = true) (hhalt : (thr s.dev c t).halted = true)
    (h0 : 0 < r) (h32 : r < 32) : Runs (.dbgDataWrite c k hi v) s fun d' => greg d' c t (BitVec.ofNat 5 r) =
      BitVec.ofNat 64 (if hi then (greg s.dev c t (BitVec.ofNat 5 r)).toNat % 2 ^ 32 + v.toNat * 2 ^ 32
        else (greg s.dev c t (BitVec.ofNat 5 r)).toNat / 2 ^ 32 * 2 ^ 32 + v.toNat) := by
  refine runs_of_lift (exec_dbgDataWrite c k hi v s) ?_
  dsimp only
  rw [ht, hr, hen, hhalt, if_neg (by simp; omega), (dbgValue_of_halted ht hr hen hhalt).1 h0 h32, greg_landed, greg_thrU_self, if_neg (ofNat_ne_zero h0 h32),
    if_pos h32, BitVec.toNat_ofNat, Nat.mod_eq_of_lt h32, Tbl.get_set_self]

/-- Settles O47: each event is its unit's operation; halting and resuming go thread by thread. -/
theorem clusterEventsAndDebugActOnThreads : Obligations.ClusterEventsAndDebugActOnThreads := by
  unfold Obligations.ClusterEventsAndDebugActOnThreads
  refine ⟨fun s c t n g hwr => ?_, fun s c k mask i on v hwr hk hi => ?_⟩
  · intro d
    subst d
    refine ⟨fun f d1 alt hrec hserver hon himg hisl hfind hhalt => ?_, fun i b hitem hstart hhalt hcore hb hl hc => ?_, fun hdue => ?_,
      fun e k hx hk hon hw hcount => ?_, fun e st k hx hk hon hw hcount => ?_, fun hq hwaits hstill hext htimers hx hon hquiet => ?_,
      fun o w rest ho hhold hw hon hlate => channelAbandon_passes ho hhold hw hon hlate⟩
    · exact ⟨_, (exec_gateIntake c s).trans (gateIntake_gives hrec hserver hon himg hisl hfind), rfl, gateGive_facts hhalt⟩
    · exact ⟨_, budgetExpiry_restarts hitem hstart hhalt hcore hb hl hc, rfl, item_startThread _⟩
    · exact lands_of_lift (exec_gateBusy g s) (if_pos hdue)
    · exact keystoneTimer_counts hx (decide_eq_true hk) hon hw hcount
    · exact keystoneTimer_counts hx (decide_eq_true hk) hon hw hcount
    · exact quiescent_deadlocks hq hwaits hstill hext htimers hx hon hquiet
  · intro d w t r
    subst r t w d
    refine ⟨fun hon => ?_, fun hen hm hst => ?_, fun hen hm => ?_, fun hen hhalt => ?_, fun hen hhalt h0 h32 => ?_, fun hen hhalt h0 h32 => ?_,
      fun hen hhalt hr => ?_⟩
    · refine runs_of_lift (exec_dbgCtlDebugEn c k on s) ?_
      rw [if_pos (by simpa [hk] using hon)]
      rw [debugEn_landed, debugEn, bitR_bitW_self _ _ _ _ (by decide)]
    · refine runs_of_lift (exec_dbgHalt c k mask s) ?_
      rw [if_pos hen]
      refine halted_loop (p := fun i d => bitOf mask i && decide ((thr d c (k * 8 + i)).st ≠ .idle)) hi s.dev fun e he => ?_
      rw [he, decide_eq_true hst, bitOf, hm, Bool.and_self]
    · refine runs_of_lift (exec_dbgResume c k mask s) ?_
      rw [if_pos hen]
      exact halted_loop (p := fun i _ => bitOf mask i) hi s.dev fun e he => hm
    · refine runs_of_lift (exec_dbgStep c k i s) ?_
      rw [Nat.mod_eq_of_lt hi, hen, hhalt, Bool.and_self, if_pos rfl, thr_landed, thr_thrU_self]
    · exact dbgDataWrite_reg rfl rfl hen hhalt h0 h32
    · exact dbgDataWrite_reg rfl rfl hen hhalt h0 h32
    · refine runs_of_lift (exec_dbgDataWrite c k false v s) ?_
      dsimp only
      rw [hr, hen, hhalt, if_neg (by simp), (dbgValue_of_halted rfl hr hen hhalt).2 rfl, thr_landed, thr_thrU_self, if_neg (by omega), if_pos rfl,
        if_neg Bool.false_ne_true]

end Sys2Proof.Machine

/-! SUPPORT. What a write buffers and what a read finds of it (R426). -/

namespace Sys2Proof.Machine
open Sys2Proof

/-- The entries a write of `datas` at `a` makes, numbered from `base`. -/
def bufferEnts (base ns a : Nat) (done : Bool) (datas : List Bytes) : List WEnt :=
  datas.zipIdx.map fun x => ⟨base + x.2, ns, a + x.2, x.1, done⟩

theorem mem_bufferEnts {base ns a : Nat} {done : Bool} {datas : List Bytes} {e : WEnt} (h : e ∈ bufferEnts base ns a done datas) :
    ∃ i, datas[i]? = some e.data ∧ e.lba = a + i ∧ e.nsid = ns ∧ e.done = done := by
  obtain ⟨⟨x, i⟩, hx, rfl⟩ := List.mem_map.mp h
  exact ⟨i, List.mk_mem_zipIdx_iff_getElem?.mp hx, rfl, rfl, rfl⟩

/-- The buffer's latest entry of an LBA, in a list of entries. -/
def latest (l : List WEnt) (ns b : Nat) : Option WEnt := l.reverse.find? fun e => decide (e.nsid = ns ∧ e.lba = b) && e.done

theorem latest_append (l l' : List WEnt) (ns b : Nat) : latest (l ++ l') ns b = (latest l' ns b).or (latest l ns b) := by
  unfold latest
  rw [List.reverse_append, List.find?_append]

theorem wbufFind_eq_latest (d : Dev) (ns b : Nat) : wbufFind d ns b = latest d.ledger.wbuf ns b := rfl

/-- Outside what a write covers it buffers nothing. -/
theorem latest_bufferEnts_outside {base ns a b : Nat} {datas : List Bytes} (h : b < a ∨ a + datas.length ≤ b) :
    latest (bufferEnts base ns a true datas) ns b = none := by
  unfold latest
  rw [List.find?_eq_none]
  intro e he
  obtain ⟨i, hi, hlba, -, -⟩ := mem_bufferEnts (List.mem_reverse.mp he)
  have hlt := (List.getElem?_eq_some_iff.mp hi).1
  simp only [Bool.and_eq_true, decide_eq_true_eq]
  omega

/-- Inside, it buffers what was written there. -/
theorem latest_bufferEnts_inside {base ns a i : Nat} {datas : List Bytes} {x : Bytes} (h : datas[i]? = some x) :
    ∃ e, latest (bufferEnts base ns a true datas) ns (a + i) = some e ∧ e.data = x := by
  have hmem : (⟨base + i, ns, a + i, x, true⟩ : WEnt) ∈ bufferEnts base ns a true datas :=
    List.mem_map.mpr ⟨(x, i), List.mk_mem_zipIdx_iff_getElem?.mpr h, rfl⟩
  have hsome : (latest (bufferEnts base ns a true datas) ns (a + i)).isSome := by
    unfold latest
    rw [List.find?_isSome]
    exact ⟨_, List.mem_reverse.mpr hmem, by simp⟩
  obtain ⟨e, he⟩ := Option.isSome_iff_exists.mp hsome
  refine ⟨e, he, ?_⟩
  have hp := List.find?_some he
  obtain ⟨j, hj, hlba, -, -⟩ := mem_bufferEnts (List.mem_reverse.mp (List.mem_of_find?_eq_some he))
  simp only [Bool.and_eq_true, decide_eq_true_eq] at hp
  obtain rfl : j = i := by omega
  exact Option.some.inj (hj.symm.trans h)

/-- A read of LBAs that are all buffered gives their data and leaves the device as it was. -/
theorem readLbas_of_buffered (fails : List (Nat × Nat)) (ns : Nat) {d : Dev} {datas : List Bytes} {a : Nat} (hlen : ∀ b ∈ datas, b.length = 4096)
    (h : ∀ i x, datas[i]? = some x → ∃ e, wbufFind d ns (a + i) = some e ∧ e.data = x) :
    readLbas fails ns datas.length a d = (some datas.flatten, d) := by
  induction datas generalizing a with
  | nil => rfl
  | cons x datas ih =>
    obtain ⟨e, he, hx⟩ := h 0 x rfl
    have hrest := ih (a := a + 1) (fun b hb => hlen b (List.mem_cons_of_mem _ hb)) fun i y hy => by
      have := h (i + 1) y hy
      rwa [show a + 1 + i = a + (i + 1) by omega]
    have hpad : padTo 4096 x = x := by
      unfold padTo
      rw [hlen x List.mem_cons_self]
      simp
    rw [List.length_cons, readLbas]
    rw [Nat.add_zero] at he
    simp only [he, hx, hpad, hrest]
    rfl

theorem wbuf_bufferWrite {d d' : Dev} {pf a : Nat} {q : NCmd} {datas : List Bytes} (hfua : bitOf (cdw q 12) 30 = false) (hcache : bitOf (feat d pf 6) 0 = true)
    (h : bufferWrite pf q a datas d = some d') : d'.ledger.wbuf = d.ledger.wbuf ++ bufferEnts d.ledger.wseq (nNs q) a true datas := by
  unfold bufferWrite at h
  split at h
  · exact absurd h (by simp)
  · rw [hfua, hcache] at h
    dsimp only at h
    rw [← Option.some.inj h]
    exact (samePairs_nvmeEnd pf q 0 0 _).wbuf

/-- Settles O39: every LBA written has its latest buffered entry among those of the write. -/
theorem readsSeeBufferedWrites : Obligations.ReadsSeeBufferedWrites := by
  unfold Obligations.ReadsSeeBufferedWrites
  intro d d' pf a q datas fails hlen hfua hcache h
  have hw := wbuf_bufferWrite hfua hcache h
  refine ⟨congrArg Prod.fst (readLbas_of_buffered fails (nNs q) hlen fun i x hx => ?_), fun b hb => ?_⟩
  · obtain ⟨e, he, hdata⟩ := latest_bufferEnts_inside (base := d.ledger.wseq) (ns := nNs q) (a := a) hx
    refine ⟨e, ?_, hdata⟩
    rw [wbufFind_eq_latest, hw, latest_append, he, Option.some_or]
  · rw [wbufFind_eq_latest, hw, latest_append, latest_bufferEnts_outside hb, Option.none_or, wbufFind_eq_latest]

end Sys2Proof.Machine

/-! SUPPORT. Sealed blocks and logged writes (R405, R406, R410). -/

namespace Sys2Proof.Machine
open Sys2Proof

theorem le_mid (a c : Bytes) (n v : Nat) : le (a ++ (leBytes n v ++ c)) a.length n = v % 256 ^ n := by
  have hmid := slice_append_mid a (leBytes n v) c
  rw [length_leBytes] at hmid
  rw [le, hmid, leNat_leBytes]

theorem patch_mid {a b c v : Bytes} (h : v.length = b.length) : patch (a ++ (b ++ c)) a.length v = a ++ (v ++ c) := by
  unfold patch
  rw [List.take_left, h, List.append_assoc]
  congr 2
  · exact List.take_of_length_le (by simp; omega)
  · rw [← List.append_assoc, ← List.length_append, List.drop_left]

/-- A sealed block carries the CRC of itself with a field of zeros in the CRC's place (R410). -/
theorem sealBlock_eq {a : Bytes} (c : Bytes) (ha : a.length = 60) :
    sealBlock (a ++ (zeros 4 ++ c)) = a ++ (leBytes 4 (crc32c (a ++ (zeros 4 ++ c))) ++ c) := by
  have hzero : patch (a ++ (zeros 4 ++ c)) 60 (zeros 4) = a ++ (zeros 4 ++ c) := ha ▸ patch_mid rfl
  unfold sealBlock
  rw [hzero]
  exact ha ▸ patch_mid (by simp)

theorem crc_sealBlock {a : Bytes} (c : Bytes) (ha : a.length = 60) :
    le (sealBlock (a ++ (zeros 4 ++ c))) 60 4 = crc32c (patch (sealBlock (a ++ (zeros 4 ++ c))) 60 (zeros 4)) := by
  have hback : patch (a ++ (leBytes 4 (crc32c (a ++ (zeros 4 ++ c))) ++ c)) 60 (zeros 4) = a ++ (zeros 4 ++ c) := ha ▸ patch_mid (by simp)
  have hlt : crc32c (a ++ (zeros 4 ++ c)) < 256 ^ 4 := (BitVec.isLt _).trans_eq (by decide)
  rw [sealBlock_eq c ha, hback]
  exact (ha ▸ le_mid a c 4 _).trans (Nat.mod_eq_of_lt hlt)

theorem le_head (a c e : Bytes) (n v : Nat) : le (a ++ (leBytes n v ++ c) ++ e) a.length n = v % 256 ^ n := by
  rw [List.append_assoc, List.append_assoc]
  exact le_mid a (c ++ e) n v

/-- What a block sealed in the layout of a state block says of itself. -/
theorem sealBlock_names {r body : Bytes} (hr : r.length = 48) :
    let b := sealBlock (leBytes 4 0x53465642 ++ (leBytes 2 1 ++ (zeros 2 ++ (leBytes 4 (64 + body.length) ++ r))) ++ (zeros 4 ++ body))
    le b 0 4 = 0x53465642 ∧ le b 4 2 = 1 ∧ le b 8 4 = b.length % 2 ^ 32 ∧ le b 60 4 = crc32c (patch b 60 (zeros 4)) := by
  have hhead : (leBytes 4 0x53465642 ++ (leBytes 2 1 ++ (zeros 2 ++ (leBytes 4 (64 + body.length) ++ r)))).length = 60 := by simp [hr]
  have hlen : (sealBlock (leBytes 4 0x53465642 ++ (leBytes 2 1 ++ (zeros 2 ++ (leBytes 4 (64 + body.length) ++ r))) ++ (zeros 4 ++ body))).length = 64 + body.length := by
    rw [sealBlock_eq body hhead, List.length_append, hhead, List.length_append, length_leBytes]
    omega
  refine ⟨?_, ?_, ?_, crc_sealBlock body hhead⟩
  · rw [sealBlock_eq body hhead]
    exact le_head [] _ _ 4 _
  · rw [sealBlock_eq body hhead]
    exact le_head (leBytes 4 0x53465642) _ _ 2 1
  · rw [hlen, sealBlock_eq body hhead]
    have hsplit : leBytes 4 0x53465642 ++ (leBytes 2 1 ++ (zeros 2 ++ (leBytes 4 (64 + body.length) ++ r))) =
        (leBytes 4 0x53465642 ++ (leBytes 2 1 ++ zeros 2)) ++ (leBytes 4 (64 + body.length) ++ r) := by simp only [List.append_assoc]
    rw [hsplit]
    exact le_head (leBytes 4 0x53465642 ++ (leBytes 2 1 ++ zeros 2)) _ _ 4 _

/-- A state block is a sealed block in that layout. -/
theorem stateBlock_eq (d : Dev) (f : Nat) : ∃ r body, r.length = 48 ∧
    stateBlock d f = sealBlock (leBytes 4 0x53465642 ++ (leBytes 2 1 ++ (zeros 2 ++ (leBytes 4 (64 + body.length) ++ r))) ++ (zeros 4 ++ body)) := by
  have hlayout (g l q ser need body : Bytes) : leBytes 4 0x53465642 ++ leBytes 2 1 ++ zeros 2 ++ leBytes 4 (64 + body.length) ++ g ++ l ++ q ++ ser ++ need ++ zeros 18 ++ zeros 4 ++ body =
      leBytes 4 0x53465642 ++ (leBytes 2 1 ++ (zeros 2 ++ (leBytes 4 (64 + body.length) ++ (g ++ l ++ q ++ ser ++ need ++ zeros 18)))) ++ (zeros 4 ++ body) := by
    simp only [List.append_assoc]
  refine ⟨_, _, ?_, congrArg sealBlock (hlayout _ _ _ _ _ _)⟩
  simp

/-! ### Logged writes -/

theorem dmaRaw_byte (f a : Nat) (v : Byte) (d : Dev) : dmaRaw f a [v] d = logPage f a (wrt (hostSpace (fnPort f)) a [v] d) := by
  have hone : touchedPages a [v].length = [a] := by simp [touchedPages]
  unfold dmaRaw
  rw [hone]
  rfl

/-- Settles O35: the layout is read off the block; a byte written touches its own page alone. -/
theorem stateBlocksAndDirtyLogsDescribeTheirFunction : Obligations.StateBlocksAndDirtyLogsDescribeTheirFunction := by
  unfold Obligations.StateBlocksAndDirtyLogsDescribeTheirFunction
  refine ⟨fun d f => ?_, fun d f a v l hwr hlog hrun hbase => ?_⟩
  · obtain ⟨r, body, hr, hb⟩ := stateBlock_eq d f
    rw [hb]
    exact sealBlock_names hr
  · have hfn : (fn (wrt (hostSpace (fnPort f)) a [v] d) f).log = some l := hlog
    have hw : wrt (hostSpace (fnPort f)) a [v] d = { d with wr := [(spaceAddr (hostSpace (fnPort f)) a, [v])] } := by
      rw [wrt, hwr]
    intro sp e p
    subst p e sp
    refine ⟨fun hp => ?_, fun hp => ?_⟩
    · rw [dmaRaw_byte, logPage, hfn]
      dsimp only
      rw [hrun, if_neg (by simp), if_pos ⟨hbase, hp⟩]
      exact ⟨by rw [ctrInc_wr, wrt_wr, hw], rfl⟩
    · rw [dmaRaw_byte, logPage, hfn]
      dsimp only
      rw [hrun, if_neg (by simp), if_neg (by omega)]
      exact ⟨by rw [ctrInc_wr, fnU_wr, hw], by rw [fn_ctrInc, fn_fnU_self]⟩

end Sys2Proof.Machine

/-! SUPPORT. Drive ports and rebuilds (R437–R439, R442, R444). -/

namespace Sys2Proof.Machine
open Sys2Proof

variable {s : State} {d e f : Dev} {n k : Nat}

theorem drv_drvU_self (n : Nat) (g : Drv → Drv) (d : Dev) : drv (drvU n g d) n = g (drv d n) := by simp [drv, drvU, ledU]

theorem drv_drvU_ne (g : Drv → Drv) (d : Dev) (h : k ≠ n) : drv (drvU n g d) k = drv d k := by simp [drv, drvU, ledU, Tbl.get_upd_ne _ _ _ _ _ h]

theorem partner_ne (n : Nat) : partner n ≠ n := by
  unfold partner
  split <;> omega

/-- A member that leaves its pair does so as a pair. -/
theorem drvLeave_of_member {lost : Nat → Dev → Dev} {new cause : Nat} (h : (drv d n).st = 7) : drvLeave lost n new cause d = leavePair lost n new cause d := by
  have hm : drvMember d n = true := decide_eq_true h
  unfold drvLeave
  rw [hm, Bool.true_or, if_pos rfl]

/-! ### What a drive's identification reads -/

theorem readLabel_drvU (m : Nat) {g : Drv → Drv} (hz : ∀ x, (g x).zero = x.zero) (hu : ∀ x, (g x).unread = x.unread) (d : Dev) : readLabel (drvU n g d) m = readLabel d m := by
  have hread (l off len : Nat) : drvRead (drvU n g d) m l off len = drvRead d m l off len := by
    unfold drvRead
    by_cases hm : m = n
    · subst hm
      rw [drv_drvU_self, hz]
      rfl
    · rw [drv_drvU_ne _ _ hm]
      rfl
  have hunread : (drv (drvU n g d) m).unread = (drv d m).unread := by
    by_cases hm : m = n
    · subst hm
      rw [drv_drvU_self, hu]
    · rw [drv_drvU_ne _ _ hm]
  unfold readLabel
  simp only [hread, hunread]

theorem readLabel_slabs (m n slabs : Nat) (d : Dev) : readLabel (drvU n (fun x => { x with slabs := slabs }) d) m = readLabel d m :=
  readLabel_drvU m (g := fun x => { x with slabs := slabs }) (fun _ => rfl) (fun _ => rfl) d

theorem samePairs_slabs (n slabs : Nat) (d : Dev) : SamePairs d (drvU n (fun x => { x with slabs := slabs }) d) :=
  samePairs_drvU (g := fun x => { x with slabs := slabs }) (fun _ => rfl) d

/-! ### One chunk of a rebuild -/

/-- What copying LBAs from its partner to drive `n` leaves, when `k` have been copied (R444). -/
structure Copied (n k : Nat) (d e : Dev) : Prop where
  mate : drv e (partner n) = drv d (partner n)
  st : (drv e n).st = (drv d n).st
  marked : (drv e n).marked = (drv d n).marked
  maps : e.ledger.maps = d.ledger.maps
  count : ctrR e (drvCtr n 0) % 2 ^ 64 = (ctrR d (drvCtr n 0) + k) % 2 ^ 64
  wraps : 0 < k → ctrR e (drvCtr n 0) < 2 ^ 64

/-- The copy of one LBA. -/
def copyLba (n l : Nat) (d : Dev) : Dev :=
  let d := ctrInc (drvCtr (partner n) 8) d
  ctrInc (drvCtr n 0) (drvWrite n l (drvRead d (partner n) l 0 4096) d)

theorem ctrR_drvWrite (m l : Nat) (bs : Bytes) (d : Dev) (j : Nat) : ctrR (drvWrite m l bs d) j = ctrR d j := rfl

theorem copied_copyLba (h : Copied n k d e) (l : Nat) : Copied n (k + 1) d (copyLba n l e) := by
  have hmate (bs : Bytes) (e : Dev) : drv (drvWrite n l bs e) (partner n) = drv e (partner n) := drv_drvU_ne _ _ (partner_ne n)
  have hself (bs : Bytes) (e : Dev) : (drv (drvWrite n l bs e) n).st = (drv e n).st ∧ (drv (drvWrite n l bs e) n).marked = (drv e n).marked := by
    have : drv (drvWrite n l bs e) n = _ := drv_drvU_self n _ e
    rw [this]
    exact ⟨rfl, rfl⟩
  have hctr : ctrR (copyLba n l e) (drvCtr n 0) = (ctrR e (drvCtr n 0) + 1) % 2 ^ 64 := by
    have hne : drvCtr n 0 ≠ drvCtr (partner n) 8 := by
      unfold drvCtr
      omega
    unfold copyLba ctrInc
    rw [ctrR_ctrAdd_self, ctrR_drvWrite, ctrR_ctrAdd_ne _ _ _ _ hne]
  refine ⟨(hmate [] _).trans h.mate, (hself [] _).1.trans h.st, (hself [] _).2.trans h.marked, h.maps, ?_, fun _ => ?_⟩
  · rw [hctr, Nat.mod_mod, Nat.add_mod, h.count, ← Nat.add_mod, Nat.add_assoc]
  · rw [hctr]
    exact Nat.mod_lt _ (by decide)

/-- One LBA's turn in a chunk of a rebuild with no read failing. -/
def chunkStep (n base i : Nat) (d : Dev) : Dev :=
  if ([] : List Nat).contains i || (drv d (partner n)).unread.contains (base + i) then
    ctrInc (drvCtr n 0x18) (drvU n (fun x => { x with marked := x.marked + 1 }) (drvMark n (base + i) d))
  else copyLba n (base + i) d

theorem chunkStep_fun (n base : Nat) : (fun i d =>
    if ([] : List Nat).contains i || (drv d (partner n)).unread.contains (base + i) then
      ctrInc (drvCtr n 0x18) (drvU n (fun x => { x with marked := x.marked + 1 }) (drvMark n (base + i) d))
    else ctrInc (drvCtr n 0) (drvWrite n (base + i) (drvRead (ctrInc (drvCtr (partner n) 8) d) (partner n) (base + i) 0 4096) (ctrInc (drvCtr (partner n) 8) d))) =
    chunkStep n base := rfl

theorem chunkStep_eq (base i : Nat) (hun : (drv d (partner n)).unread = []) : chunkStep n base i d = copyLba n (base + i) d :=
  if_neg (by rw [hun]; simp)

theorem copied_loop (base : Nat) (hun : (drv d (partner n)).unread = []) (m : Nat) : Copied n m d (loopN m (chunkStep n base) d) := by
  induction m with
  | zero => exact ⟨rfl, rfl, rfl, rfl, rfl, fun h => absurd h (lt_irrefl 0)⟩
  | succ m ih =>
    unfold loopN at ih ⊢
    rw [List.range_succ, List.foldl_append, List.foldl_cons, List.foldl_nil, chunkStep_eq base m (by rw [ih.mate, hun])]
    exact copied_copyLba ih _

theorem rebuildNext_congr (hmaps : e.ledger.maps = d.ledger.maps) : rebuildNext e n =
    ((pairMap d (n / 2)).used.find? fun u => decide ((drv e n).rebuilt < (u.1 + 1) * 1024)).map fun u =>
      (u.1, max (drv e n).rebuilt (u.1 * 1024) - u.1 * 1024) := by
  unfold rebuildNext pairMap
  rw [hmaps]

/-- A chunk copied that is not the last. -/
theorem rebuildChunk_copies {sl j : Nat} (hst : (drv s.dev n).st = 6) (hup : storageUp s.dev = true) (hmate : drvMember s.dev (partner n) = true)
    (hnext : rebuildNext s.dev n = some (sl, j)) (hun : (drv s.dev (partner n)).unread = [])
    (hmore : ((pairMap s.dev (n / 2)).used.any fun u => decide (sl * 1024 + j + 1 < (u.1 + 1) * 1024)) = true) :
    ∃ e, Copied n 256 s.dev e ∧ execRebuildChunk n [] s = .next (landed s (drvU n (fun x => { x with rebuilt := sl * 1024 + j + 1 }) e)) := by
  have hcopied := copied_loop (256 + slabLbas * sl + 256 * j) hun 256
  obtain ⟨e, he⟩ := exists_eq (a' := loopN 256 (chunkStep n (256 + slabLbas * sl + 256 * j)) s.dev)
  rw [← he] at hcopied
  refine ⟨e, hcopied, ?_⟩
  have hrest : ∃ y, rebuildNext (drvU n (fun x => { x with rebuilt := sl * 1024 + j + 1 }) e) n = some y := by
    have hmaps : (drvU n (fun x => { x with rebuilt := sl * 1024 + j + 1 }) e).ledger.maps = s.dev.ledger.maps := hcopied.maps
    rw [rebuildNext_congr hmaps, drv_drvU_self, ← Option.isSome_iff_exists, Option.isSome_map, List.find?_isSome]
    simpa using hmore
  obtain ⟨y, hy⟩ := hrest
  unfold execRebuildChunk lift
  dsimp only
  rw [hst, hup, hmate, hnext, if_neg (by simp)]
  dsimp only
  rw [chunkStep_fun, ← he, hy]

/-- Settles O40: each event is one change of the drive's state, or its leaving of its pair; a chunk is copied LBA by LBA. -/
theorem drivePortsMoveThroughTheirStates : Obligations.DrivePortsMoveThroughTheirStates := by
  unfold Obligations.DrivePortsMoveThroughTheirStates
  intro s n speed width d x slot
  subst slot x d
  refine ⟨fun ⟨hn, hisl⟩ hp hst hon => ?_, fun ⟨hn, hisl⟩ hp hst => ?_, fun on ⟨hn, hisl⟩ hp => ?_, fun hst hrel hsince => ?_, fun hst hrel hnow h1 h5 hw => ?_,
    fun hst hsince => ?_, fun hst hup hlab hmate slabs => ?_, fun hst hup slabs => ?_, fun hup hst => ?_, fun hup hst => ?_, fun hst hup hmate hnext => ?_,
    fun sl j hst hup hmate hnext hun hmore hn => ?_⟩
  · refine lands_of_lift (exec_drivePresence n true none s) ((if_neg (by simp [hn, hisl, hp])).trans ?_)
    have hon' : drvOn (drvU n (fun x => { x with present := true }) s.dev) n = true := hon
    dsimp only
    unfold drvFollow
    rw [drv_drvU_self, hst, hon']
    rfl
  · refine lands_of_lift (exec_drivePresence n false none s) ((if_neg (by simp [hn, hisl, hp])).trans ?_)
    have hst' : (drv (drvU n (fun x => { x with present := false }) s.dev) n).st = 7 := by rw [drv_drvU_self, hst]
    dsimp only
    unfold drvFollow
    rw [← drvLeave_of_member hst', drv_drvU_self, hst]
    rfl
  · exact lands_of_lift (exec_drivePresence n on none s) (if_pos (by simp [hp]))
  · exact lands_of_lift (exec_dperstRelease n s) (if_pos (by simp [hst, hrel, hsince]))
  · refine lands_of_lift (exec_driveLinkUp n speed width s) (if_pos ?_)
    simp [hst, hrel, hnow, h1, h5, hw]
  · exact lands_of_lift (exec_driveLinkTimeout n s) (if_pos (by simp [hst, hsince]))
  · refine lands_of_lift (exec_driveIdentify n true slabs s) ((if_neg (by simp [hst, hup])).trans ?_)
    have hlab' : readLabel (drvU n (fun x => { x with slabs := slabs }) s.dev) n = none := by
      rw [readLabel_slabs, hlab]
    have hmate' : drvMember (drvU n (fun x => { x with slabs := slabs }) s.dev) (partner n) = false := by
      rw [(samePairs_slabs n slabs s.dev).drvMember, hmate]
    dsimp only
    rw [hlab', hmate']
    exact if_neg (by simp)
  · refine lands_of_lift (exec_driveIdentify n false slabs s) ((if_neg (by simp [hst, hup])).trans ?_)
    exact if_pos (by simp)
  · refine lands_of_lift (exec_driveWriteError n false s) ((if_neg (by simp [hup])).trans ?_)
    exact (if_pos (by simp [hst])).trans (drvLeave_of_member hst)
  · refine lands_of_lift (exec_driveCommandTimeout n s) ((if_neg (by simp [hup])).trans ?_)
    have hst' : (drv (ctrInc (drvCtr n 0x20) s.dev) n).st = 7 := hst
    dsimp only
    rw [hst']
    exact (if_pos (by simp)).trans (drvLeave_of_member hst')
  · refine lands_of_lift (exec_rebuildChunk n [] s) ((if_neg (by simp [hst, hup, hmate])).trans ?_)
    rw [hnext]
  · obtain ⟨e, he, hrun⟩ := rebuildChunk_copies hst hup hmate hnext hun hmore
    refine ⟨_, (exec_rebuildChunk n [] s).trans hrun, rfl, ?_⟩
    have hdrv : drv (landed s (drvU n (fun x => { x with rebuilt := sl * 1024 + j + 1 }) e)).dev n = { drv e n with rebuilt := sl * 1024 + j + 1 } := drv_drvU_self _ _ _
    dsimp only
    rw [hdrv]
    refine ⟨rfl, he.st.trans hst, he.marked, ?_⟩
    have hctr : ctrR (landed s (drvU n (fun x => { x with rebuilt := sl * 1024 + j + 1 }) e)).dev (drvCtr n 0) = ctrR e (drvCtr n 0) := rfl
    rw [hctr, ← he.count, Nat.mod_eq_of_lt (he.wraps (by decide))]

end Sys2Proof.Machine

/-! SUPPORT. Commits of groups of registers (R37, R38, R41). -/

namespace Sys2Proof

theorem Tbl.get_drop_of_true {α : Type} (d : Nat → α) {p : Nat → Bool} (t : Tbl α) {k : Nat} (h : p k = true) : Tbl.get d (Tbl.drop p t) k = d k := by
  induction t with
  | nil => rfl
  | cons e t ih =>
    obtain ⟨k', v⟩ := e
    unfold Tbl.drop at ih ⊢
    rw [List.filter_cons]
    split
    · next hp =>
      have hne : k ≠ k' := fun he => by simp [← he, h] at hp
      rw [Tbl.get, if_neg hne, ih]
    · exact ih

theorem Tbl.get_drop_of_false {α : Type} (d : Nat → α) {p : Nat → Bool} (t : Tbl α) {k : Nat} (h : p k = false) : Tbl.get d (Tbl.drop p t) k = Tbl.get d t k := by
  induction t with
  | nil => rfl
  | cons e t ih =>
    obtain ⟨k', v⟩ := e
    unfold Tbl.drop at ih ⊢
    rw [List.filter_cons, Tbl.get]
    split
    · rw [Tbl.get, ih]
    · next hp =>
      have hne : k ≠ k' := fun he => by simp [← he, h] at hp
      rw [ih, if_neg hne]

/-- A copied range reads as the source inside the range, and as what was there outside. -/
theorem Tbl.get_copyRange {α : Type} (d : Nat → α) (p : Nat → Bool) (src dst : Tbl α) (k : Nat) :
    Tbl.get d (Tbl.copyRange p src dst) k = if p k = true then Tbl.get d src k else Tbl.get d dst k := by
  unfold Tbl.copyRange
  induction src with
  | nil =>
    rw [List.filter_nil, List.foldr_nil]
    split
    · next h => exact Tbl.get_drop_of_true d dst h
    · next h => exact Tbl.get_drop_of_false d dst (by simpa using h)
  | cons e src ih =>
    obtain ⟨k', v⟩ := e
    rw [List.filter_cons, Tbl.get]
    by_cases hk : k = k'
    · subst hk
      split
      · rw [if_pos rfl, List.foldr_cons]
        exact Tbl.get_insert_self _ _ _ _
      · next hp =>
        rw [ih, if_neg hp]
    · rw [if_neg hk, ← ih]
      split
      · rw [List.foldr_cons]
        exact Tbl.get_insert_ne _ _ _ _ _ hk
      · rfl

namespace Machine

variable {s : State} {b : Nat}

theorem runs_of_lands {i : Instr} {d : Dev} {P : Dev → Prop} (h : Lands i s d) (hP : P (landed s d).dev) : Runs i s P := ⟨_, h, landed_pending s d, hP⟩

theorem fldR_fldW_upper (k v : Nat) (d : Dev) : fldR (fldW k 31 16 v d) k 31 16 = v % 65536 := by
  have hn := (regR d k).isLt
  unfold fldR fldW
  rw [regR_regW_self]
  simp only [Word.fld, Word.put, BitVec.toNat_ofNat, Nat.shiftRight_eq_div_pow]
  omega

theorem fldR_bitW_upper (k : Nat) (on : Bool) (d : Dev) : fldR (bitW k 0 on d) k 31 16 = fldR d k 31 16 := by
  have hn := (regR d k).isLt
  unfold fldR bitW fldW
  rw [regR_regW_self]
  simp only [Word.fld, Word.put, BitVec.toNat_ofNat, Nat.shiftRight_eq_div_pow]
  omega

/-- What a group's commit captures and puts in effect. -/
theorem capR_copied (d : Dev) (k : Nat) : capR { d with cap := Tbl.copyRange (fun k => decide (groupOf k = b)) d.regs d.cap } k =
    if groupOf k = b then regR d k else capR d k := by
  refine (Tbl.get_copyRange _ _ _ _ k).trans ?_
  simp [regR, capR]

theorem capR_landed (d : Dev) (k : Nat) : capR (landed s d).dev k = capR d k := rfl

theorem capR_bitW (k i : Nat) (on : Bool) (d : Dev) (j : Nat) : capR (bitW k i on d) j = capR d j := rfl

theorem fldR_withCap (k hi lo : Nat) (d : Dev) : fldR (withCap b d) k hi lo = fldR d k hi lo := rfl

theorem effR_withCap (d : Dev) (k : Nat) : effR (withCap b d) k = if groupOf k = b then capR d k else effR d k := by
  refine (Tbl.get_copyRange _ _ _ _ k).trans ?_
  simp [effR, capR]

theorem fldR_cap (t : Tbl Word) (d : Dev) (k hi lo : Nat) : fldR { d with cap := t } k hi lo = fldR d k hi lo := rfl

theorem effR_commitDone (d : Dev) (k : Nat) : effR (commitDone b d) k = effR d k := by
  unfold commitDone countCommit effR
  rw [bitW_eff, fldW_eff]

theorem commitDone_facts (d : Dev) : bitR (commitDone b d) (b + 8) 0 = false ∧ fldR (commitDone b d) (b + 8) 31 16 = (fldR d (b + 8) 31 16 + 1) % 65536 := by
  unfold commitDone countCommit
  refine ⟨?_, ?_⟩
  · rw [bitR_bitW_self _ _ _ _ (by decide)]
  · rw [fldR_bitW_upper, fldR_fldW_upper, fldR_cap]

/-- A HOST group and a memory channel's group take effect whole. -/
theorem applyCommit_host {dir : Nat} (h : b / 2 ^ 20 = 13 ∨ (b / 2 ^ 20 = 11 ∧ groupNum b ≠ 0)) (d : Dev) : applyCommit b dir d = (true, withCap b d) := by
  unfold applyCommit
  rcases h with h | ⟨h, hn⟩
  · rw [h]
    rfl
  · rw [h]
    exact if_neg hn

theorem commitPoint_applies {dir : Nat} (hreach : headerReached s.dev b = true) (hkind : b / 2 ^ 20 = 13 ∨ (b / 2 ^ 20 = 11 ∧ groupNum b ≠ 0)) (hdir : dir ≤ 1)
    (hok : capOk s.dev b = true) (hpend : bitR s.dev (b + 8) 0 = true) : Lands (.commitPoint b dir) s (commitDone b (withCap b s.dev)) := by
  obtain ⟨⟨hgroup, -⟩, hstate⟩ : (isGroup b = true ∧ _) ∧ regState s.dev b = 0 := by simpa [headerReached] using hreach
  refine lands_of_lift (exec_commitPoint b dir s) ?_
  dsimp only
  rw [hgroup, hpend, hstate, hok, applyCommit_host hkind, if_neg (by simp; omega), if_neg (by simp)]
  rfl

/-- Settles O9: a commit copies the group's registers, a commit point the captured set, and neither reaches another group's. -/
theorem commitCapturesAndApplies : Obligations.CommitCapturesAndApplies := by
  unfold Obligations.CommitCapturesAndApplies
  intro s b dir hreach
  refine ⟨fun hf he hfree => ?_, ?_, fun hkind hdir hok hpend => ?_⟩
  · refine runs_of_lift (exec_commit b s) ?_
    rw [hreach, hfree, if_neg (by simp), if_neg hf, if_neg he, if_neg Bool.false_ne_true, bitR_landed, bitR_bitW_self _ _ _ _ (by decide)]
    refine ⟨rfl, by rw [landed_eff, bitW_eff], fun k hk => ?_, fun k hk => ?_⟩
    · rw [capR_landed, capR_bitW, capR_copied, if_pos hk]
    · rw [capR_landed, capR_bitW, capR_copied, if_neg hk]
  · refine runs_of_lift (exec_lock b s) ?_
    rw [if_pos hreach, bitR_landed, bitR_bitW_self _ _ _ _ (by decide)]
    exact ⟨rfl, fun k hk => by rw [regR_landed, regR_bitW_ne _ _ _ _ _ hk]⟩
  · obtain ⟨hbit, hcount⟩ := commitDone_facts (b := b) (withCap b s.dev)
    refine runs_of_lands (commitPoint_applies hreach hkind hdir hok hpend) ?_
    rw [bitR_landed, fldR_landed, hbit, hcount, fldR_withCap]
    refine ⟨rfl, rfl, fun k hk => ?_, fun k hk => ?_⟩
    · rw [effR_landed, effR_commitDone, effR_withCap, if_pos hk]
    · rw [effR_landed, effR_commitDone, effR_withCap, if_neg hk]

end Machine
end Sys2Proof

/-! SUPPORT. Register accesses, crossings and inbound accesses (R13, R21, R35, R114, R363, R380, R381). -/

namespace Sys2Proof.Machine
open Sys2Proof

variable {s : State} {k h : Nat} {v : Word} {r : RegRow} {t : Tlp}

theorem runs_of_lands_clean {i : Instr} {e : Dev} {P : Dev → Prop} (h : Lands i s e) (hmem : e.mem = s.dev.mem) (hwr : e.wr = []) (hP : P e) : Runs i s P :=
  runs_of_lands h (by rwa [landed_clean s e hmem hwr])

/-- What a write of a plain register in no lock's reach leaves in it (R13, R35). -/
theorem plainWrite_eq {d : Dev} (hk : k < 0x1000000) (hrow : regRow k = some r) (hown : ownRow k = false) (hgroup : isGroup (k / 16 * 16) = false)
    (hlock : bitR d (groupOf k + 0xC) 0 = false) : plainWrite k v d =
      regW k (((regR d k &&& ~~~ BitVec.ofNat 32 (writableBits d k r)) ||| (v &&& BitVec.ofNat 32 (writableBits d k r))) &&&
        ~~~ (v &&& BitVec.ofNat 32 r.w1c)) d := by
  have hheld : baseHeld d k = false := by
    have hlow : decide (fnKey 0 0 ≤ k) = false := decide_eq_false (by unfold fnKey; omega)
    unfold baseHeld
    rw [hlow]
    rfl
  have hall (w : BitVec 32) : w &&& 0xFFFFFFFF = w := BitVec.and_allOnes
  unfold plainWrite
  rw [hgroup, hrow]
  dsimp only
  rw [hown, hheld, hlock, Bool.false_and, Bool.false_and, if_neg Bool.false_ne_true, Bool.or_self, if_neg Bool.false_ne_true, if_neg Bool.false_ne_true, hall]

theorem registerWrite_lands (hpres : fnPresent s.dev 0 = true) (hfrz : isFrozen s.dev 0 = false) (hfatal : s.dev.fatal = false) (h4 : k % 4 = 0) (hk : k < 0xDF0000)
    (hstate : regState s.dev k = 0) : Lands (.registerWrite 0 0 k v) s (plainWrite k v s.dev) := by
  have hbar : barKey 0 k = k := by
    unfold barKey
    rw [if_pos rfl, if_neg (by omega)]
  refine lands_of_lift (exec_registerWrite 0 0 k v s) ?_
  have hserved : (!(fnPresent s.dev 0) || isFrozen s.dev (fnPort 0) || s.dev.fatal) = false := by
    rw [hpres, show fnPort 0 = 0 from rfl, hfrz, hfatal]
    rfl
  rw [if_neg (by decide), hserved, if_neg Bool.false_ne_true, if_pos rfl, bar0Write, hbar]
  dsimp only
  rw [if_neg (by simp [h4, hstate]), if_neg (by simp), if_neg (by omega)]

theorem counterLowRead_lands (hctr : isCtr k = true) (h8 : k % 8 = 0) (hfrz : isFrozen s.dev 0 = false) (hk : k < 0x1000000) (hstate : regState s.dev k = 0)
    (hgroup : isGroup (k / 16 * 16) = false) (hnow : ¬(k < 0x108000 ∧ 0x100000 ≤ k ∧ k % 0x1000 = 0x60)) :
    Lands (.counterLowRead 0 k) s (emit (.regData 0 k (BitVec.ofNat 32 (ctrR s.dev k))) (latchHigh 0 k s.dev)) := by
  have hread : readWord 0 k s.dev = (BitVec.ofNat 32 (ctrR s.dev k), latchHigh 0 k s.dev) := by
    unfold readWord
    rw [if_neg (by omega), if_neg (by omega), hgroup, Bool.false_and, if_neg Bool.false_ne_true, if_neg hnow, readUnit, if_neg (by omega), if_neg (by omega),
      if_pos hctr, readCtr, if_pos h8]
  refine lands_of_lift (exec_counterLowRead 0 k s) ?_
  dsimp only
  rw [if_neg (by simp [hctr, h8]), hfrz, if_neg Bool.false_ne_true, show readerOf 0 = 0 from rfl, hread]

/-! ### Inbound accesses -/

/-- An access that is refused has the refusal's effect. -/
theorem inboundTlp_refused {d : Dev} (h' : tlpRefused h t s.dev = some d) : Lands (.inboundTlp h t) s d := by
  refine (exec_inboundTlp h t s).trans ?_
  unfold execInboundTlp lift
  rw [h']
  dsimp only
  rw [h', Option.getD_some]

/-- What decides the refusal of an access that is well formed, of no completion and not poisoned. -/
theorem tlpRefused_eq {d : Dev} (hh : h < numHosts d.variant) (hup : (hp d h).linkUp = true) (hmal : t.malformed = false) (hpois : t.poisoned = false) (hcpl : t.cpl = none) :
    tlpRefused h t d =
      if t.bar = 3 ∧ d.fatal = false then
        if d.foot.boot ≠ .running then some (emit (.cfgRetry h) d)
        else if decide (fnPort t.fn ≠ h) || !(fnPresent d t.fn) then
          some (aerUncor h aerUnsupported (t.hdr.map (·.toNat)) (if t.write then d else emit (.readCpl h false []) d))
        else none
      else if isFrozen d h || d.fatal then
        some (if t.write then ctrInc (0xD00108 + 0x40 * h) d else emit (.readCpl h true (List.replicate t.len 0xFF)) d)
      else if decide (fnPort t.fn ≠ h) || !(fnPresent d t.fn) || !(memOn d t.fn) ||
          !(decide (t.bar = 0) || (decide (t.bar = 2) && decide (t.fn ≠ 1 ∧ t.fn ≠ 3)) || (decide (t.bar = 4) && hasBar4 d.variant t.fn)) then
        some (aerUncor h aerUnsupported (t.hdr.map (·.toNat)) (if t.write then d else emit (.readCpl h false []) d))
      else none := by
  unfold tlpRefused
  dsimp only
  rw [hup, decide_eq_false (Nat.not_le.mpr hh), hmal, hcpl, hpois]
  simp only [Bool.not_true, Bool.or_self, Bool.false_eq_true, if_false, Bool.and_false, Bool.false_and]

theorem inboundTlp_of_taken (h' : tlpRefused h t s.dev = none) (hbar : t.bar = 4) : exec (.inboundTlp h t) s =
    .next (landed s (if !t.write then tlpRead h t s.dev else match peerTarget s.dev t.fn t.off t.data.length with
      | some x => wrt x.1 x.2 t.data s.dev
      | none => peerClosed h t.fn t.off s.dev)) := by
  refine (exec_inboundTlp h t s).trans ?_
  unfold execInboundTlp lift
  rw [h']
  dsimp only
  rw [hbar, if_neg (by decide), if_pos rfl]
  split <;> rfl

theorem mem_peerClosed (pf off : Nat) (d : Dev) : (peerClosed h pf off d).mem = d.mem ∧ (peerClosed h pf off d).wr = d.wr ∧
    ctrR (peerClosed h pf off d) (0xD00110 + 0x40 * h) = (ctrR d (0xD00110 + 0x40 * h) + 1) % 2 ^ 64 := by
  have hrate (k x : Nat) (d : Dev) (j : Nat) : ctrR (rateNote k x d) j = ctrR d j := rfl
  have hreg (k : Nat) (v : Word) (d : Dev) (j : Nat) : ctrR (regW k v d) j = ctrR d j := rfl
  unfold peerClosed
  dsimp only
  split
  · exact ⟨rfl, rfl, by rw [ctrInc, ctrR_ctrAdd_self, hrate]⟩
  · exact ⟨rfl, rfl, by rw [hreg, hreg, ctrInc, ctrR_ctrAdd_self, hrate]⟩

/-- A write of a peer to memory lands there and nowhere else (R380). -/
theorem landed_wrt (hwr : s.dev.wr = []) (sp a : Nat) (bs : Bytes) :
    (landed s (wrt sp a bs s.dev)).dev = { s.dev with mem := Memory.writeBytes s.dev.mem (spaceAddr sp a) bs } := by
  have hclean : ({ s.dev with mem := Memory.writeBytes s.dev.mem (spaceAddr sp a) bs } : Dev) =
      { s.dev with mem := Memory.writeBytes s.dev.mem (spaceAddr sp a) bs, wr := [] } := by
    dsimp only
    rw [hwr]
  rw [hclean]
  unfold landed wrt
  rw [hwr]
  rfl

/-- Settles O10: each access is one write, one read, or one refusal of the port. -/
theorem registerAndInboundAccessesTouchTheirRegister : Obligations.RegisterAndInboundAccessesTouchTheirRegister := by
  unfold Obligations.RegisterAndInboundAccessesTouchTheirRegister
  refine ⟨fun s k v r hwr => ⟨fun hpres hfrz hfatal h4 hk hstate hrow hown hgroup hlock => ?_, fun hctr h8 hfrz hk hstate hgroup hnow => ?_,
    fun src dst it rest hx => ?_⟩, fun s h t hwr hh hup hmal hpois hcpl => ?_⟩
  · have hlands := registerWrite_lands (v := v) hpres hfrz hfatal h4 hk hstate
    rw [plainWrite_eq (by omega) hrow hown hgroup hlock] at hlands
    refine runs_of_lands_clean hlands rfl hwr ?_
    exact ⟨regR_regW_self _ _ _, rfl, fun j hj => regR_regW_ne _ _ _ _ hj⟩
  · refine runs_of_lands (counterLowRead_lands hctr h8 hfrz hk hstate hgroup hnow) ?_
    exact ⟨rfl, Tbl.get_set_self _ _ _ _, fun j => rfl⟩
  · refine runs_of_lift_clean (exec_xingDeliver src dst s) rfl rfl hwr ?_
    dsimp only
    rw [hx, updFirst]
    simp
  · intro d taken
    subst taken d
    have href := tlpRefused_eq (t := t) hh hup hmal hpois hcpl
    have hgo : isFrozen s.dev h = false ∧ s.dev.fatal = false ∧ fnPort t.fn = h ∧ fnPresent s.dev t.fn = true ∧ memOn s.dev t.fn = true ∧
        t.bar = 4 ∧ hasBar4 s.dev.variant t.fn = true → tlpRefused h t s.dev = none := by
      rintro ⟨hfrz, hfatal, hport, hpres, hmem, hbar, hbar4⟩
      rw [href, hbar, if_neg (by simp), hfrz, hfatal, Bool.or_self, if_neg Bool.false_ne_true, hpres, hmem, hbar4]
      exact if_neg (by simp [hport])
    refine ⟨fun hfrz hbar hw => ?_, fun hfrz hbar hw => ?_, fun sp a ht hw hpeer => ?_, fun ht hw hpeer => ?_, fun ht hw hpeer => ?_,
      fun hbar hfatal hboot => ?_, fun hbar hfatal hboot hport hpres hw => ?_, fun v hfrz => ?_⟩
    · have hd : tlpRefused h t s.dev = some (ctrInc (0xD00108 + 0x40 * h) s.dev) := by
        rw [href, if_neg (fun hc => hbar hc.1), hfrz, Bool.true_or, if_pos rfl, if_pos hw]
      refine runs_of_lands_clean (inboundTlp_refused hd) rfl hwr ?_
      exact ⟨ctrR_ctrAdd_self _ _ _, rfl⟩
    · have hd : tlpRefused h t s.dev = some (emit (.readCpl h true (List.replicate t.len 0xFF)) s.dev) := by
        rw [href, if_neg (fun hc => hbar hc.1), hfrz, Bool.true_or, if_pos rfl, if_neg (by simp [hw])]
      exact runs_of_lands_clean (inboundTlp_refused hd) rfl hwr rfl
    · have hrun := inboundTlp_of_taken (hgo ht) ht.2.2.2.2.2.1
      rw [hw, hpeer, if_neg (by simp)] at hrun
      refine ⟨_, hrun, landed_pending _ _, ?_⟩
      rw [landed_wrt hwr]
      exact ⟨rfl, fun i hi => Memory.read_writeBytes_inside _ _ _ _ hi, fun x hx => Memory.read_writeBytes_outside _ _ _ _ (by dsimp only; omega)⟩
    · have hrun := inboundTlp_of_taken (hgo ht) ht.2.2.2.2.2.1
      rw [hw, hpeer, if_neg (by simp)] at hrun
      obtain ⟨hmem, hclean, hctr⟩ := mem_peerClosed (h := h) t.fn t.off s.dev
      refine runs_of_lands_clean hrun hmem (hclean.trans hwr) ?_
      exact ⟨hctr, fun x _ => by rw [hmem]⟩
    · have hrun := inboundTlp_of_taken (hgo ht) ht.2.2.2.2.2.1
      rw [hw, if_pos (by simp), tlpRead, if_pos ht.2.2.2.2.2.1, hpeer] at hrun
      exact runs_of_lands_clean hrun rfl hwr rfl
    · refine inboundTlp_refused ?_
      rw [href, if_pos ⟨hbar, hfatal⟩, if_pos hboot]
    · have hnone : tlpRefused h t s.dev = none := by
        rw [href, if_pos ⟨hbar, hfatal⟩, if_neg (not_not.mpr hboot), if_neg (by simp [hport, hpres])]
      refine (exec_inboundTlp h t s).trans ?_
      unfold execInboundTlp lift
      rw [hnone]
      dsimp only
      rw [if_pos hbar, hw, if_pos (by simp)]
    · refine lands_of_lift (exec_frzHoldWrite h v s) ?_
      exact if_neg (by simp [hfrz, hh])

end Sys2Proof.Machine

/-! SUPPORT. The memory's channels and ranks (R456–R467). -/

namespace Sys2Proof.Machine
open Sys2Proof

variable {s : State} {d e f : Dev} {ch rank line r : Nat}

/-! ### Channels and ranks -/

theorem dram_dchU (n : Nat) (g : DCh → DCh) (d : Dev) : (dchU n g d).dram = { d.dram with chans := Tbl.upd (fun _ => {}) d.dram.chans n g } := by
  unfold dchU
  dsimp only
  split <;> rfl

theorem dch_dchU_self (n : Nat) (g : DCh → DCh) (d : Dev) : dch (dchU n g d) n = g (dch d n) := by
  unfold dch
  rw [dram_dchU]
  exact Tbl.get_upd_self _ _ _ _

theorem dch_dchU_ne {n k : Nat} (g : DCh → DCh) (d : Dev) (h : k ≠ n) : dch (dchU n g d) k = dch d k := by
  unfold dch
  rw [dram_dchU]
  exact Tbl.get_upd_ne _ _ _ _ _ h

theorem setAt_eq_set {α : Type} (l : List α) (i : Nat) (v : α) : setAt l i v = l.set i v := by
  induction l generalizing i with
  | nil => rfl
  | cons x l ih =>
    cases i with
    | zero => rfl
    | succ i => rw [setAt, ih, List.set_cons_succ]

theorem rankSt_rankSet_self {st : Nat} (h : (dch d (r / 4)).ranks.length = 4) : rankSt (rankSet r st d) r = st := by
  unfold rankSt rankSet
  rw [dch_dchU_self]
  simp [setAt_eq_set, h, Nat.mod_lt]

theorem rankSt_rankSet_ne {r' st : Nat} (h : r' ≠ r) (d : Dev) : rankSt (rankSet r st d) r' = rankSt d r' := by
  unfold rankSt rankSet
  by_cases hc : r' / 4 = r / 4
  · have hm : r % 4 ≠ r' % 4 := by omega
    rw [hc, dch_dchU_self]
    simp [setAt_eq_set, List.getElem?_set_ne hm]
  · rw [dch_dchU_ne _ _ hc]

theorem length_ranks_rankSet (k st : Nat) (d : Dev) : (dch (rankSet r st d) k).ranks.length = (dch d k).ranks.length := by
  unfold rankSet
  by_cases hc : k = r / 4
  · rw [hc, dch_dchU_self]
    simp [setAt_eq_set]
  · rw [dch_dchU_ne _ _ hc]

/-! ### What stays poisoned (R458) -/

/-- The devices have the same lines poisoned. -/
def SamePoison (d e : Dev) : Prop := e.dram.poisoned = d.dram.poisoned

theorem SamePoison.refl (d : Dev) : SamePoison d d := rfl

theorem SamePoison.trans (h : SamePoison d e) (h' : SamePoison e f) : SamePoison d f := Eq.trans h' h

theorem SamePoison.of_dram (h : e.dram = d.dram) : SamePoison d e := congrArg Dram.poisoned h

theorem Logs.dram (h : Logs d e) : e.dram = d.dram := (congrArg Dev.dram h :)

theorem Logs.samePoison (h : Logs d e) : SamePoison d e := .of_dram h.dram

theorem samePoison_rankSet (r st : Nat) (d : Dev) : SamePoison d (rankSet r st d) := by
  unfold rankSet SamePoison
  rw [dram_dchU]

theorem samePoison_foldl {α : Type} {g : Dev → α → Dev} (hstep : ∀ d a, SamePoison d (g d a)) (l : List α) (d : Dev) : SamePoison d (l.foldl g d) :=
  foldl_keeps SamePoison.refl (fun h h' => h.trans h') hstep l d

theorem samePoison_reportUe (r a : Nat) (d : Dev) : SamePoison d (reportUe r a d) :=
  ((logs_logErr _ _ _ _ d).trans (posts_postDev _ _ _).logs).samePoison

theorem samePoison_postDev (code : Nat) (pl : Bytes) (d : Dev) : SamePoison d (postDev code pl d) := (posts_postDev _ _ d).logs.samePoison

theorem samePoison_bitW (k i : Nat) (b : Bool) (d : Dev) : SamePoison d (bitW k i b d) := (posts_bitW _ _ _ d).logs.samePoison

theorem samePoison_placeRegions (d : Dev) : SamePoison d (placeRegions d) := by
  have hregions (rs : List (Nat × Nat)) : SamePoison d (dramU (fun x => { x with regions := rs }) d) := rfl
  unfold placeRegions
  exact (hregions _).trans (samePoison_foldl (fun d _ => (posts_regW _ _ d).logs.samePoison) _ _)

theorem samePoison_removeRank (r : Nat) (d : Dev) : SamePoison d (removeRank r d) := by
  have hnote (a cls isl code : Nat) (bs : Bytes) (d e : Dev) (h : SamePoison d e) : SamePoison d (logErr cls isl code bs (reportUe r a e)) :=
    (h.trans (samePoison_reportUe _ _ _)).trans (logs_logErr _ _ _ _ _).samePoison
  unfold removeRank
  refine (((samePoison_rankSet r 6 d).trans (samePoison_postDev _ _ _)).trans (samePoison_foldl (fun d rg => ?_) _ _)).trans (samePoison_placeRegions _)
  split
  · exact .refl d
  · exact hnote _ _ _ _ _ d _ rfl

theorem samePoison_askCopy (r t : Nat) (pl : Bytes) (d : Dev) :
    SamePoison d (postDev 0xBA pl (bitW 0xB00040 29 true (dramU (fun x => { x with copy := some { src := r, dst := t } }) (rankSet t 4 (rankSet r 3 d))))) := by
  refine (samePoison_rankSet r 3 d).trans ((samePoison_rankSet t 4 _).trans ?_)
  have hcopy (d : Dev) : SamePoison d (dramU (fun x => { x with copy := some { src := r, dst := t } }) d) := rfl
  exact (hcopy _).trans ((samePoison_bitW _ _ _ _).trans (samePoison_postDev _ _ _))

theorem samePoison_retireRank (r : Nat) (d : Dev) : SamePoison d (retireRank r d) := by
  unfold retireRank
  split
  · exact .refl d
  · split
    · exact samePoison_removeRank r d
    · split
      · rfl
      · exact samePoison_askCopy _ _ _ d

theorem samePoison_retireWaiting (d : Dev) : SamePoison d (retireWaiting d) := by
  have hwaiting : SamePoison d (dramU (fun x => { x with waiting := [] }) d) := rfl
  exact hwaiting.trans (samePoison_foldl (fun d r => samePoison_retireRank r d) _ _)

theorem samePoison_endCopy (r src : Nat) (d : Dev) :
    SamePoison d (rankSet src 1 (rankSet r 7 (bitW 0xB00040 29 false (dramU (fun x => { x with copy := none }) d)))) := by
  have hcopy : SamePoison d (dramU (fun x => { x with copy := none }) d) := rfl
  exact hcopy.trans ((samePoison_bitW _ _ _ _).trans ((samePoison_rankSet r 7 _).trans (samePoison_rankSet src 1 _)))

theorem samePoison_rankFails (r : Nat) (d : Dev) : SamePoison d (rankFails r d) := by
  unfold rankFails
  split
  · exact samePoison_retireRank r d
  · exact samePoison_rankSet r 7 d
  · split
    · exact .refl d
    · exact (samePoison_endCopy r _ d).trans ((samePoison_retireRank _ _).trans (samePoison_retireWaiting _))
  · exact .refl d

theorem lineAddr_ctrInc (k : Nat) (d : Dev) (r line : Nat) : lineAddr (ctrInc k d) r line = lineAddr d r line := rfl

theorem linePoisoned_of_mem {a : Nat} (h : a / 64 ∈ d.dram.poisoned) : linePoisoned d a = true := by
  unfold linePoisoned
  rw [List.contains_iff_mem.mpr h, Bool.true_or]

/-- An uncorrectable line stays poisoned (R458). -/
theorem linePoisoned_lineUe {victim a : Nat} (haddr : lineAddr d r line = some a) (hregion : regionOf d a = none) : linePoisoned (lineUe r line victim d) a = true := by
  have hmem (l : List Nat) : a / 64 ∈ (if l.contains (a / 64) then l else l ++ [a / 64]) := by
    split
    · next h => exact List.contains_iff_mem.mp h
    · exact List.mem_append_right _ List.mem_cons_self
  have hregion' (g : Dram → List Nat) : regionOf (dramU (fun x => { x with poisoned := g x }) (ctrInc (rankCtr (r / 4) (r % 4) 8) d)) a = none := hregion
  unfold lineUe
  dsimp only
  rw [lineAddr_ctrInc, haddr]
  dsimp only
  rw [hregion' fun x => if x.poisoned.contains (a / 64) then x.poisoned else x.poisoned ++ [a / 64]]
  refine linePoisoned_of_mem ?_
  rw [((samePoison_reportUe r a _).trans (samePoison_rankFails r _) : _ = _)]
  exact hmem _

/-! ### Copies, scrubs and temperatures -/

/-- The scrub reads the line it has come to, where that is of a rank in use (R459). -/
theorem scrubPlace_of_reachable (hrank : rank < 4) (hline : line < rankLines d) (hst : rankSt d (ch * 4 + rank) ∈ [1, 2, 3, 4])
    (hpos : (dch d ch).scrub = rank * rankLines d + line) : scrubPlace d ch = some (rank, line) := by
  have hdiv : (rank * rankLines d + line) / rankLines d = rank := by
    rw [Nat.mul_comm, Nat.mul_add_div (by omega), Nat.div_eq_of_lt hline, Nat.add_zero]
  have hmod : (rank * rankLines d + line) % rankLines d = line := by
    rw [Nat.mul_comm, Nat.mul_add_mod, Nat.mod_eq_of_lt hline]
  unfold scrubPlace
  dsimp only
  rw [hpos, hdiv, hmod, Nat.mod_eq_of_lt hrank, rankIn, if_pos (List.contains_iff_mem.mpr hst)]

theorem retireWaiting_dram (h : d.dram.waiting = []) : (retireWaiting d).dram = { d.dram with waiting := [] } := by
  unfold retireWaiting
  rw [h]
  rfl

theorem rankSt_of_dram (h : e.dram.chans = d.dram.chans) (r : Nat) : rankSt e r = rankSt d r := by
  unfold rankSt dch
  rw [h]

theorem copy_rankSet (r st : Nat) (d : Dev) : (rankSet r st d).dram.copy = d.dram.copy := by rw [rankSet, dram_dchU]
theorem slots_rankSet (r st : Nat) (d : Dev) : (rankSet r st d).dram.slots = d.dram.slots := by rw [rankSet, dram_dchU]
theorem waiting_rankSet (r st : Nat) (d : Dev) : (rankSet r st d).dram.waiting = d.dram.waiting := by rw [rankSet, dram_dchU]

/-- With no rank waiting, telling that a copy has ended leaves the memory as it is. -/
theorem dram_copyTold {b : Bool} {code : Nat} {pl : Bytes} (k i : Nat) (h : e.dram.waiting = []) :
    (retireWaiting (postDev code pl (bitW k i b e))).dram = { e.dram with waiting := [] } := by
  have hlogs : (postDev code pl (bitW k i b e)).dram = e.dram := ((posts_bitW _ _ _ e).trans (posts_postDev _ _ _)).logs.dram
  rw [retireWaiting_dram (by rw [hlogs, h]), hlogs]

/-- The memory's record of a copy that has ended: its target stands in its source's places. -/
def copyRemapped (p : DCopy) (d : Dev) : Dev :=
  dramU (fun x => { x with copy := none, slots := x.slots.map fun l => l.map fun r => if r = p.src then p.dst else r }) d

theorem copyRemapped_facts (p : DCopy) (d : Dev) : (copyRemapped p d).dram.copy = none ∧ (copyRemapped p d).dram.waiting = d.dram.waiting ∧
    (copyRemapped p d).dram.slots = (d.dram.slots.map fun l => l.map fun r => if r = p.src then p.dst else r) ∧ ∀ k, dch (copyRemapped p d) k = dch d k :=
  ⟨rfl, rfl, rfl, fun _ => rfl⟩

/-- What the end of a copy does: the copy's target takes the source's place (R462). -/
theorem copyEnds {p : DCopy} {pl : Bytes} {b : Bool} (hwait : d.dram.waiting = []) (hne : p.src ≠ p.dst) (hsrc : (dch d (p.src / 4)).ranks.length = 4)
    (hdst : (dch d (p.dst / 4)).ranks.length = 4) :
    let d' := retireWaiting (postDev 0xBB pl (bitW 0xB00040 29 b (rankSet p.dst 1 (rankSet p.src 5 (copyRemapped p d)))))
    d'.dram.copy = none ∧ rankSt d' p.dst = 1 ∧ rankSt d' p.src = 5 ∧ d'.dram.slots = d.dram.slots.map fun l => l.map fun r => if r = p.src then p.dst else r := by
  obtain ⟨hcopy, hwaiting, hslots, hchan⟩ := copyRemapped_facts p d
  have hdram := dram_copyTold (b := b) (code := 0xBB) (pl := pl) 0xB00040 29 (e := rankSet p.dst 1 (rankSet p.src 5 (copyRemapped p d)))
    (by rw [waiting_rankSet, waiting_rankSet, hwaiting, hwait])
  obtain ⟨d', hd'⟩ := exists_eq (a' := retireWaiting (postDev 0xBB pl (bitW 0xB00040 29 b (rankSet p.dst 1 (rankSet p.src 5 (copyRemapped p d))))))
  rw [← hd'] at hdram ⊢
  have hst (r : Nat) : rankSt d' r = rankSt (rankSet p.dst 1 (rankSet p.src 5 (copyRemapped p d))) r := rankSt_of_dram (by rw [hdram]) r
  refine ⟨?_, ?_, ?_, ?_⟩
  · rw [hdram, copy_rankSet, copy_rankSet, hcopy]
  · rw [hst, rankSt_rankSet_self (by rw [length_ranks_rankSet, hchan, hdst])]
  · rw [hst, rankSt_rankSet_ne hne, rankSt_rankSet_self (by rw [hchan, hsrc])]
  · rw [hdram, slots_rankSet, slots_rankSet, hslots]

/-- A reading of a channel's only sensor (R467). -/
theorem dramTempPoll_lands {t : Int} (hin : (dch s.dev ch).inService = true) (hdimms : (dch s.dev ch).dimms = 1) :
    Lands (.dramTempPoll ch [some t]) s
      (let d := dchU ch (fun x => { x with miss := [0, 0], temp := satSigned 8 t, hot := decide (95 < t), refNext := decide (85 < t) || false }) s.dev
       if decide (95 < t) = (dch s.dev ch).hot then d
       else postDev 0xBC (leBytes 1 ch ++ leBytes 1 (b2n (decide (95 < t))) ++ leBytes 1 (ofSigned 8 (satSigned 8 t))) d) := by
  have htop : ([t] : List Int).foldl max ([t].headD 0) = t := max_self t
  refine lands_of_lift (exec_dramTempPoll ch [some t] s) ((if_neg (by simp [hin, hdimms])).trans ?_)
  dsimp only
  rw [show ([some t] : List (Option Int)).filterMap id = [t] from rfl, if_neg (List.cons_ne_nil _ _), htop]
  rfl

theorem rankSt_landed (d : Dev) (r : Nat) : rankSt (landed s d).dev r = rankSt d r := rfl

theorem parity_inUse (hin : (dch d ch).inService = true) (hrank : rank < 4) (hline : line < rankLines d) (hst : rankSt d (ch * 4 + rank) ∈ [1, 2, 3, 4]) :
    ¬((!(dch d ch).inService) = true ∨ 4 ≤ rank ∨ rankLines d ≤ line ∨ (!([1, 2, 3, 4].contains (rankSt d (ch * 4 + rank)))) = true) := by
  rw [hin, List.contains_iff_mem.mpr hst]
  rintro (h | h | h | h)
  · exact Bool.false_ne_true h
  · omega
  · omega
  · exact Bool.false_ne_true h

/-- Settles O49: each event is one count, one line, or one change of a rank; the copy's end puts its target in its source's places. -/
theorem memoryIsScrubbedCopiedAndWatched : Obligations.MemoryIsScrubbedCopiedAndWatched := by
  unfold Obligations.MemoryIsScrubbedCopiedAndWatched
  intro s ch rank line victim c d x r reachable read
  subst read reachable r x d
  refine ⟨fun hin hrate hplace => ?_, fun hpos ⟨hin, hrank, hline, hst⟩ => scrubPlace_of_reachable hrank hline hst hpos, fun hoff res => ?_,
    fun a haddr hregion => linePoisoned_lineUe haddr hregion, fun ⟨hin, hrank, hline, hst⟩ retries hr => ?_, fun ⟨hin, hrank, hline, hst⟩ => ?_,
    fun p hcopy hmore => ?_, fun p hcopy hlast hwait hdst hsrc hne hsl hdl => ?_, fun hin => ?_, fun t hin hdimms ht hhot => ?_, fun t hin hdimms ht hhot => ?_, ?_⟩
  · have hgo : ¬((!(dch s.dev ch).inService) = true ∨ effF s.dev 0xB00010 23 16 = 0 ∨ scrubPlace s.dev ch ≠ some (rank, line)) := by simp [hin, hrate, hplace]
    exact ⟨lands_of_lift (exec_scrubStep ch rank line .good victim s) (if_neg hgo), lands_of_lift (exec_scrubStep ch rank line .corrected victim s) (if_neg hgo),
      lands_of_lift (exec_scrubStep ch rank line .uncorrectable victim s) (if_neg hgo)⟩
  · refine lands_of_lift (exec_scrubStep ch rank line res victim s) (if_pos ?_)
    rcases hoff with h | h | h
    · exact .inr (.inl h)
    · exact .inl (by rw [h]; rfl)
    · exact .inr (.inr h)
  · refine lands_of_lift (exec_caParityError ch rank line retries s) ((if_neg ?_).trans ?_)
    · exact parity_inUse hin hrank hline hst
    · dsimp only
      rw [if_pos hr, Nat.min_eq_left hr]
  · refine lands_of_lift (exec_caParityError ch rank line 4 s) ((if_neg ?_).trans ?_)
    · exact parity_inUse hin hrank hline hst
    · exact if_neg (by decide)
  · refine lands_of_lift (exec_spareCopyStep .good false s) ?_
    dsimp only
    rw [hcopy]
    exact (if_neg Bool.false_ne_true).trans (if_pos hmore)
  · refine runs_of_lift (exec_spareCopyStep .good false s) ?_
    dsimp only
    rw [hcopy]
    dsimp only
    rw [if_neg Bool.false_ne_true, if_neg (Nat.not_lt.mpr hlast)]
    rw [landed_dram, rankSt_landed, rankSt_landed]
    exact copyEnds hwait hne hsl hdl
  · exact lands_of_lift (exec_dramRefresh ch s) (if_pos hin)
  · have hlands := dramTempPoll_lands (s := s) (t := t) hin hdimms
    dsimp only at hlands
    rw [decide_eq_false (not_lt.mpr ht), hhot, if_pos rfl, Bool.or_false] at hlands
    exact hlands
  · have hlands := dramTempPoll_lands (s := s) (t := t) hin hdimms
    dsimp only at hlands
    rw [decide_eq_true ht, decide_eq_true (by omega : 85 < t), hhot, if_neg (by simp)] at hlands
    exact hlands
  · intro n r keys
    subst keys r n
    exact ⟨serves_of_lift (exec_dramRankRetire c s) rfl, serves_of_lift (exec_dramStats c s) rfl⟩

end Sys2Proof.Machine

/-! SUPPORT. Resets and power states of functions (R363, R368, R372, R373, R390, R403). -/

namespace Sys2Proof.Machine
open Sys2Proof

variable {s : State} {d e f' : Dev} {f g h : Nat}

/-! ### Posting an event to a function leaves every other function's record -/

/-- The devices agree on the record of every function but `f`. -/
def OthersFns (f : Nat) (d e : Dev) : Prop := ∀ g, g ≠ f → fn e g = fn d g

theorem OthersFns.refl (f : Nat) (d : Dev) : OthersFns f d d := fun _ _ => rfl

theorem OthersFns.trans (h : OthersFns f d e) (h' : OthersFns f e f') : OthersFns f d f' := fun g hg => (h' g hg).trans (h g hg)

theorem OthersFns.of_fns (h : e.fns = d.fns) : OthersFns f d e := fun g _ => by rw [fn, fn, h]

theorem othersFns_ite {p : Prop} [Decidable p] {a b : Dev} (ha : OthersFns f d a) (hb : OthersFns f d b) : OthersFns f d (if p then a else b) := by
  split <;> assumption

theorem othersFns_fnU (f : Nat) (g : Fn → Fn) (d : Dev) : OthersFns f d (fnU f g d) := fun k hk => fn_fnU_ne f k g d hk

theorem othersFns_emit (o : Out) (d : Dev) : OthersFns f d (emit o d) := .of_fns (emit_fns o d)
theorem othersFns_wrt (sp a : Nat) (bs : Bytes) (d : Dev) : OthersFns f d (wrt sp a bs d) := .of_fns (wrt_fns sp a bs d)
theorem othersFns_regW (k : Nat) (v : Word) (d : Dev) : OthersFns f d (regW k v d) := .of_fns (regW_fns k v d)
theorem othersFns_bitW (k i : Nat) (b : Bool) (d : Dev) : OthersFns f d (bitW k i b d) := .of_fns (bitW_fns k i b d)
theorem othersFns_ctrInc (k : Nat) (d : Dev) : OthersFns f d (ctrInc k d) := .of_fns (ctrInc_fns k d)

theorem othersFns_logPage (f a : Nat) (d : Dev) : OthersFns f d (logPage f a d) := by
  unfold logPage
  split
  · exact .refl f d
  · split
    · exact .refl f d
    · split
      · exact (othersFns_wrt _ _ _ d).trans (othersFns_ctrInc _ _)
      · exact (othersFns_fnU f _ d).trans (othersFns_ctrInc _ _)

theorem othersFns_dmaRaw (f a : Nat) (bs : Bytes) (d : Dev) : OthersFns f d (dmaRaw f a bs d) := by
  have hlog (ps : List Nat) (e : Dev) : OthersFns f e (ps.foldl (fun d p => logPage f p d) e) := by
    induction ps generalizing e with
    | nil => exact .refl f e
    | cons p ps ih => exact (othersFns_logPage f p e).trans (ih _)
  exact (othersFns_wrt _ a bs d).trans (hlog _ _)

theorem othersFns_signalVec (f v : Nat) (d : Dev) : OthersFns f d (signalVec f v d) := by
  unfold signalVec
  split
  · split
    · exact othersFns_emit _ d
    · exact othersFns_bitW _ _ _ d
  · split
    · dsimp only
      exact othersFns_ite ((othersFns_bitW _ _ _ d).trans ((othersFns_fnU f _ _).trans (othersFns_emit _ _))) (othersFns_bitW _ _ _ d)
    · exact othersFns_ite (.refl f d) (othersFns_fnU f _ d)

theorem othersFns_eqWrite (f : Nat) (e : Bytes) (d : Dev) : OthersFns f d (eqWrite f e d) := by
  have hput (a b : Nat) (bs bs' : Bytes) (g : Fn → Fn) (o : Out) : OthersFns f d (emit o (fnU f g (dmaRaw f b bs' (dmaRaw f a bs d)))) :=
    (othersFns_dmaRaw f a bs d).trans ((othersFns_dmaRaw f b bs' _).trans ((othersFns_fnU f g _).trans (othersFns_emit o _)))
  exact othersFns_ite ((hput _ _ _ _ _ _).trans (othersFns_signalVec f _ _)) (hput _ _ _ _ _ _)

theorem othersFns_eventLost (f : Nat) (d : Dev) : OthersFns f d (eventLost f d) :=
  (othersFns_ctrInc _ d).trans ((othersFns_regW _ _ _).trans (othersFns_fnU f _ _))

theorem othersFns_postEvent (f code about : Nat) (payload : Bytes) (d : Dev) : OthersFns f d (postEvent f code about payload d) :=
  othersFns_ite (othersFns_eventLost f d) (othersFns_ite (othersFns_eqWrite f _ d) (othersFns_ite (othersFns_fnU f _ d) (othersFns_eventLost f d)))

theorem fn_postDev (code : Nat) (payload : Bytes) (d : Dev) (hg : g ≠ 0) : fn (postDev code payload d) g = fn d g :=
  othersFns_postEvent 0 code _ payload d g hg

/-! ### Holding a function's queues leaves its record -/

/-- What holding queues may touch: registers, queues and packets. -/
def Holds (d e : Dev) : Prop := ∃ r q p, e = { d with regs := r, queues := q, pkts := p }

theorem Holds.refl (d : Dev) : Holds d d := ⟨_, _, _, rfl⟩

theorem Holds.trans (h : Holds d e) (h' : Holds e f') : Holds d f' := by
  obtain ⟨r, q, p, rfl⟩ := h
  obtain ⟨r', q', p', rfl⟩ := h'
  exact ⟨r', q', p', rfl⟩

theorem Holds.fn (h : Holds d e) (g : Nat) : Machine.fn e g = Machine.fn d g := by
  obtain ⟨r, q, p, rfl⟩ := h
  rfl

theorem holds_holdQueue (g : Queue → Queue) (f qt lq : Nat) (d : Dev) : Holds d (holdQueue g f qt lq d) := by
  have hgive : Holds d (giveUp f lq d) := by
    unfold giveUp
    dsimp only
    split
    · exact .refl d
    · split
      · exact ⟨_, _, _, rfl⟩
      · exact .refl d
  have hq (e : Dev) (k : Queue → Queue) : Holds e (queueU f qt lq k e) := ⟨_, _, _, rfl⟩
  unfold holdQueue
  split
  · exact .refl d
  · split
    · exact hgive.trans (hq _ _)
    · exact hq d _

theorem holds_holdFn (f : Nat) (d : Dev) : Holds d (holdFn f d) := by
  have hstep (d : Dev) (x : Nat × Queue) : Holds d (if decide (x.1 / 262144 = f) = true
      then holdQueue (fun q => { q with holdBme := true }) (x.1 / 262144) (x.1 / 65536 % 4) (x.1 % 65536) d else d) := by
    split
    · exact holds_holdQueue _ _ _ _ d
    · exact .refl d
  unfold holdFn eachQueue
  generalize d.queues = l
  induction l generalizing d with
  | nil => exact .refl d
  | cons x l ih => exact (hstep d x).trans (ih _)

theorem mayDma_of_bme (h : (fn d f).bme = false) : mayDma d f = false := by
  unfold mayDma
  rw [h]
  rfl

theorem mayDma_of_d3hot (h : (fn d f).d3hot = true) : mayDma d f = false := by
  unfold mayDma
  rw [h]
  simp

/-! ### A function's reset -/

/-- With no work item anywhere, none is dropped. -/
theorem dropItemsOf_eq (hc : d.clusters = []) : dropItemsOf f d = d := by
  have hthr (c t : Nat) : (thr d c t).item = none := by
    unfold thr clu
    rw [hc]
    rfl
  have hinner (c : Nat) (ts : List Nat) : ts.foldl (fun d t => match (thr d c t).item with
      | some i => if i.frame.owner = f then gateDrop i.frame (dropItem c t d) else d
      | none => d) d = d := by
    induction ts with
    | nil => rfl
    | cons t ts ih => rw [List.foldl_cons, hthr, ih]
  have houter (cs : List Nat) : cs.foldl (fun d c => loopN 64 (fun t d => match (thr d c t).item with
      | some i => if i.frame.owner = f then gateDrop i.frame (dropItem c t d) else d
      | none => d) d) d = d := by
    induction cs with
    | nil => rfl
    | cons c cs ih =>
      rw [List.foldl_cons]
      exact (congrArg (fun e => cs.foldl _ e) (hinner c (List.range 64))).trans ih
  exact houter _

/-- With no frame held, none is dropped. -/
theorem dropHeldOf_eq (hh : (hp d (fnPort f)).hold = []) : dropHeldOf f d =
    hpU (fnPort f) (fun p => { p with hold := [], holdBytes := p.holdBytes - 0 }) d := by
  unfold dropHeldOf
  dsimp only
  rw [hh]
  rfl

theorem hold_hpU {u : HostPort → HostPort} (hu : ∀ x, x.hold = [] → (u x).hold = []) {k : Nat} (hd : (hp d k).hold = []) (j : Nat) : (hp (hpU j u d) k).hold = [] := by
  unfold hp hpU at *
  by_cases hk : k = j
  · subst hk
    rw [Tbl.get_upd_self]
    exact hu _ hd
  · rw [Tbl.get_upd_ne _ _ _ _ _ hk]
    exact hd

/-- What a function's reset leaves of its record (R373, R403). -/
def resetFn (y : Fn) : Fn :=
  { ({} : Fn) with
    mse := y.mse, vfMse := y.vfMse, bme := y.bme, parityResp := y.parityResp, serr := y.serr, intxDisable := y.intxDisable, d3hot := y.d3hot
    msixEnable := y.msixEnable, maxPayload := y.maxPayload, maxRead := y.maxRead, vfEnable := y.vfEnable, numVfs := y.numVfs
    gen := (y.gen + 1) % 256, ready := y.ready, resetBusy := y.resetBusy, log := y.log, vfConfig := y.vfConfig
    spoofMask := y.spoofMask, grants := y.grants, ceilings := y.ceilings, jobs := y.jobs, gateSlots := y.gateSlots }

/-- What a reset of a function leaves, where no work item and no frame held for it must be dropped. -/
structure ResetOf (f : Nat) (d e : Dev) : Prop where
  self : fn e f = resetFn (fn d f)
  others : OthersFns f d e
  queues : e.queues = d.queues.filter fun x => decide (x.1 / 262144 ≠ f)
  clusters : e.clusters = d.clusters
  hold : ∀ k, (hp d k).hold = [] → (hp e k).hold = []

/-- What belongs to a function's old generation goes: its packets, its queues and its registers. -/
def fnGone (f : Nat) (d : Dev) : Dev :=
  let parked := ((d.queues.filter fun e => decide (e.1 / 262144 = f)).map fun e => e.2.parked.length).sum
  let d := ctrAdd 0x900130 parked (regW 0x900014 (regR d 0x900014 + BitVec.ofNat 32 parked) d)
  let parts := d.pkts.partition fun p => decide (p.fn = f) && decide (p.stage = 0)
  let d := ctrAdd 0x900130 parts.1.length (regW 0x900018 (regR d 0x900018 - BitVec.ofNat 32 parts.1.length) { d with pkts := parts.2 })
  let out := fun (k : Nat) => (decide (fnKey f 0x100 ≤ k) && decide (k < fnKey f 0x300)) ||
    (decide (fnKey f 0x7000 ≤ k) && decide (k < fnKey f 0x10000)) || decide (k = fnKey f 0x14)
  { d with queues := d.queues.filter fun e => decide (e.1 / 262144 ≠ f), regs := d.regs.filter fun e => !(out e.1) }

theorem fnGone_facts (f : Nat) (d : Dev) : (fnGone f d).fns = d.fns ∧ (fnGone f d).clusters = d.clusters ∧ (fnGone f d).hports = d.hports ∧
    (fnGone f d).queues = d.queues.filter fun x => decide (x.1 / 262144 ≠ f) := ⟨rfl, rfl, rfl, rfl⟩

theorem intxGone_eq (f : Nat) (d : Dev) : ∃ o, (if (fn d f).intxOn then emit (.intx f false) d else d) = { d with out := o } := by
  split <;> exact ⟨_, rfl⟩

/-- A function's reset before it drops what is held for it. -/
def fnCleared (f : Nat) (d : Dev) : Dev :=
  let d := fnU f resetFn (fnGone f (if (fn d f).intxOn then emit (.intx f false) d else d))
  if f = 0 ∨ f = 2 then hpU (fnPort f) (fun p => { p with spdm := 0 }) d else d

theorem fnReset_eq (f : Nat) (d : Dev) : fnReset f d = dropItemsOf f (dropHeldOf f (fnCleared f d)) := rfl

theorem resetOf_fnCleared (f : Nat) (d : Dev) : ResetOf f d (fnCleared f d) := by
  obtain ⟨o, ho⟩ := intxGone_eq f d
  obtain ⟨hfns, hclu, hhp, hq⟩ := fnGone_facts f { d with out := o }
  obtain ⟨u, hu⟩ := exists_eq (a' := fnGone f { d with out := o })
  rw [← hu] at hfns hclu hhp hq
  have hself : fn (fnU f resetFn u) f = resetFn (fn d f) := by rw [fn_fnU_self, fn, fn, hfns]
  have hothers : OthersFns f d (fnU f resetFn u) := OthersFns.trans (.of_fns hfns) (othersFns_fnU f resetFn u)
  have hhold (k : Nat) (hk : (hp d k).hold = []) : (hp (fnU f resetFn u) k).hold = [] := by
    rw [← hk, hp, hp]
    exact congrArg (fun t => (Tbl.get (fun _ => ({} : HostPort)) t k).hold) hhp
  unfold fnCleared
  rw [ho, ← hu]
  dsimp only
  split
  · exact ⟨hself, hothers, hq, hclu, fun k hk => hold_hpU (u := fun p => { p with spdm := 0 }) (fun _ hx => hx) (hhold k hk) _⟩
  · exact ⟨hself, hothers, hq, hclu, hhold⟩

theorem resetOf_fnReset (hc : d.clusters = []) (hh : (hp d (fnPort f)).hold = []) : ResetOf f d (fnReset f d) := by
  obtain ⟨hself, hothers, hq, hclu, hhold⟩ := resetOf_fnCleared f d
  rw [fnReset_eq, dropHeldOf_eq (hhold _ hh), dropItemsOf_eq (d := hpU _ _ _) (hclu.trans hc)]
  exact ⟨hself, hothers, hq, hclu, fun k hk => hold_hpU (u := fun p => { p with hold := [], holdBytes := p.holdBytes - 0 }) (fun _ _ => rfl) (hhold k hk) _⟩

theorem queue_of_reset {qt lq : Nat} (h : ResetOf f d e) (hqt : qt < 4) (hlq : lq < 65536) : queue e f qt lq = {} := by
  have hkey : decide (qKey f qt lq / 262144 ≠ f) = false := by
    unfold qKey
    simp
    omega
  rw [queue, h.queues]
  exact Tbl.get_filter_of_false _ (fun k => decide (k / 262144 ≠ f)) _ hkey

/-- A function's configuration at its defaults (R373). -/
def defaultFn (x : Fn) : Fn :=
  { x with mse := false, vfMse := false, bme := false, parityResp := false, serr := false, intxDisable := false, d3hot := false, msixEnable := false
           maxPayload := 128, maxRead := 512, vfEnable := false, numVfs := 0, intxOn := false }

theorem cfgDefaults_facts (f : Nat) (d : Dev) : fn (cfgDefaults f d) f = defaultFn (fn d f) ∧ OthersFns f d (cfgDefaults f d) ∧
    (cfgDefaults f d).clusters = d.clusters ∧ (cfgDefaults f d).hports = d.hports := by
  unfold cfgDefaults
  exact ⟨fn_fnU_self _ _ _, OthersFns.trans (.of_fns rfl) (othersFns_fnU f _ _), rfl, rfl⟩

/-- What the beginning of a VF's reset leaves of its record. -/
theorem beginReset_vf {all : Bool} (hvf : isVf f = true) : fn (beginReset f all d) f =
    (if all then defaultFn { fn d f with ready := false, resetBusy := true } else { fn d f with ready := false, resetBusy := true }) := by
  have hpf : isLedgerPf f = false := by
    have h4 : 4 ≤ f := of_decide_eq_true hvf
    simp [isLedgerPf]
    omega
  have hheld : fn (holdFn f (fnU f (fun x => { x with ready := false, resetBusy := true }) d)) f = { fn d f with ready := false, resetBusy := true } := by
    rw [(holds_holdFn f _).fn, fn_fnU_self]
  unfold beginReset
  dsimp only
  rw [hvf, hpf, Bool.not_true, Bool.and_false, if_neg Bool.false_ne_true, Bool.false_and, if_neg Bool.false_ne_true]
  split
  · rw [(cfgDefaults_facts f _).1, hheld]
  · exact hheld

/-! ### VF Enable -/

/-- What VF Enable's fall does to one VF. -/
def dropVf (g : Nat) (d : Dev) : Dev :=
  fnU g (fun x => { x with log := none, ready := false, resetBusy := false }) (fnReset g (cfgDefaults g d))

/-- Dropping a VF leaves every other function's record, and a device with nothing held or worked on as such. -/
theorem dropVf_facts (hc : d.clusters = []) (hh : ∀ h, (hp d h).hold = []) (g : Nat) :
    OthersFns g d (dropVf g d) ∧ (dropVf g d).clusters = [] ∧ ∀ h, (hp (dropVf g d) h).hold = [] := by
  obtain ⟨-, hothers, hclu, hhp⟩ := cfgDefaults_facts g d
  have hh' (h : Nat) : (hp (cfgDefaults g d) h).hold = [] := by
    rw [hp, hhp]
    exact hh h
  have hreset := resetOf_fnReset (f := g) (hclu.trans hc) (hh' _)
  unfold dropVf
  refine ⟨hothers.trans (hreset.others.trans (othersFns_fnU g _ _)), ?_, fun h => ?_⟩
  · rw [fnU_clusters, hreset.clusters, hclu, hc]
  · rw [hp_fnU]
    exact hreset.hold h (hh' h)

/-- Which of the functions below `n` a PF's VF Enable gives or takes. -/
def vfsWhere (n f : Nat) (p : Nat → Bool) : List Nat := (List.range n).filter fun g => isVf g && decide (parentPf g = f) && p g

theorem ne_of_mem_vfsWhere {n : Nat} {p : Nat → Bool} (hf : f < 4) (hg : g ∈ vfsWhere n f p) : g ≠ f := by
  have hvf := (List.mem_filter.mp hg).2
  simp only [Bool.and_eq_true] at hvf
  have h4 : 4 ≤ g := of_decide_eq_true hvf.1.1
  omega

theorem dropVfs_eq (f : Nat) (d : Dev) : dropVfs f d = (vfsWhere 1024 f fun g => fnPresent d g || decide (vfIndex g ≤ (fn d f).vfKept)).foldl
    (fun d g => dropVf g d) (fnU f (fun x => { x with vfEnable := false, vfKept := 0 }) d) := rfl

theorem fn_dropVfs_fold {l : List Nat} (hl : ∀ g ∈ l, g ≠ f) (hc : d.clusters = []) (hh : ∀ h, (hp d h).hold = []) :
    fn (l.foldl (fun d g => dropVf g d) d) f = fn d f := by
  induction l generalizing d with
  | nil => rfl
  | cons g l ih =>
    obtain ⟨hothers, hclu, hhold⟩ := dropVf_facts hc hh g
    rw [List.foldl_cons, ih (fun x hx => hl x (List.mem_cons_of_mem _ hx)) hclu hhold, hothers f (hl g List.mem_cons_self).symm]

/-- VF Enable's fall takes it from the PF. -/
theorem vfEnable_dropVfs (hf : f < 4) (hc : d.clusters = []) (hh : ∀ h, (hp d h).hold = []) : (fn (dropVfs f d) f).vfEnable = false := by
  have hfold (l : List Nat) (hl : ∀ g ∈ l, g ≠ f) : fn (l.foldl (fun d g => dropVf g d) (fnU f (fun x => { x with vfEnable := false, vfKept := 0 }) d)) f =
      { fn d f with vfEnable := false, vfKept := 0 } :=
    (fn_dropVfs_fold (d := fnU f (fun x => { x with vfEnable := false, vfKept := 0 }) d) hl hc hh).trans (fn_fnU_self _ _ _)
  rw [dropVfs_eq, hfold _ fun g hg => ne_of_mem_vfsWhere hf hg]

theorem fnPresent_of_vfDisabled (hvf : isVf g = true) (hpar : parentPf g = f) (h : (fn d f).vfEnable = false) : fnPresent d g = false := by
  have h4 : ¬g < 4 := Nat.not_lt.mpr (of_decide_eq_true hvf)
  unfold fnPresent
  rw [hpar, h, decide_eq_false h4]
  simp

theorem fnPresent_landed (d : Dev) (g : Nat) : fnPresent (landed s d).dev g = fnPresent d g := rfl

theorem hp_hpU_self (u : HostPort → HostPort) (d : Dev) : hp (hpU h u d) h = u (hp d h) := Tbl.get_upd_self _ _ _ _

/-- A VF made present changes no other function's record. -/
theorem fn_vfsFresh_fold {l : List Nat} {u : Fn → Fn} (hl : ∀ g ∈ l, g ≠ f) (d : Dev) : fn (l.foldl (fun d g => fnU g u d) d) f = fn d f := by
  induction l generalizing d with
  | nil => rfl
  | cons g l ih => rw [List.foldl_cons, ih (fun x hx => hl x (List.mem_cons_of_mem _ hx)), fn_fnU_ne _ _ _ _ (hl g List.mem_cons_self).symm]

theorem wakeFn_asleep (h : mayDma d f = false) (h1 : f ≠ 1) (h3 : f ≠ 3) : wakeFn f d = d := by
  unfold wakeFn ledgerWake resumeFn
  rw [h, if_neg (by omega)]
  rfl

/-- Settles O31: each change is one record's, and what it drops or holds leaves the others. -/
theorem functionResetsAdvanceTheGeneration : Obligations.FunctionResetsAdvanceTheGeneration := by
  unfold Obligations.FunctionResetsAdvanceTheGeneration
  intro s f h n v d x
  subst x d
  refine ⟨fun hp hvf => ?_, fun hp hvf hv hfrz => ?_, fun hbusy hvf hc hh => ?_, fun hf hp hoff => ?_, fun hf hp hon hc hhp => ?_, fun hvf hp hbusy => ?_,
    fun hp => ?_, fun hp h1 h3 hd3 => ?_, fun hp hvf => ?_, fun hh => ?_, fun hh => ?_, fun hup => ?_⟩
  · refine runs_of_lift (exec_flr f s) ?_
    rw [if_pos hp, fn_landed, beginReset_vf hvf]
    exact ⟨rfl, rfl, rfl, rfl⟩
  · have h4 : 4 ≤ f := of_decide_eq_true hvf
    have hgo : (fnPresent s.dev f && Word.bit v 0 && !(isFrozen s.dev (fnPort f)) && !(!(hasLedger s.dev.variant) && decide (f = 1 ∨ f = 3))) = true := by
      rw [hp, show Word.bit v 0 = true from hv, hfrz, decide_eq_false (by omega)]
      simp
    refine runs_of_lift (exec_fnReset f v s) ?_
    rw [if_pos hgo, if_pos hvf, fn_landed, beginReset_vf hvf]
    exact ⟨rfl, rfl, rfl⟩
  · have h4 : 4 ≤ f := of_decide_eq_true hvf
    have hreset := resetOf_fnReset hc hh
    refine runs_of_lift (exec_flrDone f s) ?_
    rw [if_pos hbusy]
    dsimp only
    rw [fn_landed, fn_postDev _ _ _ (by omega), fn_fnU_self, hreset.self]
    refine ⟨rfl, rfl, rfl, rfl, fun qt lq hqt hlq => ?_⟩
    rw [queue_landed, (posts_postDev _ _ _).queue, queue_fnU]
    exact queue_of_reset hreset hqt hlq
  · have hlands : Lands (.vfEnable f true n) s ((vfsWhere 1024 f fun g =>
        fnPresent (fnU f (fun x => { x with vfKept := 0 }) (fnU f (fun x => { x with vfEnable := true, numVfs := n }) s.dev)) g &&
          decide ((fn (fnU f (fun x => { x with vfEnable := true, numVfs := n }) s.dev) f).vfKept < vfIndex g)).foldl
        (fun d g => fnU g (fun x => { x with gen := (x.gen + 1) % 256, ready := false }) d)
        (fnU f (fun x => { x with vfKept := 0 }) (fnU f (fun x => { x with vfEnable := true, numVfs := n }) s.dev))) := by
      have hassoc (p q r t : Nat → Bool) : (fun g => p g && q g && r g && t g) = fun g => p g && q g && (r g && t g) := by
        funext g
        rw [Bool.and_assoc]
      refine lands_of_lift (exec_vfEnable f true n s) ((if_neg ?_).trans ((if_pos rfl).trans ?_))
      · rcases hf with rfl | rfl <;> simp [hp, hoff]
      · unfold vfsWhere
        rw [← hassoc]
    refine runs_of_lands hlands ?_
    rw [fn_landed, fn_vfsFresh_fold fun g hg => ne_of_mem_vfsWhere (by omega) hg, fn_fnU_self, fn_fnU_self]
    exact ⟨rfl, rfl, rfl⟩
  · have hhold (k : Nat) : (Machine.hp s.dev k).hold = [] := by
      rw [Machine.hp, hhp]
      rfl
    have hfall := vfEnable_dropVfs (f := f) (by omega) hc hhold
    refine runs_of_lift (exec_vfEnable f false n s) ?_
    have hgo : (!(decide (f = 0) || decide (f = 2)) || !(fnPresent s.dev f) || (fn s.dev f).vfEnable == false) = false := by
      rcases hf with rfl | rfl <;> simp [hp, hon]
    rw [hgo, if_neg Bool.false_ne_true, if_neg Bool.false_ne_true, fn_landed]
    exact ⟨hfall, fun g hg hpar => (fnPresent_landed _ g).trans (fnPresent_of_vfDisabled hg hpar hfall)⟩
  · refine runs_of_lift (exec_vfReady f s) ?_
    rw [hvf, hp, hbusy, fn_landed]
    exact (congrArg Fn.ready (fn_fnU_self f _ s.dev) :)
  · have hbme : (fn (holdFn f (fnU f (fun x => { x with bme := false }) s.dev)) f).bme = false := by rw [(holds_holdFn f _).fn, fn_fnU_self]
    refine runs_of_lift (exec_busMasterEnable f false s) ?_
    rw [hp, if_neg (by simp), if_neg Bool.false_ne_true, fn_landed]
    exact ⟨hbme, mayDma_of_bme hbme⟩
  · have hrec : fn (fnU f (fun x => { x with bme := true }) s.dev) f = { fn s.dev f with bme := true } := fn_fnU_self _ _ _
    have hoff : mayDma (fnU f (fun x => { x with bme := true }) s.dev) f = false := mayDma_of_d3hot (by rw [hrec]; exact hd3)
    refine runs_of_lift (exec_busMasterEnable f true s) ?_
    rw [hp, if_neg (by simp), if_pos rfl, wakeFn_asleep hoff h1 h3, fn_landed, hrec]
    exact ⟨rfl, hoff⟩
  · have hd3 : (fn (holdFn f (fnU f (fun x => { x with d3hot := true }) s.dev)) f).d3hot = true := by rw [(holds_holdFn f _).fn, fn_fnU_self]
    refine runs_of_lift (exec_d3hot f true s) ?_
    rw [hp, hvf, if_neg (by simp), if_pos rfl, fn_landed]
    exact ⟨hd3, mayDma_of_d3hot hd3⟩
  · refine runs_of_lift (exec_perstN h false s) ?_
    rw [decide_eq_false (Nat.not_le.mpr hh), if_neg Bool.false_ne_true, if_neg Bool.false_ne_true]
    exact ⟨rfl, by rw [hp_landed, hp_hpU_self]⟩
  · exact lands_of_lift (exec_perstN h true s) (if_neg (by simp [hh]))
  · exact lands_of_lift (exec_hotReset h s) (if_pos hup)

end Sys2Proof.Machine

/-! SUPPORT. Links, containment and interrupts of host ports (R362, R369, R371, R374, R375, R377, R383, R384, R388). -/

namespace Sys2Proof.Machine
open Sys2Proof

variable {s : State} {d e e' : Dev} {f g h k n : Nat}

/-! ### A host port's freeze register (R380) is its own -/

/-- The two devices' registers of the configuration spaces' upper part (R380) agree: those above every function's own registers. -/
def SameFrz (d e : Dev) : Prop := ∀ h, regR e (frzStatKey h) = regR d (frzStatKey h)

theorem SameFrz.refl (d : Dev) : SameFrz d d := fun _ => rfl

theorem SameFrz.trans (h : SameFrz d e) (h' : SameFrz e e') : SameFrz d e' := fun k => (h' k).trans (h k)

theorem SameFrz.of_regs (h : e.regs = d.regs) : SameFrz d e := fun _ => by rw [regR, regR, h]

theorem SameFrz.bitR (hs : SameFrz d e) (h i : Nat) : Machine.bitR e (frzStatKey h) i = Machine.bitR d (frzStatKey h) i :=
  congrArg (Word.bit · i) (hs h)

theorem SameFrz.isFrozen (hs : SameFrz d e) (h : Nat) : Machine.isFrozen e h = Machine.isFrozen d h := hs.bitR h 31

theorem sameFrz_regW (v : Word) (d : Dev) (hk : ∀ h, k ≠ frzStatKey h) : SameFrz d (regW k v d) := fun h =>
  regR_regW_ne _ _ _ _ (hk h).symm

theorem sameFrz_bitW (i : Nat) (b : Bool) (d : Dev) (hk : ∀ h, k ≠ frzStatKey h) : SameFrz d (bitW k i b d) := by
  unfold bitW fldW
  exact sameFrz_regW _ d hk

theorem cfgKey_ne_frzStatKey {off : Nat} (ho : off < 0x1000) (hne : off ≠ 0x2DC) (g h : Nat) : cfgKey g off ≠ frzStatKey h := by
  unfold cfgKey frzStatKey cfgKey
  omega

theorem fnKey_ne_frzStatKey {off : Nat} (ho : off < 0x10000) (h : Nat) : fnKey 0 off ≠ frzStatKey h := by
  unfold fnKey frzStatKey cfgKey
  omega

theorem sameFrz_fnU (f : Nat) (u : Fn → Fn) (d : Dev) : SameFrz d (fnU f u d) := .of_regs rfl
theorem sameFrz_emit (o : Out) (d : Dev) : SameFrz d (emit o d) := .of_regs rfl
theorem sameFrz_ctrInc (k : Nat) (d : Dev) : SameFrz d (ctrInc k d) := .of_regs rfl

theorem sameFrz_dmaRaw (f a : Nat) (bs : Bytes) (d : Dev) : SameFrz d (dmaRaw f a bs d) := by
  have hpage (p : Nat) (d : Dev) : SameFrz d (logPage f p d) := by
    unfold logPage
    split
    · exact .refl d
    · split
      · exact .refl d
      · split
        · exact .of_regs rfl
        · exact .of_regs rfl
  exact (SameFrz.of_regs (wrt_regs _ a bs d)).trans (foldl_keeps SameFrz.refl .trans (fun d p => hpage p d) _ _)

theorem sameFrz_signalVec (d : Dev) {v : Nat} (hv : v < 2048) : SameFrz d (signalVec 0 v d) := by
  unfold signalVec
  split
  · split
    · exact sameFrz_emit _ d
    · exact sameFrz_bitW _ _ d (fnKey_ne_frzStatKey (by omega))
  · split
    · dsimp only
      have hbit := sameFrz_bitW (v % 32) true d (fnKey_ne_frzStatKey (off := 0x14) (by omega))
      split
      · exact hbit.trans ((sameFrz_fnU _ _ _).trans (sameFrz_emit _ _))
      · exact hbit
    · split
      · exact .refl d
      · exact sameFrz_fnU _ _ d

theorem fldR_lt (d : Dev) (k hi lo : Nat) : fldR d k hi lo < 2 ^ (hi + 1 - lo) := by
  unfold fldR Word.fld
  exact Nat.mod_lt _ (by positivity)

theorem sameFrz_eqWrite (b : Bytes) (d : Dev) : SameFrz d (eqWrite 0 b d) := by
  have hput (x y : Nat) (bs bs' : Bytes) (u : Fn → Fn) (o : Out) :
      SameFrz d (emit o (fnU 0 u (dmaRaw 0 y bs' (dmaRaw 0 x bs d)))) :=
    (sameFrz_dmaRaw 0 x bs d).trans <| (sameFrz_dmaRaw 0 y bs' _).trans <| (sameFrz_fnU 0 u _).trans <| sameFrz_emit o _
  unfold eqWrite
  dsimp only
  split
  · exact (hput _ _ _ _ _ _).trans (sameFrz_signalVec _ (fldR_lt _ _ 26 16))
  · exact hput _ _ _ _ _ _

theorem sameFrz_eventLost (d : Dev) : SameFrz d (eventLost 0 d) :=
  (sameFrz_ctrInc _ d).trans <| (sameFrz_regW _ _ (fnKey_ne_frzStatKey (by omega))).trans (sameFrz_fnU _ _ _)

theorem sameFrz_postDev (code : Nat) (payload : Bytes) (d : Dev) : SameFrz d (postDev code payload d) := by
  unfold postDev postEvent
  dsimp only
  split
  · exact sameFrz_eventLost d
  · split
    · exact sameFrz_eqWrite _ d
    · split
      · exact sameFrz_fnU _ _ d
      · exact sameFrz_eventLost d

theorem sameFrz_logErr (cls island code : Nat) (detail : Bytes) (d : Dev) : SameFrz d (logErr cls island code detail d) := by
  have hnote (was : Bool) (bs : Bytes) (e : Dev) : SameFrz e (driveAlert was (postDev 0xF0 bs e)) := by
    refine (sameFrz_postDev 0xF0 bs e).trans ?_
    unfold driveAlert
    split
    · exact .refl _
    · exact sameFrz_emit _ _
  have hent (es : List ErrEnt) (n : Nat) : SameFrz d { d with errs := es, errSeq := n } := .of_regs rfl
  have hovw (e : Dev) : SameFrz e (regW 0x810 (regR e 0x810 + 1) e) := sameFrz_regW _ e fun h => by unfold frzStatKey cfgKey; omega
  unfold logErr
  split
  · exact hent _ _
  · split
    · exact (hent _ _).trans (hnote _ _ _)
    · split
      · split
        · exact (hent _ _).trans ((hovw _).trans (hnote _ _ _))
        · exact hovw d
      · exact .refl d

/-! ### Holding a frozen port's queues -/

theorem sameFrz_holdQueue (u : Queue → Queue) (f qt lq : Nat) (d : Dev) : SameFrz d (holdQueue u f qt lq d) := by
  have hgive : SameFrz d (giveUp f lq d) := by
    unfold giveUp
    dsimp only
    split
    · exact .refl d
    · split
      · exact (sameFrz_regW (k := 0x900018) _ { d with pkts := _ } fun h => by unfold frzStatKey cfgKey; omega).trans (.of_regs rfl)
      · exact .refl d
  unfold holdQueue
  split
  · exact .refl d
  · split
    · exact hgive.trans (.of_regs rfl)
    · exact .of_regs rfl

theorem sameFrz_eachQueue_hold (p : Nat → Bool) (u : Queue → Queue) (d : Dev) :
    SameFrz d (eachQueue p (fun f qt lq d => holdQueue u f qt lq d) d) := by
  refine foldl_keeps SameFrz.refl .trans (fun d x => ?_) _ d
  dsimp only
  split
  · exact sameFrz_holdQueue _ _ _ _ d
  · exact .refl d

theorem bitR_fldW_out (k : Nat) {hi lo j : Nat} (v : Nat) (d : Dev) (hlo : lo ≤ hi) (hj : j < 32) (h : j < lo ∨ hi < j) :
    bitR (fldW k hi lo v d) k j = bitR d k j := by
  simp only [bitR, fldW, regR_regW_self, Word.bit_put _ _ _ _ _ hlo hj]
  rw [if_neg (by omega)]

/-- What freezing writes to the port's freeze register: its bit, its cause's bit and the first cause. -/
def freezeStat (h c : Nat) (d : Dev) : Dev :=
  fldW (frzStatKey h) 7 4 c (bitW (frzStatKey h) 30 false (bitW (frzStatKey h) 31 true (bitW (frzStatKey h) (c - 1) true d)))

theorem freezeStat_facts (c : Nat) (d : Dev) (hc : c < 5) :
    isFrozen (freezeStat h c d) h = true ∧ bitR (freezeStat h c d) (frzStatKey h) (c - 1) = true := by
  unfold isFrozen freezeStat
  rw [bitR_fldW_out _ _ _ (by omega) (by omega) (by omega), bitR_bitW_ne _ _ _ _ _ (by omega) (by omega), bitR_bitW_self _ _ _ _ (by omega),
    bitR_fldW_out _ _ _ (by omega) (by omega) (by omega), bitR_bitW_ne _ _ _ _ _ (by omega) (by omega),
    bitR_bitW_ne _ _ _ _ _ (by omega) (by omega), bitR_bitW_self _ _ _ _ (by omega)]
  exact ⟨rfl, rfl⟩

/-- What freezing does after its own register is written: the header kept, the queues held and the reports. -/
def freezeRest (h c : Nat) (hdr : List Word) (d : Dev) : Dev :=
  logErr 1 (hIsland h) (0xD0 * 256 + c) (leBytes 1 h ++ leBytes 1 c)
    (postDev 0xD0 (leBytes 1 h ++ leBytes 1 c)
      (eachQueue (fun f => decide (fnPort f = h)) (fun f qt lq d => holdQueue (fun q => { q with holdFrz := true }) f qt lq d)
        (regW (cfgKey (2 * h) 0x2F4) 0
          ((List.range 4).foldl (fun d i =>
            regW (cfgKey (2 * h) (0x2E0 + 4 * i)) (if c = 1 ∨ c = 4 then 0 else hdr.getD i 0) d) d))))

theorem freezePort_eq (c : Nat) (hdr : List Word) (hfree : isFrozen d h = false) :
    freezePort h c hdr d = freezeRest h c hdr (freezeStat h c d) := by
  unfold freezePort
  dsimp only
  rw [hfree]
  rfl

theorem sameFrz_freezeRest (h c : Nat) (hdr : List Word) (d : Dev) : SameFrz d (freezeRest h c hdr d) := by
  have hkept (l : List Nat) (hl : ∀ i ∈ l, i < 4) (e : Dev) : SameFrz e (l.foldl (fun d i =>
      regW (cfgKey (2 * h) (0x2E0 + 4 * i)) (if c = 1 ∨ c = 4 then 0 else hdr.getD i 0) d) e) := by
    induction l generalizing e with
    | nil => exact .refl e
    | cons i l ih =>
      have hi := hl i List.mem_cons_self
      exact (sameFrz_regW _ e (cfgKey_ne_frzStatKey (by omega) (by omega) _)).trans (ih (fun j hj => hl j (List.mem_cons_of_mem _ hj)) _)
  exact (hkept _ (fun i hi => List.mem_range.mp hi) d).trans <|
    (sameFrz_regW _ _ (cfgKey_ne_frzStatKey (by omega) (by omega) _)).trans <|
    (sameFrz_eachQueue_hold _ _ _).trans <| (sameFrz_postDev _ _ _).trans (sameFrz_logErr _ _ _ _ _)

/-- The first error of the containment class freezes its port and sets its cause (R374, R375). -/
theorem freezePort_freezes (c : Nat) (hdr : List Word) (hc : c < 5) (hfree : isFrozen d h = false) :
    isFrozen (freezePort h c hdr d) h = true ∧ bitR (freezePort h c hdr d) (frzStatKey h) (c - 1) = true := by
  rw [freezePort_eq c hdr hfree, (sameFrz_freezeRest _ _ _ _).isFrozen, (sameFrz_freezeRest _ _ _ _).bitR]
  exact freezeStat_facts c d hc

/-! ### A port that goes down frozen loses its functions' settings (R363, R379) -/

theorem sameFrz_cfgDefaults (f : Nat) (d : Dev) : SameFrz d (cfgDefaults f d) := fun h => by
  refine Tbl.get_filter_of_true regReset (fun k => !(decide (cfgKey f 0 ≤ k) && decide (k < cfgKey f 0x2D0))) d.regs ?_
  unfold frzStatKey cfgKey
  simp only [Bool.not_eq_true', Bool.and_eq_false_iff, decide_eq_false_iff_not]
  omega

theorem sameFrz_holdFn (f : Nat) (d : Dev) : SameFrz d (holdFn f d) := sameFrz_eachQueue_hold _ _ d

theorem hp_posts (h : Posts d e) (k : Nat) : hp e k = hp d k := by
  rw [h]
  rfl

theorem arriveRx_idle (hx : d.xings = []) : arriveRx h d = d := by
  unfold arriveRx
  rw [hx]
  rfl

theorem poisonMet_sound (ask : Bool) (rg : Nat) (hd : d.dram.degraded = []) : poisonMet ask rg d = (false, d) := by
  unfold poisonMet
  rw [hd]
  cases ask <;> rfl

theorem holdFrame_fits {it : RxItem} (hfit : (hp d h).holdBytes + holdCharge it.frame.bytes.length ≤ holdMib d h * 1048576) :
    holdFrame h it d = hpU h (fun p => { p with hold := p.hold ++ [it], holdBytes := p.holdBytes + holdCharge it.frame.bytes.length }) d :=
  if_pos hfit

/-- What HOST_LINK does to one function of a port that went down frozen (R379). -/
def linkLost (d : Dev) (f : Nat) : Dev :=
  holdFn f (fnU f (fun y => { y with vfKept := if (fn d f).vfEnable then (fn d f).numVfs else (fn d f).vfKept }) (cfgDefaults f d))

theorem sameFrz_linkLost (d : Dev) (f : Nat) : SameFrz d (linkLost d f) :=
  (sameFrz_cfgDefaults f d).trans <| (sameFrz_fnU _ _ _).trans (sameFrz_holdFn _ _)

/-- A port whose link is down. -/
def hostLinkDown (h : Nat) (d : Dev) : Dev :=
  regW (0xD00010 + 4 * h) 0 (hpU h (fun p => { p with linkUp := false, linkL0 := false, inL1 := false }) d)

/-- What HOST_LINK does to the functions of a port that went down frozen. -/
def linksLost (h : Nat) (d : Dev) : Dev :=
  if isFrozen d h then
    (([2 * h, 2 * h + 1] ++ (d.fns.map Prod.fst).filter fun f => isVf f && decide (fnPort f = h)).filter fun f => fnExists d.variant f).foldl
      linkLost (hpU h (fun p => { p with aspmL1 := false }) d)
  else d

theorem sameFrz_linksLost (h : Nat) (d : Dev) : SameFrz d (linksLost h d) := by
  unfold linksLost
  split
  · exact (SameFrz.of_regs rfl).trans (foldl_keeps SameFrz.refl .trans sameFrz_linkLost _ (hpU h _ d))
  · exact .refl d

theorem sameFrz_hostLinkDown (d : Dev) (hh : h < 2) : SameFrz d (hostLinkDown h d) :=
  (SameFrz.of_regs rfl).trans (sameFrz_regW 0 (hpU h _ d) fun k => by unfold frzStatKey cfgKey; omega)

theorem numHosts_le (v : Variant) : numHosts v ≤ 2 := by cases v <;> decide

/-- A link that drops by surprise freezes its port with cause 1, and what follows leaves the freeze register. -/
theorem hostLink_surprise {fl rv : Bool} {n w : Nat} (hh : h < numHosts s.dev.variant) (hup : (hp s.dev h).linkUp = true)
    (hfz : isFrozen s.dev h = false) : Runs (.hostLink h false true fl rv n w) s fun d' =>
      isFrozen d' h = true ∧ bitR d' (frzStatKey h) 0 = true := by
  have hlands : Lands (.hostLink h false true fl rv n w) s (postDev 0xD2 (leBytes 1 h ++ leBytes 1 0 ++ leBytes 1 0 ++ leBytes 1 0)
      (linksLost h (aerUncor h aerSurprise [] (freezePort h 1 [] (hostLinkDown h s.dev))))) :=
    lands_of_lift (exec_hostLink h false true fl rv n w s)
      ((if_neg (by simpa using hh)).trans ((if_neg Bool.false_ne_true).trans (if_neg (by simp [hup]))))
  have hfree : isFrozen (hostLinkDown h s.dev) h = false :=
    ((sameFrz_hostLinkDown s.dev (hh.trans_le (numHosts_le _))).isFrozen h).trans hfz
  have hrest (d : Dev) : SameFrz d (postDev 0xD2 (leBytes 1 h ++ leBytes 1 0 ++ leBytes 1 0 ++ leBytes 1 0) (linksLost h (aerUncor h aerSurprise [] d))) :=
    (SameFrz.of_regs rfl).trans ((sameFrz_linksLost h (aerUncor h aerSurprise [] d)).trans (sameFrz_postDev _ _ _))
  refine runs_of_lands hlands ?_
  rw [isFrozen, bitR_landed, bitR_landed, (hrest _).bitR, (hrest _).bitR]
  exact freezePort_freezes 1 [] (by omega) hfree

/-- A link that comes up shows LINK_UP in its port's status. -/
theorem hostLink_up {su fl rv : Bool} {n w : Nat} (hh : h < numHosts s.dev.variant) (hperst : (hp s.dev h).perst = false)
    (hi : islandOn s.dev (hIsland h) = true) : Runs (.hostLink h true su fl rv n w) s fun d' =>
      (hp d' h).linkUp = true ∧ (hp d' h).linkL0 = true ∧ bitR d' (0xD00010 + 4 * h) 31 = true := by
  have hh2 := hh.trans_le (numHosts_le _)
  refine runs_of_lift (exec_hostLink h true su fl rv n w s) ?_
  rw [if_neg (by simpa using hh), if_pos rfl, hperst, hi, if_neg (by simp), hp_landed, bitR_landed]
  dsimp only
  rw [hp_posts (posts_postDev _ _ _), postDev,
    (sameMap_postEvent _ _ _ _ _).bitR _ _ (by omega), hp_regW, hp_hpU_self, bitR, regR_regW_self,
    Word.bit_put _ _ _ _ _ (by omega) (by omega), if_neg (by omega), Word.bit_put _ _ _ _ _ (by omega) (by omega), if_neg (by omega)]
  refine ⟨rfl, rfl, ?_⟩
  unfold Word.putBit
  rw [Word.bit_put _ _ _ _ _ (by omega) (by omega), if_neg (by omega), Word.bit_put _ _ _ _ _ (by omega) (by omega), if_neg (by omega),
    Word.bit_put _ _ _ _ _ (by omega) (by omega), if_pos (by omega)]
  rfl

/-- With no queue known, a turn of every queue changes nothing. -/
theorem eachQueue_none {p : Nat → Bool} {r : Nat → Nat → Nat → Dev → Dev} (hq : e.queues = []) : eachQueue p r e = e := by
  unfold eachQueue
  rw [hq]
  rfl

/-- With no function and no queue known, a release wakes none. -/
theorem eachQueue_foldl_none {p q : Nat → Bool} {u : Dev → Nat → Dev} {r : Nat → Nat → Nat → Dev → Dev} (hf : e.fns = []) (hq : e.queues = []) :
    eachQueue p r (((e.fns.map Prod.fst).filter q).foldl u e) = e := by
  rw [hf]
  exact eachQueue_none hq

/-- Settles O32: every register a port's containment reads back is one no event, log entry or held queue writes. -/
theorem hostPortsContainAndRelease : Obligations.HostPortsContainAndRelease := by
  unfold Obligations.HostPortsContainAndRelease
  intro s f h n w fl rv a b v k d fk
  subst fk
  subst d
  refine ⟨fun hh hperst hi => ?_, fun hh hup hfz => ?_, fun h0 h1 hn => ?_, fun h1 => ?_, fun hc hfz => ?_, fun hv hfz h0 hst hf hq => ?_,
    fun hv hfz h0 => ?_, fun hdr hh hq => ?_, fun hr => ?_, fun hpr hk ho hr => ?_, fun hpr hfz hvf => ?_, fun hr => ?_,
    fun it rest hx hfa hi hfz hrx hfit => ?_, fun it rest hx hfa hi hfz hdr hrx => ?_, fun it rest hx hfa hi hfz hdr hh hrx hdeg => ?_⟩
  · exact hostLink_up hh hperst hi
  · exact hostLink_surprise hh hup hfz
  · refine runs_of_lift (exec_aspmL1Entry h true n s) ?_
    rw [if_pos rfl, h0, h1, if_pos (by simpa using hn), hp_landed, hp_hpU_self]
    exact ⟨rfl, rfl, rfl⟩
  · refine runs_of_lift (exec_aspmL1Entry h false n s) ?_
    rw [if_neg Bool.false_ne_true, h1, if_pos rfl, hp_landed, hp_hpU_self]
    exact ⟨rfl, rfl⟩
  · have hlands : Lands (.completionTimeout f k) s (freezePort (fnPort f) 4 [] (aerUncor (fnPort f) aerTimeout [] s.dev)) :=
      lands_of_lift (exec_completionTimeout f k s) (if_pos hc)
    exact runs_of_lands hlands (freezePort_freezes 4 [] (by omega) hfz)
  · have hk : ∀ j, cfgKey (2 * h) 0x2D8 ≠ frzStatKey j := cfgKey_ne_frzStatKey (by omega) (by omega) _
    have hbit : Word.bit v 31 = true := hv
    have hset (x : Word) : SameFrz s.dev (regW (cfgKey (2 * h) 0x2D8) x s.dev) := sameFrz_regW x s.dev hk
    refine runs_of_lift (exec_frzRelease h v s) ?_
    dsimp only
    rw [hbit, if_neg (by simp), hp_regW, h0, fldR, hset _ h, ← fldR, hst, if_neg (by simp), (hset _).isFrozen, hfz, if_neg (by simp),
      eachQueue_foldl_none (e := hpU h _ _), isFrozen, isDraining, bitR_landed, bitR_landed, hp_landed, hp_hpU_self, bitR_hpU, bitR_hpU,
      bitR_fldW_out _ _ _ (by omega) (by omega) (by omega), bitR_bitW_ne _ _ _ _ _ (by omega) (by omega), bitR_bitW_self _ _ _ _ (by omega),
      bitR_fldW_out _ _ _ (by omega) (by omega) (by omega), bitR_bitW_self _ _ _ _ (by omega)]
    · exact ⟨rfl, rfl, rfl⟩
    · rw [hpU_fns, fldW_fns, bitW_fns, bitW_fns, regW_fns, hf]
    · rw [hpU_queues, fldW_queues, bitW_queues, bitW_queues, regW_queues, hq]
  · have hk : ∀ j, cfgKey (2 * h) 0x2D8 ≠ frzStatKey j := cfgKey_ne_frzStatKey (by omega) (by omega) _
    have hbit : Word.bit v 31 = true := hv
    have hset (x : Word) : SameFrz s.dev (regW (cfgKey (2 * h) 0x2D8) x s.dev) := sameFrz_regW x s.dev hk
    refine runs_of_lift (exec_frzRelease h v s) ?_
    dsimp only
    rw [hbit, if_neg (by simp), hp_regW, h0, if_pos (by simp), isFrozen, bitR_landed, bitR_landed, bitR_bitW_self _ _ _ _ (by omega),
      bitR_bitW_ne _ _ _ _ _ (by omega) (by omega), (hset _).bitR]
    exact ⟨hfz, rfl⟩
  · refine lands_of_lift (exec_hostReleased h s) ?_
    dsimp only
    rw [hdr, hh, if_neg (by simp), eachQueue_none (e := bitW (frzStatKey h) 30 false s.dev) ((bitW_queues _ _ _ _).trans hq), hp_bitW]
  · exact lands_of_lift (exec_peerClosed f s) (if_pos hr)
  · have hrec := fn_fnU_self f (fun x => { x with msixEnable := a, intxDisable := b && decide (f < 4) }) s.dev
    have hidle (e : Dev) (x y : Dev) (p q : Bool) : (if p then if !false && decide ((0 : Word).toNat ≠ 0) && q then x else e
        else if false then y else e) = e := by cases p <;> rfl
    refine runs_of_lift (exec_msiXEnable f a b s) ?_
    dsimp only
    rw [hpr, if_neg (by simp), hrec]
    dsimp only
    rw [ho, hk, regR_fnU, hr, List.foldl_nil, hidle, fn_landed]
    split
    · rw [fn_fnU_self, hrec]
      exact ⟨rfl, rfl⟩
    · rw [hrec]
      exact ⟨rfl, rfl⟩
  · have hreg (w : Word) (o : Out) (u : Fn → Fn) : regR (emit o (fnU f u (regW (fnKey f 0x14) w s.dev))) (fnKey f 0x14) = w := regR_regW_self _ _ _
    refine runs_of_lift (exec_fnIntxPendClear f v s) ?_
    dsimp only
    rw [hpr, hfz, hvf, if_neg (by simp), regR_landed]
    split
    · exact hreg _ _ _
    · exact regR_regW_self _ _ _
  · exact lands_of_lift (exec_spoofDetected f s) (if_pos hr)
  · refine runs_of_lift (exec_rxDelivery h s) ?_
    rw [arriveRx_idle hx]
    dsimp only
    rw [hfa, hi, hfz, if_neg (by simp), if_pos rfl, hrx]
    dsimp only
    rw [holdFrame_fits (by rw [hp_hpU_self]; exact hfit), hp_landed, hp_hpU_self, hp_hpU_self]
    exact ⟨rfl, rfl, rfl⟩
  · refine lands_of_lift (exec_rxDelivery h s) ?_
    rw [arriveRx_idle hx]
    dsimp only
    rw [hfa, hi, hfz, hdr, if_neg (by simp), if_neg (by simp), if_neg (by simp), hrx]
  · refine lands_of_lift (exec_rxDelivery h s) ?_
    rw [arriveRx_idle hx]
    dsimp only
    rw [hfa, hi, hfz, hdr, if_neg (by simp), if_neg (by simp), if_pos rfl, hh, hrx]
    dsimp only [List.foldl_nil]
    have hsound (u v : HostPort → HostPort) : poisonMet true 3 (hpU h u (hpU h v s.dev)) = (false, hpU h u (hpU h v s.dev)) := poisonMet_sound true 3 hdeg
    simp only [hsound, Bool.false_eq_true, if_false]

end Sys2Proof.Machine

/-! SUPPORT. What the time engine's operations on one string leave alone (R54–R72): every other string, and all of the device but
registers, counters and outputs; and which fields of the string itself each may change. -/

namespace Sys2Proof.Machine
open Sys2Proof

variable {d e e' : Dev} {i j : Nat} {x y z : Str}

theorem str_strU_self (i : Nat) (u : Str → Str) (d : Dev) : str (strU i u d) i = u (str d i) := Tbl.get_upd_self _ _ _ _
theorem str_strU_ne (u : Str → Str) (d : Dev) (h : j ≠ i) : str (strU i u d) j = str d j := Tbl.get_upd_ne _ _ _ _ _ h

theorem str_posts (h : Posts d e) (j : Nat) : str e j = str d j := by
  rw [h]
  rfl

theorem str_postDev (code : Nat) (payload : Bytes) (d : Dev) (j : Nat) : str (postDev code payload d) j = str d j :=
  str_posts (posts_postDev _ _ _) j

/-! ### The device around one string -/

/-- The devices agree on every register of the device map but a string's TIME_STAT (R43, R65). -/
def SameTimeMap (d e : Dev) : Prop := ∀ k, k < 0x1000000 → k % 0x1000 ≠ 0x40 → regR e k = regR d k

theorem SameMap.timeMap (h : SameMap d e) : SameTimeMap d e := fun k hk _ => h.regR k hk

/-- The devices differ in one string's record and in what posting an event may touch. -/
structure Tunes (i : Nat) (d e : Dev) : Prop where
  rest : e = { d with regs := e.regs, ctrs := e.ctrs, wr := e.wr, out := e.out, fns := e.fns, freeIdx := e.freeIdx, strs := e.strs }
  others : ∀ j, j ≠ i → str e j = str d j
  map : SameTimeMap d e

theorem Tunes.refl (i : Nat) (d : Dev) : Tunes i d d := ⟨rfl, fun _ _ => rfl, fun _ _ _ => rfl⟩

theorem Tunes.trans (h : Tunes i d e) (h' : Tunes i e e') : Tunes i d e' :=
  ⟨by rw [h'.rest, h.rest], fun j hj => (h'.others j hj).trans (h.others j hj), fun k hk hk' => (h'.map k hk hk').trans (h.map k hk hk')⟩

theorem Posts.tunes (h : Posts d e) (hm : SameTimeMap d e) (i : Nat) : Tunes i d e := by
  refine ⟨?_, fun j _ => str_posts h j, hm⟩
  rw [h]

theorem tunes_postDev (i code : Nat) (payload : Bytes) (d : Dev) : Tunes i d (postDev code payload d) :=
  (posts_postDev _ _ _).tunes (sameMap_postEvent _ _ _ _ _).timeMap i

theorem tunes_strU (i : Nat) (u : Str → Str) (d : Dev) : Tunes i d (strU i u d) := ⟨rfl, fun _ hj => str_strU_ne u d hj, fun _ _ _ => rfl⟩
theorem tunes_fresh (i : Nat) (d : Dev) : Tunes i d (fresh d).2 := ⟨rfl, fun _ _ => rfl, fun _ _ _ => rfl⟩

theorem Tunes.eff (h : Tunes i d e) : e.eff = d.eff := by rw [h.rest]
theorem Tunes.time (h : Tunes i d e) : e.time = d.time := by rw [h.rest]
theorem Tunes.variant (h : Tunes i d e) : e.variant = d.variant := by rw [h.rest]
theorem Tunes.effR (h : Tunes i d e) (k : Nat) : Machine.effR e k = Machine.effR d k := by rw [Machine.effR, Machine.effR, h.eff]
theorem Tunes.now (h : Tunes i d e) : Machine.now e = Machine.now d := by rw [Machine.now, Machine.now, h.time]
theorem Tunes.timeServiceUp (h : Tunes i d e) : Machine.timeServiceUp e = Machine.timeServiceUp d := by
  rw [h.rest]
  rfl

theorem roundFree_tunes (num : Int) (den : Nat) (d : Dev) : Tunes i d (roundFree num den d).2 ∧ str (roundFree num den d).2 i = str d i := by
  unfold roundFree
  split
  · exact ⟨tunes_fresh i d, rfl⟩
  · split
    · exact ⟨.refl i d, rfl⟩
    · exact ⟨tunes_fresh i d, rfl⟩

/-! ### Which fields of a string an operation may change -/

/-- `y` is `x` with its uncertainty judged anew (R71). -/
def Judged (x y : Str) : Prop :=
  y = { x with
    u := y.u, pMaxU := y.pMaxU, spans := y.spans, oob := y.oob, pOobSince := y.pOobSince, pOobTicks := y.pOobTicks }

/-- `y` is `x` with its uncertainty judged anew and its frequency and increment carried (R55, R57). -/
def Steered (x y : Str) : Prop :=
  y = { x with
    u := y.u, pMaxU := y.pMaxU, spans := y.spans, oob := y.oob, pOobSince := y.pOobSince, pOobTicks := y.pOobTicks
    freq := y.freq, hist := y.hist, sched := y.sched }

/-- `y` is `x` steered, with a slew set or stopped (R56). -/
def Slewed (x y : Str) : Prop :=
  y = { x with
    u := y.u, pMaxU := y.pMaxU, spans := y.spans, oob := y.oob, pOobSince := y.pOobSince, pOobTicks := y.pOobTicks
    freq := y.freq, hist := y.hist, sched := y.sched, slew := y.slew, slewEnd := y.slewEnd }

/-- `y` is `x` moved to a state, perhaps its own (R61, R65). -/
def Moved (x y : Str) : Prop :=
  y = { x with
    u := y.u, pMaxU := y.pMaxU, spans := y.spans, oob := y.oob, pOobSince := y.pOobSince, pOobTicks := y.pOobTicks
    freq := y.freq, hist := y.hist, sched := y.sched, st := y.st, histMean := y.histMean, stTicks := y.stTicks
    lastDrone := y.lastDrone, since := y.since, visited := y.visited, slew := y.slew, slewEnd := y.slewEnd
    uFrozen := y.uFrozen, growth := y.growth }

/-- `y` is `x` after the accepted offset `o` that it shows entered the state rules (R57, R61, R63). -/
def Offered (o : Int) (x y : Str) : Prop :=
  x.ofs = o → y = { x with
    u := y.u, pMaxU := y.pMaxU, spans := y.spans, oob := y.oob, pOobSince := y.pOobSince, pOobTicks := y.pOobTicks
    freq := y.freq, hist := y.hist, sched := y.sched, st := y.st, histMean := y.histMean, stTicks := y.stTicks
    lastDrone := y.lastDrone, since := y.since, visited := y.visited, slew := y.slew, slewEnd := y.slewEnd
    uFrozen := y.uFrozen, growth := y.growth, window := y.window, uMeas := y.uMeas, dtValid := y.dtValid
    lockCount := y.lockCount, returnCount := y.returnCount, dispFrom := y.dispFrom, latched := y.latched
    stepArmed := y.stepArmed, refusals := y.refusals, pRefusals := y.pRefusals, steps := y.steps
    pSteps := y.pSteps, pStepSum := y.pStepSum, lastStep := y.lastStep, stepReading := y.stepReading }

theorem Judged.steered (h : Judged x y) : Steered x y := by
  unfold Judged at h
  rw [h]
  rfl

theorem Steered.moved (h : Steered x y) : Moved x y := by
  unfold Steered at h
  rw [h]
  rfl

theorem Steered.slewed (h : Steered x y) : Slewed x y := by
  unfold Steered at h
  rw [h]
  rfl

theorem Slewed.moved (h : Slewed x y) : Moved x y := by
  unfold Slewed at h
  rw [h]
  rfl

theorem Slewed.st (h : Slewed x y) : y.st = x.st := (congrArg Str.st (show y = _ from h) :)

theorem Slewed.trans (h : Slewed x y) (h' : Slewed y z) : Slewed x z := by
  unfold Slewed at *
  rw [h', h]

theorem Moved.offered (h : Moved x y) (o : Int) : Offered o x y := fun _ => by
  unfold Moved at h
  rw [h]

theorem Judged.sched (h : Judged x y) : y.sched = x.sched := (congrArg Str.sched (show y = _ from h) :)
theorem Judged.steps (h : Judged x y) : y.steps = x.steps := (congrArg Str.steps (show y = _ from h) :)
theorem Judged.freq (h : Judged x y) : y.freq = x.freq := (congrArg Str.freq (show y = _ from h) :)
theorem Steered.st (h : Steered x y) : y.st = x.st := (congrArg Str.st (show y = _ from h) :)
theorem Steered.srcKind (h : Steered x y) : y.srcKind = x.srcKind := (congrArg Str.srcKind (show y = _ from h) :)
theorem Steered.t (h : Steered x y) : y.t = x.t := (congrArg Str.t (show y = _ from h) :)
theorem Steered.incr (h : Steered x y) : y.incr = x.incr := (congrArg Str.incr (show y = _ from h) :)
theorem Steered.slew (h : Steered x y) : y.slew = x.slew := (congrArg Str.slew (show y = _ from h) :)
theorem Steered.growth (h : Steered x y) : y.growth = x.growth := (congrArg Str.growth (show y = _ from h) :)
theorem Moved.stepArmed (h : Moved x y) : y.stepArmed = x.stepArmed := (congrArg Str.stepArmed (show y = _ from h) :)
theorem Steered.stepArmed (h : Steered x y) : y.stepArmed = x.stepArmed := (congrArg Str.stepArmed (show y = _ from h) :)
theorem Moved.srcKind (h : Moved x y) : y.srcKind = x.srcKind := (congrArg Str.srcKind (show y = _ from h) :)
theorem Moved.srcOk (h : Moved x y) : y.srcOk = x.srcOk := (congrArg Str.srcOk (show y = _ from h) :)
theorem Moved.t (h : Moved x y) : y.t = x.t := (congrArg Str.t (show y = _ from h) :)
theorem Moved.refusals (h : Moved x y) : y.refusals = x.refusals := (congrArg Str.refusals (show y = _ from h) :)
theorem Moved.incr (h : Moved x y) : y.incr = x.incr := (congrArg Str.incr (show y = _ from h) :)
theorem Moved.owner (h : Moved x y) : y.owner = x.owner := (congrArg Str.owner (show y = _ from h) :)

theorem Steered.trans (h : Steered x y) (h' : Steered y z) : Steered x z := by
  unfold Steered at *
  rw [h', h]

theorem Moved.trans (h : Moved x y) (h' : Moved y z) : Moved x z := by
  unfold Moved at *
  rw [h', h]

theorem Offered.ofs {o : Int} (h : Offered o x y) (ho : x.ofs = o) : y.ofs = o := by
  rw [h ho]
  exact ho

theorem Offered.trans {o : Int} (h : Offered o x y) (h' : Offered o y z) : Offered o x z := fun ho => by
  rw [h' (h.ofs ho), h ho]

/-- An operation on one string: it tunes the device around string `i`, and the string's record stands in the relation named. -/
def Acts (R : Str → Str → Prop) (i : Nat) (d e : Dev) : Prop := Tunes i d e ∧ R (str d i) (str e i)

theorem Acts.trans {R : Str → Str → Prop} (h : Acts R i d e) (hR : ∀ {x y z}, R x y → R y z → R x z) (h' : Acts R i e e') : Acts R i d e' :=
  ⟨h.1.trans h'.1, hR h.2 h'.2⟩

theorem Acts.mono {R R' : Str → Str → Prop} (h : Acts R i d e) (hR : ∀ {x y}, R x y → R' x y) : Acts R' i d e := ⟨h.1, hR h.2⟩

theorem acts_of_same {R : Str → Str → Prop} (hR : ∀ x, R x x) (ht : Tunes i d e) (hs : str e i = str d i) : Acts R i d e :=
  ⟨ht, hs ▸ hR _⟩

theorem acts_strU {R : Str → Str → Prop} {u : Str → Str} (hu : ∀ x, R x (u x)) : Acts R i d (strU i u d) :=
  ⟨tunes_strU i u d, by rw [str_strU_self]; exact hu _⟩

theorem acts_postDev {R : Str → Str → Prop} (hR : ∀ x, R x x) (code : Nat) (payload : Bytes) (d : Dev) : Acts R i d (postDev code payload d) :=
  acts_of_same hR (tunes_postDev i _ _ _) (str_postDev _ _ _ _)

/-! ### The operations -/

theorem acts_uNow {R : Str → Str → Prop} (hR : ∀ x, R x x) (d : Dev) : Acts R i d (uNow d i).2 := by
  have hsame : Acts R i d d := acts_of_same hR (.refl i d) rfl
  have hround : Acts R i d (roundFree ((str d i).growth : Int) 1000000000 d).2 := acts_of_same hR (roundFree_tunes _ _ d).1 (roundFree_tunes _ _ d).2
  unfold uNow
  dsimp only
  cases (str d i).st with
  | drone => exact hsame
  | acquire | locked =>
    dsimp only
    split <;> exact hsame
  | holdover | disputed =>
    dsimp only
    split
    · exact hsame
    · exact hround

/-- Judging a string by an uncertainty (R71). -/
def judge (s u : Nat) (d : Dev) : Dev :=
  let x := str d s
  let o := outOfBound d s u
  let q := toQ x.t
  let x' := { x with u := u, pMaxU := if x.pMaxU < u then u else x.pMaxU }
  if o = x.oob then
    strU s (fun _ => if o then
      { x' with spans := match x'.spans with
                         | h :: t => { h with cause := h.cause ||| oobCause d s u } :: t
                         | [] => [] } else x') d
  else if o then
    postDev 0x24 (leBytes 1 s ++ leBytes 1 1)
      (strU s (fun _ => { x' with oob := true, pOobSince := now d, spans := ⟨q, oobCause d s u, none⟩ :: x'.spans }) d)
  else
    postDev 0x24 (leBytes 1 s ++ leBytes 1 0)
      (strU s (fun _ => { x' with oob := false, pOobTicks := x.pOobTicks + (now d - x.pOobSince),
                                  spans := match x'.spans with
                                           | h :: t => { h with stop := some q } :: t
                                           | [] => [] }) d)

theorem uUpdate_eq (s : Nat) (d : Dev) : uUpdate s d = judge s (uNow d s).1 (uNow d s).2 := rfl

theorem judged_refl (x : Str) : Judged x x := rfl
theorem steered_refl (x : Str) : Steered x x := rfl
theorem slewed_refl (x : Str) : Slewed x x := rfl
theorem moved_refl (x : Str) : Moved x x := rfl
theorem offered_refl (o : Int) (x : Str) : Offered o x x := fun _ => rfl

theorem Judged.trans (h : Judged x y) (h' : Judged y z) : Judged x z := by
  unfold Judged at *
  rw [h', h]

/-- A string's own record replaced by one derived from it. -/
theorem acts_put {R : Str → Str → Prop} {y : Str} (h : R (str d i) y) : Acts R i d (strU i (fun _ => y) d) :=
  ⟨tunes_strU i _ d, by rw [str_strU_self]; exact h⟩

theorem acts_judge (u : Nat) (d : Dev) : Acts Judged i d (judge i u d) := by
  unfold judge
  dsimp only
  split
  · refine acts_put ?_
    split
    · rfl
    · rfl
  · split
    · refine Acts.trans ?_ Judged.trans (acts_postDev judged_refl _ _ _)
      exact acts_put rfl
    · refine Acts.trans ?_ Judged.trans (acts_postDev judged_refl _ _ _)
      exact acts_put rfl

theorem acts_uUpdate (d : Dev) : Acts Judged i d (uUpdate i d) := by
  rw [uUpdate_eq]
  exact (acts_uNow judged_refl d).trans Judged.trans (acts_judge _ _)

theorem acts_setFreq (f : Int) (d : Dev) : Acts Steered i d (setFreq i f d) := acts_strU fun _ => rfl

theorem acts_schedule (c : Sched) (d : Dev) : Acts Steered i d (schedule i c d) := acts_strU fun _ => rfl

theorem acts_eecFollow (d : Dev) : Acts Steered i d (eecFollow i d) := by
  unfold eecFollow
  dsimp only
  split
  · exact acts_setFreq _ d
  · exact acts_of_same steered_refl (.refl i d) rfl

theorem acts_carryIncr (d : Dev) : Acts Steered i d (carryIncr i d) := by
  unfold carryIncr
  dsimp only
  split
  · exact acts_eecFollow d
  · exact (acts_eecFollow d).trans Steered.trans (acts_schedule _ _)

theorem acts_lockedMean (d : Dev) : Tunes i d (lockedMean d i).2 ∧ str (lockedMean d i).2 i = str d i := by
  have hboth (p : Prop) [Decidable p] (m num : Int) (den : Nat) : Tunes i d (if p then (m, d) else roundFree num den d).2 ∧
      str (if p then (m, d) else roundFree num den d).2 i = str d i := by
    split
    · exact ⟨.refl i d, rfl⟩
    · exact roundFree_tunes _ _ d
  exact hboth _ _ _ _

/-- Moving a string whose mean of FREQ is known to another state (R65). -/
def enterSt (s : Nat) (st : StrSt) (was : Str) (m : Option Int) (d : Dev) : Dev :=
  postDev 0x20 (leBytes 1 s ++ leBytes 1 (stCode was.st) ++ leBytes 1 (stCode st)) (strU s (fun y => { y with
    st := st, histMean := m,
    hist := if st = .locked then [(now d, y.freq)] else if was.st = .locked then [] else y.hist,
    stTicks := updAt (· + (now d - y.since)) y.stTicks (stCode was.st),
    lastDrone := if was.st = .drone then now d else y.lastDrone,
    since := now d, visited := if y.visited.contains (stCode st) then y.visited else y.visited ++ [stCode st] }) d)

/-- The mean a string takes into another state: that of its FREQ while LOCKED, where it was (R58). -/
def leavingMean (s : Nat) (d : Dev) : Option Int × Dev :=
  if (str d s).st = .locked then (some (lockedMean d s).1, (lockedMean d s).2) else ((str d s).histMean, d)

theorem setStrSt_eq (s : Nat) (st : StrSt) (d : Dev) : setStrSt s st d = if (str d s).st = st then d
    else enterSt s st (str d s) (leavingMean s d).1 (leavingMean s d).2 := rfl

theorem acts_leavingMean (d : Dev) : Acts Moved i d (leavingMean i d).2 := by
  unfold leavingMean
  split
  · exact acts_of_same moved_refl (acts_lockedMean d).1 (acts_lockedMean d).2
  · exact acts_of_same moved_refl (.refl i d) rfl

theorem acts_enterSt (st : StrSt) (was : Str) (m : Option Int) (d : Dev) : Acts Moved i d (enterSt i st was m d) := by
  refine Acts.trans ?_ Moved.trans (acts_postDev moved_refl _ _ _)
  exact acts_strU fun _ => rfl

theorem st_enterSt (st : StrSt) (was : Str) (m : Option Int) (d : Dev) : (str (enterSt i st was m d) i).st = st := by
  rw [enterSt, str_postDev, str_strU_self]

theorem acts_setStrSt (st : StrSt) (d : Dev) : Acts Moved i d (setStrSt i st d) := by
  rw [setStrSt_eq]
  split
  · exact acts_of_same moved_refl (.refl i d) rfl
  · exact (acts_leavingMean d).trans Moved.trans (acts_enterSt _ _ _ _)

theorem st_setStrSt (st : StrSt) (d : Dev) : (str (setStrSt i st d) i).st = st := by
  rw [setStrSt_eq]
  split
  · assumption
  · exact st_enterSt _ _ _ _

theorem acts_stopSlew (d : Dev) : Acts Slewed i d (stopSlew i d) := acts_strU fun _ => rfl

theorem acts_roundFree (num : Int) (den : Nat) (d : Dev) : Acts Slewed i d (roundFree num den d).2 :=
  acts_of_same slewed_refl (roundFree_tunes _ _ d).1 (roundFree_tunes _ _ d).2

theorem acts_slew (m : Int) (n : Nat) (d : Dev) : Acts Slewed i d (strU i (fun x => { x with slew := m, slewEnd := n }) d) := acts_strU fun _ => rfl

theorem acts_startSlew (delta : Int) (d : Dev) : Acts Slewed i d (startSlew i delta d) := by
  unfold startSlew
  extract_lets lim
  split
  · exact acts_stopSlew d
  · have h₁ := acts_roundFree (i := i) ((lim * 2 ^ 48 : Nat) : Int) 1000000 d
    generalize roundFree ((lim * 2 ^ 48 : Nat) : Int) 1000000 d = r at h₁ ⊢
    obtain ⟨mag, d₁⟩ := r
    dsimp only
    have h₂ := acts_roundFree (i := i) ((delta.natAbs * 1000000 : Nat) : Int) (lim * 65536) d₁
    generalize roundFree ((delta.natAbs * 1000000 : Nat) : Int) (lim * 65536) d₁ = r at h₂ ⊢
    obtain ⟨dur, d₂⟩ := r
    exact h₁.trans Slewed.trans (h₂.trans Slewed.trans (acts_slew _ _ _))

theorem acts_freeze (st : StrSt) (d : Dev) : Acts Moved i d (freeze i st d) := by
  have hmean (m : Option Nat) (e : Dev) : Acts Moved i e (strU i (fun x => { x with freq := x.histMean.getD x.freq, uFrozen := m, growth := 0 }) e) :=
    acts_strU fun _ => rfl
  exact (acts_setStrSt st d).trans Moved.trans <| (hmean _ _).trans Moved.trans <| ((acts_stopSlew _).mono Slewed.moved).trans Moved.trans <|
    ((acts_uUpdate _).mono fun h => h.steered.moved).trans Moved.trans ((acts_carryIncr _).mono Steered.moved)

theorem acts_rateCorrect (o : Int) (meas : Nat) (d : Dev) : Acts Slewed i d (rateCorrect i o meas d) := by
  have hfreq (p : Prop) [Decidable p] (num f : Int) (den : Nat) (e : Dev) :
      Acts Slewed i e (if p then e else setFreq i (f - (roundFree num den e).1) (roundFree num den e).2) := by
    split
    · exact acts_of_same slewed_refl (.refl i e) rfl
    · exact (acts_roundFree _ _ _).trans Slewed.trans ((acts_setFreq _ _).mono Steered.slewed)
  exact ((acts_startSlew (-o) d).trans Slewed.trans (hfreq _ _ _ _ _)).trans Slewed.trans ((acts_carryIncr _).mono Steered.slewed)

/-! ### Accepted offsets (R57, R61, R63) -/

theorem Acts.offered (h : Acts Moved i d e) (o : Int) : Acts (Offered o) i d e := h.mono fun h => h.offered o

/-- A bit of the string's own TIME_STAT. -/
theorem acts_statBit {R : Str → Str → Prop} (hR : ∀ x, R x x) (b : Nat) (v : Bool) (d : Dev) : Acts R i d (bitW (tKey i 0x40) b v d) :=
  acts_of_same hR ((posts_bitW _ _ _ _).tunes (fun k _ hk => regR_bitW_ne _ _ _ _ _ (by unfold tKey; omega)) i) rfl

theorem acts_noteWindow {o' : Int} (o : Int) (um : Nat) (d : Dev) : Acts (Offered o') i d (noteWindow i o um d) := acts_strU fun _ _ => rfl

/-- A refused offset is counted (R63). -/
def countRefusal (s : Nat) (o : Int) (d : Dev) : Dev :=
  strU s (fun y => { y with
    refusals := (y.refusals + 1) % 65536, pRefusals := satNat 16 (y.pRefusals + 1)
    ofs := o, returnCount := 0 }) (bitW (tKey s 0x40) 9 true d)

/-- A string that was in `st` enters DISPUTED (R58, R61). -/
def enterDispute (s : Nat) (st : StrSt) (d : Dev) : Dev :=
  if st = .holdover then carryIncr s (stopSlew s (setStrSt s .disputed d)) else freeze s .disputed d

/-- Its dispute timer starts; a timeout of 0 latches the dispute at once (R61). -/
def startDispute (s : Nat) (o : Int) (d : Dev) : Dev :=
  let d := postDev 0x21 (leBytes 1 s ++ leBytes 8 (ofSigned 64 o)) d
  let d := strU s (fun y => { y with dispFrom := some (now d) }) d
  if disputeTo d s = 0 then postDev 0x28 (leBytes 1 s) (strU s (fun y => { y with latched := true }) d) else d

theorem refuse_eq (s : Nat) (o : Int) (d : Dev) : refuse s o d = if (str d s).st = .disputed then countRefusal s o d
    else startDispute s o (enterDispute s (str d s).st (countRefusal s o d)) := rfl

theorem acts_countRefusal (o : Int) (d : Dev) : Acts (Offered o) i d (countRefusal i o d) := by
  refine Acts.trans (acts_statBit (offered_refl o) 9 true d) Offered.trans ?_
  exact acts_strU fun x hx => by subst hx; rfl

theorem acts_enterDispute (st : StrSt) (d : Dev) : Acts Moved i d (enterDispute i st d) := by
  unfold enterDispute
  split
  · exact (acts_setStrSt _ _).trans Moved.trans (((acts_stopSlew _).mono Slewed.moved).trans Moved.trans ((acts_carryIncr _).mono Steered.moved))
  · exact acts_freeze _ _

theorem acts_startDispute {o' : Int} (o : Int) (d : Dev) : Acts (Offered o') i d (startDispute i o d) := by
  have hfrom (n : Option Nat) (e : Dev) : Acts (Offered o') i e (strU i (fun y => { y with dispFrom := n }) e) := acts_strU fun _ _ => rfl
  have hlatch (e : Dev) : Acts (Offered o') i e (strU i (fun y => { y with latched := true }) e) := acts_strU fun _ _ => rfl
  have hpost := acts_postDev (offered_refl o') 0x21 (leBytes 1 i ++ leBytes 8 (ofSigned 64 o)) d (i := i)
  unfold startDispute
  dsimp only
  split
  · exact (hpost.trans Offered.trans (hfrom _ _)).trans Offered.trans ((hlatch _).trans Offered.trans (acts_postDev (offered_refl o') _ _ _))
  · exact hpost.trans Offered.trans (hfrom _ _)

theorem acts_refuse (o : Int) (d : Dev) : Acts (Offered o) i d (refuse i o d) := by
  rw [refuse_eq]
  split
  · exact acts_countRefusal o d
  · exact (acts_countRefusal o d).trans Offered.trans (((acts_enterDispute _ _).offered o).trans Offered.trans (acts_startDispute o _))

/-- The single step of −o is scheduled and counted (R59, R61). -/
def scheduleStep (s : Nat) (o : Int) (d : Dev) : Dev :=
  let at_ := applyTick d
  let d := schedule s ⟨at_, .step (-o), none⟩ d
  let d := bitW (tKey s 0x40) 10 true d
  strU s (fun x => { x with
    stepArmed := false, lockCount := 0, window := [], dtValid := false
    steps := (x.steps + 1) % 256, pSteps := satNat 16 (x.pSteps + 1)
    pStepSum := x.pStepSum - o, lastStep := some at_
    stepReading := ((x.t : Int) - o * 2 ^ 32).toNat + x.incr * (at_ - now d) }) d

theorem takeStep_eq (s : Nat) (o : Int) (d : Dev) :
    takeStep s o d = postDev 0x22 (leBytes 1 s ++ leBytes 8 (ofSigned 64 (-o))) (uUpdate s (scheduleStep s o d)) := rfl

theorem acts_scheduleStep {o' : Int} (o : Int) (d : Dev) : Acts (Offered o') i d (scheduleStep i o d) := by
  have hsched := (((acts_schedule (i := i) ⟨applyTick d, .step (-o), none⟩ d).mono Steered.moved).offered o').trans Offered.trans
    (acts_statBit (offered_refl o') 10 true _)
  refine hsched.trans Offered.trans ?_
  exact acts_strU fun _ _ => rfl

theorem acts_takeStep {o' : Int} (o : Int) (d : Dev) : Acts (Offered o') i d (takeStep i o d) := by
  rw [takeStep_eq]
  exact ((acts_scheduleStep o d).trans Offered.trans (((acts_uUpdate _).mono fun h => h.steered.moved).offered o')).trans Offered.trans
    (acts_postDev (offered_refl o') _ _ _)

/-- The count of offsets inside LOCK_THRESHOLD, which locks the string (R61). -/
def countLock (s n : Nat) (d : Dev) : Dev :=
  let d := strU s (fun y => { y with lockCount := n }) d
  if lockCountCfg d s ≤ n then setStrSt s .locked d else d

/-- Correcting an offset by rate once it is counted in the window. -/
def corrected (s : Nat) (o : Int) (um meas : Nat) (d : Dev) : Dev := rateCorrect s o meas (noteWindow s o um d)

theorem offsetAcquire_eq (s : Nat) (o : Int) (um meas : Nat) (d : Dev) : offsetAcquire s o um meas d =
    if (str d s).stepArmed then
      if stepMin d s ≤ o.natAbs then
        if stepOutOfRange (str d s) (-o) then (0, postDev 0x21 (leBytes 1 s ++ leBytes 8 (ofSigned 64 o)) d) else (1, takeStep s o d)
      else (2, uUpdate s (corrected s o um meas (strU s (fun y => { y with stepArmed := false }) d)))
    else if o.natAbs ≤ jumpLimit d s then
      (2, uUpdate s (countLock s (if o.natAbs < lockThr (corrected s o um meas d) s then (str d s).lockCount + 1 else 0) (corrected s o um meas d)))
    else (0, refuse s o d) := rfl

theorem acts_judgedOffer {o : Int} (h : Acts (Offered o) i d e) : Acts (Offered o) i d (uUpdate i e) :=
  h.trans Offered.trans (((acts_uUpdate _).mono fun h => h.steered.moved).offered o)

theorem acts_corrected (o : Int) (um meas : Nat) (d : Dev) : Acts (Offered o) i d (corrected i o um meas d) :=
  (acts_noteWindow o um d).trans Offered.trans (((acts_rateCorrect _ _ _).mono Slewed.moved).offered o)

theorem acts_countLock {o : Int} (n : Nat) (d : Dev) : Acts (Offered o) i d (countLock i n d) := by
  have hcount : Acts (Offered o) i d (strU i (fun y => { y with lockCount := n }) d) := acts_strU fun _ _ => rfl
  unfold countLock
  dsimp only
  split
  · exact hcount.trans Offered.trans ((acts_setStrSt _ _).offered o)
  · exact hcount

theorem acts_offsetAcquire (o : Int) (um meas : Nat) (d : Dev) : Acts (Offered o) i d (offsetAcquire i o um meas d).2 := by
  have harm : Acts (Offered o) i d (strU i (fun y => { y with stepArmed := false }) d) := acts_strU fun _ _ => rfl
  rw [offsetAcquire_eq]
  split
  · split
    · split
      · exact acts_postDev (offered_refl o) _ _ _
      · exact acts_takeStep _ _
    · exact acts_judgedOffer (harm.trans Offered.trans (acts_corrected _ _ _ _))
  · split
    · exact acts_judgedOffer ((acts_corrected _ _ _ _).trans Offered.trans (acts_countLock _ _))
    · exact acts_refuse _ _

/-- A string shows the offset it was offered (R63). -/
def hears (s : Nat) (o : Int) (d : Dev) : Dev :=
  strU s (fun y => { y with
    ofs := o, srcOk := true
    pMaxOfs := if y.pMaxOfs.natAbs < o.natAbs then o else y.pMaxOfs }) d

theorem acts_acceptIn (o : Int) (um meas : Nat) (d : Dev) : Acts (Offered o) i (hears i o d) (acceptIn i o um meas d).2 := by
  have hwin (e : Dev) : Acts (Offered o) i e (strU i (fun y => { y with window := [], dtValid := false }) e) := acts_strU fun _ _ => rfl
  have hwin' (e : Dev) : Acts (Offered o) i e (strU i (fun y => { y with window := [], dtValid := false, lockCount := 0 }) e) := acts_strU fun _ _ => rfl
  have hret (n : Nat) (e : Dev) : Acts (Offered o) i e (strU i (fun y => { y with returnCount := n }) e) := acts_strU fun _ _ => rfl
  have hback (n : Nat) (e : Dev) : Acts (Offered o) i e (strU i (fun y => { y with returnCount := 0, dispFrom := none, lockCount := n }) e) :=
    acts_strU fun _ _ => rfl
  have hset (st : StrSt) (e : Dev) : Acts (Offered o) i e (setStrSt i st e) := (acts_setStrSt st e).offered o
  have hsame (e : Dev) : Acts (Offered o) i e e := acts_of_same (offered_refl o) (.refl i e) rfl
  unfold acceptIn
  dsimp only
  cases (str d i).st with
  | drone => exact hsame _
  | acquire => exact acts_offsetAcquire _ _ _ _
  | locked =>
    dsimp only
    split
    · exact acts_judgedOffer (acts_corrected _ _ _ _)
    · exact acts_refuse _ _
  | holdover =>
    dsimp only
    split
    · refine Acts.trans ?_ Offered.trans (acts_offsetAcquire _ _ _ _)
      exact ((hset _ _).trans Offered.trans (hwin _)).trans Offered.trans
        ((((acts_carryIncr _).mono Steered.moved).trans Moved.trans ((acts_uUpdate _).mono fun h => h.steered.moved)).offered o)
    · split
      · exact acts_judgedOffer (((hset _ _).trans Offered.trans (hwin' _)).trans Offered.trans (acts_corrected _ _ _ _))
      · exact acts_refuse _ _
  | disputed =>
    dsimp only
    split
    · split
      · exact acts_judgedOffer (((((acts_noteWindow _ _ _).trans Offered.trans (hret _ _)).trans Offered.trans (hset _ _)).trans Offered.trans
          (hback _ _)).trans Offered.trans (((acts_rateCorrect _ _ _).mono Slewed.moved).offered o))
      · exact (acts_noteWindow _ _ _).trans Offered.trans (hret _ _)
    · split
      · exact hsame _
      · exact acts_refuse _ _

theorem acceptOffset_eq (s : Nat) (o : Int) (um meas : Nat) (d : Dev) : (acceptOffset s o um meas d).2 =
    if (acceptIn s o um meas d).1 = 1 then (acceptIn s o um meas d).2
    else strU s (fun y => { y with lastMeas := meas, dtValid := true }) (acceptIn s o um meas d).2 := rfl

/-- What an accepted offset does to its string: the offset is shown, and its pulses, source and time stand. -/
theorem acceptOffset_facts (o : Int) (um meas : Nat) (d : Dev) : Tunes i d (acceptOffset i o um meas d).2 ∧
    (str (acceptOffset i o um meas d).2 i).ofs = o ∧ (str (acceptOffset i o um meas d).2 i).lastPulse = (str d i).lastPulse ∧
    (str (acceptOffset i o um meas d).2 i).t = (str d i).t := by
  obtain ⟨ht, hstr⟩ := acts_acceptIn (i := i) o um meas d
  have hheard : str (hears i o d) i = { str d i with
      ofs := o, srcOk := true
      pMaxOfs := if (str d i).pMaxOfs.natAbs < o.natAbs then o else (str d i).pMaxOfs } := str_strU_self _ _ _
  have hofs : (str (hears i o d) i).ofs = o := by rw [hheard]
  have hin := hstr hofs
  have hrest : Tunes i d (acceptIn i o um meas d).2 := (tunes_strU i _ d).trans ht
  rw [acceptOffset_eq]
  split
  · exact ⟨hrest, hstr.ofs hofs, by rw [hin, hheard], by rw [hin, hheard]⟩
  · refine ⟨hrest.trans (tunes_strU i _ _), ?_⟩
    rw [str_strU_self]
    exact ⟨hstr.ofs hofs, (congrArg Str.lastPulse hin).trans (by rw [hheard]), (congrArg Str.t hin).trans (by rw [hheard])⟩

/-! ### A turn of every string -/

/-- In a turn of strings none of which comes twice, string `i` is reached with what the turns before it keep, and keeps what the
turns after it do. -/
theorem foldl_at {α : Type} {R : Dev → Dev → Prop} (hrefl : ∀ d, R d d) (htrans : ∀ {d e f}, R d e → R e f → R d f) {g : Dev → α → Dev} {a : α}
    (hg : ∀ d b, b ≠ a → R d (g d b)) {l : List α} (hn : l.Nodup) (ha : a ∈ l) (d : Dev) : ∃ e, R d e ∧ R (g e a) (l.foldl g d) := by
  induction l generalizing d with
  | nil => exact absurd ha List.not_mem_nil
  | cons b l ih =>
    obtain ⟨hb, hl⟩ := List.nodup_cons.mp hn
    rw [List.foldl_cons]
    by_cases hba : b = a
    · subst hba
      have hrest : ∀ l : List α, b ∉ l → ∀ d, R d (l.foldl g d) := by
        intro l hl
        induction l with
        | nil => exact hrefl
        | cons c l ih =>
          exact fun d => htrans (hg d c (List.ne_of_not_mem_cons hl).symm) (ih (List.not_mem_of_not_mem_cons hl) _)
      exact ⟨d, hrefl d, hrest l hb _⟩
    · obtain ⟨e, hde, he⟩ := ih hl ((List.mem_cons.mp ha).resolve_left (Ne.symm hba)) (g d b)
      exact ⟨e, htrans (hg d b hba) hde, he⟩

/-- String `i` and all that an operation on another string leaves alone. -/
structure Around (i : Nat) (d e : Dev) : Prop where
  rest : e = { d with regs := e.regs, ctrs := e.ctrs, wr := e.wr, out := e.out, fns := e.fns, freeIdx := e.freeIdx, strs := e.strs }
  own : str e i = str d i
  map : SameTimeMap d e

theorem Around.refl (i : Nat) (d : Dev) : Around i d d := ⟨rfl, rfl, fun _ _ _ => rfl⟩

theorem Around.trans (h : Around i d e) (h' : Around i e e') : Around i d e' :=
  ⟨by rw [h'.rest, h.rest], h'.own.trans h.own, fun k hk hk' => (h'.map k hk hk').trans (h.map k hk hk')⟩

theorem Tunes.around (h : Tunes j d e) (hij : j ≠ i) : Around i d e := ⟨h.rest, h.others i (Ne.symm hij), h.map⟩

theorem Around.eff (h : Around i d e) : e.eff = d.eff := by rw [h.rest]
theorem Around.time (h : Around i d e) : e.time = d.time := by rw [h.rest]
theorem Around.now (h : Around i d e) : Machine.now e = Machine.now d := by rw [Machine.now, Machine.now, h.time]
theorem Around.effR (h : Around i d e) (k : Nat) : Machine.effR e k = Machine.effR d k := by rw [Machine.effR, Machine.effR, h.eff]
theorem Around.timeServiceUp (h : Around i d e) : Machine.timeServiceUp e = Machine.timeServiceUp d := by
  rw [h.rest]
  rfl

/-- A turn of every present string reaches a present one once. -/
theorem foldl_strings {g : Dev → Nat → Dev} (hg : ∀ d j, Tunes j d (g d j)) {n : Nat} (hi : i < n) (d : Dev) :
    ∃ e, Around i d e ∧ Around i (g e i) ((List.range n).foldl g d) :=
  foldl_at (Around.refl i) .trans (fun d j hj => (hg d j).around hj) List.nodup_range (List.mem_range.mpr hi) d

end Sys2Proof.Machine

/-! SUPPORT. References, pulses and messages of the time service, and the time commands (R52, R54, R61, R77, R79, R82–R84, R89–R98). -/

namespace Sys2Proof.Machine
open Sys2Proof

variable {s : State} {d e : Dev} {i j k : Nat}

/-! ### A TIME_REF write and a PPS pin -/

theorem allDrone_of (h : ∀ j < numStrings d.variant, (str d j).st = .drone) :
    ((List.range (numStrings d.variant)).all fun i => decide ((str d i).st = .drone)) = true := by
  simpa using h

theorem not_allDrone_of (h : ∃ j < numStrings d.variant, (str d j).st ≠ .drone) :
    ((List.range (numStrings d.variant)).all fun i => decide ((str d i).st = .drone)) = false := by
  simpa using h

/-! ### A PPS input pulse (R83) -/

/-- The offset a pulse of input `k` shows against a string's reading (R83). -/
def pulseOffset (k sub : Nat) (x : Str) (d : Dev) : Int :=
  ppsOffset (toQ x.t / 4096 * 4096 + sub % 16 * 4096 + 1000000000 * 65536 - effF d (0x108020 + 4 * k) 31 16 * 4096)

/-- A string notes a pulse. -/
def notePulse (st : Nat) (d : Dev) : Dev := strU st (fun y => { y with lastPulse := now d }) d

/-- What a pulse of input `k` does to one string: the one whose source it is takes its offset. -/
def pulseString (k sub : Nat) (d : Dev) (st : Nat) : Dev :=
  if decide ((str d st).srcKind = 2 + k) then
    if decide ((str d st).owner = 0) && timeServiceUp (notePulse st d) && !(staleOffset (str d st) (now (notePulse st d))) then
      (acceptOffset st (pulseOffset k sub (str d st) (notePulse st d)) 32768 (now (notePulse st d)) (notePulse st d)).2
    else notePulse st d
  else d

theorem tunes_pulseString (k sub : Nat) (d : Dev) (j : Nat) : Tunes j d (pulseString k sub d j) := by
  unfold pulseString
  split
  · split
    · exact (tunes_strU _ _ _).trans (acceptOffset_facts _ _ _ _).1
    · exact tunes_strU _ _ _
  · exact .refl j d

theorem pulseOffset_notePulse (k sub : Nat) (x : Str) (st : Nat) (d : Dev) : pulseOffset k sub x (notePulse st d) = pulseOffset k sub x d := by
  unfold pulseOffset notePulse
  rw [effF_strU]

theorem pulseString_facts {sub : Nat} (hk : (str d i).srcKind = 2 + k) : (str (pulseString k sub d i) i).lastPulse = now d ∧
    ((str d i).owner = 0 → timeServiceUp d = true → staleOffset (str d i) (now d) = false →
      (str (pulseString k sub d i) i).ofs = pulseOffset k sub (str d i) d) := by
  have hnote : (str (notePulse i d) i).lastPulse = now d := congrArg Str.lastPulse (str_strU_self i _ d)
  unfold pulseString
  rw [if_pos (decide_eq_true hk), pulseOffset_notePulse]
  split
  · obtain ⟨-, hofs, hpulse, -⟩ := acceptOffset_facts (i := i) (pulseOffset k sub (str d i) d) 32768 (now (notePulse i d)) (notePulse i d)
    exact ⟨hpulse.trans hnote, fun _ _ _ => hofs⟩
  · next hno =>
    refine ⟨hnote, fun ho hs hst => absurd ?_ hno⟩
    have hup : timeServiceUp (notePulse i d) = timeServiceUp d := rfl
    have hnow : now (notePulse i d) = now d := rfl
    rw [hup, hnow, ho, hs, hst]
    rfl

theorem execPpsInPulse_eq (rising : Bool) (sub : Nat) (s : State) (hk : k < 2) (hen : effB (takeIo (some k) s.dev) (0x108020 + 4 * k) 0 = true)
    (hedge : effB (takeIo (some k) s.dev) (0x108020 + 4 * k) 1 ≠ rising) (hlast : (takeIo (some k) s.dev).time.ppsLast.getD k 0 = 0) :
    Lands (.ppsInPulse k rising sub) s ((List.range (numStrings (takeIo (some k) s.dev).variant)).foldl (pulseString k sub)
      (timeU (fun t => { t with ppsLast := setAt t.ppsLast k (now (takeIo (some k) s.dev) + 1) }) (takeIo (some k) s.dev))) := by
  refine lands_of_lift (exec_ppsInPulse k rising sub s) ?_
  dsimp only
  rw [if_neg (by simp [hen, hedge, hk]), hlast, if_neg (by simp)]
  rfl

theorem str_reports (h : Reports d e) (j : Nat) : str e j = str d j := by
  rw [h]
  rfl

theorem getD_setAt_self {α : Type} {l : List α} {k : Nat} (hk : k < l.length) (v w : α) : (setAt l k v).getD k w = v := by
  simp [setAt_eq_set, hk]

theorem ppsInPulse_facts {rising : Bool} {sub : Nat} (hk : k < 2) (hen : effB (takeIo (some k) s.dev) (0x108020 + 4 * k) 0 = true)
    (hedge : effB (takeIo (some k) s.dev) (0x108020 + 4 * k) 1 ≠ rising) (hlast : (takeIo (some k) s.dev).time.ppsLast.getD k 0 = 0)
    (hlen : (takeIo (some k) s.dev).time.ppsLast.length = 2) (hi : strPresent (takeIo (some k) s.dev) i = true)
    (hsrc : (str (takeIo (some k) s.dev) i).srcKind = 2 + k) :
    Runs (.ppsInPulse k rising sub) s fun d' =>
      (str d' i).lastPulse = now (takeIo (some k) s.dev) ∧ d'.time.ppsLast.getD k 0 = now (takeIo (some k) s.dev) + 1 ∧
      ((str (takeIo (some k) s.dev) i).owner = 0 → timeServiceUp (takeIo (some k) s.dev) = true →
        staleOffset (str (takeIo (some k) s.dev) i) (now (takeIo (some k) s.dev)) = false →
        (str d' i).ofs = pulseOffset k sub (str (takeIo (some k) s.dev) i) (takeIo (some k) s.dev)) := by
  have hlands := execPpsInPulse_eq rising sub s hk hen hedge hlast
  generalize takeIo (some k) s.dev = e at *
  obtain ⟨f, hbef, haft⟩ := foldl_strings (tunes_pulseString k sub) (of_decide_eq_true hi)
    (timeU (fun t => { t with ppsLast := setAt t.ppsLast k (now e + 1) }) e)
  have hstr : str f i = str e i := hbef.own
  have hnow : now f = now e := hbef.now
  obtain ⟨hpulse, hofs⟩ := pulseString_facts (d := f) (sub := sub) (by rw [hstr]; exact hsrc)
  refine runs_of_lands hlands ?_
  rw [str_landed, haft.own]
  refine ⟨hpulse.trans hnow, ?_, fun ho hs hst => ?_⟩
  · have htime : (pulseString k sub f i).time = f.time := (tunes_pulseString k sub f i).time
    rw [landed_time, haft.time, htime, hbef.time]
    exact getD_setAt_self (by rw [hlen]; exact hk) _ _
  · rw [hofs (by rw [hstr]; exact ho) (hbef.timeServiceUp.trans hs) (by rw [hstr, hnow]; exact hst), hstr]
    unfold pulseOffset effF
    rw [hbef.effR, effR_timeU]

/-! ### Commands that set a string's state or source (R54, R61) -/

/-- A string in DRONE with no source, before its uncertainty and increment follow (R54). -/
def dropped (s : Nat) (d : Dev) : Dev :=
  let x := str d s
  strU s (fun y => { y with histMean := none, hist := [] }) (setStrSt s .drone (strU s (fun y => { y with
    srcKind := 0, srcPort := 0, srcOk := false, stepArmed := false, latched := false
    dispFrom := none, lockCount := 0, returnCount := 0, slew := 0
    drone := if x.st = .drone then y.drone else wantIncr x / 65536
    window := [], uFrozen := none, growth := 0 }) d))

theorem toDrone_eq (s : Nat) (d : Dev) : toDrone s d = carryIncr s (uUpdate s (dropped s d)) := rfl

/-- Judging a string's uncertainty and carrying its increment leaves its state and source (R55, R71). -/
theorem settled (i : Nat) (d : Dev) : (str (carryIncr i (uUpdate i d)) i).st = (str d i).st ∧
    (str (carryIncr i (uUpdate i d)) i).srcKind = (str d i).srcKind := by
  have h := (((acts_uUpdate (i := i) d).mono Judged.steered).trans Steered.trans (acts_carryIncr _)).2
  exact ⟨h.st, h.srcKind⟩

theorem srcKind_setStrSt (i : Nat) (st : StrSt) (d : Dev) : (str (setStrSt i st d) i).srcKind = (str d i).srcKind :=
  (acts_setStrSt (i := i) st d).2.srcKind

theorem toDrone_facts (i : Nat) (d : Dev) : (str (toDrone i d) i).st = .drone ∧ (str (toDrone i d) i).srcKind = 0 := by
  obtain ⟨hst, hsrc⟩ := settled i (dropped i d)
  rw [toDrone_eq, hst, hsrc, dropped, str_strU_self]
  exact ⟨st_setStrSt _ _, (srcKind_setStrSt _ _ _).trans (by rw [str_strU_self])⟩

/-- A string's source is set (R54, R61). -/
def sourced (c : Cmd) (i kind : Nat) (d : Dev) : Dev :=
  strU i (fun x => { x with
    srcKind := kind, srcPort := if kind = 1 then c.f 18 1 else 0, srcOk := false
    hostTimeout := if kind = 4 then c.f 20 4 else 0
    lastHost := now d, lastPulse := now d }) d

/-- A string that had no source starts to acquire (R61). -/
def acquiring (i : Nat) (d : Dev) : Dev :=
  uUpdate i (setStrSt i .acquire (strU i (fun x => { x with stepArmed := true, window := [], dtValid := false, lockCount := 0 }) d))

theorem acquiring_facts (i : Nat) (d : Dev) : (str (acquiring i d) i).st = .acquire ∧ (str (acquiring i d) i).stepArmed = true ∧
    (str (acquiring i d) i).srcKind = (str d i).srcKind := by
  have hj := (acts_uUpdate (i := i) (setStrSt i .acquire (strU i (fun x => { x with stepArmed := true, window := [], dtValid := false, lockCount := 0 }) d))).2.steered
  have hm := (acts_setStrSt (i := i) .acquire (strU i (fun x => { x with stepArmed := true, window := [], dtValid := false, lockCount := 0 }) d)).2
  rw [str_strU_self] at hm
  exact ⟨hj.st.trans (st_setStrSt _ _), hj.stepArmed.trans hm.stepArmed, hj.srcKind.trans hm.srcKind⟩

/-- What TIME_SET_SOURCE does to its string before its increment is carried. -/
def setSource (c : Cmd) (kind i : Nat) (d : Dev) : Dev :=
  if (str d i).st = .drone then acquiring i (sourced c i kind d) else sourced c i kind d

theorem setSource_facts (c : Cmd) (kind i : Nat) (d : Dev) :
    (str (completeSt c 0 (carryIncr i (setSource c kind i d))) i).srcKind = kind ∧
    ((str d i).st = .drone → (str (completeSt c 0 (carryIncr i (setSource c kind i d))) i).st = .acquire ∧
      (str (completeSt c 0 (carryIncr i (setSource c kind i d))) i).stepArmed = true) ∧
    ((str d i).st ≠ .drone → (str (completeSt c 0 (carryIncr i (setSource c kind i d))) i).st = (str d i).st) := by
  have hkept : (str (sourced c i kind d) i).st = (str d i).st := by rw [sourced, str_strU_self]
  have hnew : (str (sourced c i kind d) i).srcKind = kind := by rw [sourced, str_strU_self]
  have hc := (acts_carryIncr (i := i) (setSource c kind i d)).2
  obtain ⟨hst, harm, hkind⟩ := acquiring_facts i (sourced c i kind d)
  rw [str_reports (reports_completeSt c 0 _), hc.st, hc.srcKind, hc.stepArmed, setSource]
  split
  · next hd => exact ⟨hkind.trans hnew, fun _ => ⟨hst, harm⟩, fun h => absurd hd h⟩
  · next hd => exact ⟨hnew, fun h => absurd h hd, fun _ => hkept⟩

/-! ### Messages of the time service -/

theorem freeBytes_str (n : Nat) (d : Dev) (j : Nat) : str (freeBytes n d).2 j = str d j := by
  induction n generalizing d with
  | zero => rfl
  | succ n ih => exact ih _

theorem ptpHead_str (transport : Nat) (near : Bool) (d : Dev) (j : Nat) : str (ptpHead transport near d).2 j = str d j := by
  have hda (d : Dev) : str (if transport = 0 then
      (if near then (([0x01, 0x80, 0xC2, 0, 0, 0x0E] : Bytes), d) else ([0x01, 0x1B, 0x19, 0, 0, 0], d)) else freeBytes 6 d).2 j = str d j := by
    split
    · split <;> rfl
    · exact freeBytes_str 6 d j
  exact (hda _).trans ((freeBytes_str _ _ j).trans (freeBytes_str 6 d j))

theorem sendOut_str (p : Nat) (bs : Bytes) (d : Dev) (j : Nat) : str (sendOut p bs d) j = str d j := by
  unfold sendOut
  dsimp only
  split
  · simp only [str_portU, str_ctrInc, str_ctrAdd]
  · simp only [str_emit, str_portU, str_ctrInc, str_ctrAdd]

theorem countNoRewrite_str (p : Nat) (d : Dev) (j : Nat) : str (countNoRewrite p d) j = str d j := by
  unfold countNoRewrite
  exact str_fldW _ _ _ _ _ _

theorem ptpSend_str (i port : Nat) (act : OneStep) (tx : Int) (m : Bytes) (d : Dev) (j : Nat) : str (ptpSend i port act tx m d) j = str d j := by
  have hhead := ptpHead_str (ptpTransport d i port) (ptpNearAddr d i port) d j
  unfold ptpSend
  generalize ptpHead (ptpTransport d i port) (ptpNearAddr d i port) d = r at hhead ⊢
  obtain ⟨h, e⟩ := r
  cases act with
  | none => exact (sendOut_str _ _ _ j).trans hhead
  | _ =>
    dsimp only
    split
    · exact (sendOut_str _ _ _ j).trans ((countNoRewrite_str port e j).trans hhead)
    · split
      · exact (sendOut_str _ _ _ j).trans hhead
      · exact (sendOut_str _ _ _ j).trans hhead

theorem ptpSeq_delayReq (i port sub a : Nat) (d : Dev) : (str (ptpSendKind i port 1 sub a d) i).ptpSeq = ((str d i).ptpSeq + 1) % 65536 := by
  have hseq : (str (ptpNextSeq i d).2 i).ptpSeq = ((str d i).ptpSeq + 1) % 65536 := congrArg Str.ptpSeq (str_strU_self i _ d)
  exact (congrArg Str.ptpSeq (ptpSend_str i port _ _ _ _ i)).trans hseq

theorem ptpTake_announce {s p sub a : Nat} {rx : Int} {msg : Bytes} (h : ptpType msg = 11) : ptpTake s p sub a rx msg d = gmUpdate s (noteAnnounce s p msg d) := by
  unfold ptpTake
  rw [h]
  rfl

theorem time_eecReselect (d : Dev) : (eecReselect d).time = d.time := by
  have hpost : (postDev 0x27 (leBytes 1 (eecInput d) ++ leBytes 1 (((Tbl.get (fun _ => {}) d.time.esmc (eecInput d) : Esmc).ql).getD 15))
      (fldW 0x108064 13 8 (eecInput d) (fldW 0x108064 7 4 (((Tbl.get (fun _ => {}) d.time.esmc (eecInput d) : Esmc).ql).getD 15) d))).time = d.time :=
    (congrArg Dev.time (show _ = _ from posts_postDev _ _ _) :)
  unfold eecReselect
  dsimp only
  split
  · rfl
  · split
    · rfl
    · exact hpost

theorem now_staleReading (s m : Nat) (d : Dev) : now (staleReading s m d).2 = now d := by
  unfold staleReading
  dsimp only
  split
  · rfl
  · split
    · rfl
    · split
      · split <;> rfl
      · rfl

/-- Settles O12: each string's turn leaves the others, and judging or steering a string leaves its state and source. -/
theorem timeReferencesMessagesAndCommands : Obligations.TimeReferencesMessagesAndCommands := by
  unfold Obligations.TimeReferencesMessagesAndCommands
  refine ⟨fun s i port v => ?_, fun s c => ?_⟩
  · intro d x pol
    subst pol x d
    refine ⟨fun h9 hne hl hall => ?_, fun h9 hne hl hex => ?_, fun e he hi hen hw hdead hat => ?_, fun hi hon hdue => ?_,
      fun e k rising sub he hk hen hedge hlast hlen hi hsrc => ?_, fun cls rx msg => ?_, fun m hi hen hup hp hpp hcan hmay huni => ?_,
      fun pdu hpp hup => ?_, fun ev hup hp hpp hcan => ?_, fun hql hdue => ?_⟩
    · have hne' : Word.bit v 0 ≠ bitR s.dev 0x108010 0 := hne
      refine runs_of_lift (exec_trefSelWrite v s) ?_
      dsimp only
      rw [show Word.bit v 9 = false from h9, if_neg Bool.false_ne_true, if_neg hne', hl, if_neg Bool.false_ne_true, allDrone_of hall, if_pos rfl,
        bitR_landed, bitR_bitW_self _ _ _ _ (by omega)]
      rfl
    · have hne' : Word.bit v 0 ≠ bitR s.dev 0x108010 0 := hne
      refine runs_of_lift (exec_trefSelWrite v s) ?_
      dsimp only
      rw [show Word.bit v 9 = false from h9, if_neg Bool.false_ne_true, if_neg hne', hl, if_neg Bool.false_ne_true, not_allDrone_of hex,
        if_neg Bool.false_ne_true, bitR_landed, bitR_landed, bitR_bitW_self _ _ _ _ (by omega), bitR_bitW_ne _ _ _ _ _ (by omega) (by omega)]
      exact ⟨rfl, rfl⟩
    · subst he
      refine runs_of_lift (exec_ppsOutEdge i true s) ?_
      dsimp only
      rw [if_neg (by omega), if_pos rfl, hen, hdead, hat, if_pos (by simp [hw]), landed_out]
      rfl
    · refine runs_of_lift (exec_ppsOutEdge i false s) ?_
      dsimp only
      rw [if_neg (by omega), if_neg Bool.false_ne_true, hon, if_pos (by rw [Bool.true_and]; exact decide_eq_true hdue), landed_out]
      rfl
    · subst he
      exact ppsInPulse_facts hk hen hedge hlast hlen hi hsrc
    · intro j ours
      subst j
      have hneg {cls' dom dom' role tr tr' : Nat} {en up : Bool} : ¬ (64 ≤ cls' ∨ en = false ∨ up = false ∨ dom ≠ dom' ∨ role = 0 ∨ tr ≠ tr') ↔
          cls' < 64 ∧ en = true ∧ up = true ∧ dom = dom' ∧ role ≠ 0 ∧ tr = tr' := by
        cases en <;> cases up <;> simp
      refine ⟨fun h => ?_, fun h h11 => ?_, fun h => ?_⟩
      · exact lands_of_lift (exec_ptpMessage port cls rx msg s) (if_neg (hneg.mpr h))
      · exact lands_of_lift (exec_ptpMessage port cls rx msg s) ((if_neg (hneg.mpr h)).trans (ptpTake_announce h11))
      · exact lands_of_lift (exec_ptpMessage port cls rx msg s) (if_pos (by_contra fun hno => h (hneg.mp hno)))
    · have hlands : Lands (.ptpMessageTx i port m) s (ptpSendKind i port m.kind m.sub m.a s.dev) := by
        refine lands_of_lift (exec_ptpMessageTx i port m s) ((if_neg ?_).trans (if_neg ?_))
        · simp [hi, hen, hup, hp, hpp, hcan, hmay]
        · rintro ⟨hu, h0 | h11⟩
          · exact (huni hu).1 h0
          · exact (huni hu).2 h11
      refine ⟨hlands, fun h1 => ?_⟩
      rw [h1]
      exact ptpSeq_delayReq i port m.sub m.a s.dev
    · refine runs_of_lift (exec_esmcPduRx port pdu s) ?_
      rw [hpp, hup, if_neg (by simp), landed_time, time_eecReselect]
      exact Tbl.get_set_self _ _ _ _
    · refine lands_of_lift (exec_esmcPduTx port ev s) ((if_neg ?_).trans rfl)
      simp [hpp, hup, hp, hcan]
    · refine runs_of_lift (exec_esmcQlFailed port s) ?_
      dsimp only
      rw [if_pos ⟨hql, hdue⟩, landed_time, time_eecReselect]
      exact congrArg Esmc.ql (Tbl.get_set_self _ _ _ _)
  · intro d i x busy
    subst busy x i d
    refine ⟨?_, ?_, ?_, fun hst => ?_, fun kind hk hst hp => ?_, fun hst => ?_, ?_, fun h4 => ?_, fun h4 => ?_, ?_, ?_, ?_, ?_⟩
    · exact defers_of_lift (exec_timeLoad c s) rfl
    · exact defers_of_lift (exec_timeSetIncr c s) rfl
    · exact defers_of_lift (exec_timeSetDrone c s) rfl
    · refine runs_of_lands (lands_of_lift (exec_timeSetDrone c s) (checked_ok _ hst)) ?_
      rw [str_landed, scheduleHeld, noteHeld, str_fnU, schedule, str_strU_self]
      exact toDrone_facts _ _
    · subst hk
      refine runs_of_lands (lands_of_lift (exec_timeSetSource c s) (checked_ok _ ?_)) ?_
      · rw [hst]
        by_cases h1 : c.f 17 1 = 1
        · simp [firstStatus, h1, hp h1]
        · simp [firstStatus, h1]
      · rw [str_landed]
        exact setSource_facts c _ _ _
    · refine lands_of_lift (exec_timeHostOffset c s) ((checked_ok _ hst).trans ?_)
      have hnow := now_staleReading (cmdStr c) (ofR17 (c.f 36 12)) (strU (cmdStr c) (fun y => { y with lastHost := now s.dev }) s.dev)
      dsimp only
      generalize staleReading (cmdStr c) (ofR17 (c.f 36 12)) (strU (cmdStr c) (fun y => { y with lastHost := now s.dev }) s.dev) = r at hnow ⊢
      rw [hnow, now_strU]
    · exact serves_of_lift (exec_timeHostFreq c s) rfl
    · exact serves_of_checked (exec_timeSetUtc c s) rfl (if_pos h4)
    · exact serves_of_checked (exec_timeSetUtc c s) rfl (if_neg h4)
    · exact serves_of_lift (exec_timeRead c s) rfl
    · exact serves_of_lift (exec_timePtpClock c s) rfl
    · exact serves_of_lift (exec_timePtpPort c s) rfl
    · exact serves_of_lift (exec_identify c s) rfl

end Sys2Proof.Machine

/-! SUPPORT. Strings advance, take their scheduled changes and follow their source (R26–R30, R50–R69, R81, R98, R136). -/

namespace Sys2Proof.Machine
open Sys2Proof

variable {s : State} {d e : Dev} {i j k n : Nat} {x y : Str}

/-! ### The grandmaster a string shows (R97) -/

/-- `y` is `x` with another grandmaster shown. -/
def Graded (x y : Str) : Prop := y = { x with gm := y.gm }

theorem graded_refl (x : Str) : Graded x x := rfl
theorem Graded.trans {z : Str} (h : Graded x y) (h' : Graded y z) : Graded x z := by
  unfold Graded at *
  rw [h', h]

theorem acts_gmUpdate (d : Dev) : Acts Graded i d (gmUpdate i d) := by
  unfold gmUpdate
  split
  · exact acts_of_same graded_refl (.refl i d) rfl
  · refine Acts.trans ?_ Graded.trans (acts_postDev graded_refl _ _ _)
    exact acts_strU fun _ => rfl

/-! ### Holdover and dispute (R58, R61–R65) -/

theorem freeze_facts (st : StrSt) (d : Dev) : (str (freeze i st d) i).st = st ∧ (str (freeze i st d) i).slew = 0 := by
  have hc (e : Dev) : Steered (str e i) (str (carryIncr i (uUpdate i e)) i) := ((acts_uUpdate e).mono Judged.steered |>.trans Steered.trans (acts_carryIncr _)).2
  unfold freeze
  dsimp only
  rw [(hc _).st, (hc _).slew, stopSlew, str_strU_self, str_strU_self]
  exact ⟨st_setStrSt _ _, rfl⟩

/-- A string that loses its source in ACQUIRE or LOCKED goes to HOLDOVER with no slew (R61, R62). -/
theorem loseSource_facts (h : (str d i).st = .acquire ∨ (str d i).st = .locked) :
    (str (loseSource i d) i).st = .holdover ∧ (str (loseSource i d) i).srcOk = false ∧ (str (loseSource i d) i).slew = 0 := by
  have hfz := freeze_facts (i := i) .holdover (strU i (fun y => { y with srcOk := false }) d)
  have hm := (acts_freeze (i := i) .holdover (strU i (fun y => { y with srcOk := false }) d)).2
  unfold loseSource
  dsimp only
  rw [if_pos h, str_postDev]
  exact ⟨hfz.1, hm.srcOk.trans (by rw [str_strU_self]), hfz.2⟩

theorem tunes_loseSource (d : Dev) : Tunes i d (loseSource i d) := by
  unfold loseSource
  dsimp only
  split
  · exact (tunes_strU _ _ _).trans ((acts_freeze _ _).1.trans (tunes_postDev _ _ _ _))
  · exact tunes_strU _ _ _

theorem startDispute_str (o : Int) (d : Dev) : str (startDispute i o d) i = { str d i with
    dispFrom := (str (startDispute i o d) i).dispFrom, latched := (str (startDispute i o d) i).latched } := by
  unfold startDispute
  dsimp only
  split
  · rw [str_postDev, str_strU_self, str_strU_self, str_postDev]
  · rw [str_strU_self, str_postDev]

/-- A refused offset takes a locked string to DISPUTED with no slew, and is counted (R61, R63). -/
theorem refuse_locked {o : Int} (h : (str d i).st = .locked) : (str (refuse i o d) i).st = .disputed ∧
    (str (refuse i o d) i).refusals = ((str d i).refusals + 1) % 65536 ∧ (str (refuse i o d) i).slew = 0 := by
  have hcount : (str (countRefusal i o d) i).refusals = ((str d i).refusals + 1) % 65536 := congrArg Str.refusals (str_strU_self i _ _)
  have hfz := freeze_facts (i := i) .disputed (countRefusal i o d)
  have hm := (acts_freeze (i := i) .disputed (countRefusal i o d)).2
  rw [refuse_eq, h, if_neg (by decide), enterDispute, if_neg (by decide), startDispute_str]
  exact ⟨hfz.1, hm.refusals.trans hcount, hfz.2⟩

/-! ### An accepted offset in each state (R57, R61, R63) -/

theorem acceptOffset_str {o : Int} {um meas : Nat} (h : (acceptIn i o um meas d).1 ≠ 1) :
    str (acceptOffset i o um meas d).2 i = { str (acceptIn i o um meas d).2 i with lastMeas := meas, dtValid := true } := by
  rw [acceptOffset_eq, if_neg h, str_strU_self]

theorem acceptIn_locked {o : Int} {um meas : Nat} (h : (str d i).st = .locked) : acceptIn i o um meas d =
    if o.natAbs ≤ jumpLimit d i then (2, uUpdate i (corrected i o um meas (hears i o d))) else (0, refuse i o (hears i o d)) := by
  unfold acceptIn
  dsimp only
  rw [h]
  rfl

theorem accept_inLimit {o : Int} {um meas : Nat} (h : (str d i).st = .locked) (hj : o.natAbs ≤ jumpLimit d i) :
    (str (acceptOffset i o um meas d).2 i).st = .locked ∧ (str (acceptOffset i o um meas d).2 i).lastMeas = meas := by
  have hin : acceptIn i o um meas d = _ := (acceptIn_locked h).trans (if_pos hj)
  have hst : (str (corrected i o um meas (hears i o d)) i).st = .locked := by
    rw [corrected, (acts_rateCorrect (i := i) _ _ _).2.st, noteWindow, str_strU_self, hears, str_strU_self]
    exact h
  rw [acceptOffset_str (by simp [hin]), hin]
  exact ⟨((acts_uUpdate (i := i) _).2.steered.st).trans hst, rfl⟩

theorem accept_refused {o : Int} {um meas : Nat} (h : (str d i).st = .locked) (hj : jumpLimit d i < o.natAbs) :
    (str (acceptOffset i o um meas d).2 i).st = .disputed ∧
    (str (acceptOffset i o um meas d).2 i).refusals = ((str d i).refusals + 1) % 65536 ∧ (str (acceptOffset i o um meas d).2 i).slew = 0 := by
  have hin : acceptIn i o um meas d = _ := (acceptIn_locked h).trans (if_neg (Nat.not_le.mpr hj))
  have hkept : (str (hears i o d) i).refusals = (str d i).refusals := by rw [hears, str_strU_self]
  have href := refuse_locked (o := o) (d := hears i o d) (i := i) (by rw [hears, str_strU_self]; exact h)
  rw [acceptOffset_str (by simp [hin]), hin]
  exact ⟨href.1, href.2.1.trans (by rw [hkept]), href.2.2⟩

theorem acceptIn_armed {o : Int} {um meas : Nat} (h : (str d i).st = .acquire) (harm : (str d i).stepArmed = true)
    (hmin : stepMin d i ≤ o.natAbs) (hr : stepOutOfRange (str d i) (-o) = false) :
    acceptIn i o um meas d = (1, takeStep i o (hears i o d)) := by
  have hacq : acceptIn i o um meas d = offsetAcquire i o um meas (hears i o d) := by
    unfold acceptIn
    dsimp only
    rw [h]
    rfl
  have hr' : stepOutOfRange (str (hears i o d) i) (-o) = false := by
    rw [hears, str_strU_self]
    exact hr
  rw [hacq, offsetAcquire_eq, hr', if_pos (by rw [hears, str_strU_self]; exact harm), if_neg Bool.false_ne_true]
  exact if_pos hmin

theorem accept_step {o : Int} {um meas : Nat} (h : (str d i).st = .acquire) (harm : (str d i).stepArmed = true)
    (hmin : stepMin d i ≤ o.natAbs) (hr : stepOutOfRange (str d i) (-o) = false) :
    (str (acceptOffset i o um meas d).2 i).st = .acquire ∧ (str (acceptOffset i o um meas d).2 i).stepArmed = false ∧
    (str (acceptOffset i o um meas d).2 i).steps = ((str d i).steps + 1) % 256 ∧
    (str (acceptOffset i o um meas d).2 i).sched = (str d i).sched ++ [⟨applyTick d, .step (-o), none⟩] ∧
    (str (acceptOffset i o um meas d).2 i).t = (str d i).t := by
  have hj := (acts_uUpdate (i := i) (scheduleStep i o (hears i o d))).2
  rw [acceptOffset_eq, acceptIn_armed h harm hmin hr, if_pos rfl, takeStep_eq, str_postDev,
    hj.steered.st, hj.steered.stepArmed, hj.steps, hj.sched, hj.steered.t, scheduleStep, str_strU_self, str_bitW, schedule, str_strU_self,
    hears, str_strU_self]
  exact ⟨h, rfl, rfl, rfl, rfl⟩

theorem accept_drone {o : Int} {um meas : Nat} (h : (str d i).st = .drone) : (str (acceptOffset i o um meas d).2 i).st = .drone := by
  have hin : acceptIn i o um meas d = (4, hears i o d) := by
    unfold acceptIn
    dsimp only
    rw [h]
    rfl
  rw [acceptOffset_str (by simp [hin]), hin, hears, str_strU_self]
  exact h

end Sys2Proof.Machine

/-! SUPPORT. The time clock, scheduled changes and code cycles (R26–R30, R50, R51, R54–R56, R69, R98). -/

namespace Sys2Proof.Machine
open Sys2Proof

variable {s : State} {d e f : Dev} {i j k m n : Nat} {x y : Str}

/-! ### Taps (R25, R31) -/

theorem tap_tapW_self (n : Nat) (x : Tap) (d : Dev) : tap (tapW n x d) n = x := Tbl.get_set_self _ _ _ _
theorem tap_tapW_ne (x : Tap) (d : Dev) (h : m ≠ n) : tap (tapW n x d) m = tap d m := Tbl.get_set_ne _ _ _ _ _ h

theorem lt_of_hasTap (h : hasTap n = true) : n < 34 := by
  simp only [hasTap, Bool.or_eq_true, Bool.and_eq_true, decide_eq_true_eq] at h
  omega

/-- The devices have the same strings and the same time. -/
def SameClock (d e : Dev) : Prop := e.strs = d.strs ∧ e.time = d.time ∧ e.variant = d.variant

theorem SameClock.refl (d : Dev) : SameClock d d := ⟨rfl, rfl, rfl⟩
theorem SameClock.trans (h : SameClock d e) (h' : SameClock e f) : SameClock d f :=
  ⟨h'.1.trans h.1, h'.2.1.trans h.2.1, h'.2.2.trans h.2.2⟩
theorem SameClock.str (h : SameClock d e) (i : Nat) : Machine.str e i = Machine.str d i := by rw [Machine.str, Machine.str, h.1]
theorem SameClock.now (h : SameClock d e) : Machine.now e = Machine.now d := by rw [Machine.now, Machine.now, h.2.1]
theorem Reports.clock (h : Reports d e) : SameClock d e := by
  rw [h]
  exact ⟨rfl, rfl, rfl⟩
theorem Posts.clock (h : Posts d e) : SameClock d e := h.reports.clock

theorem sameClock_tapW (n : Nat) (x : Tap) (d : Dev) : SameClock d (tapW n x d) := ⟨rfl, rfl, rfl⟩

theorem sameClock_repsU (s : Nat) (u : Rep → Rep) (d : Dev) : SameClock d (repsU s u d) := by
  refine foldl_keeps SameClock.refl .trans (fun d n => ?_) _ d
  split
  · exact sameClock_tapW _ _ d
  · exact .refl d

theorem sameClock_tickTaps (d : Dev) : SameClock d (tickTaps d) := by
  refine foldl_keeps SameClock.refl .trans (fun d n => ?_) _ d
  dsimp only
  split
  · exact sameClock_tapW _ _ d
  · exact .refl d

/-- A change of every replica of a string reaches each fret and tap once (R27). -/
theorem tap_repsU (s : Nat) (u : Rep → Rep) (d : Dev) (h : hasTap m = true) : tap (repsU s u d) m = (tap d m).repU s u := by
  have hne (d : Dev) (n : Nat) (hn : n ≠ m) : tap (if hasTap n then tapW n ((tap d n).repU s u) d else d) m = tap d m := by
    split
    · exact tap_tapW_ne _ d hn.symm
    · rfl
  obtain ⟨e, hbef, haft⟩ := foldl_at (R := fun d e => tap e m = tap d m) (fun _ => rfl) (fun h h' => h'.trans h) hne List.nodup_range
    (List.mem_range.mpr (Nat.lt_trans (lt_of_hasTap h) (by omega : 34 < 49))) d
  rw [if_pos h, tap_tapW_self] at haft
  exact haft.trans (congrArg (Tap.repU s u) hbef)

theorem getD_updAt_self {α : Type} (u : α → α) {l : List α} {k : Nat} (h : k < l.length) (w : α) : (updAt u l k).getD k w = u (l.getD k w) := by
  induction l generalizing k with
  | nil => exact absurd h (Nat.not_lt_zero _)
  | cons x l ih =>
    cases k with
    | zero => rfl
    | succ k => exact ih (Nat.lt_of_succ_lt_succ h)

/-! ### Increments and slews (R27, R55, R56) -/

theorem str_setIncr (i v : Nat) (d : Dev) : str (setIncr i v d) i = { str d i with incr := v } := by
  rw [setIncr, (sameClock_repsU _ _ _).str, str_strU_self]

theorem rep_setIncr (i v : Nat) (d : Dev) (h : hasTap m = true) (hi : i < (tap d m).reps.length) : (rep (setIncr i v d) m i).incr = v := by
  rw [rep, setIncr, tap_repsU _ _ _ h]
  exact congrArg Rep.incr (getD_updAt_self _ hi _)

/-- `y` is `x` with any slew over: its increment and what it carries may have changed (R56). -/
def Unslewed (x y : Str) : Prop := y = { x with slew := 0, incr := y.incr, freq := y.freq, hist := y.hist, sched := y.sched }

/-- `y` is `x` with its increment carried (R55). -/
def Carried (x y : Str) : Prop := y = { x with freq := y.freq, hist := y.hist, sched := y.sched }

theorem Unslewed.slew (h : Unslewed x y) : y.slew = 0 := (congrArg Str.slew (show y = _ from h) :)
theorem Unslewed.t (h : Unslewed x y) : y.t = x.t := (congrArg Str.t (show y = _ from h) :)

theorem Carried.trans {z : Str} (h : Carried x y) (h' : Carried y z) : Carried x z := by
  unfold Carried at *
  rw [h', h]

theorem carried_carryIncr (i : Nat) (d : Dev) : Carried (str d i) (str (carryIncr i d) i) := by
  have hfollow : Carried (str d i) (str (eecFollow i d) i) := by
    unfold eecFollow
    dsimp only
    split
    · rw [setFreq, str_strU_self]
      rfl
    · rfl
  unfold carryIncr
  dsimp only
  split
  · exact hfollow
  · refine hfollow.trans ?_
    rw [schedule, str_strU_self]
    rfl

/-- Whether a change on its way sets the increment (R27). -/
def setsIncr (c : Sched) : Bool := match c.what with
  | .incr _ => true
  | _ => false

theorem endSlew_eq (s : Nat) (d : Dev) : endSlew s d = if (str d s).slew = 0 then d
    else carryIncr s (if (str d s).sched.any setsIncr then stopSlew s d else setIncr s (wantIncr (str (stopSlew s d) s)) (stopSlew s d)) := rfl

theorem str_stopSlew (i : Nat) (d : Dev) : str (stopSlew i d) i = { str d i with slew := 0 } := str_strU_self _ _ _

theorem endSlew_str (i : Nat) (d : Dev) : Unslewed (str d i) (str (endSlew i d) i) := by
  rw [endSlew_eq]
  split
  · next h =>
    rw [Unslewed, ← h]
  · have hc := carried_carryIncr i (if (str d i).sched.any setsIncr then stopSlew i d else setIncr i (wantIncr (str (stopSlew i d) i)) (stopSlew i d))
    rw [Unslewed, hc]
    split
    · rw [str_stopSlew]
    · rw [str_setIncr, str_stopSlew]

/-- A slew that ends with no increment on its way sets the one the string then calls for (R56). -/
theorem endSlew_incr (h : (str d i).slew ≠ 0) (hb : (str d i).sched.any setsIncr = false) :
    (str (endSlew i d) i).incr = wantIncr { str d i with slew := 0 } := by
  have hc := carried_carryIncr i (setIncr i (wantIncr (str (stopSlew i d) i)) (stopSlew i d))
  rw [endSlew_eq, if_neg h, hb, if_neg Bool.false_ne_true, hc, str_setIncr, str_stopSlew]

/-! ### Scheduled changes (R27, R51, R54) -/

theorem jumpTime_facts (i t : Nat) (d : Dev) : (str (jumpTime i t d) i).t = t % (2 ^ 48 * secUnit) ∧
    (str (jumpTime i t d) i).jumps = (str d i).jumps + 1 ∧ (str (jumpTime i t d) i).slew = 0 := by
  have hs := endSlew_str i (strU i (fun y => { y with
    t := t % (2 ^ 48 * secUnit), lastStep := some (now d), stepOld := some y.t
    stepReading := t, dtValid := false, jumps := y.jumps + 1 }) d)
  rw [jumpTime, hs, str_strU_self]
  exact ⟨rfl, rfl, rfl⟩

/-- A string whose scheduled changes are the rest of its list. -/
def popped (i : Nat) (rest : List Sched) (d : Dev) : Dev := strU i (fun y => { y with sched := rest }) d

theorem str_popped (i : Nat) (rest : List Sched) (d : Dev) : str (popped i rest d) i = { str d i with sched := rest } := str_strU_self _ _ _

theorem applyOne_incr (i v a : Nat) (d : Dev) : applyOne i ⟨a, .incr v, none⟩ d = setIncr i v d := rfl

theorem applyOne_drone (i v a : Nat) (d : Dev) : str (applyOne i ⟨a, .drone v 0, none⟩ d) i =
    { str d i with drone := v, incr := if (str d i).st = .drone then v * 65536 else (str d i).incr } := by
  have heq : applyOne i ⟨a, .drone v 0, none⟩ d =
      (if (str d i).st = .drone then setIncr i (v * 65536) else id) (strU i (fun y => { y with drone := v }) d) := rfl
  rw [heq]
  split
  · rw [str_setIncr, str_strU_self]
  · exact str_strU_self _ _ _

theorem applyOne_utc (i fl a : Nat) (off : Option Int) (d : Dev) :
    str (applyOne i ⟨a, .utc off fl, none⟩ d) i = { str d i with utcOffset := off.getD (str d i).utcOffset, utcFlags := fl } := str_strU_self _ _ _

theorem applyOne_step {c : Sched} {delta : Int} (hw : c.what = .step delta) (hh : c.held = none) (d : Dev) :
    (str (applyOne i c d) i).t = stepped (str d i).t delta ∧ (str (applyOne i c d) i).jumps = (str d i).jumps + 1 ∧
    (str (applyOne i c d) i).slew = 0 := by
  obtain ⟨a, what, held⟩ := c
  dsimp only at hw hh
  subst hw hh
  have heq : applyOne i ⟨a, .step delta, none⟩ d = repsU i (fun r => { r with t := stepped r.t delta })
      (strU i (fun y => { y with stepLog := (now d, delta) :: y.stepLog }) (jumpTime i (((str d i).t : Int) + delta * 2 ^ 32).toNat d)) := by
    unfold applyOne
    rfl
  rw [heq, (sameClock_repsU _ _ _).str, str_strU_self]
  exact jumpTime_facts _ _ _

theorem applyOne_load {c : Sched} {v r : Nat} (hw : c.what = .load v r) (hh : c.held = none) (d : Dev) :
    (str (applyOne i c d) i).t = v % (2 ^ 48 * secUnit) ∧ (str (applyOne i c d) i).jumps = (str d i).jumps + 1 := by
  obtain ⟨a, what, held⟩ := c
  dsimp only at hw hh
  subst hw hh
  have heq : applyOne i ⟨a, .load v r, none⟩ d = repsU i (fun r => { r with t := v % (2 ^ 48 * secUnit) }) (jumpTime i v d) := by
    unfold applyOne
    rfl
  obtain ⟨ht, hj, -⟩ := jumpTime_facts i v d
  rw [heq, (sameClock_repsU _ _ _).str]
  exact ⟨ht, hj⟩

theorem execScheduledApply_some {c : Sched} {rest : List Sched} (h : takeDue s.dev i = some (c, rest)) :
    (∀ k, jumpCause c.what = some k → Lands (.scheduledApply i) s (afterJump i (str s.dev i).t k (applyOne i c (popped i rest s.dev)))) ∧
    (jumpCause c.what = none → Lands (.scheduledApply i) s (applyOne i c (popped i rest s.dev))) := by
  refine ⟨fun k hk => ?_, fun hn => ?_⟩
  · refine lands_of_lift (exec_scheduledApply i s) ?_
    rw [h]
    dsimp only
    rw [hk]
    rfl
  · refine lands_of_lift (exec_scheduledApply i s) ?_
    rw [h]
    dsimp only
    rw [hn]
    rfl

/-! ### The time clock (R26, R50) -/

theorem sameClock_completeHeld (h : Held) (status dw : Nat) (d : Dev) : SameClock d (completeHeld h status dw d) := (reports_completeHeld h status dw d).clock

theorem sameClock_flushMarks (d : Dev) : SameClock d (flushMarks d) := by
  unfold flushMarks
  dsimp only
  refine SameClock.trans (e := witU _ d) ⟨rfl, rfl, rfl⟩ (foldl_keeps SameClock.refl .trans (fun d n => ?_) _ _)
  refine SameClock.trans ?_ (sameClock_completeHeld _ _ _ _)
  split
  · exact (reports_dma _ _ _ _).clock
  · exact .refl d

/-- Every string advances by its increment. -/
def advance (d : Dev) (s : Nat) : Dev := strU s (fun x => { x with t := (x.t + x.incr) % (2 ^ 48 * secUnit) }) d

/-- What the time clock does once every string and replica has advanced. -/
def clockEdge (d : Dev) : Dev :=
  let d := if tenMhzRises d then emit (.pin pinTenMhz true) d else d
  let d := timeU (fun t => { t with tick := t.tick + 1 }) d
  { d with ledger := { d.ledger with downFrom := if storageUp d then none else some (d.ledger.downFrom.getD (now d)) } }

theorem timeTick_eq (d : Dev) : timeTick d = clockEdge (tickTaps ((List.range (numStrings d.variant)).foldl advance d)) := rfl

theorem clockEdge_facts (d : Dev) : (clockEdge d).strs = d.strs ∧ now (clockEdge d) = now d + 1 := by
  unfold clockEdge
  dsimp only
  split
  · exact ⟨rfl, rfl⟩
  · exact ⟨rfl, rfl⟩

theorem now_advance (l : List Nat) (d : Dev) : now (l.foldl advance d) = now d :=
  foldl_keeps (R := fun d e => now e = now d) (fun _ => rfl) (fun h h' => h'.trans h) (g := advance) (fun _ _ => rfl) l d

theorem timeTick_facts (d : Dev) : now (timeTick d) = now d + 1 ∧
    ∀ j, strPresent d j = true → (str (timeTick d) j).t = ((str d j).t + (str d j).incr) % (2 ^ 48 * secUnit) := by
  obtain ⟨hstrs, hnow⟩ := clockEdge_facts (tickTaps ((List.range (numStrings d.variant)).foldl advance d))
  refine ⟨?_, fun j hj => ?_⟩
  · rw [timeTick_eq, hnow, (sameClock_tickTaps _).now, now_advance]
  · obtain ⟨e, hbef, haft⟩ := foldl_strings (g := advance) (fun d j => tunes_strU j _ d) (of_decide_eq_true hj) d
    rw [timeTick_eq, str, hstrs, ← str, (sameClock_tickTaps _).str, haft.own, advance, str_strU_self, hbef.own]

/-! ### Code cycles (R26, R29, R69) -/

/-- A string's holdover growth of one code cycle (R53, R69). -/
def growth (d : Dev) (i : Nat) : Nat := (if tpllHold d = true then max (holdDrift d i) 512000 else holdDrift d i) * 262144

/-- A string with its holdover growth added. -/
def grown (i : Nat) (d : Dev) : Dev := strU i (fun y => { y with growth := y.growth + growth d i }) d

theorem str_grown (i : Nat) (d : Dev) : str (grown i d) i = { str d i with growth := (str d i).growth + growth d i } := str_strU_self _ _ _

theorem growOne_eq (i : Nat) (d : Dev) : growOne i d = if (str d i).st = .holdover ∨ (str d i).st = .disputed then uUpdate i (grown i d)
    else uUpdate i d := rfl

theorem growOne_facts (i : Nat) (d : Dev) : Tunes i d (growOne i d) ∧ (str (growOne i d) i).t = (str d i).t ∧
    (str (growOne i d) i).incr = (str d i).incr ∧ (str (growOne i d) i).st = (str d i).st := by
  have hu (e : Dev) := acts_uUpdate (i := i) e
  rw [growOne_eq]
  split
  · obtain ⟨ht, hj⟩ := hu (grown i d)
    rw [hj.steered.t, hj.steered.incr, hj.steered.st, str_grown]
    exact ⟨(tunes_strU _ _ _).trans ht, rfl, rfl, rfl⟩
  · exact ⟨(hu d).1, (hu d).2.steered.t, (hu d).2.steered.incr, (hu d).2.steered.st⟩

theorem growth_growOne (h : (str d i).st = .holdover ∨ (str d i).st = .disputed) :
    (str (growOne i d) i).growth = (str d i).growth + growth d i := by
  rw [growOne_eq, if_pos h, (acts_uUpdate (i := i) (grown i d)).2.steered.growth, str_grown]

/-- What another island's turn leaves of island `m`'s tap, of the strings and of the islands themselves. -/
structure TapTurn (m : Nat) (d e : Dev) : Prop where
  clock : SameClock d e
  islands : ∀ n, islandOn e n = islandOn d n
  tap : tap e m = tap d m
  valid : bitR e (0x400 + 4 * m) 0 = bitR d (0x400 + 4 * m) 0

theorem TapTurn.refl (m : Nat) (d : Dev) : TapTurn m d d := ⟨.refl d, fun _ => rfl, rfl, rfl⟩

theorem TapTurn.trans (h : TapTurn m d e) (h' : TapTurn m e f) : TapTurn m d f :=
  ⟨h.clock.trans h'.clock, fun n => (h'.islands n).trans (h.islands n), h'.tap.trans h.tap, h'.valid.trans h.valid⟩

theorem Posts.islandOn (h : Posts d e) (n : Nat) : Machine.islandOn e n = Machine.islandOn d n := by
  rw [h]
  rfl

theorem tapTurn_postDev (hm : m < 34) (code : Nat) (payload : Bytes) (d : Dev) : TapTurn m d (postDev code payload d) := by
  have hp := posts_postDev code payload d
  refine ⟨hp.clock, hp.islandOn, ?_, (sameMap_postEvent _ _ _ _ _).bitR _ _ (by omega)⟩
  rw [hp]
  rfl

theorem tapTurn_bitW (b : Nat) (v : Bool) (d : Dev) (h : n ≠ m ∨ b ≠ 0) : TapTurn m d (bitW (0x400 + 4 * n) b v d) := by
  have hp := posts_bitW (0x400 + 4 * n) b v d
  refine ⟨hp.clock, hp.islandOn, ?_, ?_⟩
  · rw [hp]
    rfl
  · by_cases hn : n = m
    · subst hn
      exact bitR_bitW_ne _ _ _ _ _ (by omega) (h.resolve_left (fun h => h rfl)).symm
    · exact congrArg (Word.bit · 0) (regR_bitW_ne _ _ _ _ _ (by omega))

theorem tapTurn_tapW (x : Tap) (d : Dev) (h : n ≠ m) : TapTurn m d (tapW n x d) :=
  ⟨sameClock_tapW _ _ _, fun _ => rfl, tap_tapW_ne _ _ h.symm, rfl⟩

theorem tapTurn_setAlarm (hm : m < 34) (b : Bool) (d : Dev) : TapTurn m d (setAlarm n b d) := by
  unfold setAlarm
  split
  · exact .refl m d
  · exact (tapTurn_bitW 1 b d (.inr (by omega))).trans (tapTurn_postDev hm _ _ _)

theorem tapTurn_ite {p : Prop} [Decidable p] (h : TapTurn m d e) (h' : TapTurn m d f) : TapTurn m d (if p then e else f) := by
  split <;> assumption

theorem tapTurn_tapCycle (hm : m < 34) (h : n ≠ m) (bad : Bool) (drift : Int) (d : Dev) : TapTurn m d (tapCycle n bad drift d) := by
  have hput (x : Tap) : TapTurn m d (tapW n x d) := tapTurn_tapW x d h
  have halarm (b : Bool) (x : Tap) : TapTurn m d (setAlarm n b (tapW n x d)) := (hput x).trans (tapTurn_setAlarm hm b _)
  have hbad (x : Tap) : TapTurn m d (bitW (0x400 + 4 * n) 2 true (tapW n x d)) := (hput x).trans (tapTurn_bitW 2 true _ (.inl h))
  unfold tapCycle
  dsimp only
  refine tapTurn_ite (.refl m d) (tapTurn_ite (hput _) (tapTurn_ite ?_ ?_))
  · exact tapTurn_ite ((hbad _).trans (tapTurn_setAlarm hm true _)) (hbad _)
  · exact tapTurn_ite (halarm true _) (tapTurn_ite (halarm false _) (hput _))

theorem sameClock_ite {p : Prop} [Decidable p] (h : SameClock d e) (h' : SameClock d f) : SameClock d (if p then e else f) := by
  split <;> assumption

theorem sameClock_tapCycle (n : Nat) (bad : Bool) (drift : Int) (d : Dev) : SameClock d (tapCycle n bad drift d) := by
  have halarm (b : Bool) (e : Dev) : SameClock e (setAlarm n b e) := by
    unfold setAlarm
    exact sameClock_ite (.refl e) (((posts_bitW _ _ _ e).trans (posts_postDev _ _ _)).clock)
  have hput (x : Tap) : SameClock d (tapW n x d) := sameClock_tapW n x d
  have hbad (x : Tap) : SameClock d (bitW (0x400 + 4 * n) 2 true (tapW n x d)) := (hput x).trans (posts_bitW _ _ _ _).clock
  unfold tapCycle
  dsimp only
  refine sameClock_ite (.refl d) (sameClock_ite (hput _) (sameClock_ite ?_ ?_))
  · exact sameClock_ite ((hbad _).trans (halarm true _)) (hbad _)
  · exact sameClock_ite ((hput _).trans (halarm true _)) (sameClock_ite ((hput _).trans (halarm false _)) (hput _))

/-- A tap that is not valid loads from a good code cycle (R29). -/
theorem tap_tapCycle {drift : Int} (ht : hasTap n = true) (hi : islandOn d n = true) (hv : bitR d (0x400 + 4 * n) 0 = false) :
    (tap (tapCycle n false drift d) n).reps = carriedAll d := by
  unfold tapCycle
  dsimp only
  rw [ht, hi, hv, if_neg (by simp), if_pos (by simp), if_neg Bool.false_ne_true, tap_tapW_self]

theorem carriedAll_eq (h : SameClock d e) : carriedAll e = carriedAll d := by
  unfold carriedAll
  rw [h.2.2]
  exact List.map_congr_left fun s _ => by rw [h.str]

/-- Every tap's turn of a code cycle. -/
theorem tapCycles_reps {bad : List Nat} {drifts : List (Nat × Int)} (ht : hasTap n = true) (hi : islandOn d n = true)
    (hv : bitR d (0x400 + 4 * n) 0 = false) (hb : n ∉ bad) :
    (tap ((List.range 49).foldl (fun d n => tapCycle n (bad.contains n) (Tbl.get (fun _ => (0 : Int)) drifts n) d) d) n).reps =
      carriedAll ((List.range 49).foldl (fun d n => tapCycle n (bad.contains n) (Tbl.get (fun _ => (0 : Int)) drifts n) d) d) := by
  have hm := lt_of_hasTap ht
  obtain ⟨e, hbef, haft⟩ := foldl_at (R := TapTurn n) (.refl n) .trans
    (g := fun d n => tapCycle n (bad.contains n) (Tbl.get (fun _ => (0 : Int)) drifts n) d) (a := n)
    (fun d m hne => tapTurn_tapCycle hm hne _ _ d) List.nodup_range (List.mem_range.mpr (Nat.lt_trans hm (by omega : 34 < 49))) d
  have hbad : bad.contains n = false := by simpa using hb
  rw [haft.tap, carriedAll_eq haft.clock, carriedAll_eq (sameClock_tapCycle _ _ _ e), hbad]
  exact tap_tapCycle ht ((hbef.islands n).trans hi) (hbef.valid.trans hv)

end Sys2Proof.Machine

/-! SUPPORT. How the strings' commands keep and change their strings. -/

namespace Sys2Proof.Machine
open Sys2Proof

variable {s : State} {d e f : Dev} {i j k m n port rx tx : Nat} {x y : Str} {o : Int}

/-! ### Accepted offsets of PTP (R61, R136) -/

/-- The offset left of a PTP exchange once its delays' asymmetry is taken off (R136). -/
def netOffset (d : Dev) (i port rx tx : Nat) (o : Int) : Int := o - delayAsymmetry d i port (exchangeEntries d port rx tx).1

/-- An offset of string `i`'s own source, which cluster 0 may take (R61). -/
def Taken (d : Dev) (i port rx tx : Nat) : Prop :=
  strPresent d i = true ∧ (str d i).owner = 0 ∧ (str d i).srcKind = 1 ∧ (str d i).srcPort = port ∧ timeServiceUp d = true ∧
    staleOffset (str d i) (min rx tx) = false

theorem ptpUMeas_tunes (p : Nat) (es : Bytes × Bytes) (d : Dev) : Tunes i d (ptpUMeas p es d).2 ∧ str (ptpUMeas p es d).2 i = str d i :=
  roundFree_tunes _ 2 d

theorem delayAsymmetry_congr (h : str e i = str d i) (b : Bytes) : delayAsymmetry e i port b = delayAsymmetry d i port b := by
  unfold delayAsymmetry asymCorr
  rw [h]

theorem acceptedOffset_lands (o : Int) (h : Taken s.dev i port rx tx) : ∃ u e, Tunes i s.dev e ∧ str e i = str s.dev i ∧
    Lands (.acceptedOffset i port o rx tx) s (gmUpdate i (acceptOffset i (netOffset s.dev i port rx tx o) u (min rx tx) e).2) := by
  obtain ⟨hp, ho, hk, hport, hup, hst⟩ := h
  obtain ⟨ht, hs⟩ := ptpUMeas_tunes (i := i) port (exchangeEntries s.dev port rx tx) s.dev
  refine ⟨(ptpUMeas port (exchangeEntries s.dev port rx tx) s.dev).1, (ptpUMeas port (exchangeEntries s.dev port rx tx) s.dev).2, ht, hs, ?_⟩
  refine lands_of_lift (exec_acceptedOffset i port o rx tx s) ((if_pos ?_).trans ?_)
  · simp [hp, ho, hk, hport, hup, hst]
  · dsimp only
    generalize ptpUMeas port (exchangeEntries s.dev port rx tx) s.dev = r at hs ⊢
    rw [delayAsymmetry_congr hs, netOffset]

theorem graded_gmUpdate (i : Nat) (d : Dev) : str (gmUpdate i d) i = { str d i with gm := (str (gmUpdate i d) i).gm } := (acts_gmUpdate (i := i) d).2

/-! ### Lost references and sources (R53, R62, R81) -/

/-- A lost time reference reaches each string (R53). -/
def loseReference (d : Dev) (j : Nat) : Dev := gmUpdate j (loseSource j (strU j (fun x => { x with pHold := true }) d))

theorem tunes_loseReference (d : Dev) (j : Nat) : Tunes j d (loseReference d j) :=
  (tunes_strU _ _ _).trans ((tunes_loseSource _).trans (acts_gmUpdate _).1)

theorem st_loseReference (h : (str d i).st = .acquire ∨ (str d i).st = .locked) : (str (loseReference d i) i).st = .holdover := by
  rw [loseReference, graded_gmUpdate]
  exact (loseSource_facts (by rw [str_strU_self]; exact h)).1

/-- What all turns of a set of strings leave alone. -/
theorem tunes_foldl {g : Dev → Nat → Dev} (hg : ∀ d j, Tunes j d (g d j)) (l : List Nat) (d : Dev) :
    (l.foldl g d).time = d.time ∧ (l.foldl g d).variant = d.variant ∧ SameTimeMap d (l.foldl g d) ∧ ∀ n, islandOn (l.foldl g d) n = islandOn d n := by
  refine foldl_keeps (R := fun d e => e.time = d.time ∧ e.variant = d.variant ∧ SameTimeMap d e ∧ ∀ n, islandOn e n = islandOn d n)
    (fun _ => ⟨rfl, rfl, fun _ _ _ => rfl, fun _ => rfl⟩)
    (fun h h' => ⟨h'.1.trans h.1, h'.2.1.trans h.2.1, fun k hk hk' => (h'.2.2.1 k hk hk').trans (h.2.2.1 k hk hk'), fun n => (h'.2.2.2 n).trans (h.2.2.2 n)⟩)
    (fun d j => ⟨(hg d j).time, (hg d j).variant, (hg d j).map, fun n => ?_⟩) l d
  rw [(hg d j).rest]
  rfl

theorem freq_carryIncr (i : Nat) (d : Dev) : (str (carryIncr i d) i).freq = (str (eecFollow i d) i).freq := by
  unfold carryIncr
  dsimp only
  split
  · rfl
  · rw [schedule, str_strU_self]

/-- A string that follows a locked EEC shows its frequency (R81). -/
theorem freq_followed (hf : freqSynce d i = true) (he : effB d 0x108060 0 = true) (hl : fldR d 0x108064 1 0 = 1)
    (hst : (str d i).st = .acquire ∨ (str d i).st = .locked) : (str (carryIncr i d) i).freq = clampFreq d.time.eecFreq := by
  rw [freq_carryIncr, eecFollow, hf, he, hl, decide_eq_true hst]
  split
  · rw [setFreq, str_strU_self]
  · next h => simpa using h

/-- A change of the EEC's state reaches each string that follows it (R81). -/
def followEec (state : Nat) (d : Dev) (j : Nat) : Dev :=
  if freqSynce d j && decide ((str d j).st ≠ .drone) then
    if state = 1 then carryIncr j d else loseSource j d
  else d

theorem tunes_followEec (state : Nat) (d : Dev) (j : Nat) : Tunes j d (followEec state d j) := by
  unfold followEec
  split
  · split
    · exact (acts_carryIncr d).1
    · exact tunes_loseSource d
  · exact .refl j d

theorem fldR_fldW_low (k v : Nat) (d : Dev) (hv : v < 4) : fldR (fldW k 1 0 v d) k 1 0 = v := by
  have hn := (regR d k).isLt
  unfold fldR fldW
  rw [regR_regW_self]
  unfold Word.fld Word.put
  simp only [BitVec.toNat_ofNat]
  omega

/-! ### The commands -/

theorem rep_landed (s : State) (d : Dev) (m i : Nat) : rep (landed s d).dev m i = rep d m i := rfl
theorem tap_landed (s : State) (d : Dev) (m : Nat) : tap (landed s d).dev m = tap d m := rfl
theorem carriedAll_landed (s : State) (d : Dev) : carriedAll (landed s d).dev = carriedAll d := rfl

/-- The code cycle's strings, grown. -/
def cycled (d : Dev) : Dev :=
  (List.range (numStrings d.variant)).foldl (fun d i => growOne i d) (timeU (fun t => { t with codeCycles := t.codeCycles + 1, lastCycle := some t.tick }) d)

theorem codeCycle_lands {bad : List Nat} {drifts : List (Nat × Int)} (h0 : now s.dev % 1024 = 0) (h1 : s.dev.time.lastCycle ≠ some (now s.dev)) :
    Lands (.codeCycle bad drifts) s
      ((List.range 49).foldl (fun d n => tapCycle n (bad.contains n) (Tbl.get (fun _ => (0 : Int)) drifts n) d) (cycled s.dev)) :=
  lands_of_lift (exec_codeCycle bad drifts s) (if_neg (by rintro (h | h); exacts [h h0, h1 h]))

theorem cycled_facts (d : Dev) : (cycled d).time.codeCycles = d.time.codeCycles + 1 ∧ (cycled d).time.lastCycle = some (now d) ∧
    SameTimeMap d (cycled d) ∧ ∀ n, islandOn (cycled d) n = islandOn d n := by
  obtain ⟨ht, -, hm, hi⟩ := tunes_foldl (g := fun d i => growOne i d) (fun d j => (growOne_facts j d).1) (List.range (numStrings d.variant))
    (timeU (fun t => { t with codeCycles := t.codeCycles + 1, lastCycle := some t.tick }) d)
  exact ⟨congrArg TimeBlk.codeCycles ht, congrArg TimeBlk.lastCycle ht, hm, hi⟩

/-- Each present string grows once in a code cycle (R69). -/
theorem cycled_str (d : Dev) (hp : strPresent d i = true) :
    ((str d i).st = .holdover ∨ (str d i).st = .disputed → (str (cycled d) i).growth = (str d i).growth + growth d i) ∧
    (str (cycled d) i).t = (str d i).t ∧ (str (cycled d) i).incr = (str d i).incr ∧ (str (cycled d) i).st = (str d i).st := by
  obtain ⟨e, hbef, haft⟩ := foldl_strings (g := fun d i => growOne i d) (fun d j => (growOne_facts j d).1) (of_decide_eq_true hp)
    (timeU (fun t => { t with codeCycles := t.codeCycles + 1, lastCycle := some t.tick }) d)
  obtain ⟨-, ht, hinc, hst⟩ := growOne_facts i e
  have hown : str e i = str d i := hbef.own
  have hgrow : growth e i = growth d i := by
    unfold growth tpllHold bitR holdDrift effF
    rw [hbef.map 0x108010 (by omega) (by omega), hbef.effR, regR_timeU, effR_timeU]
  unfold cycled
  rw [haft.own, ht, hinc, hst, hown]
  refine ⟨fun h => ?_, rfl, rfl, rfl⟩
  rw [growth_growOne (by rw [hown]; exact h), hown, hgrow]

theorem codeCycle_facts {bad : List Nat} {drifts : List (Nat × Int)} (h0 : now s.dev % 1024 = 0) (h1 : s.dev.time.lastCycle ≠ some (now s.dev)) :
    Runs (.codeCycle bad drifts) s fun d' =>
      d'.time.codeCycles = s.dev.time.codeCycles + 1 ∧ d'.time.lastCycle = some (now s.dev) ∧
      (strPresent s.dev i = true → (str s.dev i).st = .holdover ∨ (str s.dev i).st = .disputed →
        (str d' i).growth = (str s.dev i).growth + growth s.dev i) ∧
      (strPresent s.dev i = true → (str d' i).t = (str s.dev i).t ∧ (str d' i).incr = (str s.dev i).incr ∧ (str d' i).st = (str s.dev i).st) ∧
      (hasTap n = true → islandOn s.dev n = true → bitR s.dev (0x400 + 4 * n) 0 = false → n ∉ bad → (tap d' n).reps = carriedAll d') := by
  obtain ⟨hc, hl, hm, hi⟩ := cycled_facts s.dev
  have hclock : SameClock (cycled s.dev) ((List.range 49).foldl (fun d n => tapCycle n (bad.contains n) (Tbl.get (fun _ => (0 : Int)) drifts n) d) (cycled s.dev)) :=
    foldl_keeps SameClock.refl .trans (fun d n => sameClock_tapCycle _ _ _ d) _ _
  refine runs_of_lands (codeCycle_lands h0 h1) ?_
  rw [landed_time, hclock.2.1, str_landed, hclock.str, carriedAll_landed, tap_landed]
  refine ⟨hc, hl, fun hp => (cycled_str s.dev hp).1, fun hp => (cycled_str s.dev hp).2, fun ht hio hv hb => ?_⟩
  have hn := lt_of_hasTap ht
  refine tapCycles_reps ht ((hi n).trans hio) ?_ hb
  exact (congrArg (Word.bit · 0) (hm _ (by omega) (by omega)) : bitR (cycled s.dev) (0x400 + 4 * n) 0 = _).trans hv

/-- The lost reference holds the time PLL. -/
def referenceLost (d : Dev) : Dev := postDev 0x25 (leBytes 1 1) (bitW 0x108010 8 false (bitW 0x108010 10 true d))

theorem trefLost_facts (i : Nat) (s : State) : Runs .trefLost s fun d' => tpllHold d' = true ∧
    (strPresent s.dev i = true → (str s.dev i).st = .acquire ∨ (str s.dev i).st = .locked → (str d' i).st = .holdover) := by
  have hlands : Lands .trefLost s ((List.range (numStrings (referenceLost s.dev).variant)).foldl loseReference (referenceLost s.dev)) :=
    lands_of_lift (exec_trefLost s) rfl
  obtain ⟨-, -, hmap, -⟩ := tunes_foldl tunes_loseReference (List.range (numStrings (referenceLost s.dev).variant)) (referenceLost s.dev)
  have hpost : Posts s.dev (referenceLost s.dev) := (posts_bitW _ _ _ _).trans ((posts_bitW _ _ _ _).trans (posts_postDev _ _ _))
  refine runs_of_lands hlands ?_
  rw [str_landed, tpllHold, bitR_landed]
  refine ⟨?_, fun hp hst => ?_⟩
  · rw [bitR, hmap _ (by omega) (by omega), ← bitR, referenceLost, postDev, (sameMap_postEvent _ _ _ _ _).bitR _ _ (by omega),
      bitR_bitW_ne _ _ _ _ _ (by omega) (by omega), bitR_bitW_self _ _ _ _ (by omega)]
  · have hlt : i < numStrings (referenceLost s.dev).variant := by
      rw [hpost]
      exact of_decide_eq_true hp
    obtain ⟨e, hbef, haft⟩ := foldl_strings tunes_loseReference hlt (referenceLost s.dev)
    rw [haft.own]
    refine st_loseReference ?_
    rw [hbef.own, str_posts hpost]
    exact hst

/-- The regained reference releases the time PLL. -/
def referenceFound (d : Dev) : Dev := bitW 0x108010 8 true (bitW 0x108010 10 false d)

theorem referenceFound_facts (d : Dev) : bitR (referenceFound d) 0x108010 10 = false ∧ bitR (referenceFound d) 0x108010 8 = true := by
  unfold referenceFound
  rw [bitR_bitW_ne _ _ _ _ _ (by omega) (by omega), bitR_bitW_self _ _ _ _ (by omega), bitR_bitW_self _ _ _ _ (by omega)]
  exact ⟨rfl, rfl⟩

theorem tpllRelock_facts (i : Nat) (s : State) : Runs .tpllRelock s fun d' =>
    tpllHold d' = false ∧ bitR d' 0x108010 8 = true ∧ str d' i = str s.dev i := by
  have hfound := referenceFound_facts s.dev
  have hstr : str (referenceFound s.dev) i = str s.dev i := str_posts ((posts_bitW _ _ _ _).trans (posts_bitW _ _ _ _)) i
  have hlands : Lands .tpllRelock s (if tpllHold s.dev then postDev 0x25 (leBytes 1 0) (referenceFound s.dev) else referenceFound s.dev) :=
    lands_of_lift (exec_tpllRelock s) rfl
  refine runs_of_lands hlands ?_
  rw [str_landed, tpllHold, bitR_landed, bitR_landed]
  split
  · rw [postDev, (sameMap_postEvent _ _ _ _ _).bitR _ _ (by omega), (sameMap_postEvent _ _ _ _ _).bitR _ _ (by omega), ← postDev, str_postDev]
    exact ⟨hfound.1, hfound.2, hstr⟩
  · exact ⟨hfound.1, hfound.2, hstr⟩

/-- The EEC shows its new state and frequency. -/
def eecShown (st : Nat) (f : Int) (d : Dev) : Dev := fldW 0x108064 1 0 st (timeU (fun t => { t with eecFreq := f }) d)

theorem eecStateChange_facts {st : Nat} {fq : Int} (i : Nat) (hen : effB s.dev 0x108060 0 = true) (hst3 : st < 3) :
    Runs (.eecStateChange st fq) s fun d' => d'.time.eecFreq = fq ∧
      (strPresent s.dev i = true → freqSynce s.dev i = true → (str s.dev i).st = .acquire ∨ (str s.dev i).st = .locked →
        (st ≠ 1 → (str d' i).st = .holdover) ∧ (st = 1 → (str d' i).st = (str s.dev i).st ∧ (str d' i).freq = clampFreq fq)) := by
  have hlands : Lands (.eecStateChange st fq) s ((List.range (numStrings (eecShown st fq s.dev).variant)).foldl (followEec st) (eecShown st fq s.dev)) :=
    lands_of_lift (exec_eecStateChange st fq s) (if_neg (by simp [hen, Nat.not_le.mpr hst3]))
  obtain ⟨htime, -, -, -⟩ := tunes_foldl (tunes_followEec st) (List.range (numStrings (eecShown st fq s.dev).variant)) (eecShown st fq s.dev)
  refine runs_of_lands hlands ?_
  rw [str_landed, landed_time, htime]
  refine ⟨rfl, fun hp hf hst => ?_⟩
  obtain ⟨e, hbef, haft⟩ := foldl_strings (tunes_followEec st) (i := i) (n := numStrings (eecShown st fq s.dev).variant) (of_decide_eq_true hp) (eecShown st fq s.dev)
  have hown : str e i = str s.dev i := hbef.own.trans ((str_fldW _ _ _ _ _ _).trans (str_timeU _ _ _))
  have heff (k : Nat) : effR e k = effR s.dev k := (hbef.effR k).trans ((effR_fldW _ _ _ _ _ _).trans (effR_timeU _ _ _))
  have hfe : freqSynce e i = true := by
    rw [freqSynce, effB, heff]
    exact hf
  have hnd : (str e i).st ≠ .drone := by
    rw [hown]
    rcases hst with h | h <;> simp [h]
  rw [haft.own, followEec, hfe, decide_eq_true hnd, Bool.and_self, if_pos rfl]
  refine ⟨fun h1 => ?_, fun h1 => ?_⟩
  · rw [if_neg h1]
    exact (loseSource_facts (by rw [hown]; exact hst)).1
  · subst h1
    rw [if_pos rfl]
    refine ⟨(acts_carryIncr (i := i) e).2.st.trans (congrArg Str.st hown), ?_⟩
    have hshown : fldR e 0x108064 1 0 = 1 := by
      rw [fldR, hbef.map _ (by omega) (by omega), ← fldR, eecShown, fldR_fldW_low _ _ _ (by omega)]
    rw [freq_followed hfe (by rw [effB, heff]; exact hen) hshown (by rw [hown]; exact hst), hbef.time]
    rfl

theorem carriesIncr_none {l : List Sched} (h : (l.all fun e => match e.what with
    | .incr _ => false
    | _ => true) = true) : l.any setsIncr = false := by
  rw [List.any_eq_false]
  intro c hc
  have hw := List.all_eq_true.mp h c hc
  unfold setsIncr
  cases hcw : c.what <;> simp [hcw] at hw ⊢

theorem tap_popped (i : Nat) (rest : List Sched) (d : Dev) (m : Nat) : tap (popped i rest d) m = tap d m := rfl

/-- Settles O11: an operation of the time engine on one string changes that string's record in named fields only. -/
theorem stringsAdvanceAndFollowTheirSource : Obligations.StringsAdvanceAndFollowTheirSource := by
  unfold Obligations.StringsAdvanceAndFollowTheirSource
  refine ⟨fun s i n delay => ?_, fun s i port rx tx o why => ?_⟩
  · intro d x
    subst x d
    refine ⟨?_, fun v a rest hd => ?_, fun v a rest hd => ?_, fun off fl a rest hd => ?_, fun c rest hd => ?_, fun hd => ?_,
      fun hsl hend => ?_, fun off due hl hdue => ?_, fun off due hl hdue => ?_, fun ht hi hr => ?_, fun ht hi => ?_, fun hp => ?_, fun hp => ?_,
      fun bad drifts hcyc hlast => ?_⟩
    · obtain ⟨hnow, ht⟩ := timeTick_facts s.dev
      refine runs_of_lift (exec_timeTick s) ?_
      rw [now_landed, (sameClock_flushMarks _).now]
      refine ⟨hnow, fun j hj => ?_⟩
      rw [str_landed, (sameClock_flushMarks _).str]
      exact ht j hj
    · refine runs_of_lands ((execScheduledApply_some hd).2 rfl) ?_
      rw [applyOne_incr, str_landed, str_setIncr, str_popped]
      refine ⟨rfl, fun m hm hi => ?_⟩
      rw [rep_landed, rep_setIncr i v _ hm (by rw [tap_popped]; exact hi)]
    · refine runs_of_lands ((execScheduledApply_some hd).2 rfl) ?_
      rw [str_landed, applyOne_drone, str_popped]
    · refine runs_of_lands ((execScheduledApply_some hd).2 rfl) ?_
      rw [str_landed, applyOne_utc, str_popped]
    · intro put
      subst put
      refine ⟨(execScheduledApply_some hd).1, (execScheduledApply_some hd).2, fun delta hw hh => ?_, fun v r hw hh => ?_⟩
      · have h := applyOne_step (i := i) hw hh (popped i rest s.dev)
        rw [str_popped] at h
        exact h
      · have h := applyOne_load (i := i) hw hh (popped i rest s.dev)
        rw [str_popped] at h
        exact h
    · refine lands_of_lift (exec_scheduledApply i s) ?_
      rw [hd]
    · have hs := endSlew_str i s.dev
      refine runs_of_lands (lands_of_lift (exec_slewEnd i s) (if_pos ⟨hsl, hend⟩)) ?_
      rw [str_landed]
      refine ⟨hs.slew, hs.t, fun hno => ?_⟩
      exact endSlew_incr hsl (carriesIncr_none hno)
    · refine runs_of_lift (exec_leapApply i s) ?_
      dsimp only
      rw [hl]
      dsimp only
      rw [if_pos hdue, str_landed, str_strU_self]
      exact ⟨rfl, rfl, rfl, rfl, rfl, rfl⟩
    · refine lands_of_lift (exec_leapApply i s) ?_
      dsimp only
      rw [hl]
      exact if_neg (Nat.not_le.mpr hdue)
    · have hset : setFretValid n s.dev = bitW (0x400 + 4 * n) 0 true s.dev := if_pos (by simp [ht, hi, hr])
      refine ⟨?_, fun h8 => ?_, fun h1 h8 => ?_⟩
      · rw [hset]
        exact bitR_bitW_self _ _ _ _ (by omega)
      · exact lands_of_lift (exec_fretValid n s) (if_neg (by omega))
      · exact lands_of_lift (exec_fretValid n s) (if_pos ⟨h1, h8⟩)
    · refine runs_of_lift (exec_timeBusDelayMeasure n delay s) ?_
      rw [ht, hi, if_pos (by rfl), regR_landed, regR_regW_self]
      exact ⟨rfl, fun k hk => (regR_landed _ _ _).trans (regR_regW_ne _ _ _ _ hk)⟩
    · refine runs_of_lift (exec_timeNowRead i s) ?_
      dsimp only
      rw [hp, if_neg (by simp), landed_out, str_landed, str_emit, str_strU_self]
      exact ⟨rfl, rfl⟩
    · exact lands_of_lift (exec_timeNowRead i s) (if_pos (by rw [hp]; rfl))
    · exact codeCycle_facts hcyc hlast
  · intro d x net taken
    subst taken net x d
    refine ⟨fun h hst hj => ?_, fun h hst hj => ?_, fun h hst harm hmin hr => ?_, fun h hst => ?_, fun hp hl hst => ?_, fun t0 hf hst hla hto hdue => ?_,
      ?_, ?_, fun st f hen hst3 => ?_⟩
    · obtain ⟨u, e, ht, hs, hlands⟩ := acceptedOffset_lands o h
      obtain ⟨hl, hm⟩ := accept_inLimit (i := i) (d := e) (um := u) (meas := min rx tx) (o := netOffset s.dev i port rx tx o) (by rw [hs]; exact hst)
        (by rw [jumpLimit, ht.effR]; exact hj)
      obtain ⟨-, hofs, -, -⟩ := acceptOffset_facts (i := i) (netOffset s.dev i port rx tx o) u (min rx tx) e
      refine runs_of_lands hlands ?_
      rw [str_landed, graded_gmUpdate]
      exact ⟨hl, hofs, hm⟩
    · obtain ⟨u, e, ht, hs, hlands⟩ := acceptedOffset_lands o h
      have href := accept_refused (i := i) (d := e) (um := u) (meas := min rx tx) (o := netOffset s.dev i port rx tx o) (by rw [hs]; exact hst)
        (by rw [jumpLimit, ht.effR]; exact hj)
      rw [hs] at href
      refine runs_of_lands hlands ?_
      rw [str_landed, graded_gmUpdate]
      exact href
    · obtain ⟨u, e, ht, hs, hlands⟩ := acceptedOffset_lands o h
      have hstep := accept_step (i := i) (d := e) (um := u) (meas := min rx tx) (o := netOffset s.dev i port rx tx o) (by rw [hs]; exact hst)
        (by rw [hs]; exact harm) (by rw [stepMin, ht.effR]; exact hmin) (by rw [hs]; exact hr)
      rw [hs, applyTick, ht.now] at hstep
      refine runs_of_lands hlands ?_
      rw [str_landed, graded_gmUpdate]
      exact hstep
    · obtain ⟨u, e, ht, hs, hlands⟩ := acceptedOffset_lands o h
      obtain ⟨-, hofs, -, htime⟩ := acceptOffset_facts (i := i) (netOffset s.dev i port rx tx o) u (min rx tx) e
      refine runs_of_lands hlands ?_
      rw [str_landed, graded_gmUpdate]
      exact ⟨accept_drone (by rw [hs]; exact hst), htime.trans (by rw [hs]), hofs⟩
    · have hfacts := loseSource_facts (i := i) (d := s.dev) hst
      refine runs_of_lands (lands_of_lift (exec_sourceLost i why s) (if_pos (by rw [hp, hl]; rfl))) ?_
      rw [str_landed, graded_gmUpdate]
      exact hfacts
    · refine runs_of_lift (exec_disputeTimerExpiry i s) ?_
      dsimp only
      rw [hf]
      dsimp only
      rw [if_pos ⟨hst, hla, hto, hdue⟩, str_landed, str_postDev, str_strU_self]
      exact ⟨rfl, hst⟩
    · exact trefLost_facts i s
    · exact tpllRelock_facts i s
    · exact eecStateChange_facts i hen hst3

end Sys2Proof.Machine

/-! SUPPORT. The journal's hashes, headers and records (R232–R242). -/

namespace Sys2Proof
open Sys2Proof

/-! ### A SHA3-256 value has 32 bytes -/

/-- A Keccak state is five planes of five lanes. -/
def Square (st : List (List Nat)) : Prop := st.length = 5 ∧ ∀ l ∈ st, l.length = 5

theorem square_stepRhoPi (turns : List Nat) (st : List (List Nat)) : Square (stepRhoPi turns st) := by
  refine ⟨by simp [stepRhoPi], fun l hl => ?_⟩
  obtain ⟨y, -, rfl⟩ := List.mem_map.mp hl
  simp

theorem length_planeShift (k : Nat) (l : List Nat) : (planeShift k l).length = l.length := by
  simp only [planeShift, List.length_append, List.length_drop, List.length_take]
  omega

theorem square_map {st : List (List Nat)} {u : List Nat → List Nat} (h : Square st) (hu : ∀ l, l.length = 5 → (u l).length = 5) : Square (st.map u) := by
  refine ⟨by rw [List.length_map, h.1], fun l hl => ?_⟩
  obtain ⟨l', hl', rfl⟩ := List.mem_map.mp hl
  exact hu l' (h.2 l' hl')

theorem square_stepChi {st : List (List Nat)} (h : Square st) : Square (stepChi st) :=
  square_map h fun l hl => by simp [planeXor, length_planeShift, hl]

theorem square_stepIota {st : List (List Nat)} (c : Nat) (h : Square st) : Square (stepIota c st) := by
  unfold stepIota
  split
  · next v l st =>
    obtain ⟨hlen, hl⟩ := h
    refine ⟨hlen, fun m hm => ?_⟩
    rcases List.mem_cons.mp hm with rfl | hm
    · exact hl (v :: l) List.mem_cons_self
    · exact hl m (List.mem_cons_of_mem _ hm)
  · exact h

theorem square_keccakF {st : List (List Nat)} (h : Square st) : Square (keccakF st) := by
  have hrounds (cs : List Nat) (turns : List Nat) (st : List (List Nat)) (h : Square st) :
      Square (cs.foldl (fun st c => stepIota c (stepChi (stepRhoPi turns (stepTheta st)))) st) := by
    induction cs generalizing st with
    | nil => exact h
    | cons c cs ih => exact ih _ (square_stepIota c (square_stepChi (square_stepRhoPi _ _)))
  exact hrounds _ _ st h

theorem square_spongeIn (n : Nat) {st : List (List Nat)} (bs : Bytes) (h : Square st) : Square (spongeIn n st bs) := by
  induction n generalizing st bs with
  | zero => exact h
  | succ n ih =>
    refine ih _ (square_keccakF ⟨by simp [h.1], fun l hl => ?_⟩)
    obtain ⟨p, hp, rfl⟩ := List.mem_map.mp hl
    have hmem : p.1 ∈ st := List.fst_mem_of_mem_zipIdx hp
    simp [h.2 _ hmem]

theorem length_flatMap_le8 (l : List Nat) : (l.flatMap (leBytes 8)).length = 8 * l.length := by
  induction l with
  | nil => rfl
  | cons v l ih =>
    rw [List.flatMap_cons, List.length_append, Machine.length_leBytes, ih, List.length_cons]
    omega

theorem length_flatten_square {st : List (List Nat)} (h : Square st) : st.flatten.length = 25 := by
  obtain ⟨hlen, hl⟩ := h
  match st, hlen with
  | [a, b, c, d, e], _ =>
    simp [hl a (by simp), hl b (by simp), hl c (by simp), hl d (by simp), hl e (by simp)]

@[simp] theorem length_sha3_256 (m : Bytes) : (sha3_256 m).length = 32 := by
  have hsq : Square (List.replicate 5 (List.replicate 5 0)) := ⟨rfl, fun l hl => by rw [List.eq_of_mem_replicate hl]; rfl⟩
  unfold sha3_256 sponge
  dsimp only
  rw [List.length_take, length_flatMap_le8, length_flatten_square (square_spongeIn _ _ hsq)]
  rfl

end Sys2Proof

namespace Sys2Proof.Machine
open Sys2Proof

variable {s : State} {d e : Dev} {i k : Nat} {a : Ashlar}

/-! ### Headers (R240–R242) -/

theorem length_of_mem_levelUp {l : List Bytes} (h : ∀ x ∈ l, x.length = 32) : ∀ x ∈ levelUp l, x.length = 32 := by
  induction l using levelUp.induct with
  | case1 a b t ih =>
    intro x hx
    rw [levelUp] at hx
    rcases List.mem_cons.mp hx with rfl | hx
    · exact length_sha3_256 _
    · exact ih (fun y hy => h y (List.mem_cons_of_mem _ (List.mem_cons_of_mem _ hy))) x hx
  | case2 l hl =>
    intro x hx
    rw [levelUp] at hx
    · exact h x hx
    · exact hl

theorem length_merkleRoot (k : Nat) {l : List Bytes} (h : ∀ x ∈ l, x.length = 32) : (merkleRoot k l).length = 32 := by
  induction k generalizing l with
  | zero =>
    match l with
    | [] => exact length_zeros 32
    | [x] => exact h x (by simp)
    | x :: y :: t => exact h x (by simp)
  | succ k ih =>
    match l with
    | [] => exact length_zeros 32
    | [x] => exact h x (by simp)
    | x :: y :: t => exact ih (length_of_mem_levelUp h)

theorem padTo_of_length {n : Nat} {b : Bytes} (h : b.length = n) : padTo n b = b := by
  unfold padTo
  rw [h, Nat.sub_self]
  exact List.append_nil b

/-- A header's first 56 bytes. -/
def headerHead (a : Ashlar) : Bytes :=
  leBytes 4 0x48534142 ++ leBytes 2 1 ++ leBytes 1 a.kind ++ leBytes 1 a.flags ++ leBytes 8 a.index ++ leBytes 8 a.prev ++
  leBytes 4 a.opening ++ leBytes 1 a.jstring ++ zeros 3 ++ leBytes 12 a.open_ ++ leBytes 12 a.close

theorem length_headerHead (a : Ashlar) : (headerHead a).length = 56 := by simp [headerHead]

theorem headerBytes_eq (a : Ashlar) : headerBytes a =
    headerHead a ++ (leBytes 4 a.recs.length ++ (leBytes 4 a.unwitnessed ++ (padTo 32 a.root ++ padTo 32 a.hPrev))) := by
  simp only [headerBytes, headerHead, List.append_assoc]

theorem length_headerBytes (hr : a.root.length = 32) (hp : a.hPrev.length = 32) : (headerBytes a).length = 128 := by
  rw [headerBytes_eq, padTo_of_length hr, padTo_of_length hp]
  simp [length_headerHead, hr, hp]

theorem slice_mid {x y z : Bytes} {m n : Nat} (hx : x.length = m) (hy : y.length = n) : slice (x ++ (y ++ z)) m n = y := by
  subst hx hy
  exact slice_append_mid x y z

theorem header_root (hr : a.root.length = 32) : slice (headerBytes a) 64 32 = a.root := by
  have heq : headerBytes a = (headerHead a ++ (leBytes 4 a.recs.length ++ leBytes 4 a.unwitnessed)) ++ (a.root ++ padTo 32 a.hPrev) := by
    rw [headerBytes_eq, padTo_of_length hr]
    simp only [List.append_assoc]
  rw [heq]
  exact slice_mid (by simp [length_headerHead]) hr

theorem header_prev (hr : a.root.length = 32) (hp : a.hPrev.length = 32) : slice (headerBytes a) 96 32 = a.hPrev := by
  have heq : headerBytes a = (headerHead a ++ (leBytes 4 a.recs.length ++ (leBytes 4 a.unwitnessed ++ a.root))) ++ (a.hPrev ++ []) := by
    rw [headerBytes_eq, padTo_of_length hr, padTo_of_length hp]
    simp only [List.append_assoc, List.append_nil]
  rw [heq]
  exact slice_mid (by simp [length_headerHead, hr]) hp

theorem header_magic (a : Ashlar) : slice (headerBytes a) 0 4 = [0x42, 0x41, 0x53, 0x48] := by
  have heq : ∃ z, headerBytes a = [] ++ (leBytes 4 0x48534142 ++ z) := by
    simp only [headerBytes, List.append_assoc, List.nil_append]
    exact ⟨_, rfl⟩
  obtain ⟨z, hz⟩ := heq
  rw [hz, slice_mid (x := []) (m := 0) rfl (length_leBytes 4 _)]
  decide

theorem le_at {x z : Bytes} {m n v : Nat} (hx : x.length = m) : le (x ++ (leBytes n v ++ z)) m n = v % 256 ^ n := by
  subst hx
  exact le_mid x z n v

theorem header_records (a : Ashlar) : le (headerBytes a) 56 4 = a.recs.length % 2 ^ 32 := by
  rw [headerBytes_eq]
  exact le_at (length_headerHead a)

theorem header_index (a : Ashlar) : le (headerBytes a) 8 8 = a.index % 2 ^ 64 := by
  have heq : ∃ z, headerBytes a = (leBytes 4 0x48534142 ++ (leBytes 2 1 ++ (leBytes 1 a.kind ++ leBytes 1 a.flags))) ++ (leBytes 8 a.index ++ z) := by
    simp only [headerBytes, List.append_assoc]
    exact ⟨_, rfl⟩
  obtain ⟨z, hz⟩ := heq
  rw [hz]
  exact le_at (by simp)

theorem sealOn_facts (hp : Bytes) (a : Ashlar) (h : hp.length = 32) : (sealOn hp a).root.length = 32 ∧ (sealOn hp a).hPrev = hp ∧
    (sealOn hp a).recs = a.recs ∧ (sealOn hp a).index = a.index ∧ (sealOn hp a).h = sha3_256 (hp ++ headerBytes (sealOn hp a)) := by
  refine ⟨length_merkleRoot 32 fun x hx => ?_, rfl, rfl, rfl, ?_⟩
  · obtain ⟨r, -, rfl⟩ := List.mem_map.mp hx
    exact length_sha3_256 _
  · have hh : (sealOn hp a).h = sha3_256 (padTo 32 hp ++ headerBytes (sealOn hp a)) := rfl
    rw [hh, padTo_of_length h]

/-! ### Records (R232) -/

theorem u8_at {x z : Bytes} {m v : Nat} (hx : x.length = m) : u8 (x ++ (leBytes 1 v ++ z)) m = v % 256 := by
  subst hx
  rw [u8, List.getD_append_right _ _ _ _ le_rfl, Nat.sub_self]
  exact BitVec.toNat_ofNat _ _

theorem length_recBytes (st u str kind port clsWord seq len flags : Nat) (sv bd : Bool) (dig : Bytes) :
    (recBytes st u str kind port sv bd clsWord seq len flags dig).length = 48 := by
  simp only [recBytes, List.length_append, length_leBytes, length_padTo, List.length_take]
  omega

theorem u8_recBytes (st u str kind port clsWord seq len flags : Nat) (sv bd : Bool) (dig : Bytes) :
    u8 (recBytes st u str kind port sv bd clsWord seq len flags dig) 14 = (kind + str * 32) % 256 := by
  have heq : ∃ z, recBytes st u str kind port sv bd clsWord seq len flags dig = (leBytes 12 st ++ leBytes 2 u) ++ (leBytes 1 (kind + str * 32) ++ z) := by
    simp only [recBytes, List.append_assoc]
    exact ⟨_, rfl⟩
  obtain ⟨z, hz⟩ := heq
  rw [hz]
  exact u8_at (by simp)

end Sys2Proof.Machine

/-! SUPPORT. Ashlars close at their boundaries; marks and re-anchors are recorded (R66, R232, R236, R238, R239, R274). -/

namespace Sys2Proof.Machine
open Sys2Proof

variable {s : State} {d e : Dev} {i k : Nat} {a : Ashlar} {b : Bytes}

/-- The open ashlar that has taken one more record. -/
def withRec (a : Ashlar) (r : ARec) : Ashlar := { a with recs := a.recs ++ [r] }

theorem cutFull_idle (hcur : d.wit.cur = some a) (hlen : a.recs.length < 2 ^ 28 - 1) : cutFull d = d := by
  unfold cutFull
  rw [hcur]
  exact if_neg (Nat.not_le.mpr hlen)

/-- A record joins an open ashlar that has room (R232). -/
theorem addRec_fits {h : Nat} (hcur : d.wit.cur = some a) (hlen : a.recs.length + 1 < 2 ^ 28 - 1) : addRec b none h d =
    ctrInc (wKey 0x100) (witU (fun w => { w with
      cur := some (withRec a ⟨b, jQ d, 4 + h, d.wit.order⟩), order := w.order + 1 }) d) := by
  unfold addRec
  rw [hcur]
  refine cutFull_idle (a := withRec a ⟨b, jQ d, 4 + h, d.wit.order⟩) rfl ?_
  rw [withRec, List.length_append]
  exact hlen

theorem loopN_fits {n : Nat} {f : Nat → Dev → Dev} (hf : ∀ k, f k d = d) : loopN n f d = d := List.foldl_fixed' hf _

theorem reclaim_fits (h : stagedAll d < stagingCap d) : reclaim d = d := by
  unfold reclaim reclaimUntil
  exact loopN_fits fun _ => if_pos (decide_eq_true h)

/-- A record that was begun completes in an open ashlar that has room. -/
theorem completeRec_found {id : Nat} {f : Bytes → Bytes} {r : WRec} {rest : List WRec}
    (ht : takeFirst (fun r : WRec => decide (r.id = id)) d.wit.recs = some (r, rest)) (hcur : d.wit.cur = some a)
    (hlen : a.recs.length + 1 < 2 ^ 28 - 1) : completeRec id f none d = ctrInc (wKey 0x100) (witU (fun w => { w with
      recs := rest, cur := some (withRec a ⟨f r.bytes, jQ d, 4 + r.half, w.order⟩), order := w.order + 1 }) d) := by
  unfold completeRec
  rw [ht]
  exact addRec_fits (d := witU (fun w => { w with recs := rest }) d) hcur hlen

/-- A record that was just begun. -/
def recBegun (b : Bytes) (src : Nat) (d : Dev) : Dev :=
  witU (fun w => { w with recSeq := d.wit.recSeq + 1, recs := w.recs ++ [⟨d.wit.recSeq, b, halfOf d src, now d⟩] }) d

theorem beginRec_fits {src : Nat} (hp : witPresent d = true) (ho : witOpen d = true) (hf : d.wit.failed = []) (hg : d.wit.gap = none)
    (hs : stagedAll d < stagingCap d) : beginRec b src false d = (.made d.wit.recSeq, recBegun b src d) := by
  unfold beginRec
  rw [hp, ho, hf, if_neg (by simp), if_neg (by simp), if_neg (by simp), reclaim_fits hs]
  dsimp only
  rw [hg, if_pos (by simp [hs])]
  rfl

/-- A record that begins with staging free and every half at work completes in the open ashlar (R232, R245). -/
theorem writeRec_fits {src : Nat} (hp : witPresent d = true) (ho : witOpen d = true) (hf : d.wit.failed = []) (hg : d.wit.gap = none)
    (hs : stagedAll d < stagingCap d) (hr : d.wit.recs = []) (hcur : d.wit.cur = some a) (hlen : a.recs.length + 1 < 2 ^ 28 - 1) :
    writeRec b src d = (true, ctrInc (wKey 0x100) (witU (fun w => { w with
      recs := [], cur := some (withRec a ⟨b, jQ d, 4 + halfOf d src, w.order⟩), order := w.order + 1 }) (recBegun b src d))) := by
  have htake : takeFirst (fun r : WRec => decide (r.id = d.wit.recSeq)) (recBegun b src d).wit.recs = some (⟨d.wit.recSeq, b, halfOf d src, now d⟩, []) := by
    have hrecs : (recBegun b src d).wit.recs = [⟨d.wit.recSeq, b, halfOf d src, now d⟩] := by
      rw [recBegun]
      exact congrArg (· ++ _) hr
    rw [hrecs]
    simp [takeFirst]
  unfold writeRec
  rw [beginRec_fits hp ho hf hg hs]
  dsimp only
  rw [completeRec_found (f := writeRec.id') (a := a) htake hcur hlen]
  rfl

/-! ### Boundaries (R238, R239) -/

theorem curB_witU (u : Wit → Wit) (d : Dev) : curB (witU u d) = curB d := rfl

theorem closeAshlar_some {fl c o : Nat} {r : Bool} (hcur : d.wit.cur = some a) : closeAshlar fl c o r d =
    witU (fun w => { w with
      closed := w.closed ++ [{ a with flags := a.flags ||| fl ||| ashlarNow d a, close := c, recs := sortRecs a.recs }]
      cur := if r then some { index := a.index + 1, prev := a.index, opening := a.opening, jstring := jString d, open_ := o, tick := now d } else none }) d := by
  unfold closeAshlar
  rw [hcur]

theorem boundary_plain (hcur : d.wit.cur = some a) (hh : halvesDue d = false) (hg : d.wit.gap = none) (hhg : d.wit.halfGap = none) :
    boundary false d = noteB (closeAshlar 0 (toR17 (curB d * epochUnit d)) (jTime d) true d) := by
  have hgap : (noteB (closeAshlar 0 (toR17 (curB d * epochUnit d)) (jTime d) true d)).wit.gap = none := by
    rw [closeAshlar_some hcur]
    exact hg
  have hhalf : (noteB (closeAshlar 0 (toR17 (curB d * epochUnit d)) (jTime d) true d)).wit.halfGap = none := by
    rw [closeAshlar_some hcur]
    exact hhg
  unfold boundary
  rw [hcur]
  dsimp only
  rw [hh, hg, if_neg (by simp), Bool.or_false, if_neg Bool.false_ne_true, if_neg Bool.false_ne_true, if_neg Bool.false_ne_true, hgap]
  dsimp only
  rw [hhalf]

theorem takeFirst_head {α : Type} {p : α → Bool} {x : α} {l : List α} (h : p x = true) : takeFirst p (x :: l) = some (x, l) := if_pos h

/-! ### Marks and re-anchors (R66, R274) -/

/-- What a command whose check passed tells of its parameters. -/
theorem witMark_checked {c : Cmd} {p : Bool} {x : List (Nat × Nat)} {n : Nat}
    (h : witStatus d c true x (decide (7 < n) || p) [(!(strPresent d n), stAbsent), (!(witOpen d), stBadState)] = 0) :
    n ≤ 7 ∧ witPresent d = true ∧ witOpen d = true := by
  unfold witStatus at h
  rw [firstStatus_eq_zero_iff (by simp [stNotPermitted, stBadParam, stAbsent, stBadState, stUnitOff])] at h
  have hbad := h (!(reservedOk c x) || (decide (7 < n) || p), stBadParam) (by simp)
  have hpres := h (!(witPresent d), stAbsent) (by simp)
  have hopen := h (!(witOpen d), stBadState) (by simp [stAbsent, stBadState])
  simp only [Bool.or_eq_false_iff, decide_eq_false_iff_not, Bool.not_eq_false'] at hbad hpres hopen
  exact ⟨Nat.not_lt.mp hbad.2.1, hpres, hopen⟩

theorem cmdStr_of_timeStatus {c : Cmd} {x : List (Nat × Nat)} {o b : Bool} (h : timeStatus d c x false o b = 0) : cmdStr c < 8 := by
  unfold timeStatus at h
  rw [firstStatus_eq_zero_iff (by simp [stNotPermitted, stBadParam, stAbsent, stBadState, stNotOwner])] at h
  have hbad := h (!(reservedOk c ((16, 1) :: x)) || decide (8 ≤ cmdStr c) || false, stBadParam) (by simp)
  simp only [Bool.or_false, Bool.or_eq_false_iff, decide_eq_false_iff_not] at hbad
  exact Nat.not_le.mp hbad.2

/-- A mark whose record `b` is written, or not. -/
def markWritten (c : Cmd) (b : Bytes) (d : Dev) : Dev :=
  match (writeRec b (sealer d) d).1, d.wit.cur with
  | true, some a => noteHeld c (witU (fun w => { w with
      marks := w.marks ++ [⟨hold d c, c.f 24 8, a.index, jQ d, 4 + halfOf d (sealer d), d.wit.order, b⟩] }) (writeRec b (sealer d) d).2)
  | _, _ => completeSt c stBadState (writeRec b (sealer d) d).2

theorem witMark_lands {c : Cmd}
    (h : witStatus s.dev c true [(16, 1), (24, 8), (32, 8), (40, 16)] (decide (7 < c.f 16 1) || decide (c.f 24 8 % 64 ≠ 0))
        [(!(strPresent s.dev (c.f 16 1)), stAbsent), (!(witOpen s.dev), stBadState)] = 0) :
    ∃ b, b.length = 48 ∧ u8 b 14 = (5 + c.f 16 1 * 32) % 256 ∧ Lands (.witMark c) s (markWritten c b s.dev) :=
  ⟨_, length_recBytes _ _ _ _ _ _ _ _ _ _ _ _, u8_recBytes _ _ _ _ _ _ _ _ _ _ _ _, lands_of_lift (exec_witMark c s) ((checked_ok _ h).trans rfl)⟩

theorem aqOut_marked (c : Cmd) (m : MarkWait) (u : Wit → Wit) (k : Nat) (b : Bytes) (src : Nat) (d : Dev) :
    (fn (noteHeld c (witU (fun w => { w with marks := w.marks ++ [m] }) (ctrInc k (witU u (recBegun b src d))))) c.fn).aqOut = (fn d c.fn).aqOut + 1 := by
  rw [noteHeld, fn_fnU_self]
  rfl

theorem noteHeld_wit (c : Cmd) (d : Dev) : (noteHeld c d).wit = d.wit := rfl
theorem ctrR_noteHeld (c : Cmd) (d : Dev) (k : Nat) : ctrR (noteHeld c d) k = ctrR d k := rfl

/-- Settles O15: a header's fields stand at fixed places, and a record that begins with room completes in the open ashlar. -/
theorem ashlarsCloseAtTheirBoundariesAndChain : Obligations.AshlarsCloseAtTheirBoundariesAndChain := by
  unfold Obligations.AshlarsCloseAtTheirBoundariesAndChain
  refine ⟨fun hp a hlen => ?_, fun s a c id => ?_⟩
  · intro x
    subst x
    obtain ⟨hr, hprev, hrecs, hidx, hh⟩ := sealOn_facts hp a hlen
    have hplen : (sealOn hp a).hPrev.length = 32 := by rw [hprev, hlen]
    refine ⟨length_headerBytes hr hplen, hh, header_root hr, ?_, header_magic _, ?_, ?_⟩
    · rw [header_prev hr hplen, hprev]
    · rw [header_records, hrecs]
    · rw [header_index, hidx]
  · intro d w tb i
    subst i tb w d
    refine ⟨fun hcur hb hh hg hhg => ?_, fun hcur hb hdue => ?_, fun r rest hr hid h1 hdue hcur hlen => ?_,
      fun hst hf hg hs hr hcur hlen => ?_, fun hst => ?_, fun hst => ?_⟩
    · refine lands_of_lift (exec_epochBoundary s) ((if_pos (by simp [hcur, hb])).trans ?_)
      rw [boundary_plain hcur hh hg hhg, closeAshlar_some hcur, Nat.or_zero]
      rfl
    · have hsame : curB s.dev = s.dev.wit.lastB := hb
      refine lands_of_lift (exec_longClose s) ((if_pos (by simp [hcur, hb, hdue])).trans ?_)
      rw [closeAshlar_some hcur, noteB, curB_witU, hb]
      rfl
    · refine lands_of_lift (exec_orphanTimeout id s) ?_
      have hfind : (s.dev.wit.recs.find? fun r => decide (r.id = id)) = some r := by simp [hr, hid]
      have htake : takeFirst (fun r : WRec => decide (r.id = id)) s.dev.wit.recs = some (r, rest) := by
        rw [hr]
        exact takeFirst_head (decide_eq_true hid)
      rw [hfind]
      dsimp only
      rw [if_pos ⟨h1, hdue⟩, completeRec_found htake hcur hlen]
      rfl
    · obtain ⟨h7, hp, ho⟩ := witMark_checked hst
      obtain ⟨b, hlen48, h14, hlands⟩ := witMark_lands hst
      rw [markWritten, writeRec_fits hp ho hf hg hs hr hcur (by omega), hcur] at hlands
      dsimp only at hlands
      refine runs_of_lands hlands ?_
      rw [landed_wit, fn_landed, ctrR_landed, aqOut_marked, noteHeld_wit, ctrR_noteHeld, ctrR_witU, ctrInc, ctrR_ctrAdd_self]
      refine ⟨⟨b, _, rfl, rfl, rfl, rfl, hlen48, by omega, rfl⟩, rfl, rfl⟩
    · have h8 := cmdStr_of_timeStatus hst
      refine ⟨_, length_recBytes _ _ _ _ _ _ _ _ _ _ _ _, (u8_recBytes _ _ _ _ _ _ _ _ _ _ _ _).trans ?_,
        lands_of_lift (exec_timeReanchor c s) ((checked_ok _ hst).trans rfl)⟩
      omega
    · exact lands_of_lift (exec_timeReanchor c s) (checked_fails _ hst)

end Sys2Proof.Machine

/-! SUPPORT. Evidence is sealed, signed, stored, released and served (R243, R244, R251, R258, R262–R274). -/

namespace Sys2Proof.Machine
open Sys2Proof

variable {s : State} {d e : Dev} {i k n : Nat} {a : Ashlar} {b : Bytes} {c : Cmd}

/-! ### Sealing and signing (R244, R251, R258) -/

/-- No record is left out where no staging line was lost. -/
theorem kept_of_none_lost (l : List ARec) : ((l.zipIdx.filter fun (r : ARec × Nat) => !(([] : List Nat).contains r.2)).map fun r => r.1) = l := by
  simp

theorem reclaimReserve_fits (h : reserveUsed d + n ≤ 2 ^ 24) : reclaimReserve n d = d := by
  unfold reclaimReserve reclaimUntil
  exact loopN_fits fun _ => if_pos (decide_eq_true h)

theorem Posts.wit (h : Posts d e) : e.wit = d.wit := (congrArg Dev.wit h :)

theorem reserveUsed_congr (h : e.wit = d.wit) : reserveUsed e = reserveUsed d := by
  unfold reserveUsed
  rw [h]

/-- The witness once a capstone `b` has been signed for the request at the front. -/
def capSigned (r : CapReq) (rest : List CapReq) (body b : Bytes) (last : Option Nat) (w : Wit) : Wit := { w with
  caps := rest, capIndex := w.capIndex + 1, capCount := w.capCount + 1, prevCap := sha3_256 b, prevHLast := slice body 40 32, capLast := last
  sums := w.sums.filter fun x => decide (r.last < x.1) }

theorem wit_witU (u : Wit → Wit) (d : Dev) : (witU u d).wit = u d.wit := rfl

/-- A signed capstone is posted, and room is made for it. -/
def postCapstone (idx slot n : Nat) (d : Dev) : Dev :=
  reclaimReserve n (postDev 0x60 (leBytes 4 idx ++ leBytes 2 slot ++ leBytes 4 n) (ctrInc (wKey 0x138) d))

/-- A signed capstone goes to the journal if the reserve has room for it (R258). -/
def storeCapstone (idx slot last : Nat) (b : Bytes) (d : Dev) : Dev :=
  if reserveUsed (postCapstone idx slot b.length d) + b.length ≤ 2 ^ 24 then
    queueExtent 2 idx b.length last (witU (fun w => { w with capDone := w.capDone ++ [⟨idx, last, b⟩] }) (postCapstone idx slot b.length d))
  else ctrInc (wKey 0x140) (witU (fun w => { w with unstored := w.unstored ++ [idx] }) (postCapstone idx slot b.length d))

theorem postCapstone_wit {idx slot : Nat} (h : reserveUsed d + n ≤ 2 ^ 24) : (postCapstone idx slot n d).wit = d.wit := by
  have hposts := ((posts_ctrInc (wKey 0x138) d).trans (posts_postDev 0x60 (leBytes 4 idx ++ leBytes 2 slot ++ leBytes 4 n) _)).wit
  rw [postCapstone, reclaimReserve_fits ((reserveUsed_congr hposts).symm ▸ h), hposts]

theorem storeCapstone_fits {idx slot last : Nat} (h : reserveUsed d + b.length ≤ 2 ^ 24) : (storeCapstone idx slot last b d).wit =
    { d.wit with
      capDone := d.wit.capDone ++ [⟨idx, last, b⟩]
      extents := d.wit.extents ++ [⟨2, idx, 0, 1 + ceilDiv b.length 4096, last, false⟩] } := by
  have hwit := postCapstone_wit (idx := idx) (slot := slot) h
  rw [storeCapstone, if_pos ((reserveUsed_congr hwit).symm ▸ h), queueExtent, wit_witU, wit_witU, hwit]

theorem capstoneSigned_stores {r : CapReq} {rs : List CapReq} (hcaps : s.dev.wit.caps = r :: rs) (hclosed : s.dev.wit.closed = [])
    (hring : s.dev.wit.ringSlots = 0) : ∃ last, Lands .capstoneSigned s
      (storeCapstone (s.dev.wit.capIndex + 1) s.dev.wit.ringNext r.last
        (capBody s.dev r ++ signBoth (keyOf 0 r.aliasKey) (keyOf 1 r.aliasKey) (capBody s.dev r))
        (witU (capSigned r rs (capBody s.dev r) (capBody s.dev r ++ signBoth (keyOf 0 r.aliasKey) (keyOf 1 r.aliasKey) (capBody s.dev r)) last) s.dev)) := by
  refine ⟨if r.last + 1 = capFirst s.dev then s.dev.wit.capLast else some r.last, lands_of_lift (exec_capstoneSigned s) ?_⟩
  dsimp only
  rw [hcaps, hclosed]
  refine (if_neg Bool.false_ne_true).trans ?_
  generalize capBody s.dev r ++ signBoth _ _ _ = b
  rw [wit_witU]
  dsimp only
  rw [if_pos hring]
  rfl

/-! ### Opening (R243, R267) -/

theorem jWrite_wit (l : Nat) (bs : Bytes) (d : Dev) : (jWrite l bs d).wit = d.wit := by
  unfold jWrite pairWrite
  split
  · rfl
  · next m _ =>
    exact foldl_keeps (R := fun d e => e.wit = d.wit) (g := fun d n => ctrInc (drvCtr n 0) (drvWrite n m bs d)) (fun _ => rfl) (fun h h' => h'.trans h)
      (fun _ _ => rfl) _ d

theorem jWrites_wit (l : Nat) (bs : Bytes) (d : Dev) : (jWrites l bs d).wit = d.wit :=
  loopN_keeps (R := fun d e => e.wit = d.wit) (fun _ => rfl) (fun h h' => h'.trans h) (fun _ _ => jWrite_wit _ _ _) _ d

/-- The witness with other extents: writing one leaves the rest alone. -/
def SameStaged (w w' : Wit) : Prop := w' = { w with nextLba := w'.nextLba, sbDirty := w'.sbDirty, extents := w'.extents }

theorem SameStaged.trans {w w' w'' : Wit} (h : SameStaged w w') (h' : SameStaged w' w'') : SameStaged w w'' := by
  unfold SameStaged at *
  rw [h', h]

theorem sameStaged_writeExtent (type index covers : Nat) (hd content : Bytes) (d : Dev) : SameStaged d.wit (writeExtent type index covers hd content d).wit := by
  have hlast (l n : Nat) (bs : Bytes) (x : Extent) (p : Extent → Bool) (e : Dev) : SameStaged e.wit
      (witU (fun w => { w with nextLba := n, sbDirty := true, extents := w.extents.filter p ++ [x] }) (jWrites l bs e)).wit := by
    rw [wit_witU, jWrites_wit]
    rfl
  have hpad (l : Nat) (bs : Bytes) (x : Extent) (p : Extent → Bool) :
      SameStaged d.wit (witU (fun w => { w with extents := w.extents.filter p ++ [x] }) (jWrite l bs d)).wit := by
    rw [wit_witU, jWrite_wit]
    rfl
  unfold writeExtent
  dsimp only
  cases (placeExtent d (1 + ceilDiv content.length 4096)).2 with
  | none => exact hlast _ _ _ _ _ d
  | some q => exact (hpad _ _ _ _).trans (hlast _ _ _ _ _ _)

/-- What an engine that finds no superblock starts from. -/
def freshWit (w : Wit) : Wit := { w with
  nextLba := 16, durable := none, durableCap := none, durableH := zeros 32, hLast := zeros 32
  capIndex := 0, capLast := none, prevCap := zeros 32, prevHLast := zeros 32, extents := []
  sbGen := 0, released := none, unstored := [], sums := [], sealed_ := [], capDone := [], adopted := true }

theorem readJournal_fresh (hb : bestSuper d = none) (ha : d.wit.adopted = false) : readJournal d = witU freshWit d := by
  unfold readJournal adoptJournal
  rw [ha, if_neg Bool.false_ne_true, hb]
  rfl

theorem extentFits_fresh (h : 16 + 1 ≤ ringEnd d) : extentFits (witU freshWit d) 1 = true := by
  unfold extentFits
  rw [Bool.and_eq_true]
  exact ⟨decide_eq_true h, rfl⟩

theorem newPeriods_wit (l : List Nat) (d : Dev) : (l.foldl (fun d s => newPeriod s d) d).wit = d.wit :=
  foldl_keeps (R := fun d e => e.wit = d.wit) (g := fun d s => newPeriod s d) (fun _ => rfl) (fun h h' => h'.trans h) (fun _ _ => rfl) l d

/-- The genesis ashlar (R243, R267). -/
def genesis (d : Dev) : Ashlar := sealOn d.wit.hLast {
  kind := 2, flags := ashlarNow d { tick := now d } &&& 0x70, index := 0, prev := 0
  opening := 1, jstring := jString d, open_ := jTime d, close := jTime d }

/-- The opening's ashlar is on the drives. -/
def ashlarWritten (a : Ashlar) (d : Dev) : Dev :=
  witU (fun w => { w with durable := some 0, durableH := a.h, hLast := a.h, sealed_ := w.sealed_ ++ [a], sums := w.sums ++ [(0, 0, 0, a.h)] })
    (ctrInc (wKey 0x130) (writeExtent 1 0 0 (headerBytes a) [] (bitW (wKey 0x40) 29 false d)))

/-- The opening is posted. -/
def openingPosted (d : Dev) : Dev := postDev 0x63 (leBytes 4 d.wit.opening ++ leBytes 4 0 ++ leBytes 4 0xFFFFFFFF) d

/-- Admission starts: the first ashlar after the opening's is open. -/
def nextOpen (idx : Nat) (d : Dev) : Dev :=
  let first : Ashlar := { index := idx + 1, prev := idx, opening := d.wit.opening, jstring := jString d, open_ := jTime d, tick := now d }
  let d := (List.range (numStrings d.variant)).foldl (fun d s => newPeriod s d) d
  let d := witU (fun w => { w with
    cur := some first, restart := true, certDue := true, capStart := jTime d, gapInPeriod := false, halfInPeriod := oneHalf d
    capsBase := [ctrR d (wKey 0x108), ctrR d (wKey 0x110), ctrR d (wKey 0x118), w.deliveryDrops]
    calAtStart := match d.cal with
      | some c => c.version
      | none => 0 }) d
  startB (bitW (wKey 0x40) 20 false d)

/-- A closing asked for meanwhile, and what was not admitted while the journal was off. -/
def openingEnd (d : Dev) : Dev :=
  if d.wit.enPend then witU (fun w => { w with enPend := false }) (closeJournal d)
  else
    let n := d.wit.offCount
    let d := witU (fun w => { w with offCount := 0 }) d
    if n = 0 then d else gapRec d.wit.offFrom 3 n (jTime d) false d

theorem journalOpening_lands (h20 : bitR s.dev (wKey 0x40) 20 = true) (hdrv : journalDrives s.dev = true) (hb : bestSuper s.dev = none)
    (ha : s.dev.wit.adopted = false) (hend : 16 + 1 ≤ ringEnd s.dev) :
    Lands .journalOpeningDone s
      (openingEnd (nextOpen 0 (openingPosted (ashlarWritten (genesis (witU freshWit s.dev)) (witU freshWit s.dev))))) := by
  refine lands_of_lift (exec_journalOpeningDone s) ?_
  rw [h20, hdrv]
  refine (if_neg Bool.false_ne_true).trans ?_
  rw [readJournal_fresh hb ha, hb]
  generalize hg : witU freshWit s.dev = e
  have hfit : extentFits e 1 = true := hg ▸ extentFits_fresh hend
  have hbefore : e.wit.durable = none := hg ▸ rfl
  extract_lets fresh d before idx a d1 d2 lastB d3 first d4 d5 d6 n d7
  have hidx : idx = 0 := by
    unfold idx before d
    rw [hbefore]
  have hgen : a = genesis e := by
    unfold a
    rw [hidx]
    rfl
  clear_value idx a
  subst hidx hgen
  have hfits : ¬(!extentFits d 1) = true := by simp [d, hfit]
  rw [if_neg hfits]
  have hlast : lastB = 0xFFFFFFFF := by
    unfold lastB before d
    rw [hbefore]
  clear_value lastB
  subst hlast
  have h2 : d2 = ashlarWritten (genesis e) e := rfl
  rw [← h2]
  clear_value d2
  have h3 : d3 = openingPosted d2 := rfl
  rw [← h3]
  clear_value d3
  have h6 : d6 = nextOpen 0 d3 := rfl
  rw [← h6]
  clear_value d6
  rfl

theorem ashlarWritten_facts (a : Ashlar) (d : Dev) : (ashlarWritten a d).wit.durable = some 0 ∧ (ashlarWritten a d).wit.hLast = a.h ∧
    (ashlarWritten a d).wit.sealed_ = d.wit.sealed_ ++ [a] ∧ (ashlarWritten a d).wit.enPend = d.wit.enPend ∧
    (ashlarWritten a d).wit.offCount = d.wit.offCount := by
  have hwrite := sameStaged_writeExtent 1 0 0 (headerBytes a) [] (bitW (wKey 0x40) 29 false d)
  rw [(posts_bitW _ _ _ _).wit] at hwrite
  unfold SameStaged at hwrite
  rw [ashlarWritten, wit_witU, (posts_ctrInc _ _).wit, hwrite]
  exact ⟨rfl, rfl, rfl, rfl, rfl⟩

/-- The first ashlar is open. -/
def firstOpen (first : Ashlar) (d : Dev) : Dev := witU (fun w => { w with
    cur := some first, restart := true, certDue := true, capStart := jTime d, gapInPeriod := false, halfInPeriod := oneHalf d
    capsBase := [ctrR d (wKey 0x108), ctrR d (wKey 0x110), ctrR d (wKey 0x118), w.deliveryDrops]
    calAtStart := match d.cal with
      | some c => c.version
      | none => 0 }) d

theorem nextOpen_eq (idx : Nat) (d : Dev) : nextOpen idx d = startB (bitW (wKey 0x40) 20 false
    (firstOpen { index := idx + 1, prev := idx, opening := d.wit.opening, jstring := jString d, open_ := jTime d, tick := now d }
      ((List.range (numStrings d.variant)).foldl (fun d s => newPeriod s d) d))) := rfl

theorem bitR_startB (k i : Nat) (d : Dev) : bitR (startB d) k i = bitR d k i := by
  rw [startB, noteB, bitR_witU, bitR_witU]

theorem startB_wit (d : Dev) : ∃ m n, (startB d).wit = { d.wit with lastB := m, lastBTick := n, capB := some m } := by
  rw [startB, noteB, wit_witU, wit_witU]
  generalize curB d = m
  exact ⟨m, now d, rfl⟩

theorem firstOpen_wit (y : Ashlar) (d : Dev) : ∃ a b c e, (firstOpen y d).wit = { d.wit with
    cur := some y, restart := true, certDue := true, capStart := a, gapInPeriod := false, halfInPeriod := b, capsBase := c, calAtStart := e } :=
  ⟨_, _, _, _, rfl⟩

theorem nextOpen_facts (idx : Nat) (d : Dev) : bitR (nextOpen idx d) (wKey 0x40) 20 = false ∧ (nextOpen idx d).wit.restart = true ∧
    (nextOpen idx d).wit.durable = d.wit.durable ∧ (nextOpen idx d).wit.sealed_ = d.wit.sealed_ ∧ (nextOpen idx d).wit.hLast = d.wit.hLast ∧
    (nextOpen idx d).wit.enPend = d.wit.enPend ∧ (nextOpen idx d).wit.offCount = d.wit.offCount ∧
    ∃ y, (nextOpen idx d).wit.cur = some y ∧ y.index = idx + 1 ∧ y.prev = idx ∧ y.recs = [] := by
  have hperiods := newPeriods_wit (List.range (numStrings d.variant)) d
  rw [nextOpen_eq, bitR_startB, bitR_bitW_self _ _ _ _ (by decide : 20 < 32)]
  generalize (List.range (numStrings d.variant)).foldl (fun d s => newPeriod s d) d = e at hperiods ⊢
  generalize hy : Ashlar.mk _ _ _ _ _ _ _ _ _ _ _ _ _ _ _ = y
  obtain ⟨_, _, _, _, hfirst⟩ := firstOpen_wit y e
  obtain ⟨_, _, hstart⟩ := startB_wit (bitW (wKey 0x40) 20 false (firstOpen y e))
  rw [hstart, (posts_bitW _ _ _ _).wit, hfirst, hperiods]
  refine ⟨rfl, rfl, rfl, rfl, rfl, rfl, rfl, y, rfl, ?_⟩
  subst hy
  exact ⟨rfl, rfl, rfl⟩

theorem openingEnd_idle (hen : d.wit.enPend = false) (hoff : d.wit.offCount = 0) : openingEnd d = witU (fun w => { w with offCount := 0 }) d := by
  rw [openingEnd, hen, if_neg Bool.false_ne_true, if_pos hoff]

theorem openingPosted_wit (d : Dev) : (openingPosted d).wit = d.wit := by
  rw [openingPosted]
  exact (posts_postDev _ _ _).wit

/-- What an opening leaves (R243, R267): its ashlar `a` sealed and durable, and the next one open. -/
def Opened (sealed_ : List Ashlar) (a : Ashlar) (e : Dev) : Prop :=
  bitR e (wKey 0x40) 20 = false ∧ e.wit.durable = some 0 ∧ e.wit.restart = true ∧ e.wit.sealed_ = sealed_ ++ [a] ∧ e.wit.hLast = a.h ∧
  ∃ y, e.wit.cur = some y ∧ y.index = 1 ∧ y.prev = 0 ∧ y.recs = []

theorem Opened.offCleared {l : List Ashlar} (h : Opened l a d) : Opened l a (witU (fun w => { w with offCount := 0 }) d) := h

theorem opened_facts (a : Ashlar) (hen : d.wit.enPend = false) (hoff : d.wit.offCount = 0) :
    Opened d.wit.sealed_ a (openingEnd (nextOpen 0 (openingPosted (ashlarWritten a d)))) := by
  have hwritten := ashlarWritten_facts a d
  generalize ashlarWritten a d = q at hwritten ⊢
  obtain ⟨hdur', hlast', hseal', hpend', hcount'⟩ := hwritten
  have hpost := openingPosted_wit q
  generalize openingPosted q = p at hpost ⊢
  obtain ⟨h20, hre, hdur, hseal, hlast, hpend, hcount, hcur⟩ := nextOpen_facts 0 p
  generalize nextOpen 0 p = x at h20 hre hdur hseal hlast hpend hcount hcur ⊢
  rw [hpost] at hdur hseal hlast hpend hcount
  rw [openingEnd_idle ((hpend.trans hpend').trans hen) ((hcount.trans hcount').trans hoff)]
  exact Opened.offCleared ⟨h20, hdur.trans hdur', hre, hseal.trans hseal', hlast.trans hlast', hcur⟩

end Sys2Proof.Machine

/-! SUPPORT. The witness commands (R256, R258, R265, R268, R269, R273, R274). -/

namespace Sys2Proof.Machine
open Sys2Proof

variable {s : State} {d e : Dev} {i k n : Nat} {a : Ashlar} {b : Bytes} {c : Cmd}

theorem giveBytes_fits (h : b.length ≤ c.f 44 4) : giveBytes c b d = complete c 0 b.length (dma c.fn (c.f 24 8) b d) := if_neg (Nat.not_lt.mpr h)

theorem giveBytes_eq (c : Cmd) (b : Bytes) (d : Dev) : giveBytes c b d =
    if b.length ≤ c.f 44 4 then complete c 0 b.length (dma c.fn (c.f 24 8) b d) else complete c stBadParam b.length d := by
  unfold giveBytes
  by_cases h : b.length ≤ c.f 44 4
  · rw [if_neg (Nat.not_lt.mpr h), if_pos h]
  · rw [if_pos (Nat.not_le.mp h), if_neg h]

theorem dropExtent_head {x : Extent} {l : List Extent} (h : d.wit.extents = x :: l) :
    witU (fun w => { w with extents := w.extents.erase x }) d = witU (fun w => { w with extents := l }) d := by
  unfold witU
  dsimp only
  rw [h, List.erase_cons_head]

theorem dropJob_head {j : Nat × Nat × Bool × Held} {l : List (Nat × Nat × Bool × Held)} (h : d.wit.halfJobs = j :: l) :
    witU (fun w => { w with halfJobs := w.halfJobs.erase j }) d = witU (fun w => { w with halfJobs := l }) d := by
  unfold witU
  dsimp only
  rw [h, List.erase_cons_head]

/-- Settles O16: each step of the journal is one branch of its instruction, and each command answers by its check. -/
theorem evidenceIsSealedStoredAndServed : Obligations.EvidenceIsSealedStoredAndServed := by
  unfold Obligations.EvidenceIsSealedStoredAndServed
  refine ⟨fun s a rest e es r h => ?_, fun s c a => ?_⟩
  · intro d w
    subst w d
    refine ⟨fun hclosed hhalf => ?_, fun hcur hb hc hnow => ?_, fun rs hcaps hclosed hring hroom => ?_, fun hes hdur htype hdrv hfit hfind => ?_,
      fun hes hdur htype hdrv hfit h29 => ?_, fun hdirty hdrv => ?_, fun h20 hdrv hb hen hoff ha hend => ?_, fun h19 hcaps hclosed hstored => ?_,
      fun j rs hjobs hrecs => ?_⟩
    · refine lands_of_lift (exec_ashlarSealed [] s) ?_
      rw [hclosed]
      dsimp only
      rw [kept_of_none_lost, hhalf, Nat.sub_self, Nat.add_zero]
      rfl
    · refine lands_of_lift (exec_capstoneBoundary s) ?_
      rw [hcur]
      exact if_pos (by simp [hb, hc, hnow])
    · obtain ⟨last, hlands⟩ := capstoneSigned_stores hcaps hclosed hring
      generalize capBody s.dev r ++ signBoth _ _ _ = b at hroom hlands ⊢
      refine runs_of_lands hlands ?_
      rw [landed_wit, storeCapstone_fits]
      · exact ⟨rfl, rfl, rfl, rfl⟩
      · exact hroom
    · refine lands_of_lift (exec_extentDurable false s) ?_
      have hhead : (s.dev.wit.extents.find? fun e => !e.durable) = some e := by simp [hes, hdur]
      rw [hhead]
      dsimp only
      rw [hdrv, hfit, if_neg (by simp), if_neg (by simp), if_neg (by simp), if_pos htype]
      rw [dropExtent_head hes, (posts_bitW _ _ _ _).wit, wit_witU]
      dsimp only
      rw [hfind]
    · refine lands_of_lift (exec_extentDurable false s) ?_
      have hhead : (s.dev.wit.extents.find? fun e => !e.durable) = some e := by simp [hes, hdur]
      rw [hhead]
      dsimp only
      rw [hdrv, hfit, if_neg (by simp), if_neg (by simp), if_pos (by simp)]
      exact if_pos h29
    · exact lands_of_lift (exec_superblockWrite s) (if_pos (by simp [hdirty, hdrv]))
    · refine runs_of_lands (journalOpening_lands h20 hdrv hb ha hend) ?_
      have hopened := opened_facts (d := witU freshWit s.dev) (genesis (witU freshWit s.dev)) hen hoff
      generalize openingEnd _ = x at hopened ⊢
      obtain ⟨h20', hdur, hre, hseal, hlast, hcur⟩ := hopened
      rw [bitR_landed, landed_wit]
      exact ⟨h20', hdur, hre, ⟨_, hseal, rfl, rfl, rfl, rfl, rfl, rfl, rfl, hlast⟩, hcur⟩
    · refine lands_of_lift (exec_journalClosed s) (if_pos ?_)
      rcases Bool.or_eq_true_iff.mp hstored with hcap | hnone
      · simp [h19, hcaps, hclosed, hcap]
      · simp [h19, hcaps, hclosed, hnone]
    · refine lands_of_lift (exec_witHalfDone h s) ?_
      have hhead : (s.dev.wit.halfJobs.find? fun j => decide (j.1 = h ∧ j.2.1 = 0) && j.2.2.1) = some (h, 0, true, j) := by simp [hjobs]
      rw [hhead]
      dsimp only
      rw [if_neg (by simpa using hrecs)]
      rw [dropJob_head hjobs]
  · intro d w i st
    subst st i w d
    refine ⟨fun hst hk hfind hlen => ?_, fun hst h2 h4 hfind => ?_, fun hst => ?_, ?_, fun hst => ?_, ?_, fun hst hop hrel hjob hcur => ?_, ?_⟩
    · refine lands_of_lift (exec_evidenceRead c s) ((checked_ok _ hst).trans ?_)
      dsimp only
      rw [hk]
      rw [hfind]
      exact giveBytes_fits hlen
    · refine lands_of_lift (exec_evidenceRead c s) ((checked_ok _ hst).trans ?_)
      dsimp only
      rw [hfind]
      split
      · next h => exact absurd h h2
      · next h => exact absurd h h4
      · rfl
    · exact lands_of_lift (exec_evidenceRead c s) (checked_fails _ hst)
    · exact serves_of_lift (exec_witRelease c s) rfl
    · intro bs
      exact lands_of_lift (exec_witCerts c s) ((checked_ok _ hst).trans (giveBytes_eq _ _ _))
    · exact serves_of_lift (exec_witCapRing c s) rfl
    · refine lands_of_lift (exec_witHalf c s) ((checked_ok _ hst).trans ?_)
      have hcur' : (noteHeld c (witU (fun w => { w with halfJobs := w.halfJobs ++ [(c.f 16 1, c.f 17 1, false, hold s.dev c)] }) s.dev)).wit.cur = some a := hcur
      dsimp only
      rw [hrel, hjob, if_neg (by simp [hop]), hcur', hop]
      rfl
    · exact serves_of_lift (exec_witStats c s) rfl

end Sys2Proof.Machine

/-! SUPPORT. Port links: what they read of the registers, and their steps (R104–R106, R122). -/

namespace Sys2Proof.Machine
open Sys2Proof

variable {s : State} {d e : Dev} {p i k n : Nat}

/-! ### The link's state (R104) -/

theorem fldR_state (k v : Nat) (d : Dev) (hv : v < 8) : fldR (fldW k 2 0 v d) k 2 0 = v := by
  have hn := (regR d k).isLt
  unfold fldR fldW
  rw [regR_regW_self]
  unfold Word.fld Word.put
  simp only [BitVec.toNat_ofNat]
  omega

theorem fldR_fldW_ne {j hi lo hi' lo' v : Nat} (h : k ≠ j) : fldR (fldW j hi lo v d) k hi' lo' = fldR d k hi' lo' := by
  unfold fldR fldW
  rw [regR_regW_ne _ _ _ _ h]

theorem fldR_bitW_ne {j m hi' lo' : Nat} {b : Bool} (h : k ≠ j) : fldR (bitW j m b d) k hi' lo' = fldR d k hi' lo' := by
  unfold bitW
  exact fldR_fldW_ne h

theorem lstate_setLstate (hn : n < 8) : lstate (setLstate p n d) p = n := fldR_state _ _ _ hn

theorem lstate_calPortStat (hp : p < 48) : lstate (calPortStat p d) p = lstate d p := by
  have hne : pKey p 0x40 ≠ 0xF00100 + 4 * p := by
    unfold pKey
    omega
  unfold calPortStat lstate
  dsimp only
  rw [fldR_bitW_ne hne, fldR_fldW_ne hne]

theorem port_calPortStat (p q : Nat) (d : Dev) : port (calPortStat p d) q = port d q := by
  unfold calPortStat
  dsimp only
  rw [port_bitW, port_fldW]

theorem port_setLstate (p n q : Nat) (d : Dev) : port (setLstate p n d) q = port d q := port_fldW _ _ _ _ _ _

theorem port_portU_self (p : Nat) (g : Port → Port) (d : Dev) : port (portU p g d) p = g (port d p) := Tbl.get_upd_self _ _ _ _

theorem posts_fldW (k hi lo v : Nat) (d : Dev) : Posts d (fldW k hi lo v d) := posts_regW _ _ d

theorem Posts.port (h : Posts d e) (p : Nat) : port e p = port d p := by
  unfold Posts at h
  rw [h]
  rfl

theorem Posts.effR (h : Posts d e) (k : Nat) : effR e k = effR d k := by
  unfold Posts at h
  rw [h]
  rfl

theorem Posts.effF (h : Posts d e) (k hi lo : Nat) : effF e k hi lo = effF d k hi lo := congrArg (Word.fld · hi lo) (h.effR k)
theorem Posts.effB (h : Posts d e) (k i : Nat) : effB e k i = effB d k i := congrArg (Word.bit · i) (h.effR k)

/-! ### Negotiation and training -/

/-- The bits of the partner's pause abilities, as the event shows them. -/
theorem partner_pause (tech fec ext : Nat) (c0 c1 : Bool) : Word.fld (partnerWords tech fec c0 c1 ext).2 25 24 = 2 * b2n c1 + b2n c0 := by
  unfold partnerWords Word.fld b2n
  cases c0 <;> cases c1 <;> simp [BitVec.toNat_ofNat, Nat.shiftRight_eq_div_pow] <;> omega

/-- The partner's words are shown. -/
def abilitiesShown (p : Nat) (w : Word × Word) (d : Dev) : Dev := regW (pKey p 0x48) (Word.putBit w.2 31 true) (regW (pKey p 0x44) w.1 d)

/-- The negotiation's event. -/
def negotiated (p : Nat) (w : Word × Word) (common : Bool) (d : Dev) : Dev :=
  postDev 0x32 (leBytes 1 p ++ leBytes 1 (b2n common) ++ leBytes 1 (Word.fld w.2 25 24)) (abilitiesShown p w d)

/-- What a negotiation that found a common mode sets. -/
def resolved (p fec pause : Nat) (d : Dev) : Dev :=
  calPortStat p (setLstate p (if ltEn (fldW (pKey p 0x40) 27 26 fec d) p then 2 else 3)
    (portU p (fun x => { x with negFec := some fec, negPause := some pause }) (fldW (pKey p 0x40) 27 26 fec d)))

theorem negotiation_lands {tech fec ext : Nat} {c0 c1 : Bool} (h : lstate s.dev p = 1) :
    Lands (.negotiationResolved p tech fec c0 c1 ext) s
      (let w := partnerWords tech fec c0 c1 ext
       if offers w (modeCfg s.dev p) then
         resolved p (resolveFec (modeCfg s.dev p) (((port s.dev p).adv).getD (advert s.dev p)) w)
           (resolvePause (((port s.dev p).adv).getD (advert s.dev p)) w) (negotiated p w true s.dev)
       else bringUp p (negotiated p w false s.dev)) := by
  refine lands_of_lift (exec_negotiationResolved p tech fec c0 c1 ext s) ?_
  dsimp only
  rw [if_neg (not_not_intro h)]
  generalize partnerWords tech fec c0 c1 ext = w
  generalize modeCfg s.dev p = m
  cases offers w m with
  | true => exact (if_neg Bool.false_ne_true).trans (if_pos rfl).symm
  | false => exact (if_pos rfl).trans (if_neg Bool.false_ne_true).symm

theorem posts_negotiated (w : Word × Word) (common : Bool) : Posts d (negotiated p w common d) :=
  (posts_regW _ _ d).trans <| (posts_regW _ _ _).trans (posts_postDev _ _ _)

theorem ltEn_fldW (k hi lo v p : Nat) (d : Dev) : ltEn (fldW k hi lo v d) p = ltEn d p := rfl

theorem resolved_facts {fec pause : Nat} (hp : p < 48) (h : Posts d e) : lstate (resolved p fec pause e) p = (if ltEn d p then 2 else 3) ∧
    (port (resolved p fec pause e) p).negFec = some fec ∧ (port (resolved p fec pause e) p).negPause = some pause := by
  have hlt : ltEn e p = ltEn d p := h.effB _ _
  rw [resolved, lstate_calPortStat hp, port_calPortStat, port_setLstate, port_portU_self, lstate_setLstate (by split <;> decide), ltEn_fldW, hlt]
  exact ⟨rfl, rfl, rfl⟩

theorem lstate_landed (s : State) (d : Dev) (p : Nat) : lstate (landed s d).dev p = lstate d p := rfl

theorem runs_resolved {i : Instr} {w : Word × Word} {fec pause : Nat} (hp : p < 48) (h : Lands i s (resolved p fec pause (negotiated p w true s.dev))) :
    Runs i s fun d' => lstate d' p = (if ltEn s.dev p then 2 else 3) ∧ (port d' p).negFec = some fec ∧ (port d' p).negPause = some pause := by
  have hfacts := resolved_facts (fec := fec) (pause := pause) hp (posts_negotiated (d := s.dev) (p := p) w true)
  refine runs_of_lands h ?_
  rw [port_landed, lstate_landed]
  exact hfacts

end Sys2Proof.Machine

/-! SUPPORT. Ports receive and send frames and pauses (R108, R109, R114, R120, R134). -/

namespace Sys2Proof.Machine
open Sys2Proof

variable {s : State} {d e : Dev} {p i k n : Nat}

/-! ### Reception (R108, R114, R120) -/

/-- The FEC counts of a frame's codewords. -/
def fecCounted (p corr unc syms : Nat) (d : Dev) : Dev := ctrAdd (pKey p 0x1E0) syms (ctrAdd (pKey p 0x1D8) unc (ctrAdd (pKey p 0x1D0) corr d))

/-- A frame at a port that is UP. -/
def frameChecked (p sub q : Nat) (bs : Bytes) (bad : Bool) (d : Dev) : Dev :=
  if bs.length + 4 < 64 then ctrInc (pKey p (if bad then 0x140 else 0x130)) d
  else if maxFrameRx d p < bs.length + 4 then ctrInc (pKey p 0x138) d
  else if bad then ctrInc (pKey p 0x128) d
  else if be bs 12 2 = 0x8808 then macControl p bs d
  else if calMatch (countGood p bs d) p bs then calReturn p sub q bs (countGood p bs d)
  else flowUpdate p (passIngress p sub q bs (countGood p bs d))

/-- The port is UP, and no far-end loop is set. -/
def Receives (d : Dev) (p : Nat) : Prop := portPresent d.variant p = true ∧ d.fatal = false ∧ lstate d p = 4 ∧ loopCfg d p ≠ 2

theorem lstate_fecCounted (p corr unc syms : Nat) (d : Dev) : lstate (fecCounted p corr unc syms d) p = lstate d p := rfl
theorem loopCfg_fecCounted (p corr unc syms : Nat) (d : Dev) : loopCfg (fecCounted p corr unc syms d) p = loopCfg d p := rfl
theorem port_fecCounted (p corr unc syms : Nat) (d : Dev) : port (fecCounted p corr unc syms d) p = port d p := rfl
theorem maxFrameRx_fecCounted (p corr unc syms : Nat) (d : Dev) : maxFrameRx (fecCounted p corr unc syms d) p = maxFrameRx d p := rfl

theorem flowRx_fecCounted (p corr unc syms : Nat) (d : Dev) : flowRx (fecCounted p corr unc syms d) p = flowRx d p := rfl
theorem flowKind_fecCounted (p corr unc syms : Nat) (tx : Bool) (d : Dev) : flowKind (fecCounted p corr unc syms d) tx p = flowKind d tx p := rfl

theorem frameRx_lands {sub q corr unc syms : Nat} {bs : Bytes} {bad : Bool} (h : Receives s.dev p) :
    Lands (.frameRx p bs bad sub q corr unc syms) s (frameChecked p sub q bs bad (fecCounted p corr unc syms s.dev)) := by
  obtain ⟨hpres, hfatal, hst, hloop⟩ := h
  refine lands_of_lift (exec_frameRx p bs bad sub q corr unc syms s) ((if_neg (by simp [hpres, hfatal, hst])).trans ?_)
  change (if lstate (fecCounted p corr unc syms s.dev) p = 6 then _ else _) = _
  rw [lstate_fecCounted, hst, if_neg (by decide)]
  change frameChecked p sub q bs bad (if loopCfg (fecCounted p corr unc syms s.dev) p = 2 then emit (.frame p bs) (fecCounted p corr unc syms s.dev)
    else fecCounted p corr unc syms s.dev) = _
  rw [loopCfg_fecCounted, if_neg hloop]

theorem frameRx_eq {sub q corr unc syms : Nat} {bs : Bytes} {bad : Bool} (h : Receives s.dev p)
    (he : frameChecked p sub q bs bad (fecCounted p corr unc syms s.dev) = e) : Lands (.frameRx p bs bad sub q corr unc syms) s e :=
  he ▸ frameRx_lands h

theorem port_countGood (p q : Nat) (bs : Bytes) (d : Dev) : port (countGood p bs d) q = port d q := by
  unfold countGood
  rw [port_ctrInc, port_ctrInc, port_ctrInc, port_ctrAdd]

theorem frameChecked_short {sub q : Nat} {bs : Bytes} {bad : Bool} (h : bs.length + 4 < 64) :
    frameChecked p sub q bs bad d = ctrInc (pKey p (if bad then 0x140 else 0x130)) d := if_pos h

theorem frameChecked_long {sub q : Nat} {bs : Bytes} {bad : Bool} (h : 64 ≤ bs.length + 4) (hmax : maxFrameRx d p < bs.length + 4) :
    frameChecked p sub q bs bad d = ctrInc (pKey p 0x138) d := (if_neg (Nat.not_lt.mpr h)).trans (if_pos hmax)

theorem frameChecked_fits {sub q : Nat} {bs : Bytes} {bad : Bool} (h : 64 ≤ bs.length + 4) (hmax : bs.length + 4 ≤ maxFrameRx d p) :
    frameChecked p sub q bs bad d =
      if bad then ctrInc (pKey p 0x128) d
      else if be bs 12 2 = 0x8808 then macControl p bs d
      else if calMatch (countGood p bs d) p bs then calReturn p sub q bs (countGood p bs d)
      else flowUpdate p (passIngress p sub q bs (countGood p bs d)) := (if_neg (Nat.not_lt.mpr h)).trans (if_neg (Nat.not_lt.mpr hmax))

theorem macControl_off {bs : Bytes} (h : flowRx d p = false) : macControl p bs d = ctrInc (pKey p 0x148) d :=
  if_pos ((congrArg (!·) h :) : (!(flowRx (ctrInc (pKey p 0x148) d) p)) = true)

theorem calMatch_none {bs : Bytes} (h : (port d p).cal = none) : calMatch d p bs = false := by
  unfold calMatch
  rw [h]

/-! ### Pauses (R109, R120) -/

theorem pausedUpdate_pauseUntil (p : Nat) (d : Dev) : (port (pausedUpdate p d) p).pauseUntil = (port d p).pauseUntil := by
  unfold pausedUpdate
  dsimp only
  split
  · rfl
  · split
    · rw [port_portU_self, port_bitW]
    · rw [port_ctrAdd, port_bitW]

theorem pausedUpdate_xings (p : Nat) (d : Dev) : (pausedUpdate p d).xings = d.xings := by
  unfold pausedUpdate
  dsimp only
  split
  · rfl
  · split
    · rw [portU_xings, bitW_xings]
    · rw [ctrAdd_xings, bitW_xings]

/-- A pause is taken (R109). -/
def pauseTaken (p ticks : Nat) (d : Dev) : Dev := pausedUpdate p (portU p (fun x => { x with pauseUntil := setAt x.pauseUntil 8 ticks }) d)

theorem macControl_pause {bs : Bytes} (h : flowRx d p = true) (hk : flowKind d false p = 1) (hop : be bs 14 2 = 1) :
    macControl p bs d = pauseTaken p (now d + quantaTicks d p (be bs 16 2)) (ctrInc (pKey p 0x148) d) :=
  have hrx : flowRx (ctrInc (pKey p 0x148) d) p = true := h
  (if_neg (by simp [hrx])).trans (if_pos ⟨hk, hop⟩)

theorem pauseTaken_facts (p ticks : Nat) (d : Dev) : (port (pauseTaken p ticks d) p).pauseUntil = setAt (port d p).pauseUntil 8 ticks ∧
    (pauseTaken p ticks d).xings = d.xings := by
  rw [pauseTaken, pausedUpdate_pauseUntil, pausedUpdate_xings, port_portU_self, portU_xings]
  exact ⟨rfl, rfl⟩

theorem takeFirst_none {α : Type} {f : α → Bool} {l : List α} (h : ∀ x ∈ l, f x = false) : takeFirst f l = none := by
  induction l with
  | nil => rfl
  | cons x l ih =>
    rw [takeFirst, if_neg (by simp [h x (by simp)]), ih fun y hy => h y (List.mem_cons_of_mem x hy)]

/-- Settles O17: each step of a link, and each way a frame can go, is one branch of its instruction. -/
theorem portLinksCarryFramesAndPauses : Obligations.PortLinksCarryFramesAndPauses := by
  unfold Obligations.PortLinksCarryFramesAndPauses
  refine ⟨fun s p n tech fec ext c0 c1 x y on => ?_, fun s p sub q corr unc syms bs bad => ?_⟩
  · intro d k all mine theirs
    subst theirs mine all k d
    refine ⟨fun hst hno => ?_, fun hst hyes hp => ?_, fun hst hall => ?_, fun hst hall han => ?_, fun hst => ?_, fun hst hhold => ?_,
      fun hst hhold => ?_, fun hst hdue => ?_, fun hst hdue => ?_, fun hst hon => ?_⟩
    · have hlands := negotiation_lands (tech := tech) (fec := fec) (ext := ext) (c0 := c0) (c1 := c1) hst
      dsimp only at hlands
      rw [hno, if_neg Bool.false_ne_true, negotiated, partner_pause] at hlands
      exact hlands
    · have hlands := negotiation_lands (tech := tech) (fec := fec) (ext := ext) (c0 := c0) (c1 := c1) hst
      dsimp only at hlands
      rw [hyes, if_pos rfl] at hlands
      exact runs_resolved hp hlands
    · refine lands_of_lift (exec_linkTrainingDone p n s) ((if_neg (not_not_intro hst)).trans ?_)
      dsimp only
      rw [if_pos hall, hall, Nat.sub_self]
    · refine lands_of_lift (exec_linkTrainingDone p n s) ((if_neg (not_not_intro hst)).trans ?_)
      dsimp only
      rw [if_neg hall]
      exact if_pos ((((posts_fldW _ _ _ _ _).trans (posts_postDev _ _ _)).effB _ _).trans han)
    · refine lands_of_lift (exec_linkUp p x y s) ((if_neg (not_not_intro hst)).trans ?_)
      dsimp only
      rw [ite_not]
    · refine lands_of_lift (exec_linkSignalLoss p n false s) ((if_neg (not_not_intro hst)).trans ?_)
      exact if_neg hhold
    · refine lands_of_lift (exec_linkSignalLoss p n true s) ((if_neg (not_not_intro hst)).trans ?_)
      exact if_pos hhold
    · exact lands_of_lift (exec_holdDownExpiry p s) (if_pos ⟨hst, hdue⟩)
    · exact lands_of_lift (exec_holdRecovered p x y s) (if_pos ⟨hst, hdue⟩)
    · exact lands_of_lift (exec_remoteFault p on s) (if_neg (by simp [hst, hon]))
  · intro d fec rx up
    subst up rx fec d
    refine ⟨fun hup hlen => ?_, fun hup hlen hmax => ?_, fun hup hlen hmax hbad => ?_, fun hup hlen hmax hbad hty hoff => ?_,
      fun hup hlen hmax hbad hty hon hk hop => ?_, fun hup hlen hmax hbad hty hcal => ?_, fun hpres hfatal hst hback => ?_,
      fun hrun h24 => ?_, fun t hx hdue htx hmay => ?_, fun h rest hhold hst h10 hfatal hplan => ?_⟩
    · exact frameRx_eq hup (frameChecked_short hlen)
    · exact frameRx_eq hup (frameChecked_long hlen (by rwa [maxFrameRx_fecCounted]))
    · exact frameRx_eq hup ((frameChecked_fits hlen (by rwa [maxFrameRx_fecCounted])).trans (if_pos hbad))
    · refine frameRx_eq hup ?_
      rw [frameChecked_fits hlen (by rwa [maxFrameRx_fecCounted]), if_neg (by simp [hbad]), if_pos hty]
      exact macControl_off hoff
    · have hlands := frameRx_lands (sub := sub) (q := q) (corr := corr) (unc := unc) (syms := syms) (bs := bs) (bad := bad) hup
      rw [frameChecked_fits hlen (by rwa [maxFrameRx_fecCounted]), if_neg (by simp [hbad]), if_pos hty,
        macControl_pause (by rwa [flowRx_fecCounted]) (by rwa [flowKind_fecCounted]) hop] at hlands
      obtain ⟨huntil, hx⟩ := pauseTaken_facts p (now (fecCounted p corr unc syms s.dev) + quantaTicks (fecCounted p corr unc syms s.dev) p (be bs 16 2))
        (ctrInc (pKey p 0x148) (fecCounted p corr unc syms s.dev))
      refine runs_of_lands hlands ?_
      rw [port_landed, landed_xings]
      exact ⟨huntil, hx⟩
    · have hno : calMatch (countGood p bs (fecCounted p corr unc syms s.dev)) p bs = false := calMatch_none (by rw [port_countGood, port_fecCounted, hcal])
      refine frameRx_eq hup ?_
      rw [frameChecked_fits hlen (by rwa [maxFrameRx_fecCounted]), if_neg (by simp [hbad]), if_neg hty, if_neg (by simp [hno])]
      rfl
    · refine lands_of_lift (exec_frameRx p bs bad sub q corr unc syms s) ((if_neg (by simp [hpres, hfatal, hst])).trans ?_)
      change (if lstate (fecCounted p corr unc syms s.dev) p = 6 then _ else _) = _
      rw [lstate_fecCounted, if_pos hst]
      have hnone : takeFirst (fun x => decide (x = padTo 60 bs)) (port s.dev p).looped = none :=
        takeFirst_none fun x hx => decide_eq_false fun h => hback (h ▸ hx)
      rw [port_ctrAdd, port_ctrAdd, port_ctrAdd, hnone]
    · refine lands_of_lift (exec_pauseExpiry p s) ?_
      unfold pausedUpdate
      dsimp only
      rw [hrun, h24, if_neg (by decide), if_neg (by decide)]
    · refine lands_of_lift (exec_pauseRepeat p s) ?_
      rw [hx]
      exact if_pos (by simp [hdue, htx, hmay])
    · refine lands_of_lift (exec_txLaunch p s) ?_
      dsimp only
      rw [hhold]
      refine if_neg ?_
      rintro (⟨h4, h6⟩ | h1 | h2 | h3)
      · exact hst.elim h4 h6
      · simp [h10] at h1
      · simp [hfatal] at h2
      · omega

end Sys2Proof.Machine

/-! SUPPORT. What ending packets and taking a link down leave of the ports' commands and measurements (R106, R113, R148). -/

namespace Sys2Proof.Machine
open Sys2Proof

variable {s : State} {d e f : Dev} {p i k n : Nat}

/-! ### Packets that end leave the ports alone -/

theorem Reports.ports (h : Reports d e) : e.ports = d.ports := (congrArg Dev.ports h :)
theorem Posts.ports (h : Posts d e) : e.ports = d.ports := (congrArg Dev.ports h :)
theorem Carries.ports (h : Carries d e) : e.ports = d.ports := (congrArg Dev.ports h :)

theorem ports_foldl {α : Type} {g : Dev → α → Dev} (hstep : ∀ d a, (g d a).ports = d.ports) (l : List α) (d : Dev) : (l.foldl g d).ports = d.ports :=
  foldl_keeps (R := fun d e => e.ports = d.ports) (fun _ => rfl) (fun h h' => h'.trans h) hstep l d

theorem finishStop_ports (f qt lq : Nat) (d : Dev) : (finishStop f qt lq d).ports = d.ports := by
  unfold finishStop
  dsimp only
  split
  · split
    · exact (reports_completeHeld _ _ _ _).ports
    · rfl
  · rfl

theorem writeDevIdx_ports (f qt lq : Nat) (d : Dev) : (writeDevIdx f qt lq d).ports = d.ports := (reports_dma _ _ _ d).ports

theorem ports_ite {c : Prop} [Decidable c] {a b : Dev} (ha : a.ports = d.ports) (hb : b.ports = d.ports) : (if c then a else b).ports = d.ports := by
  split <;> assumption

theorem ringAdvance_ports (f cq : Nat) (b : Bytes) (d : Dev) : (ringAdvance f cq b d).ports = d.ports := by
  unfold ringAdvance
  dsimp only
  generalize (if le b 14 2 / 2 ^ 14 = 0 then 1 else 0) = qt
  cases boundTo d f qt cq with
  | nil => rfl
  | cons lq l => exact (finishStop_ports _ _ _ _).trans (ports_ite (queueU_ports _ _ _ _ d) ((writeDevIdx_ports _ _ _ _).trans (queueU_ports _ _ _ _ d)))

theorem cqSignal_ports (f lq : Nat) (d : Dev) : (cqSignal f lq d).ports = d.ports := by
  unfold cqSignal
  dsimp only
  split
  · exact (posts_signalVec _ _ _).ports
  · rfl

theorem cqWrite_ports (f lq : Nat) (b : Bytes) (d : Dev) : (cqWrite f lq b d).ports = d.ports := by
  unfold cqWrite
  dsimp only
  rw [ringAdvance_ports, cqSignal_ports, emit_ports, writeDevIdx_ports, queueU_ports, (reports_dma _ _ _ d).ports]

theorem cqOverflowCheck_ports (f lq : Nat) (d : Dev) : (cqOverflowCheck f lq d).ports = d.ports := by
  unfold cqOverflowCheck
  dsimp only
  split
  · rfl
  · split
    · rw [(posts_postEvent _ _ _ _ _).ports]
      exact (ports_foldl (fun _ _ => queueU_ports _ _ _ _ _) _ _).trans (queueU_ports _ _ _ _ _)
    · rfl

theorem cqDeliver_ports (f lq gen : Nat) (b : Bytes) (d : Dev) : (cqDeliver f lq gen b d).ports = d.ports := by
  unfold cqDeliver
  dsimp only
  split
  · rfl
  · split
    · rfl
    · split
      · exact cqWrite_ports _ _ _ _
      · rw [cqOverflowCheck_ports]
        rfl

theorem txComplete_ports (id : Nat) (x : TxEnd) (d : Dev) : (txComplete id x d).ports = d.ports := by
  unfold txComplete
  split
  · rfl
  · dsimp only
    exact (cqDeliver_ports _ _ _ _ _).trans (ports_ite rfl rfl)

theorem copyUnsent_ports (pkt g p status : Nat) (wit : Bool) (d : Dev) : (copyUnsent pkt g p status wit d).ports = d.ports := by
  unfold copyUnsent
  split
  · rfl
  · dsimp only
    exact (txComplete_ports _ _ _).trans (ports_ite (carries_writeRec _ _ _).ports rfl)

theorem packetEnds_ports (id status len : Nat) (d : Dev) : (packetEnds id status len d).ports = d.ports := by
  unfold packetEnds
  split
  · rfl
  · dsimp only
    split
    · split
      · exact txComplete_ports _ _ _
      · exact ports_foldl (fun _ _ => copyUnsent_ports _ _ _ _ _ _) _ _
    · exact txComplete_ports _ _ _

theorem endPkt_ports (record : Bool) (x : Frame) (status : Nat) (d : Dev) : (endPkt record x status d).ports = d.ports := by
  unfold endPkt
  split
  · rfl
  · dsimp only
    exact (packetEnds_ports _ _ _ _).trans (ports_ite (carries_writeRec _ _ _).ports rfl)

theorem discardTx_ports (p status : Nat) (x : Frame) (d : Dev) : (discardTx p status x d).ports = d.ports := by
  rw [discardTx, (carries_deliveryDrop _ _).ports, dropPkt, endPkt_ports, ctrInc_ports]

/-! ### A link that goes down keeps its port's commands -/

/-- Every port has the same commands and the same measurement. -/
def SameJobs (d e : Dev) : Prop := ∀ q, (port e q).cmds = (port d q).cmds ∧ (port e q).cal = (port d q).cal

theorem SameJobs.refl (d : Dev) : SameJobs d d := fun _ => ⟨rfl, rfl⟩

theorem SameJobs.trans (h : SameJobs d e) (h' : SameJobs e f) : SameJobs d f := fun q => ⟨(h' q).1.trans (h q).1, (h' q).2.trans (h q).2⟩

theorem SameJobs.of_ports (h : e.ports = d.ports) : SameJobs d e := fun q => by
  unfold port
  rw [h]
  exact ⟨rfl, rfl⟩

theorem Posts.jobs (h : Posts d e) : SameJobs d e := .of_ports h.ports

theorem port_portU_ne {q : Nat} (g : Port → Port) (d : Dev) (h : q ≠ p) : port (portU p g d) q = port d q := Tbl.get_upd_ne _ _ _ _ _ h

theorem sameJobs_portU {g : Port → Port} (d : Dev) (hg : ∀ x, (g x).cmds = x.cmds ∧ (g x).cal = x.cal := by intro x; exact ⟨rfl, rfl⟩) : SameJobs d (portU p g d) := fun q => by
  by_cases hq : q = p
  · subst hq
    rw [port_portU_self]
    exact hg _
  · rw [port_portU_ne _ _ hq]
    exact ⟨rfl, rfl⟩

theorem sameJobs_ite {c : Prop} [Decidable c] {a b : Dev} (ha : SameJobs d a) (hb : SameJobs d b) : SameJobs d (if c then a else b) := by
  split <;> assumption

theorem sameJobs_foldl {α : Type} {g : Dev → α → Dev} (hstep : ∀ d a, SameJobs d (g d a)) (l : List α) (d : Dev) : SameJobs d (l.foldl g d) :=
  foldl_keeps SameJobs.refl (fun h h' => h.trans h') hstep l d

theorem sameJobs_flushHold (p : Nat) (d : Dev) : SameJobs d (flushHold p d) :=
  (sameJobs_portU d).trans
    (sameJobs_foldl (fun _ _ => .of_ports (discardTx_ports _ _ _ _)) _ _)

theorem egqW_ports (p q : Nat) (fs : List Frame) (d : Dev) : (egqW p q fs d).ports = d.ports := by
  unfold egqW
  dsimp only
  split <;> rfl

theorem sameJobs_flushQueues (p : Nat) (d : Dev) : SameJobs d (flushQueues p d) :=
  sameJobs_foldl (fun _ _ => (SameJobs.of_ports (egqW_ports _ _ _ _)).trans (sameJobs_foldl (fun _ _ => .of_ports (discardTx_ports _ _ _ _)) _ _)) _ d

theorem calLinkLost_idle (h : (port d p).cal = none) : calLinkLost p d = d := by
  unfold calLinkLost
  rw [h]

theorem sameJobs_linkDown (cause : Nat) (h : (port d p).cal = none) : SameJobs d (linkDown p cause d) := by
  have hpost : SameJobs d (postDev 0x31 (leBytes 1 p ++ leBytes 1 cause) (ctrInc (pKey p 0x1E8) d)) := ((posts_ctrInc _ d).trans (posts_postDev _ _ _)).jobs
  unfold linkDown
  dsimp only
  generalize postDev 0x31 _ _ = e at hpost ⊢
  have hcut : SameJobs d (if now e < (port e p).busyUntil then emit (.frameAbort p) (portU p (fun x => { x with busyUntil := now e }) (ctrInc (pKey p 0x1C8) e)) else e) :=
    hpost.trans (sameJobs_ite ((posts_ctrInc _ e).jobs.trans ((sameJobs_portU _).trans
      (posts_emit _ _).jobs)) (.refl e))
  generalize (if now e < (port e p).busyUntil then _ else e) = e' at hcut ⊢
  have hflush := hcut.trans (sameJobs_flushHold p e')
  rw [calLinkLost_idle ((hflush p).2.trans h)]
  exact sameJobs_ite hflush (hflush.trans (sameJobs_flushQueues p _))

theorem sameJobs_pausedUpdate (p : Nat) (d : Dev) : SameJobs d (pausedUpdate p d) := by
  unfold pausedUpdate
  exact sameJobs_ite (.refl d) (sameJobs_ite ((posts_bitW _ _ _ d).jobs.trans (sameJobs_portU _))
    (SameJobs.of_ports ((ctrAdd_ports _ _ _).trans (bitW_ports _ _ _ d))))

theorem posts_calPortStat (p : Nat) (d : Dev) : Posts d (calPortStat p d) := (posts_fldW _ _ _ _ d).trans (posts_bitW _ _ _ _)

/-- What a port that is disabled forgets of its link. -/
def linkForgotten (p : Nat) (d : Dev) : Dev :=
  calPortStat p (portU p (fun x => { x with negFec := none, negPause := none, adv := none, xoff := none, looped := [] })
    (regW (pKey p 0x48) 0 (regW (pKey p 0x44) 0 (bitW (0xF00100 + 4 * p) 5 false d))))

theorem sameJobs_linkForgotten (p : Nat) (d : Dev) : SameJobs d (linkForgotten p d) := by
  refine SameJobs.trans (SameJobs.trans ?_ (sameJobs_portU _)) (posts_calPortStat _ _).jobs
  exact ((posts_bitW _ _ _ d).trans ((posts_regW _ _ _).trans (posts_regW _ _ _))).jobs

/-- The mode and FEC a disabled port shows. -/
def modeShown (p : Nat) (d : Dev) : Dev :=
  let d := regW (pKey p 0x40) (BitVec.ofNat 32 ((regR d (pKey p 0x40)).toNat &&& 0x0E000040)) d
  fldW (pKey p 0x40) 31 28 (if subsumed d p then 0 else modeCfg d p) (bitW (pKey p 0x40) 25 (subsumed d p) d)

theorem posts_modeShown (p : Nat) (d : Dev) : Posts d (modeShown p d) := (posts_regW _ _ d).trans ((posts_bitW _ _ _ _).trans (posts_fldW _ _ _ _ _))

theorem sameJobs_disablePort (cause : Nat) (h : (port d p).cal = none) : SameJobs d (disablePort p cause d) := by
  have hpause : SameJobs d (pausedUpdate p (portU p (fun x => { x with pauseUntil := List.replicate 9 0 }) d)) :=
    (sameJobs_portU d).trans (sameJobs_pausedUpdate p _)
  unfold disablePort
  dsimp only
  generalize pausedUpdate p _ = e at hpause ⊢
  have hcal := (hpause p).2.trans h
  have hdown : SameJobs d (if lstate d p = 4 ∨ lstate d p = 5 then linkDown p cause e else if lstate d p = 6 then calLinkLost p e else e) :=
    sameJobs_ite (hpause.trans (sameJobs_linkDown cause hcal)) (sameJobs_ite (by rwa [calLinkLost_idle hcal]) hpause)
  generalize (if lstate d p = 4 ∨ lstate d p = 5 then _ else _) = e' at hdown ⊢
  exact hdown.trans ((posts_modeShown p e').jobs.trans (sameJobs_linkForgotten p _))

theorem sameJobs_cutRx (p : Nat) (d : Dev) : SameJobs d (cutRx p d) := by
  unfold cutRx
  split
  · exact sameJobs_ite (SameJobs.of_ports rfl) (SameJobs.of_ports rfl)
  · exact .refl d

theorem posts_setLstate (p n : Nat) (d : Dev) : Posts d (setLstate p n d) := posts_fldW _ _ _ _ d

theorem sameJobs_bringUp (p : Nat) (d : Dev) : SameJobs d (bringUp p d) := by
  have hclear : Posts d (bitW (0xF00100 + 4 * p) 5 false (fldW (pKey p 0x40) 23 16 0 (bitW (pKey p 0x40) 10 false (bitW (pKey p 0x40) 8 false (bitW (pKey p 0x40) 7 false d))))) :=
    (posts_bitW _ _ _ d).trans <| (posts_bitW _ _ _ _).trans <| (posts_bitW _ _ _ _).trans <| (posts_fldW _ _ _ _ _).trans (posts_bitW _ _ _ _)
  unfold bringUp
  dsimp only
  generalize bitW (0xF00100 + 4 * p) 5 false _ = e at hclear ⊢
  refine SameJobs.trans (e := if anEn e p then portU p (fun x => { x with adv := some (advert e p) }) e else fldW (pKey p 0x40) 27 26 (fecCfg e p) e) ?_
    ((posts_setLstate _ _ _).trans (posts_calPortStat _ _)).jobs
  exact hclear.jobs.trans (sameJobs_ite (sameJobs_portU e) (posts_fldW _ _ _ _ e).jobs)

theorem sameJobs_enable (p : Nat) (d : Dev) : SameJobs d (enable p d) := by
  have hmode : Posts d (fldW (pKey p 0x40) 31 28 (if subsumed d p then 0 else modeCfg d p) (bitW (pKey p 0x40) 25 (subsumed d p) d)) :=
    (posts_bitW _ _ _ d).trans (posts_fldW _ _ _ _ _)
  unfold enable
  dsimp only
  generalize fldW (pKey p 0x40) 31 28 _ _ = e at hmode ⊢
  have hfec : Posts d (calPortStat p (fldW (pKey p 0x40) 27 26 (if subsumed e p ∨ modeCfg e p = 0 then 0 else fecCfg e p) e)) :=
    hmode.trans ((posts_fldW _ _ _ _ _).trans (posts_calPortStat _ _))
  generalize calPortStat p _ = e' at hfec ⊢
  exact hfec.jobs.trans (sameJobs_ite (.refl e') (sameJobs_ite (posts_setLstate _ _ _).jobs ((posts_bitW _ _ _ _).jobs.trans (sameJobs_bringUp _ _))))

/-- A port that is taken down and enabled again keeps its commands (R113). -/
theorem sameJobs_restarted (cause : Nat) (h : (port d p).cal = none) : SameJobs d (enable p (disablePort p cause (cutRx p d))) :=
  (sameJobs_cutRx p d).trans ((sameJobs_disablePort cause ((sameJobs_cutRx p d p).2.trans h)).trans (sameJobs_enable p _))

end Sys2Proof.Machine

/-! SUPPORT. Port commands are run in the order taken (R113, R115). -/

namespace Sys2Proof

theorem Tbl.erase_insert {α : Type} (t : Tbl α) (k : Nat) (v : α) : Tbl.erase (Tbl.insert t k v) k = Tbl.erase t k := by
  induction t with
  | nil => simp [Tbl.insert, Tbl.erase]
  | cons e t ih =>
    obtain ⟨k', v'⟩ := e
    unfold Tbl.insert
    unfold Tbl.erase at ih ⊢
    split
    · next h => simp [h]
    · split
      · simp
      · simp only [List.filter_cons, ih]

theorem Tbl.insert_insert {α : Type} (t : Tbl α) (k : Nat) (v w : α) : Tbl.insert (Tbl.insert t k v) k w = Tbl.insert t k w := by
  induction t with
  | nil => simp [Tbl.insert]
  | cons e t ih =>
    obtain ⟨k', v'⟩ := e
    by_cases h : k = k'
    · simp [Tbl.insert, h]
    · by_cases hlt : k < k'
      · simp [Tbl.insert, h, hlt]
      · simp [Tbl.insert, h, hlt, ih]

/-- The last of two writes of a key counts, where the first was not of the reset value. -/
theorem Tbl.set_set {α : Type} [DecidableEq α] {d : Nat → α} (t : Tbl α) {k : Nat} {v : α} (w : α) (h : v ≠ d k) :
    Tbl.set d (Tbl.set d t k v) k w = Tbl.set d t k w := by
  unfold Tbl.set
  rw [if_neg h]
  split
  · exact Tbl.erase_insert _ _ _
  · exact Tbl.insert_insert _ _ _ _

namespace Machine

variable {s : State} {d e : Dev} {p i k n : Nat} {c : Cmd} {x : Held}

theorem portU_portU {f g : Port → Port} (hf : f (port d p) ≠ {}) (hg : g (f (port d p)) = g (port d p)) : portU p g (portU p f d) = portU p g d := by
  have hports : Tbl.upd (fun _ => {}) (Tbl.upd (fun _ => {}) d.ports p f) p g = Tbl.upd (fun _ => {}) d.ports p g := by
    unfold port at hf hg
    unfold Tbl.upd
    rw [Tbl.get_set_self, hg]
    exact Tbl.set_set _ _ hf
  unfold portU
  rw [hports]

/-! ### One command on a port -/

/-- One turn of the commands of a port. -/
def portTurn (p : Nat) (d : Dev) : Dev :=
  match (port d p).cmds with
  | h :: rest => portCmd p h rest d
  | [] => d

theorem portRun_one (h : (port d p).cmds = [x]) : portRun p d = portTurn p (portTurn p d) := by
  unfold portRun
  rw [h]
  rfl

theorem portTurn_none (h : (port d p).cmds = []) : portTurn p d = d := by
  unfold portTurn
  rw [h]

theorem portTurn_one (h : (port d p).cmds = [x]) : portTurn p d = portCmd p x [] d := by
  unfold portTurn
  rw [h]

/-- A port's command that is done. -/
def portDone (p : Nat) (h : Held) (d : Dev) : Dev := completeHeld h 0 0 (portU p (fun x => { x with cmds := [], restarting := false }) d)

theorem portCmd_restarts (hr : (port d p).restarting = false) (hst : portCmdStatus d x.cmd = 0) (hop : x.cmd.opcode ≠ 0x32) :
    portCmd p x [] d = portU p (fun x => { x with restarting := true }) (enable p (disablePort p 3 (cutRx p d))) := by
  unfold portCmd
  dsimp only
  rw [hr, if_neg Bool.false_ne_true, if_neg (not_not_intro hst), if_neg hop]

theorem portCmd_reads (hr : (port d p).restarting = false) (hst : portCmdStatus d x.cmd = 0) (hop : x.cmd.opcode = 0x32) :
    portCmd p x [] d = portDone p x (dma x.cmd.fn (x.cmd.f 24 8) (ctrBytes d (pKey p 0x100) 32)
      (if x.cmd.f 17 1 = 1 then ctrClear (pKey p 0x100) 32 d else d)) := by
  unfold portCmd
  dsimp only
  rw [hr, if_neg Bool.false_ne_true, if_neg (not_not_intro hst), if_pos hop]
  rfl

theorem portCmd_waits (hr : (port d p).restarting = true) : portCmd p x [] d = if lstate d p = 0 then d else portDone p x d := by
  unfold portCmd
  dsimp only
  rw [if_pos hr]
  rfl

theorem portDone_cmds (p : Nat) (h : Held) (d : Dev) : (port (portDone p h d) p).cmds = [] := by
  have hport : port (portDone p h d) p = port (portU p (fun x => { x with cmds := [], restarting := false }) d) p := by
    unfold port
    rw [portDone, (reports_completeHeld _ _ _ _).ports]
  rw [hport, port_portU_self]

/-- A restart that is the port's one command: it waits while the port is DISABLED, and is done once it has left it (R113). -/
theorem portRun_restart (hc : (port d p).cmds = [x]) (hr : (port d p).restarting = false) (hcal : (port d p).cal = none)
    (hst : portCmdStatus d x.cmd = 0) (hop : x.cmd.opcode ≠ 0x32) :
    portRun p d = (let down := enable p (disablePort p 3 (cutRx p d))
      if lstate down p = 0 then portU p (fun x => { x with restarting := true }) down else portDone p x down) := by
  have hjobs := (sameJobs_restarted 3 hcal p).1
  rw [portRun_one hc, portTurn_one hc, portCmd_restarts hr hst hop]
  dsimp only
  generalize enable p (disablePort p 3 (cutRx p d)) = e at hjobs ⊢
  have hcmds : (port (portU p (fun x => { x with restarting := true }) e) p).cmds = [x] := by
    rw [port_portU_self]
    exact hjobs.trans hc
  have hre : (port (portU p (fun x => { x with restarting := true }) e) p).restarting = true := by rw [port_portU_self]
  have hls : lstate (portU p (fun x => { x with restarting := true }) e) p = lstate e p := rfl
  have hne : ({ port e p with restarting := true } : Port) ≠ {} := fun h => Bool.false_ne_true (congrArg Port.restarting h).symm
  rw [portTurn_one hcmds, portCmd_waits hre, hls, portDone, portU_portU hne rfl]
  rfl

/-- A reading of the counters that is the port's one command (R113). -/
theorem portRun_stats (hc : (port d p).cmds = [x]) (hr : (port d p).restarting = false) (hst : portCmdStatus d x.cmd = 0) (hop : x.cmd.opcode = 0x32) :
    portRun p d = portDone p x (dma x.cmd.fn (x.cmd.f 24 8) (ctrBytes d (pKey p 0x100) 32)
      (if x.cmd.f 17 1 = 1 then ctrClear (pKey p 0x100) 32 d else d)) := by
  rw [portRun_one hc, portTurn_one hc, portCmd_reads hr hst hop]
  exact portTurn_none (portDone_cmds _ _ _)

/-- A port that has noted a command as its last. -/
def cmdNoted (c : Cmd) (p : Nat) (d : Dev) : Dev := noteHeld c (portU p (fun x => { x with cmds := x.cmds ++ [hold d c] }) d)

theorem port_cmdNoted (c : Cmd) (p : Nat) (d : Dev) : port (cmdNoted c p d) p = { port d p with cmds := (port d p).cmds ++ [hold d c] } := by
  rw [cmdNoted, noteHeld, port_fnU, port_portU_self]

end Machine
end Sys2Proof

/-! SUPPORT. Calibration commands, measurements and entries (R139, R141, R144–R149). -/

namespace Sys2Proof.Machine
open Sys2Proof

variable {s : State} {d e : Dev} {p i k n : Nat} {c : Cmd} {x : Held}

/-! ### Completions leave the device's own registers -/

theorem sameMap_ite {q : Prop} [Decidable q] {a b : Dev} (ha : SameMap d a) (hb : SameMap d b) : SameMap d (if q then a else b) := by
  split <;> assumption

theorem sameMap_dma (f a : Nat) (bs : Bytes) (d : Dev) : SameMap d (dma f a bs d) := by
  unfold dma
  dsimp only
  split
  · exact sameMap_dmaRaw _ _ _ d
  · exact (sameMap_dmaRaw _ _ _ d).trans (sameMap_postEvent _ _ _ _ _)
  · exact sameMap_dmaRaw _ _ _ d

theorem sameMap_aqWrite (f : Nat) (b : Bytes) (d : Dev) : SameMap d (aqWrite f b d) := by
  have htell (g : Fn → Fn) (o : Out) (e : Dev) : SameMap e (emit o (fnU f g e)) := (sameMap_fnU f g e).trans (sameMap_emit o _)
  unfold aqWrite
  dsimp only
  generalize hd : (if bitR d (fnKey f 0x11C) 31 then _ else d) = e
  have hput : SameMap d e := hd ▸ sameMap_ite (sameMap_dma _ _ _ d) (.refl d)
  exact (hput.trans (htell _ _ e)).trans (sameMap_ite (sameMap_signalVec _ _ _) (.refl _))

theorem sameMap_queueU (f qt lq : Nat) (g : Queue → Queue) (d : Dev) : SameMap d (queueU f qt lq g d) := ⟨rfl, fun _ _ => rfl⟩

theorem sameMap_complete (c : Cmd) (status dw : Nat) (d : Dev) : SameMap d (complete c status dw d) := by
  unfold complete
  dsimp only
  split
  · exact sameMap_ite (sameMap_aqWrite _ _ d) (sameMap_fnU _ _ d)
  · exact (sameMap_dma _ _ _ d).trans ((sameMap_queueU _ _ _ _ _).trans ((sameMap_emit _ _).trans (sameMap_signalVec _ _ _)))

theorem sameMap_completeHeld (h : Held) (status dw : Nat) (d : Dev) : SameMap d (completeHeld h status dw d) := by
  unfold completeHeld
  dsimp only
  refine sameMap_ite ?_ (sameMap_ctrInc _ d)
  have hdone : SameMap d (complete h.cmd status dw (fnU h.cmd.fn (fun x => { x with aqOut := x.aqOut - 1 }) d)) :=
    (sameMap_fnU _ _ d).trans (sameMap_complete _ _ _ _)
  exact sameMap_ite (hdone.trans ((sameMap_fnU _ _ _).trans (sameMap_bitW_fnKey _ _ _ _ _))) hdone

/-! ### Taking a command (R144) -/

/-- The command at the front is served. -/
def calServe (h : Held) (fl : Nat) (d : Dev) : Dev :=
  if h.cmd.opcode = 0x38 then calUpdate h fl d
  else if h.cmd.opcode = 0x39 then calMeasure h d
  else calRead h d

theorem calTake_busy {fl : Nat} (h : calBusy d = true) : calTake c fl d = noteHeld c { d with calQ := d.calQ ++ [(hold d c, fl)] } := by
  have hbusy : calBusy (noteHeld c { d with calQ := d.calQ ++ [(hold d c, fl)] }) = true := h
  unfold calTake calNext
  exact loopN_fits fun _ => if_pos hbusy

theorem calTake_free {fl : Nat} (hq : d.calQ = []) (h : calBusy d = false) : calTake c fl d = calServe (hold d c) fl (noteHeld c { d with calQ := [] }) := by
  have hfree : calBusy (noteHeld c { d with calQ := [(hold d c, fl)] }) = false := h
  unfold calTake
  rw [hq, List.nil_append]
  unfold calNext
  refine (if_neg (by rw [hfree]; exact Bool.false_ne_true)).trans ?_
  rfl

/-! ### Updates (R145, R146) -/

theorem calUpdateStatus_noted (c c' : Cmd) (q : List (Held × Nat)) (d : Dev) : calUpdateStatus (noteHeld c' { d with calQ := q }) c = calUpdateStatus d c := rfl

theorem calUpdate_refused {fl : Nat} (h : calUpdateStatus d x.cmd ≠ 0) : calUpdate x fl d = completeHeld x (calUpdateStatus d x.cmd) 0 d := if_pos h

theorem posts_foldl {α : Type} {g : Dev → α → Dev} (hstep : ∀ d a, Posts d (g d a)) (l : List α) (d : Dev) : Posts d (l.foldl g d) :=
  foldl_keeps Posts.refl (fun h h' => h.trans h') hstep l d

theorem posts_calRegs (d : Dev) : Posts d (calRegs d) := by
  unfold calRegs
  refine Posts.trans ?_ (posts_foldl (fun d p => posts_calPortStat p d) _ _)
  split
  · exact (posts_bitW _ _ _ d).trans (posts_bitW _ _ _ _)
  · exact (posts_bitW _ _ _ d).trans (posts_bitW _ _ _ _)

theorem posts_plumbUpdate (g : Nat) (d : Dev) : Posts d (plumbUpdate g d) := by
  unfold plumbUpdate
  refine posts_ite (.refl d) ?_
  dsimp only
  generalize hd : (if (plumbReq d g).1 = fldR d (gKey g 0x44) 19 0 ∧ fldR d (gKey g 0x44) 29 24 = (plumbReq d g).2 then d else _) = e
  have hreq : Posts d e := hd ▸ posts_ite (.refl d) (posts_ite (posts_regW _ _ d) ((posts_regW _ _ d).trans (posts_postDev _ _ _)))
  exact hreq.trans ((posts_regW _ _ _).trans (posts_ite ((posts_bitW _ _ _ _).trans (posts_postDev _ _ _)) (posts_bitW _ _ _ _)))

theorem posts_plumbTouch (p : Nat) (d : Dev) : Posts d (plumbTouch p d) := posts_foldl (fun d _ => posts_ite (posts_plumbUpdate _ d) (.refl d)) _ d

/-- The flash sector a new table goes to. -/
def calSector (d : Dev) : Nat := match d.calSect.head?, d.cal with
  | some (some i), some e => if i = e then 1 else 0
  | _, _ => 0

theorem calSector_empty (h : d.calSect = [none, none]) : calSector d = 0 := by
  unfold calSector
  rw [h]
  rfl

/-- A new table is in effect, reported and completed. -/
def calReported (h : Held) (es : List Bytes) (old : Nat) (img : CalImg) (d : Dev) : Dev :=
  postDev 0x38 (leBytes 4 old ++ leBytes 4 img.version ++ leBytes 4 img.users.length)
    (completeHeld h 0 img.version ((es.map (u8 · 26)).foldl (fun d p => plumbTouch p d) (calRegs d)))

theorem reports_calReported (h : Held) (es : List Bytes) (old : Nat) (img : CalImg) (d : Dev) : Reports d (calReported h es old img d) :=
  ((posts_calRegs d).trans (posts_foldl (fun d p => posts_plumbTouch p d) _ _)).reports.trans <|
    (reports_completeHeld _ _ _ _).trans (posts_postDev _ _ _).reports

/-- The table written to flash. -/
def calStored (sect : Nat) (es : List Bytes) (img : CalImg) (d : Dev) : Dev :=
  { es.foldl (fun d e => calApply e d) d with cal := some img, calSect := setAt [none, none] sect (some img) }

theorem calUpdate_written (hst : calUpdateStatus d x.cmd = 0) (hn : x.cmd.f 16 1 ≠ 0) : ∃ old, calUpdate x 0 d =
    calReported x (calItems d x.cmd) old (calNew d (calItems d x.cmd)) (calStored (calSector d) (calItems d x.cmd) (calNew d (calItems d x.cmd)) d) := by
  unfold calUpdate
  dsimp only
  rw [if_neg (not_not_intro hst), if_neg hn, if_neg (not_not_intro rfl)]
  exact ⟨_, rfl⟩

theorem calUpdate_lost {fl : Nat} (hst : calUpdateStatus d x.cmd = 0) (hn : x.cmd.f 16 1 ≠ 0) (hf : fl ≠ 0) : ∃ b, calUpdate x fl d =
    completeHeld x 0x2C 0 (postDev 0x39 b (bitW 0xF00010 2 true d)) := by
  unfold calUpdate
  dsimp only
  rw [if_neg (not_not_intro hst), if_neg hn, if_pos hf]
  exact ⟨_, rfl⟩

theorem Reports.cal (h : Reports d e) : e.cal = d.cal := (congrArg Dev.cal h :)
theorem Reports.calSect (h : Reports d e) : e.calSect = d.calSect := (congrArg Dev.calSect h :)
theorem Reports.calRuns (h : Reports d e) : e.calRuns = d.calRuns := (congrArg Dev.calRuns h :)

/-- An update that is written makes the new table, in the flash sector that is free. -/
theorem calUpdate_written_facts (hst : calUpdateStatus d x.cmd = 0) (hn : x.cmd.f 16 1 ≠ 0) :
    (calUpdate x 0 d).cal = some (calNew d (calItems d x.cmd)) ∧ (calUpdate x 0 d).calSect = setAt [none, none] (calSector d) (calUpdate x 0 d).cal := by
  obtain ⟨old, hu⟩ := calUpdate_written hst hn
  have hrep := reports_calReported x (calItems d x.cmd) old (calNew d (calItems d x.cmd))
    (calStored (calSector d) (calItems d x.cmd) (calNew d (calItems d x.cmd)) d)
  rw [← hu] at hrep
  have hcal : (calUpdate x 0 d).cal = some (calNew d (calItems d x.cmd)) := hrep.cal
  rw [hcal]
  exact ⟨rfl, hrep.calSect⟩

/-- An update that fails in flash leaves the table as it was and says so. -/
theorem calUpdate_lost_facts {fl : Nat} (hst : calUpdateStatus d x.cmd = 0) (hn : x.cmd.f 16 1 ≠ 0) (hf : fl ≠ 0) :
    (calUpdate x fl d).cal = d.cal ∧ (calUpdate x fl d).calSect = d.calSect ∧ bitR (calUpdate x fl d) 0xF00010 2 = true := by
  obtain ⟨b, hu⟩ := calUpdate_lost hst hn hf
  have hrep : Reports d (calUpdate x fl d) := by
    rw [hu]
    exact ((posts_bitW _ _ _ d).trans (posts_postDev _ _ _)).reports.trans (reports_completeHeld _ _ _ _)
  refine ⟨hrep.cal, hrep.calSect, ?_⟩
  rw [hu, (sameMap_completeHeld _ _ _ _).bitR _ _ (by decide), postDev, (sameMap_postEvent _ _ _ _ _).bitR _ _ (by decide), bitR_bitW_self _ _ _ _ (by decide)]

/-! ### Measurements (R147–R149) -/

theorem calMeasureStatus_noted (c c' : Cmd) (q : List (Held × Nat)) (d : Dev) : calMeasureStatus (noteHeld c' { d with calQ := q }) c = calMeasureStatus d c := rfl

theorem calMeasure_refused (h : calMeasureStatus d x.cmd ≠ 0) : calMeasure x d = completeHeld x (calMeasureStatus d x.cmd) 0 d := if_pos h

/-- A measurement that begins. -/
def calBegun (x : Held) (d : Dev) : CalRun :=
  { held := x, kind := x.cmd.f 17 1, run := d.calRuns, count := x.cmd.f 18 2
    version := match d.cal with
      | some i => i.version
      | none => 0 }

theorem calMeasure_begins (h : calMeasureStatus d x.cmd = 0) (hn : x.cmd.f 18 2 ≠ 0) :
    calMeasure x d = portU (x.cmd.f 16 1) (fun y => { y with cal := some (calBegun x d) }) { d with calRuns := (d.calRuns + 1) % 2 ^ 32 } := by
  unfold calMeasure
  dsimp only
  rw [if_neg (not_not_intro h), if_neg hn]
  rfl

theorem calRead_gives (hfn : x.cmd.fn = 0) (hself : cmdSelf x.cmd ≠ none) (hres : reservedOk x.cmd [(24, 8)] = true) (hal : x.cmd.f 24 8 % 64 = 0) :
    calRead x d = completeHeld x 0 0 (dma x.cmd.fn (x.cmd.f 24 8) (match d.cal with | some i => calImage i | none => zeros 12352) d) := by
  have hst : firstStatus [(decide (x.cmd.fn ≠ 0) || (cmdSelf x.cmd).isNone, stNotPermitted),
      (!(reservedOk x.cmd [(24, 8)]) || decide (x.cmd.f 24 8 % 64 ≠ 0), stBadParam)] = 0 := by
    simp [firstStatus, hfn, hres, hal, hself]
  unfold calRead
  dsimp only
  rw [hst]
  exact if_neg (not_not_intro rfl)

theorem calFinish_none (h : (port d p).cal = none) : calFinish p d = d := by
  unfold calFinish
  rw [h]

theorem calFinish_runs {r : CalRun} (h : (port d p).cal = some r) (hs : r.sent < r.count) (hst : r.straddled = false) (hl : r.linkLost = false) :
    calFinish p d = d := by
  unfold calFinish
  rw [h]
  exact if_neg (by simp [hst, hl, hs])

theorem portU_congr {g g' : Port → Port} (h : g (port d p) = g' (port d p)) : portU p g d = portU p g' d := by
  have hports : Tbl.upd (fun _ => {}) d.ports p g = Tbl.upd (fun _ => {}) d.ports p g' := by
    unfold port at h
    unfold Tbl.upd
    rw [h]
  unfold portU
  rw [hports]

theorem posts_txString (p i : Nat) (d : Dev) : Posts d (txString p i d).2 := by
  unfold txString
  split
  · exact .refl d
  · exact posts_bitW _ _ _ d

theorem txString_out (p i : Nat) (d : Dev) : (txString p i d).2.out = d.out := by
  unfold txString
  split
  · rfl
  · exact bitW_out _ _ _ _

theorem lstate_txString (p i : Nat) (d : Dev) : lstate (txString p i d).2 p = lstate d p := by
  unfold txString
  split
  · rfl
  · refine fldR_bitW_ne ?_
    unfold pKey
    omega

/-- A measurement's frame has left. -/
def calSent (p : Nat) (r : CalRun) (t : Int) (entry : Bytes) (d : Dev) : Dev :=
  portU p (fun x => { x with
    busyUntil := now d + ceilDiv (84 * 8) (modeRate (modeAct d p))
    cal := some { r with sent := r.sent + 1, last := now d, out := r.out ++ [⟨r.sent, t, now d, entry⟩] } }) d

/-- The frame goes to the loop, or out. -/
def calEmitted (p : Nat) (f : Bytes) (d : Dev) : Dev :=
  if lstate d p = 6 then portU p (fun x => { x with looped := x.looped ++ [f] }) d else emit (.frame p f) d

theorem calFrameTx_lands {r : CalRun} {sub a : Nat} (hcal : (port s.dev p).cal = some r) (hsent : r.sent < r.count) (hbusy : (port s.dev p).busyUntil ≤ now s.dev)
    (hhold : (port s.dev p).hold = []) (hgap : r.sent = 0 ∨ r.last + 1000 ≤ now s.dev) (hup : mayTransmit s.dev p = true ∨ lstate s.dev p = 6) :
    Lands (.calFrameTx p sub a) s (calEmitted p (calFrame p r.run r.sent) (calSent p r
      (txStampQ (txString p (portString s.dev p) s.dev).2 p (repQ (txString p (portString s.dev p) s.dev).2 (portIsland p) (txString p (portString s.dev p) s.dev).1 sub) a)
      (entryOf (txString p (portString s.dev p) s.dev).2 p false) (txString p (portString s.dev p) s.dev).2)) := by
  have hfree : (decide ((port s.dev p).busyUntil ≤ now s.dev) && (port s.dev p).hold.isEmpty && (decide (r.sent = 0) || decide (r.last + 1000 ≤ now s.dev))) = true := by
    rcases hgap with h | h
    · simp [hbusy, hhold, h]
    · simp [hbusy, hhold, h]
  have hgo : ¬(r.count ≤ r.sent ∨ (decide ((port s.dev p).busyUntil ≤ now s.dev) && (port s.dev p).hold.isEmpty &&
      (decide (r.sent = 0) || decide (r.last + 1000 ≤ now s.dev))) = false ∨ (mayTransmit s.dev p = false ∧ lstate s.dev p ≠ 6)) := by
    rintro (h | h | ⟨hno, hl⟩)
    · omega
    · exact Bool.false_ne_true (h.symm.trans hfree)
    · rcases hup with h | h
      · exact Bool.false_ne_true (hno.symm.trans h)
      · exact hl h
  refine lands_of_lift (exec_calFrameTx p sub a s) ?_
  rw [hcal]
  refine (if_neg hgo).trans ?_
  generalize txString p (portString s.dev p) s.dev = y
  obtain ⟨m, e⟩ := y
  rfl

end Sys2Proof.Machine

/-! SUPPORT. Port and calibration commands are served (R113, R115, R139, R141, R144–R149). -/

namespace Sys2Proof.Machine
open Sys2Proof

variable {s : State} {d e : Dev} {p i k n : Nat} {c : Cmd} {x : Held}

/-- What a frame of a measurement leaves of its port. -/
theorem calEmitted_facts {r : CalRun} (f entry : Bytes) (t : Int) (hport : port e p = port d p) (hout : e.out = d.out) (hl : lstate e p = lstate d p)
    (hnow : now e = now d) (hr : r.out = []) {z : Dev} (hz : z = calEmitted p f (calSent p r t entry e)) :
    z.out = (if lstate d p = 6 then d.out else .frame p f :: d.out) ∧ (port z p).looped = (port d p).looped ++ (if lstate d p = 6 then [f] else []) ∧
    ∃ y, (port z p).cal = some y ∧ y.sent = r.sent + 1 ∧ y.last = now d ∧ (y.out.map fun o => o.seq) = [r.sent] ∧ y.lost = r.lost := by
  have hl' : lstate (calSent p r t entry e) p = lstate d p := hl
  unfold calEmitted at hz
  rw [hl'] at hz
  by_cases h6 : lstate d p = 6
  · rw [if_pos h6] at hz
    rw [hz, if_pos h6, if_pos h6, portU_out, port_portU_self, calSent, portU_out, port_portU_self, hport, hout, hnow, hr]
    exact ⟨rfl, rfl, _, rfl, rfl, rfl, rfl, rfl⟩
  · rw [if_neg h6] at hz
    rw [hz, if_neg h6, if_neg h6, port_emit, calSent, port_portU_self, hport, hnow, hr]
    refine ⟨?_, (List.append_nil _).symm, _, rfl, rfl, rfl, rfl, rfl⟩
    rw [← hout]
    rfl

/-- The device that has noted a calibration command as the one it serves. -/
def calNoted (c : Cmd) (d : Dev) : Dev := noteHeld c { d with calQ := [] }

theorem calServe_measure {fl : Nat} (h : x.cmd.opcode = 0x39) : calServe x fl d = calMeasure x d := by
  unfold calServe
  rw [if_neg (by omega), if_pos h]

theorem calServe_read {fl : Nat} (h : x.cmd.opcode = 0x3A) : calServe x fl d = calRead x d := by
  unfold calServe
  rw [if_neg (by omega), if_neg (by omega)]

theorem now_posts (h : Posts d e) : now e = now d := by
  unfold Posts at h
  rw [h]
  rfl

/-- The entry a port used of a slot until now. -/
def entryWas (d : Dev) (p : Nat) (tx : Bool) : Option (Nat × Nat × Bytes) :=
  ((if tx then (port d p).oldTx else (port d p).oldRx).find? fun e => decide (e.1 = calSlot (modeAct d p) (fecAct d p))).map
    fun e => (calSlot (modeAct d p) (fecAct d p), now d, e.2)

/-- A port uses its new entries of one direction. -/
def entriesTaken (tx : Bool) (was : Option (Nat × Nat × Bytes)) (x : Port) : Port :=
  if tx then { x with oldTx := [], prevTx := was.or x.prevTx } else { x with oldRx := [], prevRx := was.or x.prevRx }

theorem calEntryApply_lands {tx : Bool} (hold : (if tx then (port s.dev p).oldTx else (port s.dev p).oldRx) ≠ [])
    (hbusy : tx = true → (port s.dev p).busyUntil ≤ now s.dev) (hcal : (port s.dev p).cal = none) :
    Lands (.calEntryApply p tx) s (calPortStat p (portU p (entriesTaken tx (entryWas s.dev p tx)) s.dev)) := by
  refine lands_of_lift (exec_calEntryApply p tx s) ((if_neg ?_).trans ?_)
  · rintro (h | ⟨h, hlt⟩)
    · exact hold (List.isEmpty_iff.mp h)
    · exact absurd (hbusy h) (Nat.not_le.mpr hlt)
  · dsimp only
    rw [portU_congr (g' := entriesTaken tx (entryWas s.dev p tx))]
    · refine calFinish_none ?_
      rw [port_calPortStat, port_portU_self, entriesTaken]
      cases tx <;> exact hcal
    · rw [hcal]
      cases tx with
      | true => exact congrArg (fun v => { port s.dev p with oldTx := [], prevTx := (entryWas s.dev p true).or (port s.dev p).prevTx, cal := v }) hcal.symm
      | false => exact congrArg (fun v => { port s.dev p with oldRx := [], prevRx := (entryWas s.dev p false).or (port s.dev p).prevRx, cal := v }) hcal.symm

/-- Settles O18: the front command of a port, and of calibration, is one branch of its turn. -/
theorem portAndCalibrationCommandsAreServed : Obligations.PortAndCalibrationCommandsAreServed := by
  unfold Obligations.PortAndCalibrationCommandsAreServed
  refine ⟨fun s c n => ?_, fun s c n p sub a tx r => ?_⟩
  · intro d p note isl
    subst isl note p d
    refine ⟨?_, fun hst hop hcmds hr hcal => ?_, ?_, fun hst hop hcmds hr => ?_, fun hany => ?_, fun hany => ?_, fun h hjobs hfret hports => ?_⟩
    · exact defers_of_lift (exec_portLinkRestart c s) rfl
    · intro down
      subst down
      refine lands_of_lift (exec_portLinkRestart c s) ((checked_ok _ hst).trans ?_)
      have hport := port_cmdNoted c (c.f 16 1) s.dev
      refine (portRun_restart (d := cmdNoted c (c.f 16 1) s.dev) (x := hold s.dev c) ?_ ?_ ?_ hst hop).trans rfl
      · rw [hport, hcmds]
        rfl
      · rw [hport]
        exact hr
      · rw [hport]
        exact hcal
    · exact defers_of_lift (exec_portStats c s) rfl
    · refine lands_of_lift (exec_portStats c s) ((checked_ok _ hst).trans ?_)
      have hport := port_cmdNoted c (c.f 16 1) s.dev
      refine (portRun_stats (d := cmdNoted c (c.f 16 1) s.dev) (x := hold s.dev c) ?_ ?_ hst hop).trans rfl
      · rw [hport, hcmds]
        rfl
      · rw [hport]
        exact hr
    · refine defers_of_checked (exec_portIslandReset c s) rfl ?_
      dsimp only
      rw [hany]
      rfl
    · refine defers_of_checked (exec_portIslandReset c s) rfl ?_
      dsimp only
      rw [hany]
      rfl
    · refine lands_of_lift (exec_islandReady n s) ?_
      have hready : (fretValid s.dev n && (islandUsers s.dev n).all fun p => decide (modeCfg s.dev p = 0) || subsumed s.dev p || decide (lstate s.dev p ≠ 0)) = true := by
        rw [hfret, Bool.true_and, List.all_eq_true]
        intro q hq
        rcases hports q hq with h | h | h
        · simp [h]
        · simp [h]
        · simp [h]
      have htake : takeFirst (fun j : Nat × Held => decide (j.1 = n)) [(n, h)] = some ((n, h), []) := takeFirst_head (decide_eq_true rfl)
      dsimp only
      rw [hjobs, htake, hready]
      rfl
  · intro d note
    subst note d
    refine ⟨fun hq hbusy => ?_, fun hq hbusy hop hst => ?_, fun hq hbusy hop hst hn hf => ?_, fun hq hbusy hop hst hn hf => ?_, fun hq hbusy hop hst => ?_,
      fun hq hbusy hop hst hn => ?_, fun hq hbusy hop hfn hself hres hal => ?_, fun hold => ?_, fun hold hbusy hcal => ?_,
      fun hcal hsent hbusy hhold hgap hout hup => ?_, fun o rest hcal hout hlost hsent hstr hlink => ?_⟩
    · exact lands_of_lift (exec_calUpdate c n s) (calTake_busy hbusy)
    · refine lands_of_lift (exec_calUpdate c n s) ((calTake_free hq hbusy).trans ((if_pos hop).trans ?_))
      exact calUpdate_refused hst
    · have hlands : Lands (.calUpdate c n) s (calUpdate (hold s.dev c) 0 (calNoted c s.dev)) := by
        refine lands_of_lift (exec_calUpdate c n s) ((calTake_free hq hbusy).trans ((if_pos hop).trans ?_))
        rw [hf]
        rfl
      obtain ⟨hcal, hsect⟩ := calUpdate_written_facts (d := calNoted c s.dev) (x := hold s.dev c) ((calUpdateStatus_noted c c [] s.dev).trans hst) hn
      refine runs_of_lands hlands ?_
      rw [landed_cal, landed_calSect]
      refine ⟨hcal, fun hempty => ?_⟩
      rw [hsect, calSector_empty (d := calNoted c s.dev) hempty]
      rfl
    · have hlands : Lands (.calUpdate c n) s (calUpdate (hold s.dev c) (n % 3) (calNoted c s.dev)) :=
        lands_of_lift (exec_calUpdate c n s) ((calTake_free hq hbusy).trans (if_pos hop))
      obtain ⟨hcal, hsect, h2⟩ := calUpdate_lost_facts (d := calNoted c s.dev) (x := hold s.dev c) ((calUpdateStatus_noted c c [] s.dev).trans hst) hn hf
      refine runs_of_lands hlands ?_
      rw [landed_cal, landed_calSect, bitR_landed]
      exact ⟨hcal, hsect, h2⟩
    · refine lands_of_lift (exec_calMeasure c s) ((calTake_free hq hbusy).trans ((calServe_measure hop).trans ?_))
      exact calMeasure_refused hst
    · have hlands : Lands (.calMeasure c) s (calMeasure (hold s.dev c) (calNoted c s.dev)) :=
        lands_of_lift (exec_calMeasure c s) ((calTake_free hq hbusy).trans (calServe_measure hop))
      rw [calMeasure_begins ((calMeasureStatus_noted c c [] s.dev).trans hst) hn] at hlands
      refine runs_of_lands hlands ?_
      rw [port_landed, landed_calRuns, landed_cal]
      refine ⟨⟨calBegun (hold s.dev c) (calNoted c s.dev), ?_, rfl, rfl, rfl, rfl⟩, rfl, rfl⟩
      exact congrArg Port.cal (port_portU_self _ _ _)
    · refine lands_of_lift (exec_calRead c s) ((calTake_free hq hbusy).trans ((calServe_read hop).trans ?_))
      exact calRead_gives hfn hself hres hal
    · exact lands_of_lift (exec_calEntryApply p tx s) (if_pos (.inl (by rw [hold]; rfl)))
    · intro slot was
      subst was slot
      exact calEntryApply_lands hold hbusy hcal
    · refine runs_of_lands (calFrameTx_lands (sub := sub) (a := a) hcal hsent hbusy hhold hgap hup) ?_
      have hposts := posts_txString p (portString s.dev p) s.dev
      obtain ⟨hout', hloop, hrun⟩ := calEmitted_facts (calFrame p r.run r.sent) _ _ (hposts.port p) (txString_out p _ _) (lstate_txString p _ _) (now_posts hposts) hout rfl
      rw [port_landed, landed_out]
      exact ⟨hout', hloop, hrun⟩
    · refine lands_of_lift (exec_calFrameLost p s) ?_
      rw [hcal]
      dsimp only
      rw [hout, takeFirst_head hlost]
      exact calFinish_runs (r := { r with out := rest, lost := r.lost + 1 }) (congrArg Port.cal (port_portU_self _ _ _)) hsent hstr hlink

end Sys2Proof.Machine

/-! SUPPORT. What loading gate images, bringing up the memory and following the drives leave of the boot (R519, R543, R585). -/

namespace Sys2Proof.Machine
open Sys2Proof

variable {s : State} {d e f : Dev} {i k n : Nat}

/-- Footing, main power and the running firmware's standing are as they were. -/
structure SameBoot (d e : Dev) : Prop where
  foot : e.foot = d.foot
  power : e.power = d.power
  untested : e.untested = d.untested

theorem SameBoot.refl (d : Dev) : SameBoot d d := ⟨rfl, rfl, rfl⟩

theorem SameBoot.trans (h : SameBoot d e) (h' : SameBoot e f) : SameBoot d f :=
  ⟨h'.foot.trans h.foot, h'.power.trans h.power, h'.untested.trans h.untested⟩

theorem Reports.sameBoot (h : Reports d e) : SameBoot d e := ⟨h.foot, (congrArg Dev.power h :), (congrArg Dev.untested h :)⟩
theorem Posts.sameBoot (h : Posts d e) : SameBoot d e := h.reports.sameBoot
theorem Logs.sameBoot (h : Logs d e) : SameBoot d e := ⟨h.foot, h.power, (congrArg Dev.untested h :)⟩

theorem sameBoot_ite {q : Prop} [Decidable q] {a b : Dev} (ha : SameBoot d a) (hb : SameBoot d b) : SameBoot d (if q then a else b) := by
  split <;> assumption

theorem sameBoot_foldl {α : Type} {g : Dev → α → Dev} (hstep : ∀ d a, SameBoot d (g d a)) (l : List α) (d : Dev) : SameBoot d (l.foldl g d) :=
  foldl_keeps SameBoot.refl (fun h h' => h.trans h') hstep l d

theorem sameBoot_loopN {g : Nat → Dev → Dev} (hstep : ∀ i d, SameBoot d (g i d)) (n : Nat) (d : Dev) : SameBoot d (loopN n g d) :=
  sameBoot_foldl (fun d i => hstep i d) _ d

theorem sameBoot_cluU (c : Nat) (g : GClu → GClu) (d : Dev) : SameBoot d (cluU c g d) := ⟨rfl, rfl, rfl⟩
theorem sameBoot_ledU (g : Ledger → Ledger) (d : Dev) : SameBoot d (ledU g d) := ⟨rfl, rfl, rfl⟩
theorem sameBoot_dramU (g : Dram → Dram) (d : Dev) : SameBoot d (dramU g d) := ⟨rfl, rfl, rfl⟩
theorem sameBoot_regW (k : Nat) (v : Word) (d : Dev) : SameBoot d (regW k v d) := ⟨rfl, rfl, rfl⟩
theorem sameBoot_emit (o : Out) (d : Dev) : SameBoot d (emit o d) := ⟨rfl, rfl, rfl⟩
theorem sameBoot_wrt (sp a : Nat) (bs : Bytes) (d : Dev) : SameBoot d (wrt sp a bs d) := ⟨rfl, rfl, rfl⟩
theorem sameBoot_fnU (x : Nat) (g : Fn → Fn) (d : Dev) : SameBoot d (fnU x g d) := ⟨rfl, rfl, rfl⟩
theorem sameBoot_fresh (d : Dev) : SameBoot d (fresh d).2 := ⟨rfl, rfl, rfl⟩
theorem sameBoot_ctrlU (pf : Nat) (g : Ctrl → Ctrl) (d : Dev) : SameBoot d (ctrlU pf g d) := ⟨rfl, rfl, rfl⟩

/-! ### Gate images (R543) -/

theorem sameBoot_startThread (c t : Nat) (d : Dev) : SameBoot d (startThread c t d) := by
  unfold startThread
  dsimp only
  split
  · exact sameBoot_cluU _ _ d
  · exact sameBoot_cluU _ _ d

theorem sameBoot_restartCore (c k : Nat) (clear : Bool) (d : Dev) : SameBoot d (restartCore c k clear d) := by
  unfold restartCore
  dsimp only
  refine SameBoot.trans ?_ (sameBoot_loopN (fun i d => (sameBoot_cluU _ _ d).trans (sameBoot_startThread _ _ _)) 8 _)
  refine SameBoot.trans ?_ (sameBoot_cluU _ _ _)
  exact sameBoot_ite ⟨rfl, rfl, rfl⟩ ⟨rfl, rfl, rfl⟩

theorem sameBoot_loadCluster (c : Nat) (entries : Option (List Nat)) (d : Dev) : SameBoot d (loadCluster c entries d) := by
  unfold loadCluster
  dsimp only
  refine SameBoot.trans ?_ (sameBoot_loopN (fun k d => sameBoot_restartCore c k false d) 8 _)
  exact sameBoot_ite ⟨rfl, rfl, rfl⟩ ⟨rfl, rfl, rfl⟩

/-- A section of a gate image is put where it belongs. -/
def putSection (c ty mask off : Nat) (bs : Bytes) (d : Dev) : Dev :=
  if ty = 2 then wrt (spc d (clusterSpace c)) off bs d
  else loopN 8 (fun k d => if bitOf mask k then wrt (spc d (if ty = 0 then instrSpace c k else coreSpace c k)) off bs d else d) d

theorem sameBoot_putSection (c ty mask off : Nat) (bs : Bytes) (d : Dev) : SameBoot d (putSection c ty mask off bs d) :=
  sameBoot_ite (sameBoot_wrt _ _ _ d) (sameBoot_loopN (fun _ d => sameBoot_ite (sameBoot_wrt _ _ _ d) (.refl d)) 8 d)

theorem sameBoot_gateSections (c : Nat) (zeroed : Bool) (b : Bytes) (d : Dev) : SameBoot d (gateSections c zeroed b d) := by
  have hfold (l : List (Nat × Nat × Nat × Nat)) (a : Nat × Dev) : SameBoot a.2 (l.foldl (fun (a : Nat × Dev) s => (a.1 + s.2.2.2,
      if s.2.2.2 = 0 then a.2
      else putSection c s.1 s.2.1 s.2.2.1 (if zeroed then zeros s.2.2.2 else slice b a.1 s.2.2.2) a.2)) a).2 := by
    induction l generalizing a with
    | nil => exact .refl _
    | cons x l ih =>
      refine SameBoot.trans ?_ (ih _)
      exact sameBoot_ite (.refl _) (sameBoot_putSection _ _ _ _ _ _)
  exact hfold _ (512, d)

theorem sameBoot_noteComps (l : List Comp) (d : Dev) : SameBoot d (noteComps l d) := ⟨rfl, rfl, rfl⟩

theorem sameBoot_bootGate (tagBad : List Nat) (c : Nat) (d : Dev) : SameBoot d (bootGate tagBad c d) := by
  unfold bootGate
  split
  · exact sameBoot_loadCluster _ _ d
  · split
    · exact sameBoot_ite ((sameBoot_loadCluster _ _ d).trans (posts_postDev _ _ _).sameBoot)
        (((sameBoot_gateSections _ _ _ d).trans (sameBoot_loadCluster _ _ _)).trans (sameBoot_noteComps _ _))
    · exact sameBoot_loadCluster _ _ d

theorem sameBoot_bootGates (tagBad : List Nat) (d : Dev) : SameBoot d (bootGates tagBad d) :=
  sameBoot_loopN (fun _ d => sameBoot_ite (sameBoot_loadCluster _ _ d) (sameBoot_bootGate _ _ d)) _ d

theorem sameBoot_bootPins (code : Nat) (halt : Bool) (d : Dev) : SameBoot d (bootPins code halt d) :=
  (sameBoot_foldl (fun _ _ => sameBoot_emit _ _) _ d).trans (sameBoot_emit _ _)

/-! ### Drives (R438, R440) -/

theorem sameBoot_cqPut (pf y : Nat) (b : Bytes) (d : Dev) : SameBoot d (cqPut pf y b d) := by
  unfold cqPut
  split
  · exact .refl d
  · refine sameBoot_ite ?_ (sameBoot_ctrlU _ _ d)
    have hput (v : Option NCq) (o : Out) (a : Nat) (bs : Bytes) : SameBoot d (ncqW pf y v (emit o (dma pf a bs d))) :=
      (reports_dma pf a bs d).sameBoot.trans <| (sameBoot_emit o _).trans <| sameBoot_ctrlU _ _ _
    exact sameBoot_ite ((hput _ _ _ _).trans (sameBoot_ite (.refl _) (posts_signalVec _ _ _).sameBoot)) (hput _ _ _ _)

theorem sameBoot_nvmeEnd (pf : Nat) (q : NCmd) (dw st : Nat) (d : Dev) : SameBoot d (nvmeEnd pf q dw st d) := by
  have hend (p p' : Prop) [Decidable p] [Decidable p'] (g g' : Ctrl → Ctrl) (t : Nat) {e : Dev} (h : SameBoot d e) :
      SameBoot d (if p then (if p' then ctrlU pf g e else ctrlU pf g' (ctrlU pf g e))
        else ledU (fun l => { l with ioSince := t }) (if p' then ctrlU pf g e else ctrlU pf g' (ctrlU pf g e))) := by
    have hlog : SameBoot d (if p' then ctrlU pf g e else ctrlU pf g' (ctrlU pf g e)) :=
      h.trans (sameBoot_ite (sameBoot_ctrlU _ _ _) ((sameBoot_ctrlU _ _ _).trans (sameBoot_ctrlU _ _ _)))
    exact sameBoot_ite hlog (hlog.trans (sameBoot_ledU _ _))
  unfold nvmeEnd
  cases nsq d pf q.sq with
  | none => exact hend _ _ _ _ _ (.refl d)
  | some sq => exact hend _ _ _ _ _ (sameBoot_cqPut _ _ _ d)

theorem sameBoot_pairLost (p : Nat) (d : Dev) : SameBoot d (pairLost p d) :=
  sameBoot_foldl (fun d pf => (sameBoot_ctrlU pf _ d).trans
    (sameBoot_foldl (fun d _ => SameBoot.trans (sameBoot_ledU _ d) (sameBoot_nvmeEnd _ _ _ _ _)) _ _)) _ d

theorem sameBoot_drvWrite (m l : Nat) (bs : Bytes) (d : Dev) : SameBoot d (drvWrite m l bs d) := ⟨rfl, rfl, rfl⟩

theorem sameBoot_writeLabel (m : Nat) (d : Dev) : SameBoot d (writeLabel m d) := (sameBoot_drvWrite _ _ _ d).trans (sameBoot_drvWrite _ _ _ _)

theorem sameBoot_drvState (m new cause : Nat) (d : Dev) : SameBoot d (drvState m new cause d) := by
  have htell (p p' p'' : Prop) [Decidable p] [Decidable p'] [Decidable p''] (o : Out) (g : Ledger → Ledger) (a b b' : Bytes) :
      SameBoot d (if p' then postDev 0x65 b (postDev 0xC8 a (if p then emit o (ledU g d) else ledU g d))
        else if p'' then postDev 0x65 b' (postDev 0xC8 a (if p then emit o (ledU g d) else ledU g d))
        else postDev 0xC8 a (if p then emit o (ledU g d) else ledU g d)) := by
    have hchange : SameBoot d (postDev 0xC8 a (if p then emit o (ledU g d) else ledU g d)) :=
      (sameBoot_ledU g d).trans ((sameBoot_ite (sameBoot_emit o _) (.refl _)).trans (posts_postDev _ _ _).sameBoot)
    exact sameBoot_ite (hchange.trans (posts_postDev _ _ _).sameBoot)
      (sameBoot_ite (hchange.trans (posts_postDev _ _ _).sameBoot) hchange)
  exact htell _ _ _ _ _ _ _ _

theorem sameBoot_nextEpoch (p : Nat) (d : Dev) : SameBoot d (nextEpoch p d) :=
  (sameBoot_ledU _ d).trans (sameBoot_foldl (fun _ _ => sameBoot_writeLabel _ _) _ _)

theorem sameBoot_leavePair (m new cause : Nat) (d : Dev) : SameBoot d (leavePair pairLost m new cause d) := by
  have hleft : SameBoot d (nextEpoch (m / 2) (drvState m new cause d)) := (sameBoot_drvState _ _ _ d).trans (sameBoot_nextEpoch _ _)
  unfold leavePair
  dsimp only
  generalize nextEpoch (m / 2) (drvState m new cause d) = e at hleft ⊢
  have hmate : SameBoot d (if (drvMember d m && decide ((drv e (partner m)).st = 6)) = true then drvState (partner m) 8 2 e else e) :=
    hleft.trans (sameBoot_ite (sameBoot_drvState _ _ _ e) (.refl e))
  generalize (if (drvMember d m && decide ((drv e (partner m)).st = 6)) = true then drvState (partner m) 8 2 e else e) = e' at hmate ⊢
  exact hmate.trans (sameBoot_ite ((posts_postDev _ _ _).sameBoot.trans (sameBoot_pairLost _ _)) (.refl e'))

theorem sameBoot_drvFollow (m cause : Nat) (d : Dev) : SameBoot d (drvFollow m cause d) := by
  unfold drvFollow drvLeave
  exact sameBoot_ite (sameBoot_ite (.refl d) (sameBoot_ite (sameBoot_leavePair _ _ _ d) (sameBoot_drvState _ _ _ d)))
    (sameBoot_ite (sameBoot_drvState _ _ _ d) (.refl d))

/-! ### Memory (R447, R450) -/

theorem sameBoot_dchU (m : Nat) (g : DCh → DCh) (d : Dev) : SameBoot d (dchU m g d) := by
  unfold dchU
  dsimp only
  refine SameBoot.trans ?_ (sameBoot_regW _ _ _)
  refine SameBoot.trans ?_ (sameBoot_dramU _ _)
  exact sameBoot_ite (.refl d) ⟨rfl, rfl, rfl⟩

theorem sameBoot_placeRegions (d : Dev) : SameBoot d (placeRegions d) :=
  (sameBoot_dramU _ d).trans (sameBoot_foldl (fun _ _ => sameBoot_regW _ _ _) _ _)

theorem sameBoot_dramBoot (tr : List ChTrain) (d : Dev) : SameBoot d (dramBoot tr d) := by
  unfold dramBoot
  extract_lets present get usable like ref same inS spareOf cause slots quick trained blank d1 d2 stored bad d3 c mask m d4 d5 d6 d7
  have h1 : SameBoot d d1 := sameBoot_dramU _ d
  have h2 : SameBoot d1 d2 := sameBoot_foldl (fun _ _ => sameBoot_dchU _ _ _) _ _
  have h3 : SameBoot d2 d3 := sameBoot_dramU _ _
  have h4 : SameBoot d3 d4 := sameBoot_regW _ _ _
  have h5 : SameBoot d4 d5 := sameBoot_placeRegions _
  have h6 : SameBoot d5 d6 := sameBoot_foldl (fun _ _ => (posts_postDev _ _ _).sameBoot) _ _
  have h7 : SameBoot d6 d7 := sameBoot_ite ((sameBoot_fresh d6).trans (posts_postDev _ _ _).sameBoot) (.refl d6)
  have hall := (((((h1.trans h2).trans h3).trans h4).trans h5).trans h6).trans h7
  exact hall.trans (sameBoot_ite (sameBoot_loopN (fun _ d => (logs_logErr _ _ _ _ d).sameBoot) 7 d7) (.refl d7))

end Sys2Proof.Machine

/-! SUPPORT. Footing boots, recovers and brings up the device (R519, R532, R537, R538, R544, R548, R584, R585). -/

namespace Sys2Proof.Machine
open Sys2Proof

variable {s : State} {d e f : Dev} {i k n : Nat}

/-! ### The boot (R519, R532, R544) -/

theorem sameBoot_setCal (v : Option CalImg) (w : List (Option CalImg)) (d : Dev) : SameBoot d { d with cal := v, calSect := w } := ⟨rfl, rfl, rfl⟩
theorem sameBoot_noCal (d : Dev) : SameBoot d { d with cal := none } := ⟨rfl, rfl, rfl⟩
theorem sameBoot_setComps (l : List Comp) (d : Dev) : SameBoot d { d with comps := l } := ⟨rfl, rfl, rfl⟩

/-- The calibration flash holds no valid table. -/
def calMissing (d : Dev) : Dev :=
  postDev 0x39 (leBytes 1 ((fresh d).1 % 2) ++ leBytes 1 2) (bitW 0xF00010 2 true (calRegs { (fresh d).2 with cal := none }))

theorem sameBoot_calMissing (d : Dev) : SameBoot d (calMissing d) :=
  (sameBoot_fresh d).trans <| (sameBoot_noCal _).trans <| ((posts_calRegs _).trans ((posts_bitW _ _ _ _).trans (posts_postDev _ _ _))).sameBoot

theorem sameBoot_calBoot (bad : List Nat) (d : Dev) : SameBoot d (calBoot bad d) := by
  have htake (m : Nat) (img : CalImg) : SameBoot d (calRegs { d with cal := some img, calSect := setAt [none, none] m (some img) }) :=
    (sameBoot_setCal _ _ d).trans (posts_calRegs _).sameBoot
  unfold calBoot
  dsimp only
  split
  · exact sameBoot_ite (htake _ _) (htake _ _)
  · exact htake _ _
  · exact htake _ _
  · exact sameBoot_calMissing d

/-- Footing runs the components `cs`. -/
def nowRunning (cs : List FwComp) (u : Bool) (d : Dev) : Dev :=
  footU (fun x => { x with boot := .running, running := cs, abiMin := ((testedEntry cs).getD (0, 0)).1, abiMax := ((testedEntry cs).getD (0, 0)).2 })
    { d with untested := u }

/-- The components and the gate images are measured and loaded. -/
def gatesLoaded (l : List Comp) (tagBad : List Nat) (d : Dev) : Dev := bootGates tagBad (noteComps l { d with comps := [] })

theorem handover_eq (cs : List FwComp) (u : Bool) (tagBad : List Nat) (d : Dev) : ∃ l l', handover cs u tagBad d =
    bootPins 0 false { gatesLoaded l tagBad (nowRunning cs u d) with comps := l' } := ⟨_, _, rfl⟩

/-- What handing over to the components `cs` leaves of footing. -/
theorem handover_facts (cs : List FwComp) (u : Bool) (tagBad : List Nat) (d : Dev) :
    (handover cs u tagBad d).foot = (nowRunning cs u d).foot ∧ (handover cs u tagBad d).untested = u := by
  obtain ⟨l, l', he⟩ := handover_eq cs u tagBad d
  have hgates : SameBoot (nowRunning cs u d) (gatesLoaded l tagBad (nowRunning cs u d)) :=
    (sameBoot_setComps [] _).trans ((sameBoot_noteComps l _).trans (sameBoot_bootGates tagBad _))
  generalize gatesLoaded l tagBad (nowRunning cs u d) = e at hgates he
  obtain ⟨hfoot, -, hun⟩ := hgates.trans ((sameBoot_setComps l' e).trans (sameBoot_bootPins 0 false _))
  rw [he]
  exact ⟨hfoot, hun⟩

/-- A candidate slot that stands and fails no check is the one that loads (R532). -/
theorem trySlots_first {tagBad rest : List Nat} {r : SlotRec} (hrec : (slot d i).rec_ = some r) (hst : r.st = 1) (hc : slotCause d tagBad i r = none) :
    trySlots tagBad (i :: rest) [] d = (some i, [], d) := by
  unfold trySlots
  rw [hrec]
  dsimp only
  rw [if_neg (by simp [hst]), if_neg (by simp [hst]), hc]

/-- Footing notes the slot it runs. -/
def slotChosen (i : Nat) (d : Dev) : Dev := footU (fun x => { x with runSlot := i, fallback := false, fbCause := 0 }) d

theorem bootSlot_first {tagBad rest : List Nat} {recovery : Bytes} {r : SlotRec} (hlc : d.foot.lifecycle ≠ 2) (hsrc : d.foot.src = 0)
    (hcand : candidates d = i :: rest) (hrec : (slot d i).rec_ = some r) (hst : r.st = 1) (hc : slotCause d tagBad i r = none)
    (ht : (testedEntry (slot d i).comps).isSome = true) :
    bootSlot true tagBad recovery d = handover (slot d i).comps false tagBad (slotChosen i d) := by
  have hnone : (testedEntry (slot d i).comps).isNone = false := by
    rw [← Option.not_isSome, ht]
    rfl
  unfold bootSlot
  rw [if_neg hlc, if_neg (by decide), if_neg (by simp [hsrc]), hcand, trySlots_first hrec hst hc]
  dsimp only
  rw [hnone, if_neg (by simp)]
  rfl

theorem bootSlot_flashFails {tagBad : List Nat} {recovery : Bytes} (hlc : d.foot.lifecycle ≠ 2) : bootSlot false tagBad recovery d = halt 3 d :=
  (if_neg hlc).trans (if_pos rfl)

theorem halt_foot (code : Nat) (d : Dev) : (halt code d).foot = { d.foot with boot := .halted code } := (sameBoot_bootPins _ _ _).foot

theorem bootPins_foot (code : Nat) (h : Bool) (d : Dev) : (bootPins code h d).foot = d.foot := (sameBoot_bootPins _ _ _).foot

theorem bootPins_dbg (code : Nat) (h : Bool) (d : Dev) : (bootPins code h d).dbgPort = d.dbgPort ∧ (bootPins code h d).dbgCores = d.dbgCores := by
  obtain ⟨o, ho⟩ := bootPins_eq code h d
  rw [ho]
  exact ⟨rfl, rfl⟩

/-- A boot whose self-tests and fuses are good, once the calibration is read and the life cycle advanced. -/
def selfTested (src : Nat) (calBad : List Nat) (d : Dev) : Dev :=
  footU (fun x => { x with lifecycle := x.lcNext.getD x.lifecycle, lcNext := none })
    (calBoot calBad (footU (fun x => { x with src := src % 4, boots := (x.boots + 1) % 2 ^ 32 }) d))

theorem selfTested_foot (src : Nat) (calBad : List Nat) (d : Dev) : (selfTested src calBad d).foot = { d.foot with
    src := src % 4, boots := (d.foot.boots + 1) % 2 ^ 32, lifecycle := d.foot.lcNext.getD d.foot.lifecycle, lcNext := none } := by
  rw [selfTested, footU_foot, (sameBoot_calBoot _ _).foot]
  rfl

/-- What debug access the life cycle allows. -/
def debugScoped (d : Dev) : Dev :=
  { d with dbgPort := bitOf (if d.foot.lifecycle = 1 then tokenScope d else 3) 0, dbgCores := bitOf (if d.foot.lifecycle = 1 then tokenScope d else 3) 1 }

theorem coldBoot_lands {src : Nat} {tagBad calBad : List Nat} {recovery : Bytes} {flash : Bool} (h : s.dev.foot.boot = .held) :
    Lands (.coldBoot src true true true flash tagBad recovery calBad) s
      (if 2 < (selfTested src calBad s.dev).foot.lifecycle then halt 10 (selfTested src calBad s.dev)
       else if (selfTested src calBad s.dev).foot.pg then bootSlot flash tagBad recovery (debugScoped (selfTested src calBad s.dev))
       else bootPins 0 false (footU (fun x => { x with boot := .waitPg }) (debugScoped (selfTested src calBad s.dev)))) :=
  lands_of_lift (exec_coldBoot src true true true flash tagBad recovery calBad s) (if_neg (not_not_intro h))

/-! ### Recovery (R537, R538) -/

theorem recoveryTake_refused {b : Bytes} {flash : Bool} {tagBad : List Nat} {x : Nat} (h : carrierRefusal d b = some x) :
    recoveryTake b flash tagBad d = footU (fun y => { y with refused := y.refused + 1, lastRefusal := some x }) d := by
  unfold recoveryTake
  rw [h]

/-- The slot a carrier is bound to. -/
def recoverySlot (d : Dev) : Nat := if slotSeq d 1 < slotSeq d 0 then 1 else 0

/-- A carrier bound to its slot. -/
def carrierBound (b : Bytes) (d : Dev) : Dev :=
  let e := slotU (recoverySlot d) (fun _ => {}) d
  slotU (recoverySlot d) (fun _ => boundSlot (recoverySlot d) (newRec e 1 (nextSlotSeq e) (u8 b 7) (le b 12 4) true (carrierComps b)) (carrierComps b)) e

/-- The slot a carrier was bound to is the one footing is to run. -/
def carrierChosen (b : Bytes) (d : Dev) : Dev := footU (fun y => { y with runSlot := recoverySlot d, recovered := true }) (carrierBound b d)

theorem recoveryTake_runs {b : Bytes} {flash : Bool} {tagBad : List Nat} (h : carrierRefusal d b = none) (hlen : (carrierComps b).length = 4)
    (ht : (testedEntry (carrierComps b)).isSome = true) : ∃ bs, recoveryTake b flash tagBad d =
      if d.foot.lifecycle = 2 then handover (carrierComps b) false [] (footU (fun y => { y with fromFlash := flash }) d)
      else postDev 0xEC bs (handover (carrierComps b) false tagBad (carrierChosen b d)) := by
  have hnone : (testedEntry (carrierComps b)).isNone = false := by
    rw [← Option.not_isSome, ht]
    rfl
  unfold recoveryTake
  rw [h]
  dsimp only
  rw [if_neg (not_not_intro hlen), hnone]
  exact ⟨_, rfl⟩

theorem recoverySlot_lt (d : Dev) : recoverySlot d < 2 := by
  unfold recoverySlot
  split <;> decide

theorem boundSlot_rec (m : Nat) (r : SlotRec) (cs : List FwComp) : (boundSlot m r cs).rec_ = some r := by
  unfold boundSlot tagSlot
  dsimp only
  split <;> rfl

theorem slot_slotU_self {m : Nat} (g : FwSlot → FwSlot) (h : m < d.foot.slots.length) : slot (slotU m g d) m = g (slot d m) :=
  getD_updAt_self g h {}

theorem length_updAt {α : Type} (u : α → α) (l : List α) (m : Nat) : (updAt u l m).length = l.length := by
  induction l generalizing m with
  | nil => rfl
  | cons x l ih =>
    cases m with
    | zero => rfl
    | succ m => exact congrArg (· + 1) (ih m)

theorem slotSt_congr (h : e.foot.slots = d.foot.slots) (m : Nat) : slotSt e m = slotSt d m := by
  unfold slotSt slot
  rw [h]

/-- The slot a carrier was bound to stands confirmed. -/
theorem carrierBound_st (b : Bytes) (h : d.foot.slots.length = 2) : slotSt (carrierBound b d) (recoverySlot d) = 1 := by
  have hlen : recoverySlot d < (slotU (recoverySlot d) (fun _ => {}) d).foot.slots.length := by
    rw [slotU, footU_foot, length_updAt, h]
    exact recoverySlot_lt d
  unfold slotSt carrierBound
  dsimp only
  rw [slot_slotU_self _ hlen, boundSlot_rec]
  rfl

end Sys2Proof.Machine

/-! SUPPORT. Main power falls, and the bridge brings up the islands (R548, R584, R585). -/

namespace Sys2Proof.Machine
open Sys2Proof

variable {s : State} {d e f : Dev} {i k n : Nat}

/-! ### A fall of main power (R584) -/

theorem powerLost_facts (d : Dev) : (powerLost d).power = false ∧ (powerLost d).foot.pg = d.foot.pg ∧ (powerLost d).xings = [] ∧ (powerLost d).ledger.wbuf = [] := by
  obtain ⟨ep, hep⟩ := loseContents_eq _
  unfold powerLost
  dsimp only
  rw [hep]
  exact ⟨rfl, rfl, rfl, rfl⟩

theorem Logs.xings (h : Logs d e) : e.xings = d.xings := (congrArg Dev.xings h :)

/-! ### Bring-up (R548, R585) -/

theorem setHealthy_healthy (b : Bool) (d : Dev) : (setHealthy b d).foot.healthy = b := by
  unfold setHealthy
  split
  · next h => exact h
  · rfl

theorem setHealthy_running (b : Bool) (d : Dev) : (setHealthy b d).foot.running = d.foot.running ∧ (setHealthy b d).power = d.power := by
  unfold setHealthy
  split
  · exact ⟨rfl, rfl⟩
  · exact ⟨rfl, rfl⟩

/-- What is up before HEALTHY is decided. -/
def islandsUp (tr : List ChTrain) (d : Dev) : Dev :=
  let d := dramBoot tr { d with power := true }
  let d := ((List.range 4).filter fun f => fnPresent d f).foldl (fun d f => fnU f (fun x => { x with ready := true }) d) d
  loopN 4 (fun n d => drvFollow n 0 d) d

theorem islandsUp_facts (tr : List ChTrain) (d : Dev) : (islandsUp tr d).foot = d.foot ∧ (islandsUp tr d).power = true := by
  have hall : SameBoot { d with power := true } (islandsUp tr d) :=
    (sameBoot_dramBoot tr _).trans <| (sameBoot_foldl (fun _ _ => sameBoot_fnU _ _ _) _ _).trans (sameBoot_loopN (fun _ d => sameBoot_drvFollow _ _ d) 4 _)
  exact ⟨hall.foot, hall.power⟩

theorem bridgeBringup_lands {tr : List ChTrain} (hboot : s.dev.foot.boot = .running) (hpg : s.dev.foot.pg = true) (hpow : s.dev.power = false)
    (hfatal : s.dev.fatal = false) (hreset : s.dev.foot.needReset = false) : Lands (.bridgeBringup tr) s
      (if islandOn (islandsUp tr s.dev) (gIsland 0) && decide (chanCount (islandsUp tr s.dev) ≠ 0) then setHealthy true (islandsUp tr s.dev)
       else islandsUp tr s.dev) :=
  lands_of_lift (exec_bridgeBringup tr s) (if_pos (by simp [hboot, hpg, hpow, hfatal, hreset]))

/-! ### The obligation -/

theorem debugScoped_open (h : d.foot.lifecycle ≠ 1) : (debugScoped d).dbgPort = true ∧ (debugScoped d).dbgCores = true := by
  unfold debugScoped
  rw [if_neg h]
  exact ⟨rfl, rfl⟩

theorem slotSt_landed (s : State) (d : Dev) (m : Nat) : slotSt (landed s d).dev m = slotSt d m := slotSt_congr (congrArg Foot.slots (landed_foot s d)) m

theorem chanCount_landed (s : State) (d : Dev) : chanCount (landed s d).dev = chanCount d := rfl

theorem nowRunning_slots (cs : List FwComp) (u : Bool) (d : Dev) : (nowRunning cs u d).foot.slots = d.foot.slots := rfl

theorem carrierChosen_slots (b : Bytes) (d : Dev) : (carrierChosen b d).foot.slots = (carrierBound b d).foot.slots := by rw [carrierChosen, footU_foot]

/-- A carrier that is taken runs, and stands confirmed in its slot. -/
theorem recoveryTake_facts {b : Bytes} {flash : Bool} {tagBad : List Nat} (hok : carrierRefusal d b = none) (hlen : (carrierComps b).length = 4)
    (ht : (testedEntry (carrierComps b)).isSome = true) (hslots : d.foot.slots.length = 2) :
    (recoveryTake b flash tagBad d).foot.boot = .running ∧ (recoveryTake b flash tagBad d).foot.running = carrierComps b ∧
    (d.foot.lifecycle ≠ 2 → (recoveryTake b flash tagBad d).foot.recovered = true ∧
      slotSt (recoveryTake b flash tagBad d) (recoveryTake b flash tagBad d).foot.runSlot = 1) := by
  obtain ⟨bs, htake⟩ := recoveryTake_runs (flash := flash) (tagBad := tagBad) hok hlen ht
  by_cases hlc : d.foot.lifecycle = 2
  · rw [if_pos hlc] at htake
    rw [htake, (handover_facts _ _ _ _).1]
    exact ⟨rfl, rfl, fun h => absurd hlc h⟩
  · rw [if_neg hlc] at htake
    have hfoot : (recoveryTake b flash tagBad d).foot = (nowRunning (carrierComps b) false (carrierChosen b d)).foot := by
      rw [htake, (posts_postDev _ _ _).sameBoot.foot, (handover_facts _ _ _ _).1]
    have hkept : (recoveryTake b flash tagBad d).foot.slots = (carrierBound b d).foot.slots := by
      rw [hfoot, nowRunning_slots, carrierChosen_slots]
    have hst := (slotSt_congr hkept (recoverySlot d)).trans (carrierBound_st b hslots)
    rw [hfoot]
    exact ⟨rfl, rfl, fun _ => ⟨rfl, hst⟩⟩

/-- Settles O50: each outcome of the boot is one branch of its instruction, and nothing loaded on the way touches footing. -/
theorem footingBootsRecoversAndBringsUp : Obligations.FootingBootsRecoversAndBringsUp := by
  unfold Obligations.FootingBootsRecoversAndBringsUp
  intro s src tagBad calBad recovery d held
  subst held d
  refine ⟨fun hb r f k => ?_, fun hb f k => ?_, fun hb k => ?_, fun hb hlc hle hpg k => ?_, fun hb hlc k => ?_, fun hb hpg htr hlc => ?_,
    fun i rest r hb hpg htr hlc hsrc hcand hrec hst hc ht => ?_, fun b hb => ?_, fun x hb hdue hx => ?_, fun hb hdue hx hforced => ?_,
    fun cause hpg hcause hb => ?_, fun cause hpg hcause hb => ?_, fun tr hb hpg hpow hfatal hreset => ?_⟩
  · exact lands_of_lift (exec_coldBoot _ _ _ _ _ _ _ _ s) ((if_neg (not_not_intro hb)).trans (if_pos rfl))
  · exact lands_of_lift (exec_coldBoot _ _ _ _ _ _ _ _ s) ((if_neg (not_not_intro hb)).trans ((if_neg Bool.false_ne_true).trans (if_pos rfl)))
  · exact lands_of_lift (exec_coldBoot _ _ _ _ _ _ _ _ s)
      ((if_neg (not_not_intro hb)).trans ((if_neg Bool.false_ne_true).trans ((if_neg Bool.false_ne_true).trans (if_pos rfl))))
  · have hlands := coldBoot_lands (src := src) (tagBad := tagBad) (calBad := calBad) (recovery := recovery) (flash := k) hb
    have hfoot := selfTested_foot src calBad s.dev
    rw [hlc] at hfoot
    generalize selfTested src calBad s.dev = e at hlands hfoot
    have hcycle : e.foot.lifecycle = s.dev.foot.lifecycle := by rw [hfoot]; rfl
    have hpower : e.foot.pg = false := by rw [hfoot]; exact hpg
    rw [if_neg (by omega), if_neg (by simp [hpower])] at hlands
    refine runs_of_lands hlands ?_
    rw [landed_foot, landed_dbgPort, landed_dbgCores, bootPins_foot, (bootPins_dbg _ _ _).1, (bootPins_dbg _ _ _).2, footU_foot]
    refine ⟨rfl, ?_, fun h1 => ?_⟩
    · exact congrArg Foot.boots hfoot
    · exact debugScoped_open (hcycle ▸ h1)
  · have hlands := coldBoot_lands (src := src) (tagBad := tagBad) (calBad := calBad) (recovery := recovery) (flash := k) hb
    have hfoot := selfTested_foot src calBad s.dev
    rw [hlc] at hfoot
    generalize selfTested src calBad s.dev = e at hlands hfoot
    have hreturned : 2 < e.foot.lifecycle := by
      rw [hfoot]
      exact Nat.lt_succ_self 2
    rw [if_pos hreturned] at hlands
    refine runs_of_lands hlands ?_
    rw [landed_foot, halt_foot, hfoot]
    exact ⟨rfl, rfl⟩
  · have hlands : Lands (.pgRise false tagBad recovery) s (halt 3 (footU (fun x => { x with pg := true }) s.dev)) :=
      lands_of_lift (exec_pgRise false tagBad recovery s) ((if_neg (by simp [hpg, htr])).trans ((if_pos hb).trans (bootSlot_flashFails hlc)))
    refine runs_of_lands hlands ?_
    rw [landed_foot, halt_foot]
    exact ⟨rfl, rfl⟩
  · have hlands : Lands (.pgRise true tagBad recovery) s
        (handover (slot s.dev i).comps false tagBad (slotChosen i (footU (fun x => { x with pg := true }) s.dev))) :=
      lands_of_lift (exec_pgRise true tagBad recovery s) ((if_neg (by simp [hpg, htr])).trans ((if_pos hb).trans
        (bootSlot_first (d := footU (fun x => { x with pg := true }) s.dev) hlc hsrc hcand hrec hst hc ht)))
    obtain ⟨hfoot, hun⟩ := handover_facts (slot s.dev i).comps false tagBad (slotChosen i (footU (fun x => { x with pg := true }) s.dev))
    refine runs_of_lands hlands ?_
    rw [landed_foot, landed_untested, hfoot, hun]
    exact ⟨rfl, rfl, rfl, rfl, rfl⟩
  · have hlands : Lands (.recoveryCarrier b) s (recoveryTake b false s.dev.foot.gateBad s.dev) := lands_of_lift (exec_recoveryCarrier b s) (if_pos hb)
    refine runs_of_lands hlands ⟨fun x hx => by rw [recoveryTake_refused hx], fun hok hlen ht hslots => ?_⟩
    rw [landed_foot, slotSt_landed]
    exact recoveryTake_facts hok hlen ht hslots
  · refine lands_of_lift (exec_recoveryTimeout s) ((if_pos ⟨hb, hdue⟩).trans ?_)
    rw [hx]
  · refine lands_of_lift (exec_recoveryTimeout s) ((if_pos ⟨hb, hdue⟩).trans ?_)
    rw [hx, hforced]
    rfl
  · exact lands_of_lift (exec_pgFall cause s) ((if_neg (by simp [hpg, hcause])).trans (if_pos hb))
  · have hlands : Lands (.pgFall cause) s (logErr 2 0xFE (0xFC00 + cause) [] (powerLost (footU (fun x => { x with pg := false }) s.dev))) := by
      refine lands_of_lift (exec_pgFall cause s) ((if_neg (by simp [hpg, hcause])).trans ?_)
      exact (if_neg (by simp [hb])).trans (if_pos hb)
    obtain ⟨hpow, hpg', hx, hw⟩ := powerLost_facts (footU (fun x => { x with pg := false }) s.dev)
    have hlogs := logs_logErr 2 0xFE (0xFC00 + cause) [] (powerLost (footU (fun x => { x with pg := false }) s.dev))
    refine ⟨hlands, runs_of_lands hlands ?_⟩
    rw [landed_power, landed_foot, landed_xings, landed_ledger, hlogs.power, hlogs.foot, hlogs.xings, hlogs.ledger]
    exact ⟨hpow, hpg', hx, hw⟩
  · have hlands := bridgeBringup_lands (tr := tr) hb hpg hpow hfatal hreset
    obtain ⟨hfoot, hpow'⟩ := islandsUp_facts tr s.dev
    generalize islandsUp tr s.dev = e at hlands hfoot hpow'
    refine runs_of_lands hlands ?_
    rw [landed_power, landed_foot, islandOn_landed, chanCount_landed]
    by_cases hup : (islandOn e (gIsland 0) && decide (chanCount e ≠ 0)) = true
    · obtain ⟨hrun, hp⟩ := setHealthy_running true e
      rw [if_pos hup, hrun, hp, setHealthy_healthy, hfoot]
      exact ⟨hpow', rfl, fun _ _ => rfl⟩
    · rw [if_neg hup, hfoot]
      exact ⟨hpow', rfl, fun hon hc => absurd (by simp [hon, hc]) hup⟩

end Sys2Proof.Machine
